-- ==== Sys2Proof/Word.lean ====
section
/-! DEFINITION. The machine's words: bytes, 32-bit lane words and 64-bit addresses (00_scope.md R4). -/

namespace Sys2Proof

/-- One byte of memory. -/
abbrev Byte := BitVec 8
/-- A 16-bit half, also the width of a format tag (04_numbers.md R59). -/
abbrev Half := BitVec 16
/-- A 32-bit lane word (02_organisation.md R11). -/
abbrev Word := BitVec 32
/-- A 64-bit value: an address or a register pair (04_numbers.md R58). -/
abbrev DWord := BitVec 64

end Sys2Proof
end

