-- ==== Sys2Proof/Machine/Store.lean ====
section
/-! DEFINITION. Maps from numbers to data as lists in rising order of key, and memory as such a list with one
canonical form: strictly rising keys and no byte equal to what an unlisted address reads as, which is 0
(25_system.md R378). -/

namespace Sys2Proof

/-- The entry at a key. -/
def alook {α : Type} (k : Nat) : List (Nat × α) → Option α
  | [] => none
  | (j, v) :: l => if j = k then some v else if k < j then none else alook k l

/-- The map with the entry at a key replaced. -/
def aput {α : Type} (k : Nat) (v : α) : List (Nat × α) → List (Nat × α)
  | [] => [(k, v)]
  | (j, w) :: l => if k < j then (k, v) :: (j, w) :: l else if k = j then (k, v) :: l else (j, w) :: aput k v l

/-- The map without the entry at a key. -/
def adel {α : Type} (k : Nat) : List (Nat × α) → List (Nat × α)
  | [] => []
  | (j, w) :: l => if k < j then (j, w) :: l else if k = j then l else (j, w) :: adel k l

/-- Keys strictly rise. -/
def asorted {α : Type} (l : List (Nat × α)) : Prop := l.Pairwise fun x y => x.1 < y.1

/-- Memory: the bytes that are not 0. -/
abbrev Memory := List Host.Cell

/-- The byte at a key; an unlisted one reads 0 (R378). -/
def Memory.read (m : Memory) (a : Nat) : Byte := (alook a m).getD 0

/-- The memory with one byte written. -/
def Memory.write (m : Memory) (a : Nat) (b : Byte) : Memory := if b = 0 then adel a m else aput a b m

/-- The canonical form. -/
abbrev Memory.wf (m : Memory) : Prop := (m.Pairwise fun x y => x.1 < y.1) ∧ ∀ c ∈ m, c.2 ≠ 0

/-- n bytes from a key up. -/
def Memory.readN (m : Memory) (a : Nat) : Nat → List Byte
  | 0 => []
  | n + 1 => Memory.read m a :: Memory.readN m (a + 1) n

/-- Bytes written from a key up. -/
def Memory.writeN (m : Memory) (a : Nat) : List Byte → Memory
  | [] => m
  | b :: l => Memory.writeN (Memory.write m a b) (a + 1) l

/-- Bytes zeroed from a key up. -/
def Memory.zero (m : Memory) (a n : Nat) : Memory := m.filter fun c => !(decide (a ≤ c.1) && decide (c.1 < a + n))

/-- The number that little-endian bytes stand for (R4). -/
def leNat : List Byte → Nat
  | [] => 0
  | b :: l => b.toNat + 256 * leNat l

/-- The n little-endian bytes of a number (R4). -/
def natLe : Nat → Nat → List Byte
  | 0, _ => []
  | n + 1, v => BitVec.ofNat 8 v :: natLe n (v / 256)

/-! ### Where each space lies in the one list of bytes -/

/-- Bytes of HBM of this module (R17). -/
def hbmBytes : Nat := 640 * 2 ^ 30
/-- The key of a byte of HBM. -/
def kHbm (pa : Nat) : Nat := pa
/-- The lines of a home slice of 2 MiB (R9, R12). -/
def sliceLines : Nat := 2 ^ 14
/-- The key of a byte of host memory. -/
def kHost (pa : Nat) : Nat := 2 ^ 60 + pa
/-- The key of a byte of a core's scratchpad (R13). -/
def kScratch (core off : Nat) : Nat := 2 ^ 61 + core * 2 ^ 19 + off
/-- The key of a byte of a canopy slice: quadrant of the module, column lane and offset (R11, R18). -/
def kCanopy (quad lane off : Nat) : Nat := 2 ^ 62 + quad * 2 ^ 21 + lane * 2 ^ 15 + off
/-- The key of a byte of accumulator memory (R11). -/
def kAccum (quad off : Nat) : Nat := 2 ^ 63 + quad * 2 ^ 18 + off
/-- The key of a byte of side memory (R11). -/
def kSide (quad off : Nat) : Nat := 2 ^ 63 + 2 ^ 40 + quad * 2 ^ 15 + off

/-- The key of a byte of a pre-empted workgroup's image (19_scheduling.md R286): its scratchpad footprint from
offset 0, its accumulator, side memory and canopy allocations above that. -/
def kImage (wg off : Nat) : Nat := 2 ^ 64 + wg * 2 ^ 24 + off
/-- The name that a core gives to a byte of another module's memory whose instructions it keeps copies of. -/
def kFar (m pa : Nat) : Nat := 2 ^ 69 + m * 2 ^ 50 + pa
/-- A key of scratchpad, in a core or in an image. -/
def isScratch (k : Nat) : Bool :=
  (decide (2 ^ 61 ≤ k) && decide (k < 2 ^ 61 + 192 * 2 ^ 19)) || decide (2 ^ 64 ≤ k)
/-- The core of a scratchpad key. -/
def scratchCore (k : Nat) : Nat := (k - 2 ^ 61) / 2 ^ 19
/-- The key of the aligned word that holds a byte. -/
def wordKey (k : Nat) : Nat := k - k % 4
/-- The key of the 128-byte line that holds a byte (R12). -/
def lineKey (k : Nat) : Nat := k - k % 128

end Sys2Proof
end

