-- ==== Sys2Proof/Machine/Hash.lean ====
section
/-! DEFINITION. SHA-384, which the custody processor computes over measurements, blocks and headers (25_system.md R375,
R379, R385, R387). The function is that of FIPS 180-4, whose constants are the first bits of the fractional parts of roots of
primes. -/

namespace Sys2Proof.Machine

/-- A number is prime. -/
def isPrime (n : Nat) : Bool := decide (2 ≤ n) && ((List.range n).drop 2).all fun d => n % d != 0
/-- The first 80 primes. -/
def primes80 : List Nat := (List.range 410).filter isPrime

/-- The greatest x below 2^n with x^k at most v, from its highest bit down. -/
def rootBits (k v : Nat) : Nat → Nat → Nat
  | 0, x => x
  | n + 1, x => rootBits k v n (if (x + 2 ^ n) ^ k ≤ v then x + 2 ^ n else x)

/-- The constants of the rounds: 64 bits of the fractional parts of cube roots. -/
def shaK : List DWord := primes80.map fun p => BitVec.ofNat 64 (rootBits 3 (p * 2 ^ 192) 68 0)
/-- The initial value of SHA-384: 64 bits of the fractional parts of square roots. -/
def sha384Init : List DWord := ((primes80.drop 8).take 8).map fun p => BitVec.ofNat 64 (rootBits 2 (p * 2 ^ 128) 70 0)

def shaBig0 (x : DWord) : DWord := x.rotateRight 28 ^^^ x.rotateRight 34 ^^^ x.rotateRight 39
def shaBig1 (x : DWord) : DWord := x.rotateRight 14 ^^^ x.rotateRight 18 ^^^ x.rotateRight 41
def shaSmall0 (x : DWord) : DWord := x.rotateRight 1 ^^^ x.rotateRight 8 ^^^ (x >>> 7)
def shaSmall1 (x : DWord) : DWord := x.rotateRight 19 ^^^ x.rotateRight 61 ^^^ (x >>> 6)

/-- A number whose first byte is its most significant. -/
def beNat (bs : List Byte) : Nat := leNat bs.reverse

/-- The message schedule of a block, from its last word backwards. -/
def shaSchedule : Nat → List DWord → List DWord
  | 0, w => w
  | n + 1, w => shaSchedule n ((shaSmall1 (w.getD 1 0) + w.getD 6 0 + shaSmall0 (w.getD 14 0) + w.getD 15 0) :: w)

/-- One round on the eight working variables. -/
def shaRound (v : List DWord) (kw : DWord) : List DWord :=
  let g := fun (i : Nat) => v.getD i 0
  let t1 := g 7 + shaBig1 (g 4) + ((g 4 &&& g 5) ^^^ (~~~(g 4) &&& g 6)) + kw
  let t2 := shaBig0 (g 0) + ((g 0 &&& g 1) ^^^ (g 0 &&& g 2) ^^^ (g 1 &&& g 2))
  [t1 + t2, g 0, g 1, g 2, g 3 + t1, g 4, g 5, g 6]

/-- A block of 128 bytes taken into the hash. -/
def shaBlock (h : List DWord) (b : List Byte) : List DWord :=
  let w := (List.range 16).map fun i => BitVec.ofNat 64 (beNat ((b.drop (8 * i)).take 8))
  let ws := (shaSchedule 64 w.reverse).reverse
  let v := (shaK.zip ws).foldl (fun (v : List DWord) (x : DWord × DWord) => shaRound v (x.1 + x.2)) h
  (h.zip v).map fun x => x.1 + x.2

/-- The padding of a message of n bytes. -/
def shaPad (n : Nat) : List Byte :=
  (0x80 : Byte) :: (List.replicate ((239 - n % 128) % 128) 0 ++ (natLe 16 (8 * n)).reverse)

/-- SHA-384 of a message: 48 bytes. -/
def sha384 (m : List Byte) : List Byte :=
  let x := m ++ shaPad m.length
  let h := (List.range (x.length / 128)).foldl (fun (h : List DWord) i => shaBlock h ((x.drop (128 * i)).take 128)) sha384Init
  (h.take 6).flatMap fun v => (natLe 8 v.toNat).reverse

end Sys2Proof.Machine
end

