-- ==== Sys2Proof/Machine/Tags.lean ====
section
/-! DEFINITION. The format tag of 04_numbers.md R59 to R61 as a number, and the special register numbers
of 07_execution.md R134. -/

namespace Sys2Proof

/-- KIND, bits 3:0 (R59). -/
def tagKind (t : Nat) : Nat := t % 16
/-- P, bits 6:4 (R59). -/
def tagPrec (t : Nat) : Nat := t / 16 % 8
/-- SCALE, bits 15:8, two's complement (R59). -/
def tagScale (t : Nat) : Int :=
  let u := t / 256 % 256
  if u < 128 then (u : Int) else (u : Int) - 256

/-- The tag with these fields (R59); the scale is taken modulo 2^8. -/
def mkTag (kind prec : Nat) (scale : Int) : Nat := (scale % 256).toNat * 256 + prec * 16 + kind

/-- A tag is valid when bit 7 is 0 and P and SCALE are as the table of R60 allows. -/
def validTag (t : Nat) : Bool :=
  decide (t < 65536) && decide (t / 128 % 2 = 0) &&
    (let k := tagKind t
     let p := tagPrec t
     let sc := t / 256 % 256
     if 10 ≤ k ∧ k ≤ 13 then decide (1 ≤ p)
     else if 1 ≤ k ∧ k ≤ 6 then decide (p = 0)
     else decide (p = 0) && decide (sc = 0))

/-- The assigned special register numbers (R134). -/
def sregOk (n : Nat) : Bool := decide (n ≤ 0x0E) || (decide (0x10 ≤ n) && decide (n ≤ 0x20))
/-- The 64-bit special registers: the arguments and the clock (R134). -/
def sregWide (n : Nat) : Bool := decide (0x10 ≤ n) && decide (n ≤ 0x20)

/-- LDT's word count: 0 means 16 (08_memory.md R161). -/
def ldtCount (z : Nat) : Nat := if z = 0 then 16 else z

/-- The code of a scope (03_encodings.md R29). -/
def scopeCode (n : Nat) : Nat := n % 4

end Sys2Proof
end

