-- ==== Sys2Proof/Machine/Flags.lean ====
section
/-! DEFINITION. The sticky flags of `%fflags` (04_numbers.md R72). -/

namespace Sys2Proof

/-- The sticky flags (R72): bit 0 NV, 1 DZ, 2 OF, 3 UF, 4 NX, 5 SAT. Bits 31:6 of `%fflags` are 0. -/
abbrev FFlags := BitVec 6
/-- An invalid operation. -/
def fNV : FFlags := 1
/-- Division of a finite non-zero value by zero, and log of zero. -/
def fDZ : FFlags := 2
/-- An overflow. -/
def fOF : FFlags := 4
/-- A result that is tiny after rounding and inexact. -/
def fUF : FFlags := 8
/-- An inexact result. -/
def fNX : FFlags := 16
/-- A clamp by a saturating form or under SAT. -/
def fSAT : FFlags := 32

/-- The flag f where c holds. -/
def flagIf (c : Bool) (f : FFlags) : FFlags := if c then f else 0

/-- `%fflags` as a register reads it (R72, R134). -/
def flagsWord (f : FFlags) : Word := f.setWidth 32
/-- The flags a write of the trap frame's item FFLAGS leaves: bits 31:6 stay 0 (R72, R305). -/
def flagsOfWord (w : Word) : FFlags := w.setWidth 6

end Sys2Proof
end

