-- ==== Sys2Proof/Machine/Numbers.lean ====
section
/-! DEFINITION. Exact numbers, the element formats and the roundings of 04_numbers.md. An exact value is a
dyadic number. A value that is no dyadic number (a quotient, a root, a transcendental) is stood for by a
dyadic number that lies strictly between the same two neighbours at every precision in use (its last bit is
set, far below every rounding position), so that every rounding and every flag comes out as for the value. -/

namespace Sys2Proof

/-- The rounding modes (R66). -/
inductive Rm where
  | rne | rna | rtz | rup | rdn
  deriving DecidableEq, Repr

/-- The code of a mode (R66). -/
def Rm.code : Rm → Nat
  | .rne => 1 | .rna => 2 | .rtz => 3 | .rup => 4 | .rdn => 5

/-- The mode with this code; codes 0, 6 and 7 name none (R66, R305). -/
def rmOfCode : Nat → Option Rm
  | 1 => some .rne | 2 => some .rna | 3 => some .rtz | 4 => some .rup | 5 => some .rdn | _ => none

/-- The mode of a packet or block field, where 0 selects RNE (R67). -/
def rmField (n : Nat) : Option Rm := if n = 0 then some .rne else rmOfCode n

/-- An exact value: a NaN, an infinity, or plus or minus mag times 2^exp. A zero keeps its sign. -/
inductive Num where
  | nan
  | inf (neg : Bool)
  | fin (neg : Bool) (mag : Nat) (exp : Int)
  deriving DecidableEq, Repr

/-- The number of bits of n. -/
def bitLen (n : Nat) : Nat := if n = 0 then 0 else Nat.log2 n + 1

/-- 2 to an integer power, 0 for a negative one (used where the power is known not negative). -/
def pow2i (e : Int) : Nat := 2 ^ e.toNat

/-- n shifted left by an integer count; to the right for a negative one, dropping bits. -/
def shiftNat (n : Nat) (e : Int) : Nat := if 0 ≤ e then n * 2 ^ e.toNat else n / 2 ^ (-e).toNat

/-- An integer as an exact value. -/
def Num.ofInt (z : Int) (e : Int := 0) : Num := .fin (decide (z < 0)) z.natAbs e

/-- The value times 2^k (R61). -/
def Num.scale (x : Num) (k : Int) : Num :=
  match x with
  | .fin n m e => .fin n m (e + k)
  | y => y

/-- The value with its sign inverted. -/
def Num.neg : Num → Num
  | .nan => .nan
  | .inf n => .inf (!n)
  | .fin n m e => .fin (!n) m e

def Num.isNan : Num → Bool
  | .nan => true
  | _ => false

/-- True of a zero of either sign. -/
def Num.isZero : Num → Bool
  | .fin _ m _ => m == 0
  | _ => false

/-- The sign of a value that is no NaN. -/
def Num.sign : Num → Bool
  | .nan => false
  | .inf n => n
  | .fin n _ _ => n

/-- The signed integer n·2^(e−b) of a finite value, for an exponent b not above e. -/
def alignTo (n : Bool) (m : Nat) (e b : Int) : Int :=
  let k : Int := (m * 2 ^ (e - b).toNat : Nat)
  if n then -k else k

/-- The product of two exact values and whether it is an invalid operation (R76, R77). -/
def mulNum (x y : Num) : Num × Bool :=
  match x, y with
  | .nan, _ => (.nan, false)
  | _, .nan => (.nan, false)
  | .inf a, .inf b => (.inf (a != b), false)
  | .inf a, .fin b m _ => if m = 0 then (.nan, true) else (.inf (a != b), false)
  | .fin a m _, .inf b => if m = 0 then (.nan, true) else (.inf (a != b), false)
  | .fin a m e, .fin b m' e' => (.fin (a != b) (m * m') (e + e'), false)

/-- The least exponent of the finite terms. -/
def minExp : List Num → Int → Int
  | [], b => b
  | .fin _ _ e :: l, b => minExp l (min e b)
  | _ :: l, b => minExp l b

/-- The exact sum of the finite terms in units of 2^b. -/
def sumAt (b : Int) : List Num → Int
  | [] => 0
  | .fin n m e :: l => alignTo n m e b + sumAt b l
  | _ :: l => sumAt b l

/-- The exact sum of terms (R74 to R77): the value, and whether infinities of both signs met without a NaN.
A sum that is zero has the terms' sign where all are zeros of one sign, else + (− under RDN). -/
def sumNum (rm : Rm) (l : List Num) : Num × Bool :=
  if l.any Num.isNan then (.nan, false)
  else
    let p := l.contains (.inf false)
    let n := l.contains (.inf true)
    if p && n then (.nan, true)
    else if p then (.inf false, false)
    else if n then (.inf true, false)
    else
      let b := minExp l 0
      let z := sumAt b l
      if z = 0 then
        let sg :=
          if l.all (fun x => x.isZero && x.sign) && !l.isEmpty then true
          else if l.all (fun x => x.isZero && !x.sign) then false
          else decide (rm = .rdn)
        (.fin sg 0 0, false)
      else (.fin (decide (z < 0)) z.natAbs b, false)

/-- Numeric comparison of values that are no NaN: −1, 0 or 1. Zeros of both signs are equal. -/
def cmpNum (x y : Num) : Int :=
  match x, y with
  | .inf a, .inf b => if a = b then 0 else if a then -1 else 1
  | .inf a, _ => if a then -1 else 1
  | _, .inf b => if b then 1 else -1
  | .fin a m e, .fin b m' e' =>
    let base := min e e'
    let u := alignTo a m e base
    let v := alignTo b m' e' base
    if u < v then -1 else if u = v then 0 else 1
  | _, _ => 0

/-- Whether a magnitude with remainder r of d (r < d) below rounds up in magnitude. odd says that the
candidate below has an odd code. -/
def roundsUp (rm : Rm) (neg odd : Bool) (r d : Nat) : Bool :=
  if r = 0 then false
  else
    match rm with
    | .rne => decide (d < 2 * r) || (decide (2 * r = d) && odd)
    | .rna => decide (d ≤ 2 * r)
    | .rtz => false
    | .rup => !neg
    | .rdn => neg

/-- RoundInt of R83 on m·2^e with sign neg: the integer and whether it differs from the value. -/
def roundIntMag (rm : Rm) (neg : Bool) (m : Nat) (e : Int) : Nat × Bool :=
  if 0 ≤ e then (m * 2 ^ e.toNat, false)
  else
    let d := 2 ^ (-e).toNat
    let q := m / d
    let r := m % d
    (if roundsUp rm neg (q % 2 == 1) r d then q + 1 else q, decide (r ≠ 0))

/-- RoundInt of R83 as a signed integer. -/
def roundInt (rm : Rm) (neg : Bool) (m : Nat) (e : Int) : Int × Bool :=
  let (q, ix) := roundIntMag rm neg m e
  (if neg then -(q : Int) else q, ix)

/-- What overflow becomes (R68, R69). -/
inductive Ovf where
  | sat | ovf
  deriving DecidableEq, Repr

/-- A floating element format: precision, exponent field width and the family (R53 to R57). -/
inductive Fmt where
  /-- an IEEE format of prec significant bits and an exponent field of w bits -/
  | ieee (prec w : Nat)
  /-- binary8 of precision prec, signed or not, extended or finite -/
  | b8 (prec : Nat) (sgn ext : Bool)
  deriving DecidableEq, Repr

def f32 : Fmt := .ieee 24 8
def f16 : Fmt := .ieee 11 5
def bf16 : Fmt := .ieee 8 8

def Fmt.prec : Fmt → Nat
  | .ieee p _ => p
  | .b8 p _ _ => p

/-- The width of the exponent field (R55). -/
def Fmt.ew : Fmt → Nat
  | .ieee _ w => w
  | .b8 p sgn _ => if sgn then 8 - p else 9 - p

def Fmt.bias : Fmt → Nat
  | .ieee _ w => 2 ^ (w - 1) - 1
  | .b8 p sgn _ => 2 ^ ((if sgn then 8 - p else 9 - p) - 1)

def Fmt.signed : Fmt → Bool
  | .ieee _ _ => true
  | .b8 _ sgn _ => sgn

/-- Bits of a code. -/
def Fmt.width : Fmt → Nat
  | .ieee p w => p + w
  | .b8 _ _ _ => 8

/-- The magnitude code of the largest finite value (R56, R57). -/
def Fmt.maxMag : Fmt → Nat
  | .ieee p w => (2 ^ w - 1) * 2 ^ (p - 1) - 1
  | .b8 _ true false => 0x7F
  | .b8 _ true true => 0x7E
  | .b8 _ false false => 0xFE
  | .b8 _ false true => 0xFD

/-- The exponent of the smallest normal value. -/
def Fmt.emin (f : Fmt) : Int := 1 - (f.bias : Int)

/-- The canonical NaN (R54, R55). -/
def Fmt.nanCode : Fmt → Nat
  | .ieee p w => (2 ^ w - 1) * 2 ^ (p - 1) + 2 ^ (p - 2)
  | .b8 _ true _ => 0x80
  | .b8 _ false _ => 0xFF

/-- The format has an infinity of this sign. -/
def Fmt.hasInf : Fmt → Bool → Bool
  | .ieee _ _, _ => true
  | .b8 _ sgn ext, neg => ext && (sgn || !neg)

/-- A sign and a magnitude code as a code. A binary8 zero has no sign (R55). -/
def Fmt.withSign (f : Fmt) (neg : Bool) (c : Nat) : Nat :=
  match f with
  | .ieee p w => if neg then c + 2 ^ (p + w - 1) else c
  | .b8 _ _ _ => if neg && c != 0 then c + 0x80 else c

/-- The code of an infinity of this sign. -/
def Fmt.infCode (f : Fmt) (neg : Bool) : Nat := f.withSign neg (f.maxMag + 1)

/-- The value of a magnitude code that stands for a finite value (R55). -/
def Fmt.magVal (f : Fmt) (neg : Bool) (c : Nat) : Num :=
  let t := c % 2 ^ (f.prec - 1)
  let e := c / 2 ^ (f.prec - 1)
  let q : Int := f.emin - ((f.prec : Int) - 1)
  if e = 0 then .fin neg t q else .fin neg (2 ^ (f.prec - 1) + t) (q + e - 1)

/-- The value of a code: the IEEE decoding, and DecodeB8 of R55. -/
def Fmt.decode (f : Fmt) (c : Nat) : Num :=
  match f with
  | .ieee p w =>
    let neg := c / 2 ^ (p + w - 1) % 2 == 1
    let m := c % 2 ^ (p + w - 1)
    if m < (2 ^ w - 1) * 2 ^ (p - 1) then f.magVal neg m
    else if m = (2 ^ w - 1) * 2 ^ (p - 1) then .inf neg
    else .nan
  | .b8 _ true ext =>
    if c = 0x80 then .nan
    else if ext && c == 0x7F then .inf false
    else if ext && c == 0xFF then .inf true
    else f.magVal (decide (0x80 ≤ c)) (c % 0x80)
  | .b8 _ false ext =>
    if c = 0xFF then .nan
    else if ext && c == 0xFE then .inf false
    else f.magVal false c

/-- The magnitude code of n·2^q, where n has at most prec bits (or is 2^prec) and q is at least the quantum
of the subnormals; counted on beyond the largest code (R66). -/
def Fmt.magCode (f : Fmt) (n : Nat) (q : Int) : Nat :=
  if n < 2 ^ (f.prec - 1) then n
  else ((q - (f.emin - ((f.prec : Int) - 1))).toNat + 1) * 2 ^ (f.prec - 1) + (n - 2 ^ (f.prec - 1))

/-- RoundUnbounded of R68 on m·2^e, m not 0: the magnitude code, and whether it differs from the value. -/
def Fmt.roundMag (f : Fmt) (rm : Rm) (neg : Bool) (m : Nat) (e : Int) : Nat × Bool :=
  let top : Int := e + (bitLen m : Int) - 1
  let q : Int := max top f.emin - ((f.prec : Int) - 1)
  if q ≤ e then (f.magCode (m * 2 ^ (e - q).toNat) q, false)
  else
    let d := 2 ^ (q - e).toNat
    let lo := f.magCode (m / d) q
    let r := m % d
    (if roundsUp rm neg (lo % 2 == 1) r d then lo + 1 else lo, decide (r ≠ 0))

/-- Tiny after rounding (R72): RoundWide of R68 is below the smallest normal value. -/
def Fmt.tiny (f : Fmt) (rm : Rm) (neg : Bool) (m : Nat) (e : Int) : Bool :=
  let top : Int := e + (bitLen m : Int) - 1
  let q : Int := top - ((f.prec : Int) - 1)
  if f.emin ≤ top then false
  else if top < f.emin - 1 then true
  else if q ≤ e then true
  else
    let d := 2 ^ (q - e).toNat
    let odd := if f.prec = 1 then (top - f.emin) % 2 == 0 else m / d % 2 == 1
    let n := if roundsUp rm neg odd (m % d) d then m / d + 1 else m / d
    decide (n < 2 ^ f.prec)

/-- TowardZero of R68. -/
def towardZero (rm : Rm) (neg : Bool) : Bool :=
  match rm with
  | .rtz => true
  | .rdn => !neg
  | .rup => neg
  | _ => false

/-- The part of RoundTo (R68) for a value that is out of the format's finite range or infinite with no
infinity to go to. -/
def Fmt.overflow (f : Fmt) (rm : Rm) (oh : Ovf) (neg : Bool) : Nat × FFlags :=
  match oh with
  | .sat => (f.withSign neg f.maxMag, fSAT)
  | .ovf =>
    match f with
    | .b8 _ _ false => (f.nanCode, fOF)
    | _ => if towardZero rm neg then (f.withSign neg f.maxMag, fOF) else (f.infCode neg, fOF)

/-- A negative value into an unsigned format (R68). -/
def Fmt.negative (f : Fmt) (oh : Ovf) : Nat × FFlags :=
  match oh with
  | .sat => (0, fSAT)
  | .ovf => (f.nanCode, fNV)

/-- RoundTo of R68: the element code and the flags. -/
def roundTo (x : Num) (f : Fmt) (rm : Rm) (oh : Ovf) : Nat × FFlags :=
  match x with
  | .nan => (f.nanCode, 0)
  | .inf neg =>
    if f.hasInf neg then (f.infCode neg, 0)
    else if !f.signed && neg then f.negative oh
    else f.overflow rm oh neg
  | .fin neg m e =>
    if m = 0 then (f.withSign neg 0, 0)
    else
      let (c, ix) := f.roundMag rm neg m e
      let nx := flagIf ix fNX
      if !f.signed && neg && c != 0 then
        let (r, fl) := f.negative oh
        (r, nx ||| fl)
      else if f.maxMag < c then
        let (r, fl) := f.overflow rm oh neg
        (r, nx ||| fl)
      else (if f.signed then f.withSign neg c else c, nx ||| flagIf (ix && f.tiny rm neg m e) fUF)

/-- The rounding of lane arithmetic (R70): as RoundTo under OVF; an overflow is inexact too, as IEEE 754-2019
says. -/
def roundIeee (x : Num) (f : Fmt) (rm : Rm) : Nat × FFlags :=
  let (c, fl) := roundTo x f rm .ovf
  (c, fl ||| flagIf (fl &&& fOF != 0) fNX)

/-- The value rounded to an integral value of the same format (R95): the code, and whether it differs. -/
def roundIntegral (x : Num) (f : Fmt) (rm : Rm) : Nat × Bool :=
  match x with
  | .nan => (f.nanCode, false)
  | .inf n => (f.infCode n, false)
  | .fin n m e =>
    let (q, ix) := roundIntMag rm n m e
    ((roundTo (.fin n q 0) f .rne .ovf).1, ix)

/-- MinNum of R83. -/
def minNum (x y : Num) : Num :=
  if x.isNan then y else if y.isNan then x
  else if cmpNum x y < 0 then x else if 0 < cmpNum x y then y
  else if x.sign then x else y
/-- MaxNum of R83. -/
def maxNum (x y : Num) : Num :=
  if x.isNan then y else if y.isNan then x
  else if cmpNum x y < 0 then y else if 0 < cmpNum x y then x
  else if x.sign then y else x

/-- The value of a quotient m·2^e / (m'·2^e'), m' not 0, exact or with its last bit set below every
rounding position. -/
def quotNum (neg : Bool) (m : Nat) (e : Int) (m' : Nat) (e' : Int) : Num :=
  let k := 96 + bitLen m'
  let n := m * 2 ^ k
  let q := n / m'
  let e2 := e - e' - (k : Int)
  if n % m' = 0 then .fin neg q e2 else .fin neg (2 * q + 1) (e2 - 1)

/-- a / b (R70): value and flags of the special cases. -/
def divNum (x y : Num) : Num × FFlags :=
  match x, y with
  | .nan, _ => (.nan, 0)
  | _, .nan => (.nan, 0)
  | .inf _, .inf _ => (.nan, fNV)
  | .inf a, .fin b _ _ => (.inf (a != b), 0)
  | .fin a _ _, .inf b => (.fin (a != b) 0 0, 0)
  | .fin a m e, .fin b m' e' =>
    if m' = 0 then (if m = 0 then (.nan, fNV) else (.inf (a != b), fDZ))
    else (quotNum (a != b) m e m' e', 0)

/-- Clamp to a range; whether it clamped (R69). -/
def clampInt (lo hi z : Int) : Int × Bool := if z < lo then (lo, true) else if hi < z then (hi, true) else (z, false)

/-- SatI32 of R69: the bits and the flag. -/
def satI32 (z : Int) : Word × FFlags :=
  let (v, c) := clampInt (-2 ^ 31) (2 ^ 31 - 1) z
  (BitVec.ofInt 32 v, flagIf c fSAT)

/-- IntConvert of R83, the conversion of R69, into an element of w bits with scale sc: code and flags. -/
def intConvert (x : Num) (w : Nat) (sgn : Bool) (sc : Int) (rm : Rm) (oh : Ovf) : Nat × FFlags :=
  let lo : Int := if sgn then -2 ^ (w - 1) else 0
  let hi : Int := if sgn then 2 ^ (w - 1) - 1 else 2 ^ w - 1
  let bad : Nat := if sgn then 2 ^ (w - 1) else 2 ^ w - 1
  match x with
  | .nan => match oh with
    | .sat => (0, fNV)
    | .ovf => (bad, fNV)
  | .inf n => match oh with
    | .sat => (((if n then lo else hi) % 2 ^ w).toNat, fSAT)
    | .ovf => (bad, fNV)
  | .fin n m e =>
    let (z, ix) := roundInt rm n m (e - sc)
    let nx := flagIf ix fNX
    if lo ≤ z ∧ z ≤ hi then ((z % 2 ^ w).toNat, nx)
    else match oh with
      | .sat => (((clampInt lo hi z).1 % 2 ^ w).toNat, nx ||| fSAT)
      | .ovf => (bad, nx ||| fNV)

end Sys2Proof
end

