-- ==== Sys2Proof/Machine/Sfu.lean ====
section
/-! DEFINITION. The special functions of 06_lane_instructions.md R100 and R101, computed in fixed point with
384 bits after the point. A result that is no dyadic number is stood for as Numbers.lean says: its distance
from every rounding position of binary32 is far above the error of the computation. -/

namespace Sys2Proof

/-- Bits after the point. -/
def fxBits : Nat := 384
/-- 1 in fixed point. -/
def fxOne : Nat := 2 ^ fxBits
/-- Half of pi in fixed point, rounded down. -/
def fxHalfPi : Nat :=
  0x1921fb54442d18469898cc51701b839a252049c1114cf98e804177d4c76273644a29410f31c6809bbdf2a33679a748636
/-- The natural logarithm of 2 in fixed point, rounded down. -/
def fxLn2 : Nat :=
  0xb17217f7d1cf79abc9e3b39803f2f6af40f343267298b62d8a0d175b8baafa2be7b876206debac98559552fb4afa1b10

/-- The product of two fixed-point numbers, rounded down. -/
def fxMul (x y : Nat) : Nat := x * y / fxOne

/-- A fixed-point result v·2^n that is not exact. -/
def fxNum (neg : Bool) (v : Nat) (n : Int := 0) : Num := .fin neg (2 * v + 1) (n - (fxBits : Int) - 1)

/-- The sum of the terms of e^x from term number k, which is t, on. -/
def expSeries (x : Nat) : Nat → Nat → Nat → Nat
  | 0, _, _ => 0
  | fuel + 1, k, t => t + expSeries x fuel (k + 1) (fxMul t x / (k + 1))

/-- e^(z/2^384) for a signed z, as a mantissa in fixed point from 1 to 2 and a power of two. -/
def fxExp (z : Int) : Nat × Int :=
  let n := z / (fxLn2 : Int)
  (expSeries (z - n * (fxLn2 : Int)).toNat 96 0 fxOne, n)

/-- The sum of the even-numbered terms minus the odd-numbered ones of the series t, t·x²/(k(k+1)), ... -/
def altSeries (x2 : Nat) : Nat → Nat → Nat → Int
  | 0, _, _ => 0
  | fuel + 1, k, t => (t : Int) - altSeries x2 fuel (k + 2) (fxMul t x2 / (k * (k + 1)))

/-- sin x for x from 0 to half of pi. -/
def fxSin (x : Nat) : Nat := (altSeries (fxMul x x) 64 2 x).toNat
/-- cos x for x from 0 to half of pi. -/
def fxCos (x : Nat) : Nat := (altSeries (fxMul x x) 64 1 fxOne).toNat

/-- The sum of z^k/k over the odd k from k on, t being z^k. -/
def atanhSeries (z2 : Nat) : Nat → Nat → Nat → Nat
  | 0, _, _ => 0
  | fuel + 1, k, t => t / k + atanhSeries z2 fuel (k + 2) (fxMul t z2)

/-- The natural logarithm of m·2^e, m not 0, in fixed point. -/
def fxLn (m : Nat) (e : Int) : Int :=
  let l := bitLen m
  let x := m * 2 ^ (fxBits + 1) / 2 ^ l
  let ee : Int := e + (l : Int) - 1
  let up := decide (3 * fxOne ≤ 2 * x)
  let y := if up then x / 2 else x
  let d := if fxOne ≤ y then y - fxOne else fxOne - y
  let z := d * fxOne / (y + fxOne)
  let s : Int := (2 * atanhSeries (fxMul z z) 96 1 z : Nat)
  (if up then ee + 1 else ee) * (fxLn2 : Int) + (if fxOne ≤ y then s else -s)

/-- A signed fixed-point result that is not exact. -/
def fxSigned (z : Int) : Num := fxNum (decide (z < 0)) z.natAbs

/-- The largest square not above n, by bits from the top. -/
def isqrt : Nat → Nat → Nat → Nat
  | 0, _, r => r
  | k + 1, n, r => if (r + 2 ^ k) * (r + 2 ^ k) ≤ n then isqrt k n (r + 2 ^ k) else isqrt k n r

/-- The root of a whole number, rounded down. -/
def natRoot (n : Nat) : Nat := isqrt (bitLen n / 2 + 1) n 0

/-- The magnitude of the argument is at least 2^k. -/
def atLeastPow (m : Nat) (e k : Int) : Bool := decide (m ≠ 0) && decide (k ≤ e + (bitLen m : Int) - 1)

/-- A signed fixed-point argument ±m·2^e. -/
def fxArg (neg : Bool) (m : Nat) (e : Int) : Int :=
  let v : Int := (shiftNat m (e + (fxBits : Int)) : Nat)
  if neg then -v else v

/-- A value so large, or so small, that only its place outside the format matters. -/
def numHuge : Num := .fin false 1 4096
def numMinute : Num := .fin false 1 (-4096)

/-- The value of a special function and the flags of its special inputs; the rounding follows. -/
abbrev SfuVal := Num × FFlags

/-- e^a (R100). -/
def sfuExp : Num → SfuVal
  | .nan => (.nan, 0)
  | .inf n => (if n then .fin false 0 0 else .inf false, 0)
  | .fin n m e =>
    if m = 0 then (.fin false 1 0, 0)
    else if atLeastPow m e 10 then (if n then numMinute else numHuge, 0)
    else
      let (v, k) := fxExp (fxArg n m e)
      (fxNum false v k, 0)

/-- 2^a (R100): an integral a gives an exact power. -/
def sfuExp2 : Num → SfuVal
  | .nan => (.nan, 0)
  | .inf n => (if n then .fin false 0 0 else .inf false, 0)
  | .fin n m e =>
    if m = 0 then (.fin false 1 0, 0)
    else if atLeastPow m e 10 then (if n then numMinute else numHuge, 0)
    else
      let z := fxArg n m e
      let k := z / (fxOne : Int)
      let f := (z % (fxOne : Int)).toNat
      if f = 0 then (.fin false 1 k, 0)
      else (fxNum false (expSeries (fxMul f fxLn2) 96 0 fxOne) k, 0)

/-- ln a and log2 a: what they share (R100). -/
def sfuLogSpecial (a : Num) (f : Nat → Int → Num) : SfuVal :=
  match a with
  | .nan => (.nan, 0)
  | .inf n => if n then (.nan, fNV) else (.inf false, 0)
  | .fin n m e => if m = 0 then (.inf true, fDZ) else if n then (.nan, fNV) else (f m e, 0)

/-- The exponent of m·2^e where it is a power of two. -/
def pow2Exp (m : Nat) (e : Int) : Option Int :=
  if m = 2 ^ (bitLen m - 1) then some (e + (bitLen m : Int) - 1) else none

/-- ln a. -/
def sfuLog (a : Num) : SfuVal :=
  sfuLogSpecial a fun m e => if pow2Exp m e = some 0 then .fin false 0 0 else fxSigned (fxLn m e)

/-- log2 a. -/
def sfuLog2 (a : Num) : SfuVal :=
  sfuLogSpecial a fun m e =>
    match pow2Exp m e with
    | some k => Num.ofInt k
    | none => fxSigned (fxLn m e * (fxOne : Int) / (fxLn2 : Int))

/-- 1/a. -/
def sfuRcp (a : Num) : SfuVal := divNum (.fin false 1 0) a

/-- The root of a. -/
def sfuSqrt : Num → SfuVal
  | .nan => (.nan, 0)
  | .inf n => if n then (.nan, fNV) else (.inf false, 0)
  | .fin n m e =>
    if m = 0 then (.fin n 0 0, 0)
    else if n then (.nan, fNV)
    else
      let k : Int := 128 + (e % 2)
      let w := m * 2 ^ k.toNat
      let r := natRoot w
      let h := (e - k) / 2
      if r * r = w then (.fin false r h, 0) else (.fin false (2 * r + 1) (h - 1), 0)

/-- 1 over the root of a. -/
def sfuRsq : Num → SfuVal
  | .nan => (.nan, 0)
  | .inf n => if n then (.nan, fNV) else (.fin false 0 0, 0)
  | .fin n m e =>
    if m = 0 then (.inf n, fDZ)
    else if n then (.nan, fNV)
    else
      let k : Int := 256 + (e % 2)
      let w := 2 ^ k.toNat
      let r := natRoot (w / m)
      let h := -((e + k) / 2)
      if r * r * m = w then (.fin false r h, 0) else (.fin false (2 * r + 1) (h - 1), 0)

/-- An argument below 2^-100: a function that is a(1 − a²/6 + …) lies just below it. -/
def justBelow (n : Bool) (m : Nat) (e : Int) : Num := .fin n (m * 2 ^ 64 - 1) (e - 64)

/-- sin of q quarter turns and x. -/
def fxSinQ (q x : Nat) (neg : Bool) : Num :=
  match q % 4 with
  | 0 => fxNum neg (fxSin x)
  | 1 => fxNum neg (fxCos x)
  | 2 => fxNum (!neg) (fxSin x)
  | _ => fxNum (!neg) (fxCos x)

/-- sin a, its argument reduced exactly. -/
def sfuSin : Num → SfuVal
  | .nan => (.nan, 0)
  | .inf _ => (.nan, fNV)
  | .fin n m e =>
    if m = 0 then (.fin n 0 0, 0)
    else if !atLeastPow m e (-100) then (justBelow n m e, 0)
    else
      let z := (fxArg false m e).toNat
      (fxSinQ (z / fxHalfPi) (z % fxHalfPi) n, 0)

/-- cos a. -/
def sfuCos : Num → SfuVal
  | .nan => (.nan, 0)
  | .inf _ => (.nan, fNV)
  | .fin _ m e =>
    if m = 0 then (.fin false 1 0, 0)
    else
      let z := (fxArg false m e).toNat
      (fxSinQ (z / fxHalfPi + 1) (z % fxHalfPi) false, 0)

/-- 1/(1 + e^-a). -/
def sfuSigm : Num → SfuVal
  | .nan => (.nan, 0)
  | .inf n => (if n then .fin false 0 0 else .fin false 1 0, 0)
  | .fin n m e =>
    if m = 0 then (.fin false 1 (-1), 0)
    else if atLeastPow m e 8 then (if n then numMinute else justBelow false 1 0, 0)
    else
      let (v, k) := fxExp (fxArg true m e)
      let t := shiftNat v k
      if n then (fxNum false (v * fxOne / (fxOne + t)) k, 0) else (fxNum false (fxOne * fxOne / (fxOne + t)), 0)

/-- The value of tanh for a magnitude between 2^-12 and 10, as the binary32 code next below it. -/
def tanhBelow (m : Nat) (e : Int) : Nat :=
  let (v, k) := fxExp (fxArg false m (e + 1))
  let t := shiftNat v k
  (roundTo (fxNum false ((t - fxOne) * fxOne / (t + fxOne))) f32 .rtz .ovf).1

/-- tanh a (R101): the code and the flags. up says which of the two neighbours the part returns for this
magnitude. -/
def sfuTanh (c : Nat) (up : Nat → Bool) : Nat × FFlags :=
  let mag := c % 2 ^ 31
  let sg := c - mag
  match f32.decode mag with
  | .nan => (f32.nanCode, 0)
  | .inf _ => (sg + 0x3F800000, 0)
  | .fin _ m e =>
    if m = 0 then (c, 0)
    else if mag ≤ 0x39800000 then (c, fNX ||| flagIf (decide (mag < 0x800000)) fUF)
    else if 0x41200000 ≤ mag then (sg + 0x3F800000, fNX)
    else (sg + tanhBelow m e + (if up mag then 1 else 0), fNX)

end Sys2Proof
end

