-- ==== Sys2Proof/Machine/Codes.lean ====
section
/-! DEFINITION. The fault codes and the CAUSE word (21_faults.md R302, R303). -/

namespace Sys2Proof

/-- The fault codes (R302). -/
inductive Code where
  | illegal | priv | tag | regbound | align | xlate | prot | pmemgrow | cfi | brtrange | laneset | producer
  | cmdblock | queue | lodge | scope | runform | watchdog | bkpt | trapi | maze | uncorr | remote | quota
  deriving DecidableEq, Repr

/-- The number of a code (R302). -/
def Code.num : Code → Nat
  | .illegal => 0x01 | .priv => 0x02 | .tag => 0x03 | .regbound => 0x04 | .align => 0x05 | .xlate => 0x06
  | .prot => 0x07 | .pmemgrow => 0x08 | .cfi => 0x09 | .brtrange => 0x0A | .laneset => 0x0B | .producer => 0x0C
  | .cmdblock => 0x0D | .queue => 0x0E | .lodge => 0x0F | .scope => 0x10 | .runform => 0x11 | .watchdog => 0x12
  | .bkpt => 0x13 | .trapi => 0x14 | .maze => 0x15 | .uncorr => 0x16 | .remote => 0x17 | .quota => 0x18

/-- The access kinds of INFO bits 2:0 (R305). -/
inductive Access where
  | none | load | store | atomic | fetch | blockRead
  deriving DecidableEq, Repr

/-- The number of an access kind (R305). -/
def Access.num : Access → Nat
  | .none => 0 | .load => 1 | .store => 2 | .atomic => 3 | .fetch => 4 | .blockRead => 5

/-- What a fault reports (R303, R305): the CAUSE word's parts, ADDR, and INFO's parts. -/
structure FaultInfo where
  code : Code
  sub : Nat := 0
  arg : Nat := 0
  addr : DWord := 0
  access : Access := .none
  scratch : Bool := false
  deferred : Bool := false
  deriving DecidableEq, Repr

/-- The CAUSE word (R303). -/
def FaultInfo.cause (f : FaultInfo) : Word := BitVec.ofNat 32 (f.arg * 2 ^ 16 + f.sub * 2 ^ 8 + f.code.num)

/-- The INFO word (R305). -/
def FaultInfo.info (f : FaultInfo) : Word :=
  BitVec.ofNat 32 (f.access.num + (if f.scratch then 8 else 0) + (if f.deferred then 16 else 0))

/-- A fault with a code and nothing else to report. -/
def plainFault (c : Code) : FaultInfo := { code := c }

end Sys2Proof
end

