-- ==== Sys2Proof/Machine/Operands.lean ====
section
/-! DEFINITION. Register operands: a lane register's bits with its tag, the tag checks of 04_numbers.md R64 and
R65, and the helpers of 06_lane_instructions.md R83. -/

namespace Sys2Proof

/-- The bits and the tag of a lane register (R11, R59). -/
structure RegVal where
  bits : Word
  tag : Half
  deriving DecidableEq, Repr

/-- KIND of a tag (R59). -/
def tKind (t : Half) : Nat := tagKind t.toNat
/-- P of a tag (R59). -/
def tPrec (t : Half) : Nat := tagPrec t.toNat
/-- SCALE of a tag (R59). -/
def tScale (t : Half) : Int := tagScale t.toNat

/-- Kind(w) of R83. -/
def RegVal.kind (r : RegVal) : Nat := tKind r.tag
/-- Prec(w) of R83. -/
def RegVal.prec (r : RegVal) : Nat := tPrec r.tag
/-- Scale(w) of R83. -/
def RegVal.scale (r : RegVal) : Int := tScale r.tag

/-- The tag with a kind, precision 0 and scale 0 (R60). -/
def kTag (k : Nat) : Half := BitVec.ofNat 16 k
def tagRaw : Half := 0
def tagI32 : Half := 1
def tagN32 : Half := 2
def tagF32 : Half := 7
def tagLo64 : Half := 14
def tagHi64 : Half := 15

/-- A value tagged n32 with scale 0. -/
def regN32 (w : Word) : RegVal := { bits := w, tag := tagN32 }
/-- A number tagged n32 with scale 0. -/
def regNat (n : Nat) : RegVal := regN32 (BitVec.ofNat 32 n)

/-- MakeTag of R83: TAG if the scale lies outside −128 to 127. -/
def makeTag (k p : Nat) (s : Int) : Except Code Half :=
  if -128 ≤ s ∧ s ≤ 127 then .ok (BitVec.ofNat 16 (mkTag k p s)) else .error .tag

/-- NElem of R83; raw, lo64 and hi64 count as one element. -/
def nElem (k : Nat) : Nat :=
  if k = 3 ∨ k = 4 ∨ k = 8 ∨ k = 9 then 2
  else if k = 5 ∨ k = 6 ∨ (10 ≤ k ∧ k ≤ 13) then 4
  else 1

/-- Signed integer kinds (R60). -/
def kindSigned (k : Nat) : Bool := k == 1 || k == 3 || k == 5
/-- Integer kinds (R60). -/
def kindInt (k : Nat) : Bool := decide (1 ≤ k) && decide (k ≤ 6)
/-- Binary8 kinds (R60). -/
def kindB8 (k : Nat) : Bool := decide (10 ≤ k) && decide (k ≤ 13)

/-- Int of R83: two's complement for i32, else unsigned. -/
def RegVal.int (r : RegVal) : Int := if r.kind = 1 then r.bits.toInt else (r.bits.toNat : Int)

/-- The bits of element i when a word holds n elements (R58). -/
def elemBits (w : Word) (n i : Nat) : Nat := w.toNat / 2 ^ (32 / n * i) % 2 ^ (32 / n)

/-- IntElem of R83 for a kind. -/
def intElem (w : Word) (k i : Nat) : Int :=
  let b := 32 / nElem k
  let u := elemBits w (nElem k) i
  if kindSigned k && decide (2 ^ (b - 1) ≤ u) then (u : Int) - 2 ^ b else (u : Int)

/-- The floating format of a tag's elements, where its kind is one. -/
def tagFmt (k p : Nat) : Option Fmt :=
  if k = 7 then some f32 else if k = 8 then some f16 else if k = 9 then some bf16
  else if k = 10 then some (.b8 p true false) else if k = 11 then some (.b8 p true true)
  else if k = 12 then some (.b8 p false false) else if k = 13 then some (.b8 p false true)
  else none

/-- Val of R83: the exact value of element i. -/
def valElem (w : Word) (t : Half) (i : Nat) : Num :=
  match tagFmt (tKind t) (tPrec t) with
  | some f => (f.decode (elemBits w (nElem (tKind t)) i)).scale (tScale t)
  | none => Num.ofInt (intElem w (tKind t) i) (tScale t)

/-- The word whose n elements are the codes given, element 0 first (R58). -/
def packElems (n : Nat) (l : List Nat) : Word :=
  BitVec.ofNat 32 (l.foldr (fun c acc => acc * 2 ^ (32 / n) + c % 2 ^ (32 / n)) 0)

/-- The indices of the elements of a kind. -/
def elemIdx (k : Nat) : List Nat := List.range (nElem k)

/-- A condition whose failure raises TAG. -/
def tagIf (c : Bool) : Except Code Unit := if c then .ok () else .error .tag

/-- The same KIND, and for binary8 the same P (R64). -/
def sameKind (a b : Half) : Bool := tKind a == tKind b && (!kindB8 (tKind a) || tPrec a == tPrec b)

/-- Both of the same kind, which is one of l (R64). -/
def needKinds (l : List Nat) (a b : RegVal) : Except Code Unit :=
  tagIf (l.contains a.kind && l.contains b.kind && sameKind a.tag b.tag)

/-- As needKinds, with equal scales (R65). -/
def needKindsScale (l : List Nat) (a b : RegVal) : Except Code Unit :=
  tagIf (l.contains a.kind && l.contains b.kind && sameKind a.tag b.tag && a.scale == b.scale)

/-- A pair as 64 bits: the even register holds bits 31:0 (R58). -/
def pair64 (lo hi : RegVal) : DWord := hi.bits ++ lo.bits

/-- The even and odd registers of a 64-bit result, tagged lo64 and hi64 (R62). -/
def split64 (v : DWord) : RegVal × RegVal :=
  ({ bits := v.setWidth 32, tag := tagLo64 }, { bits := (v >>> 32).setWidth 32, tag := tagHi64 })

end Sys2Proof
end

