-- ==== Sys2Proof/Machine/LaneOps.lean ====
section
/-! DEFINITION. What each lane instruction computes from the values of its registers (06_lane_instructions.md
R85 to R104): the result with its tag and the flags it sets, or the fault of its tag check. -/

namespace Sys2Proof

/-- A register result and the flags set. -/
abbrev LaneVal := Except Code (RegVal × FFlags)
/-- A pair result: the even and the odd register. -/
abbrev LanePair := Except Code (RegVal × RegVal)
/-- A predicate result and the flags set. -/
abbrev LanePred := Except Code (Bool × FFlags)

/-- A result that sets no flag. -/
def vOk (w : Word) (t : Half) : LaneVal := .ok ({ bits := w, tag := t }, 0)

/-! ### IALU (R85) -/

/-- The shift count n = b[7:0]. -/
def shiftCount (b : RegVal) : Nat := b.bits.toNat % 256

/-- An operation on the integers of two operands of one kind and one scale, the result keeping A's tag. -/
def intSame (f : Int → Int → Int) (a b : RegVal) : LaneVal := do
  needKindsScale [1, 2] a b
  vOk (BitVec.ofInt 32 (f a.int b.int)) a.tag

/-- An operation on the integers of two operands of one kind, the result scale given by g. -/
def intScale (f : Int → Int → Int) (g : Int → Int → Int) (a b : RegVal) : LaneVal := do
  needKinds [1, 2] a b
  let t ← makeTag a.kind 0 (g a.scale b.scale)
  vOk (BitVec.ofInt 32 (f a.int b.int)) t

/-- A bit operation: every kind, A's tag. -/
def bitOp (f : Word → Word → Word) (a b : RegVal) : LaneVal := vOk (f a.bits b.bits) a.tag

/-- A shift by b[7:0]: every kind, A's tag. -/
def shiftOp (f : Word → Nat → Word) (a b : RegVal) : LaneVal := vOk (f a.bits (shiftCount b)) a.tag

/-- A count of 32 or more gives 0 for shl and shr and copies of the top bit for sar (R85). -/
def shlW (w : Word) (n : Nat) : Word := w <<< n
def shrW (w : Word) (n : Nat) : Word := w >>> n
def sarW (w : Word) (n : Nat) : Word := w.sshiftRight n

/-- The quotient of R71. -/
def quotR71 (a b : Int) : Int := if b = 0 then -1 else a.tdiv b
/-- The remainder of R71. -/
def remR71 (a b : Int) : Int := if b = 0 then a else a.tmod b

def opAdd : RegVal → RegVal → LaneVal := intSame (· + ·)
def opSub : RegVal → RegVal → LaneVal := intSame (· - ·)
def opMul : RegVal → RegVal → LaneVal := intScale (· * ·) (· + ·)
def opMulhi : RegVal → RegVal → LaneVal := intScale (fun x y => (x * y) / 2 ^ 32) (fun x y => x + y + 32)
def opAnd : RegVal → RegVal → LaneVal := bitOp (· &&& ·)
def opOr : RegVal → RegVal → LaneVal := bitOp (· ||| ·)
def opXor : RegVal → RegVal → LaneVal := bitOp (· ^^^ ·)
def opAndn : RegVal → RegVal → LaneVal := bitOp (fun x y => x &&& ~~~y)
def opShl : RegVal → RegVal → LaneVal := shiftOp shlW
def opShr : RegVal → RegVal → LaneVal := shiftOp shrW
def opSar : RegVal → RegVal → LaneVal := shiftOp sarW
def opMin : RegVal → RegVal → LaneVal := intSame min
def opMax : RegVal → RegVal → LaneVal := intSame max
def opMov (b : RegVal) : LaneVal := .ok (b, 0)
def opDiv : RegVal → RegVal → LaneVal := intScale quotR71 (· - ·)
def opRem : RegVal → RegVal → LaneVal := intSame remR71

/-! ### IALU2 (R86) -/

/-- The leading zero bits of a word. -/
def clzW (w : Word) : Nat := 32 - bitLen w.toNat
/-- The one bits of a word. -/
def popcW (w : Word) : Nat := ((List.range 32).filter fun i => w.getLsbD i).length

def opNot (a : RegVal) : LaneVal := vOk (~~~a.bits) a.tag
def opClz (a : RegVal) : LaneVal := .ok (regNat (clzW a.bits), 0)
def opPopc (a : RegVal) : LaneVal := .ok (regNat (popcW a.bits), 0)
def opBrev (a : RegVal) : LaneVal := vOk a.bits.reverse a.tag
def opAbs (a : RegVal) : LaneVal := do
  tagIf (a.kind == 1)
  vOk (BitVec.ofInt 32 a.int.natAbs) a.tag
def opNeg (a : RegVal) : LaneVal := do
  tagIf (a.kind == 1)
  vOk (BitVec.ofInt 32 (-a.int)) a.tag

/-- The field of a control word: its lowest bit and its length, cut at bit 31. -/
def ctlField (ctl : Word) : Nat × Nat :=
  let pos := ctl.toNat % 32
  let len := ctl.toNat / 32 % 32 + 1
  (pos, min (pos + len) 32 - pos)

def opBfx (a b : RegVal) : LaneVal :=
  let (pos, len) := ctlField b.bits
  let f := a.bits.toNat / 2 ^ pos % 2 ^ len
  if b.bits.getLsbD 10 then
    vOk (BitVec.ofInt 32 (if 2 ^ (len - 1) ≤ f then (f : Int) - 2 ^ len else f)) tagI32
  else .ok (regNat f, 0)

def opBfi (a b c : RegVal) : LaneVal :=
  let (pos, len) := ctlField c.bits
  let m : Word := BitVec.ofNat 32 ((2 ^ len - 1) * 2 ^ pos)
  vOk ((a.bits &&& ~~~m) ||| ((b.bits <<< pos) &&& m)) a.tag

def opGettag (a : RegVal) : LaneVal := .ok (regN32 (a.tag.setWidth 32), 0)
def opSettag (a b : RegVal) : LaneVal := do
  let t : Half := b.bits.setWidth 16
  tagIf (validTag t.toNat)
  vOk a.bits t

/-! ### Immediate groups (R87 to R89) -/

def opAddi (imm : Int) (a : RegVal) : LaneVal := do
  tagIf (a.kind == 1 || a.kind == 2)
  vOk (BitVec.ofInt 32 (a.int + imm)) a.tag
def opMuli (imm : Int) (a : RegVal) : LaneVal := do
  tagIf (a.kind == 1 || a.kind == 2)
  vOk (BitVec.ofInt 32 (a.int * imm)) a.tag
def opAndi (imm : Int) (a : RegVal) : LaneVal := vOk (a.bits &&& BitVec.ofInt 32 imm) a.tag
def opOri (imm : Int) (a : RegVal) : LaneVal := vOk (a.bits ||| BitVec.ofInt 32 imm) a.tag
def opXori (imm : Int) (a : RegVal) : LaneVal := vOk (a.bits ^^^ BitVec.ofInt 32 imm) a.tag
def opShli (n : Nat) (a : RegVal) : LaneVal := vOk (shlW a.bits n) a.tag
def opShri (n : Nat) (a : RegVal) : LaneVal := vOk (shrW a.bits n) a.tag
def opSari (n : Nat) (a : RegVal) : LaneVal := vOk (sarW a.bits n) a.tag

/-- A whole number z over 2^n, rounded (R83, R88). -/
def roundShift (rm : Rm) (z : Int) (n : Nat) : Int × Bool :=
  roundInt rm (decide (z < 0)) z.natAbs (-(n : Int))

def opRsari (rm : Rm) (n : Nat) (a : RegVal) : LaneVal := do
  tagIf (a.kind == 1 || a.kind == 2)
  let t ← makeTag a.kind 0 (a.scale + n)
  let (z, ix) := roundShift rm a.int n
  .ok ({ bits := BitVec.ofInt 32 z, tag := t }, flagIf ix fNX)

def opLui (imm : Nat) : LaneVal := vOk (BitVec.ofNat 32 (imm * 2 ^ 14)) tagI32

/-! ### 64-bit pairs (R90, R91) -/

/-- ADR: the index is unsigned for adr and signed for adr.s. -/
def opAdr (sgn : Bool) (sh : Nat) (x : DWord) (b : RegVal) : LanePair :=
  let e : DWord := if sgn then b.bits.signExtend 64 else b.bits.setWidth 64
  .ok (split64 (x + (e <<< sh)))

def pairOp (f : DWord → DWord → DWord) (x y : DWord) : LanePair := .ok (split64 (f x y))
def opAdd64 : DWord → DWord → LanePair := pairOp (· + ·)
def opSub64 : DWord → DWord → LanePair := pairOp (· - ·)
def opAnd64 : DWord → DWord → LanePair := pairOp (· &&& ·)
def opOr64 : DWord → DWord → LanePair := pairOp (· ||| ·)
def opXor64 : DWord → DWord → LanePair := pairOp (· ^^^ ·)
def opShl64 (x : DWord) (b : RegVal) : LanePair := .ok (split64 (x <<< shiftCount b))
def opShr64 (x : DWord) (b : RegVal) : LanePair := .ok (split64 (x >>> shiftCount b))
def opSar64 (x : DWord) (b : RegVal) : LanePair := .ok (split64 (x.sshiftRight (shiftCount b)))
def opXaddi (imm : Int) (x : DWord) : LanePair := .ok (split64 (x + BitVec.ofInt 64 imm))

/-! ### Compare (R92, R93) -/

/-- The six relations of CMP and CMPI. -/
inductive Rel where
  | eq | ne | lt | le | gt | ge
  deriving DecidableEq, Repr

/-- A relation from a comparison of −1, 0 or 1. -/
def Rel.ofCmp (r : Rel) (c : Int) : Bool :=
  match r with
  | .eq => decide (c = 0) | .ne => decide (c ≠ 0) | .lt => decide (c < 0) | .le => decide (c ≤ 0)
  | .gt => decide (0 < c) | .ge => decide (0 ≤ c)

/-- Comparison of integers as −1, 0 or 1. -/
def cmpInt (x y : Int) : Int := if x < y then -1 else if x = y then 0 else 1

/-- CMP on f32: a NaN makes ne true and the others false; the orderings set NV on a NaN. -/
def relF32 (r : Rel) (x y : Num) : Bool × FFlags :=
  if x.isNan || y.isNan then (decide (r = .ne), flagIf (!(decide (r = .eq) || decide (r = .ne))) fNV)
  else (r.ofCmp (cmpNum x y), 0)

def opCmp (r : Rel) (a b : RegVal) : LanePred := do
  needKindsScale [1, 2, 7] a b
  if a.kind = 7 then .ok (relF32 r (f32.decode a.bits.toNat) (f32.decode b.bits.toNat))
  else .ok (r.ofCmp (cmpInt a.int b.int), 0)

def opCmpUnord (a b : RegVal) : LanePred := do
  tagIf (a.kind == 7 && b.kind == 7)
  .ok ((f32.decode a.bits.toNat).isNan || (f32.decode b.bits.toNat).isNan, 0)

def opPtest (a b : RegVal) : LanePred := .ok (a.bits &&& b.bits != 0, 0)

def opCmp64Eq (x y : DWord) : LanePred := .ok (x == y, 0)
def opCmp64Ne (x y : DWord) : LanePred := .ok (x != y, 0)
def opCmp64Lt (x y : DWord) : LanePred := .ok (x.slt y, 0)
def opCmp64Ltn (x y : DWord) : LanePred := .ok (x.ult y, 0)

/-- CMPI: the immediate, sign-extended to 32 bits, is read under a's kind. -/
def opCmpi (r : Rel) (imm : Int) (a : RegVal) : LanePred := do
  tagIf (a.kind == 1 || a.kind == 2)
  let m : RegVal := { bits := BitVec.ofInt 32 imm, tag := a.tag }
  .ok (r.ofCmp (cmpInt a.int m.int), 0)

/-- ptov (R94). -/
def opPtov (p : Bool) : LaneVal := .ok (regN32 (if p then 1 else 0), 0)
/-- vtop (R94). -/
def opVtop (a : RegVal) : LanePred := .ok (a.bits != 0, 0)

/-! ### Floating arithmetic (R95 to R97) -/

/-- The value of a 32-bit float. -/
def f32Val (r : RegVal) : Num := f32.decode r.bits.toNat

/-- An f32 result from an exact value and the flags of its special cases (R70). -/
def f32Res (rm : Rm) (x : Num) (fl : FFlags) : LaneVal :=
  let (c, g) := roundIeee x f32 rm
  .ok ({ bits := BitVec.ofNat 32 c, tag := tagF32 }, fl ||| g)

/-- Both operands f32. -/
def needF32 (a b : RegVal) : Except Code Unit := tagIf (a.kind == 7 && b.kind == 7)

/-- x + y with the invalid flag. -/
def addFl (rm : Rm) (x y : Num) : Num × FFlags :=
  let (v, inv) := sumNum rm [x, y]
  (v, flagIf inv fNV)

/-- x · y with the invalid flag. -/
def mulFl (x y : Num) : Num × FFlags :=
  let (v, inv) := mulNum x y
  (v, flagIf inv fNV)

/-- x · y + z formed exactly, with the invalid flags of both parts (R96). -/
def fmaFl (rm : Rm) (x y z : Num) : Num × FFlags :=
  let (p, i1) := mulNum x y
  let (v, i2) := sumNum rm [p, z]
  (v, flagIf (i1 || i2) fNV)

def opFadd (rm : Rm) (a b : RegVal) : LaneVal := do
  needF32 a b
  let (v, fl) := addFl rm (f32Val a) (f32Val b)
  f32Res rm v fl
def opFsub (rm : Rm) (a b : RegVal) : LaneVal := do
  needF32 a b
  let (v, fl) := addFl rm (f32Val a) (f32Val b).neg
  f32Res rm v fl
def opFmul (rm : Rm) (a b : RegVal) : LaneVal := do
  needF32 a b
  let (v, fl) := mulFl (f32Val a) (f32Val b)
  f32Res rm v fl
def opFdiv (rm : Rm) (a b : RegVal) : LaneVal := do
  needF32 a b
  let (v, fl) := divNum (f32Val a) (f32Val b)
  f32Res rm v fl

/-- The code of a value that the format represents exactly. -/
def exactCode (x : Num) (f : Fmt) : Nat := (roundTo x f .rne .ovf).1

def opFmin (a b : RegVal) : LaneVal := do
  needF32 a b
  vOk (BitVec.ofNat 32 (exactCode (minNum (f32Val a) (f32Val b)) f32)) tagF32
def opFmax (a b : RegVal) : LaneVal := do
  needF32 a b
  vOk (BitVec.ofNat 32 (exactCode (maxNum (f32Val a) (f32Val b)) f32)) tagF32
def opFabs (a : RegVal) : LaneVal := do
  tagIf (a.kind == 7)
  vOk (a.bits &&& 0x7FFFFFFF) tagF32
def opFneg (a : RegVal) : LaneVal := do
  tagIf (a.kind == 7)
  vOk (a.bits ^^^ 0x80000000) tagF32
def opFcsgn (a b : RegVal) : LaneVal := do
  needF32 a b
  vOk ((a.bits &&& 0x7FFFFFFF) ||| (b.bits &&& 0x80000000)) tagF32

/-- The roundings to an integral value; only frint sets NX (R95). -/
def opRint (rm : Rm) (nx : Bool) (a : RegVal) : LaneVal := do
  tagIf (a.kind == 7)
  let (c, ix) := roundIntegral (f32Val a) f32 rm
  .ok ({ bits := BitVec.ofNat 32 c, tag := tagF32 }, flagIf (nx && ix) fNX)

/-- FFMA's forms: ±(a·b) ± d (R96). -/
def opFma (np nd : Bool) (rm : Rm) (d a b : RegVal) : LaneVal := do
  tagIf (d.kind == 7 && a.kind == 7 && b.kind == 7)
  let x := if np then (f32Val a).neg else f32Val a
  let z := if nd then (f32Val d).neg else f32Val d
  let (v, fl) := fmaFl rm x (f32Val b) z
  f32Res rm v fl

/-- The format of f16x2 or bf16x2 elements, all operands being of the same kind (R97). -/
def halfFmt (l : List RegVal) (k : Nat) : Except Code Fmt := do
  tagIf (l.all fun r => r.kind == k)
  if k = 8 then .ok f16 else if k = 9 then .ok bf16 else .error .tag

/-- Element i of a word of two, as a value. -/
def halfVal (f : Fmt) (r : RegVal) (i : Nat) : Num := f.decode (elemBits r.bits 2 i)

/-- Both elements, each rounded by R70, with the OR of their flags (R97). -/
def halfRes (f : Fmt) (rm : Rm) (t : Half) (g : Nat → Num × FFlags) : LaneVal :=
  let (v0, e0) := g 0
  let (v1, e1) := g 1
  let (c0, h0) := roundIeee v0 f rm
  let (c1, h1) := roundIeee v1 f rm
  .ok ({ bits := packElems 2 [c0, c1], tag := t }, e0 ||| e1 ||| h0 ||| h1)

def opHadd (rm : Rm) (a b : RegVal) : LaneVal := do
  let f ← halfFmt [a, b] a.kind
  halfRes f rm a.tag fun i => addFl rm (halfVal f a i) (halfVal f b i)
def opHsub (rm : Rm) (a b : RegVal) : LaneVal := do
  let f ← halfFmt [a, b] a.kind
  halfRes f rm a.tag fun i => addFl rm (halfVal f a i) (halfVal f b i).neg
def opHmul (rm : Rm) (a b : RegVal) : LaneVal := do
  let f ← halfFmt [a, b] a.kind
  halfRes f rm a.tag fun i => mulFl (halfVal f a i) (halfVal f b i)
def opHfma (rm : Rm) (d a b : RegVal) : LaneVal := do
  let f ← halfFmt [d, a, b] a.kind
  halfRes f rm a.tag fun i => fmaFl rm (halfVal f a i) (halfVal f b i) (halfVal f d i)
def opHmin (a b : RegVal) : LaneVal := do
  let f ← halfFmt [a, b] a.kind
  vOk (packElems 2 ([0, 1].map fun i => exactCode (minNum (halfVal f a i) (halfVal f b i)) f)) a.tag
def opHmax (a b : RegVal) : LaneVal := do
  let f ← halfFmt [a, b] a.kind
  vOk (packElems 2 ([0, 1].map fun i => exactCode (maxNum (halfVal f a i) (halfVal f b i)) f)) a.tag
def opHneg (a : RegVal) : LaneVal := do
  let _ ← halfFmt [a] a.kind
  vOk (a.bits ^^^ 0x80008000) a.tag
def opHabs (a : RegVal) : LaneVal := do
  let _ ← halfFmt [a] a.kind
  vOk (a.bits &&& 0x7FFF7FFF) a.tag

/-! ### Packed integers (R98) -/

/-- A packed integer kind, 3 to 6. -/
def packedKind (k : Nat) : Bool := decide (3 ≤ k) && decide (k ≤ 6)

/-- The range of an element (R69). -/
def elemRange (k : Nat) : Int × Int :=
  let w := 32 / nElem k
  if kindSigned k then (-2 ^ (w - 1), 2 ^ (w - 1) - 1) else (0, 2 ^ w - 1)

/-- An integer as an element code of kind k: its low bits. -/
def elemCode (k : Nat) (z : Int) : Nat := (z % 2 ^ (32 / nElem k)).toNat

/-- Each element of the result from the index; an element may be clamped or inexact. -/
def packedRes (k : Nat) (t : Half) (g : Nat → Int × FFlags) : LaneVal :=
  let l := (elemIdx k).map g
  .ok ({ bits := packElems (nElem k) (l.map fun x => elemCode k x.1), tag := t },
       l.foldr (fun x acc => x.2 ||| acc) 0)

/-- Two packed operands of the same kind and the same scale. -/
def packedSame (g : Nat → Int → Int → Int × FFlags) (a b : RegVal) : LaneVal := do
  tagIf (packedKind a.kind && sameKind a.tag b.tag && a.scale == b.scale)
  packedRes a.kind a.tag fun i => g a.kind (intElem a.bits a.kind i) (intElem b.bits a.kind i)

/-- SatElem of R83. -/
def satElem (k : Nat) (z : Int) : Int × FFlags :=
  let (lo, hi) := elemRange k
  let (v, c) := clampInt lo hi z
  (v, flagIf c fSAT)

def opPadd : RegVal → RegVal → LaneVal := packedSame fun _ x y => (x + y, 0)
def opPaddSat : RegVal → RegVal → LaneVal := packedSame fun k x y => satElem k (x + y)
def opPsub : RegVal → RegVal → LaneVal := packedSame fun _ x y => (x - y, 0)
def opPsubSat : RegVal → RegVal → LaneVal := packedSame fun k x y => satElem k (x - y)
def opPmul (a b : RegVal) : LaneVal := do
  tagIf (packedKind a.kind && sameKind a.tag b.tag)
  let t ← makeTag a.kind 0 (a.scale + b.scale)
  packedRes a.kind t fun i => (intElem a.bits a.kind i * intElem b.bits a.kind i, 0)
def opPmin : RegVal → RegVal → LaneVal := packedSame fun _ x y => (min x y, 0)
def opPmax : RegVal → RegVal → LaneVal := packedSame fun _ x y => (max x y, 0)
def opPabs (a : RegVal) : LaneVal := do
  tagIf (packedKind a.kind)
  packedRes a.kind a.tag fun i => satElem a.kind (intElem a.bits a.kind i).natAbs
def opPavg : RegVal → RegVal → LaneVal := packedSame fun _ x y => ((x + y + 1) / 2, 0)

/-- A packed shift by n = b[7:0]; B is a count of any kind. -/
def packedShift (g : Nat → Int → Nat → Nat → Int) (a b : RegVal) : LaneVal := do
  tagIf (packedKind a.kind)
  packedRes a.kind a.tag fun i =>
    (g (32 / nElem a.kind) (intElem a.bits a.kind i) (elemBits a.bits (nElem a.kind) i) (shiftCount b), 0)

def opPshl : RegVal → RegVal → LaneVal := packedShift fun w x _ n => if w ≤ n then 0 else x * 2 ^ n
def opPsar : RegVal → RegVal → LaneVal := packedShift fun w _ u n =>
  (if 2 ^ (w - 1) ≤ u then (u : Int) - 2 ^ w else u) / 2 ^ min n w
def opPshr : RegVal → RegVal → LaneVal := packedShift fun w _ u n => if w ≤ n then 0 else ((u / 2 ^ n : Nat) : Int)
def opPrsar (rm : Rm) (a b : RegVal) : LaneVal := do
  tagIf (packedKind a.kind)
  let t ← makeTag a.kind 0 (a.scale + shiftCount b)
  packedRes a.kind t fun i =>
    let (z, ix) := roundShift rm (intElem a.bits a.kind i) (shiftCount b)
    (z, flagIf ix fNX)

/-! ### Dot products (R99) -/

/-- The exact sum of dmac. -/
def dmacSum (d a b : RegVal) : Int :=
  d.int + ((elemIdx a.kind).map fun i => intElem a.bits a.kind i * intElem b.bits b.kind i).sum

/-- The tag conditions of dmac: signedness may differ. -/
def dmacTags (d a b : RegVal) : Bool :=
  packedKind a.kind && packedKind b.kind && nElem a.kind == nElem b.kind && d.kind == 1 &&
    d.scale == a.scale + b.scale

def opDmac (d a b : RegVal) : LaneVal := do
  tagIf (dmacTags d a b)
  vOk (BitVec.ofInt 32 (dmacSum d a b)) d.tag
def opDmacSat (d a b : RegVal) : LaneVal := do
  tagIf (dmacTags d a b)
  let (w, fl) := satI32 (dmacSum d a b)
  .ok ({ bits := w, tag := d.tag }, fl)

/-- The products of fdmac and whether one is invalid. -/
def fdmacTerms (a b : RegVal) : List (Num × Bool) :=
  (elemIdx a.kind).map fun i => mulNum (valElem a.bits a.tag i) (valElem b.bits b.tag i)

def opFdmac (rm : Rm) (d a b : RegVal) : LaneVal := do
  tagIf (((a.kind == 8 || a.kind == 9) && (b.kind == 8 || b.kind == 9)) || (kindB8 a.kind && kindB8 b.kind))
  tagIf (d.kind == 7)
  let l := fdmacTerms a b
  let (v, inv) := sumNum rm (f32Val d :: l.map Prod.fst)
  let (c, fl) := roundTo v f32 rm .ovf
  .ok ({ bits := BitVec.ofNat 32 c, tag := d.tag }, fl ||| flagIf (inv || l.any Prod.snd) fNV)

/-! ### Special functions (R100, R101) -/

/-- A special function of an f32. -/
def opSfu (f : Num → SfuVal) (rm : Rm) (a : RegVal) : LaneVal := do
  tagIf (a.kind == 7)
  let (v, fl) := f (f32Val a)
  f32Res rm v fl

/-- tanh with the part's choice between neighbours. -/
def opTanh (up : Nat → Bool) (a : RegVal) : LaneVal := do
  tagIf (a.kind == 7)
  let (c, fl) := sfuTanh a.bits.toNat up
  .ok ({ bits := BitVec.ofNat 32 c, tag := tagF32 }, fl)

/-! ### Conversion (R102) and tags (R103) -/

/-- One element of a conversion: code and flags. -/
def cvtElem (x : Num) (t : Half) (m : Rm) (o : Ovf) : Nat × FFlags :=
  match tagFmt (tKind t) (tPrec t) with
  | some f => roundTo (x.scale (-(tScale t))) f m o
  | none => intConvert x (32 / nElem (tKind t)) (kindSigned (tKind t)) (tScale t) m o

/-- Kinds that have no numeric elements. -/
def kindPlain (k : Nat) : Bool := k == 0 || k == 14 || k == 15

/-- CVT: m is the mode field, 0 naming `%rm`; o is 0 for SAT and 1 for OVF. -/
def opCvt (rm : Rm) (m o : Nat) (a b : RegVal) : LaneVal := do
  let t : Half := b.bits.setWidth 16
  tagIf (validTag t.toNat && !kindPlain a.kind && !kindPlain (tKind t))
  let mode := (rmOfCode m).getD rm
  let oh : Ovf := if o = 0 then .sat else .ovf
  let sel := b.bits.toNat / 2 ^ 16 % 4
  let ns := nElem a.kind
  let nt := nElem (tKind t)
  let n := min ns nt
  tagIf (decide (sel < max ns nt / n))
  let one := fun j => cvtElem (valElem a.bits a.tag (if nt ≤ ns then sel * n + j else j)) t mode oh
  let di := fun i => if nt ≤ ns then (if i < n then some i else none)
                     else (if sel * n ≤ i ∧ i < sel * n + n then some (i - sel * n) else none)
  let codes := (List.range nt).map fun i => match di i with
    | some j => (one j).1
    | none => 0
  let fl := (List.range n).foldr (fun j acc => (one j).2 ||| acc) 0
  .ok ({ bits := packElems nt codes, tag := t }, fl)

def opRetag (t : Nat) (d : RegVal) : LaneVal := vOk d.bits (BitVec.ofNat 16 t)
def opScadd (imm : Int) (d : RegVal) : LaneVal := do
  tagIf (kindInt d.kind || kindB8 d.kind)
  let t ← makeTag d.kind d.prec (d.scale + imm)
  vOk d.bits t

/-! ### Packing (R104) -/

/-- A's tag if both tags are equal, else raw. -/
def packTag (a b : RegVal) : Half := if a.tag = b.tag then a.tag else tagRaw

def opPklo (a b : RegVal) : LaneVal := vOk (packElems 2 [elemBits a.bits 2 0, elemBits b.bits 2 0]) (packTag a b)
def opPkhi (a b : RegVal) : LaneVal := vOk (packElems 2 [elemBits a.bits 2 1, elemBits b.bits 2 1]) (packTag a b)
def opPkbl (a b : RegVal) : LaneVal :=
  let t : Half :=
    if a.tag = b.tag ∧ a.kind = 3 then BitVec.ofNat 16 (mkTag 5 0 a.scale)
    else if a.tag = b.tag ∧ a.kind = 4 then BitVec.ofNat 16 (mkTag 6 0 a.scale)
    else tagRaw
  vOk (packElems 4 [elemBits a.bits 4 0, elemBits a.bits 4 2, elemBits b.bits 4 0, elemBits b.bits 4 2]) t

/-- An extracted element: sign-extended for the signed kind, and tagged i32 or n32 with A's scale for the
signed and the unsigned kind, else raw. -/
def extractRes (a : RegVal) (ks kn n i : Nat) : LaneVal :=
  let u := elemBits a.bits n i
  if a.kind = ks then vOk (BitVec.ofInt 32 (intElem a.bits ks i)) (BitVec.ofNat 16 (mkTag 1 0 a.scale))
  else if a.kind = kn then vOk (BitVec.ofNat 32 u) (BitVec.ofNat 16 (mkTag 2 0 a.scale))
  else vOk (BitVec.ofNat 32 u) tagRaw

def opXtlo (a : RegVal) : LaneVal := extractRes a 3 4 2 0
def opXthi (a : RegVal) : LaneVal := extractRes a 3 4 2 1
def opXtb (a b : RegVal) : LaneVal := extractRes a 5 6 4 (b.bits.toNat % 4)

end Sys2Proof
end

