-- ==== Sys2Proof/Syntax.lean ====
section
/-! DEFINITION. Instr: one constructor for each row of spec/opcode_table.json. Rows with an encoding are
instructions of a thread; rows without one are steps of the scheduler, the memory, the engines, the
dispatcher, the fabric, the host and the custody processor (95_what_each_step_holds.md). Register operands
hold the field value of 03_encodings.md R29: an x operand is its even number (R31). -/

namespace Sys2Proof

/-- The scope of an access (08_memory.md R142), encoded 0 to 3 (03_encodings.md R29). -/
inductive Scope where
  | wg | cl | dv | sy
  deriving DecidableEq, Repr

/-- A request that reaches this module from a peer (22_fabric_host.md R332, R333, R340). kind is the flit
TYPE: 1 read, 3 write, 5 atomic, 9 launch packet. For an atomic, data holds OP, value and second value. -/
structure PeerReq where
  srcMod : Nat
  srcPart : Nat
  gen : Nat
  epoch : Nat
  kind : Nat
  paddr : Nat
  len : Nat
  tid : Nat
  data : List Byte
  deriving DecidableEq, Repr

/-- The limits the host driver gives a partition (19_scheduling.md R283). Sizes are in bytes. -/
structure PartLimits where
  min : Nat
  urgent : Nat
  max : Nat
  home : List Nat
  hbmBase : Nat
  hbmSize : Nat
  hbmBw : Nat
  canopy : Nat
  linkBw : Nat
  deriving DecidableEq, Repr

/-- An entry of the peer access-control table (22_fabric_host.md R340). -/
structure AclEntry where
  srcMod : Nat
  srcPart : Nat
  dstPart : Nat
  valid : Bool
  rd : Bool
  wr : Bool
  atom : Bool
  red : Bool
  qmask : Nat
  brate : Nat
  lrate : Nat
  burst : Nat
  deriving DecidableEq, Repr

/-- The rows of spec/opcode_table.json. -/
inductive Instr where
  /-- MOV_16, R27. -/
  | mov16 (d : Nat) (b : Nat)
  /-- ADD_16, R27. -/
  | add16 (d : Nat) (b : Nat)
  /-- SUB_16, R27. -/
  | sub16 (d : Nat) (b : Nat)
  /-- MUL_16, R27. -/
  | mul16 (d : Nat) (b : Nat)
  /-- AND_16, R27. -/
  | and16 (d : Nat) (b : Nat)
  /-- OR_16, R27. -/
  | or16 (d : Nat) (b : Nat)
  /-- XOR_16, R27. -/
  | xor16 (d : Nat) (b : Nat)
  /-- SHL_16, R27. -/
  | shl16 (d : Nat) (b : Nat)
  /-- SHR_16, R27. -/
  | shr16 (d : Nat) (b : Nat)
  /-- SAR_16, R27. -/
  | sar16 (d : Nat) (b : Nat)
  /-- MIN_16, R27. -/
  | min16 (d : Nat) (b : Nat)
  /-- MAX_16, R27. -/
  | max16 (d : Nat) (b : Nat)
  /-- FADD_16, R27. -/
  | fadd16 (d : Nat) (b : Nat)
  /-- FSUB_16, R27. -/
  | fsub16 (d : Nat) (b : Nat)
  /-- FMUL_16, R27. -/
  | fmul16 (d : Nat) (b : Nat)
  /-- FMAX_16, R27. -/
  | fmax16 (d : Nat) (b : Nat)
  /-- ADD, R85. -/
  | add (d : Nat) (a : Nat) (b : Nat)
  /-- SUB, R85. -/
  | sub (d : Nat) (a : Nat) (b : Nat)
  /-- MUL, R85. -/
  | mul (d : Nat) (a : Nat) (b : Nat)
  /-- MULHI, R85. -/
  | mulhi (d : Nat) (a : Nat) (b : Nat)
  /-- AND, R85. -/
  | and (d : Nat) (a : Nat) (b : Nat)
  /-- OR, R85. -/
  | or (d : Nat) (a : Nat) (b : Nat)
  /-- XOR, R85. -/
  | xor (d : Nat) (a : Nat) (b : Nat)
  /-- SHL, R85. -/
  | shl (d : Nat) (a : Nat) (b : Nat)
  /-- SHR, R85. -/
  | shr (d : Nat) (a : Nat) (b : Nat)
  /-- SAR, R85. -/
  | sar (d : Nat) (a : Nat) (b : Nat)
  /-- MIN, R85. -/
  | min (d : Nat) (a : Nat) (b : Nat)
  /-- MAX, R85. -/
  | max (d : Nat) (a : Nat) (b : Nat)
  /-- MOV, R85. -/
  | mov (d : Nat) (b : Nat)
  /-- DIV, R85. -/
  | div (d : Nat) (a : Nat) (b : Nat)
  /-- REM, R85. -/
  | rem (d : Nat) (a : Nat) (b : Nat)
  /-- ANDN, R85. -/
  | andn (d : Nat) (a : Nat) (b : Nat)
  /-- NOT, R86. -/
  | not (d : Nat) (a : Nat)
  /-- CLZ, R86. -/
  | clz (d : Nat) (a : Nat)
  /-- POPC, R86. -/
  | popc (d : Nat) (a : Nat)
  /-- BREV, R86. -/
  | brev (d : Nat) (a : Nat)
  /-- ABS, R86. -/
  | abs (d : Nat) (a : Nat)
  /-- NEG, R86. -/
  | neg (d : Nat) (a : Nat)
  /-- BFX, R86. -/
  | bfx (d : Nat) (a : Nat) (b : Nat)
  /-- BFI, R86. -/
  | bfi (d : Nat) (a : Nat) (b : Nat)
  /-- GETTAG, R86. -/
  | gettag (d : Nat) (a : Nat)
  /-- SETTAG, R86. -/
  | settag (d : Nat) (a : Nat) (b : Nat)
  /-- ADDI, R87. -/
  | addi (d : Nat) (a : Nat) (imm : Int)
  /-- ANDI, R87. -/
  | andi (d : Nat) (a : Nat) (imm : Int)
  /-- ORI, R87. -/
  | ori (d : Nat) (a : Nat) (imm : Int)
  /-- XORI, R87. -/
  | xori (d : Nat) (a : Nat) (imm : Int)
  /-- MULI, R87. -/
  | muli (d : Nat) (a : Nat) (imm : Int)
  /-- SHLI, R88. -/
  | shli (d : Nat) (a : Nat) (n : Nat)
  /-- SHRI, R88. -/
  | shri (d : Nat) (a : Nat) (n : Nat)
  /-- SARI, R88. -/
  | sari (d : Nat) (a : Nat) (n : Nat)
  /-- RSARI, R88. -/
  | rsari (d : Nat) (a : Nat) (n : Nat)
  /-- LUI, R89. -/
  | lui (d : Nat) (imm : Nat)
  /-- ADR, R90. -/
  | adr (d : Nat) (a : Nat) (b : Nat) (sh : Nat)
  /-- ADR_S, R90. -/
  | adrS (d : Nat) (a : Nat) (b : Nat) (sh : Nat)
  /-- ADD64, R91. -/
  | add64 (d : Nat) (a : Nat) (b : Nat)
  /-- SUB64, R91. -/
  | sub64 (d : Nat) (a : Nat) (b : Nat)
  /-- AND64, R91. -/
  | and64 (d : Nat) (a : Nat) (b : Nat)
  /-- OR64, R91. -/
  | or64 (d : Nat) (a : Nat) (b : Nat)
  /-- XOR64, R91. -/
  | xor64 (d : Nat) (a : Nat) (b : Nat)
  /-- SHL64, R91. -/
  | shl64 (d : Nat) (a : Nat) (b : Nat)
  /-- SHR64, R91. -/
  | shr64 (d : Nat) (a : Nat) (b : Nat)
  /-- SAR64, R91. -/
  | sar64 (d : Nat) (a : Nat) (b : Nat)
  /-- MOV64, R91. -/
  | mov64 (d : Nat) (b : Nat)
  /-- XADDI, R91. -/
  | xaddi (d : Nat) (a : Nat) (imm : Int)
  /-- CMP_EQ, R92. -/
  | cmpEq (d : Nat) (a : Nat) (b : Nat)
  /-- CMP_NE, R92. -/
  | cmpNe (d : Nat) (a : Nat) (b : Nat)
  /-- CMP_LT, R92. -/
  | cmpLt (d : Nat) (a : Nat) (b : Nat)
  /-- CMP_LE, R92. -/
  | cmpLe (d : Nat) (a : Nat) (b : Nat)
  /-- CMP_GT, R92. -/
  | cmpGt (d : Nat) (a : Nat) (b : Nat)
  /-- CMP_GE, R92. -/
  | cmpGe (d : Nat) (a : Nat) (b : Nat)
  /-- CMP_UNORD, R92. -/
  | cmpUnord (d : Nat) (a : Nat) (b : Nat)
  /-- PTEST, R92. -/
  | ptest (d : Nat) (a : Nat) (b : Nat)
  /-- CMP64_EQ, R92. -/
  | cmp64Eq (d : Nat) (a : Nat) (b : Nat)
  /-- CMP64_NE, R92. -/
  | cmp64Ne (d : Nat) (a : Nat) (b : Nat)
  /-- CMP64_LT, R92. -/
  | cmp64Lt (d : Nat) (a : Nat) (b : Nat)
  /-- CMP64_LTN, R92. -/
  | cmp64Ltn (d : Nat) (a : Nat) (b : Nat)
  /-- CMPI_EQ, R93. -/
  | cmpiEq (d : Nat) (a : Nat) (imm : Int)
  /-- CMPI_NE, R93. -/
  | cmpiNe (d : Nat) (a : Nat) (imm : Int)
  /-- CMPI_LT, R93. -/
  | cmpiLt (d : Nat) (a : Nat) (imm : Int)
  /-- CMPI_LE, R93. -/
  | cmpiLe (d : Nat) (a : Nat) (imm : Int)
  /-- CMPI_GT, R93. -/
  | cmpiGt (d : Nat) (a : Nat) (imm : Int)
  /-- CMPI_GE, R93. -/
  | cmpiGe (d : Nat) (a : Nat) (imm : Int)
  /-- SEL, R94. -/
  | sel (d : Nat) (n : Nat) (a : Nat) (b : Nat)
  /-- PAND, R94. -/
  | pand (d : Nat) (a : Nat) (b : Nat)
  /-- POR, R94. -/
  | por (d : Nat) (a : Nat) (b : Nat)
  /-- PXOR, R94. -/
  | pxor (d : Nat) (a : Nat) (b : Nat)
  /-- PANDN, R94. -/
  | pandn (d : Nat) (a : Nat) (b : Nat)
  /-- PNOT, R94. -/
  | pnot (d : Nat) (a : Nat)
  /-- PTOV, R94. -/
  | ptov (d : Nat) (a : Nat)
  /-- VTOP, R94. -/
  | vtop (d : Nat) (a : Nat)
  /-- SREAD, R134. -/
  | sread (d : Nat) (n : Nat)
  /-- FADD, R95. -/
  | fadd (d : Nat) (a : Nat) (b : Nat)
  /-- FSUB, R95. -/
  | fsub (d : Nat) (a : Nat) (b : Nat)
  /-- FMUL, R95. -/
  | fmul (d : Nat) (a : Nat) (b : Nat)
  /-- FDIV, R95. -/
  | fdiv (d : Nat) (a : Nat) (b : Nat)
  /-- FMIN, R95. -/
  | fmin (d : Nat) (a : Nat) (b : Nat)
  /-- FMAX, R95. -/
  | fmax (d : Nat) (a : Nat) (b : Nat)
  /-- FABS, R95. -/
  | fabs (d : Nat) (a : Nat)
  /-- FNEG, R95. -/
  | fneg (d : Nat) (a : Nat)
  /-- FCSGN, R95. -/
  | fcsgn (d : Nat) (a : Nat) (b : Nat)
  /-- FFLOOR, R95. -/
  | ffloor (d : Nat) (a : Nat)
  /-- FCEIL, R95. -/
  | fceil (d : Nat) (a : Nat)
  /-- FTRUNC, R95. -/
  | ftrunc (d : Nat) (a : Nat)
  /-- FRINT, R95. -/
  | frint (d : Nat) (a : Nat)
  /-- FFMA, R96. -/
  | ffma (d : Nat) (a : Nat) (b : Nat)
  /-- FFMS, R96. -/
  | ffms (d : Nat) (a : Nat) (b : Nat)
  /-- FNMA, R96. -/
  | fnma (d : Nat) (a : Nat) (b : Nat)
  /-- FNMS, R96. -/
  | fnms (d : Nat) (a : Nat) (b : Nat)
  /-- HADD, R97. -/
  | hadd (d : Nat) (a : Nat) (b : Nat)
  /-- HSUB, R97. -/
  | hsub (d : Nat) (a : Nat) (b : Nat)
  /-- HMUL, R97. -/
  | hmul (d : Nat) (a : Nat) (b : Nat)
  /-- HFMA, R97. -/
  | hfma (d : Nat) (a : Nat) (b : Nat)
  /-- HMIN, R97. -/
  | hmin (d : Nat) (a : Nat) (b : Nat)
  /-- HMAX, R97. -/
  | hmax (d : Nat) (a : Nat) (b : Nat)
  /-- HNEG, R97. -/
  | hneg (d : Nat) (a : Nat)
  /-- HABS, R97. -/
  | habs (d : Nat) (a : Nat)
  /-- PADD, R98. -/
  | padd (d : Nat) (a : Nat) (b : Nat)
  /-- PADD_SAT, R98. -/
  | paddSat (d : Nat) (a : Nat) (b : Nat)
  /-- PSUB, R98. -/
  | psub (d : Nat) (a : Nat) (b : Nat)
  /-- PSUB_SAT, R98. -/
  | psubSat (d : Nat) (a : Nat) (b : Nat)
  /-- PMUL, R98. -/
  | pmul (d : Nat) (a : Nat) (b : Nat)
  /-- PMIN, R98. -/
  | pmin (d : Nat) (a : Nat) (b : Nat)
  /-- PMAX, R98. -/
  | pmax (d : Nat) (a : Nat) (b : Nat)
  /-- PABS, R98. -/
  | pabs (d : Nat) (a : Nat)
  /-- PAVG, R98. -/
  | pavg (d : Nat) (a : Nat) (b : Nat)
  /-- PSHL, R98. -/
  | pshl (d : Nat) (a : Nat) (b : Nat)
  /-- PSAR, R98. -/
  | psar (d : Nat) (a : Nat) (b : Nat)
  /-- PSHR, R98. -/
  | pshr (d : Nat) (a : Nat) (b : Nat)
  /-- PRSAR, R98. -/
  | prsar (d : Nat) (a : Nat) (b : Nat)
  /-- DMAC, R99. -/
  | dmac (d : Nat) (a : Nat) (b : Nat)
  /-- DMAC_SAT, R99. -/
  | dmacSat (d : Nat) (a : Nat) (b : Nat)
  /-- FDMAC, R99. -/
  | fdmac (d : Nat) (a : Nat) (b : Nat)
  /-- EXP2, R100. -/
  | exp2 (d : Nat) (a : Nat)
  /-- LOG2, R100. -/
  | log2 (d : Nat) (a : Nat)
  /-- RCP, R100. -/
  | rcp (d : Nat) (a : Nat)
  /-- RSQ, R100. -/
  | rsq (d : Nat) (a : Nat)
  /-- SQRT, R100. -/
  | sqrt (d : Nat) (a : Nat)
  /-- SIN, R100. -/
  | sin (d : Nat) (a : Nat)
  /-- COS, R100. -/
  | cos (d : Nat) (a : Nat)
  /-- TANH, R101. -/
  | tanh (d : Nat) (a : Nat)
  /-- EXP, R100. -/
  | exp (d : Nat) (a : Nat)
  /-- LOG, R100. -/
  | log (d : Nat) (a : Nat)
  /-- SIGM, R100. -/
  | sigm (d : Nat) (a : Nat)
  /-- CVT, R102. -/
  | cvt (d : Nat) (a : Nat) (b : Nat) (m : Nat) (o : Nat)
  /-- RETAG, R103. -/
  | retag (d : Nat) (t : Nat)
  /-- SCADD, R103. -/
  | scadd (d : Nat) (imm : Int)
  /-- PKLO, R104. -/
  | pklo (d : Nat) (a : Nat) (b : Nat)
  /-- PKHI, R104. -/
  | pkhi (d : Nat) (a : Nat) (b : Nat)
  /-- PKBL, R104. -/
  | pkbl (d : Nat) (a : Nat) (b : Nat)
  /-- XTLO, R104. -/
  | xtlo (d : Nat) (a : Nat)
  /-- XTHI, R104. -/
  | xthi (d : Nat) (a : Nat)
  /-- XTB, R104. -/
  | xtb (d : Nat) (a : Nat) (b : Nat)
  /-- LPICK, R132. -/
  | lpick (d : Nat) (a : Nat) (b : Nat)
  /-- SLIDEUP, R132. -/
  | slideup (d : Nat) (a : Nat) (b : Nat)
  /-- SLIDEDN, R132. -/
  | slidedn (d : Nat) (a : Nat) (b : Nat)
  /-- BALLOT, R132. -/
  | ballot (d : Nat) (a : Nat) (b : Nat)
  /-- VOTE_ANY, R132. -/
  | voteAny (d : Nat) (a : Nat) (b : Nat)
  /-- VOTE_ALL, R132. -/
  | voteAll (d : Nat) (a : Nat) (b : Nat)
  /-- VOTE_EQ, R132. -/
  | voteEq (d : Nat) (a : Nat) (b : Nat)
  /-- LRED_ADD, R132. -/
  | lredAdd (d : Nat) (a : Nat) (b : Nat)
  /-- LRED_MIN, R132. -/
  | lredMin (d : Nat) (a : Nat) (b : Nat)
  /-- LRED_MAX, R132. -/
  | lredMax (d : Nat) (a : Nat) (b : Nat)
  /-- LRED_AND, R132. -/
  | lredAnd (d : Nat) (a : Nat) (b : Nat)
  /-- LRED_OR, R132. -/
  | lredOr (d : Nat) (a : Nat) (b : Nat)
  /-- LRED_XOR, R132. -/
  | lredXor (d : Nat) (a : Nat) (b : Nat)
  /-- LSCAN_INC, R132. -/
  | lscanInc (d : Nat) (a : Nat) (b : Nat)
  /-- LSCAN_EXC, R132. -/
  | lscanExc (d : Nat) (a : Nat) (b : Nat)
  /-- VMOVFROM, R105. -/
  | vmovfrom (d : Nat)
  /-- VMOVTO, R105. -/
  | vmovto (a : Nat)
  /-- SETIX, R105. -/
  | setix (a : Nat)
  /-- GETIX, R105. -/
  | getix (d : Nat)
  /-- ADDIX, R105. -/
  | addix (a : Nat)
  /-- GUARD, R123. -/
  | guard (p : Nat) (inv : Nat) (n : Nat)
  /-- BR, R121. -/
  | br (off : Int) (inv : Nat) (p : Nat)
  /-- CALL, R121. -/
  | call (off : Int) (inv : Nat) (p : Nat)
  /-- BRQ, R121. -/
  | brq (off : Int) (inv : Nat)
  /-- JMPI, R124. -/
  | jmpi (a : Nat) (imm : Nat)
  /-- CALLI, R124. -/
  | calli (a : Nat) (imm : Nat)
  /-- RET, R124. -/
  | ret
  /-- BRT, R125. -/
  | brt (a : Nat) (imm : Nat)
  /-- NOP, R126. -/
  | nop
  /-- REFORM, R126. -/
  | reform
  /-- REFORM_K, R126. -/
  | reformK (a : Nat)
  /-- YIELD, R127. -/
  | yield
  /-- LPAD, R126. -/
  | lpad (imm : Nat)
  /-- EXIT, R128. -/
  | exit
  /-- LSYNC, R133. -/
  | lsync (a : Nat)
  /-- ELECT, R133. -/
  | elect (p : Nat) (a : Nat)
  /-- BEACON, R309. -/
  | beacon
  /-- WAIT, R135. -/
  | wait (l : Nat) (st : Nat) (c : Nat) (t : Nat) (av : Nat) (aw : Nat)
  /-- LD_RAW, R160. -/
  | ldRaw (d : Nat) (b : Nat) (off : Int)
  /-- LD_I32, R160. -/
  | ldI32 (d : Nat) (b : Nat) (off : Int)
  /-- LD_N32, R160. -/
  | ldN32 (d : Nat) (b : Nat) (off : Int)
  /-- LD_F32, R160. -/
  | ldF32 (d : Nat) (b : Nat) (off : Int)
  /-- LD_64, R160. -/
  | ld64 (d : Nat) (b : Nat) (off : Int)
  /-- LD_I8, R160. -/
  | ldI8 (d : Nat) (b : Nat) (off : Int)
  /-- LD_N8, R160. -/
  | ldN8 (d : Nat) (b : Nat) (off : Int)
  /-- LD_I16, R160. -/
  | ldI16 (d : Nat) (b : Nat) (off : Int)
  /-- LD_N16, R160. -/
  | ldN16 (d : Nat) (b : Nat) (off : Int)
  /-- ST_8, R160. -/
  | st8 (d : Nat) (b : Nat) (off : Int)
  /-- ST_16, R160. -/
  | st16 (d : Nat) (b : Nat) (off : Int)
  /-- ST_32, R160. -/
  | st32 (d : Nat) (b : Nat) (off : Int)
  /-- ST_64, R160. -/
  | st64 (d : Nat) (b : Nat) (off : Int)
  /-- LDT, R161. -/
  | ldt (d : Nat) (b : Nat) (a : Nat) (z : Nat)
  /-- LDS, R162. -/
  | lds (d : Nat) (a : Nat) (off : Int)
  /-- LDS_WF, R162. -/
  | ldsWf (d : Nat) (a : Nat) (off : Int)
  /-- LDS_WFE, R162. -/
  | ldsWfe (d : Nat) (a : Nat) (off : Int)
  /-- LDS_SE, R162. -/
  | ldsSe (d : Nat) (a : Nat) (off : Int)
  /-- LDS_64, R162. -/
  | lds64 (d : Nat) (a : Nat) (off : Int)
  /-- LDS_8, R162. -/
  | lds8 (d : Nat) (a : Nat) (off : Int)
  /-- LDS_16, R162. -/
  | lds16 (d : Nat) (a : Nat) (off : Int)
  /-- STS, R162. -/
  | sts (d : Nat) (a : Nat) (off : Int)
  /-- STS_WEF, R162. -/
  | stsWef (d : Nat) (a : Nat) (off : Int)
  /-- STS_SF, R162. -/
  | stsSf (d : Nat) (a : Nat) (off : Int)
  /-- STS_SE, R162. -/
  | stsSe (d : Nat) (a : Nat) (off : Int)
  /-- STS_64, R162. -/
  | sts64 (d : Nat) (a : Nat) (off : Int)
  /-- STS_8, R162. -/
  | sts8 (d : Nat) (a : Nat) (off : Int)
  /-- STS_16, R162. -/
  | sts16 (d : Nat) (a : Nat) (off : Int)
  /-- LDA_32, R163. -/
  | lda32 (d : Nat) (b : Nat) (off : Int) (sc : Scope)
  /-- LDA_64, R163. -/
  | lda64 (d : Nat) (b : Nat) (off : Int) (sc : Scope)
  /-- LDA_P, R150. -/
  | ldaP (d : Nat) (b : Nat) (off : Int)
  /-- LDA_P64, R150. -/
  | ldaP64 (d : Nat) (b : Nat) (off : Int)
  /-- STL_32, R163. -/
  | stl32 (d : Nat) (b : Nat) (off : Int) (sc : Scope)
  /-- STL_64, R163. -/
  | stl64 (d : Nat) (b : Nat) (off : Int) (sc : Scope)
  /-- ATOM_ADD, R164. -/
  | atomAdd (sc : Scope) (d : Nat) (b : Nat) (v : Nat)
  /-- ATOM_ADDB, R164. -/
  | atomAddb (sc : Scope) (d : Nat) (b : Nat) (v : Nat)
  /-- ATOM_MIN, R164. -/
  | atomMin (sc : Scope) (d : Nat) (b : Nat) (v : Nat)
  /-- ATOM_MAX, R164. -/
  | atomMax (sc : Scope) (d : Nat) (b : Nat) (v : Nat)
  /-- ATOM_MINN, R164. -/
  | atomMinn (sc : Scope) (d : Nat) (b : Nat) (v : Nat)
  /-- ATOM_MAXN, R164. -/
  | atomMaxn (sc : Scope) (d : Nat) (b : Nat) (v : Nat)
  /-- ATOM_AND, R164. -/
  | atomAnd (sc : Scope) (d : Nat) (b : Nat) (v : Nat)
  /-- ATOM_OR, R164. -/
  | atomOr (sc : Scope) (d : Nat) (b : Nat) (v : Nat)
  /-- ATOM_XOR, R164. -/
  | atomXor (sc : Scope) (d : Nat) (b : Nat) (v : Nat)
  /-- ATOM_SWAP, R164. -/
  | atomSwap (sc : Scope) (d : Nat) (b : Nat) (v : Nat)
  /-- ATOM_CAS, R164. -/
  | atomCas (sc : Scope) (d : Nat) (b : Nat) (v : Nat)
  /-- ATOM_MAXSI, R164. -/
  | atomMaxsi (sc : Scope) (d : Nat) (b : Nat) (v : Nat)
  /-- ATOM_FADD, R164. -/
  | atomFadd (sc : Scope) (d : Nat) (b : Nat) (v : Nat)
  /-- ATOM_ADD64, R164. -/
  | atomAdd64 (sc : Scope) (d : Nat) (b : Nat) (v : Nat)
  /-- ATOM_SWAP64, R164. -/
  | atomSwap64 (sc : Scope) (d : Nat) (b : Nat) (v : Nat)
  /-- ATOM_CAS64, R164. -/
  | atomCas64 (sc : Scope) (d : Nat) (b : Nat) (v : Nat)
  /-- FENCE_ACQ, R165. -/
  | fenceAcq (sc : Scope)
  /-- FENCE_REL, R165. -/
  | fenceRel (sc : Scope)
  /-- FENCE_AR, R165. -/
  | fenceAr (sc : Scope)
  /-- FENCE_SC, R165. -/
  | fenceSc (sc : Scope)
  /-- PREF_L2, R166. -/
  | prefL2 (b : Nat) (off : Int)
  /-- PREF_L1, R166. -/
  | prefL1 (b : Nat) (off : Int)
  /-- CWB, R166. -/
  | cwb (b : Nat) (off : Int)
  /-- CINV, R166. -/
  | cinv (b : Nat) (off : Int)
  /-- CWBINV, R166. -/
  | cwbinv (b : Nat) (off : Int)
  /-- CZERO, R166. -/
  | czero (b : Nat) (off : Int)
  /-- CEVICT, R166. -/
  | cevict (b : Nat) (off : Int)
  /-- WAITA_EQ_GLOBAL, R167. -/
  | waitaEqGlobal (d : Nat) (b : Nat) (off : Nat) (sc : Scope)
  /-- WAITA_CHG_GLOBAL, R167. -/
  | waitaChgGlobal (d : Nat) (b : Nat) (off : Nat) (sc : Scope)
  /-- WAITA_FULL, R167. -/
  | waitaFull (d : Nat) (b : Nat) (off : Nat) (sc : Scope)
  /-- WAITA_EQ_SCRATCH, R167. -/
  | waitaEqScratch (d : Nat) (b : Nat) (off : Nat) (sc : Scope)
  /-- WAITA_CHG_SCRATCH, R167. -/
  | waitaChgScratch (d : Nat) (b : Nat) (off : Nat) (sc : Scope)
  /-- COPY_G2S, R174. -/
  | copyG2s (d : Nat) (a : Nat)
  /-- COPY_S2G, R174. -/
  | copyS2g (d : Nat) (a : Nat)
  /-- COPY_G2G, R174. -/
  | copyG2g (d : Nat) (a : Nat)
  /-- COPY_G2C, R175. -/
  | copyG2c (d : Nat) (a : Nat)
  /-- COPY_S2C, R175. -/
  | copyS2c (d : Nat) (a : Nat)
  /-- COPY_META, R174. -/
  | copyMeta (d : Nat) (a : Nat)
  /-- COPY_SCALE, R174. -/
  | copyScale (d : Nat) (a : Nat)
  /-- COPY_REMOTE, R343. -/
  | copyRemote (d : Nat) (a : Nat)
  /-- COPY_REDUCE, R347. -/
  | copyReduce (d : Nat) (a : Nat)
  /-- COPY_GATHER, R174. -/
  | copyGather (d : Nat) (a : Nat)
  /-- COPY_SCATTER, R174. -/
  | copyScatter (d : Nat) (a : Nat)
  /-- QINIT, R190. -/
  | qinit (d : Nat) (q : Nat) (a : Nat)
  /-- QPUSH, R191. -/
  | qpush (d : Nat) (q : Nat) (a : Nat)
  /-- QPOP, R191. -/
  | qpop (d : Nat) (q : Nat) (a : Nat)
  /-- QTRYPUSH, R191. -/
  | qtrypush (r : Nat) (d : Nat) (q : Nat) (a : Nat)
  /-- QTRYPOP, R191. -/
  | qtrypop (r : Nat) (d : Nat) (q : Nat) (a : Nat)
  /-- QLEN, R191. -/
  | qlen (d : Nat) (q : Nat)
  /-- RVINIT, R185. -/
  | rvinit (d : Nat) (a : Nat) (b : Nat)
  /-- ARRIVE, R185. -/
  | arrive (d : Nat) (a : Nat)
  /-- ARRIVEN, R185. -/
  | arriven (d : Nat) (a : Nat) (b : Nat)
  /-- EXPECT, R185. -/
  | expect (d : Nat) (a : Nat) (b : Nat)
  /-- PLEDGE, R185. -/
  | pledge (d : Nat) (a : Nat) (b : Nat)
  /-- RVLEAVE, R185. -/
  | rvleave (d : Nat) (a : Nat)
  /-- MMA, R208. -/
  | mma (d : Nat) (a : Nat)
  /-- TLD, R213. -/
  | tld (d : Nat) (a : Nat) (b : Nat)
  /-- TST, R213. -/
  | tst (d : Nat) (a : Nat) (b : Nat)
  /-- TZERO, R212. -/
  | tzero (d : Nat) (a : Nat)
  /-- TCVT, R214. -/
  | tcvt (d : Nat) (a : Nat) (b : Nat)
  /-- TGET, R215. -/
  | tget (d : Nat) (a : Nat) (b : Nat)
  /-- TSET, R215. -/
  | tset (d : Nat) (a : Nat) (b : Nat)
  /-- TREDR, R216. -/
  | tredr (d : Nat) (a : Nat) (b : Nat)
  /-- TREDC, R216. -/
  | tredc (d : Nat) (a : Nat) (b : Nat)
  /-- TSTAT, R217. -/
  | tstat (d : Nat) (a : Nat)
  /-- TGEN, R219. -/
  | tgen (d : Nat) (a : Nat)
  /-- PFORM, R227. -/
  | pform (d : Nat) (a : Nat) (b : Nat)
  /-- PMARG, R228. -/
  | pmarg (d : Nat) (a : Nat) (b : Nat)
  /-- BALANCE, R229. -/
  | balance (d : Nat) (a : Nat) (b : Nat)
  /-- PEXTRACT, R234. -/
  | pextract (d : Nat) (a : Nat) (b : Nat)
  /-- PCOST, R235. -/
  | pcost (d : Nat) (a : Nat) (b : Nat)
  /-- PSTAT, R236. -/
  | pstat (d : Nat) (a : Nat) (b : Nat)
  /-- MZDECL, R239. -/
  | mzdecl (d : Nat) (a : Nat)
  /-- MZPOST, R253. -/
  | mzpost (a : Nat) (b : Nat)
  /-- MZTAKE, R253. -/
  | mztake (d : Nat) (a : Nat) (b : Nat)
  /-- MZDONE_PASS, R253. -/
  | mzdonePass (a : Nat) (b : Nat)
  /-- MZDONE_DROP, R253. -/
  | mzdoneDrop (a : Nat) (b : Nat)
  /-- MZEFF, R253. -/
  | mzeff (d : Nat) (a : Nat) (b : Nat)
  /-- MZSINK, R253. -/
  | mzsink (d : Nat) (a : Nat)
  /-- MZSTAT, R253. -/
  | mzstat (d : Nat) (a : Nat) (b : Nat)
  /-- LCREATE, R269. -/
  | lcreate (d : Nat) (a : Nat) (b : Nat)
  /-- LCREATE_M, R269. -/
  | lcreateM (d : Nat) (a : Nat) (b : Nat)
  /-- LOPEN, R269. -/
  | lopen (d : Nat) (a : Nat)
  /-- LHAND, R269. -/
  | lhand (d : Nat) (a : Nat) (b : Nat)
  /-- LDROP, R269. -/
  | ldrop (d : Nat) (a : Nat)
  /-- LINFO, R269. -/
  | linfo (d : Nat) (a : Nat)
  /-- LAUNCH, R296. -/
  | launch (d : Nat) (a : Nat) (b : Nat)
  /-- SIGNAL, R297. -/
  | signal (d : Nat) (a : Nat) (b : Nat)
  /-- CONT, R298. -/
  | cont (a : Nat) (b : Nat)
  /-- TAKE, R299. -/
  | take (d : Nat) (a : Nat)
  /-- IDEM_BEGIN, R300. -/
  | idemBegin (a : Nat)
  /-- IDEM_END, R300. -/
  | idemEnd
  /-- AFOR, R195. -/
  | afor (d : Nat) (a : Nat) (b : Nat)
  /-- AEND, R195. -/
  | aend
  /-- ALOAD, R195. -/
  | aload (d : Nat) (a : Nat) (b : Nat)
  /-- ABR, R195. -/
  | abr (a : Nat)
  /-- AHALT, R195. -/
  | ahalt
  /-- TRAP, R307. -/
  | trap (c : Nat)
  /-- BKPT, R307. -/
  | bkpt (c : Nat)
  /-- CREAD, R310. -/
  | cread (d : Nat) (a : Nat) (n : Nat)
  /-- CWRITE, R310. -/
  | cwrite (d : Nat) (a : Nat) (n : Nat)
  /-- TRAPRD, R312. -/
  | traprd (d : Nat) (a : Nat) (n : Nat)
  /-- TRAPWR, R312. -/
  | trapwr (d : Nat) (a : Nat) (n : Nat)
  /-- HALTWG, R313. -/
  | haltwg (d : Nat) (a : Nat) (n : Nat)
  /-- RESUME, R313. -/
  | resume (d : Nat) (a : Nat) (n : Nat)
  /-- KILL, R313. -/
  | kill (d : Nat) (a : Nat) (n : Nat)
  /-- TLBINV_WRITE, R322. -/
  | tlbinvWrite (part : Nat) (v : Word)
  /-- RESET_WRITE, R323. -/
  | resetWrite (part : Nat)
  /-- RUN_RELEASE, R328. -/
  | runRelease (id : Nat)
  /-- ISSUE_GROUP_SELECT, R114. -/
  | issueGroupSelect (q : Nat)
  /-- YIELD_READY, R127. -/
  | yieldReady (w : Nat) (t : Nat)
  /-- TRAP_ENTRY, R304. -/
  | trapEntry (w : Nat) (t : Nat)
  /-- LOAD_RETURN, R117. -/
  | loadReturn (id : Nat) (fill : Bool) (bad : Bool)
  /-- STORE_PERFORM, R117. -/
  | storePerform (id : Nat) (bad : Bool)
  /-- WAIT_TABLE_SPILL, R157. -/
  | waitTableSpill (core : Nat)
  /-- WAIT_TABLE_FILL, R157. -/
  | waitTableFill (core : Nat)
  /-- PAGE_WALK_COMPLETE, R321. -/
  | pageWalkComplete (id : Nat)
  /-- PROMOTION_REQUEST, R150. -/
  | promotionRequest (core : Nat) (line : Nat)
  /-- PMEMGROW_SERVICE, R140. -/
  | pmemgrowService (w : Nat) (t : Nat) (high : DWord) (writes : List (Nat × DWord))
  /-- STREAMER_CHANNEL_START, R168. -/
  | streamerChannelStart (core : Nat)
  /-- STREAMER_BYTE_REPORT, R182. -/
  | streamerByteReport (id : Nat) (bad : Bool)
  /-- COPY_COMPLETE, R178. -/
  | copyComplete (id : Nat)
  /-- ACCESS_GROUP_ISSUE, R193. -/
  | accessGroupIssue (q : Nat) (w : Nat) (lset : Nat)
  /-- ALOAD_RETURN, R194. -/
  | aloadReturn (id : Nat) (bad : Bool)
  /-- TILE_OP_START, R200. -/
  | tileOpStart (id : Nat)
  /-- MATRIX_PASS_END, R202. -/
  | matrixPassEnd (id : Nat) (bad : Bool)
  /-- TILE_OP_COMPLETE, R208. -/
  | tileOpComplete (id : Nat) (bad : Bool)
  /-- TGEN_COMPLETE, R219. -/
  | tgenComplete (id : Nat) (bad : Bool)
  /-- BALANCE_SWEEP, R233. -/
  | balanceSweep (id : Nat)
  /-- MAZE_HELD_REROUTE, R246. -/
  | mazeHeldReroute (clus : Nat) (set : Nat)
  /-- MAZE_RECORD_COMPLETE, R247. -/
  | mazeRecordComplete (clus : Nat) (set : Nat)
  /-- LODGE_MOVE_START, R262. -/
  | lodgeMoveStart (part : Nat) (name : DWord)
  /-- LODGE_MOVE_COMPLETE, R262. -/
  | lodgeMoveComplete (part : Nat) (name : DWord)
  /-- LODGE_REBUILD, R266. -/
  | lodgeRebuild (part : Nat) (name : DWord)
  /-- LODGE_MIRROR_COPY, R267. -/
  | lodgeMirrorCopy (part : Nat) (name : DWord)
  /-- PATIENCE_EXPIRY, R261. -/
  | patienceExpiry (l : Nat) (w : Nat)
  /-- LEASE_END, R265. -/
  | leaseEnd (q : Nat)
  /-- CORE_LOSS, R327. -/
  | coreLoss (cores : List Nat)
  /-- QUEUE_HEAD_ACTIVATE, R273. -/
  | queueHeadActivate (part : Nat) (q : Nat)
  /-- WORKGROUP_PLACE, R280. -/
  | workgroupPlace (clus : Nat) (quad : Nat)
  /-- QUADRANT_RECLAIM, R284. -/
  | quadrantReclaim (q : Nat)
  /-- LAUNCH_COMPLETE, R278. -/
  | launchComplete (l : Nat)
  /-- PREEMPT, R285. -/
  | preempt (w : Nat)
  /-- PREEMPT_SAVE, R286. -/
  | preemptSave (w : Nat)
  /-- RESTORE, R287. -/
  | restore (w : Nat) (quad : Nat)
  /-- TT_SLOT_START, R294. -/
  | ttSlotStart (part : Nat)
  /-- TT_SLOT_SKIP, R294. -/
  | ttSlotSkip (part : Nat)
  /-- CONT_RECORD_READY, R292. -/
  | contRecordReady (l : Nat) (r : Nat)
  /-- GEN_QUARANTINE_RELEASE, R289. -/
  | genQuarantineRelease (part : Nat) (g : Nat)
  /-- WATCHDOG_FIRE, R316. -/
  | watchdogFire (w : Nat)
  /-- WATCHDOG_GRACE_EXPIRY, R317. -/
  | watchdogGraceExpiry (w : Nat)
  /-- STRIKE, R329. -/
  | strike (core : Nat)
  /-- PATROL_SCRUB, R331. -/
  | patrolScrub (line : Nat) (found : List (Nat × Bool))
  /-- FLIT_RECEIVE, R334. -/
  | flitReceive (port : Nat) (flit : List Byte)
  /-- ACK_RETURN, R334. -/
  | ackReturn (port : Nat)
  /-- LANE_FAILURE, R335. -/
  | laneFailure (port : Nat) (lane : Nat)
  /-- LINK_RETRAIN_DONE, R335. -/
  | linkRetrainDone (port : Nat) (peerAck : Nat)
  /-- FLIT_EXPIRE, R336. -/
  | flitExpire (port : Nat) (seq : Nat)
  /-- PEER_REQUEST, R340. -/
  | peerRequest (req : PeerReq)
  /-- PEER_LAUNCH, R342. -/
  | peerLaunch (req : PeerReq)
  /-- REMOTE_RESPONSE, R339. -/
  | remoteResponse (id : Nat) (status : Nat) (data : List Byte)
  /-- REMOTE_TIMEOUT, R339. -/
  | remoteTimeout (id : Nat)
  /-- REDUCTION_RESULT, R349. -/
  | reductionResult (id : Nat) (status : Nat) (contribs : List (List Nat))
  /-- REDUCTION_TIMEOUT, R350. -/
  | reductionTimeout (id : Nat)
  /-- SCALE_OUT_FRAME_RECEIVE, R352. -/
  | scaleOutFrameReceive (port : Nat) (frame : List Byte)
  /-- SCALE_OUT_RESEND, R352. -/
  | scaleOutResend (port : Nat)
  /-- HOST_CXL_MEM_ACCESS, R353. -/
  | hostCxlMemAccess (part : Nat) (write : Bool) (addr : Nat) (data : List Byte)
  /-- BAR2_APERTURE_ACCESS, R354. -/
  | bar2ApertureAccess (part : Nat) (write : Bool) (addr : Nat) (data : List Byte)
  /-- DOORBELL, R355. -/
  | doorbell (part : Nat) (q : Nat) (v : Word)
  /-- PARTITION_DEFINE, R283. -/
  | partitionDefine (part : Nat) (lim : PartLimits)
  /-- PARTITION_CHANGE, R283. -/
  | partitionChange (part : Nat) (lim : PartLimits)
  /-- PARTITION_TEARDOWN, R377. -/
  | partitionTeardown (part : Nat)
  /-- HBM_REASSIGN, R378. -/
  | hbmReassign (part : Nat) (base : Nat) (size : Nat)
  /-- PEER_ACL_WRITE, R340. -/
  | peerAclWrite (idx : Nat) (e : AclEntry)
  /-- REDUCTION_GROUP_DEFINE, R346. -/
  | reductionGroupDefine (part : Nat) (g : Nat) (members : List (Nat × Nat)) (timeout : Nat)
  /-- LINK_RESTORE, R335. -/
  | linkRestore (port : Nat)
  /-- POWER_CAP_SET, R388. -/
  | powerCapSet (watts : Nat)
  /-- METER_RING_NAME, R379. -/
  | meterRingName (base : Nat) (size : Nat)
  /-- ATTESTATION_QUOTE, R375. -/
  | attestationQuote (nonce : List Byte)
  /-- CHECKPOINT_HEADER_SIGN, R385. -/
  | checkpointHeaderSign (header : List Byte)
  /-- METER_BLOCK_CLOSE, R379. -/
  | meterBlockClose
  /-- POWER_CAP_ADJUST, R23. -/
  | powerCapAdjust (mhz : Nat)
  /-- THERMAL_THROTTLE, R388. -/
  | thermalThrottle (hot : Bool)
  /-- THERMAL_TRIP, R388. -/
  | thermalTrip
  /-- S1_ENTRY, R388. -/
  | s1Entry
  /-- S1_EXIT, R388. -/
  | s1Exit
  /-- MODULE_BOOT, R387. -/
  | moduleBoot (stage : Nat) (measure : List Byte) (good : Bool)
  /-- DIE_RESET, R323. -/
  | dieReset (die : Nat)
  /-- POSTCOPY_PAGE_PULL, R386. -/
  | postcopyPagePull (part : Nat) (va : DWord) (good : Bool) (writes : List (Nat × DWord))
  /-- HOST_RESET_REQUEST, R323. -/
  | hostResetRequest (part : Nat)
  /-- PASS_HOLD_RELEASE, R328. -/
  | passHoldRelease (id : Nat)
  /-- L1_WRITEBACK, R152. -/
  | l1Writeback (core : Nat) (line : Nat)
  /-- MEMORY_CHANNEL_RETIRE, R290. -/
  | memoryChannelRetire (chan : Nat)
  /-- S3_EXIT, R388. -/
  | s3Exit
  /-- HOST_CXL_CACHE_SNOOP, R353. -/
  | hostCxlCacheSnoop (line : Nat) (data : List Byte)
  deriving DecidableEq, Repr

end Sys2Proof
end

