-- ==== Sys2Proof/WellFormed.lean ====
section
/-! DEFINITION. The well-formed instructions: those that 03_encodings.md R29 to R47 can encode. A step
with no encoding (an event) is well formed whatever its arguments; Instr.encoded tells the two apart. -/

namespace Sys2Proof

/-- The rows of the table that have an encoding. -/
def Instr.encoded : Instr → Bool
  | .mov16 _ _ => true
  | .add16 _ _ => true
  | .sub16 _ _ => true
  | .mul16 _ _ => true
  | .and16 _ _ => true
  | .or16 _ _ => true
  | .xor16 _ _ => true
  | .shl16 _ _ => true
  | .shr16 _ _ => true
  | .sar16 _ _ => true
  | .min16 _ _ => true
  | .max16 _ _ => true
  | .fadd16 _ _ => true
  | .fsub16 _ _ => true
  | .fmul16 _ _ => true
  | .fmax16 _ _ => true
  | .add _ _ _ => true
  | .sub _ _ _ => true
  | .mul _ _ _ => true
  | .mulhi _ _ _ => true
  | .and _ _ _ => true
  | .or _ _ _ => true
  | .xor _ _ _ => true
  | .shl _ _ _ => true
  | .shr _ _ _ => true
  | .sar _ _ _ => true
  | .min _ _ _ => true
  | .max _ _ _ => true
  | .mov _ _ => true
  | .div _ _ _ => true
  | .rem _ _ _ => true
  | .andn _ _ _ => true
  | .not _ _ => true
  | .clz _ _ => true
  | .popc _ _ => true
  | .brev _ _ => true
  | .abs _ _ => true
  | .neg _ _ => true
  | .bfx _ _ _ => true
  | .bfi _ _ _ => true
  | .gettag _ _ => true
  | .settag _ _ _ => true
  | .addi _ _ _ => true
  | .andi _ _ _ => true
  | .ori _ _ _ => true
  | .xori _ _ _ => true
  | .muli _ _ _ => true
  | .shli _ _ _ => true
  | .shri _ _ _ => true
  | .sari _ _ _ => true
  | .rsari _ _ _ => true
  | .lui _ _ => true
  | .adr _ _ _ _ => true
  | .adrS _ _ _ _ => true
  | .add64 _ _ _ => true
  | .sub64 _ _ _ => true
  | .and64 _ _ _ => true
  | .or64 _ _ _ => true
  | .xor64 _ _ _ => true
  | .shl64 _ _ _ => true
  | .shr64 _ _ _ => true
  | .sar64 _ _ _ => true
  | .mov64 _ _ => true
  | .xaddi _ _ _ => true
  | .cmpEq _ _ _ => true
  | .cmpNe _ _ _ => true
  | .cmpLt _ _ _ => true
  | .cmpLe _ _ _ => true
  | .cmpGt _ _ _ => true
  | .cmpGe _ _ _ => true
  | .cmpUnord _ _ _ => true
  | .ptest _ _ _ => true
  | .cmp64Eq _ _ _ => true
  | .cmp64Ne _ _ _ => true
  | .cmp64Lt _ _ _ => true
  | .cmp64Ltn _ _ _ => true
  | .cmpiEq _ _ _ => true
  | .cmpiNe _ _ _ => true
  | .cmpiLt _ _ _ => true
  | .cmpiLe _ _ _ => true
  | .cmpiGt _ _ _ => true
  | .cmpiGe _ _ _ => true
  | .sel _ _ _ _ => true
  | .pand _ _ _ => true
  | .por _ _ _ => true
  | .pxor _ _ _ => true
  | .pandn _ _ _ => true
  | .pnot _ _ => true
  | .ptov _ _ => true
  | .vtop _ _ => true
  | .sread _ _ => true
  | .fadd _ _ _ => true
  | .fsub _ _ _ => true
  | .fmul _ _ _ => true
  | .fdiv _ _ _ => true
  | .fmin _ _ _ => true
  | .fmax _ _ _ => true
  | .fabs _ _ => true
  | .fneg _ _ => true
  | .fcsgn _ _ _ => true
  | .ffloor _ _ => true
  | .fceil _ _ => true
  | .ftrunc _ _ => true
  | .frint _ _ => true
  | .ffma _ _ _ => true
  | .ffms _ _ _ => true
  | .fnma _ _ _ => true
  | .fnms _ _ _ => true
  | .hadd _ _ _ => true
  | .hsub _ _ _ => true
  | .hmul _ _ _ => true
  | .hfma _ _ _ => true
  | .hmin _ _ _ => true
  | .hmax _ _ _ => true
  | .hneg _ _ => true
  | .habs _ _ => true
  | .padd _ _ _ => true
  | .paddSat _ _ _ => true
  | .psub _ _ _ => true
  | .psubSat _ _ _ => true
  | .pmul _ _ _ => true
  | .pmin _ _ _ => true
  | .pmax _ _ _ => true
  | .pabs _ _ => true
  | .pavg _ _ _ => true
  | .pshl _ _ _ => true
  | .psar _ _ _ => true
  | .pshr _ _ _ => true
  | .prsar _ _ _ => true
  | .dmac _ _ _ => true
  | .dmacSat _ _ _ => true
  | .fdmac _ _ _ => true
  | .exp2 _ _ => true
  | .log2 _ _ => true
  | .rcp _ _ => true
  | .rsq _ _ => true
  | .sqrt _ _ => true
  | .sin _ _ => true
  | .cos _ _ => true
  | .tanh _ _ => true
  | .exp _ _ => true
  | .log _ _ => true
  | .sigm _ _ => true
  | .cvt _ _ _ _ _ => true
  | .retag _ _ => true
  | .scadd _ _ => true
  | .pklo _ _ _ => true
  | .pkhi _ _ _ => true
  | .pkbl _ _ _ => true
  | .xtlo _ _ => true
  | .xthi _ _ => true
  | .xtb _ _ _ => true
  | .lpick _ _ _ => true
  | .slideup _ _ _ => true
  | .slidedn _ _ _ => true
  | .ballot _ _ _ => true
  | .voteAny _ _ _ => true
  | .voteAll _ _ _ => true
  | .voteEq _ _ _ => true
  | .lredAdd _ _ _ => true
  | .lredMin _ _ _ => true
  | .lredMax _ _ _ => true
  | .lredAnd _ _ _ => true
  | .lredOr _ _ _ => true
  | .lredXor _ _ _ => true
  | .lscanInc _ _ _ => true
  | .lscanExc _ _ _ => true
  | .vmovfrom _ => true
  | .vmovto _ => true
  | .setix _ => true
  | .getix _ => true
  | .addix _ => true
  | .guard _ _ _ => true
  | .br _ _ _ => true
  | .call _ _ _ => true
  | .brq _ _ => true
  | .jmpi _ _ => true
  | .calli _ _ => true
  | .ret => true
  | .brt _ _ => true
  | .nop => true
  | .reform => true
  | .reformK _ => true
  | .yield => true
  | .lpad _ => true
  | .exit => true
  | .lsync _ => true
  | .elect _ _ => true
  | .beacon => true
  | .wait _ _ _ _ _ _ => true
  | .ldRaw _ _ _ => true
  | .ldI32 _ _ _ => true
  | .ldN32 _ _ _ => true
  | .ldF32 _ _ _ => true
  | .ld64 _ _ _ => true
  | .ldI8 _ _ _ => true
  | .ldN8 _ _ _ => true
  | .ldI16 _ _ _ => true
  | .ldN16 _ _ _ => true
  | .st8 _ _ _ => true
  | .st16 _ _ _ => true
  | .st32 _ _ _ => true
  | .st64 _ _ _ => true
  | .ldt _ _ _ _ => true
  | .lds _ _ _ => true
  | .ldsWf _ _ _ => true
  | .ldsWfe _ _ _ => true
  | .ldsSe _ _ _ => true
  | .lds64 _ _ _ => true
  | .lds8 _ _ _ => true
  | .lds16 _ _ _ => true
  | .sts _ _ _ => true
  | .stsWef _ _ _ => true
  | .stsSf _ _ _ => true
  | .stsSe _ _ _ => true
  | .sts64 _ _ _ => true
  | .sts8 _ _ _ => true
  | .sts16 _ _ _ => true
  | .lda32 _ _ _ _ => true
  | .lda64 _ _ _ _ => true
  | .ldaP _ _ _ => true
  | .ldaP64 _ _ _ => true
  | .stl32 _ _ _ _ => true
  | .stl64 _ _ _ _ => true
  | .atomAdd _ _ _ _ => true
  | .atomAddb _ _ _ _ => true
  | .atomMin _ _ _ _ => true
  | .atomMax _ _ _ _ => true
  | .atomMinn _ _ _ _ => true
  | .atomMaxn _ _ _ _ => true
  | .atomAnd _ _ _ _ => true
  | .atomOr _ _ _ _ => true
  | .atomXor _ _ _ _ => true
  | .atomSwap _ _ _ _ => true
  | .atomCas _ _ _ _ => true
  | .atomMaxsi _ _ _ _ => true
  | .atomFadd _ _ _ _ => true
  | .atomAdd64 _ _ _ _ => true
  | .atomSwap64 _ _ _ _ => true
  | .atomCas64 _ _ _ _ => true
  | .fenceAcq _ => true
  | .fenceRel _ => true
  | .fenceAr _ => true
  | .fenceSc _ => true
  | .prefL2 _ _ => true
  | .prefL1 _ _ => true
  | .cwb _ _ => true
  | .cinv _ _ => true
  | .cwbinv _ _ => true
  | .czero _ _ => true
  | .cevict _ _ => true
  | .waitaEqGlobal _ _ _ _ => true
  | .waitaChgGlobal _ _ _ _ => true
  | .waitaFull _ _ _ _ => true
  | .waitaEqScratch _ _ _ _ => true
  | .waitaChgScratch _ _ _ _ => true
  | .copyG2s _ _ => true
  | .copyS2g _ _ => true
  | .copyG2g _ _ => true
  | .copyG2c _ _ => true
  | .copyS2c _ _ => true
  | .copyMeta _ _ => true
  | .copyScale _ _ => true
  | .copyRemote _ _ => true
  | .copyReduce _ _ => true
  | .copyGather _ _ => true
  | .copyScatter _ _ => true
  | .qinit _ _ _ => true
  | .qpush _ _ _ => true
  | .qpop _ _ _ => true
  | .qtrypush _ _ _ _ => true
  | .qtrypop _ _ _ _ => true
  | .qlen _ _ => true
  | .rvinit _ _ _ => true
  | .arrive _ _ => true
  | .arriven _ _ _ => true
  | .expect _ _ _ => true
  | .pledge _ _ _ => true
  | .rvleave _ _ => true
  | .mma _ _ => true
  | .tld _ _ _ => true
  | .tst _ _ _ => true
  | .tzero _ _ => true
  | .tcvt _ _ _ => true
  | .tget _ _ _ => true
  | .tset _ _ _ => true
  | .tredr _ _ _ => true
  | .tredc _ _ _ => true
  | .tstat _ _ => true
  | .tgen _ _ => true
  | .pform _ _ _ => true
  | .pmarg _ _ _ => true
  | .balance _ _ _ => true
  | .pextract _ _ _ => true
  | .pcost _ _ _ => true
  | .pstat _ _ _ => true
  | .mzdecl _ _ => true
  | .mzpost _ _ => true
  | .mztake _ _ _ => true
  | .mzdonePass _ _ => true
  | .mzdoneDrop _ _ => true
  | .mzeff _ _ _ => true
  | .mzsink _ _ => true
  | .mzstat _ _ _ => true
  | .lcreate _ _ _ => true
  | .lcreateM _ _ _ => true
  | .lopen _ _ => true
  | .lhand _ _ _ => true
  | .ldrop _ _ => true
  | .linfo _ _ => true
  | .launch _ _ _ => true
  | .signal _ _ _ => true
  | .cont _ _ => true
  | .take _ _ => true
  | .idemBegin _ => true
  | .idemEnd => true
  | .afor _ _ _ => true
  | .aend => true
  | .aload _ _ _ => true
  | .abr _ => true
  | .ahalt => true
  | .trap _ => true
  | .bkpt _ => true
  | .cread _ _ _ => true
  | .cwrite _ _ _ => true
  | .traprd _ _ _ => true
  | .trapwr _ _ _ => true
  | .haltwg _ _ _ => true
  | .resume _ _ _ => true
  | .kill _ _ _ => true
  | .tlbinvWrite _ _ => false
  | .resetWrite _ => false
  | .runRelease _ => false
  | .issueGroupSelect _ => false
  | .yieldReady _ _ => false
  | .trapEntry _ _ => false
  | .loadReturn _ _ _ => false
  | .storePerform _ _ => false
  | .waitTableSpill _ => false
  | .waitTableFill _ => false
  | .pageWalkComplete _ => false
  | .promotionRequest _ _ => false
  | .pmemgrowService _ _ _ _ => false
  | .streamerChannelStart _ => false
  | .streamerByteReport _ _ => false
  | .copyComplete _ => false
  | .accessGroupIssue _ _ _ => false
  | .aloadReturn _ _ => false
  | .tileOpStart _ => false
  | .matrixPassEnd _ _ => false
  | .tileOpComplete _ _ => false
  | .tgenComplete _ _ => false
  | .balanceSweep _ => false
  | .mazeHeldReroute _ _ => false
  | .mazeRecordComplete _ _ => false
  | .lodgeMoveStart _ _ => false
  | .lodgeMoveComplete _ _ => false
  | .lodgeRebuild _ _ => false
  | .lodgeMirrorCopy _ _ => false
  | .patienceExpiry _ _ => false
  | .leaseEnd _ => false
  | .coreLoss _ => false
  | .queueHeadActivate _ _ => false
  | .workgroupPlace _ _ => false
  | .quadrantReclaim _ => false
  | .launchComplete _ => false
  | .preempt _ => false
  | .preemptSave _ => false
  | .restore _ _ => false
  | .ttSlotStart _ => false
  | .ttSlotSkip _ => false
  | .contRecordReady _ _ => false
  | .genQuarantineRelease _ _ => false
  | .watchdogFire _ => false
  | .watchdogGraceExpiry _ => false
  | .strike _ => false
  | .patrolScrub _ _ => false
  | .flitReceive _ _ => false
  | .ackReturn _ => false
  | .laneFailure _ _ => false
  | .linkRetrainDone _ _ => false
  | .flitExpire _ _ => false
  | .peerRequest _ => false
  | .peerLaunch _ => false
  | .remoteResponse _ _ _ => false
  | .remoteTimeout _ => false
  | .reductionResult _ _ _ => false
  | .reductionTimeout _ => false
  | .scaleOutFrameReceive _ _ => false
  | .scaleOutResend _ => false
  | .hostCxlMemAccess _ _ _ _ => false
  | .bar2ApertureAccess _ _ _ _ => false
  | .doorbell _ _ _ => false
  | .partitionDefine _ _ => false
  | .partitionChange _ _ => false
  | .partitionTeardown _ => false
  | .hbmReassign _ _ _ => false
  | .peerAclWrite _ _ => false
  | .reductionGroupDefine _ _ _ _ => false
  | .linkRestore _ => false
  | .powerCapSet _ => false
  | .meterRingName _ _ => false
  | .attestationQuote _ => false
  | .checkpointHeaderSign _ => false
  | .meterBlockClose => false
  | .powerCapAdjust _ => false
  | .thermalThrottle _ => false
  | .thermalTrip => false
  | .s1Entry => false
  | .s1Exit => false
  | .moduleBoot _ _ _ => false
  | .dieReset _ => false
  | .postcopyPagePull _ _ _ _ => false
  | .hostResetRequest _ => false
  | .passHoldRelease _ => false
  | .l1Writeback _ _ => false
  | .memoryChannelRetire _ => false
  | .s3Exit => false
  | .hostCxlCacheSnoop _ _ => false

/-- Field ranges, even pairs, implicit registers within v127, zero fields and assigned selectors
(R30 to R32, R38 to R47). -/
def Instr.wellFormed : Instr → Bool
  | .mov16 d b => decide (d < 32) && decide (b < 64)
  | .add16 d b => decide (d < 32) && decide (b < 64)
  | .sub16 d b => decide (d < 32) && decide (b < 64)
  | .mul16 d b => decide (d < 32) && decide (b < 64)
  | .and16 d b => decide (d < 32) && decide (b < 64)
  | .or16 d b => decide (d < 32) && decide (b < 64)
  | .xor16 d b => decide (d < 32) && decide (b < 64)
  | .shl16 d b => decide (d < 32) && decide (b < 64)
  | .shr16 d b => decide (d < 32) && decide (b < 64)
  | .sar16 d b => decide (d < 32) && decide (b < 64)
  | .min16 d b => decide (d < 32) && decide (b < 64)
  | .max16 d b => decide (d < 32) && decide (b < 64)
  | .fadd16 d b => decide (d < 32) && decide (b < 64)
  | .fsub16 d b => decide (d < 32) && decide (b < 64)
  | .fmul16 d b => decide (d < 32) && decide (b < 64)
  | .fmax16 d b => decide (d < 32) && decide (b < 64)
  | .add d a b => decide (d < 128) && decide (a < 128) && decide (b < 128)
  | .sub d a b => decide (d < 128) && decide (a < 128) && decide (b < 128)
  | .mul d a b => decide (d < 128) && decide (a < 128) && decide (b < 128)
  | .mulhi d a b => decide (d < 128) && decide (a < 128) && decide (b < 128)
  | .and d a b => decide (d < 128) && decide (a < 128) && decide (b < 128)
  | .or d a b => decide (d < 128) && decide (a < 128) && decide (b < 128)
  | .xor d a b => decide (d < 128) && decide (a < 128) && decide (b < 128)
  | .shl d a b => decide (d < 128) && decide (a < 128) && decide (b < 128)
  | .shr d a b => decide (d < 128) && decide (a < 128) && decide (b < 128)
  | .sar d a b => decide (d < 128) && decide (a < 128) && decide (b < 128)
  | .min d a b => decide (d < 128) && decide (a < 128) && decide (b < 128)
  | .max d a b => decide (d < 128) && decide (a < 128) && decide (b < 128)
  | .mov d b => decide (d < 128) && decide (b < 128)
  | .div d a b => decide (d < 128) && decide (a < 128) && decide (b < 128)
  | .rem d a b => decide (d < 128) && decide (a < 128) && decide (b < 128)
  | .andn d a b => decide (d < 128) && decide (a < 128) && decide (b < 128)
  | .not d a => decide (d < 128) && decide (a < 128)
  | .clz d a => decide (d < 128) && decide (a < 128)
  | .popc d a => decide (d < 128) && decide (a < 128)
  | .brev d a => decide (d < 128) && decide (a < 128)
  | .abs d a => decide (d < 128) && decide (a < 128)
  | .neg d a => decide (d < 128) && decide (a < 128)
  | .bfx d a b => decide (d < 128) && decide (a < 128) && decide (b < 128)
  | .bfi d a b => decide (d < 128) && decide (a < 128) && decide (b < 127)
  | .gettag d a => decide (d < 128) && decide (a < 128)
  | .settag d a b => decide (d < 128) && decide (a < 128) && decide (b < 128)
  | .addi d a imm => decide (d < 128) && decide (a < 128) && decide (-1024 ≤ imm) && decide (imm < 1024)
  | .andi d a imm => decide (d < 128) && decide (a < 128) && decide (-1024 ≤ imm) && decide (imm < 1024)
  | .ori d a imm => decide (d < 128) && decide (a < 128) && decide (-1024 ≤ imm) && decide (imm < 1024)
  | .xori d a imm => decide (d < 128) && decide (a < 128) && decide (-1024 ≤ imm) && decide (imm < 1024)
  | .muli d a imm => decide (d < 128) && decide (a < 128) && decide (-1024 ≤ imm) && decide (imm < 1024)
  | .shli d a n => decide (d < 128) && decide (a < 128) && decide (n < 32)
  | .shri d a n => decide (d < 128) && decide (a < 128) && decide (n < 32)
  | .sari d a n => decide (d < 128) && decide (a < 128) && decide (n < 32)
  | .rsari d a n => decide (d < 128) && decide (a < 128) && decide (n < 32)
  | .lui d imm => decide (d < 128) && decide (imm < 262144)
  | .adr d a b sh => decide (d < 128) && decide (d % 2 = 0) && decide (a < 128) && decide (a % 2 = 0) && decide (b < 128) && decide (sh < 4)
  | .adrS d a b sh => decide (d < 128) && decide (d % 2 = 0) && decide (a < 128) && decide (a % 2 = 0) && decide (b < 128) && decide (sh < 4)
  | .add64 d a b => decide (d < 128) && decide (d % 2 = 0) && decide (a < 128) && decide (a % 2 = 0) && decide (b < 128) && decide (b % 2 = 0)
  | .sub64 d a b => decide (d < 128) && decide (d % 2 = 0) && decide (a < 128) && decide (a % 2 = 0) && decide (b < 128) && decide (b % 2 = 0)
  | .and64 d a b => decide (d < 128) && decide (d % 2 = 0) && decide (a < 128) && decide (a % 2 = 0) && decide (b < 128) && decide (b % 2 = 0)
  | .or64 d a b => decide (d < 128) && decide (d % 2 = 0) && decide (a < 128) && decide (a % 2 = 0) && decide (b < 128) && decide (b % 2 = 0)
  | .xor64 d a b => decide (d < 128) && decide (d % 2 = 0) && decide (a < 128) && decide (a % 2 = 0) && decide (b < 128) && decide (b % 2 = 0)
  | .shl64 d a b => decide (d < 128) && decide (d % 2 = 0) && decide (a < 128) && decide (a % 2 = 0) && decide (b < 128)
  | .shr64 d a b => decide (d < 128) && decide (d % 2 = 0) && decide (a < 128) && decide (a % 2 = 0) && decide (b < 128)
  | .sar64 d a b => decide (d < 128) && decide (d % 2 = 0) && decide (a < 128) && decide (a % 2 = 0) && decide (b < 128)
  | .mov64 d b => decide (d < 128) && decide (d % 2 = 0) && decide (b < 128) && decide (b % 2 = 0)
  | .xaddi d a imm => decide (d < 128) && decide (d % 2 = 0) && decide (a < 128) && decide (a % 2 = 0) && decide (-1024 ≤ imm) && decide (imm < 1024)
  | .cmpEq d a b => decide (d < 8) && decide (a < 128) && decide (b < 128)
  | .cmpNe d a b => decide (d < 8) && decide (a < 128) && decide (b < 128)
  | .cmpLt d a b => decide (d < 8) && decide (a < 128) && decide (b < 128)
  | .cmpLe d a b => decide (d < 8) && decide (a < 128) && decide (b < 128)
  | .cmpGt d a b => decide (d < 8) && decide (a < 128) && decide (b < 128)
  | .cmpGe d a b => decide (d < 8) && decide (a < 128) && decide (b < 128)
  | .cmpUnord d a b => decide (d < 8) && decide (a < 128) && decide (b < 128)
  | .ptest d a b => decide (d < 8) && decide (a < 128) && decide (b < 128)
  | .cmp64Eq d a b => decide (d < 8) && decide (a < 128) && decide (a % 2 = 0) && decide (b < 128) && decide (b % 2 = 0)
  | .cmp64Ne d a b => decide (d < 8) && decide (a < 128) && decide (a % 2 = 0) && decide (b < 128) && decide (b % 2 = 0)
  | .cmp64Lt d a b => decide (d < 8) && decide (a < 128) && decide (a % 2 = 0) && decide (b < 128) && decide (b % 2 = 0)
  | .cmp64Ltn d a b => decide (d < 8) && decide (a < 128) && decide (a % 2 = 0) && decide (b < 128) && decide (b % 2 = 0)
  | .cmpiEq d a imm => decide (d < 8) && decide (a < 128) && decide (-128 ≤ imm) && decide (imm < 128)
  | .cmpiNe d a imm => decide (d < 8) && decide (a < 128) && decide (-128 ≤ imm) && decide (imm < 128)
  | .cmpiLt d a imm => decide (d < 8) && decide (a < 128) && decide (-128 ≤ imm) && decide (imm < 128)
  | .cmpiLe d a imm => decide (d < 8) && decide (a < 128) && decide (-128 ≤ imm) && decide (imm < 128)
  | .cmpiGt d a imm => decide (d < 8) && decide (a < 128) && decide (-128 ≤ imm) && decide (imm < 128)
  | .cmpiGe d a imm => decide (d < 8) && decide (a < 128) && decide (-128 ≤ imm) && decide (imm < 128)
  | .sel d n a b => decide (d < 128) && decide (n < 8) && decide (a < 128) && decide (b < 128)
  | .pand d a b => decide (d < 8) && decide (a < 8) && decide (b < 8)
  | .por d a b => decide (d < 8) && decide (a < 8) && decide (b < 8)
  | .pxor d a b => decide (d < 8) && decide (a < 8) && decide (b < 8)
  | .pandn d a b => decide (d < 8) && decide (a < 8) && decide (b < 8)
  | .pnot d a => decide (d < 8) && decide (a < 8)
  | .ptov d a => decide (d < 128) && decide (a < 8)
  | .vtop d a => decide (d < 8) && decide (a < 128)
  | .sread d n => decide (d < 128) && sregOk n && decide (sregWide n = true → d % 2 = 0)
  | .fadd d a b => decide (d < 128) && decide (a < 128) && decide (b < 128)
  | .fsub d a b => decide (d < 128) && decide (a < 128) && decide (b < 128)
  | .fmul d a b => decide (d < 128) && decide (a < 128) && decide (b < 128)
  | .fdiv d a b => decide (d < 128) && decide (a < 128) && decide (b < 128)
  | .fmin d a b => decide (d < 128) && decide (a < 128) && decide (b < 128)
  | .fmax d a b => decide (d < 128) && decide (a < 128) && decide (b < 128)
  | .fabs d a => decide (d < 128) && decide (a < 128)
  | .fneg d a => decide (d < 128) && decide (a < 128)
  | .fcsgn d a b => decide (d < 128) && decide (a < 128) && decide (b < 128)
  | .ffloor d a => decide (d < 128) && decide (a < 128)
  | .fceil d a => decide (d < 128) && decide (a < 128)
  | .ftrunc d a => decide (d < 128) && decide (a < 128)
  | .frint d a => decide (d < 128) && decide (a < 128)
  | .ffma d a b => decide (d < 128) && decide (a < 128) && decide (b < 128)
  | .ffms d a b => decide (d < 128) && decide (a < 128) && decide (b < 128)
  | .fnma d a b => decide (d < 128) && decide (a < 128) && decide (b < 128)
  | .fnms d a b => decide (d < 128) && decide (a < 128) && decide (b < 128)
  | .hadd d a b => decide (d < 128) && decide (a < 128) && decide (b < 128)
  | .hsub d a b => decide (d < 128) && decide (a < 128) && decide (b < 128)
  | .hmul d a b => decide (d < 128) && decide (a < 128) && decide (b < 128)
  | .hfma d a b => decide (d < 128) && decide (a < 128) && decide (b < 128)
  | .hmin d a b => decide (d < 128) && decide (a < 128) && decide (b < 128)
  | .hmax d a b => decide (d < 128) && decide (a < 128) && decide (b < 128)
  | .hneg d a => decide (d < 128) && decide (a < 128)
  | .habs d a => decide (d < 128) && decide (a < 128)
  | .padd d a b => decide (d < 128) && decide (a < 128) && decide (b < 128)
  | .paddSat d a b => decide (d < 128) && decide (a < 128) && decide (b < 128)
  | .psub d a b => decide (d < 128) && decide (a < 128) && decide (b < 128)
  | .psubSat d a b => decide (d < 128) && decide (a < 128) && decide (b < 128)
  | .pmul d a b => decide (d < 128) && decide (a < 128) && decide (b < 128)
  | .pmin d a b => decide (d < 128) && decide (a < 128) && decide (b < 128)
  | .pmax d a b => decide (d < 128) && decide (a < 128) && decide (b < 128)
  | .pabs d a => decide (d < 128) && decide (a < 128)
  | .pavg d a b => decide (d < 128) && decide (a < 128) && decide (b < 128)
  | .pshl d a b => decide (d < 128) && decide (a < 128) && decide (b < 128)
  | .psar d a b => decide (d < 128) && decide (a < 128) && decide (b < 128)
  | .pshr d a b => decide (d < 128) && decide (a < 128) && decide (b < 128)
  | .prsar d a b => decide (d < 128) && decide (a < 128) && decide (b < 128)
  | .dmac d a b => decide (d < 128) && decide (a < 128) && decide (b < 128)
  | .dmacSat d a b => decide (d < 128) && decide (a < 128) && decide (b < 128)
  | .fdmac d a b => decide (d < 128) && decide (a < 128) && decide (b < 128)
  | .exp2 d a => decide (d < 128) && decide (a < 128)
  | .log2 d a => decide (d < 128) && decide (a < 128)
  | .rcp d a => decide (d < 128) && decide (a < 128)
  | .rsq d a => decide (d < 128) && decide (a < 128)
  | .sqrt d a => decide (d < 128) && decide (a < 128)
  | .sin d a => decide (d < 128) && decide (a < 128)
  | .cos d a => decide (d < 128) && decide (a < 128)
  | .tanh d a => decide (d < 128) && decide (a < 128)
  | .exp d a => decide (d < 128) && decide (a < 128)
  | .log d a => decide (d < 128) && decide (a < 128)
  | .sigm d a => decide (d < 128) && decide (a < 128)
  | .cvt d a b m o => decide (d < 128) && decide (a < 128) && decide (b < 128) && decide (m < 6) && decide (o < 2)
  | .retag d t => decide (d < 128) && decide (t < 65536) && validTag t
  | .scadd d imm => decide (d < 128) && decide (-128 ≤ imm) && decide (imm < 128)
  | .pklo d a b => decide (d < 128) && decide (a < 128) && decide (b < 128)
  | .pkhi d a b => decide (d < 128) && decide (a < 128) && decide (b < 128)
  | .pkbl d a b => decide (d < 128) && decide (a < 128) && decide (b < 128)
  | .xtlo d a => decide (d < 128) && decide (a < 128)
  | .xthi d a => decide (d < 128) && decide (a < 128)
  | .xtb d a b => decide (d < 128) && decide (a < 128) && decide (b < 128)
  | .lpick d a b => decide (d < 128) && decide (a < 128) && decide (b < 127)
  | .slideup d a b => decide (d < 128) && decide (a < 128) && decide (b < 127)
  | .slidedn d a b => decide (d < 128) && decide (a < 128) && decide (b < 127)
  | .ballot d a b => decide (d < 128) && decide (a < 128) && decide (b < 128)
  | .voteAny d a b => decide (d < 128) && decide (a < 128) && decide (b < 128)
  | .voteAll d a b => decide (d < 128) && decide (a < 128) && decide (b < 128)
  | .voteEq d a b => decide (d < 128) && decide (a < 128) && decide (b < 128)
  | .lredAdd d a b => decide (d < 128) && decide (a < 128) && decide (b < 128)
  | .lredMin d a b => decide (d < 128) && decide (a < 128) && decide (b < 128)
  | .lredMax d a b => decide (d < 128) && decide (a < 128) && decide (b < 128)
  | .lredAnd d a b => decide (d < 128) && decide (a < 128) && decide (b < 128)
  | .lredOr d a b => decide (d < 128) && decide (a < 128) && decide (b < 128)
  | .lredXor d a b => decide (d < 128) && decide (a < 128) && decide (b < 128)
  | .lscanInc d a b => decide (d < 128) && decide (a < 128) && decide (b < 128)
  | .lscanExc d a b => decide (d < 128) && decide (a < 128) && decide (b < 128)
  | .vmovfrom d => decide (d < 128)
  | .vmovto a => decide (a < 128)
  | .setix a => decide (a < 128)
  | .getix d => decide (d < 128)
  | .addix a => decide (a < 128)
  | .guard p inv n => decide (p < 8) && decide (inv < 2) && decide (1 ≤ n) && decide (n < 9)
  | .br off inv p => decide (-131072 ≤ off) && decide (off < 131072) && decide (inv < 2) && decide (p < 8)
  | .call off inv p => decide (-131072 ≤ off) && decide (off < 131072) && decide (inv < 2) && decide (p < 8)
  | .brq off inv => decide (-131072 ≤ off) && decide (off < 131072) && decide (inv < 2)
  | .jmpi a imm => decide (a < 128) && decide (a % 2 = 0) && decide (imm < 2048)
  | .calli a imm => decide (a < 128) && decide (a % 2 = 0) && decide (imm < 2048)
  | .ret => true
  | .brt a imm => decide (a < 128) && decide (1 ≤ imm) && decide (imm < 2048)
  | .nop => true
  | .reform => true
  | .reformK a => decide (a < 128)
  | .yield => true
  | .lpad imm => decide (imm < 2048)
  | .exit => true
  | .lsync a => decide (a < 128)
  | .elect p a => decide (p < 8) && decide (a < 128)
  | .beacon => true
  | .wait l st c t av aw => decide (l < 16) && decide (st < 16) && decide (c < 16) && decide (t < 16) && decide (av < 2) && decide (aw < 128) && decide (av = 0 → aw = 0)
  | .ldRaw d b off => decide (d < 128) && decide (b < 128) && decide (b % 2 = 0) && decide (-64 ≤ off) && decide (off < 64)
  | .ldI32 d b off => decide (d < 128) && decide (b < 128) && decide (b % 2 = 0) && decide (-64 ≤ off) && decide (off < 64)
  | .ldN32 d b off => decide (d < 128) && decide (b < 128) && decide (b % 2 = 0) && decide (-64 ≤ off) && decide (off < 64)
  | .ldF32 d b off => decide (d < 128) && decide (b < 128) && decide (b % 2 = 0) && decide (-64 ≤ off) && decide (off < 64)
  | .ld64 d b off => decide (d < 128) && decide (d % 2 = 0) && decide (b < 128) && decide (b % 2 = 0) && decide (-64 ≤ off) && decide (off < 64)
  | .ldI8 d b off => decide (d < 128) && decide (b < 128) && decide (b % 2 = 0) && decide (-64 ≤ off) && decide (off < 64)
  | .ldN8 d b off => decide (d < 128) && decide (b < 128) && decide (b % 2 = 0) && decide (-64 ≤ off) && decide (off < 64)
  | .ldI16 d b off => decide (d < 128) && decide (b < 128) && decide (b % 2 = 0) && decide (-64 ≤ off) && decide (off < 64)
  | .ldN16 d b off => decide (d < 128) && decide (b < 128) && decide (b % 2 = 0) && decide (-64 ≤ off) && decide (off < 64)
  | .st8 d b off => decide (d < 128) && decide (b < 128) && decide (b % 2 = 0) && decide (-64 ≤ off) && decide (off < 64)
  | .st16 d b off => decide (d < 128) && decide (b < 128) && decide (b % 2 = 0) && decide (-64 ≤ off) && decide (off < 64)
  | .st32 d b off => decide (d < 128) && decide (b < 128) && decide (b % 2 = 0) && decide (-64 ≤ off) && decide (off < 64)
  | .st64 d b off => decide (d < 128) && decide (d % 2 = 0) && decide (b < 128) && decide (b % 2 = 0) && decide (-64 ≤ off) && decide (off < 64)
  | .ldt d b a z => decide (d < 128) && decide (b < 128) && decide (b % 2 = 0) && decide (a < 128) && decide (z < 16) && decide (d + ldtCount z ≤ 128)
  | .lds d a off => decide (d < 128) && decide (a < 128) && decide (-64 ≤ off) && decide (off < 64)
  | .ldsWf d a off => decide (d < 128) && decide (a < 128) && decide (-64 ≤ off) && decide (off < 64)
  | .ldsWfe d a off => decide (d < 128) && decide (a < 128) && decide (-64 ≤ off) && decide (off < 64)
  | .ldsSe d a off => decide (d < 128) && decide (a < 128) && decide (-64 ≤ off) && decide (off < 64)
  | .lds64 d a off => decide (d < 128) && decide (d % 2 = 0) && decide (a < 128) && decide (-64 ≤ off) && decide (off < 64)
  | .lds8 d a off => decide (d < 128) && decide (a < 128) && decide (-64 ≤ off) && decide (off < 64)
  | .lds16 d a off => decide (d < 128) && decide (a < 128) && decide (-64 ≤ off) && decide (off < 64)
  | .sts d a off => decide (d < 128) && decide (a < 128) && decide (-64 ≤ off) && decide (off < 64)
  | .stsWef d a off => decide (d < 128) && decide (a < 128) && decide (-64 ≤ off) && decide (off < 64)
  | .stsSf d a off => decide (d < 128) && decide (a < 128) && decide (-64 ≤ off) && decide (off < 64)
  | .stsSe d a off => decide (d < 128) && decide (a < 128) && decide (-64 ≤ off) && decide (off < 64)
  | .sts64 d a off => decide (d < 128) && decide (d % 2 = 0) && decide (a < 128) && decide (-64 ≤ off) && decide (off < 64)
  | .sts8 d a off => decide (d < 128) && decide (a < 128) && decide (-64 ≤ off) && decide (off < 64)
  | .sts16 d a off => decide (d < 128) && decide (a < 128) && decide (-64 ≤ off) && decide (off < 64)
  | .lda32 d b off _ => decide (d < 128) && decide (b < 128) && decide (b % 2 = 0) && decide (-32 ≤ off) && decide (off < 32)
  | .lda64 d b off _ => decide (d < 128) && decide (d % 2 = 0) && decide (b < 128) && decide (b % 2 = 0) && decide (-32 ≤ off) && decide (off < 32)
  | .ldaP d b off => decide (d < 128) && decide (b < 128) && decide (b % 2 = 0) && decide (-32 ≤ off) && decide (off < 32)
  | .ldaP64 d b off => decide (d < 128) && decide (d % 2 = 0) && decide (b < 128) && decide (b % 2 = 0) && decide (-32 ≤ off) && decide (off < 32)
  | .stl32 d b off _ => decide (d < 128) && decide (b < 128) && decide (b % 2 = 0) && decide (-32 ≤ off) && decide (off < 32)
  | .stl64 d b off _ => decide (d < 128) && decide (d % 2 = 0) && decide (b < 128) && decide (b % 2 = 0) && decide (-32 ≤ off) && decide (off < 32)
  | .atomAdd _ d b v => decide (d < 128) && decide (b < 128) && decide (b % 2 = 0) && decide (v < 128)
  | .atomAddb _ d b v => decide (d < 128) && decide (b < 128) && decide (b % 2 = 0) && decide (v < 127)
  | .atomMin _ d b v => decide (d < 128) && decide (b < 128) && decide (b % 2 = 0) && decide (v < 128)
  | .atomMax _ d b v => decide (d < 128) && decide (b < 128) && decide (b % 2 = 0) && decide (v < 128)
  | .atomMinn _ d b v => decide (d < 128) && decide (b < 128) && decide (b % 2 = 0) && decide (v < 128)
  | .atomMaxn _ d b v => decide (d < 128) && decide (b < 128) && decide (b % 2 = 0) && decide (v < 128)
  | .atomAnd _ d b v => decide (d < 128) && decide (b < 128) && decide (b % 2 = 0) && decide (v < 128)
  | .atomOr _ d b v => decide (d < 128) && decide (b < 128) && decide (b % 2 = 0) && decide (v < 128)
  | .atomXor _ d b v => decide (d < 128) && decide (b < 128) && decide (b % 2 = 0) && decide (v < 128)
  | .atomSwap _ d b v => decide (d < 128) && decide (b < 128) && decide (b % 2 = 0) && decide (v < 128)
  | .atomCas _ d b v => decide (d < 128) && decide (b < 128) && decide (b % 2 = 0) && decide (v < 127)
  | .atomMaxsi _ d b v => decide (d < 128) && decide (b < 128) && decide (b % 2 = 0) && decide (v < 128)
  | .atomFadd _ d b v => decide (d < 128) && decide (b < 128) && decide (b % 2 = 0) && decide (v < 128)
  | .atomAdd64 _ d b v => decide (d < 128) && decide (d % 2 = 0) && decide (b < 128) && decide (b % 2 = 0) && decide (v < 128) && decide (v % 2 = 0)
  | .atomSwap64 _ d b v => decide (d < 128) && decide (d % 2 = 0) && decide (b < 128) && decide (b % 2 = 0) && decide (v < 128) && decide (v % 2 = 0)
  | .atomCas64 _ d b v => decide (d < 128) && decide (d % 2 = 0) && decide (b < 128) && decide (b % 2 = 0) && decide (v < 125) && decide (v % 2 = 0)
  | .fenceAcq _ => true
  | .fenceRel _ => true
  | .fenceAr _ => true
  | .fenceSc _ => true
  | .prefL2 b off => decide (b < 128) && decide (b % 2 = 0) && decide (-64 ≤ off) && decide (off < 64)
  | .prefL1 b off => decide (b < 128) && decide (b % 2 = 0) && decide (-64 ≤ off) && decide (off < 64)
  | .cwb b off => decide (b < 128) && decide (b % 2 = 0) && decide (-64 ≤ off) && decide (off < 64)
  | .cinv b off => decide (b < 128) && decide (b % 2 = 0) && decide (-64 ≤ off) && decide (off < 64)
  | .cwbinv b off => decide (b < 128) && decide (b % 2 = 0) && decide (-64 ≤ off) && decide (off < 64)
  | .czero b off => decide (b < 128) && decide (b % 2 = 0) && decide (-64 ≤ off) && decide (off < 64)
  | .cevict b off => decide (b < 128) && decide (b % 2 = 0) && decide (-64 ≤ off) && decide (off < 64)
  | .waitaEqGlobal d b off _ => decide (d < 128) && decide (b < 128) && decide (b % 2 = 0) && decide (off < 64)
  | .waitaChgGlobal d b off _ => decide (d < 128) && decide (b < 128) && decide (b % 2 = 0) && decide (off < 64)
  | .waitaFull d b off _ => decide (d < 128) && decide (b < 128) && decide (off < 64)
  | .waitaEqScratch d b off _ => decide (d < 128) && decide (b < 128) && decide (off < 64)
  | .waitaChgScratch d b off _ => decide (d < 128) && decide (b < 128) && decide (off < 64)
  | .copyG2s d a => decide (d < 128) && decide (a < 128)
  | .copyS2g d a => decide (d < 128) && decide (a < 128)
  | .copyG2g d a => decide (d < 128) && decide (a < 128)
  | .copyG2c d a => decide (d < 128) && decide (a < 128)
  | .copyS2c d a => decide (d < 128) && decide (a < 128)
  | .copyMeta d a => decide (d < 128) && decide (a < 128)
  | .copyScale d a => decide (d < 128) && decide (a < 128)
  | .copyRemote d a => decide (d < 128) && decide (a < 128)
  | .copyReduce d a => decide (d < 128) && decide (a < 128)
  | .copyGather d a => decide (d < 128) && decide (a < 128)
  | .copyScatter d a => decide (d < 128) && decide (a < 128)
  | .qinit d q a => decide (d < 128) && decide (q < 8) && decide (a < 128) && decide (a % 2 = 0)
  | .qpush d q a => decide (d < 128) && decide (q < 8) && decide (a < 128)
  | .qpop d q a => decide (d < 128) && decide (q < 8) && decide (a < 128)
  | .qtrypush r d q a => decide (r < 8) && decide (d < 128) && decide (q < 8) && decide (a < 128)
  | .qtrypop r d q a => decide (r < 8) && decide (d < 128) && decide (q < 8) && decide (a < 128)
  | .qlen d q => decide (d < 128) && decide (q < 8)
  | .rvinit d a b => decide (d < 128) && decide (a < 128) && decide (b < 128)
  | .arrive d a => decide (d < 128) && decide (a < 128)
  | .arriven d a b => decide (d < 128) && decide (a < 128) && decide (b < 128)
  | .expect d a b => decide (d < 128) && decide (a < 128) && decide (b < 128)
  | .pledge d a b => decide (d < 128) && decide (a < 128) && decide (b < 128)
  | .rvleave d a => decide (d < 128) && decide (a < 128)
  | .mma d a => decide (d < 16) && decide (a < 128)
  | .tld d a b => decide (d < 16) && decide (a < 128) && decide (a % 2 = 0) && decide (b < 127)
  | .tst d a b => decide (d < 16) && decide (a < 128) && decide (a % 2 = 0) && decide (b < 127)
  | .tzero d a => decide (d < 16) && decide (a < 128) && decide (a % 2 = 0)
  | .tcvt d a b => decide (d < 16) && decide (a < 16) && decide (b < 128)
  | .tget d a b => decide (d < 128) && decide (a < 16) && decide (b < 128)
  | .tset d a b => decide (d < 16) && decide (a < 128) && decide (b < 128)
  | .tredr d a b => decide (d < 16) && decide (a < 16) && decide (b < 128)
  | .tredc d a b => decide (d < 16) && decide (a < 16) && decide (b < 128)
  | .tstat d a => decide (d < 128) && decide (a < 16)
  | .tgen d a => decide (d < 128) && decide (a < 128)
  | .pform d a b => decide (d < 16) && decide (a < 16) && decide (b < 127)
  | .pmarg d a b => decide (d < 16) && decide (a < 128) && decide (b < 128)
  | .balance d a b => decide (d < 128) && decide (a < 16) && decide (b < 127)
  | .pextract d a b => decide (d < 16) && decide (a < 16) && decide (b < 128)
  | .pcost d a b => decide (d < 128) && decide (a < 16) && decide (b < 16)
  | .pstat d a b => decide (d < 128) && decide (a < 16) && decide (b < 128)
  | .mzdecl d a => decide (d < 128) && decide (a < 128)
  | .mzpost a b => decide (a < 128) && decide (b < 127)
  | .mztake d a b => decide (d < 128) && decide (a < 128) && decide (b < 128)
  | .mzdonePass a b => decide (a < 128) && decide (b < 128)
  | .mzdoneDrop a b => decide (a < 128) && decide (b < 128)
  | .mzeff d a b => decide (d < 128) && decide (d % 2 = 0) && decide (a < 128) && decide (b < 127)
  | .mzsink d a => decide (d < 128) && decide (a < 128)
  | .mzstat d a b => decide (d < 128) && decide (a < 128) && decide (b < 128)
  | .lcreate d a b => decide (d < 127) && decide (a < 128) && decide (a % 2 = 0) && decide (b < 128)
  | .lcreateM d a b => decide (d < 127) && decide (a < 128) && decide (a % 2 = 0) && decide (b < 128)
  | .lopen d a => decide (d < 127) && decide (a < 128) && decide (a % 2 = 0)
  | .lhand d a b => decide (d < 127) && decide (a < 128) && decide (b < 128)
  | .ldrop d a => decide (d < 128) && decide (a < 128)
  | .linfo d a => decide (d < 127) && decide (a < 128) && decide (a % 2 = 0)
  | .launch d a b => decide (d < 128) && decide (a < 128) && decide (b < 128)
  | .signal d a b => decide (d < 128) && decide (a < 128) && decide (b < 128)
  | .cont a b => decide (a < 128) && decide (a % 2 = 0) && decide (b < 127)
  | .take d a => decide (d < 8) && decide (a < 128)
  | .idemBegin a => decide (a < 128) && decide (a % 2 = 0)
  | .idemEnd => true
  | .afor d a b => decide (d < 128) && decide (a < 128) && decide (b < 128)
  | .aend => true
  | .aload d a b => decide (d < 4) && decide (a < 128) && decide (a % 2 = 0) && decide (b < 2)
  | .abr a => decide (a < 128)
  | .ahalt => true
  | .trap c => decide (c < 1024)
  | .bkpt c => decide (c < 1024)
  | .cread d a n => decide (d < 128) && decide (a < 128) && decide (n < 256)
  | .cwrite d a n => decide (d < 128) && decide (a < 128) && decide (n < 256)
  | .traprd d a n => decide (d < 128) && decide (a < 128) && decide (n < 256)
  | .trapwr d a n => decide (d < 128) && decide (a < 128) && decide (n < 256)
  | .haltwg d a n => decide (d < 128) && decide (a < 128) && decide (n < 256)
  | .resume d a n => decide (d < 128) && decide (a < 128) && decide (n < 256)
  | .kill d a n => decide (d < 128) && decide (a < 128) && decide (n < 256)
  | .tlbinvWrite _ _ => true
  | .resetWrite _ => true
  | .runRelease _ => true
  | .issueGroupSelect _ => true
  | .yieldReady _ _ => true
  | .trapEntry _ _ => true
  | .loadReturn _ _ _ => true
  | .storePerform _ _ => true
  | .waitTableSpill _ => true
  | .waitTableFill _ => true
  | .pageWalkComplete _ => true
  | .promotionRequest _ _ => true
  | .pmemgrowService _ _ _ _ => true
  | .streamerChannelStart _ => true
  | .streamerByteReport _ _ => true
  | .copyComplete _ => true
  | .accessGroupIssue _ _ _ => true
  | .aloadReturn _ _ => true
  | .tileOpStart _ => true
  | .matrixPassEnd _ _ => true
  | .tileOpComplete _ _ => true
  | .tgenComplete _ _ => true
  | .balanceSweep _ => true
  | .mazeHeldReroute _ _ => true
  | .mazeRecordComplete _ _ => true
  | .lodgeMoveStart _ _ => true
  | .lodgeMoveComplete _ _ => true
  | .lodgeRebuild _ _ => true
  | .lodgeMirrorCopy _ _ => true
  | .patienceExpiry _ _ => true
  | .leaseEnd _ => true
  | .coreLoss _ => true
  | .queueHeadActivate _ _ => true
  | .workgroupPlace _ _ => true
  | .quadrantReclaim _ => true
  | .launchComplete _ => true
  | .preempt _ => true
  | .preemptSave _ => true
  | .restore _ _ => true
  | .ttSlotStart _ => true
  | .ttSlotSkip _ => true
  | .contRecordReady _ _ => true
  | .genQuarantineRelease _ _ => true
  | .watchdogFire _ => true
  | .watchdogGraceExpiry _ => true
  | .strike _ => true
  | .patrolScrub _ _ => true
  | .flitReceive _ _ => true
  | .ackReturn _ => true
  | .laneFailure _ _ => true
  | .linkRetrainDone _ _ => true
  | .flitExpire _ _ => true
  | .peerRequest _ => true
  | .peerLaunch _ => true
  | .remoteResponse _ _ _ => true
  | .remoteTimeout _ => true
  | .reductionResult _ _ _ => true
  | .reductionTimeout _ => true
  | .scaleOutFrameReceive _ _ => true
  | .scaleOutResend _ => true
  | .hostCxlMemAccess _ _ _ _ => true
  | .bar2ApertureAccess _ _ _ _ => true
  | .doorbell _ _ _ => true
  | .partitionDefine _ _ => true
  | .partitionChange _ _ => true
  | .partitionTeardown _ => true
  | .hbmReassign _ _ _ => true
  | .peerAclWrite _ _ => true
  | .reductionGroupDefine _ _ _ _ => true
  | .linkRestore _ => true
  | .powerCapSet _ => true
  | .meterRingName _ _ => true
  | .attestationQuote _ => true
  | .checkpointHeaderSign _ => true
  | .meterBlockClose => true
  | .powerCapAdjust _ => true
  | .thermalThrottle _ => true
  | .thermalTrip => true
  | .s1Entry => true
  | .s1Exit => true
  | .moduleBoot _ _ _ => true
  | .dieReset _ => true
  | .postcopyPagePull _ _ _ _ => true
  | .hostResetRequest _ => true
  | .passHoldRelease _ => true
  | .l1Writeback _ _ => true
  | .memoryChannelRetire _ => true
  | .s3Exit => true
  | .hostCxlCacheSnoop _ _ => true

end Sys2Proof
end

