-- ==== Sys2Proof/Decode.lean ====
section
/-! DEFINITION. The decoder and the encoder (03_encodings.md R24 to R48). A 32-bit word is five fields:
MAJ 6:1, D 13:7, A 20:14, B 27:21 and FN 31:28; every format of R29 is a reading of these five. -/

namespace Sys2Proof

/-- Why an encoding is refused. All of them raise ILLEGAL (R47), but for short, which says that fewer bytes
were given than the instruction has. -/
inductive DecErr where
  | short | reservedMaj | unassigned | nonzeroField | oddPair | implicitBeyond
  deriving DecidableEq, Repr

/-- n read as a k-bit two's complement number. -/
def sx (n k : Nat) : Int := if n < 2 ^ (k - 1) then (n : Int) else (n : Int) - 2 ^ k
/-- The k-bit two's complement code of z. -/
def usx (z : Int) (k : Nat) : Nat := (z % 2 ^ k).toNat

/-- The scope with this code (R29). -/
def scopeOf (n : Nat) : Scope := if n = 0 then .wg else if n = 1 then .cl else if n = 2 then .dv else .sy
/-- The code of a scope (R29). -/
def Scope.code : Scope → Nat
  | .wg => 0 | .cl => 1 | .dv => 2 | .sy => 3

/-- A field that must be zero (R39). -/
def zf (n : Nat) (k : Except DecErr Instr) : Except DecErr Instr := if n = 0 then k else .error .nonzeroField
/-- An x field holds an even number (R31). -/
def xf (n : Nat) (k : Except DecErr Instr) : Except DecErr Instr := if n % 2 = 0 then k else .error .oddPair
/-- A p field's upper four bits are zero (R32). -/
def pf (n : Nat) (k : Except DecErr Instr) : Except DecErr Instr := if n < 8 then k else .error .nonzeroField
/-- A tile field's upper three bits are zero (R39). -/
def tf (n : Nat) (k : Except DecErr Instr) : Except DecErr Instr := if n < 16 then k else .error .nonzeroField
/-- A selector or narrow field below its limit (R47). -/
def lf (n lim : Nat) (k : Except DecErr Instr) : Except DecErr Instr := if n < lim then k else .error .unassigned
/-- An implicit register after the field stays within v127 (R30). -/
def nf (n lim : Nat) (k : Except DecErr Instr) : Except DecErr Instr := if n ≤ lim then k else .error .implicitBeyond

/-- The 16-bit forms (R26, R27). -/
def decode16 (op d b : Nat) : Except DecErr Instr :=
  match op with
  | 0 => .ok (.mov16 d b)
  | 1 => .ok (.add16 d b)
  | 2 => .ok (.sub16 d b)
  | 3 => .ok (.mul16 d b)
  | 4 => .ok (.and16 d b)
  | 5 => .ok (.or16 d b)
  | 6 => .ok (.xor16 d b)
  | 7 => .ok (.shl16 d b)
  | 8 => .ok (.shr16 d b)
  | 9 => .ok (.sar16 d b)
  | 10 => .ok (.min16 d b)
  | 11 => .ok (.max16 d b)
  | 12 => .ok (.fadd16 d b)
  | 13 => .ok (.fsub16 d b)
  | 14 => .ok (.fmul16 d b)
  | 15 => .ok (.fmax16 d b)
  | _ => .error .unassigned

/-- The selector of MAJ 0x0 (R38 to R46). -/
def decodeIalu (d a b fn : Nat) : Except DecErr Instr :=
  match fn with
  | 0 => .ok (.add d a b)
  | 1 => .ok (.sub d a b)
  | 2 => .ok (.mul d a b)
  | 3 => .ok (.mulhi d a b)
  | 4 => .ok (.and d a b)
  | 5 => .ok (.or d a b)
  | 6 => .ok (.xor d a b)
  | 7 => .ok (.shl d a b)
  | 8 => .ok (.shr d a b)
  | 9 => .ok (.sar d a b)
  | 10 => .ok (.min d a b)
  | 11 => .ok (.max d a b)
  | 12 => zf a <| .ok (.mov d b)
  | 13 => .ok (.div d a b)
  | 14 => .ok (.rem d a b)
  | 15 => .ok (.andn d a b)
  | _ => .error .unassigned

/-- The selector of MAJ 0x1 (R38 to R46). -/
def decodeIalu2 (d a b fn : Nat) : Except DecErr Instr :=
  match fn with
  | 0 => zf b <| .ok (.not d a)
  | 1 => zf b <| .ok (.clz d a)
  | 2 => zf b <| .ok (.popc d a)
  | 3 => zf b <| .ok (.brev d a)
  | 4 => zf b <| .ok (.abs d a)
  | 5 => zf b <| .ok (.neg d a)
  | 6 => .ok (.bfx d a b)
  | 7 => nf b 126 <| .ok (.bfi d a b)
  | 8 => zf b <| .ok (.gettag d a)
  | 9 => .ok (.settag d a b)
  | _ => .error .unassigned

/-- The selector of MAJ 0x6 (R38 to R46). -/
def decodeShi (d a b fn : Nat) : Except DecErr Instr :=
  match fn / 4 with
  | 0 => zf (fn % 4) <| lf b 32 <| .ok (.shli d a b)
  | 1 => zf (fn % 4) <| lf b 32 <| .ok (.shri d a b)
  | 2 => zf (fn % 4) <| lf b 32 <| .ok (.sari d a b)
  | 3 => zf (fn % 4) <| lf b 32 <| .ok (.rsari d a b)
  | _ => .error .unassigned

/-- The selector of MAJ 0x9 (R38 to R46). -/
def decodeAdr (d a b fn : Nat) : Except DecErr Instr :=
  match fn / 4 with
  | 0 => xf d <| xf a <| .ok (.adr d a b (fn % 4))
  | 1 => xf d <| xf a <| .ok (.adrS d a b (fn % 4))
  | _ => .error .unassigned

/-- The selector of MAJ 0xa (R38 to R46). -/
def decodeXalu (d a b fn : Nat) : Except DecErr Instr :=
  match fn with
  | 0 => xf d <| xf a <| xf b <| .ok (.add64 d a b)
  | 1 => xf d <| xf a <| xf b <| .ok (.sub64 d a b)
  | 2 => xf d <| xf a <| xf b <| .ok (.and64 d a b)
  | 3 => xf d <| xf a <| xf b <| .ok (.or64 d a b)
  | 4 => xf d <| xf a <| xf b <| .ok (.xor64 d a b)
  | 5 => xf d <| xf a <| .ok (.shl64 d a b)
  | 6 => xf d <| xf a <| .ok (.shr64 d a b)
  | 7 => xf d <| xf a <| .ok (.sar64 d a b)
  | 8 => xf d <| zf a <| xf b <| .ok (.mov64 d b)
  | _ => .error .unassigned

/-- The selector of MAJ 0xc (R38 to R46). -/
def decodeCmp (d a b fn : Nat) : Except DecErr Instr :=
  match fn with
  | 0 => pf d <| .ok (.cmpEq d a b)
  | 1 => pf d <| .ok (.cmpNe d a b)
  | 2 => pf d <| .ok (.cmpLt d a b)
  | 3 => pf d <| .ok (.cmpLe d a b)
  | 4 => pf d <| .ok (.cmpGt d a b)
  | 5 => pf d <| .ok (.cmpGe d a b)
  | 6 => pf d <| .ok (.cmpUnord d a b)
  | 7 => pf d <| .ok (.ptest d a b)
  | 8 => pf d <| xf a <| xf b <| .ok (.cmp64Eq d a b)
  | 9 => pf d <| xf a <| xf b <| .ok (.cmp64Ne d a b)
  | 10 => pf d <| xf a <| xf b <| .ok (.cmp64Lt d a b)
  | 11 => pf d <| xf a <| xf b <| .ok (.cmp64Ltn d a b)
  | _ => .error .unassigned

/-- The selector of MAJ 0xd (R38 to R46). -/
def decodeCmpi (d a b fn : Nat) : Except DecErr Instr :=
  match fn / 2 with
  | 0 => pf d <| .ok (.cmpiEq d a (sx (fn % 2 * 128 + b) 8))
  | 1 => pf d <| .ok (.cmpiNe d a (sx (fn % 2 * 128 + b) 8))
  | 2 => pf d <| .ok (.cmpiLt d a (sx (fn % 2 * 128 + b) 8))
  | 3 => pf d <| .ok (.cmpiLe d a (sx (fn % 2 * 128 + b) 8))
  | 4 => pf d <| .ok (.cmpiGt d a (sx (fn % 2 * 128 + b) 8))
  | 5 => pf d <| .ok (.cmpiGe d a (sx (fn % 2 * 128 + b) 8))
  | _ => .error .unassigned

/-- The selector of MAJ 0xe (R38 to R46). -/
def decodeSel (d a b fn : Nat) : Except DecErr Instr :=
  match fn with
  | 0 => .ok (.sel d 0 a b)
  | 1 => .ok (.sel d 1 a b)
  | 2 => .ok (.sel d 2 a b)
  | 3 => .ok (.sel d 3 a b)
  | 4 => .ok (.sel d 4 a b)
  | 5 => .ok (.sel d 5 a b)
  | 6 => .ok (.sel d 6 a b)
  | 7 => .ok (.sel d 7 a b)
  | 8 => pf d <| pf a <| pf b <| .ok (.pand d a b)
  | 9 => pf d <| pf a <| pf b <| .ok (.por d a b)
  | 10 => pf d <| pf a <| pf b <| .ok (.pxor d a b)
  | 11 => pf d <| pf a <| pf b <| .ok (.pandn d a b)
  | 12 => pf d <| pf a <| zf b <| .ok (.pnot d a)
  | 13 => pf a <| zf b <| .ok (.ptov d a)
  | 14 => pf d <| zf b <| .ok (.vtop d a)
  | _ => .error .unassigned

/-- The selector of MAJ 0x10 (R38 to R46). -/
def decodeFalu (d a b fn : Nat) : Except DecErr Instr :=
  match fn with
  | 0 => .ok (.fadd d a b)
  | 1 => .ok (.fsub d a b)
  | 2 => .ok (.fmul d a b)
  | 3 => .ok (.fdiv d a b)
  | 4 => .ok (.fmin d a b)
  | 5 => .ok (.fmax d a b)
  | 6 => zf b <| .ok (.fabs d a)
  | 7 => zf b <| .ok (.fneg d a)
  | 8 => .ok (.fcsgn d a b)
  | 9 => zf b <| .ok (.ffloor d a)
  | 10 => zf b <| .ok (.fceil d a)
  | 11 => zf b <| .ok (.ftrunc d a)
  | 12 => zf b <| .ok (.frint d a)
  | _ => .error .unassigned

/-- The selector of MAJ 0x11 (R38 to R46). -/
def decodeFfma (d a b fn : Nat) : Except DecErr Instr :=
  match fn with
  | 0 => .ok (.ffma d a b)
  | 1 => .ok (.ffms d a b)
  | 2 => .ok (.fnma d a b)
  | 3 => .ok (.fnms d a b)
  | _ => .error .unassigned

/-- The selector of MAJ 0x12 (R38 to R46). -/
def decodeHalu (d a b fn : Nat) : Except DecErr Instr :=
  match fn with
  | 0 => .ok (.hadd d a b)
  | 1 => .ok (.hsub d a b)
  | 2 => .ok (.hmul d a b)
  | 3 => .ok (.hfma d a b)
  | 4 => .ok (.hmin d a b)
  | 5 => .ok (.hmax d a b)
  | 6 => zf b <| .ok (.hneg d a)
  | 7 => zf b <| .ok (.habs d a)
  | _ => .error .unassigned

/-- The selector of MAJ 0x13 (R38 to R46). -/
def decodePalu (d a b fn : Nat) : Except DecErr Instr :=
  match fn with
  | 0 => .ok (.padd d a b)
  | 1 => .ok (.paddSat d a b)
  | 2 => .ok (.psub d a b)
  | 3 => .ok (.psubSat d a b)
  | 4 => .ok (.pmul d a b)
  | 5 => .ok (.pmin d a b)
  | 6 => .ok (.pmax d a b)
  | 7 => zf b <| .ok (.pabs d a)
  | 8 => .ok (.pavg d a b)
  | 9 => .ok (.pshl d a b)
  | 10 => .ok (.psar d a b)
  | 11 => .ok (.pshr d a b)
  | 12 => .ok (.prsar d a b)
  | _ => .error .unassigned

/-- The selector of MAJ 0x14 (R38 to R46). -/
def decodeDmac (d a b fn : Nat) : Except DecErr Instr :=
  match fn with
  | 0 => .ok (.dmac d a b)
  | 1 => .ok (.dmacSat d a b)
  | 2 => .ok (.fdmac d a b)
  | _ => .error .unassigned

/-- The selector of MAJ 0x15 (R38 to R46). -/
def decodeSfu (d a b fn : Nat) : Except DecErr Instr :=
  match fn with
  | 0 => zf b <| .ok (.exp2 d a)
  | 1 => zf b <| .ok (.log2 d a)
  | 2 => zf b <| .ok (.rcp d a)
  | 3 => zf b <| .ok (.rsq d a)
  | 4 => zf b <| .ok (.sqrt d a)
  | 5 => zf b <| .ok (.sin d a)
  | 6 => zf b <| .ok (.cos d a)
  | 7 => zf b <| .ok (.tanh d a)
  | 8 => zf b <| .ok (.exp d a)
  | 9 => zf b <| .ok (.log d a)
  | 10 => zf b <| .ok (.sigm d a)
  | _ => .error .unassigned

/-- The selector of MAJ 0x17 (R38 to R46). -/
def decodeTag (d a b fn : Nat) : Except DecErr Instr :=
  match fn / 4 with
  | 0 => if validTag (fn % 4 * 16384 + b * 128 + a) = true then .ok (.retag d (fn % 4 * 16384 + b * 128 + a)) else .error .unassigned
  | 1 => zf (fn % 4) <| lf b 2 <| .ok (.scadd d (sx (b * 128 + a) 8))
  | _ => .error .unassigned

/-- The selector of MAJ 0x18 (R38 to R46). -/
def decodePack (d a b fn : Nat) : Except DecErr Instr :=
  match fn with
  | 0 => .ok (.pklo d a b)
  | 1 => .ok (.pkhi d a b)
  | 2 => .ok (.pkbl d a b)
  | 3 => zf b <| .ok (.xtlo d a)
  | 4 => zf b <| .ok (.xthi d a)
  | 5 => .ok (.xtb d a b)
  | _ => .error .unassigned

/-- The selector of MAJ 0x19 (R38 to R46). -/
def decodeXlane (d a b fn : Nat) : Except DecErr Instr :=
  match fn with
  | 0 => nf b 126 <| .ok (.lpick d a b)
  | 1 => nf b 126 <| .ok (.slideup d a b)
  | 2 => nf b 126 <| .ok (.slidedn d a b)
  | 3 => .ok (.ballot d a b)
  | 4 => .ok (.voteAny d a b)
  | 5 => .ok (.voteAll d a b)
  | 6 => .ok (.voteEq d a b)
  | 7 => .ok (.lredAdd d a b)
  | 8 => .ok (.lredMin d a b)
  | 9 => .ok (.lredMax d a b)
  | 10 => .ok (.lredAnd d a b)
  | 11 => .ok (.lredOr d a b)
  | 12 => .ok (.lredXor d a b)
  | 13 => .ok (.lscanInc d a b)
  | 14 => .ok (.lscanExc d a b)
  | _ => .error .unassigned

/-- The selector of MAJ 0x1a (R38 to R46). -/
def decodeMovx (d a b fn : Nat) : Except DecErr Instr :=
  match fn with
  | 0 => zf a <| zf b <| .ok (.vmovfrom d)
  | 1 => zf d <| zf b <| .ok (.vmovto a)
  | 2 => zf d <| zf b <| .ok (.setix a)
  | 3 => zf a <| zf b <| .ok (.getix d)
  | 4 => zf d <| zf b <| .ok (.addix a)
  | _ => .error .unassigned

/-- The selector of MAJ 0x1c (R38 to R46). -/
def decodeBr (d a b fn : Nat) : Except DecErr Instr :=
  match d / 16 with
  | 0 => .ok (.br (sx (fn * 16384 + b * 128 + a) 18) (d / 8 % 2) (d % 8))
  | 1 => .ok (.call (sx (fn * 16384 + b * 128 + a) 18) (d / 8 % 2) (d % 8))
  | 2 => if d % 8 = 7 then .ok (.brq (sx (fn * 16384 + b * 128 + a) 18) (d / 8 % 2)) else .error .unassigned
  | _ => .error .unassigned

/-- The selector of MAJ 0x1d (R38 to R46). -/
def decodeBrx (d a b fn : Nat) : Except DecErr Instr :=
  match d with
  | 0 => xf a <| .ok (.jmpi a (fn * 128 + b))
  | 1 => xf a <| .ok (.calli a (fn * 128 + b))
  | 2 => zf fn <| zf a <| zf b <| .ok .ret
  | 3 => if fn * 128 + b = 0 then .error .unassigned else .ok (.brt a (fn * 128 + b))
  | _ => .error .unassigned

/-- The selector of MAJ 0x1e (R38 to R46). -/
def decodeFlow (d a b fn : Nat) : Except DecErr Instr :=
  match d / 8 with
  | 0 => zf fn <| zf a <| zf b <| zf (d % 8) <| .ok .nop
  | 1 => zf fn <| zf a <| zf b <| zf (d % 8) <| .ok .reform
  | 2 => zf fn <| zf b <| zf (d % 8) <| .ok (.reformK a)
  | 3 => zf fn <| zf a <| zf b <| zf (d % 8) <| .ok .yield
  | 4 => zf a <| zf (d % 8) <| .ok (.lpad (fn * 128 + b))
  | 5 => zf fn <| zf a <| zf b <| zf (d % 8) <| .ok .exit
  | 6 => zf fn <| zf b <| zf (d % 8) <| .ok (.lsync a)
  | 7 => zf fn <| zf b <| .ok (.elect (d % 8) a)
  | 8 => zf fn <| zf a <| zf b <| zf (d % 8) <| .ok .beacon
  | _ => .error .unassigned

/-- The selector of MAJ 0x20 (R38 to R46). -/
def decodeLd (d a b fn : Nat) : Except DecErr Instr :=
  match fn with
  | 0 => xf a <| .ok (.ldRaw d a (sx b 7))
  | 1 => xf a <| .ok (.ldI32 d a (sx b 7))
  | 2 => xf a <| .ok (.ldN32 d a (sx b 7))
  | 3 => xf a <| .ok (.ldF32 d a (sx b 7))
  | 4 => xf d <| xf a <| .ok (.ld64 d a (sx b 7))
  | 5 => xf a <| .ok (.ldI8 d a (sx b 7))
  | 6 => xf a <| .ok (.ldN8 d a (sx b 7))
  | 7 => xf a <| .ok (.ldI16 d a (sx b 7))
  | 8 => xf a <| .ok (.ldN16 d a (sx b 7))
  | _ => .error .unassigned

/-- The selector of MAJ 0x21 (R38 to R46). -/
def decodeSt (d a b fn : Nat) : Except DecErr Instr :=
  match fn with
  | 0 => xf a <| .ok (.st8 d a (sx b 7))
  | 1 => xf a <| .ok (.st16 d a (sx b 7))
  | 2 => xf a <| .ok (.st32 d a (sx b 7))
  | 3 => xf d <| xf a <| .ok (.st64 d a (sx b 7))
  | _ => .error .unassigned

/-- The selector of MAJ 0x23 (R38 to R46). -/
def decodeLds (d a b fn : Nat) : Except DecErr Instr :=
  match fn with
  | 0 => .ok (.lds d a (sx b 7))
  | 1 => .ok (.ldsWf d a (sx b 7))
  | 2 => .ok (.ldsWfe d a (sx b 7))
  | 3 => .ok (.ldsSe d a (sx b 7))
  | 4 => xf d <| .ok (.lds64 d a (sx b 7))
  | 5 => .ok (.lds8 d a (sx b 7))
  | 6 => .ok (.lds16 d a (sx b 7))
  | _ => .error .unassigned

/-- The selector of MAJ 0x24 (R38 to R46). -/
def decodeSts (d a b fn : Nat) : Except DecErr Instr :=
  match fn with
  | 0 => .ok (.sts d a (sx b 7))
  | 1 => .ok (.stsWef d a (sx b 7))
  | 2 => .ok (.stsSf d a (sx b 7))
  | 3 => .ok (.stsSe d a (sx b 7))
  | 4 => xf d <| .ok (.sts64 d a (sx b 7))
  | 5 => .ok (.sts8 d a (sx b 7))
  | 6 => .ok (.sts16 d a (sx b 7))
  | _ => .error .unassigned

/-- The selector of MAJ 0x25 (R38 to R46). -/
def decodeLda (d a b fn : Nat) : Except DecErr Instr :=
  match b / 4 % 8 with
  | 0 => xf a <| .ok (.lda32 d a (sx (fn * 4 + b / 32) 6) (scopeOf (b % 4)))
  | 1 => xf d <| xf a <| .ok (.lda64 d a (sx (fn * 4 + b / 32) 6) (scopeOf (b % 4)))
  | 2 => xf a <| if b % 4 = 2 then .ok (.ldaP d a (sx (fn * 4 + b / 32) 6)) else .error .unassigned
  | 3 => xf d <| xf a <| if b % 4 = 2 then .ok (.ldaP64 d a (sx (fn * 4 + b / 32) 6)) else .error .unassigned
  | _ => .error .unassigned

/-- The selector of MAJ 0x26 (R38 to R46). -/
def decodeStl (d a b fn : Nat) : Except DecErr Instr :=
  match b / 4 % 8 with
  | 0 => xf a <| .ok (.stl32 d a (sx (fn * 4 + b / 32) 6) (scopeOf (b % 4)))
  | 1 => xf d <| xf a <| .ok (.stl64 d a (sx (fn * 4 + b / 32) 6) (scopeOf (b % 4)))
  | _ => .error .unassigned

/-- The selector of MAJ 0x27 (R38 to R46). -/
def decodeAtom (maj d a b fn : Nat) : Except DecErr Instr :=
  match fn with
  | 0 => xf a <| .ok (.atomAdd (scopeOf (maj - 0x27)) d a b)
  | 1 => xf a <| nf b 126 <| .ok (.atomAddb (scopeOf (maj - 0x27)) d a b)
  | 2 => xf a <| .ok (.atomMin (scopeOf (maj - 0x27)) d a b)
  | 3 => xf a <| .ok (.atomMax (scopeOf (maj - 0x27)) d a b)
  | 4 => xf a <| .ok (.atomMinn (scopeOf (maj - 0x27)) d a b)
  | 5 => xf a <| .ok (.atomMaxn (scopeOf (maj - 0x27)) d a b)
  | 6 => xf a <| .ok (.atomAnd (scopeOf (maj - 0x27)) d a b)
  | 7 => xf a <| .ok (.atomOr (scopeOf (maj - 0x27)) d a b)
  | 8 => xf a <| .ok (.atomXor (scopeOf (maj - 0x27)) d a b)
  | 9 => xf a <| .ok (.atomSwap (scopeOf (maj - 0x27)) d a b)
  | 10 => xf a <| nf b 126 <| .ok (.atomCas (scopeOf (maj - 0x27)) d a b)
  | 11 => xf a <| .ok (.atomMaxsi (scopeOf (maj - 0x27)) d a b)
  | 12 => xf a <| .ok (.atomFadd (scopeOf (maj - 0x27)) d a b)
  | 13 => xf d <| xf a <| xf b <| .ok (.atomAdd64 (scopeOf (maj - 0x27)) d a b)
  | 14 => xf d <| xf a <| xf b <| .ok (.atomSwap64 (scopeOf (maj - 0x27)) d a b)
  | 15 => xf d <| xf a <| xf b <| nf b 124 <| .ok (.atomCas64 (scopeOf (maj - 0x27)) d a b)
  | _ => .error .unassigned

/-- The selector of MAJ 0x2b (R38 to R46). -/
def decodeFence (d a b fn : Nat) : Except DecErr Instr :=
  match b / 4 % 8 with
  | 0 => zf d <| zf a <| zf (fn * 4 + b / 32) <| .ok (.fenceAcq (scopeOf (b % 4)))
  | 1 => zf d <| zf a <| zf (fn * 4 + b / 32) <| .ok (.fenceRel (scopeOf (b % 4)))
  | 2 => zf d <| zf a <| zf (fn * 4 + b / 32) <| .ok (.fenceAr (scopeOf (b % 4)))
  | 3 => zf d <| zf a <| zf (fn * 4 + b / 32) <| .ok (.fenceSc (scopeOf (b % 4)))
  | _ => .error .unassigned

/-- The selector of MAJ 0x2c (R38 to R46). -/
noncomputable def decodeCache (d a b fn : Nat) : Except DecErr Instr :=
  match fn with
  | 0 => zf d <| xf a <| .ok (.prefL2 a (sx b 7))
  | 1 => zf d <| xf a <| .ok (.prefL1 a (sx b 7))
  | 2 => zf d <| xf a <| .ok (.cwb a (sx b 7))
  | 3 => zf d <| xf a <| .ok (.cinv a (sx b 7))
  | 4 => zf d <| xf a <| .ok (.cwbinv a (sx b 7))
  | 5 => zf d <| xf a <| .ok (.czero a (sx b 7))
  | 6 => zf d <| xf a <| .ok (.cevict a (sx b 7))
  | _ => .error .unassigned

/-- The selector of MAJ 0x2d (R38 to R46). -/
noncomputable def decodeWaita (d a b fn : Nat) : Except DecErr Instr :=
  match b / 4 % 8 with
  | 1 => xf a <| .ok (.waitaEqGlobal d a (fn * 4 + b / 32) (scopeOf (b % 4)))
  | 2 => xf a <| .ok (.waitaChgGlobal d a (fn * 4 + b / 32) (scopeOf (b % 4)))
  | 4 => .ok (.waitaFull d a (fn * 4 + b / 32) (scopeOf (b % 4)))
  | 5 => .ok (.waitaEqScratch d a (fn * 4 + b / 32) (scopeOf (b % 4)))
  | 6 => .ok (.waitaChgScratch d a (fn * 4 + b / 32) (scopeOf (b % 4)))
  | _ => .error .unassigned

/-- The selector of MAJ 0x2e (R38 to R46). -/
noncomputable def decodeCopy (d a b fn : Nat) : Except DecErr Instr :=
  match fn with
  | 0 => zf b <| .ok (.copyG2s d a)
  | 1 => zf b <| .ok (.copyS2g d a)
  | 2 => zf b <| .ok (.copyG2g d a)
  | 3 => zf b <| .ok (.copyG2c d a)
  | 4 => zf b <| .ok (.copyS2c d a)
  | 5 => zf b <| .ok (.copyMeta d a)
  | 6 => zf b <| .ok (.copyScale d a)
  | 7 => zf b <| .ok (.copyRemote d a)
  | 8 => zf b <| .ok (.copyReduce d a)
  | 9 => zf b <| .ok (.copyGather d a)
  | 10 => zf b <| .ok (.copyScatter d a)
  | _ => .error .unassigned

/-- The selector of MAJ 0x2f (R38 to R46). -/
noncomputable def decodeQueue (d a b fn : Nat) : Except DecErr Instr :=
  match fn with
  | 0 => xf a <| lf b 8 <| .ok (.qinit d b a)
  | 1 => lf b 8 <| .ok (.qpush d b a)
  | 2 => lf b 8 <| .ok (.qpop d b a)
  | 3 => lf b 64 <| .ok (.qtrypush (b / 8) d (b % 8) a)
  | 4 => lf b 64 <| .ok (.qtrypop (b / 8) d (b % 8) a)
  | 5 => zf a <| lf b 8 <| .ok (.qlen d b)
  | _ => .error .unassigned

/-- The selector of MAJ 0x30 (R38 to R46). -/
noncomputable def decodeSync (d a b fn : Nat) : Except DecErr Instr :=
  match fn with
  | 0 => .ok (.rvinit d a b)
  | 1 => zf b <| .ok (.arrive d a)
  | 2 => .ok (.arriven d a b)
  | 3 => .ok (.expect d a b)
  | 4 => .ok (.pledge d a b)
  | 5 => zf b <| .ok (.rvleave d a)
  | _ => .error .unassigned

/-- The selector of MAJ 0x31 (R38 to R46). -/
noncomputable def decodeTile (d a b fn : Nat) : Except DecErr Instr :=
  match fn with
  | 0 => tf d <| zf b <| .ok (.mma d a)
  | 1 => tf d <| xf a <| nf b 126 <| .ok (.tld d a b)
  | 2 => tf d <| xf a <| nf b 126 <| .ok (.tst d a b)
  | 3 => tf d <| xf a <| zf b <| .ok (.tzero d a)
  | 4 => tf d <| tf a <| .ok (.tcvt d a b)
  | 5 => tf a <| .ok (.tget d a b)
  | 6 => tf d <| .ok (.tset d a b)
  | 7 => tf d <| tf a <| .ok (.tredr d a b)
  | 8 => tf d <| tf a <| .ok (.tredc d a b)
  | 9 => tf a <| zf b <| .ok (.tstat d a)
  | 10 => zf b <| .ok (.tgen d a)
  | _ => .error .unassigned

/-- The selector of MAJ 0x32 (R38 to R46). -/
noncomputable def decodePlan (d a b fn : Nat) : Except DecErr Instr :=
  match fn with
  | 0 => tf d <| tf a <| nf b 126 <| .ok (.pform d a b)
  | 1 => tf d <| .ok (.pmarg d a b)
  | 2 => tf a <| nf b 126 <| .ok (.balance d a b)
  | 3 => tf d <| tf a <| .ok (.pextract d a b)
  | 4 => tf a <| tf b <| .ok (.pcost d a b)
  | 5 => tf a <| .ok (.pstat d a b)
  | _ => .error .unassigned

/-- The selector of MAJ 0x33 (R38 to R46). -/
noncomputable def decodeMaze (d a b fn : Nat) : Except DecErr Instr :=
  match fn with
  | 0 => zf b <| .ok (.mzdecl d a)
  | 1 => zf d <| nf b 126 <| .ok (.mzpost a b)
  | 2 => .ok (.mztake d a b)
  | 3 => zf d <| .ok (.mzdonePass a b)
  | 4 => zf d <| .ok (.mzdoneDrop a b)
  | 5 => xf d <| nf b 126 <| .ok (.mzeff d a b)
  | 6 => zf b <| .ok (.mzsink d a)
  | 7 => .ok (.mzstat d a b)
  | _ => .error .unassigned

/-- The selector of MAJ 0x34 (R38 to R46). -/
noncomputable def decodeLodge (d a b fn : Nat) : Except DecErr Instr :=
  match fn with
  | 0 => nf d 126 <| xf a <| .ok (.lcreate d a b)
  | 1 => nf d 126 <| xf a <| .ok (.lcreateM d a b)
  | 2 => nf d 126 <| xf a <| zf b <| .ok (.lopen d a)
  | 3 => nf d 126 <| .ok (.lhand d a b)
  | 4 => zf b <| .ok (.ldrop d a)
  | 5 => nf d 126 <| xf a <| zf b <| .ok (.linfo d a)
  | _ => .error .unassigned

/-- The selector of MAJ 0x35 (R38 to R46). -/
noncomputable def decodeTask (d a b fn : Nat) : Except DecErr Instr :=
  match fn with
  | 0 => .ok (.launch d a b)
  | 1 => .ok (.signal d a b)
  | 2 => zf d <| xf a <| nf b 126 <| .ok (.cont a b)
  | 3 => pf d <| zf b <| .ok (.take d a)
  | 4 => zf d <| xf a <| zf b <| .ok (.idemBegin a)
  | 5 => zf d <| zf a <| zf b <| .ok (.idemEnd)
  | _ => .error .unassigned

/-- The selector of MAJ 0x36 (R38 to R46). -/
noncomputable def decodeAeng (d a b fn : Nat) : Except DecErr Instr :=
  match fn with
  | 0 => .ok (.afor d a b)
  | 1 => zf d <| zf a <| zf b <| .ok (.aend)
  | 2 => lf d 4 <| xf a <| lf b 2 <| .ok (.aload d a b)
  | 3 => zf d <| zf b <| .ok (.abr a)
  | 4 => zf d <| zf a <| zf b <| .ok (.ahalt)
  | _ => .error .unassigned

/-- The selector of MAJ 0x37 (R38 to R46). -/
noncomputable def decodeSys (d a b fn : Nat) : Except DecErr Instr :=
  match fn / 8 with
  | 0 => zf d <| zf a <| .ok (.trap (fn % 8 * 128 + b))
  | 1 => zf d <| zf a <| .ok (.bkpt (fn % 8 * 128 + b))
  | _ => .error .unassigned

/-- The selector of MAJ 0x38 (R38 to R46). -/
noncomputable def decodePriv (d a b fn : Nat) : Except DecErr Instr :=
  match fn / 2 with
  | 0 => .ok (.cread d a (fn % 2 * 128 + b))
  | 1 => .ok (.cwrite d a (fn % 2 * 128 + b))
  | 2 => .ok (.traprd d a (fn % 2 * 128 + b))
  | 3 => .ok (.trapwr d a (fn % 2 * 128 + b))
  | 4 => .ok (.haltwg d a (fn % 2 * 128 + b))
  | 5 => .ok (.resume d a (fn % 2 * 128 + b))
  | 6 => .ok (.kill d a (fn % 2 * 128 + b))
  | _ => .error .unassigned

/-- MAJ picks the group (R34); 0x39 to 0x3E are reserved and 0x3F is claimed by no announced extension (R36, R383). -/
noncomputable def decodeFields (maj d a b fn : Nat) : Except DecErr Instr :=
  match maj with
  | 0 => decodeIalu d a b fn
  | 1 => decodeIalu2 d a b fn
  | 2 => .ok (.addi d a (sx (fn * 128 + b) 11))
  | 3 => .ok (.andi d a (sx (fn * 128 + b) 11))
  | 4 => .ok (.ori d a (sx (fn * 128 + b) 11))
  | 5 => .ok (.xori d a (sx (fn * 128 + b) 11))
  | 6 => decodeShi d a b fn
  | 7 => .ok (.muli d a (sx (fn * 128 + b) 11))
  | 8 => .ok (.lui d (fn * 16384 + b * 128 + a))
  | 9 => decodeAdr d a b fn
  | 10 => decodeXalu d a b fn
  | 11 => xf d <| xf a <| .ok (.xaddi d a (sx (fn * 128 + b) 11))
  | 12 => decodeCmp d a b fn
  | 13 => decodeCmpi d a b fn
  | 14 => decodeSel d a b fn
  | 15 => zf fn <| lf b 2 <| (if sregOk (b * 128 + a) = true then (if sregWide (b * 128 + a) = true then xf d <| .ok (.sread d (b * 128 + a)) else .ok (.sread d (b * 128 + a))) else .error .unassigned)
  | 16 => decodeFalu d a b fn
  | 17 => decodeFfma d a b fn
  | 18 => decodeHalu d a b fn
  | 19 => decodePalu d a b fn
  | 20 => decodeDmac d a b fn
  | 21 => decodeSfu d a b fn
  | 22 => lf (fn % 8) 6 <| .ok (.cvt d a b (fn % 8) (fn / 8))
  | 23 => decodeTag d a b fn
  | 24 => decodePack d a b fn
  | 25 => decodeXlane d a b fn
  | 26 => decodeMovx d a b fn
  | 27 => zf fn <| zf a <| zf b <| .ok (.guard (d % 8) (d / 8 % 2) (d / 16 + 1))
  | 28 => decodeBr d a b fn
  | 29 => decodeBrx d a b fn
  | 30 => decodeFlow d a b fn
  | 31 => lf fn 8 <| (if fn / 4 = 0 ∧ fn % 4 * 32 + b / 4 ≠ 0 then .error .nonzeroField else .ok (.wait (d % 16) (a % 2 * 8 + d / 16) (a / 2 % 16) (b % 4 * 4 + a / 32) (fn / 4) (fn % 4 * 32 + b / 4)))
  | 32 => decodeLd d a b fn
  | 33 => decodeSt d a b fn
  | 34 => xf a <| nf (d + ldtCount fn) 128 <| .ok (.ldt d a b fn)
  | 35 => decodeLds d a b fn
  | 36 => decodeSts d a b fn
  | 37 => decodeLda d a b fn
  | 38 => decodeStl d a b fn
  | 39 => decodeAtom maj d a b fn
  | 40 => decodeAtom maj d a b fn
  | 41 => decodeAtom maj d a b fn
  | 42 => decodeAtom maj d a b fn
  | 43 => decodeFence d a b fn
  | 44 => decodeCache d a b fn
  | 45 => decodeWaita d a b fn
  | 46 => decodeCopy d a b fn
  | 47 => decodeQueue d a b fn
  | 48 => decodeSync d a b fn
  | 49 => decodeTile d a b fn
  | 50 => decodePlan d a b fn
  | 51 => decodeMaze d a b fn
  | 52 => decodeLodge d a b fn
  | 53 => decodeTask d a b fn
  | 54 => decodeAeng d a b fn
  | 55 => decodeSys d a b fn
  | 56 => decodePriv d a b fn
  | _ => .error .reservedMaj

/-- The five fields of a 32-bit word packed into it (R29). -/
def packFields (maj d a b fn : Nat) : Nat := 1 + 2 * maj + 128 * d + 16384 * a + 2097152 * b + 268435456 * fn

/-- A 32-bit word's five fields, decoded. -/
noncomputable def decode32 (w : Nat) : Except DecErr Instr :=
  decodeFields (w / 2 % 64) (w / 128 % 128) (w / 16384 % 128) (w / 2097152 % 128) (w / 268435456 % 16)

/-- The first instruction in a list of bytes and its length (R24): bit 0 of the first unit gives the length. -/
noncomputable def decodeBytes : List Byte → Except DecErr (Instr × Nat)
  | b0 :: b1 :: rest =>
    let lo := b0.toNat + 256 * b1.toNat
    if lo % 2 = 0 then (decode16 (lo / 2 % 16) (lo / 32 % 32) (lo / 1024)).map (fun i => (i, 2))
    else match rest with
      | b2 :: b3 :: _ => (decode32 (lo + 65536 * b2.toNat + 16777216 * b3.toNat)).map (fun i => (i, 4))
      | _ => .error .short
  | _ => .error .short

/-- The encoding fields of an instruction: none for a 16-bit form or a step with no encoding. -/
def encFields : Instr → Option (Nat × Nat × Nat × Nat × Nat)
  | .mov16 _ _ => none
  | .add16 _ _ => none
  | .sub16 _ _ => none
  | .mul16 _ _ => none
  | .and16 _ _ => none
  | .or16 _ _ => none
  | .xor16 _ _ => none
  | .shl16 _ _ => none
  | .shr16 _ _ => none
  | .sar16 _ _ => none
  | .min16 _ _ => none
  | .max16 _ _ => none
  | .fadd16 _ _ => none
  | .fsub16 _ _ => none
  | .fmul16 _ _ => none
  | .fmax16 _ _ => none
  | .add d a b => some (0, d, a, b, 0)
  | .sub d a b => some (0, d, a, b, 1)
  | .mul d a b => some (0, d, a, b, 2)
  | .mulhi d a b => some (0, d, a, b, 3)
  | .and d a b => some (0, d, a, b, 4)
  | .or d a b => some (0, d, a, b, 5)
  | .xor d a b => some (0, d, a, b, 6)
  | .shl d a b => some (0, d, a, b, 7)
  | .shr d a b => some (0, d, a, b, 8)
  | .sar d a b => some (0, d, a, b, 9)
  | .min d a b => some (0, d, a, b, 10)
  | .max d a b => some (0, d, a, b, 11)
  | .mov d b => some (0, d, 0, b, 12)
  | .div d a b => some (0, d, a, b, 13)
  | .rem d a b => some (0, d, a, b, 14)
  | .andn d a b => some (0, d, a, b, 15)
  | .not d a => some (1, d, a, 0, 0)
  | .clz d a => some (1, d, a, 0, 1)
  | .popc d a => some (1, d, a, 0, 2)
  | .brev d a => some (1, d, a, 0, 3)
  | .abs d a => some (1, d, a, 0, 4)
  | .neg d a => some (1, d, a, 0, 5)
  | .bfx d a b => some (1, d, a, b, 6)
  | .bfi d a b => some (1, d, a, b, 7)
  | .gettag d a => some (1, d, a, 0, 8)
  | .settag d a b => some (1, d, a, b, 9)
  | .addi d a imm => some (2, d, a, usx imm 11 % 128, usx imm 11 / 128)
  | .andi d a imm => some (3, d, a, usx imm 11 % 128, usx imm 11 / 128)
  | .ori d a imm => some (4, d, a, usx imm 11 % 128, usx imm 11 / 128)
  | .xori d a imm => some (5, d, a, usx imm 11 % 128, usx imm 11 / 128)
  | .muli d a imm => some (7, d, a, usx imm 11 % 128, usx imm 11 / 128)
  | .shli d a n => some (6, d, a, n, 0)
  | .shri d a n => some (6, d, a, n, 4)
  | .sari d a n => some (6, d, a, n, 8)
  | .rsari d a n => some (6, d, a, n, 12)
  | .lui d imm => some (8, d, imm % 128, imm / 128 % 128, imm / 16384)
  | .adr d a b sh => some (9, d, a, b, sh)
  | .adrS d a b sh => some (9, d, a, b, 4 + sh)
  | .add64 d a b => some (10, d, a, b, 0)
  | .sub64 d a b => some (10, d, a, b, 1)
  | .and64 d a b => some (10, d, a, b, 2)
  | .or64 d a b => some (10, d, a, b, 3)
  | .xor64 d a b => some (10, d, a, b, 4)
  | .shl64 d a b => some (10, d, a, b, 5)
  | .shr64 d a b => some (10, d, a, b, 6)
  | .sar64 d a b => some (10, d, a, b, 7)
  | .mov64 d b => some (10, d, 0, b, 8)
  | .xaddi d a imm => some (11, d, a, usx imm 11 % 128, usx imm 11 / 128)
  | .cmpEq d a b => some (12, d, a, b, 0)
  | .cmpNe d a b => some (12, d, a, b, 1)
  | .cmpLt d a b => some (12, d, a, b, 2)
  | .cmpLe d a b => some (12, d, a, b, 3)
  | .cmpGt d a b => some (12, d, a, b, 4)
  | .cmpGe d a b => some (12, d, a, b, 5)
  | .cmpUnord d a b => some (12, d, a, b, 6)
  | .ptest d a b => some (12, d, a, b, 7)
  | .cmp64Eq d a b => some (12, d, a, b, 8)
  | .cmp64Ne d a b => some (12, d, a, b, 9)
  | .cmp64Lt d a b => some (12, d, a, b, 10)
  | .cmp64Ltn d a b => some (12, d, a, b, 11)
  | .cmpiEq d a imm => some (13, d, a, usx imm 8 % 128, 0 + usx imm 8 / 128)
  | .cmpiNe d a imm => some (13, d, a, usx imm 8 % 128, 2 + usx imm 8 / 128)
  | .cmpiLt d a imm => some (13, d, a, usx imm 8 % 128, 4 + usx imm 8 / 128)
  | .cmpiLe d a imm => some (13, d, a, usx imm 8 % 128, 6 + usx imm 8 / 128)
  | .cmpiGt d a imm => some (13, d, a, usx imm 8 % 128, 8 + usx imm 8 / 128)
  | .cmpiGe d a imm => some (13, d, a, usx imm 8 % 128, 10 + usx imm 8 / 128)
  | .sel d n a b => some (14, d, a, b, n)
  | .pand d a b => some (14, d, a, b, 8)
  | .por d a b => some (14, d, a, b, 9)
  | .pxor d a b => some (14, d, a, b, 10)
  | .pandn d a b => some (14, d, a, b, 11)
  | .pnot d a => some (14, d, a, 0, 12)
  | .ptov d a => some (14, d, a, 0, 13)
  | .vtop d a => some (14, d, a, 0, 14)
  | .sread d n => some (15, d, n % 128, n / 128, 0)
  | .fadd d a b => some (16, d, a, b, 0)
  | .fsub d a b => some (16, d, a, b, 1)
  | .fmul d a b => some (16, d, a, b, 2)
  | .fdiv d a b => some (16, d, a, b, 3)
  | .fmin d a b => some (16, d, a, b, 4)
  | .fmax d a b => some (16, d, a, b, 5)
  | .fabs d a => some (16, d, a, 0, 6)
  | .fneg d a => some (16, d, a, 0, 7)
  | .fcsgn d a b => some (16, d, a, b, 8)
  | .ffloor d a => some (16, d, a, 0, 9)
  | .fceil d a => some (16, d, a, 0, 10)
  | .ftrunc d a => some (16, d, a, 0, 11)
  | .frint d a => some (16, d, a, 0, 12)
  | .ffma d a b => some (17, d, a, b, 0)
  | .ffms d a b => some (17, d, a, b, 1)
  | .fnma d a b => some (17, d, a, b, 2)
  | .fnms d a b => some (17, d, a, b, 3)
  | .hadd d a b => some (18, d, a, b, 0)
  | .hsub d a b => some (18, d, a, b, 1)
  | .hmul d a b => some (18, d, a, b, 2)
  | .hfma d a b => some (18, d, a, b, 3)
  | .hmin d a b => some (18, d, a, b, 4)
  | .hmax d a b => some (18, d, a, b, 5)
  | .hneg d a => some (18, d, a, 0, 6)
  | .habs d a => some (18, d, a, 0, 7)
  | .padd d a b => some (19, d, a, b, 0)
  | .paddSat d a b => some (19, d, a, b, 1)
  | .psub d a b => some (19, d, a, b, 2)
  | .psubSat d a b => some (19, d, a, b, 3)
  | .pmul d a b => some (19, d, a, b, 4)
  | .pmin d a b => some (19, d, a, b, 5)
  | .pmax d a b => some (19, d, a, b, 6)
  | .pabs d a => some (19, d, a, 0, 7)
  | .pavg d a b => some (19, d, a, b, 8)
  | .pshl d a b => some (19, d, a, b, 9)
  | .psar d a b => some (19, d, a, b, 10)
  | .pshr d a b => some (19, d, a, b, 11)
  | .prsar d a b => some (19, d, a, b, 12)
  | .dmac d a b => some (20, d, a, b, 0)
  | .dmacSat d a b => some (20, d, a, b, 1)
  | .fdmac d a b => some (20, d, a, b, 2)
  | .exp2 d a => some (21, d, a, 0, 0)
  | .log2 d a => some (21, d, a, 0, 1)
  | .rcp d a => some (21, d, a, 0, 2)
  | .rsq d a => some (21, d, a, 0, 3)
  | .sqrt d a => some (21, d, a, 0, 4)
  | .sin d a => some (21, d, a, 0, 5)
  | .cos d a => some (21, d, a, 0, 6)
  | .tanh d a => some (21, d, a, 0, 7)
  | .exp d a => some (21, d, a, 0, 8)
  | .log d a => some (21, d, a, 0, 9)
  | .sigm d a => some (21, d, a, 0, 10)
  | .cvt d a b m o => some (22, d, a, b, o * 8 + m)
  | .retag d t => some (23, d, t % 128, t / 128 % 128, t / 16384)
  | .scadd d imm => some (23, d, usx imm 8 % 128, usx imm 8 / 128, 4)
  | .pklo d a b => some (24, d, a, b, 0)
  | .pkhi d a b => some (24, d, a, b, 1)
  | .pkbl d a b => some (24, d, a, b, 2)
  | .xtlo d a => some (24, d, a, 0, 3)
  | .xthi d a => some (24, d, a, 0, 4)
  | .xtb d a b => some (24, d, a, b, 5)
  | .lpick d a b => some (25, d, a, b, 0)
  | .slideup d a b => some (25, d, a, b, 1)
  | .slidedn d a b => some (25, d, a, b, 2)
  | .ballot d a b => some (25, d, a, b, 3)
  | .voteAny d a b => some (25, d, a, b, 4)
  | .voteAll d a b => some (25, d, a, b, 5)
  | .voteEq d a b => some (25, d, a, b, 6)
  | .lredAdd d a b => some (25, d, a, b, 7)
  | .lredMin d a b => some (25, d, a, b, 8)
  | .lredMax d a b => some (25, d, a, b, 9)
  | .lredAnd d a b => some (25, d, a, b, 10)
  | .lredOr d a b => some (25, d, a, b, 11)
  | .lredXor d a b => some (25, d, a, b, 12)
  | .lscanInc d a b => some (25, d, a, b, 13)
  | .lscanExc d a b => some (25, d, a, b, 14)
  | .vmovfrom d => some (26, d, 0, 0, 0)
  | .vmovto a => some (26, 0, a, 0, 1)
  | .setix a => some (26, 0, a, 0, 2)
  | .getix d => some (26, d, 0, 0, 3)
  | .addix a => some (26, 0, a, 0, 4)
  | .guard p inv n => some (27, (n - 1) * 16 + inv * 8 + p, 0, 0, 0)
  | .br off inv p => some (28, inv * 8 + p, usx off 18 % 128, usx off 18 / 128 % 128, usx off 18 / 16384)
  | .call off inv p => some (28, 16 + inv * 8 + p, usx off 18 % 128, usx off 18 / 128 % 128, usx off 18 / 16384)
  | .brq off inv => some (28, 32 + inv * 8 + 7, usx off 18 % 128, usx off 18 / 128 % 128, usx off 18 / 16384)
  | .jmpi a imm => some (29, 0, a, imm % 128, imm / 128)
  | .calli a imm => some (29, 1, a, imm % 128, imm / 128)
  | .ret => some (29, 2, 0, 0, 0)
  | .brt a imm => some (29, 3, a, imm % 128, imm / 128)
  | .nop => some (30, 0, 0, 0, 0)
  | .reform => some (30, 8, 0, 0, 0)
  | .reformK a => some (30, 16, a, 0, 0)
  | .yield => some (30, 24, 0, 0, 0)
  | .lpad imm => some (30, 32, 0, imm % 128, imm / 128)
  | .exit => some (30, 40, 0, 0, 0)
  | .lsync a => some (30, 48, a, 0, 0)
  | .elect p a => some (30, 56 + p, a, 0, 0)
  | .beacon => some (30, 64, 0, 0, 0)
  | .wait l st c t av aw => some (31, st % 8 * 16 + l, t % 4 * 32 + c * 2 + st / 8, aw % 32 * 4 + t / 4, av * 4 + aw / 32)
  | .ldRaw d b off => some (32, d, b, usx off 7, 0)
  | .ldI32 d b off => some (32, d, b, usx off 7, 1)
  | .ldN32 d b off => some (32, d, b, usx off 7, 2)
  | .ldF32 d b off => some (32, d, b, usx off 7, 3)
  | .ld64 d b off => some (32, d, b, usx off 7, 4)
  | .ldI8 d b off => some (32, d, b, usx off 7, 5)
  | .ldN8 d b off => some (32, d, b, usx off 7, 6)
  | .ldI16 d b off => some (32, d, b, usx off 7, 7)
  | .ldN16 d b off => some (32, d, b, usx off 7, 8)
  | .st8 d b off => some (33, d, b, usx off 7, 0)
  | .st16 d b off => some (33, d, b, usx off 7, 1)
  | .st32 d b off => some (33, d, b, usx off 7, 2)
  | .st64 d b off => some (33, d, b, usx off 7, 3)
  | .ldt d b a z => some (34, d, b, a, z)
  | .lds d a off => some (35, d, a, usx off 7, 0)
  | .ldsWf d a off => some (35, d, a, usx off 7, 1)
  | .ldsWfe d a off => some (35, d, a, usx off 7, 2)
  | .ldsSe d a off => some (35, d, a, usx off 7, 3)
  | .lds64 d a off => some (35, d, a, usx off 7, 4)
  | .lds8 d a off => some (35, d, a, usx off 7, 5)
  | .lds16 d a off => some (35, d, a, usx off 7, 6)
  | .sts d a off => some (36, d, a, usx off 7, 0)
  | .stsWef d a off => some (36, d, a, usx off 7, 1)
  | .stsSf d a off => some (36, d, a, usx off 7, 2)
  | .stsSe d a off => some (36, d, a, usx off 7, 3)
  | .sts64 d a off => some (36, d, a, usx off 7, 4)
  | .sts8 d a off => some (36, d, a, usx off 7, 5)
  | .sts16 d a off => some (36, d, a, usx off 7, 6)
  | .lda32 d b off sc => some (37, d, b, usx off 6 % 4 * 32 + 0 + sc.code, usx off 6 / 4)
  | .lda64 d b off sc => some (37, d, b, usx off 6 % 4 * 32 + 4 + sc.code, usx off 6 / 4)
  | .ldaP d b off => some (37, d, b, usx off 6 % 4 * 32 + 8 + 2, usx off 6 / 4)
  | .ldaP64 d b off => some (37, d, b, usx off 6 % 4 * 32 + 12 + 2, usx off 6 / 4)
  | .stl32 d b off sc => some (38, d, b, usx off 6 % 4 * 32 + 0 + sc.code, usx off 6 / 4)
  | .stl64 d b off sc => some (38, d, b, usx off 6 % 4 * 32 + 4 + sc.code, usx off 6 / 4)
  | .atomAdd sc d b v => some (0x27 + sc.code, d, b, v, 0)
  | .atomAddb sc d b v => some (0x27 + sc.code, d, b, v, 1)
  | .atomMin sc d b v => some (0x27 + sc.code, d, b, v, 2)
  | .atomMax sc d b v => some (0x27 + sc.code, d, b, v, 3)
  | .atomMinn sc d b v => some (0x27 + sc.code, d, b, v, 4)
  | .atomMaxn sc d b v => some (0x27 + sc.code, d, b, v, 5)
  | .atomAnd sc d b v => some (0x27 + sc.code, d, b, v, 6)
  | .atomOr sc d b v => some (0x27 + sc.code, d, b, v, 7)
  | .atomXor sc d b v => some (0x27 + sc.code, d, b, v, 8)
  | .atomSwap sc d b v => some (0x27 + sc.code, d, b, v, 9)
  | .atomCas sc d b v => some (0x27 + sc.code, d, b, v, 10)
  | .atomMaxsi sc d b v => some (0x27 + sc.code, d, b, v, 11)
  | .atomFadd sc d b v => some (0x27 + sc.code, d, b, v, 12)
  | .atomAdd64 sc d b v => some (0x27 + sc.code, d, b, v, 13)
  | .atomSwap64 sc d b v => some (0x27 + sc.code, d, b, v, 14)
  | .atomCas64 sc d b v => some (0x27 + sc.code, d, b, v, 15)
  | .fenceAcq sc => some (43, 0, 0, 0 + sc.code, 0)
  | .fenceRel sc => some (43, 0, 0, 4 + sc.code, 0)
  | .fenceAr sc => some (43, 0, 0, 8 + sc.code, 0)
  | .fenceSc sc => some (43, 0, 0, 12 + sc.code, 0)
  | .prefL2 b off => some (44, 0, b, usx off 7, 0)
  | .prefL1 b off => some (44, 0, b, usx off 7, 1)
  | .cwb b off => some (44, 0, b, usx off 7, 2)
  | .cinv b off => some (44, 0, b, usx off 7, 3)
  | .cwbinv b off => some (44, 0, b, usx off 7, 4)
  | .czero b off => some (44, 0, b, usx off 7, 5)
  | .cevict b off => some (44, 0, b, usx off 7, 6)
  | .waitaEqGlobal d b off sc => some (45, d, b, off % 4 * 32 + 4 + sc.code, off / 4)
  | .waitaChgGlobal d b off sc => some (45, d, b, off % 4 * 32 + 8 + sc.code, off / 4)
  | .waitaFull d b off sc => some (45, d, b, off % 4 * 32 + 16 + sc.code, off / 4)
  | .waitaEqScratch d b off sc => some (45, d, b, off % 4 * 32 + 20 + sc.code, off / 4)
  | .waitaChgScratch d b off sc => some (45, d, b, off % 4 * 32 + 24 + sc.code, off / 4)
  | .copyG2s d a => some (46, d, a, 0, 0)
  | .copyS2g d a => some (46, d, a, 0, 1)
  | .copyG2g d a => some (46, d, a, 0, 2)
  | .copyG2c d a => some (46, d, a, 0, 3)
  | .copyS2c d a => some (46, d, a, 0, 4)
  | .copyMeta d a => some (46, d, a, 0, 5)
  | .copyScale d a => some (46, d, a, 0, 6)
  | .copyRemote d a => some (46, d, a, 0, 7)
  | .copyReduce d a => some (46, d, a, 0, 8)
  | .copyGather d a => some (46, d, a, 0, 9)
  | .copyScatter d a => some (46, d, a, 0, 10)
  | .qinit d q a => some (47, d, a, q, 0)
  | .qpush d q a => some (47, d, a, q, 1)
  | .qpop d q a => some (47, d, a, q, 2)
  | .qtrypush r d q a => some (47, d, a, r * 8 + q, 3)
  | .qtrypop r d q a => some (47, d, a, r * 8 + q, 4)
  | .qlen d q => some (47, d, 0, q, 5)
  | .rvinit d a b => some (48, d, a, b, 0)
  | .arrive d a => some (48, d, a, 0, 1)
  | .arriven d a b => some (48, d, a, b, 2)
  | .expect d a b => some (48, d, a, b, 3)
  | .pledge d a b => some (48, d, a, b, 4)
  | .rvleave d a => some (48, d, a, 0, 5)
  | .mma d a => some (49, d, a, 0, 0)
  | .tld d a b => some (49, d, a, b, 1)
  | .tst d a b => some (49, d, a, b, 2)
  | .tzero d a => some (49, d, a, 0, 3)
  | .tcvt d a b => some (49, d, a, b, 4)
  | .tget d a b => some (49, d, a, b, 5)
  | .tset d a b => some (49, d, a, b, 6)
  | .tredr d a b => some (49, d, a, b, 7)
  | .tredc d a b => some (49, d, a, b, 8)
  | .tstat d a => some (49, d, a, 0, 9)
  | .tgen d a => some (49, d, a, 0, 10)
  | .pform d a b => some (50, d, a, b, 0)
  | .pmarg d a b => some (50, d, a, b, 1)
  | .balance d a b => some (50, d, a, b, 2)
  | .pextract d a b => some (50, d, a, b, 3)
  | .pcost d a b => some (50, d, a, b, 4)
  | .pstat d a b => some (50, d, a, b, 5)
  | .mzdecl d a => some (51, d, a, 0, 0)
  | .mzpost a b => some (51, 0, a, b, 1)
  | .mztake d a b => some (51, d, a, b, 2)
  | .mzdonePass a b => some (51, 0, a, b, 3)
  | .mzdoneDrop a b => some (51, 0, a, b, 4)
  | .mzeff d a b => some (51, d, a, b, 5)
  | .mzsink d a => some (51, d, a, 0, 6)
  | .mzstat d a b => some (51, d, a, b, 7)
  | .lcreate d a b => some (52, d, a, b, 0)
  | .lcreateM d a b => some (52, d, a, b, 1)
  | .lopen d a => some (52, d, a, 0, 2)
  | .lhand d a b => some (52, d, a, b, 3)
  | .ldrop d a => some (52, d, a, 0, 4)
  | .linfo d a => some (52, d, a, 0, 5)
  | .launch d a b => some (53, d, a, b, 0)
  | .signal d a b => some (53, d, a, b, 1)
  | .cont a b => some (53, 0, a, b, 2)
  | .take d a => some (53, d, a, 0, 3)
  | .idemBegin a => some (53, 0, a, 0, 4)
  | .idemEnd => some (53, 0, 0, 0, 5)
  | .afor d a b => some (54, d, a, b, 0)
  | .aend => some (54, 0, 0, 0, 1)
  | .aload d a b => some (54, d, a, b, 2)
  | .abr a => some (54, 0, a, 0, 3)
  | .ahalt => some (54, 0, 0, 0, 4)
  | .trap c => some (55, 0, 0, c % 128, 0 + c / 128)
  | .bkpt c => some (55, 0, 0, c % 128, 8 + c / 128)
  | .cread d a n => some (56, d, a, n % 128, 0 + n / 128)
  | .cwrite d a n => some (56, d, a, n % 128, 2 + n / 128)
  | .traprd d a n => some (56, d, a, n % 128, 4 + n / 128)
  | .trapwr d a n => some (56, d, a, n % 128, 6 + n / 128)
  | .haltwg d a n => some (56, d, a, n % 128, 8 + n / 128)
  | .resume d a n => some (56, d, a, n % 128, 10 + n / 128)
  | .kill d a n => some (56, d, a, n % 128, 12 + n / 128)
  | .tlbinvWrite _ _ => none
  | .resetWrite _ => none
  | .runRelease _ => none
  | .issueGroupSelect _ => none
  | .yieldReady _ _ => none
  | .trapEntry _ _ => none
  | .loadReturn _ _ _ => none
  | .storePerform _ _ => none
  | .waitTableSpill _ => none
  | .waitTableFill _ => none
  | .pageWalkComplete _ => none
  | .promotionRequest _ _ => none
  | .pmemgrowService _ _ _ _ => none
  | .streamerChannelStart _ => none
  | .streamerByteReport _ _ => none
  | .copyComplete _ => none
  | .accessGroupIssue _ _ _ => none
  | .aloadReturn _ _ => none
  | .tileOpStart _ => none
  | .matrixPassEnd _ _ => none
  | .tileOpComplete _ _ => none
  | .tgenComplete _ _ => none
  | .balanceSweep _ => none
  | .mazeHeldReroute _ _ => none
  | .mazeRecordComplete _ _ => none
  | .lodgeMoveStart _ _ => none
  | .lodgeMoveComplete _ _ => none
  | .lodgeRebuild _ _ => none
  | .lodgeMirrorCopy _ _ => none
  | .patienceExpiry _ _ => none
  | .leaseEnd _ => none
  | .coreLoss _ => none
  | .queueHeadActivate _ _ => none
  | .workgroupPlace _ _ => none
  | .quadrantReclaim _ => none
  | .launchComplete _ => none
  | .preempt _ => none
  | .preemptSave _ => none
  | .restore _ _ => none
  | .ttSlotStart _ => none
  | .ttSlotSkip _ => none
  | .contRecordReady _ _ => none
  | .genQuarantineRelease _ _ => none
  | .watchdogFire _ => none
  | .watchdogGraceExpiry _ => none
  | .strike _ => none
  | .patrolScrub _ _ => none
  | .flitReceive _ _ => none
  | .ackReturn _ => none
  | .laneFailure _ _ => none
  | .linkRetrainDone _ _ => none
  | .flitExpire _ _ => none
  | .peerRequest _ => none
  | .peerLaunch _ => none
  | .remoteResponse _ _ _ => none
  | .remoteTimeout _ => none
  | .reductionResult _ _ _ => none
  | .reductionTimeout _ => none
  | .scaleOutFrameReceive _ _ => none
  | .scaleOutResend _ => none
  | .hostCxlMemAccess _ _ _ _ => none
  | .bar2ApertureAccess _ _ _ _ => none
  | .doorbell _ _ _ => none
  | .partitionDefine _ _ => none
  | .partitionChange _ _ => none
  | .partitionTeardown _ => none
  | .hbmReassign _ _ _ => none
  | .peerAclWrite _ _ => none
  | .reductionGroupDefine _ _ _ _ => none
  | .linkRestore _ => none
  | .powerCapSet _ => none
  | .meterRingName _ _ => none
  | .attestationQuote _ => none
  | .checkpointHeaderSign _ => none
  | .meterBlockClose => none
  | .powerCapAdjust _ => none
  | .thermalThrottle _ => none
  | .thermalTrip => none
  | .s1Entry => none
  | .s1Exit => none
  | .moduleBoot _ _ _ => none
  | .dieReset _ => none
  | .postcopyPagePull _ _ _ _ => none
  | .hostResetRequest _ => none
  | .passHoldRelease _ => none
  | .l1Writeback _ _ => none
  | .memoryChannelRetire _ => none
  | .s3Exit => none
  | .hostCxlCacheSnoop _ _ => none

/-- The unit of a 16-bit form (R26). -/
def encUnit : Instr → Option Nat
  | .mov16 d b => some (0 + 32 * d + 1024 * b)
  | .add16 d b => some (2 + 32 * d + 1024 * b)
  | .sub16 d b => some (4 + 32 * d + 1024 * b)
  | .mul16 d b => some (6 + 32 * d + 1024 * b)
  | .and16 d b => some (8 + 32 * d + 1024 * b)
  | .or16 d b => some (10 + 32 * d + 1024 * b)
  | .xor16 d b => some (12 + 32 * d + 1024 * b)
  | .shl16 d b => some (14 + 32 * d + 1024 * b)
  | .shr16 d b => some (16 + 32 * d + 1024 * b)
  | .sar16 d b => some (18 + 32 * d + 1024 * b)
  | .min16 d b => some (20 + 32 * d + 1024 * b)
  | .max16 d b => some (22 + 32 * d + 1024 * b)
  | .fadd16 d b => some (24 + 32 * d + 1024 * b)
  | .fsub16 d b => some (26 + 32 * d + 1024 * b)
  | .fmul16 d b => some (28 + 32 * d + 1024 * b)
  | .fmax16 d b => some (30 + 32 * d + 1024 * b)
  | _ => none

/-- The encoding of an instruction as a number: its unit, or its 32-bit word (R24). -/
def encWord (i : Instr) : Option Nat :=
  match encUnit i with
  | some u => some u
  | none => match encFields i with
    | some (maj, d, a, b, fn) => some (packFields maj d a b fn)
    | none => none

/-- n bytes of w, the least significant first (R4). -/
def natBytes : Nat → Nat → List Byte
  | 0, _ => []
  | n + 1, w => BitVec.ofNat 8 w :: natBytes n (w / 256)

/-- The bytes of an instruction in memory order (R24). -/
def encode (i : Instr) : Option (List Byte) :=
  match encUnit i with
  | some u => some (natBytes 2 u)
  | none => match encFields i with
    | some (maj, d, a, b, fn) => some (natBytes 4 (packFields maj d a b fn))
    | none => none

/-- What the decoder reads from an instruction whose bits are w, as spec/opcode_table.json numbers them. -/
noncomputable def decodeTableWord (nbits w : Nat) : Option Instr :=
  match decodeBytes (natBytes 4 (w % 2 ^ nbits)) with
  | .ok (i, _) => some i
  | .error _ => none

/-- The length of an instruction in bytes (R24); 0 for a step with no encoding. -/
def Instr.size (i : Instr) : Nat :=
  match encUnit i with
  | some _ => 2
  | none => if i.encoded then 4 else 0

/-! The words below are written out from the opcode table's match values and fields (R26 to R46): every constructor with an
encoding is read from one word of it, with each field at a value of its own. -/

theorem decode_unit16 :
    [0x95a0, 0x95a2, 0x95a4, 0x95a6, 0x95a8, 0x95aa, 0x95ac, 0x95ae,
     0x95b0, 0x95b2, 0x95b4, 0x95b6, 0x95b8, 0x95ba, 0x95bc, 0x95be].map (decodeTableWord 16)
    = [some (.mov16 13 37),
     some (.add16 13 37),
     some (.sub16 13 37),
     some (.mul16 13 37),
     some (.and16 13 37),
     some (.or16 13 37),
     some (.xor16 13 37),
     some (.shl16 13 37),
     some (.shr16 13 37),
     some (.sar16 13 37),
     some (.min16 13 37),
     some (.max16 13 37),
     some (.fadd16 13 37),
     some (.fsub16 13 37),
     some (.fmul16 13 37),
     some (.fmax16 13 37)] := by
  decide

theorem decode_maj_0x0 :
    [0x07088601, 0x17088601, 0x27088601, 0x37088601, 0x47088601, 0x57088601, 0x67088601, 0x77088601,
     0x87088601, 0x97088601, 0xa7088601, 0xb7088601, 0xc7000601, 0xd7088601, 0xe7088601, 0xf7088601].map (decodeTableWord 32)
    = [some (.add 12 34 56),
     some (.sub 12 34 56),
     some (.mul 12 34 56),
     some (.mulhi 12 34 56),
     some (.and 12 34 56),
     some (.or 12 34 56),
     some (.xor 12 34 56),
     some (.shl 12 34 56),
     some (.shr 12 34 56),
     some (.sar 12 34 56),
     some (.min 12 34 56),
     some (.max 12 34 56),
     some (.mov 12 56),
     some (.div 12 34 56),
     some (.rem 12 34 56),
     some (.andn 12 34 56)] := by
  decide

theorem decode_maj_0x1 :
    [0x00088603, 0x10088603, 0x20088603, 0x30088603, 0x40088603, 0x50088603, 0x67088603, 0x77088603,
     0x80088603, 0x97088603].map (decodeTableWord 32)
    = [some (.not 12 34),
     some (.clz 12 34),
     some (.popc 12 34),
     some (.brev 12 34),
     some (.abs 12 34),
     some (.neg 12 34),
     some (.bfx 12 34 56),
     some (.bfi 12 34 56),
     some (.gettag 12 34),
     some (.settag 12 34 56)] := by
  decide

theorem decode_maj_0x2 :
    [0xee488605].map (decodeTableWord 32)
    = [some (.addi 12 34 (-142))] := by
  decide

theorem decode_maj_0x3 :
    [0xee288607].map (decodeTableWord 32)
    = [some (.andi 12 34 (-143))] := by
  decide

theorem decode_maj_0x4 :
    [0xee088609].map (decodeTableWord 32)
    = [some (.ori 12 34 (-144))] := by
  decide

theorem decode_maj_0x5 :
    [0xede8860b].map (decodeTableWord 32)
    = [some (.xori 12 34 (-145))] := by
  decide

theorem decode_maj_0x7 :
    [0xedc8860f].map (decodeTableWord 32)
    = [some (.muli 12 34 (-146))] := by
  decide

theorem decode_maj_0x6 :
    [0x01a8860d, 0x41a8860d, 0x81a8860d, 0xc1a8860d].map (decodeTableWord 32)
    = [some (.shli 12 34 13),
     some (.shri 12 34 13),
     some (.sari 12 34 13),
     some (.rsari 12 34 13)] := by
  decide

theorem decode_maj_0x8 :
    [0x00b60611].map (decodeTableWord 32)
    = [some (.lui 12 728)] := by
  decide

theorem decode_maj_0x9 :
    [0x27088613, 0x67088613].map (decodeTableWord 32)
    = [some (.adr 12 34 56 2),
     some (.adrS 12 34 56 2)] := by
  decide

theorem decode_maj_0xa :
    [0x07088615, 0x17088615, 0x27088615, 0x37088615, 0x47088615, 0x57088615, 0x67088615, 0x77088615,
     0x87000615].map (decodeTableWord 32)
    = [some (.add64 12 34 56),
     some (.sub64 12 34 56),
     some (.and64 12 34 56),
     some (.or64 12 34 56),
     some (.xor64 12 34 56),
     some (.shl64 12 34 56),
     some (.shr64 12 34 56),
     some (.sar64 12 34 56),
     some (.mov64 12 56)] := by
  decide

theorem decode_maj_0xb :
    [0xeba88617].map (decodeTableWord 32)
    = [some (.xaddi 12 34 (-163))] := by
  decide

theorem decode_maj_0xc :
    [0x07088299, 0x17088299, 0x27088299, 0x37088299, 0x47088299, 0x57088299, 0x67088299, 0x77088299,
     0x87088299, 0x97088299, 0xa7088299, 0xb7088299].map (decodeTableWord 32)
    = [some (.cmpEq 5 34 56),
     some (.cmpNe 5 34 56),
     some (.cmpLt 5 34 56),
     some (.cmpLe 5 34 56),
     some (.cmpGt 5 34 56),
     some (.cmpGe 5 34 56),
     some (.cmpUnord 5 34 56),
     some (.ptest 5 34 56),
     some (.cmp64Eq 5 34 56),
     some (.cmp64Ne 5 34 56),
     some (.cmp64Lt 5 34 56),
     some (.cmp64Ltn 5 34 56)] := by
  decide

theorem decode_maj_0xd :
    [0x1668829b, 0x3668829b, 0x5668829b, 0x7668829b, 0x9668829b, 0xb668829b].map (decodeTableWord 32)
    = [some (.cmpiEq 5 34 (-77)),
     some (.cmpiNe 5 34 (-77)),
     some (.cmpiLt 5 34 (-77)),
     some (.cmpiLe 5 34 (-77)),
     some (.cmpiGt 5 34 (-77)),
     some (.cmpiGe 5 34 (-77))] := by
  decide

theorem decode_maj_0xe :
    [0x6708861d, 0x80c0c29d, 0x90c0c29d, 0xa0c0c29d, 0xb0c0c29d, 0xc000c29d, 0xd000c61d, 0xe008829d].map (decodeTableWord 32)
    = [some (.sel 12 6 34 56),
     some (.pand 5 3 6),
     some (.por 5 3 6),
     some (.pxor 5 3 6),
     some (.pandn 5 3 6),
     some (.pnot 5 3),
     some (.ptov 12 3),
     some (.vtop 5 34)] := by
  decide

theorem decode_maj_0xf :
    [0x0004c61f].map (decodeTableWord 32)
    = [some (.sread 12 19)] := by
  decide

theorem decode_maj_0x10 :
    [0x07088621, 0x17088621, 0x27088621, 0x37088621, 0x47088621, 0x57088621, 0x60088621, 0x70088621,
     0x87088621, 0x90088621, 0xa0088621, 0xb0088621, 0xc0088621].map (decodeTableWord 32)
    = [some (.fadd 12 34 56),
     some (.fsub 12 34 56),
     some (.fmul 12 34 56),
     some (.fdiv 12 34 56),
     some (.fmin 12 34 56),
     some (.fmax 12 34 56),
     some (.fabs 12 34),
     some (.fneg 12 34),
     some (.fcsgn 12 34 56),
     some (.ffloor 12 34),
     some (.fceil 12 34),
     some (.ftrunc 12 34),
     some (.frint 12 34)] := by
  decide

theorem decode_maj_0x11 :
    [0x07088623, 0x17088623, 0x27088623, 0x37088623].map (decodeTableWord 32)
    = [some (.ffma 12 34 56),
     some (.ffms 12 34 56),
     some (.fnma 12 34 56),
     some (.fnms 12 34 56)] := by
  decide

theorem decode_maj_0x12 :
    [0x07088625, 0x17088625, 0x27088625, 0x37088625, 0x47088625, 0x57088625, 0x60088625, 0x70088625].map (decodeTableWord 32)
    = [some (.hadd 12 34 56),
     some (.hsub 12 34 56),
     some (.hmul 12 34 56),
     some (.hfma 12 34 56),
     some (.hmin 12 34 56),
     some (.hmax 12 34 56),
     some (.hneg 12 34),
     some (.habs 12 34)] := by
  decide

theorem decode_maj_0x13 :
    [0x07088627, 0x17088627, 0x27088627, 0x37088627, 0x47088627, 0x57088627, 0x67088627, 0x70088627,
     0x87088627, 0x97088627, 0xa7088627, 0xb7088627, 0xc7088627].map (decodeTableWord 32)
    = [some (.padd 12 34 56),
     some (.paddSat 12 34 56),
     some (.psub 12 34 56),
     some (.psubSat 12 34 56),
     some (.pmul 12 34 56),
     some (.pmin 12 34 56),
     some (.pmax 12 34 56),
     some (.pabs 12 34),
     some (.pavg 12 34 56),
     some (.pshl 12 34 56),
     some (.psar 12 34 56),
     some (.pshr 12 34 56),
     some (.prsar 12 34 56)] := by
  decide

theorem decode_maj_0x14 :
    [0x07088629, 0x17088629, 0x27088629].map (decodeTableWord 32)
    = [some (.dmac 12 34 56),
     some (.dmacSat 12 34 56),
     some (.fdmac 12 34 56)] := by
  decide

theorem decode_maj_0x15 :
    [0x0008862b, 0x1008862b, 0x2008862b, 0x3008862b, 0x4008862b, 0x5008862b, 0x6008862b, 0x7008862b,
     0x8008862b, 0x9008862b, 0xa008862b].map (decodeTableWord 32)
    = [some (.exp2 12 34),
     some (.log2 12 34),
     some (.rcp 12 34),
     some (.rsq 12 34),
     some (.sqrt 12 34),
     some (.sin 12 34),
     some (.cos 12 34),
     some (.tanh 12 34),
     some (.exp 12 34),
     some (.log 12 34),
     some (.sigm 12 34)] := by
  decide

theorem decode_maj_0x16 :
    [0xd708862d].map (decodeTableWord 32)
    = [some (.cvt 12 34 56 5 1)] := by
  decide

theorem decode_maj_0x17 :
    [0x0180862f].map (decodeTableWord 32)
    = [some (.retag 12 1538)] := by
  decide

theorem decode_maj_0x18 :
    [0x07088631, 0x17088631, 0x27088631, 0x30088631, 0x40088631, 0x57088631].map (decodeTableWord 32)
    = [some (.pklo 12 34 56),
     some (.pkhi 12 34 56),
     some (.pkbl 12 34 56),
     some (.xtlo 12 34),
     some (.xthi 12 34),
     some (.xtb 12 34 56)] := by
  decide

theorem decode_maj_0x19 :
    [0x07088633, 0x17088633, 0x27088633, 0x37088633, 0x47088633, 0x57088633, 0x67088633, 0x77088633,
     0x87088633, 0x97088633, 0xa7088633, 0xb7088633, 0xc7088633, 0xd7088633, 0xe7088633].map (decodeTableWord 32)
    = [some (.lpick 12 34 56),
     some (.slideup 12 34 56),
     some (.slidedn 12 34 56),
     some (.ballot 12 34 56),
     some (.voteAny 12 34 56),
     some (.voteAll 12 34 56),
     some (.voteEq 12 34 56),
     some (.lredAdd 12 34 56),
     some (.lredMin 12 34 56),
     some (.lredMax 12 34 56),
     some (.lredAnd 12 34 56),
     some (.lredOr 12 34 56),
     some (.lredXor 12 34 56),
     some (.lscanInc 12 34 56),
     some (.lscanExc 12 34 56)] := by
  decide

theorem decode_maj_0x1a :
    [0x00000635, 0x10088035, 0x20088035, 0x30000635, 0x40088035].map (decodeTableWord 32)
    = [some (.vmovfrom 12),
     some (.vmovto 34),
     some (.setix 34),
     some (.getix 12),
     some (.addix 34)] := by
  decide

theorem decode_maj_0x1c :
    [0xffbbc6b9, 0xffbb8eb9, 0xffbb57b9].map (decodeTableWord 32)
    = [some (.br (-273) 1 5),
     some (.call (-274) 1 5),
     some (.brq (-275) 1)] := by
  decide

theorem decode_maj_0x1d :
    [0x6aa8803b, 0x6ac880bb, 0x0000013b, 0x6b0881bb].map (decodeTableWord 32)
    = [some (.jmpi 34 853),
     some (.calli 34 854),
     some (.ret),
     some (.brt 34 856)] := by
  decide

theorem decode_maj_0x1e :
    [0x0000003d, 0x0000043d, 0x0008883d, 0x00000c3d, 0x6ba0103d, 0x0000143d, 0x0008983d, 0x00089ebd,
     0x0000203d].map (decodeTableWord 32)
    = [some (.nop),
     some (.reform),
     some (.reformK 34),
     some (.yield),
     some (.lpad 861),
     some (.exit),
     some (.lsync 34),
     some (.elect 5 34),
     some (.beacon)] := by
  decide

theorem decode_maj_0x1f :
    [0x66f4a9bf].map (decodeTableWord 32)
    = [some (.wait 3 5 9 14 1 77)] := by
  decide

theorem decode_maj_0x20 :
    [0x0e8e0641, 0x1e8e0641, 0x2e8e0641, 0x3e8e0641, 0x4e8e0641, 0x5e8e0641, 0x6e8e0641, 0x7e8e0641,
     0x8e8e0641].map (decodeTableWord 32)
    = [some (.ldRaw 12 56 (-12)),
     some (.ldI32 12 56 (-12)),
     some (.ldN32 12 56 (-12)),
     some (.ldF32 12 56 (-12)),
     some (.ld64 12 56 (-12)),
     some (.ldI8 12 56 (-12)),
     some (.ldN8 12 56 (-12)),
     some (.ldI16 12 56 (-12)),
     some (.ldN16 12 56 (-12))] := by
  decide

theorem decode_maj_0x21 :
    [0x0e8e0643, 0x1e8e0643, 0x2e8e0643, 0x3e8e0643].map (decodeTableWord 32)
    = [some (.st8 12 56 (-12)),
     some (.st16 12 56 (-12)),
     some (.st32 12 56 (-12)),
     some (.st64 12 56 (-12))] := by
  decide

theorem decode_maj_0x22 :
    [0x544e0645].map (decodeTableWord 32)
    = [some (.ldt 12 56 34 5)] := by
  decide

theorem decode_maj_0x23 :
    [0x0e888647, 0x1e888647, 0x2e888647, 0x3e888647, 0x4e888647, 0x5e888647, 0x6e888647].map (decodeTableWord 32)
    = [some (.lds 12 34 (-12)),
     some (.ldsWf 12 34 (-12)),
     some (.ldsWfe 12 34 (-12)),
     some (.ldsSe 12 34 (-12)),
     some (.lds64 12 34 (-12)),
     some (.lds8 12 34 (-12)),
     some (.lds16 12 34 (-12))] := by
  decide

theorem decode_maj_0x24 :
    [0x0e888649, 0x1e888649, 0x2e888649, 0x3e888649, 0x4e888649, 0x5e888649, 0x6e888649].map (decodeTableWord 32)
    = [some (.sts 12 34 (-12)),
     some (.stsWef 12 34 (-12)),
     some (.stsSf 12 34 (-12)),
     some (.stsSe 12 34 (-12)),
     some (.sts64 12 34 (-12)),
     some (.sts8 12 34 (-12)),
     some (.sts16 12 34 (-12))] := by
  decide

theorem decode_maj_0x25 :
    [0xec4e064b, 0xecce064b, 0xed4e064b, 0xedce064b].map (decodeTableWord 32)
    = [some (.lda32 12 56 (-5) .dv),
     some (.lda64 12 56 (-5) .dv),
     some (.ldaP 12 56 (-5)),
     some (.ldaP64 12 56 (-5))] := by
  decide

theorem decode_maj_0x26 :
    [0xec4e064d, 0xecce064d].map (decodeTableWord 32)
    = [some (.stl32 12 56 (-5) .dv),
     some (.stl64 12 56 (-5) .dv)] := by
  decide

theorem decode_maj_0x27 :
    [0x09ce0653, 0x19ce0653, 0x29ce0653, 0x39ce0653, 0x49ce0653, 0x59ce0653, 0x69ce0653, 0x79ce0653,
     0x89ce0653, 0x99ce0653, 0xa9ce0653, 0xb9ce0653, 0xc9ce0653, 0xd9ce0653, 0xe9ce0653, 0xf9ce0653].map (decodeTableWord 32)
    = [some (.atomAdd .dv 12 56 78),
     some (.atomAddb .dv 12 56 78),
     some (.atomMin .dv 12 56 78),
     some (.atomMax .dv 12 56 78),
     some (.atomMinn .dv 12 56 78),
     some (.atomMaxn .dv 12 56 78),
     some (.atomAnd .dv 12 56 78),
     some (.atomOr .dv 12 56 78),
     some (.atomXor .dv 12 56 78),
     some (.atomSwap .dv 12 56 78),
     some (.atomCas .dv 12 56 78),
     some (.atomMaxsi .dv 12 56 78),
     some (.atomFadd .dv 12 56 78),
     some (.atomAdd64 .dv 12 56 78),
     some (.atomSwap64 .dv 12 56 78),
     some (.atomCas64 .dv 12 56 78)] := by
  decide

theorem decode_maj_0x2b :
    [0x00400057, 0x00c00057, 0x01400057, 0x01c00057].map (decodeTableWord 32)
    = [some (.fenceAcq .dv),
     some (.fenceRel .dv),
     some (.fenceAr .dv),
     some (.fenceSc .dv)] := by
  decide

theorem decode_maj_0x2c :
    [0x0e8e0059, 0x1e8e0059, 0x2e8e0059, 0x3e8e0059, 0x4e8e0059, 0x5e8e0059, 0x6e8e0059].map (decodeTableWord 32)
    = [some (.prefL2 56 (-12)),
     some (.prefL1 56 (-12)),
     some (.cwb 56 (-12)),
     some (.cinv 56 (-12)),
     some (.cwbinv 56 (-12)),
     some (.czero 56 (-12)),
     some (.cevict 56 (-12))] := by
  decide

theorem decode_maj_0x2d :
    [0x54ce065b, 0x554e065b, 0x564e065b, 0x56ce065b, 0x574e065b].map (decodeTableWord 32)
    = [some (.waitaEqGlobal 12 56 21 .dv),
     some (.waitaChgGlobal 12 56 21 .dv),
     some (.waitaFull 12 56 21 .dv),
     some (.waitaEqScratch 12 56 21 .dv),
     some (.waitaChgScratch 12 56 21 .dv)] := by
  decide

theorem decode_maj_0x2e :
    [0x0008865d, 0x1008865d, 0x2008865d, 0x3008865d, 0x4008865d, 0x5008865d, 0x6008865d, 0x7008865d,
     0x8008865d, 0x9008865d, 0xa008865d].map (decodeTableWord 32)
    = [some (.copyG2s 12 34),
     some (.copyS2g 12 34),
     some (.copyG2g 12 34),
     some (.copyG2c 12 34),
     some (.copyS2c 12 34),
     some (.copyMeta 12 34),
     some (.copyScale 12 34),
     some (.copyRemote 12 34),
     some (.copyReduce 12 34),
     some (.copyGather 12 34),
     some (.copyScatter 12 34)] := by
  decide

theorem decode_maj_0x2f :
    [0x00a8865f, 0x10a8865f, 0x20a8865f, 0x33a8865f, 0x43a8865f, 0x50a0065f].map (decodeTableWord 32)
    = [some (.qinit 12 5 34),
     some (.qpush 12 5 34),
     some (.qpop 12 5 34),
     some (.qtrypush 3 12 5 34),
     some (.qtrypop 3 12 5 34),
     some (.qlen 12 5)] := by
  decide

theorem decode_maj_0x30 :
    [0x07088661, 0x10088661, 0x27088661, 0x37088661, 0x47088661, 0x50088661].map (decodeTableWord 32)
    = [some (.rvinit 12 34 56),
     some (.arrive 12 34),
     some (.arriven 12 34 56),
     some (.expect 12 34 56),
     some (.pledge 12 34 56),
     some (.rvleave 12 34)] := by
  decide

theorem decode_maj_0x31 :
    [0x000884e3, 0x170884e3, 0x270884e3, 0x300884e3, 0x470184e3, 0x57018663, 0x670884e3, 0x770184e3,
     0x870184e3, 0x90018663, 0xa0088663].map (decodeTableWord 32)
    = [some (.mma 9 34),
     some (.tld 9 34 56),
     some (.tst 9 34 56),
     some (.tzero 9 34),
     some (.tcvt 9 6 56),
     some (.tget 12 6 56),
     some (.tset 9 34 56),
     some (.tredr 9 6 56),
     some (.tredc 9 6 56),
     some (.tstat 12 6),
     some (.tgen 12 34)] := by
  decide

theorem decode_maj_0x32 :
    [0x070184e5, 0x170884e5, 0x27018665, 0x370184e5, 0x41618665, 0x57018665].map (decodeTableWord 32)
    = [some (.pform 9 6 56),
     some (.pmarg 9 34 56),
     some (.balance 12 6 56),
     some (.pextract 9 6 56),
     some (.pcost 12 6 11),
     some (.pstat 12 6 56)] := by
  decide

theorem decode_maj_0x33 :
    [0x00088667, 0x17088067, 0x27088667, 0x37088067, 0x47088067, 0x57088667, 0x60088667, 0x77088667].map (decodeTableWord 32)
    = [some (.mzdecl 12 34),
     some (.mzpost 34 56),
     some (.mztake 12 34 56),
     some (.mzdonePass 34 56),
     some (.mzdoneDrop 34 56),
     some (.mzeff 12 34 56),
     some (.mzsink 12 34),
     some (.mzstat 12 34 56)] := by
  decide

theorem decode_maj_0x34 :
    [0x07088669, 0x17088669, 0x20088669, 0x37088669, 0x40088669, 0x50088669].map (decodeTableWord 32)
    = [some (.lcreate 12 34 56),
     some (.lcreateM 12 34 56),
     some (.lopen 12 34),
     some (.lhand 12 34 56),
     some (.ldrop 12 34),
     some (.linfo 12 34)] := by
  decide

theorem decode_maj_0x35 :
    [0x0708866b, 0x1708866b, 0x2708806b, 0x300882eb, 0x4008806b, 0x5000006b].map (decodeTableWord 32)
    = [some (.launch 12 34 56),
     some (.signal 12 34 56),
     some (.cont 34 56),
     some (.take 5 34),
     some (.idemBegin 34),
     some (.idemEnd)] := by
  decide

theorem decode_maj_0x36 :
    [0x0708866d, 0x1000006d, 0x2028816d, 0x3008806d, 0x4000006d].map (decodeTableWord 32)
    = [some (.afor 12 34 56),
     some (.aend),
     some (.aload 2 34 1),
     some (.abr 34),
     some (.ahalt)] := by
  decide

theorem decode_maj_0x37 :
    [0x7cc0006f, 0xfce0006f].map (decodeTableWord 32)
    = [some (.trap 998),
     some (.bkpt 999)] := by
  decide

theorem decode_maj_0x38 :
    [0x1d088671, 0x3d288671, 0x5d488671, 0x7d688671, 0x9d888671, 0xbda88671, 0xddc88671].map (decodeTableWord 32)
    = [some (.cread 12 34 232),
     some (.cwrite 12 34 233),
     some (.traprd 12 34 234),
     some (.trapwr 12 34 235),
     some (.haltwg 12 34 236),
     some (.resume 12 34 237),
     some (.kill 12 34 238)] := by
  decide

end Sys2Proof
end

