-- ==== Sys2Proof/Config.lean ====
section
/-! DEFINITION. What the manual leaves to the part. The values are opaque: nothing in the model knows them. -/

namespace Sys2Proof.Config

/-- The bits of an undefined register value (00_scope.md R6), for the n-th such value. -/
opaque freeBits : Nat → Word
/-- The tag of an undefined register value (R6), for the n-th such value; a value that is no valid tag
stands for raw. -/
opaque freeTag : Nat → Half
/-- Which of its two neighbours tanh returns for a magnitude code: true for the larger (R101). -/
opaque tanhUp : Nat → Bool
/-- The home slice of a line, of the 32 of its die, by the line's key (R15). -/
opaque homeSlice : Nat → Nat
/-- The HBM stack of a line, of the module's 8, by the line's key (R9, R15). -/
opaque stackOf : Nat → Nat
/-- Whether a core fetches from a copy it keeps or again from the home slice (R393), for the n-th fetch at
which the two differ. -/
opaque staleFetch : Nat → Bool
/-- The n-th free bit of a choice that the manual leaves open. -/
opaque freeChoice : Nat → Nat
/-- The device's signature of a message (R375, R385): 96 bytes. -/
opaque sign : List Byte → List Byte
/-- The domain and the module ID that the module learns at boot (22_fabric_host.md R337). -/
opaque domain : Nat
opaque moduleId : Nat
/-- The serial number and the certificate chain that the module's capabilities return (25_system.md R375, R383). -/
opaque serial : List Byte
opaque certificates : List Byte

end Sys2Proof.Config
end

