-- ==== Sys2Proof/Machine/Types.lean ====
section
/-! DEFINITION. The data of threads, runs, quadrants and memory requests (07_execution.md R110 to R118,
08_memory.md R141 to R158, 21_faults.md R304, R305, R328). -/

namespace Sys2Proof.Machine

/-- The name of a thread: its workgroup's number in this model, its `%tid`, and whether it is the access
thread (11_streamers.md R193). -/
structure TRef where
  wg : Nat
  tid : Nat
  acc : Bool := false
  deriving DecidableEq, Repr

/-- The key of a thread in the state's map. -/
def TRef.key (r : TRef) : Nat := (r.wg * 512 + r.tid) * 2 + (if r.acc then 1 else 0)

/-- A lane register: its bits, tag and poison mark with the error it stands for (R11, R59, R141). told says that a
trailer has reported the mark. -/
structure Reg where
  val : RegVal
  poison : Option FaultInfo := none
  told : Bool := false
  deriving DecidableEq, Repr

/-- The registers of a thread. A register that nothing has written holds the undefined value of R6 with the
number base plus its own; the run temporaries v120 to v127 have their own numbers (R119). -/
structure RegFile where
  cells : List (Nat × Reg)
  base : Nat
  kbase : Nat
  deriving DecidableEq, Repr

/-- A trap frame (R305). A frame with no fault has CAUSE 0. fseq is the run at whose start it was written. -/
structure Frame where
  fault : Option FaultInfo
  pc : DWord
  foff : Nat
  regs : RegFile
  preds : BitVec 7
  ix : Half
  fflags : FFlags
  rm : Rm
  xcount : Nat
  sup : Bool
  rstack : List DWord
  lpad : Option Nat
  fseq : Nat
  deriving DecidableEq, Repr

/-- The register state of a thread: what a discarded run gives back (R110, R118). preds holds p0 to p6; p7
reads 1. alone is the number of cross-lane instructions that this run executes for the thread alone (R130).
lpad is the label of a pending landing-pad check (R124). skips are the cross-lane instructions that a false guard
passed over: at one meeting there for each, the thread counts as exited (R123). -/
structure Arch where
  pc : DWord
  regs : RegFile
  preds : BitVec 7
  ix : Half
  fflags : FFlags
  rm : Rm
  rstack : List DWord
  xcount : Nat
  alone : Nat
  sup : Bool
  depth : Nat
  frame : Option Frame
  lpad : Option Nat
  skips : List DWord
  deriving DecidableEq, Repr

/-- Where an access goes once it is translated (R136, R319). -/
inductive Loc where
  /-- a byte of this module's HBM, of host memory or of a scratchpad, by its key in memory -/
  | key (k : Nat)
  /-- a byte of another module's HBM -/
  | remote (mod pa : Nat)
  deriving DecidableEq, Repr

/-- What a store does to the full/empty bit of its word (R162). -/
inductive FullOp where
  | keep | setFull | setEmpty | waitEmpty
  deriving DecidableEq, Repr

/-- The four fences (R165). -/
inductive FenceKind where
  | acq | rel | ar | sc
  deriving DecidableEq, Repr

/-- The cache forms that act when a run's stores are performed (R166). -/
inductive CacheOp where
  | cwb | cinv | cwbinv
  deriving DecidableEq, Repr

/-- A memory effect that a run buffers until it commits (R118). -/
inductive BufOp where
  /-- bytes to a location; rel is the scope of a release write -/
  | store (loc : Loc) (bytes : List Byte) (full : FullOp) (rel : Option Scope)
  | fence (kind : FenceKind) (sc : Scope)
  | cache (op : CacheOp) (line : Loc)
  deriving DecidableEq, Repr

/-- A buffered effect with the reads that must return before it and the address that its instruction gave (R141). -/
structure BufItem where
  op : BufOp
  after : List Nat
  addr : DWord
  deriving DecidableEq, Repr

/-- The atomic operations (R164). -/
inductive AtomOp where
  | add | addb | min | max | minn | maxn | and | or | xor | swap | cas | maxsi | fadd | add64 | swap64 | cas64
  deriving DecidableEq, Repr

/-- A reason why a thread is parked (R158). -/
inductive Wait where
  /-- a translation walk (R321), or a unit that is fetched from another module; the access is made again afterwards -/
  | walk (id : Nat)
  /-- a full/empty bit or a word, by the number of its waiter (R156) -/
  | word (id : Nat)
  /-- a page of the spill area that is not mapped (R157); the call is made again afterwards -/
  | spill
  /-- growth of the private region by the host driver (R140) -/
  | pmemgrow (addr : DWord)
  /-- a record of a task area (R299) -/
  | take
  /-- the answer of a committed MZTAKE, MZSINK or LOPEN, past the run's terminator (16_maze.md R253, 18_lodges.md R262) -/
  | reply
  /-- a bit of the thread's branch queue (R121, 11_streamers.md R194); the brq is made again afterwards -/
  | brq
  /-- the entry of an operand queue that the run's QPOP takes (11_streamers.md R194); its terminator is made again afterwards -/
  | oq
  deriving DecidableEq, Repr

/-- The cross-lane operations (R132, R133). -/
inductive XOp where
  | lpick | slideup | slidedn | ballot | voteAny | voteAll | voteEq | lredAdd | lredMin | lredMax | lredAnd | lredOr
  | lredXor | lscanInc | lscanExc | lsync | elect
  deriving DecidableEq, Repr

/-- A cross-lane instruction with its fields: d is the destination, a register or for elect a predicate. -/
structure XUse where
  op : XOp
  d : Nat
  a : Nat
  b : Nat
  deriving DecidableEq, Repr

/-- What a thread is doing (R112, R127 to R130, R305). -/
inductive TStatus where
  /-- ready since a cycle, filed under its PC and a key value (R113) -/
  | ready (at' : Nat) (key : Nat)
  /-- in the active group -/
  | running
  /-- past its run's terminator, until the trailer's counts hold (R135) -/
  | trailer (l s c t : Nat) (aw : Option Nat)
  | parked (w : Wait)
  /-- woken or released, its resumption group not yet issuing (R158) -/
  | woken
  /-- arrived at a cross-lane meeting with this mask (R130) -/
  | held (mask : Word) (x : XUse)
  | yielded
  /-- past its terminator, until its committing instruction acts at its release (R328) -/
  | awaiting (id : Nat)
  | halted
  | exited
  deriving DecidableEq, Repr

/-- A guarded range: instructions left, the sampled condition and the guard's place in its run (R123). -/
structure GuardState where
  left : Nat
  cond : Bool
  at' : Nat
  deriving DecidableEq, Repr

/-- A loop of an access thread (R193, R195). -/
structure Loop where
  start : DWord
  trips : Nat
  stride : Word
  reg : Nat
  deriving DecidableEq, Repr

/-- What an access thread has besides registers (R193 to R195). skip is the depth of loops being passed over. out holds
what the present run has sent to the operand queues (0 to 3) and the branch queue (4), oldest first: the queue, the value
once it is there, and the load that brings it. -/
structure AccState where
  loops : List Loop
  skip : Nat
  halted : Bool
  fault : Option FaultInfo
  out : List (Nat × Option Word × Nat)
  deriving DecidableEq, Repr

/-- A load on its way (R117, R160 to R163). dests are the registers written, each with its tag, the offset of its bytes,
their number and whether they are sign-extended. fwd holds bytes of the thread's own earlier stores. value holds the
bytes already read, for a read that a bank has evaluated. order says that it follows an SC fence of its own run and may
not be read before that (R145), early that it is made before its run commits all the same (log entry 61). after names the
waiting pops of its thread that it follows (R192). -/
structure Dest where
  reg : Nat
  tag : Half
  off : Nat
  len : Nat
  sgn : Bool := false
  deriving DecidableEq, Repr

/-- The kinds of reads (R143). -/
inductive ReadKind where
  | plain
  | acquire (sc : Scope)
  | promote
  deriving DecidableEq, Repr

structure PLoad where
  id : Nat
  who : TRef
  seq : Nat
  core : Nat
  loc : Loc
  len : Nat
  kind : ReadKind
  dests : List Dest
  fwd : List (Nat × Byte)
  value : Option (List Byte)
  addr : DWord
  remote : Option Nat
  order : Bool := false
  early : Bool := false
  after : List Nat := []
  deriving DecidableEq, Repr

/-- A committed memory effect that is not yet performed (R117, R144, R328). rel is the cycle before which it
may not leave its core, due the microsecond by which its bytes have left it (R152); loads are the reads that must return
first, addr the address that a failure reports (R141). seq is the number of its run in its thread. fenced says that a WG-scope
release fence of its thread comes before it (R150). -/
structure PStore where
  id : Nat
  who : TRef
  run : Nat
  core : Nat
  op : BufOp
  rel : Nat
  loads : List Nat
  counted : Bool
  monitor : Bool
  age : Nat
  spilled : Bool
  remote : Option Nat
  addr : DWord := 0
  seq : Nat := 0
  due : Nat := 0
  fenced : Bool := false
  deriving DecidableEq, Repr

/-- The four classes of outstanding operations (R117). -/
inductive Cls where
  | loads | stores | copies | tiles | none
  deriving DecidableEq, Repr

/-- The committing instructions (R34), as commands that act at commit or at release (R328). -/
inductive CmdOp where
  | atom (o : AtomOp) (sc : Scope)
  | copy (kind : Nat)
  | qinit | qpush | qpop | qtrypush | qtrypop | qlen
  | rvinit | arrive | arriven | expect | pledge | rvleave
  | mma | tld | tst | tzero | tcvt | tget | tset | tredr | tredc | tstat | tgen
  | pform | pmarg | balance | pextract | pcost | pstat
  | mzdecl | mzpost | mztake | mzdonePass | mzdoneDrop | mzeff | mzsink | mzstat
  | lcreate | lcreateM | lopen | lhand | ldrop | linfo
  | launch | signal | cont | take | idemBegin | idemEnd
  | trap (code : Nat) | bkpt (n : Nat)
  | cread (n : Nat) | cwrite (n : Nat) | traprd (item : Nat) | trapwr (item : Nat) | haltwg | resume | kill
  deriving DecidableEq, Repr

/-- A committing instruction with its operands as the run read them. d is the destination field, p a predicate
or queue field, words the operand words in the order their instruction names them, loc and addr a translated
address, block a captured block, cls the class D counts in, after the acquires that came before it (R163), fenced that a
WG-scope release fence of its thread did (R150). -/
structure Cmd where
  op : CmdOp
  d : Nat := 0
  p : Nat := 0
  words : List Word := []
  loc : Option Loc := none
  addr : DWord := 0
  block : List Byte := []
  dests : List Nat := []
  cls : Cls := .none
  pc : DWord := 0
  after : List Nat := []
  fenced : Bool := false
  deriving DecidableEq, Repr

/-- A run that has not committed: what a discard gives back, the instructions issued, the buffered effects and
the committing instruction (R118, R119, R123, R155). mates
are the runs it has met (R329). -/
structure Run where
  snap : Arch
  count : Nat
  buf : List BufItem
  commit : Option Cmd
  cmark : Option Nat
  guard : Option GuardState
  claims : List Nat
  beacon : Bool
  mates : List (TRef × Nat)
  deriving DecidableEq, Repr

/-- A thread (R110). busy names the registers with an outstanding write, once for each (R115). seq counts its
runs. acq names the loads that later accesses await (R163, R165). stop is a halt or an end asked for at the
next run boundary, with the CAUSE of its frame. deferred is a fault to be taken at the start of the next run, defSeq the run
that left it. acqDrop says that the core's clean copies go when acq empties. post is
the status that the run's terminator gives a thread whose status is awaiting. wgRel is the last WG-scope release fence that it
has committed, for as long as no wider one after it is performed (R150). -/
structure Thread where
  arch : Arch
  status : TStatus
  loads : Nat
  stores : Nat
  copies : Nat
  tiles : Nat
  busy : List Nat
  run : Run
  seq : Nat
  deferred : Option FaultInfo
  defSeq : Option Nat
  acq : List Nat
  acc : Option AccState
  stop : Option (Option FaultInfo)
  acqDrop : Bool
  post : TStatus
  wgRel : Option Nat := none
  deriving DecidableEq, Repr

/-- A queue control word (R187). -/
structure QCtl where
  v : Bool := false
  base : Nat := 0
  ld : Nat := 0
  es : Bool := false
  head : Word := 0
  tail : Word := 0
  deriving DecidableEq, Repr

/-- A tile register's descriptor (12_matrix.md R198, 13_plan_tiles.md R223). gen counts its definitions. -/
structure Tile where
  v : Bool := false
  plan : Bool := false
  rows : Nat := 0
  cols : Nat := 0
  tag : Half := 0
  abase : Nat := 0
  voff : Nat := 0
  status : Word := 0
  limit : Nat := 0
  tol : Word := 0
  pstatus : Word := 0
  gen : Nat := 0
  deriving DecidableEq, Repr

/-- A request held at a rendezvous word until its next flip (R182): arrivals to take and bytes to add, and the
register that receives the phase word. That of a thread is an entry of its core's wait table, with a number and its place there
(R156, R157). -/
structure RvHold where
  key : Nat
  da : Nat
  db : Int
  who : Option (TRef × Nat × Nat)
  id : Nat := 0
  spilled : Bool := false
  deriving DecidableEq, Repr

/-- An effect within a core that is undone if its run is discarded (R328). -/
inductive UndoItem where
  | byte (key : Nat) (old new : Byte)
  | full (key : Nat) (old new : Bool)
  | l1 (core pa : Nat) (old new : Option (Byte × Bool × Nat × Nat))
  /-- the mark of a scratchpad word with an uncorrectable error, cleared by a write -/
  | mark (key : Nat)
  /-- a queue control word of a workgroup -/
  | qc (wg n : Nat) (old new : QCtl)
  /-- an entry popped from an operand queue, and an entry added to one -/
  | oqPop (wg q : Nat) (e : Option Word × Nat)
  | oqPush (wg q : Nat)
  /-- a bit popped from a branch queue, and a bit added to one -/
  | bqPop (wg tid : Nat) (b : Bool)
  | bqPush (wg tid : Nat)
  /-- a tile register of a workgroup, and the descriptors it keeps besides -/
  | tile (wg n : Nat) (old new : Tile)
  /-- whether a rendezvous word has been evaluated since its last flip -/
  | rvOpen (key : Nat) (old new : Bool)
  /-- a request that came to be held at a rendezvous word, or was held there no more -/
  | rvHold (h : RvHold) (added : Bool)
  /-- the microseconds that a beacon took off a workgroup's timer -/
  | timer (wg cut : Nat)
  /-- the restart address of a workgroup's IDEM region -/
  | idem (wg : Nat) (old new : Option DWord)
  deriving DecidableEq, Repr

structure UndoRec where
  run : Option Nat
  item : UndoItem
  deriving DecidableEq, Repr

/-- A committed run until its release cycle (R328): the thread's state at its start, an access thread's loops among it, its
committing instruction if that still has to act, the runs it met and the number of its meetings. due is the microsecond by
which what it writes has left its core (R152). exits says that it is the last run of its thread (R128). -/
structure HeldRun where
  id : Nat
  who : TRef
  seq : Nat
  core : Nat
  snap : Arch
  rel : Nat
  cmd : Option Cmd
  mates : List (TRef × Nat)
  met : Nat
  acc : Option AccState
  due : Nat := 0
  exits : Bool := false
  deriving DecidableEq, Repr

/-- An issue group (R114, R115): the threads that still have to issue the present instruction, those that have,
and those that arrived in this slot at a cross-lane meeting. -/
structure Group where
  todo : List TRef
  done : List TRef
  waitX : List TRef
  deriving DecidableEq, Repr

/-- A bin (R113): the key (workgroup, next PC, key value) and the threads with their ready times. -/
structure Bin where
  key : Nat × DWord × Nat
  members : List (TRef × Nat)
  deriving DecidableEq, Repr

/-- A yielding thread and the threads it waits for (R127). -/
structure Yield where
  who : TRef
  recorded : List TRef
  deriving DecidableEq, Repr

/-- A quadrant (R113 to R117, 19_scheduling.md R284). filing holds the threads that have become ready and are not yet
filed, each with its ready time and its key value, in the order in which they file. slot is the first free issue cycle,
part the partition that holds it, home the one whose home set it is in, loan the time of its loan and reclaim that of
its reclaim. -/
structure Quad where
  bins : List (Nat × Bin) := []
  unfiled : List (TRef × Nat × Nat) := []
  filing : List (TRef × Nat × Nat) := []
  resume : List (Nat × List TRef) := []
  yields : List Yield := []
  active : Option Group := none
  age : Nat := 64
  slot : Nat := 0
  interlocks : Nat := 0
  moves : Nat := 0
  acc : Option Group := none
  part : Option Nat := none
  home : Option Nat := none
  lostCore : Bool := false
  loan : Nat := 0
  reclaim : Option Nat := none
  deriving DecidableEq, Repr

/-- A byte held in a core's L1 (R152): its value, whether it is dirty, the cycle from which it may leave, and the microsecond
by which it has left. -/
structure L1Cell where
  val : Byte
  dirty : Bool
  rel : Nat
  due : Nat
  deriving DecidableEq, Repr

/-- A TLB entry (R321): core, partition and its G, base and size of the page, and the page's descriptor. -/
structure TlbEntry where
  core : Nat
  part : Nat
  gen : Nat
  base : Nat
  size : Nat
  pa : Nat
  tgt : Nat
  mod : Nat
  r : Bool
  w : Bool
  x : Bool
  sup : Bool
  deriving DecidableEq, Repr

/-- A walk under way (R321) and the threads that wait for it, with the access each makes. -/
structure Walk where
  id : Nat
  core : Nat
  part : Nat
  gen : Nat
  page : Nat
  who : List (TRef × DWord × Access)
  deriving DecidableEq, Repr

/-- What a parked thread waits for (R156, R162, R167). -/
inductive WaiterKind where
  /-- lds.wf or lds.wfe, with the number of the load it becomes -/
  | ldsFull (claim : Bool)
  /-- lds.se on a word that another thread has claimed -/
  | ldsSe
  | waitaFull (sc : Scope)
  | waitaEq (sc : Scope) (v : Word)
  | waitaChg (sc : Scope) (v : Word)
  /-- a pop of a queue slot of one or two words, and a push -/
  | pop (len : Nat)
  | push (bytes : List Byte)
  /-- a word of a new queue's storage that is to be set empty: another thread has claimed it, or it lies in another core -/
  | emptied
  deriving DecidableEq, Repr

/-- A pop of a queue, which has claimed its slot at its run's commit. -/
def WaiterKind.isPop : WaiterKind → Bool
  | .pop _ => true
  | _ => false
/-- A push of a queue. -/
def WaiterKind.isPush : WaiterKind → Bool
  | .push _ => true
  | _ => false
/-- A push or a pop. -/
def WaiterKind.isQueue (k : WaiterKind) : Bool := k.isPop || k.isPush

/-- A waiter on a word (R156). key is the word's key, dests the registers written when it proceeds. rel is the cycle
before which it may not act, run the run that is discarded with it, where it acts within its core, and after the acquires
that came before it. -/
structure Waiter where
  id : Nat
  who : TRef
  seq : Nat
  core : Nat
  key : Nat
  loc : Loc
  kind : WaiterKind
  dests : List Dest
  cls : Cls
  age : Nat
  spilled : Bool
  addr : DWord
  rel : Nat := 0
  run : Option Nat := none
  after : List Nat := []
  deriving DecidableEq, Repr

/-- A run that has made reads after an SC fence of its own before it commits: the scopes of its SC fences; its number once it has
committed; and spoiled, that the fence of another thread has come between, so that it is executed again (R145; log entry
61). -/
structure ScRead where
  who : TRef
  seq : Nat
  scs : List Scope
  run : Option Nat
  spoiled : Bool
  deriving DecidableEq, Repr

/-- A presence note of a home slice (R150): the line and the core whose L1 holds a released write. -/
structure Note where
  line : Nat
  core : Nat
  deriving DecidableEq, Repr

end Sys2Proof.Machine
end

