-- ==== Sys2Proof/Machine/Fabric.lean ====
section
/-! DEFINITION. The data of the maze router (16_maze.md), the fabric ports and the host port
(22_fabric_host.md), and the custody processor and power controller (25_system.md). -/

namespace Sys2Proof.Machine

/-- A thread that waits in MZTAKE or MZSINK for the next push of a queue (R253): the register it writes. It is an entry of its
core's wait table, with a number and its place there (08_memory.md R156, R157). -/
structure Taker where
  who : TRef
  seq : Nat
  d : Nat
  id : Nat
  spilled : Bool := false
  deriving DecidableEq, Repr

/-- A record of a set with the cluster unit: the scratchpad address it was posted with and the key of its
header. -/
structure MazeRec where
  addr : Word
  key : Nat
  deriving DecidableEq, Repr

/-- A queue of record addresses in scratchpad (R239): the key of its first slot, the counts of pops and pushes, the
records pushed and not yet taken, oldest first (R243), and the claims that wait for a push. -/
structure MazeQueue where
  qbase : Nat
  ld : Nat
  head : Nat
  tail : Nat
  recs : List MazeRec
  takers : List Taker
  deriving DecidableEq, Repr

/-- A stage (R239, R250). -/
structure MazeStage where
  q : MazeQueue
  eff : Bool
  cost : Nat
  pass0 : Nat
  pass : Nat
  reports : Nat
  passes : Nat
  windows : Nat
  deriving DecidableEq, Repr

/-- A stage set (R238 to R255). A set that no ensemble holds keeps only its GEN. todo are the effect slots that the oldest complete record has still to apply (R247). -/
structure MazeSet where
  clus : Nat
  num : Nat
  gen : Nat
  held : Option (Nat × Nat)
  part : Nat
  core : Nat
  sup : Bool
  det : Bool
  scope : Nat
  win : Nat
  seed : Word
  lfsr : Word
  stages : List MazeStage
  sink : MazeQueue
  heldRecs : List MazeRec
  completing : List MazeRec
  posted : Nat
  sunk : Nat
  dropped : Nat
  failed : Nat
  closed : Bool
  todo : Option (List Nat) := none
  deriving DecidableEq, Repr

/-- A flit (R332, R333): the fields of its header and its body. LEN counts the valid bytes of the body, which may hold a
byte with a meaning of its own where LEN is 0. -/
structure Flit where
  seq : Nat := 0
  ack : Nat := 0
  type : Nat
  dstMod : Nat
  srcMod : Nat
  dstPart : Nat := 0
  srcPart : Nat := 0
  gen : Nat := 0
  epoch : Nat := 0
  len : Nat
  paddr : Nat := 0
  tid : Nat := 0
  body : List Byte
  deriving DecidableEq, Repr

/-- A scale-up port (R332 to R336). failed are the lanes 0 to 15 that have failed; mask is the width in use as bits. asked says
that the retrain under way was begun by the other end, which then gives the mask (R333). seq is
the SEQ of the next flit. held are the flits sent that no acknowledgement covers, oldest first, each with its SEQ and the
time it was sent; waiting are flits that may not be sent yet (R334, R335). replay is the SEQ from which the port last sent
again. expect is the next SEQ expected; unacked counts the flits accepted since an ACK was returned. -/
structure Port where
  failed : List Nat := []
  mask : Nat := 0xFFFF
  down : Bool := false
  retraining : Bool := false
  asked : Bool := false
  seq : Nat := 0
  held : List (Nat × Nat × Flit) := []
  waiting : List Flit := []
  replay : Option Nat := none
  expect : Nat := 0
  nakSent : Bool := false
  unacked : Nat := 0
  errors : Nat := 0
  deriving DecidableEq, Repr

/-- What an outstanding request to another module answers (R338, R339, R343). -/
inductive RemoteFor where
  | load (id : Nat)
  | store (id : Nat)
  | atom (who : TRef) (seq : Nat) (o : AtomOp) (d : Nat) (addr : DWord)
  | waita (id : Nat)
  | copy (id blk : Nat)
  | completion (id : Nat)
  /-- the completion word of a tile generator command -/
  | tgen (id : Nat)
  /-- a read of the word that a continuation record of a launch waits for -/
  | cont (launch slot : Nat)
  /-- a read of an engine or a unit, whose entry in farReads has the request's number -/
  | far
  /-- the fetch of an instruction unit by a thread, with its address and its name among the core's copies -/
  | fetch (who : TRef) (addr : DWord) (key : Nat)
  deriving DecidableEq, Repr

/-- An outstanding request (R339): whose it is, the module, the TYPE, PADDR and body of its flit, the port it went out on,
the time, in microseconds, after which it has failed, and the partition's generation when it went out (R289). -/
structure Remote where
  id : Nat
  purpose : RemoteFor
  part : Nat
  mod : Nat
  type : Nat
  paddr : Nat
  body : List Byte
  port : Option Nat := none
  deadline : Nat := 0
  gen : Nat := 0
  deriving DecidableEq, Repr

/-- A read-modify-write under way at a site of its own (08_memory.md R148, R153): a cluster unit, by its number, or a fabric
port, by 24 more than its number. It has read the old bytes and has not written. run is the run whose atomic it is, req the
request of another module that came in at the port, with the other domain that it came from, begun the cycle in which it
read. -/
structure Rmw where
  site : Nat
  key : Nat
  old : List Byte
  run : Option Nat
  req : Option (Option Nat × PeerReq)
  begun : Nat
  deriving DecidableEq, Repr

/-- A reduction group as a partition of this module sees it (R346). -/
structure RedGroup where
  part : Nat
  group : Nat
  members : List (Nat × Nat)
  timeout : Nat
  deriving DecidableEq, Repr

/-- A contribution that waits for its round (R346, R350): the command, the group and round, and the deadline. -/
structure RedRound where
  copy : Nat
  part : Nat
  group : Nat
  round : Word
  deadline : Nat
  waiting : Bool
  deriving DecidableEq, Repr

/-- The frames between this module and one of another domain, over a scale-out port (R352): next FSEQ, next FSEQ expected
from there, the frames not acknowledged with the time each was last sent, and the FACK told in the last frame sent. -/
structure ScalePair where
  port : Nat
  dom : Nat
  mod : Nat
  fseq : Nat
  expect : Nat
  held : List (Nat × Nat × Flit)
  told : Nat := 65535
  deriving DecidableEq, Repr

/-- The last FSEQ received in order from the other module of the pair (R352). -/
def ScalePair.fack (x : ScalePair) : Nat := (x.expect + 65535) % 65536

/-- A read of another module's memory by a command (R338, R339): the number of the command, the place, the number of the
request, and once it has ended its code of R177 and its bytes. -/
structure FarRead where
  owner : Nat
  mod : Nat
  paddr : Nat
  len : Nat
  req : Nat
  done : Bool := false
  code : Nat := 0
  data : List Byte := []
  deriving DecidableEq, Repr

/-- The module's side of the fabric (R332 to R352). peers holds what it last learned of the generation and the reset epoch
of other modules' partitions, each under a number of its partition, module and domain (R289, R336). etherType is the EtherType
that the host driver sets (R352); no event of the opcode table sets it (log entry 108). -/
structure Fabric where
  domain : Nat := 0
  modId : Nat := 0
  ports : List (Nat × Port) := []
  remotes : List Remote := []
  farReads : List FarRead := []
  peers : List (Nat × (Nat × Nat)) := []
  acl : List (Nat × AclEntry) := []
  groups : List RedGroup := []
  rounds : List RedRound := []
  pairs : List ScalePair := []
  etherErrors : List (Nat × Nat) := []
  etherType : Nat := 0x88B5
  doorbellIgnored : List (Nat × Nat) := []
  deriving DecidableEq, Repr

/-- The power states (R388). -/
inductive Power where
  | p0 | p1 | s1 | s3
  deriving DecidableEq, Repr

/-- An event entry of the meter log (R380). -/
structure MeterEvent where
  time : Nat
  code : Nat
  part : Nat
  data : List Byte
  deriving DecidableEq, Repr

/-- The custody processor and the power controller (R375 to R388). torn holds the last records of partitions
torn down in the present period, answer the bytes of the host's last read; hostLines gives the lines of host memory that
home slices hold under CXL.cache, each with the die whose slice it is (R15, R353). -/
structure Sys where
  stage : Nat := 0
  failed : Option Nat := none
  measures : List (List Byte) := []
  power : Power := .p0
  cap : Nat := 3200
  hot : Bool := false
  idleSince : Nat := 0
  blockSeq : Nat := 0
  prev : List Byte := []
  tstart : Nat := 0
  events : List MeterEvent := []
  torn : List (Nat × List Byte) := []
  ringBase : Nat := 0
  ringSize : Nat := 0
  ringPos : Nat := 0
  keys : Nat := 0
  quotes : List (List Byte) := []
  headers : List (List Byte) := []
  hostLines : List (Nat × Nat) := []
  answer : List Byte := []
  /-- the completion status of the mailbox's last command: done, or turned away (R384) -/
  status : Option Bool := none
  deriving DecidableEq, Repr

end Sys2Proof.Machine
end

