-- ==== Sys2Proof/Machine/Units.lean ====
section
/-! DEFINITION. The data of workgroups, launches, partitions, lodges and the engines (11_streamers.md,
12_matrix.md, 13_plan_tiles.md, 18_lodges.md, 19_scheduling.md). -/

namespace Sys2Proof.Machine

/-- An entry of a lodge affinity block (R276). -/
structure Affinity where
  name : DWord
  patience : Nat
  v : Bool
  deriving DecidableEq, Repr

/-- The fields of a launch packet (R274), sizes in bytes and counts as they act. -/
structure Packet where
  exec : DWord
  access : DWord
  nens : Nat
  wgens : Nat
  nthr : Nat
  allot : Nat
  rm : Nat
  pfirst : Nat
  plen : Nat
  scratch : Nat
  qbytes : Nat
  tiles : Nat
  acc : Nat
  side : Nat
  canopy : Nat
  args : DWord
  laff : DWord
  pbase : DWord
  pstride : Nat
  pres : Nat
  waits : List (Nat × Word)
  cv : Bool
  cindex : Nat
  cop : Nat
  cvalue : Word
  limit : Nat
  supv : Bool
  laffwg : Bool
  serial : Bool
  idemok : Bool
  replay : Bool
  persist : Bool
  tasks : DWord
  tld : Nat
  deriving DecidableEq, Repr

/-- A launch that has become head of its queue (R273 to R281). redo are its ensembles that were wholly discarded and are to
be placed again (R288), conts the words that its continuation records wait for in scratchpad or on another module, by the
record's slot (R292), unmet the signals that it still waited for at its last evaluation (R277, R279), and sigMet the slots of the
records whose wait on a signal was met at an evaluation (R292). -/
structure Launch where
  id : Nat
  part : Nat
  queue : Nat
  slot : Nat
  slotVa : DWord
  prio : Nat
  pkt : Packet
  args : List DWord
  aff : List Affinity
  active : Bool
  met : Bool
  nextEns : Nat
  ended : Nat
  killed : Bool
  leftover : Bool
  ready : List Nat
  arrived : Nat
  redo : List Nat := []
  conts : List (Nat × Loc) := []
  unmet : List Nat := []
  sigMet : List Nat := []
  deriving DecidableEq, Repr

/-- A workgroup (R108, R134, R169, R188, R197, R274). quad is its quadrant of the module, off the first byte of
its footprint in the core's scratchpad; the other bases are offsets in its quadrant's memories. oldTiles are
descriptors that have been defined anew while operations on them are on their way. here says that the workgroup has been
placed, its quadrant having been reserved before (R281), and started that its threads have become ready. slots are the thread
slots of its quadrant that its threads use, by `%tid` (R107, R128), img the offset of its image in the save area (R286), stopped
the threads that its watchdog has stopped (R316). killed says that all its threads were killed (R177). -/
structure Wg where
  id : Nat
  part : Nat
  launch : Nat
  wgid : Nat
  ensid : Nat
  wgens : Nat
  nwgens : Nat
  quad : Nat
  nthr : Nat
  allot : Nat
  rm : Rm
  supv : Bool
  persist : Bool
  idemok : Bool
  exec : DWord
  access : DWord
  pfirst : Nat
  plen : Nat
  off : Nat
  scratch : Nat
  qbytes : Nat
  staging : Nat
  accBase : Nat
  accLen : Nat
  sideBase : Nat
  sideLen : Nat
  canBase : Nat
  canLen : Nat
  tiles : List Tile
  oldTiles : List (Nat × Tile)
  qcs : List QCtl
  args : List DWord
  pbase : DWord
  pres : Nat
  hwm : DWord
  opens : List Nat
  idem : Option DWord
  limit : Nat
  timer : Nat
  fired : Bool
  grace : Option Nat
  placedAt : Nat
  order : Nat
  started : Bool
  here : Bool
  saved : Bool
  preempting : Bool
  discarded : Bool
  ended : Bool
  oq : List (Nat × List (Option Word × Nat))
  bq : List (Nat × List Bool)
  slots : List Nat := []
  img : Nat := 0
  stopped : List Nat := []
  killed : Bool := false
  deriving DecidableEq, Repr

/-- A workgroup that waits for its governing lodge's core (R261). -/
structure AffWait where
  launch : Nat
  wgid : Nat
  since : Nat
  name : DWord
  core : Nat
  expired : Bool
  deriving DecidableEq, Repr

/-- The states of a lodge that the directory holds (R258). -/
inductive LodgeState where
  | live | moving | rebuild | lost
  deriving DecidableEq, Repr

/-- What is pending on a lodge (R262, R269): a placement move, a hand-over or a drop. The instruction is that of
the thread, with the registers it writes. -/
inductive LodgePend where
  | none
  | place (core : Nat)
  | hand (who : TRef) (seq : Nat) (d : Nat) (core : Nat) (near : Bool)
  | drop (who : TRef) (seq : Nat) (d : Nat)
  | lease (core : Nat)
  deriving DecidableEq, Repr

/-- A lodge of a partition (R256 to R258). named is false once LDROP has removed its name. running says that the
pending move has started, to the slot and offset given. -/
structure Lodge where
  id : Nat
  part : Nat
  name : DWord
  pages : Nat
  st : LodgeState
  core : Nat
  off : Nat
  slot : Nat
  gen : Nat
  mirror : Option Nat
  named : Bool
  pend : LodgePend
  running : Option (Nat × Nat × Nat)
  dirty : Bool
  deriving DecidableEq, Repr

/-- A LODGE instruction that waits in the directory (R262, R269): LOPEN of a moving lodge, LHAND of one in
REBUILD or without room. -/
structure LodgeWait where
  lodge : Nat
  who : TRef
  seq : Nat
  cmd : Cmd
  name : DWord
  deriving DecidableEq, Repr

/-- The fields of a command block (R170, R171). bad says that a reserved field is not 0. -/
structure CopyBlock where
  gaddr : DWord
  laddr : Nat
  count0 : Nat
  esize : Nat
  count1 : Nat
  count2 : Nat
  count3 : Nat
  rm : Nat
  ovf : Bool
  conv : Bool
  rscale : Bool
  stride1 : Int
  stride2 : Int
  stride3 : Int
  srctag : Half
  dsttag : Half
  xaddr : DWord
  caddr : DWord
  cvalue : Word
  cp : Bool
  csp : Bool
  acq : Bool
  rel : Bool
  scope : Nat
  errpol : Bool
  rv : Bool
  rop : Nat
  rvaddr : Nat
  bad : Bool
  deriving DecidableEq, Repr

/-- A byte that a command is to write: its place, its 64-byte block of the destination, its row, whether it was clamped, and
the codeword that its source was read from (R176, R177, 21_faults.md R331). -/
structure CopyByte where
  loc : Loc
  val : Byte
  blk : Nat × Nat
  row : Nat
  sat : Bool
  src : Option Nat
  deriving DecidableEq, Repr

/-- A part of a command's destination that is written as one (R177, R178, 22_fabric_host.md R343): its bytes, in this module or at
consecutive places of another, the 64-byte blocks they lie in, and where something failed the code, with the blocks that are left
wholly or in part unwritten. -/
structure CopyWrite where
  id : Nat
  bytes : List CopyByte
  blocks : List (Nat × Nat)
  fail : Option Nat
  short : List (Nat × Nat)
  deriving DecidableEq, Repr

/-- A streamer command (R168 to R180). data holds the element codes that a REDUCE contributes. lost are the blocks left
unwritten, sentWrites the remote writes not acknowledged and rowsOut the rows of which bytes have gone out. comp is the
progress of its completion word: not written, on its way, done. channel says that it holds a channel, and started that it has read
its sources; dests are the modules that it writes, each with its domain. -/
structure Copy where
  id : Nat
  who : TRef
  seq : Nat
  part : Nat
  core : Nat
  quad : Nat
  sup : Bool
  kind : Nat
  blk : CopyBlock
  d : Nat
  rvKey : Option Nat
  compKey : Option Nat
  started : Bool
  writes : List CopyWrite
  sentWrites : List CopyWrite
  code : Nat
  lost : List (Nat × Nat)
  comp : Nat
  aborted : Bool
  data : List Nat
  reducing : Bool
  rowsOut : List Nat := []
  ports : List (Nat × Nat) := []
  channel : Bool := false
  dests : List (Nat × Nat) := []
  deriving DecidableEq, Repr

/-- The steps of a tile or plan operation (R200, R202). -/
inductive TPhase where
  | queued | running | finishing
  deriving DecidableEq, Repr

/-- A BALANCE between its sweeps (R229): sweeps done, the flags of its status, the last error as a binary32 code, and
whether it has stopped. -/
structure PlanRun where
  k : Nat := 0
  mass : Bool := false
  infeas : Bool := false
  nan : Bool := false
  conv : Bool := false
  err : Option Nat := none
  stopped : Bool := false
  deriving DecidableEq, Repr

/-- A committed tile or plan operation (R200). The descriptors are those at its commit: the destination's and those of
operands A and B. run names the run that committed it, stores its writes to memory that are on their way, arrival its
arrival at a rendezvous word where that is held there (11_streamers.md R182). places are those of the elements in memory of a TLD or
TST, as the translation settled them at its commit (R213). -/
structure TileOp where
  id : Nat
  who : TRef
  seq : Nat
  run : Nat
  wg : Nat
  core : Nat
  sup : Bool
  cmd : Cmd
  td : Tile
  ta : Tile
  tb : Tile
  phase : TPhase
  pass : Nat
  failed : Bool
  stores : List Nat
  plan : PlanRun
  rel : Nat
  arrival : Option Nat := none
  places : List (Option Loc) := []
  deriving DecidableEq, Repr

/-- Writes of a finished pass that its hold buffer still keeps (R328): what to put back if a strike discards it. tile
is the destination with its status before the pass. -/
structure PassHold where
  id : Nat
  core : Nat
  rel : Nat
  old : List Host.Cell
  was : TileOp
  tile : Nat
  before : Tile
  deriving DecidableEq, Repr

/-- A tile generator command (R218). stage counts what it has behind it: its descriptors and offsets, its CURSOR and COUNT, its
completion word. count and code are what it will report (R219), waits its writes to other modules that are on their way. -/
structure TGen where
  id : Nat
  who : TRef
  seq : Nat
  part : Nat
  sup : Bool
  core : Nat
  block : List Byte
  d : Nat
  aborted : Bool
  compKey : Option Nat
  stage : Nat := 0
  count : Nat := 0
  code : Nat := 0
  waits : List Nat := []
  deriving DecidableEq, Repr

/-- A blocked value of G (R289): the value and the time from which it may be released, in microseconds. -/
structure GenBlock where
  part : Nat
  gen : Nat
  since : Nat
  deriving DecidableEq, Repr

/-- The time-triggered table's place (R294): the entry of the next slot, the time in microseconds when the present slot
ends, whether its submission is deferred, and the queue and slot of the table's last launch. -/
structure TtState where
  entry : Nat := 0
  ends : Nat := 0
  deferred : Bool := false
  launch : Option (Nat × Word) := none
  deriving DecidableEq, Repr

/-- The counters of the meter that belong to a partition (R379). -/
structure Meter where
  quadCycles : Nat := 0
  passes : Nat := 0
  linkBytes : Nat := 0
  deriving DecidableEq, Repr

/-- A partition (R283, R289, R293, R310, 25_system.md R376). -/
structure Part where
  defined : Bool := false
  lim : PartLimits := ⟨0, 0, 0, [], 0, 0, 0, 0, 0⟩
  suspended : Bool := false
  cregs : List (Nat × Word) := []
  low : List (Nat × Word) := []
  gen : Nat := 0
  epoch : Nat := 0
  /-- the draws of KH and KC from the custody processor's generator, 0 where there is no key (25_system.md R376, R377) -/
  kh : Nat := 0
  kc : Nat := 0
  eccce : Nat := 0
  missed : List (Nat × Nat) := []
  tt : TtState := {}
  served : List (Nat × Nat) := []
  resetWait : Bool := false
  replays : List (Nat × Word) := []
  replayDue : List (Nat × List Nat) := []
  evReady : List Nat := []
  pubs : List (Nat × Word) := []
  /-- the bytes of the save area that images have taken since the partition's last reset (R285, 21_faults.md R323) -/
  saveTop : Nat := 0
  meter : Meter := {}
  deriving DecidableEq, Repr

end Sys2Proof.Machine
end

