-- ==== Sys2Proof/Machine/State.lean ====
section
/-! DEFINITION. The state of the module, the reasons a step can stop, and the state after reset. The module is one
machine: its threads, its memories, its engines, its dispatcher, its links and its custody processor are all
here as plain data. -/

namespace Sys2Proof.Machine

/-- The reasons for which the machine stops. -/
inductive Fault where
  /-- Raised by the meaning of a thread's instruction where no thread is issuing (State.cur names none): the manual
  gives an instruction only in a thread. Safe: the machine stops where the module has no such step. -/
  | noThread
  deriving DecidableEq, Repr

/-- The reasons for which an instruction has no meaning here. -/
inductive Refusal where
  /-- Raised by an arm of exec whose instruction has no meaning yet. Safe: the machine stops. -/
  | notModelled (mnemonic : String)
  deriving DecidableEq, Repr

/-- What happens next: a quadrant issues one instruction of one execute thread, or of one access thread; an event
of the environment or of a free-running unit takes place; time passes; or a home slice takes a line in or lets one go. -/
inductive Turn where
  | issue (q : Nat)
  | access (q : Nat)
  | event (i : Instr)
  | tick (cycles : Nat)
  | slice (line : Nat) (hold : Bool)
  deriving DecidableEq, Repr

/-- The state of the module. -/
structure State where
  /-- threads by TRef.key (R110) -/
  threads : List (Nat × Thread)
  /-- workgroups by number (R108) -/
  wgs : List (Nat × Wg)
  /-- quadrants of the module that differ from an empty one (R113) -/
  quads : List (Nat × Quad)
  /-- launches by number (R273) -/
  launches : List (Nat × Launch)
  affWaits : List AffWait
  /-- partitions 0 to 19 (R283) -/
  parts : List (Nat × Part)
  /-- every byte of HBM, host memory, scratchpad, canopy, accumulator and side memory (R136); a line of HBM that a home
  slice holds is here as the slice has it -/
  mem : Memory
  /-- the keys of the scratchpad words whose full/empty bit is full (R154) -/
  full : List Nat
  /-- claimed words and the claiming threads (R155) -/
  claims : List (Nat × TRef)
  /-- bytes held in the L1 caches, by core·2^70 + key (R152) -/
  l1 : List (Nat × L1Cell)
  /-- the lines of HBM that home slices hold, by key, with whether they were written since they came in (R12, R15) -/
  l2 : List (Nat × Bool)
  /-- bytes of backing memory under lines that home slices hold, where the two may differ (R166, 22_fabric_host.md R354) -/
  back : List (Nat × Byte)
  /-- the write generations of 64-byte blocks of canopy memory, by the block's number (25_system.md R376) -/
  canGens : List (Nat × Nat)
  /-- the writes of whole ranges of canopy memory: first key, bytes and how often (25_system.md R376, R378) -/
  canRanges : List (Nat × Nat × Nat)
  /-- the bytes moved between home slices and HBM, and over the canopy bond, for each partition in this period (R379) -/
  hbmMoved : List (Nat × Nat)
  canMoved : List (Nat × Nat)
  /-- copies of instruction units that cores keep, by core·2^70 + key (R393) -/
  fetched : List (Nat × Half)
  notes : List Note
  /-- poisoned codewords of HBM, by the key of their first byte (R331) -/
  poisoned : List Nat
  tlb : List TlbEntry
  walks : List Walk
  loads : List PLoad
  stores : List PStore
  waiters : List Waiter
  /-- runs that read after an SC fence of their own before they commit: the model's own -/
  scReads : List ScRead
  held : List HeldRun
  undo : List UndoRec
  copies : List Copy
  tileOps : List TileOp
  passHolds : List PassHold
  tgens : List TGen
  rvHolds : List RvHold
  /-- the keys of rendezvous words evaluated since their last flip or RVINIT (R182) -/
  rvOpen : List Nat
  mazes : List MazeSet
  lodges : List Lodge
  lodgeWaits : List LodgeWait
  /-- the last GEN of lodge slots, by core·64 + slot (R257) -/
  slotGens : List (Nat × Nat)
  genBlocks : List GenBlock
  /-- strikes heard by each core since reset, and the cycles of those of the last millisecond (R310, R327) -/
  strikes : List (Nat × Nat)
  strikeLog : List (Nat × Nat)
  lostCores : List Nat
  /-- by cluster: the partition that placed last, and the cycle (R280) -/
  turns : List (Nat × (Nat × Nat))
  retiredChannels : List Nat
  /-- read-modify-writes under way at cluster units and fabric ports (R148, R153) -/
  rmws : List Rmw
  fab : Fabric
  sys : Sys
  /-- arithmetic cycles since reset (R134), microseconds since reset (R3) and the cycles of the present one -/
  clock : Nat
  us : Nat
  usub : Nat
  /-- the arithmetic clock in MHz (R23) -/
  freq : Nat
  /-- the number the next request, run or command takes: the model's own -/
  nextId : Nat
  /-- the number of the next free value: the model's own -/
  fresh : Nat
  /-- what happens next, as far as it is settled: the model's own -/
  sched : List Turn
  /-- the thread that is issuing: the model's own -/
  cur : Option TRef
  deriving DecidableEq, Repr

/-- The module after reset and boot (R387): no partition is defined, no thread exists, and every memory reads 0. -/
def State.reset : State :=
  { threads := [], wgs := [], quads := [], launches := [], affWaits := [], parts := [], mem := [], full := [],
    claims := [], l1 := [], l2 := [], back := [], canGens := [], canRanges := [], hbmMoved := [], canMoved := [], fetched := [], notes := [], poisoned := [], tlb := [], walks := [], loads := [],
    stores := [], waiters := [], scReads := [], held := [], undo := [], copies := [], tileOps := [], passHolds := [], tgens := [],
    rvHolds := [], rvOpen := [], mazes := [], lodges := [], lodgeWaits := [], slotGens := [], genBlocks := [], strikes := [],
    strikeLog := [], lostCores := [], turns := [], retiredChannels := [], rmws := [], fab := {}, sys := {}, clock := 0, us := 0, usub := 0,
    freq := 2100, nextId := 0, fresh := 0, sched := [], cur := none }

end Sys2Proof.Machine
end

