-- ==== Sys2Proof/Machine/Ops.lean ====
section
/-! DEFINITION. The named operations over threads, registers, time and bins, and taking a fault with the return
from one (07_execution.md R110 to R120, 21_faults.md R302 to R306, R313). -/

namespace Sys2Proof.Machine

/-! ### Reaching the parts of the state -/

/-- The thread a key names. -/
def TRef.ofKey (k : Nat) : TRef := { wg := k / 1024, tid := k / 2 % 512, acc := k % 2 == 1 }

def State.thread (s : State) (r : TRef) : Option Thread := alook r.key s.threads
def State.setThread (s : State) (r : TRef) (t : Thread) : State := { s with threads := aput r.key t s.threads }
/-- The state with one thread changed; a thread that does not exist changes nothing. -/
def State.modThread (s : State) (r : TRef) (f : Thread → Thread) : State :=
  match s.thread r with
  | some t => s.setThread r (f t)
  | none => s
/-- The state with the register state of one thread changed. -/
def State.modArch (s : State) (r : TRef) (f : Arch → Arch) : State :=
  s.modThread r fun t => { t with arch := f t.arch }
/-- The state with the run of one thread changed. -/
def State.modRun (s : State) (r : TRef) (f : Run → Run) : State :=
  s.modThread r fun t => { t with run := f t.run }

def State.wg (s : State) (w : Nat) : Option Wg := alook w s.wgs
def State.modWg (s : State) (w : Nat) (f : Wg → Wg) : State :=
  match s.wg w with
  | some g => { s with wgs := aput w (f g) s.wgs }
  | none => s
def State.quad (s : State) (q : Nat) : Quad := (alook q s.quads).getD {}
def State.setQuad (s : State) (q : Nat) (x : Quad) : State := { s with quads := aput q x s.quads }
def State.modQuad (s : State) (q : Nat) (f : Quad → Quad) : State := s.setQuad q (f (s.quad q))
def State.part (s : State) (p : Nat) : Part := (alook p s.parts).getD {}
def State.modPart (s : State) (p : Nat) (f : Part → Part) : State := { s with parts := aput p (f (s.part p)) s.parts }
def State.launch (s : State) (l : Nat) : Option Launch := alook l s.launches
def State.modLaunch (s : State) (l : Nat) (f : Launch → Launch) : State :=
  match s.launch l with
  | some x => { s with launches := aput l (f x) s.launches }
  | none => s

/-- The module quadrant of a thread: that of its workgroup (R107). -/
def State.quadOf (s : State) (r : TRef) : Nat := ((s.wg r.wg).map (·.quad)).getD 0
/-- The core of a module quadrant (02_organisation.md R10). -/
def coreOfQuad (q : Nat) : Nat := q / 4
/-- The cluster of a core (R10). -/
def clusOfCore (c : Nat) : Nat := c / 8
/-- The core of a thread. -/
def State.coreOf (s : State) (r : TRef) : Nat := coreOfQuad (s.quadOf r)
/-- The partition of a thread. -/
def State.partOf (s : State) (r : TRef) : Nat := ((s.wg r.wg).map (·.part)).getD 0

/-- The threads of a workgroup, execute threads in ascending `%tid`, each before its access thread. -/
def State.threadsOf (s : State) (w : Nat) : List (TRef × Thread) :=
  (s.threads.filter fun x => x.1 / 1024 == w).map fun x => (TRef.ofKey x.1, x.2)

/-- A number that no request, run or command has taken. -/
def State.takeId (s : State) : Nat × State := (s.nextId, { s with nextId := s.nextId + 1 })
/-- The number of the first of 256 fresh free values. -/
def State.takeFresh (s : State) : Nat × State := (s.fresh, { s with fresh := s.fresh + 256 })

/-- The items of a list taken one after another. -/
def forEach {α : Type} (f : State → α → State) (s : State) (l : List α) : State := l.foldl f s

/-! ### Time (00_scope.md R3) -/

/-- The arithmetic clock stands still (25_system.md R388). -/
def Power.gated : Power → Bool
  | .s1 => true | .s3 => true
  | _ => false

/-- A workgroup whose timer runs (21_faults.md R315). -/
def Wg.timed (g : Wg) : Bool := g.here && !g.saved && !g.ended

/-- The clocks of the module after n more arithmetic cycles, or as long as they would take where the clock stands still
(25_system.md R388). The timers of workgroups run in microseconds (21_faults.md R315), and the meter counts the quadrants
held (25_system.md R379). -/
def State.tickBy (s : State) (n : Nat) : State :=
  let f := max s.freq 1
  let u := s.usub + n
  let d := u / f
  let run := if s.sys.power.gated then 0 else n
  let busy := s.wgs.any fun x => x.2.here && !x.2.saved && !x.2.ended
  { s with
    sys := { s.sys with idleSince := if busy then s.us + d else s.sys.idleSince },
    clock := s.clock + run, us := s.us + d, usub := u % f,
    wgs := s.wgs.map fun (x : Nat × Wg) => (x.1, if x.2.timed then { x.2 with timer := x.2.timer + d } else x.2),
    parts := s.parts.map fun (x : Nat × Part) => (x.1, { x.2 with meter := { x.2.meter with
      quadCycles := x.2.meter.quadCycles + run * (s.quads.filter fun q => q.2.part == some x.1).length } }) }

/-! ### Registers -/

/-- An undefined register value (R6): free bits and a free valid tag. -/
def freeReg (n : Nat) : Reg :=
  let t := Config.freeTag n
  { val := { bits := Config.freeBits n, tag := if validTag t.toNat then t else tagRaw } }

/-- The registers that hold the run temporaries k0 to k7 (R30). -/
def isTemp (r : Nat) : Bool := decide (120 ≤ r) && decide (r ≤ 127)

def RegFile.get (f : RegFile) (r : Nat) : Reg :=
  match alook r f.cells with
  | some c => c
  | none => freeReg (if isTemp r then f.kbase + (r - 120) else f.base + r)
def RegFile.set (f : RegFile) (r : Nat) (c : Reg) : RegFile := { f with cells := aput r c f.cells }
/-- The registers as a run starts with them: the run temporaries are undefined (R119). -/
def RegFile.newRun (f : RegFile) (n : Nat) : RegFile :=
  { f with cells := f.cells.filter (fun x => !isTemp x.1), kbase := n }

def Arch.reg (a : Arch) (r : Nat) : RegVal := (a.regs.get r).val
/-- A register written: the poison mark goes (R141). -/
def Arch.setReg (a : Arch) (r : Nat) (v : RegVal) : Arch := { a with regs := a.regs.set r { val := v } }
/-- A pair as 64 bits (R58). -/
def Arch.pair (a : Arch) (r : Nat) : DWord := pair64 (a.reg r) (a.reg (r + 1))
/-- A pair written, both halves together (R81). -/
def Arch.setPair (a : Arch) (r : Nat) (v : RegVal × RegVal) : Arch := (a.setReg r v.1).setReg (r + 1) v.2
/-- A predicate: p7 is always 1 (R110). -/
def Arch.pred (a : Arch) (p : Nat) : Bool := if p = 7 then true else a.preds.getLsbD p
/-- A predicate written; a write to p7 is ignored (R32). -/
def Arch.setPred (a : Arch) (p : Nat) (b : Bool) : Arch :=
  if p < 7 then { a with preds := (a.preds &&& ~~~((1 : BitVec 7) <<< p)) ||| (if b then (1 : BitVec 7) <<< p else 0) } else a
/-- Sticky flags raised (R72). -/
def Arch.raise (a : Arch) (f : FFlags) : Arch := { a with fflags := a.fflags ||| f }

/-! ### Bins, the unfiled queue and readiness (R112, R113) -/

/-- The lowest bin that holds a key and has room, or else the lowest empty one (R113). -/
def Quad.binFor (q : Quad) (key : Nat × DWord × Nat) : Option Nat :=
  match q.bins.find? fun b => decide (b.2.key = key) && decide (b.2.members.length < 32) with
  | some b => some b.1
  | none => (List.range 64).find? fun i => (alook i q.bins).isNone

/-- A thread filed under a key with its ready time (R113). -/
def Quad.file (q : Quad) (key : Nat × DWord × Nat) (r : TRef) (at' : Nat) : Option Quad :=
  (q.binFor key).map fun i =>
    let b := (alook i q.bins).getD { key := key, members := [] }
    { q with bins := aput i { b with members := b.members ++ [(r, at')] } q.bins }

/-- The order of the unfiled queue (R113): ready time, the order of placement, `%tid`. -/
def unfiledBefore (s : State) (x y : TRef × Nat × Nat) : Bool :=
  let o := fun (r : TRef) => ((s.wg r.wg).map (·.order)).getD 0
  decide (x.2.1 < y.2.1) || (x.2.1 == y.2.1 && (decide (o x.1 < o y.1) ||
    (o x.1 == o y.1 && decide (x.1.tid < y.1.tid))))

/-- The unfiled queue with one more thread in its place. -/
def insertUnfiled (s : State) (x : TRef × Nat × Nat) : List (TRef × Nat × Nat) → List (TRef × Nat × Nat)
  | [] => [x]
  | y :: l => if unfiledBefore s x y then x :: y :: l else y :: insertUnfiled s x l

/-- The order in which threads that become ready file (R113): ready time, then `%tid`, then the order of placement. -/
def filesBefore (s : State) (x y : TRef × Nat × Nat) : Bool :=
  let o := fun (r : TRef) => ((s.wg r.wg).map (·.order)).getD 0
  decide (x.2.1 < y.2.1) || (x.2.1 == y.2.1 && (decide (x.1.tid < y.1.tid) ||
    (x.1.tid == y.1.tid && decide (o x.1 < o y.1))))

/-- The threads that have become ready with one more in its place. -/
def insertFiling (s : State) (x : TRef × Nat × Nat) : List (TRef × Nat × Nat) → List (TRef × Nat × Nat)
  | [] => [x]
  | y :: l => if filesBefore s x y then x :: y :: l else y :: insertFiling s x l

/-- The key a ready thread is filed under (R113). -/
def State.binKey (s : State) (r : TRef) (v : Nat) : Nat × DWord × Nat :=
  (r.wg, ((s.thread r).map (·.arch.pc)).getD 0, v)

/-- A thread of a quadrant filed in its bin, or unfiled where there is none (R113). -/
def State.fileOne (s : State) (q : Quad) (x : TRef × Nat × Nat) : Quad :=
  (q.file (s.binKey x.1 x.2.2) x.1 x.2.1).getD { q with unfiled := insertUnfiled s x q.unfiled }

/-- The threads of a quadrant whose ready time is no later than a cycle are filed, those of one cycle in ascending `%tid`
(R113). -/
def State.fileQuad (s : State) (now : Nat) (q : Quad) : Quad :=
  (q.filing.filter fun x => decide (x.2.1 ≤ now)).foldl s.fileOne
    { q with filing := q.filing.filter fun x => !(decide (x.2.1 ≤ now)) }

/-- The time of the module after n more cycles (passTime): the threads that have become ready by then are filed. -/
def State.passTime (s : State) (n : Nat) : State :=
  let s := s.tickBy n
  { s with quads := s.quads.map fun (x : Nat × Quad) => (x.1, s.fileQuad s.clock x.2) }

/-- The time of the module when it is at least a given cycle. -/
def State.passTo (s : State) (c : Nat) : State := if c ≤ s.clock then s else s.passTime (c - s.clock)

/-- The ready time of a thread that becomes ready now: a thread that issues its terminator is ready in the cycle after its
slot, any other in the cycle in which its wait ends (R112). -/
def State.readyTime (s : State) (r : TRef) : Nat := if s.cur = some r then s.clock + 1 else s.clock

/-- A thread that becomes ready, to be filed under its next PC and a key value (R113). Access threads are not
binned (11_streamers.md R193), nor those of a workgroup that is saved (19_scheduling.md R286). -/
def State.makeReady (s : State) (r : TRef) (v : Nat) : State :=
  let at' := s.readyTime r
  let s := s.modThread r fun t => { t with status := .ready at' v }
  if r.acc || ((s.wg r.wg).map (·.saved)).getD false then s
  else s.modQuad (s.quadOf r) fun x => { x with filing := insertFiling s (r, at', v) x.filing }

/-- The unfiled threads that take an empty bin (R113): the oldest with the others of its key, up to 32. -/
def State.refill (s : State) (qn : Nat) : State :=
  let q := s.quad qn
  match q.unfiled with
  | [] => s
  | (r, _, v) :: _ =>
    let k := s.binKey r v
    if (List.range 64).all fun i => (alook i q.bins).isSome then s
    else
      let mine := (q.unfiled.filter fun x => decide (s.binKey x.1 x.2.2 = k)).take 32
      let rest := q.unfiled.filter fun x => !(mine.contains x)
      s.setQuad qn (mine.foldl (fun acc x => (acc.file k x.1 x.2.1).getD acc) { q with unfiled := rest })

/-- A thread taken out of bins, queues and groups: it issues, or it is no longer ready; no yielding thread waits
for it any more (R127). -/
def Quad.drop (q : Quad) (r : TRef) : Quad :=
  { q with
    bins := (q.bins.map fun b => (b.1, { b.2 with members := b.2.members.filter fun m => m.1 != r })).filter
      fun b => !b.2.members.isEmpty
    unfiled := q.unfiled.filter fun x => x.1 != r
    filing := q.filing.filter fun x => x.1 != r
    resume := (q.resume.map fun g => (g.1, g.2.filter (· != r))).filter fun g => !g.2.isEmpty
    yields := (q.yields.filter fun y => y.who != r).map fun y => { y with recorded := y.recorded.filter (· != r) }
    active := q.active.map fun g =>
      { todo := g.todo.filter (· != r), done := g.done.filter (· != r), waitX := g.waitX.filter (· != r) }
    acc := q.acc.map fun g =>
      { todo := g.todo.filter (· != r), done := g.done.filter (· != r), waitX := g.waitX.filter (· != r) } }

def State.dropFromQuad (s : State) (r : TRef) : State :=
  let q := s.quadOf r
  (s.modQuad q fun x => x.drop r).refill q

/-- A thread whose wait has ended (R158): it joins the resumption group of the threads of its workgroup that woke
in this cycle at its PC, or starts one. An access thread waits for its engine (11_streamers.md R193). -/
def State.wake (s : State) (r : TRef) : State :=
  let s := s.modThread r fun t => { t with status := .woken }
  if r.acc then s else
  let pc : TRef → Option DWord := fun x => (s.thread x).map fun t => t.arch.pc
  let fits := fun (g : Nat × List TRef) =>
    g.1 == s.clock && g.2.all fun x => decide (x.wg = r.wg) && decide (pc x = pc r)
  s.modQuad (s.quadOf r) fun q =>
    if q.resume.any fits then
      { q with resume := q.resume.map fun g => if fits g then (g.1, g.2 ++ [r]) else g }
    else { q with resume := q.resume ++ [(s.clock, [r])] }

/-- Whether a trailer's counts hold (R135). -/
def Thread.trailerMet (t : Thread) (l st c ti : Nat) (aw : Option Nat) : Bool :=
  decide (t.loads ≤ l) && decide (t.stores ≤ st) && decide (t.copies ≤ c) && decide (t.tiles ≤ ti) &&
    (match aw with
     | some v => !(t.busy.contains v)
     | none => true)

/-- The marks that a trailer waiting for their loads reports (R141): every mark when it waits for no load more,
else that of the awaited register. -/
def Arch.trailerPoison (a : Arch) (l : Nat) (aw : Option Nat) : Option FaultInfo :=
  (a.regs.cells.find? fun c => c.2.poison.isSome && !c.2.told && (l == 0 || aw == some c.1)).bind (·.2.poison)

/-- The registers with every mark reported. -/
def RegFile.tell (f : RegFile) : RegFile := { f with cells := f.cells.map fun c => (c.1, { c.2 with told := true }) }

/-- A fault that run number q has left, to be taken at the start of the thread's next run; an earlier one stays. -/
def Thread.defer (t : Thread) (f : FaultInfo) (q : Option Nat) : Thread :=
  { t with
    deferred := some (t.deferred.getD { f with deferred := true })
    defSeq := if t.deferred.isSome then t.defSeq else q }

/-- A fence of a thread is not performed: a run that starts after a trailer with STORES 0 starts after it (R393). -/
def State.fencing (s : State) (r : TRef) : Bool :=
  s.stores.any fun p => p.who = r && (match p.op with
    | .fence _ _ => true
    | _ => false)

/-- A thread past its terminator, ready if its trailer's counts hold and, where it waits for every store, its fences are
performed (R112, R135, R393). -/
def State.tryReady (s : State) (r : TRef) : State :=
  match s.thread r with
  | none => s
  | some t =>
    if t.stop.isSome then s
    else match t.status with
    | .trailer l st c ti aw =>
      if t.trailerMet l st c ti aw && !(st == 0 && s.fencing r) then
        let s := match t.arch.trailerPoison l aw with
          | some f => s.setThread r
              { t.defer f (some (t.seq - 1)) with
                arch := { t.arch with regs := t.arch.regs.tell }
                run := { t.run with snap := { t.run.snap with regs := t.run.snap.regs.tell } } }
          | none => s
        s.makeReady r 0
      else s
    | _ => s

/-! ### Values that arrive in registers (R117, R118) -/

/-- The class counter of a thread after f. -/
def Thread.count (t : Thread) (c : Cls) (f : Nat → Nat) : Thread :=
  match c with
  | .loads => { t with loads := f t.loads }
  | .stores => { t with stores := f t.stores }
  | .copies => { t with copies := f t.copies }
  | .tiles => { t with tiles := f t.tiles }
  | .none => t

/-- The present count of a class. -/
def Thread.counter (t : Thread) (c : Cls) : Nat :=
  match c with
  | .loads => t.loads | .stores => t.stores | .copies => t.copies | .tiles => t.tiles | .none => 0

/-- Registers written in one register file. -/
def RegFile.setAll (f : RegFile) (ws : List (Nat × Reg)) : RegFile := ws.foldl (fun acc w => acc.set w.1 w.2) f

/-- The registers that a handler finds written (R304). -/
def isHandlerReg (r : Nat) : Bool := r == 0 || r == 4 || r == 5 || r == 6 || r == 8 || r == 9

/-- Registers written for a run. A run before the trap frame was written reaches the frame too, and in a handler it does
not reach the registers that the entry wrote (R304, R313). -/
def Arch.arrive (a : Arch) (seq : Nat) (ws : List (Nat × Reg)) : Arch :=
  let old := match a.frame with
    | some f => decide (seq < f.fseq)
    | none => false
  let here := if old && a.depth == 1 then ws.filter fun w => !isHandlerReg w.1 else ws
  { a with regs := a.regs.setAll here, frame := a.frame.map fun f => if old then { f with regs := f.regs.setAll ws } else f }

/-- Values arrive for a run of a thread: they are written to its registers, and to every state kept from the
start of a later run. One class count falls and the registers are outstanding no longer. -/
def State.arrive (s : State) (r : TRef) (seq : Nat) (ws : List (Nat × Reg)) (c : Cls) : State :=
  let s := s.modThread r fun t =>
    let t := { t with arch := t.arch.arrive seq ws
                      busy := ws.foldl (fun (b : List Nat) (w : Nat × Reg) => b.erase w.1) t.busy
                      run := if seq < t.seq then { t.run with snap := t.run.snap.arrive seq ws } else t.run }
    t.count c (· - 1)
  let s := { s with held := s.held.map fun (h : HeldRun) =>
    if h.who = r ∧ seq < h.seq then { h with snap := h.snap.arrive seq ws } else h }
  s.tryReady r

/-- A class count falls. -/
def State.uncount (s : State) (r : TRef) (c : Cls) : State := (s.modThread r fun t => t.count c (· - 1)).tryReady r

/-! ### The meter's event entries (25_system.md R380) -/

def State.meterEvent (s : State) (code part : Nat) (data : List Byte) : State :=
  let d := (data ++ List.replicate 16 0).take 16
  { s with sys := { s.sys with
      events := s.sys.events ++ [{ time := s.us * 1000, code := code, part := part, data := d }] } }

/-- The completion status of a mailbox command: it is done, or it was turned away (25_system.md R384). -/
def State.mailed (ok : Bool) (s : State) : State := { s with sys := { s.sys with status := some ok } }

/-! ### Runs (R118) -/

/-- The run that starts with a register state. -/
def Run.start (a : Arch) : Run :=
  { snap := a, count := 0, buf := [], commit := none, cmark := none, guard := none, claims := [], beacon := false,
    mates := [] }

/-- The claims of a thread dropped (R155). -/
def State.dropClaims (s : State) (r : TRef) : State := { s with claims := s.claims.filter fun c => c.2 != r }

/-- The present run of a thread discarded (R118): its register state is that of the run's start, its buffered
effects, its committing instruction and its claims are gone, and its loads and waits never happen. -/
def State.discardRun (s : State) (r : TRef) : State :=
  match s.thread r with
  | none => s
  | some t =>
    let mine := s.loads.filter fun l => l.who = r ∧ l.seq = t.seq
    let gone := mine.map (·.id)
    let regs := (mine.map fun l => l.dests.map (·.reg)).flatten ++
      ((s.waiters.filter fun w => w.who = r ∧ w.seq = t.seq).map fun w => w.dests.map (·.reg)).flatten
    let nw := (s.waiters.filter fun w => w.who = r ∧ w.seq = t.seq ∧ w.cls = .loads).length
    let t := { t with
      arch := t.run.snap
      run := Run.start t.run.snap
      acc := t.acc.map fun (a : AccState) => { a with out := [] }
      loads := t.loads - (mine.length + nw)
      busy := regs.foldl (fun b x => b.erase x) t.busy
      acq := t.acq.filter fun a => !(gone.contains a) }
    let s := { s with
      scReads := s.scReads.filter fun e => !(e.who = r ∧ e.run = none)
      loads := s.loads.filter fun l => !(l.who = r ∧ l.seq = t.seq)
      waiters := s.waiters.filter fun w => !(w.who = r ∧ w.seq = t.seq)
      walks := s.walks.map fun (w : Walk) => { w with who := w.who.filter fun x => x.1 != r }
      fab := { s.fab with remotes := s.fab.remotes.filter fun x =>
        match x.purpose with
        | .load i => !(gone.contains i)
        | _ => true } }
    (s.setThread r t).dropClaims r

/-! ### The end of threads and workgroups (R108, R128) -/

/-- One thread ends: its loads' values are discarded and it counts as exited. A committed QPOP that waits still takes its
entry; its value is discarded. -/
def State.endOne (s : State) (r : TRef) : State :=
  let s := s.dropFromQuad r
  let s := { s with
    loads := s.loads.filter fun l => l.who != r
    scReads := s.scReads.filter fun e => !(e.who = r ∧ e.run = none)
    waiters := (s.waiters.filter fun (w : Waiter) => !(w.who = r ∧ w.cls = Cls.loads ∧ w.kind.isPop = false)).map
      fun (w : Waiter) => if w.who = r ∧ w.cls = Cls.loads then { w with dests := [] } else w
    walks := s.walks.map fun (w : Walk) => { w with who := w.who.filter fun x => x.1 != r } }
  (s.modThread r fun t => { t with status := .exited, loads := 0, busy := [], acq := [], stop := none }).dropClaims r

/-- A thread ends, and with an execute thread its access thread (R128, 11_streamers.md R193). -/
def State.endThread (s : State) (r : TRef) : State :=
  let s := s.endOne r
  if r.acc then s else s.endOne { r with acc := true }

/-- Whether nothing of a workgroup is still on its way (19_scheduling.md R278). A pop that waits for a thread that has ended
writes nothing. -/
def State.wgDrained (s : State) (w : Nat) : Bool :=
  !(s.copies.any fun c => c.who.wg == w) && !(s.tileOps.any fun c => c.who.wg == w) &&
    !(s.tgens.any fun c => c.who.wg == w) && !(s.stores.any fun c => c.who.wg == w) &&
    !(s.held.any fun h => h.who.wg == w) && !(s.waiters.any fun c => c.who.wg == w && !(c.kind.isPop && c.dests.isEmpty)) &&
    !(s.loads.any fun c => c.who.wg == w) &&
    !(s.fab.remotes.any fun x => match x.purpose with
      | .atom r _ _ _ _ => r.wg == w
      | _ => false)

/-- The bytes of a workgroup's scratchpad footprint. -/
def Wg.footprint (g : Wg) : Nat := g.scratch + g.qbytes + g.staging
/-- The first key of a workgroup's scratchpad footprint, in its core or in its image (11_streamers.md R188). -/
def Wg.base (g : Wg) : Nat := if g.saved then kImage g.id 0 else kScratch (coreOfQuad g.quad) g.off

/-- The key of a byte of a workgroup's accumulator, side-memory or canopy allocation, in its quadrant or its image. -/
def Wg.accKey (g : Wg) (off : Nat) : Nat := if g.saved then kImage g.id (2 ^ 18 + off) else kAccum g.quad (g.accBase + off)
def Wg.sideKey (g : Wg) (off : Nat) : Nat := if g.saved then kImage g.id (2 ^ 19 + off) else kSide g.quad (g.sideBase + off)
def Wg.canKey (g : Wg) (lane off : Nat) : Nat :=
  if g.saved then kImage g.id (2 ^ 20 + lane * 2 ^ 15 + off) else kCanopy g.quad lane (g.canBase + off)

/-- The scratchpad key that a kept change is at. -/
def UndoItem.at' (u : UndoItem) : Option Nat :=
  match u with
  | .byte k _ _ => some k
  | .full k _ _ => some k
  | .rvOpen k _ _ => some k
  | .rvHold h _ => some h.key
  | .mark k => some k
  | _ => none

/-- The changes kept for undoing, but for those in places that go to a new owner (25_system.md R378). -/
def State.keepUndo (s : State) (gone : Nat → Bool) : List UndoRec := s.undo.filter fun u => !((u.item.at'.map gone).getD false)

/-- A whole range of canopy memory is written: the write generation of each of its blocks goes on by one (25_system.md R376). -/
def State.stepRange (s : State) (k n : Nat) : State :=
  if n = 0 ∨ k < 2 ^ 62 ∨ 2 ^ 63 ≤ k then s
  else if s.canRanges.any fun x => x.1 == k && x.2.1 == n then
    { s with canRanges := s.canRanges.map fun x => if x.1 = k ∧ x.2.1 = n then (k, n, x.2.2 + 1) else x }
  else { s with canRanges := s.canRanges ++ [(k, n, 1)] }

/-- The canopy allocation of a workgroup is written as a whole. -/
def State.stepCanopy (s : State) (g : Wg) : State :=
  if g.canLen = 0 then s else (List.range 64).foldl (fun (s : State) c => s.stepRange (g.canKey c 0) (g.canLen / 64)) s

/-- The write generation of a 64-byte block of canopy memory, by its number (25_system.md R376). -/
def State.canGen (s : State) (block : Nat) : Nat :=
  ((alook block s.canGens).getD 0 + ((s.canRanges.filter fun x => decide (x.1 ≤ 2 ^ 62 + 64 * block) &&
    decide (2 ^ 62 + 64 * block < x.1 + x.2.1)).map (·.2.2)).sum) % 2 ^ 48

/-- The memories of a workgroup zeroed and its full/empty bits empty; what is held at its rendezvous words goes (25_system.md
R378). -/
def State.zeroWg (s : State) (g : Wg) : State :=
  let s := s.stepCanopy g
  let m := s.mem.zero g.base g.footprint
  let m := m.zero (g.accKey 0) g.accLen
  let m := m.zero (g.sideKey 0) g.sideLen
  let m := (List.range 64).foldl (fun m c => m.zero (g.canKey c 0) (g.canLen / 64)) m
  let gone := fun (k : Nat) => decide (g.base ≤ k) && decide (k < g.base + g.footprint)
  { s with mem := m, full := s.full.filter fun k => !(gone k), rvHolds := s.rvHolds.filter fun h => !(gone h.key),
           rvOpen := s.rvOpen.filter fun k => !(gone k), undo := s.keepUndo gone,
           poisoned := s.poisoned.filter fun k => !(gone k),
           waiters := s.waiters.filter fun w => !(gone w.key && w.kind.isPop && w.dests.isEmpty) }

/-- A stage set whose ensemble has ended is free; its number keeps its GEN (16_maze.md R238). -/
def State.freeMazes (s : State) (l e : Nat) : State :=
  if s.wgs.any fun x => x.2.launch == l && x.2.ensid == e && !x.2.ended then s
  else { s with mazes := s.mazes.map fun m => if m.held = some (l, e) then { m with held := none } else m }

/-! ### Thread slots (R107, R128) -/

/-- The slot of an execute thread is in use: the thread has not ended, or something that it committed may still write to it
(R128). -/
def State.slotBusy (s : State) (r : TRef) : Bool :=
  ((s.thread r).map fun t => decide (t.status ≠ .exited)).getD true ||
    s.copies.any (fun c => c.who == r) || s.tileOps.any (fun o => o.who == r) || s.tgens.any (fun c => c.who == r) ||
    s.held.any (fun h => h.who == r && (h.exits || h.cmd.isSome)) || s.lodgeWaits.any (fun w => w.who == r)

/-- The thread slots of a quadrant that are free, the lowest first. -/
def State.freeSlots (s : State) (q : Nat) : List Nat :=
  let used := (s.wgs.filter fun x => x.2.quad == q && !x.2.saved).flatMap fun x =>
    (x.2.slots.zipIdx.filter fun y => s.slotBusy { wg := x.1, tid := y.2 }).map (·.1)
  (List.range 512).filter fun i => !(used.contains i)

/-- An execute thread past its last run, until that is released: it counts as exited, and a discard brings it back (R128, R329). -/
def State.exitOne (s : State) (r : TRef) : State :=
  ((s.dropFromQuad r).modThread r fun t => { t with status := .exited }).dropClaims r

/-- A workgroup ends when its last thread has and that thread's last run is released; its resources are released and zeroed when
nothing of it is still on its way (R108, R128, R278, R329). -/
def State.settleWg (s : State) (w : Nat) : State :=
  match s.wg w with
  | none => s
  | some g =>
    if ((s.threadsOf w).all fun x => x.1.acc || x.2.status = .exited) && !(s.held.any fun h => h.who.wg == w && h.exits) then
      let s := if g.ended then s else
        let s := s.modWg w fun g => { g with ended := true, opens := [] }
        let s := { s with lodges := s.lodges.map fun (l : Lodge) =>
          if g.opens.contains l.id && l.mirror.isSome then { l with dirty := true } else l }
        let s := s.modLaunch g.launch fun l => { l with ended := l.ended + 1 }
        s.freeMazes g.launch g.ensid
      if s.wgDrained w then
        let s := s.zeroWg g
        { s with wgs := adel w s.wgs, threads := s.threads.filter fun x => x.1 / 1024 != w }
      else s
    else s

/-- All threads of a workgroup have been killed: its commands that hold no channel will not start, those among them that
it has committed and that are not released (11_streamers.md R177). -/
def State.abortWork (s : State) (w : Nat) : State :=
  ({ s with
    copies := s.copies.map fun (c : Copy) => if c.who.wg = w ∧ c.started = false ∧ c.channel = false then { c with aborted := true } else c
    tgens := s.tgens.map fun (c : TGen) => if c.who.wg = w then { c with aborted := true } else c } : State).modWg w
      fun g => { g with killed := true }

/-- Every thread of a workgroup is killed, and its launch will end with CODE KILLED (R306, R313, R327). -/
def State.killWg (s : State) (w : Nat) : State :=
  let l := ((s.wg w).map (·.launch)).getD 0
  let s := forEach (fun s x => (s.discardRun x.1).endThread x.1) s (s.threadsOf w)
  ((s.modLaunch l fun x => { x with killed := true }).abortWork w).settleWg w

/-! ### Taking a fault (R302 to R306) -/

/-- The trap frame of a thread from its state at the run's start (R305); xc is the cross-lane count it saves. -/
def Arch.toFrame (a : Arch) (f : Option FaultInfo) (foff xc seq : Nat) : Frame :=
  { fault := f, pc := a.pc, foff := foff, regs := a.regs, preds := a.preds, ix := a.ix, fflags := a.fflags, rm := a.rm,
    xcount := xc, sup := a.sup, rstack := a.rstack, lpad := a.lpad, fseq := seq }

/-- The cross-lane count that a discarded run leaves (R130). DESIGN CHOICE (log entry 99): a run that is executed again and is
discarded before it has repeated the cross-lane instructions that it executes alone keeps their larger number; R130 speaks of
those of the present run. -/
def Arch.xsave (a : Arch) : Nat := max a.xcount a.alone

/-- What a handler finds: v0 the CAUSE, x2 (v4 and v5) the PC of the run's start, x4 (v8 and v9) ADDR and v6 INFO, as
far as the allotment reaches (R31, R304). -/
def Arch.handlerRegs (a : Arch) (f : FaultInfo) (pc : DWord) (allot : Nat) : Arch :=
  let put := fun (b : Arch) (r : Nat) (v : RegVal) => if r < allot then b.setReg r v else b
  let a := put a 0 (regN32 f.cause)
  let a := put (put a 4 (split64 pc).1) 5 (split64 pc).2
  let a := put (put a 8 (split64 f.addr).1) 9 (split64 f.addr).2
  put a 6 (regN32 f.info)

/-- A control register pair (R310), 0 where it is not aligned as the table asks. -/
def Part.pairReg (p : Part) (n align : Nat) : DWord :=
  let v := (alook (n + 1) p.cregs).getD 0 ++ (alook n p.cregs).getD 0
  if v.toNat % align = 0 then v else 0

/-- TVEC (R310). -/
def Part.tvec (p : Part) : DWord := p.pairReg 0x0C 2

/-- The handler entered on a frame that is written (R304, steps 2 to 4). -/
def State.enterHandler (s : State) (r : TRef) (f : FaultInfo) (fr : Frame) : State :=
  let allot := ((s.wg r.wg).map (·.allot)).getD 0
  let (n, s) := s.takeFresh
  let tv := (s.part (s.partOf r)).tvec
  let s := s.modThread r fun t =>
    let a := { t.arch with depth := 1, sup := true, frame := some fr, pc := tv, xcount := 0, alone := 0, lpad := none,
                           regs := t.arch.regs.newRun n }
    let a := a.handlerRegs f fr.pc allot
    { t with arch := a, run := Run.start a, deferred := none, defSeq := none, stop := none, busy := t.busy.filter fun x => !isHandlerReg x }
  (s.dropFromQuad r).makeReady r 0

/-- The present run of a thread has read before an SC fence of its own, and the fence of another thread has come between (R145; log
entry 61). -/
def State.spoiled (s : State) (r : TRef) (seq : Nat) : Bool :=
  s.scReads.any fun e => e.who = r && e.seq == seq && e.run.isNone && e.spoiled

/-- A thread halted at a run's start (R313, R316): its frame has the CAUSE given, or 0. -/
def State.haltThread (s : State) (r : TRef) (f : Option FaultInfo) : State :=
  let s := s.dropFromQuad r
  s.modThread r fun t =>
    let fr := t.arch.toFrame f 0 t.arch.alone t.seq
    let a := { t.arch with frame := some fr }
    { t with arch := a, run := Run.start a, status := .halted, stop := none }

/-- The run of a thread discarded, to be executed again: it then executes for itself alone the cross-lane instructions that it has
executed (R130). DEDUCED (log entry 101): so it is after a fault, a halt, a pre-emption and a replay alike, since the other members
do not meet it again. -/
def State.dropRun (s : State) (r : TRef) : State :=
  match s.thread r with
  | none => s
  | some t => (s.discardRun r).modThread r fun x =>
    { x with arch := { x.arch with alone := t.arch.xsave }, run := { x.run with snap := { x.run.snap with alone := t.arch.xsave } } }

/-- The run of a thread is discarded and will be executed again, or the thread halts there where that has been asked for (R118,
R313). -/
def State.redoRun (s : State) (r : TRef) : State :=
  match (s.thread r).bind (·.stop) with
  | some f => (s.dropRun r).haltThread r f
  | none => ((s.dropRun r).dropFromQuad r).makeReady r 0

/-- TAKING A FAULT: the fault f of the instruction with index foff in the present run of thread r. The run is
discarded and the fault is taken at its start. PMEMGROW parks the thread until the host driver serves it (R140); an
access thread stops for any other (11_streamers.md R193); a fault at depth 1 kills the workgroup (R306); any other enters the
supervisor's handler (R304). -/
def State.takeFault (s : State) (r : TRef) (f : FaultInfo) (foff : Nat) : State :=
  match s.thread r with
  | none => s
  | some t =>
    if s.spoiled r t.seq then s.redoRun r else
    let xc := t.arch.xsave
    let s := s.discardRun r
    if f.code = .pmemgrow then
      (s.dropFromQuad r).modThread r fun t =>
        { t with status := .parked (.pmemgrow f.addr), arch := { t.arch with alone := xc }
                 run := { t.run with snap := { t.run.snap with alone := xc } } }
    else if r.acc then
      (s.dropFromQuad r).modThread r fun t =>
        { t with status := .halted, deferred := none, defSeq := none, acc := t.acc.map fun a => { a with fault := some f } }
    else if t.arch.depth = 0 then
      match s.thread r with
      | none => s
      | some t => s.enterHandler r f (t.arch.toFrame (some f) foff xc t.seq)
    else
      let p := s.partOf r
      let l := ((s.wg r.wg).map (·.launch)).getD 0
      (s.killWg r.wg).meterEvent 2 p (natLe 8 l ++ natLe 4 f.cause.toNat)

/-- THE RETURN FROM A FAULT (R313): the thread takes its state from its frame, at depth 0 and in the frame's mode,
and is filed at the frame's PC under key 0. -/
def State.returnFromTrap (s : State) (r : TRef) : State :=
  let (n, s) := s.takeFresh
  let s := s.modThread r fun t =>
    match t.arch.frame with
    | none => t
    | some f =>
      let a : Arch := { pc := f.pc, regs := f.regs.newRun n, preds := f.preds, ix := f.ix, fflags := f.fflags, rm := f.rm,
                        rstack := f.rstack, xcount := 0, alone := f.xcount, sup := f.sup, depth := 0, frame := some f,
                        lpad := f.lpad, skips := t.arch.skips }
      { t with arch := a, run := Run.start a }
  s.makeReady r 0

/-- The threads of a quadrant that are ready at a cycle (R127). -/
def Quad.readyThreads (q : Quad) (now : Nat) : List TRef :=
  (q.bins.flatMap fun b => b.2.members.map (·.1)) ++ q.unfiled.map (·.1) ++
    (q.filing.filter fun x => decide (x.2.1 ≤ now)).map (·.1) ++ q.resume.flatMap (·.2)

/-- A thread past its run that does not exit: its terminator takes effect, or a halt that was asked for takes place first
(R112, R127, R135, R313). -/
def State.proceed (s : State) (r : TRef) (post : TStatus) : State :=
  match s.thread r with
  | none => s
  | some t => match t.stop with
    | some f => s.haltThread r f
    | none => match post with
      | .ready _ v => s.makeReady r v
      | .trailer l st c ti aw => (s.modThread r fun t => { t with status := .trailer l st c ti aw }).tryReady r
      | .yielded =>
        let s := s.modThread r fun t => { t with status := .yielded }
        s.modQuad (s.quadOf r) fun q => { q with yields := q.yields ++ [{ who := r, recorded := q.readyThreads s.clock }] }
      | x => s.modThread r fun t => { t with status := x }

/-- The answer of a committing instruction is there: a thread parked for it goes on (16_maze.md R253, 18_lodges.md R262). -/
def State.replied (s : State) (r : TRef) : State :=
  match s.thread r with
  | some t => if t.status = .parked .reply then s.proceed r t.post else s
  | none => s

/-! ### Instructions within a run (R115, R123) -/

/-- A thread past an instruction of its run: the PC advances, the run holds one instruction more, and a guarded
range one less. -/
def Thread.pass (t : Thread) (size : Nat) : Thread :=
  { t with
    arch := { t.arch with pc := t.arch.pc + BitVec.ofNat 64 size }
    run := { t.run with
      count := t.run.count + 1
      guard := t.run.guard.bind fun g => if g.left ≤ 1 then none else some { g with left := g.left - 1 } } }
def State.pass (s : State) (r : TRef) (size : Nat) : State := s.modThread r fun t => t.pass size

end Sys2Proof.Machine
end

