-- ==== Sys2Proof/Machine/Link.lean ====
section
/-! DEFINITION. The words of a flit and its CRC, and the sending side of the scale-up and scale-out ports
(22_fabric_host.md R332 to R337, R344, R352). -/

namespace Sys2Proof.Machine

/-! ### Flits (R332) -/

/-- One bit of the CRC's division, the most significant bit first. -/
def crcBit (c : DWord) : DWord := if c.getLsbD 63 then (c <<< 1) ^^^ 0x42F0E1EBA9EA3693 else c <<< 1

/-- A byte taken into the CRC. -/
def crcByte (c : DWord) (b : Byte) : DWord :=
  let x := c ^^^ (b.setWidth 64 <<< 56)
  crcBit (crcBit (crcBit (crcBit (crcBit (crcBit (crcBit (crcBit x)))))))

/-- CRC-64 with the ECMA-182 polynomial, initial value 0 and no final inversion (R332). -/
def crc64 (bs : List Byte) : DWord := bs.foldl crcByte 0

/-- The header of a flit as one number (R332). -/
def Flit.header (f : Flit) : Nat :=
  f.seq % 2 ^ 16 + f.ack % 2 ^ 16 * 2 ^ 16 + f.type % 16 * 2 ^ 32 + f.dstMod % 2 ^ 14 * 2 ^ 36 + f.srcMod % 2 ^ 14 * 2 ^ 50 +
    f.dstPart % 32 * 2 ^ 64 + f.srcPart % 32 * 2 ^ 69 + f.gen % 1024 * 2 ^ 74 + f.epoch % 2 ^ 32 * 2 ^ 84 +
    f.len % 512 * 2 ^ 116 + f.paddr % 2 ^ 50 * 2 ^ 125 + f.tid % 2 ^ 16 * 2 ^ 175

/-- The 280 bytes that the CRC covers. -/
def Flit.covered (f : Flit) : List Byte := natLe 24 f.header ++ (f.body ++ List.replicate 256 0).take 256
/-- The 288 bytes of a flit. -/
def Flit.bytes (f : Flit) : List Byte := f.covered ++ natLe 8 (crc64 f.covered).toNat

/-- The fields of 288 bytes. -/
def Flit.parse (b : List Byte) : Flit :=
  let h := leNat (b.take 24)
  let at' := fun (lo n : Nat) => h / 2 ^ lo % 2 ^ n
  { seq := at' 0 16, ack := at' 16 16, type := at' 32 4, dstMod := at' 36 14, srcMod := at' 50 14, dstPart := at' 64 5,
    srcPart := at' 69 5, gen := at' 74 10, epoch := at' 84 32, len := at' 116 9, paddr := at' 125 50, tid := at' 175 16,
    body := (b.drop 24).take 256 }

/-- The CRC of 288 bytes holds. -/
def crcHolds (b : List Byte) : Bool := b.length == 288 && leNat ((b.drop 280).take 8) == (crc64 (b.take 280)).toNat

/-! ### Ports (R334, R335, R344) -/

def State.port (s : State) (n : Nat) : Port := (alook n s.fab.ports).getD {}
def State.modPort (s : State) (n : Nat) (f : Port → Port) : State :=
  { s with fab := { s.fab with ports := aput n (f (s.port n)) s.fab.ports } }

/-- A flit takes the next SEQ and is sent; it is held until an ACK covers it. The ACK in it stands for every flit accepted
(R334). -/
def Port.put (p : Port) (us : Nat) (f : Flit) : Port :=
  let f := { f with seq := p.seq, ack := (p.expect + 65535) % 65536 }
  { p with seq := (p.seq + 1) % 65536, held := p.held ++ [(p.seq, us, f)], unacked := 0 }

/-- A flit may be sent (R334, R335). -/
def Port.may (p : Port) : Bool := !p.down && !p.retraining && decide (p.held.length < 2048)

/-- Waiting flits are sent as far as they may be. -/
def Port.drain (us : Nat) : Nat → Port → Port
  | 0, p => p
  | n + 1, p => if p.may then match p.waiting with
      | [] => p
      | f :: l => ({ p with waiting := l }.put us f).drain us n
    else p

/-- A flit handed to a port. -/
def State.sendFlit (s : State) (n : Nat) (f : Flit) : State :=
  s.modPort n fun p => ({ p with waiting := p.waiting ++ [f] } : Port).drain s.us (p.waiting.length + 1)

/-- The port to a module: (DSTMOD + n) mod 12 for the smallest n that gives one that is not down (R344). -/
def State.portFor (s : State) (m : Nat) : Option Nat :=
  ((List.range 12).map fun n => (m + n) % 12).find? fun n => !(s.port n).down

/-- A port that was chosen for a module, as long as it is not down; otherwise it is chosen anew (R344). -/
def State.portOr (s : State) (m : Nat) (chosen : Option Nat) : Option Nat :=
  match chosen with
  | some n => if (s.port n).down then s.portFor m else some n
  | none => s.portFor m

/-! ### Requests to another module (R332, R337 to R339) -/

/-- An address of the peer launch window (R337, R342). -/
def isWindow (pa : Nat) : Bool := decide (0xFFFFFFF0000 ≤ pa % 2 ^ 44)

/-- The flit of a request; its TID is the low bits of its number. -/
def State.requestFlit (s : State) (x : Remote) : Flit :=
  { type := x.type, dstMod := x.mod, srcMod := s.fab.modId, srcPart := x.part, gen := (s.part x.part).gen,
    epoch := (s.part x.part).epoch, len := x.body.length, paddr := x.paddr, tid := x.id % 2 ^ 16, body := x.body }

/-- The frames to a module of another domain (R352). A pair that is new uses the scale-out port of its domain's parity. -/
def State.pairFor (s : State) (dom m : Nat) : ScalePair :=
  (s.fab.pairs.find? fun p => p.dom == dom && p.mod == m).getD
    { port := dom % 2, dom := dom, mod := m, fseq := 0, expect := 0, held := [] }
def State.setPair (s : State) (x : ScalePair) : State :=
  { s with fab := { s.fab with pairs := x :: s.fab.pairs.filter fun p => !(p.dom == x.dom && p.mod == x.mod) } }

/-- A frame sent to a module of another domain: it is held until it is acknowledged (R352). -/
def State.sendFrame (s : State) (dom m : Nat) (f : Flit) : State :=
  let x := s.pairFor dom m
  s.setPair { x with fseq := (x.fseq + 1) % 65536, told := x.fack, held := x.held ++ [(x.fseq, s.us, f)] }

/-- Bytes that a partition sends or receives over the links (25_system.md R379). -/
def State.meterLink (s : State) (p n : Nat) : State :=
  if (s.part p).defined then s.modPart p fun x => { x with meter := { x.meter with linkBytes := x.meter.linkBytes + n } } else s

/-- A request goes out and is outstanding; it has failed when no response is there after 2 ms (R339). -/
def State.addRemote (s : State) (x : Remote) : State :=
  let f := s.requestFlit x
  let far := x.paddr / 2 ^ 44
  let n := if far = s.fab.domain then s.portOr x.mod x.port else none
  let s := { s with fab := { s.fab with remotes := s.fab.remotes ++ [{ x with port := n, deadline := s.us + 2000, gen := (s.part x.part).gen }] } }
  let s := s.meterLink x.part x.body.length
  if far = s.fab.domain then
    match n with
    | some n => s.sendFlit n f
    | none => s
  else s.sendFrame far x.mod f

/-! ### Reads of other modules' memory by commands (R338, R339) -/

/-- A command's read of a place of another module, if it has been asked for. -/
def State.farRead (s : State) (owner m pa n : Nat) : Option FarRead :=
  s.fab.farReads.find? fun x => x.owner == owner && x.mod == m && x.paddr == pa && x.len == n

/-- One of a command's reads is still under way. -/
def State.farPending (s : State) (owner : Nat) : Bool := s.fab.farReads.any fun x => x.owner == owner && !x.done

/-- The places, each a module, an address and a number of bytes, whose reads a command still has to ask for or to wait for. -/
def State.farMissing (s : State) (owner : Nat) (l : List (Nat × Nat × Nat)) : List (Nat × Nat × Nat) :=
  l.filter fun x => ((s.farRead owner x.1 x.2.1 x.2.2).map (·.done)) != some true

/-- A command asks for the places that it has not asked for yet. -/
def State.askFar (s : State) (owner part : Nat) (l : List (Nat × Nat × Nat)) : State :=
  forEach (fun (s : State) (x : Nat × Nat × Nat) =>
    if (s.farRead owner x.1 x.2.1 x.2.2).isSome then s
    else
      let (j, s) := s.takeId
      let s := { s with fab := { s.fab with farReads := s.fab.farReads ++
        [({ owner := owner, mod := x.1, paddr := x.2.1, len := x.2.2, req := j } : FarRead)] } }
      s.addRemote { id := j, purpose := RemoteFor.far, part := part, mod := x.1, type := 1, paddr := x.2.1, body := natLe 1 x.2.2 }) s l

/-- A read has ended with a code of R177, 0 where its bytes are there. -/
def State.farDone (s : State) (req code : Nat) (data : List Byte) : State :=
  { s with fab := { s.fab with farReads := s.fab.farReads.map fun (x : FarRead) =>
      if x.req = req then { x with done := true, code := code, data := data } else x } }

/-- A command that has read what it needs keeps none of it. -/
def State.dropFar (s : State) (owner : Nat) : State :=
  { s with fab := { s.fab with farReads := s.fab.farReads.filter fun x => x.owner != owner } }

end Sys2Proof.Machine
end

