-- ==== Sys2Proof/Machine/Memory.lean ====
section
/-! DEFINITION. Addresses, translation, and the performing of loads and stores: scratchpad with its full/empty bits
and monitors, the L1 caches and the home slices (08_memory.md R136 to R158, 21_faults.md R318 to R321). -/

namespace Sys2Proof

/-- A scope of at least CL: reads go past the L1's clean copies, and writes leave the core. -/
def Scope.wide (sc : Scope) : Bool := sc != .wg
/-- DV or SY (R393). -/
def Scope.device (sc : Scope) : Bool := sc == .dv || sc == .sy

end Sys2Proof

namespace Sys2Proof.Machine

/-! ### Scratchpad addresses (R33, R138) -/

/-- The generic addresses that go to scratchpad (R33). -/
def inScratchRange (a : DWord) : Bool := a.toNat / 2 ^ 32 == 0xFFFFFF00
/-- Bits 63:57 equal bit 56 (R137). -/
def isCanonical (a : DWord) : Bool := a.toNat / 2 ^ 56 == 0 || a.toNat / 2 ^ 56 == 255

/-- The byte a scratchpad address names for a thread of a core; none where the address names no core (R138). -/
def scratchKey (core : Nat) (w : Word) : Option Nat :=
  let c := w.toNat / 2 ^ 19 % 16
  if w.toNat / 2 ^ 23 ≠ 0 then none
  else if c = 15 then some (kScratch core (w.toNat % 2 ^ 19))
  else if c < 8 then some (kScratch (clusOfCore core * 8 + c) (w.toNat % 2 ^ 19))
  else none

/-- A fault at an address. -/
def faultAt (c : Code) (a : DWord) (k : Access) (scr : Bool) : FaultInfo :=
  { code := c, addr := a, access := k, scratch := scr }

/-- The bytes of a lodge page. -/
def pageBytes : Nat := 4096

/-- The scratchpad of a workgroup: its SCRATCH and queue bytes (11_streamers.md R188). -/
def Wg.holds (g : Wg) (k len : Nat) : Bool := decide (g.base ≤ k) && decide (k + len ≤ g.base + g.scratch + g.qbytes)

/-- The pages of a lodge hold a range of keys. -/
def Lodge.holds (l : Lodge) (k len : Nat) : Bool :=
  (l.st == .live || l.st == .moving) && l.running.isNone && decide (kScratch l.core l.off ≤ k) &&
    decide (k + len ≤ kScratch l.core l.off + l.pages * pageBytes)

/-- The workgroups of a workgroup's ensemble. -/
def State.ensemble (s : State) (g : Wg) : List Wg :=
  (s.wgs.map (·.2)).filter fun h => h.launch == g.launch && h.ensid == g.ensid && !h.ended

/-- The scratchpad bytes that a workgroup may reach (R138, 18_lodges.md R259): those of a workgroup that has ended are
its own until they are released (19_scheduling.md R278). -/
def State.mayScratch (s : State) (g : Wg) (k len : Nat) : Bool :=
  (s.wgs.any fun x => x.2.launch == g.launch && x.2.ensid == g.ensid && x.2.holds k len) ||
    s.lodges.any fun l => l.part == g.part && g.opens.contains l.id && l.holds k len

/-- A physical address of this module's HBM that is another partition's (25_system.md R378). -/
def State.foreign (s : State) (p pa : Nat) : Bool :=
  s.parts.any fun x => x.1 != p && x.2.defined && decide (x.2.lim.hbmBase ≤ pa) &&
    decide (pa < x.2.lim.hbmBase + x.2.lim.hbmSize)

/-- Scratchpad and HBM that an access of a thread's workgroup was permitted to reach have not gone to a new owner since; what then
arrives is refused (25_system.md R378). -/
def State.still (s : State) (r : TRef) (k len : Nat) : Bool :=
  match s.wg r.wg with
  | none => !(isScratch k)
  | some g =>
    if isScratch k then s.mayScratch g k len || (g.ended && s.lodges.any fun l => l.part == g.part && l.holds k len)
    else !(decide (k < hbmBytes) && (s.foreign g.part k || s.foreign g.part (k + len - 1)))

/-- The place in an image of a byte of scratchpad that a saved ensemble had (19_scheduling.md R287). -/
def State.inImage (s : State) (g : Wg) (k : Nat) : Nat :=
  let at' := fun (x : Wg) => kScratch (coreOfQuad x.quad) x.off
  match (g :: (s.wgs.map (·.2)).filter fun x => x.launch == g.launch && x.ensid == g.ensid).find? fun x =>
    x.saved && decide (at' x ≤ k) && decide (k < at' x + x.footprint) with
  | some x => kImage x.id (k - at' x)
  | none => k

/-- The first byte of a scratchpad access, or XLATE or PROT (R138). That of a workgroup which is saved lies in the images of its
ensemble (19_scheduling.md R287). -/
def State.scratchAt (s : State) (g : Wg) (w : Word) (len : Nat) : Except Code Nat :=
  match scratchKey (coreOfQuad g.quad) w with
  | none => .error .xlate
  | some k =>
    let k := if g.saved then s.inImage g k else k
    if s.mayScratch g k len then .ok k else .error .prot

/-! ### Uncorrectable data (R330, R331) -/

/-- The key of the codeword that holds a byte: 32 bytes of HBM, or a word of SRAM (R330, R331). -/
def codeword (k : Nat) : Nat := if isScratch k then wordKey k else k - k % 32

/-- A read touches a poisoned codeword (R331). -/
def State.isPoisoned (s : State) (k : Nat) : Bool := s.poisoned.contains (codeword k)

/-- One of n bytes from a key on lies in a poisoned codeword. -/
def State.poisonedIn (s : State) (k n : Nat) : Bool := (List.range n).any fun i => s.isPoisoned (k + i)

/-! ### Page tables (R318 to R320) -/

/-- A level of the walk: the lowest index bit, the index's bits and whether a leaf is permitted. -/
structure Level where
  shift : Nat
  bits : Nat
  leafOk : Bool
  deriving DecidableEq, Repr

/-- The five levels (R318). -/
def levels : List Level := [⟨48, 9, false⟩, ⟨39, 9, false⟩, ⟨30, 9, true⟩, ⟨21, 9, true⟩, ⟨16, 5, true⟩]

/-- A translation: the page and what its entry grants. -/
structure Trans where
  base : Nat
  size : Nat
  pa : Nat
  tgt : Nat
  mod : Nat
  r : Bool
  w : Bool
  x : Bool
  sup : Bool
  deriving DecidableEq, Repr

/-- A field of an entry. -/
def entBits (e lo n : Nat) : Nat := e / 2 ^ lo % 2 ^ n

/-- A walk from a table on; none where it meets an invalid entry (R319). -/
def walkFrom (m : Memory) (va tbl : Nat) : List Level → Option Trans
  | [] => none
  | lv :: rest =>
    let ea := tbl + 8 * (va / 2 ^ lv.shift % 2 ^ lv.bits)
    if hbmBytes < ea + 8 then none else
    let e := leNat (m.readN (kHbm ea) 8)
    let tgt := entBits e 6 2
    let mod := entBits e 50 14
    let pa := entBits e 12 38 * 2 ^ 12
    if entBits e 0 1 = 0 ∨ entBits e 8 4 ≠ 0 ∨ tgt = 3 ∨ (tgt ≠ 2 ∧ mod ≠ 0) ∨ 9216 ≤ mod then none
    else if entBits e 1 1 = 1 then
      if lv.leafOk = true ∧ pa % 2 ^ lv.shift = 0 ∧ (tgt = 0 → pa + 2 ^ lv.shift ≤ hbmBytes) then
        some { base := va - va % 2 ^ lv.shift, size := 2 ^ lv.shift, pa := pa, tgt := tgt, mod := mod,
               r := entBits e 2 1 == 1, w := entBits e 3 1 == 1, x := entBits e 4 1 == 1, sup := entBits e 5 1 == 1 }
      else none
    else if tgt ≠ 0 ∨ rest = [] then none
    else walkFrom m va pa rest

/-- The entries that a walk from a table on reads (R318), by their physical addresses. -/
def walkReads (m : Memory) (va tbl : Nat) : List Level → List Nat
  | [] => []
  | lv :: rest =>
    let ea := tbl + 8 * (va / 2 ^ lv.shift % 2 ^ lv.bits)
    let e := leNat (m.readN (kHbm ea) 8)
    if hbmBytes < ea + 8 then []
    else if entBits e 0 1 = 1 ∧ entBits e 1 1 = 0 ∧ entBits e 6 2 = 0 ∧ entBits e 8 4 = 0 ∧ entBits e 50 14 = 0 then
      ea :: walkReads m va (entBits e 12 38 * 2 ^ 12) rest
    else [ea]

/-- The 57 bits of a canonical address that the walk indexes (R137, R318). -/
def vaIndex (a : DWord) : Nat := a.toNat % 2 ^ 57

/-- PTBASE of a partition (R310). -/
def Part.ptbase (p : Part) : Nat := (p.pairReg 0x10 4096).toNat

/-- The walk of an address of a partition (R318). -/
def State.walkVa (s : State) (p : Nat) (a : DWord) : Option Trans :=
  if isCanonical a then walkFrom s.mem (vaIndex a) (s.part p).ptbase levels else none

/-- The walk of an address reads an entry that is uncorrectable (R331). -/
def State.walkBad (s : State) (p : Nat) (a : DWord) : Bool :=
  isCanonical a && (walkReads s.mem (vaIndex a) (s.part p).ptbase levels).any fun ea => s.isPoisoned (kHbm ea)

/-- What an access needs of a page (R320). -/
def Trans.grants (t : Trans) (sup : Bool) (k : Access) : Bool :=
  (sup || !t.sup) && (match k with
    | .store => t.w
    | .atomic => t.r && t.w
    | .fetch => t.x
    | _ => t.r)

/-- Where a byte of a page lies (R136, R319). -/
def Trans.loc (t : Trans) (a : DWord) : Loc :=
  let pa := t.pa + (vaIndex a - t.base)
  if t.tgt = 0 then .key (kHbm pa) else if t.tgt = 1 then .key (kHost pa) else .remote t.mod pa

/-- A translation checked for an access: PROT where the page does not grant it, or is another partition's. -/
def State.checkPage (s : State) (p : Nat) (sup : Bool) (k : Access) (t : Trans) (a : DWord) : Except Code Loc :=
  if !t.grants sup k then .error .prot
  else match t.loc a with
    | .key pa => if t.tgt = 0 ∧ s.foreign p pa = true then .error .prot else .ok (.key pa)
    | l => .ok l

/-- The access of an engine, a walker or the dispatcher, which translates without a TLB (R320, R394). -/
def State.engineAt (s : State) (p : Nat) (sup : Bool) (k : Access) (a : DWord) : Except Code Loc :=
  if s.walkBad p a then .error .uncorr
  else match s.walkVa p a with
  | none => .error .xlate
  | some t => s.checkPage p sup k t a

/-! ### Mirrors (18_lodges.md R267) -/

/-- MIRBASE (R310). -/
def Part.mirbase (p : Part) : DWord := p.pairReg 0x14 65536

/-- The places of the 64 KiB parts of a mirror slot, where each is mapped supervisor-only with R and W (R267). -/
def State.mirrorParts (s : State) (p slot : Nat) : Option (List Nat) :=
  let b := (s.part p).mirbase
  if b = 0 then none
  else
    let one := fun (j : Nat) =>
      let a := b + BitVec.ofNat 64 (slot * 2 ^ 18 + j * 2 ^ 16)
      match s.walkVa p a with
      | some t => if t.sup && t.r && t.w then (match t.loc a with
          | .key k => some k
          | _ => none) else none
      | none => none
    let xs := (List.range 4).filterMap one
    if xs.length = 4 then some xs else none

/-- A range of keys copied over another. -/
def Memory.copyRange (m : Memory) (src dst n : Nat) : Memory :=
  (m.filter fun c => decide (src ≤ c.1) && decide (c.1 < src + n)).foldl
    (fun m c => Memory.write m (dst + (c.1 - src)) c.2) (m.zero dst n)

/-! ### Lines that home slices hold (R12, R15, R166) -/

/-- Bytes written to one key after another, none of them logged. -/
def putBytes (m : Memory) (bs : List (Nat × Byte)) : Memory := bs.foldl (fun m b => Memory.write m b.1 b.2) m

/-- A byte of this module's HBM. -/
def isHbm (k : Nat) : Bool := decide (k < 2 ^ 60)

/-- A home slice holds the line of a byte (R15). -/
def State.sliceHas (s : State) (k : Nat) : Bool := (alook (lineKey k) s.l2).isSome

/-- The byte of backing memory, which is not coherent with the home slices (22_fabric_host.md R354). -/
def State.backByte (s : State) (k : Nat) : Byte := (alook k s.back).getD (Memory.read s.mem k)

/-- The partition whose HBM a key lies in. -/
def State.hbmOwner (s : State) (k : Nat) : Option Nat :=
  (s.parts.find? fun x => x.2.defined && decide (kHbm x.2.lim.hbmBase ≤ k) && decide (k < kHbm x.2.lim.hbmBase + x.2.lim.hbmSize)).map (·.1)

/-- A line of 128 bytes moves between HBM and its home slice: the meter counts it for its partition (25_system.md R379; DEDUCED, log
entry 111). -/
def State.lineMoved (s : State) (l : List (Nat × Nat)) (k : Nat) : List (Nat × Nat) :=
  match s.hbmOwner k with
  | some p => aput p ((alook p l).getD 0 + 128) l
  | none => l

/-- The line of a byte is brought into its home slice (R166). -/
def State.takeLine (s : State) (k : Nat) : State :=
  if isHbm k && !(s.sliceHas k) then { s with l2 := aput (lineKey k) false s.l2, hbmMoved := s.lineMoved s.hbmMoved k } else s

/-- The line of a byte leaves its home slice. One that was written there, or that is to be written back, goes to its backing
memory (R166); of another one the backing memory stays as it is. -/
def State.dropLine (s : State) (k : Nat) (write : Bool) : State :=
  match alook (lineKey k) s.l2 with
  | none => s
  | some dirty =>
    { s with l2 := adel (lineKey k) s.l2, hbmMoved := if dirty || write then s.lineMoved s.hbmMoved k else s.hbmMoved,
             back := s.back.filter fun b => lineKey b.1 != lineKey k,
             mem := if dirty || write then s.mem else putBytes s.mem (s.back.filter fun b => lineKey b.1 == lineKey k) }

/-- The home slices hold the lines of bytes that are written there, and the backing memory keeps its own until they leave. -/
def State.sliceWrite (s : State) (ks : List Nat) : State :=
  let hs := ks.filter isHbm
  let new := (hs.map lineKey).dedup.filter fun k => !(s.sliceHas k)
  { s with hbmMoved := new.foldl s.lineMoved s.hbmMoved,
           l2 := (hs.map lineKey).dedup.foldl (fun l k => aput k true l) s.l2,
           back := hs.foldl (fun m k => if (alook k m).isNone then aput k (Memory.read s.mem k) m else m) s.back }

/-- A range of bytes copied over one of HBM, whose lines its home slices then hold. -/
def State.copyHome (s : State) (src dst n : Nat) : State :=
  let m := Memory.copyRange s.mem src dst n
  let ks := ((s.mem ++ m).filter fun c => decide (dst ≤ c.1) && decide (c.1 < dst + n)).map (·.1)
  { s.sliceWrite ks with mem := m }

/-- The pages of a lodge copied to its mirror; none where the mirror cannot be written (R267, R394). -/
def State.mirrorCopy (s : State) (l : Lodge) : Option State :=
  match l.mirror with
  | none => some s
  | some slot => (s.mirrorParts l.part slot).map fun ks =>
    let n := l.pages * pageBytes
    let s := ks.zipIdx.foldl (fun s k =>
      s.copyHome (kScratch l.core l.off + k.2 * 65536) k.1 (min 65536 (n - k.2 * 65536))) s
    { s with lodges := s.lodges.map fun (x : Lodge) => if x.id = l.id then { x with dirty := false } else x }

/-- The mirrored lodges that a thread's workgroup holds open, with their pages in place. -/
def State.mirrored (s : State) (r : TRef) : List Lodge :=
  match s.wg r.wg with
  | none => []
  | some g => s.lodges.filter fun l => g.opens.contains l.id && l.mirror.isSome && (l.st == .live || l.st == .moving)

/-- A release of a holder of mirrored lodges may be performed: their mirrors can be written (R267). -/
def State.mirrorOk (s : State) (r : TRef) : Bool := (s.mirrored r).all fun l => (s.mirrorCopy l).isSome

/-- The mirrors of a thread's lodges brought up to date before its release is performed (R267). -/
def State.mirrorFor (s : State) (r : TRef) : State := (s.mirrored r).foldl (fun s l => (s.mirrorCopy l).getD s) s

/-! ### Home slices (R15, R152, R331) -/

/-- The key of a byte in a core's L1. -/
def l1Key (core k : Nat) : Nat := core * 2 ^ 70 + k

/-- Bytes of consecutive keys. -/
def bytesAt (k : Nat) (l : List Byte) : List (Nat × Byte) := l.zipIdx.map fun x => (k + x.2, x.1)

/-- A byte of host memory. -/
def isHost (k : Nat) : Bool := decide (2 ^ 60 ≤ k) && decide (k < 2 ^ 61)

/-- The die on which a line of host memory is homed: that of the core that issued the access (R15). Of a write that no core
issues, it is the die that holds the line, or else die 0. -/
def State.hostDie (s : State) (core : Option Nat) (line : Nat) : Nat :=
  match core with
  | some c => c / 96
  | none => (alook line s.sys.hostLines).getD 0

/-- Bytes written at home, by a core or by another agent: a codeword that they cover whole loses its poison (R331), and lines of
host memory are held under CXL.cache (22_fabric_host.md R353). -/
def State.homeWrite (s : State) (bs : List (Nat × Byte)) (core : Option Nat := none) : State :=
  let ks := bs.map (·.1)
  let clear := fun c => (List.range 32).all fun i => ks.contains (c + i)
  let host := ((ks.filter isHost).map lineKey).dedup
  { s.sliceWrite ks with
    mem := putBytes s.mem bs
    poisoned := s.poisoned.filter fun c => !clear c
    sys := { s.sys with hostLines := host.foldl (fun l k => aput k (s.hostDie core k) l) s.sys.hostLines } }

/-- The home slice of a line, of the module's 64: one of the 32 of its die (R9, R15). A line of stacks 0 to 3 is homed on die 0,
one of stacks 4 to 7 on die 1. Which stack and which slice of the die it is, is the part's. -/
def State.sliceOf (s : State) (k : Nat) : Nat :=
  let line := lineKey k
  let die := if isHbm k then Config.stackOf line % 8 / 4 else (alook line s.sys.hostLines).getD 0 % 2
  32 * die + Config.homeSlice line % 32

/-! ### Scratchpad words (R14, R154, R155) -/

def State.isFull (s : State) (k : Nat) : Bool := s.full.contains (wordKey k)
/-- A full/empty bit set, kept in the state as a sorted list of full words. -/
def insNat (k : Nat) : List Nat → List Nat
  | [] => [k]
  | j :: l => if k < j then k :: j :: l else if k = j then j :: l else j :: insNat k l

/-- The change kept for as long as a run may still be discarded (R328). -/
def State.note (s : State) (run : Option Nat) (u : UndoItem) : State :=
  if run = none ∧ s.undo = [] then s else { s with undo := s.undo ++ [{ run := run, item := u }] }

/-- A full/empty bit changed, for a run if one is named. -/
def State.setFull (s : State) (run : Option Nat) (k : Nat) (b : Bool) : State :=
  let w := wordKey k
  let s := s.note run (.full w (s.isFull w) b)
  { s with full := if b then insNat w s.full else s.full.filter (· != w) }

/-- The marks of scratchpad words that some bytes cover whole cleared, for a run if one is named (R331). -/
def State.clearMarks (s : State) (run : Option Nat) (ks : List Nat) : State :=
  let gone := s.poisoned.filter fun c => isScratch c && (List.range 4).all fun i => ks.contains (c + i)
  gone.foldl (fun s c => { s.note run (.mark c) with poisoned := s.poisoned.filter (· != c) }) s

/-- A scratchpad byte written, for a run if one is named. -/
def State.poke (s : State) (run : Option Nat) (k : Nat) (b : Byte) : State :=
  let s := s.note run (.byte k (Memory.read s.mem k) b)
  { s with mem := Memory.write s.mem k b }
def State.pokes (s : State) (run : Option Nat) (bs : List (Nat × Byte)) : State :=
  (bs.foldl (fun s b => s.poke run b.1 b.2) s).clearMarks run (bs.map (·.1))

/-- A word claimed by a thread other than the one named (R155). -/
def State.claimed (s : State) (k : Nat) (who : Option TRef) : Bool :=
  s.claims.any fun c => c.1 == wordKey k && some c.2 != who

/-- A word of a range claimed by a thread other than the one named. -/
def State.claimedIn (s : State) (k n : Nat) (who : Option TRef) : Bool :=
  s.claims.any fun c => decide (wordKey k ≤ c.1) && decide (c.1 < k + n) && some c.2 != who

/-- An L1 byte changed, for a run if one is named. -/
def State.l1Put (s : State) (run : Option Nat) (core k : Nat) (c : Option L1Cell) : State :=
  let j := l1Key core k
  let pack := fun (x : Option L1Cell) => x.map fun c => (c.val, c.dirty, c.rel, c.due)
  let s := s.note run (.l1 core k (pack (alook j s.l1)) (pack c))
  { s with l1 := match c with
    | some c => aput j c s.l1
    | none => adel j s.l1 }

/-- The dirty bytes of a core that may leave it, of one line or of all (R152, R328). -/
def State.dirtyOf (s : State) (core : Nat) (line : Option Nat) : List (Nat × Byte) :=
  (s.l1.filter fun c => c.1 / 2 ^ 70 == core && c.2.dirty && decide (c.2.rel ≤ s.clock) &&
    (line == none || line == some (lineKey (c.1 % 2 ^ 70)))).map fun c => (c.1 % 2 ^ 70, c.2.val)

/-- The core holds dirty bytes that may not leave it yet (R328). -/
def State.freshL1 (s : State) (core : Nat) (line : Option Nat) : Bool :=
  s.l1.any fun c => c.1 / 2 ^ 70 == core && c.2.dirty && decide (s.clock < c.2.rel) &&
    (line == none || line == some (lineKey (c.1 % 2 ^ 70)))

/-- The core holds dirty bytes among n from a key on. -/
def State.l1Dirty (s : State) (core k n : Nat) : Bool :=
  (List.range n).any fun i => match alook (l1Key core (k + i)) s.l1 with
    | some c => c.dirty
    | none => false

/-- The dirty bytes of a core written to their home slices; the copies stay, clean (R152, R166). The notes of a core go once all
that it wrote before their releases is at home (R150). -/
def State.writeBack (s : State) (core : Nat) (line : Option Nat) : State :=
  let bs := s.dirtyOf core line
  let s := s.homeWrite bs (some core)
  { s with l1 := s.l1.map fun c =>
      if bs.any (fun b => l1Key core b.1 == c.1) then (c.1, { c.2 with dirty := false }) else c
           notes := s.notes.filter fun n => !(n.core == core && line == none) || s.freshL1 core (some n.line) }

/-- The clean copies of a core dropped, of one line or of all (R144, R166). -/
def State.dropClean (s : State) (core : Nat) (line : Option Nat) : State :=
  { s with l1 := s.l1.filter fun c => !(c.1 / 2 ^ 70 == core && !c.2.dirty &&
      (line == none || line == some (lineKey (c.1 % 2 ^ 70)))) }

/-- The instruction copies of a core dropped (R393). -/
def State.dropFetched (s : State) (core : Nat) (line : Option Nat) : State :=
  { s with fetched := s.fetched.filter fun c => !(c.1 / 2 ^ 70 == core &&
      (line == none || line == some (lineKey (c.1 % 2 ^ 70)))) }

/-- What an acquire at a scope does to the core: its clean copies go, and at DV or SY its instruction copies
(R144, R393). -/
def State.acquire (s : State) (core : Nat) (sc : Scope) : State :=
  let s := if sc.wide then s.dropClean core none else s
  if sc.device then s.dropFetched core none else s

/-- The byte a core sees at a place, and whether it came from its bank or home slice and not from the L1 (R147, R167). -/
def State.seen (s : State) (core : Nat) (wide : Bool) (k : Nat) : Byte × Bool :=
  if isScratch k then (Memory.read s.mem k, true)
  else match alook (l1Key core k) s.l1 with
    | some c => if wide && !c.dirty then (Memory.read s.mem k, true) else (c.val, false)
    | none => (Memory.read s.mem k, true)

/-! ### A thread's own accesses on their way (R144, R147, R165) -/

/-- Bytes of the word an atomic operation acts on. -/
def AtomOp.size : AtomOp → Nat
  | .add64 => 8 | .swap64 => 8 | .cas64 => 8
  | _ => 4

/-- The requests of the SYNC forms (11_streamers.md R185). -/
def CmdOp.isSync : CmdOp → Bool
  | .rvinit => true | .arrive => true | .arriven => true | .expect => true | .pledge => true | .rvleave => true
  | _ => false

/-- Bytes of memory that a command acts on in one step at its place: those of an atomic, and the 16 of a SYNC; 0 for any
other command. -/
def CmdOp.span : CmdOp → Nat
  | .atom o _ => o.size
  | op => if op.isSync then 16 else 0

/-- Two ranges of places have a byte in common. -/
def Loc.meets (a : Loc) (n : Nat) (b : Loc) (m : Nat) : Bool :=
  match a, b with
  | .key j, .key k => decide (j < k + m) && decide (k < j + n)
  | .remote x j, .remote y k => x == y && decide (j < k + m) && decide (k < j + n)
  | _, _ => false

/-- A committed atomic or SYNC of a run that has not acted. -/
def HeldRun.pending (h : HeldRun) : Bool :=
  match h.cmd with
  | some c => decide (0 < c.op.span)
  | none => false

/-- It acts on a byte of a range. -/
def HeldRun.touches (h : HeldRun) (l : Loc) (n : Nat) : Bool :=
  h.pending && (match h.cmd.bind fun c => c.loc.map fun x => (x, c.op.span) with
    | some x => x.1.meets x.2 l n
    | none => false)

/-- An atomic of a thread that is on its way to another module and back, with its run and its bytes. -/
def Remote.atomOf (x : Remote) : Option (TRef × Nat × Nat) :=
  match x.purpose with
  | .atom r seq o _ _ => some (r, seq, o.size)
  | _ => none

/-- It is one of a thread's. -/
def Remote.atomBy (x : Remote) (r : TRef) : Bool := (x.atomOf.map (·.1)) == some r

/-- The reads of a thread on their way: its loads, its atomics and its SYNC requests (R165). -/
def State.ownReads (s : State) (r : TRef) : List Nat :=
  (s.loads.filter fun l => l.who = r).map (·.id) ++ (s.held.filter fun h => h.who = r ∧ h.pending = true).map (·.id) ++
    (s.fab.remotes.filter fun x => x.atomBy r).map (·.id)

/-- Those that read a byte of a range and have not read it: a later write of the thread follows them (R147). -/
def State.ownReadsAt (s : State) (r : TRef) (l : Loc) (n : Nat) : List Nat :=
  (s.loads.filter fun x => x.who = r ∧ x.value.isNone = true ∧ x.loc.meets x.len l n = true).map (·.id) ++
    (s.held.filter fun h => h.who = r ∧ h.touches l n = true).map (·.id) ++
    (s.fab.remotes.filter fun x => x.atomBy r &&
      (Loc.remote x.mod x.paddr).meets ((x.atomOf.map (·.2.2)).getD 0) l n).map (·.id)

/-- A read is still on its way: a load, an atomic, a SYNC, or a pop that waits for its slot. -/
def State.onWay (s : State) (i : Nat) : Bool :=
  s.loads.any (fun l => l.id == i) || s.held.any (fun h => h.id == i && h.pending) ||
    s.fab.remotes.any (fun x => x.id == i && x.atomOf.isSome) || s.waiters.any fun w => w.id == i && w.kind.isPop

/-- The pops of a thread that wait for their slots: acquires that what comes after them in program order follows (R192). -/
def State.popsOf (s : State) (r : TRef) : List Nat := (s.waiters.filter fun w => w.who = r ∧ w.kind.isPop = true).map (·.id)

/-- An atomic or SYNC of an earlier run of a thread has not acted. -/
def State.cmdBefore (s : State) (r : TRef) (seq : Nat) : Bool :=
  s.held.any (fun h => h.who = r && decide (h.seq < seq) && h.pending) ||
    s.fab.remotes.any fun x => (x.atomOf.map fun y => y.1 == r && decide (y.2.1 < seq)) == some true

/-- A SYNC request of an earlier run of a thread is held at its word (R182). -/
def State.rvBefore (s : State) (r : TRef) (seq : Nat) : Bool :=
  s.rvHolds.any fun h => match h.who with
    | some (t, q, _) => t == r && decide (q < seq)
    | none => false

/-- A push or a pop of an earlier run of a thread waits for its slot (R191). -/
def State.queueBefore (s : State) (r : TRef) (seq : Nat) : Bool :=
  s.waiters.any fun w => w.who = r && w.kind.isQueue && decide (w.seq < seq)

/-- An access of an earlier run of a thread is not performed that is neither a load nor a buffered effect: an atomic, a SYNC, a
push or a pop (R163, R165). -/
def State.opsBefore (s : State) (r : TRef) (seq : Nat) : Bool := s.cmdBefore r seq || s.rvBefore r seq || s.queueBefore r seq

/-- An atomic or SYNC of an earlier run of a thread has yet to act on a byte of a range, which a read sees afterwards
(R147). -/
def State.cmdAt (s : State) (r : TRef) (seq : Nat) (l : Loc) (n : Nat) : Bool :=
  s.held.any fun h => h.who = r && decide (h.seq < seq) && h.touches l n

/-- The byte that a buffered effect writes at a place. -/
def BufOp.byteAt (o : BufOp) (l : Loc) (i : Nat) : Option Byte :=
  match o, l with
  | .store (.key k) bs _ _, .key j => if k ≤ j + i then bs[j + i - k]? else none
  | .store (.remote m k) bs _ _, .remote n j => if m = n ∧ k ≤ j + i then bs[j + i - k]? else none
  | _, _ => none

/-- The thread's own stores that are not yet performed, oldest first. -/
def State.ownOps (s : State) (r : TRef) : List BufOp :=
  ((s.stores.filter fun p => p.who = r).map (·.op)) ++ ((s.thread r).map fun t => t.run.buf.map (·.op)).getD []

/-- The bytes of a read that some effects supply, the latest of them first. -/
def bytesOf (ops : List BufOp) (l : Loc) (len : Nat) : List (Nat × Byte) :=
  ((List.range len).map fun i => (i, ops.findSome? fun o => o.byteAt l i)).filterMap fun x => x.2.map fun b => (x.1, b)

/-- The bytes of a load that the thread's own stores supply (R147). -/
def State.ownBytes (s : State) (r : TRef) (l : Loc) (len : Nat) : List (Nat × Byte) := bytesOf (s.ownOps r).reverse l len

/-- A store that waits for its word to be empty (R155). -/
def BufOp.isWef : BufOp → Bool
  | .store _ _ .waitEmpty _ => true
  | _ => false

/-- The bytes of a word as the thread's own stores and a place have them (R147, R167): the L1 at WG scope, the home slice
beyond. -/
def State.wordFor (s : State) (r : TRef) (l : Loc) (core : Nat) (wide : Bool) : List Byte :=
  match l with
  | .key k =>
    let own := s.ownBytes r l 4
    (List.range 4).map fun i => (alook i own).getD (if wide then Memory.read s.mem (k + i) else (s.seen core false (k + i)).1)
  | .remote _ _ => []

/-- A word as wordFor reads it lies in a poisoned codeword (R331). -/
def State.wordBad (s : State) (r : TRef) (l : Loc) (core : Nat) (wide : Bool) : Bool :=
  match l with
  | .key k =>
    let own := s.ownBytes r l 4
    (List.range 4).any fun i => (alook i own).isNone && (wide || (s.seen core false (k + i)).2) && s.isPoisoned (k + i)
  | .remote _ _ => false

/-- The bytes of a word for a read under F 1 to 3: an STS.WEF of the thread that waits has not been performed on it
(R162). -/
def State.bankWord (s : State) (r : TRef) (l : Loc) (core : Nat) : List Byte :=
  match l with
  | .key k =>
    let own := bytesOf ((s.ownOps r).reverse.filter fun o => !o.isWef) l 4
    (List.range 4).map fun i => (alook i own).getD (s.seen core false (k + i)).1
  | .remote _ _ => []

/-- WAITA goes past the core's L1 at a place: on global words, beyond WG scope (R167). -/
def widePlace (sc : Scope) (l : Loc) : Bool :=
  sc.wide && match l with
    | .key k => !(isScratch k)
    | .remote _ _ => false

/-- A word as seen at a scope passes a test of WAITA (R167). Beyond WG scope it is the home slice's, and the core's own dirty
bytes have to get there first. An uncorrectable word is read, to fail as a load does (R141). One of another module is tested on
what the reads there return (22_fabric_host.md R338). -/
def State.wordTest (s : State) (r : TRef) (l : Loc) (core : Nat) (sc : Scope) (test : Word → Bool) : Bool :=
  let wide := widePlace sc l
  (match l with
    | .key k => !(wide && s.l1Dirty core k 4)
    | .remote _ _ => false) &&
  (s.wordBad r l core wide || test (BitVec.ofNat 32 (leNat (s.wordFor r l core wide))))

/-- The place of an effect is scratchpad. -/
def BufOp.onScratch : BufOp → Bool
  | .store (.key k) _ _ _ => isScratch k
  | _ => false

/-- A store that fails leaves memory as it is, and the fault is raised at the start of the thread's next run
(R141). -/
def State.failStore (s : State) (p : PStore) (c : Code) : State :=
  let s := { s with stores := s.stores.filter fun (x : PStore) => x.id != p.id }
  let s := s.modThread p.who fun t => t.defer (faultAt c p.addr .store p.op.onScratch)
    ((s.held.find? fun h => h.id == p.run).map (·.seq))
  if p.counted then s.uncount p.who .stores else s

/-! ### Monitors (R156, R158) -/

/-- The value that loaded bytes leave in one register. -/
def Dest.value (d : Dest) (bs : List Byte) : RegVal :=
  let b := (bs.drop d.off).take d.len
  let u := leNat b
  let z : Int := if d.sgn && decide (2 ^ (8 * d.len - 1) ≤ u) then (u : Int) - 2 ^ (8 * d.len) else (u : Int)
  { bits := BitVec.ofInt 32 z, tag := d.tag }

/-- The registers and values of a load. -/
def destRegs (ds : List Dest) (bs : List Byte) : List (Nat × Reg) := ds.map fun d => (d.reg, { val := d.value bs })

/-- A register marked poisoned, its value undefined (R141, R6). -/
def poisonRegs (n : Nat) (f : FaultInfo) (ds : List Dest) : List (Nat × Reg) :=
  ds.zipIdx.map fun d => (d.1.reg, { val := { bits := Config.freeBits (n + d.2), tag := d.1.tag }, poison := some f })

/-- The operand queue q of a thread: the key of its entries (11_streamers.md R194). -/
def oqKey (tid q : Nat) : Nat := tid * 4 + q

/-- The word of a waiter has gone to a new owner (25_system.md R378). -/
def State.cutOff (s : State) (w : Waiter) : Bool := !(s.still w.who w.key 4)

/-- CREAD and CWRITE. -/
def CmdOp.isCreg : CmdOp → Bool
  | .cread _ => true | .cwrite _ => true
  | _ => false

/-- A CREAD or a CWRITE of a thread before a run has not acted: what follows it waits (21_faults.md R311). -/
def State.privBefore (s : State) (r : TRef) (run : Nat) : Bool :=
  s.held.any fun h => h.who = r && decide (h.id < run) && (h.cmd.map (·.op.isCreg) == some true)

/-- A fence of a thread up to a run is not performed (R165). -/
def State.fenceBefore (s : State) (r : TRef) (run : Nat) : Bool :=
  s.stores.any fun p => p.who = r && decide (p.run ≤ run) && (match p.op with
    | .fence _ _ => true
    | _ => false)

/-- An older claim on the slot of a waiting push or pop waits there: claims are served in their order (R192). -/
def State.claimAhead (s : State) (w : Waiter) : Bool :=
  s.waiters.any fun x => x.key == w.key && decide (x.id < w.id) && x.kind.isPop == w.kind.isPop && x.kind.isPush == w.kind.isPush

/-- A waiter's condition (R156, R162, R167, R191, R194). A waiter that is cut off proceeds, to be refused. -/
def State.waiterReady (s : State) (w : Waiter) : Bool :=
  let read := !(s.cmdAt w.who w.seq w.loc 4)
  s.cutOff w || decide (w.rel ≤ s.clock) && w.after.all (fun i => !(s.onWay i)) && match w.kind with
  | .ldsFull _ => s.isFull w.key && !(s.claimed w.key (some w.who)) && read
  | .ldsSe => !(s.claimed w.key (some w.who)) && read
  | .waitaFull _ => s.isFull w.key && !(s.claimed w.key (some w.who)) && read
  | .waitaEq sc v => s.wordTest w.who w.loc w.core sc (· == v) && !(s.claimed w.key (some w.who)) && read
  | .waitaChg sc v => s.wordTest w.who w.loc w.core sc (· != v) && !(s.claimed w.key (some w.who)) && read
  | .emptied => !(s.claimed w.key none)
  | .pop _ => s.isFull w.key && !(s.claimed w.key none) && !(s.claimAhead w) && !(s.privBefore w.who w.id)
  | .push _ => !(s.isFull w.key) && !(s.claimed w.key none) && !(s.claimAhead w) && !(s.privBefore w.who w.id) &&
      !(s.stores.any fun p => p.who = w.who && decide (p.run < w.id)) &&
      !(s.loads.any fun l => l.who = w.who && decide (l.seq ≤ w.seq)) && !(s.opsBefore w.who w.seq)

/-- The kind of read a waiter's satisfying read is (R143). -/
def WaiterKind.read : WaiterKind → ReadKind
  | .waitaFull sc => .acquire sc
  | .waitaEq sc _ => .acquire sc
  | .waitaChg sc _ => .acquire sc
  | _ => .plain

/-- A word claimed by a thread's present run (R155). -/
def State.claimWord (s : State) (r : TRef) (k : Nat) : State :=
  let s := { s with claims := s.claims ++ [(wordKey k, r)] }
  s.modRun r fun x => { x with claims := x.claims ++ [wordKey k] }

/-- A waiter that is cut off is refused with PROT (25_system.md R378): a parked thread makes its access again and finds it
so, and a queue operation, whose run has committed, ends as R141 says. -/
def State.waiterRefused (s : State) (w : Waiter) : State :=
  let f : FaultInfo := { faultAt .prot w.addr .load true with deferred := true }
  match w.kind with
  | .pop _ =>
    let (n, s) := s.takeFresh
    s.arrive w.who w.seq (poisonRegs n f w.dests) .loads
  | .push _ => (s.modThread w.who fun t => t.defer { f with access := .store } (some w.seq)).uncount w.who .stores
  | .emptied => s
  | _ =>
    let s := s.modThread w.who fun t =>
      { t with loads := t.loads - 1, busy := w.dests.foldl (fun (b : List Nat) (d : Dest) => b.erase d.reg) t.busy }
    s.wake w.who

/-- The scope of a queue's handoff at a slot (R192). -/
def State.queueScope (s : State) (r : TRef) (k : Nat) : Scope :=
  match s.wg r.wg with
  | some g => if g.holds k 4 then .wg else .cl
  | none => .cl

/-- A waiter proceeds: a parked thread continues past its instruction with the value on its way to its register;
a pop or a push takes its slot in one step (R158, R191). A push is a release at its queue's scope (R192). An uncorrectable word
is read as a load that fails (R141). -/
def State.waiterGo (s : State) (w : Waiter) : State :=
  let s := { s with waiters := s.waiters.filter fun x => x.id != w.id }
  if s.cutOff w then s.waiterRefused w
  else match w.kind with
  | .pop len =>
    let bs := s.mem.readN w.key len
    let bad := s.poisonedIn w.key len
    let s := (s.setFull w.run w.key false).acquire w.core (s.queueScope w.who w.key)
    let (n, s) := s.takeFresh
    let f : FaultInfo := { faultAt .uncorr (BitVec.ofNat 64 (w.key % 2 ^ 19)) .load true with deferred := true }
    s.arrive w.who w.seq (if bad then poisonRegs n f w.dests else destRegs w.dests bs) .loads
  | .push bs =>
    let s := if (s.queueScope w.who w.key).wide then s.writeBack w.core none else s
    let s := s.pokes w.run (bytesAt w.key bs)
    (s.setFull w.run w.key true).uncount w.who .stores
  | .emptied => s.setFull w.run w.key false
  | k =>
    let wide := match k with
      | .waitaEq sc _ => widePlace sc w.loc
      | .waitaChg sc _ => widePlace sc w.loc
      | _ => false
    let bs := match k with
      | .ldsFull _ => s.bankWord w.who w.loc w.core
      | .ldsSe => s.bankWord w.who w.loc w.core
      | _ => s.wordFor w.who w.loc w.core wide
    let bad := s.wordBad w.who w.loc w.core wide
    let l : PLoad := { id := w.id, who := w.who, seq := w.seq, core := w.core, loc := w.loc, len := 4, kind := k.read,
                       dests := w.dests, fwd := s.ownBytes w.who w.loc 4, value := if bad then none else some bs, addr := w.addr,
                       remote := none }
    let s := { s with loads := s.loads ++ [l] }
    let s := if k = .ldsFull true ∨ k = .ldsSe then s.claimWord w.who w.key else s
    (s.pass w.who 4).wake w.who

/-- A store that waits for its word to be empty finds it so (R155). -/
def State.wefReady (s : State) (p : PStore) : Bool :=
  p.monitor && !p.spilled && (match p.op with
    | .store (.key k) _ .waitEmpty _ => !(s.still p.who k 4) || (!(s.isFull k) && !(s.claimed k none))
    | _ => false)

/-- The pending STS.WEF writes its word and sets it full (R155). -/
def State.wefGo (s : State) (p : PStore) : State :=
  match p.op with
  | .store (.key k) bs _ _ =>
    if !(s.still p.who k 4) then s.failStore p .prot else
    let s := { s with stores := s.stores.filter fun x => x.id != p.id }
    let run := if scratchCore k == p.core || decide (2 ^ 64 ≤ k) then some p.run else none
    ((s.pokes run (bytesAt k bs)).setFull run k true).uncount p.who .stores
  | _ => s

/-- Whether a pending store waits on a word. -/
def PStore.onWord (p : PStore) (k : Nat) : Bool :=
  match p.op with
  | .store (.key j) _ .waitEmpty _ => p.monitor && wordKey j == wordKey k
  | _ => false

/-- The oldest waiter on a word that can proceed does so; none if no waiter can (R156). -/
def State.monitorStep (s : State) (k : Nat) : Option State :=
  let ws := s.waiters.filter fun w => wordKey w.key == wordKey k && !w.spilled && s.waiterReady w
  let ps := s.stores.filter fun p => p.onWord k && s.wefReady p
  let oldest := fun (l : List Nat) => l.foldl min (l.headD 0)
  match ws, ps with
  | [], [] => none
  | [], _ => (ps.find? fun p => p.age == oldest (ps.map (·.age))).map s.wefGo
  | _, [] => (ws.find? fun w => w.age == oldest (ws.map (·.age))).map s.waiterGo
  | _, _ =>
    if oldest (ws.map (·.age)) < oldest (ps.map (·.age)) then
      (ws.find? fun w => w.age == oldest (ws.map (·.age))).map s.waiterGo
    else (ps.find? fun p => p.age == oldest (ps.map (·.age))).map s.wefGo

/-- The waiters on a word evaluated again, oldest first, until none can proceed (R156). Those that a change elsewhere lets
proceed are evaluated after the step (tendWaiters). -/
def State.monitor (fuel : Nat) (s : State) (k : Nat) : State :=
  match fuel with
  | 0 => s
  | n + 1 => match s.monitorStep k with
    | some s' => s'.monitor n k
    | none => s

/-- The waiters on the words of some bytes evaluated again. -/
def State.monitorAll (s : State) (ks : List Nat) : State :=
  (ks.map wordKey).dedup.foldl (fun s k => s.monitor (s.waiters.length + s.stores.length + 1) k) s

/-- The waiting pushes and pops of a thread evaluated again: each push is a release (R192), and each follows the acquires
before it. -/
def State.pushRetry (s : State) (r : TRef) : State :=
  s.monitorAll ((s.waiters.filter fun w => w.who = r && (match w.kind with
    | .push _ => true
    | .pop _ => true
    | _ => false)).map (·.key))

/-- Bytes written at home, and the waiters that see them (R156, R167). -/
def State.homeStore (s : State) (bs : List (Nat × Byte)) (core : Option Nat := none) : State :=
  (s.homeWrite bs core).monitorAll (bs.map (·.1))

/-- Dirty bytes written back, and the waiters that see them there. -/
def State.writeBackAll (s : State) (core : Nat) (line : Option Nat) : State :=
  let ks := (s.dirtyOf core line).map (·.1)
  (s.writeBack core line).monitorAll ks

/-- Every waiter evaluated again: what it waits for may have changed without a write of its word, by an acquire that dropped
the copy it looks at, a claim that is gone, or an earlier access that is performed (R155, R156). -/
def State.tendWaiters (s : State) : State :=
  s.monitorAll (s.waiters.map (·.key) ++ s.stores.filterMap fun p => if p.monitor then (match p.op with
    | .store (.key k) _ _ _ => some k
    | _ => none) else none)

/-! ### The wait table (R156, R157) -/

/-- An entry of a core's wait table: its age, its thread, and its number. -/
structure TableEntry where
  age : Nat
  who : TRef
  id : Nat
  spilled : Bool
  deriving DecidableEq, Repr

/-- The entries of a core, spilled ones among them: parked threads and waiting pushes and pops, pending STS.WEF, SYNC requests
held at their words, and threads parked by MZTAKE and MZSINK (R156, 16_maze.md R253). -/
def State.tableOf (s : State) (core : Nat) : List TableEntry :=
  ((s.waiters.filter fun w => w.core == core && w.kind != .emptied).map fun w => { age := w.age, who := w.who, id := w.id, spilled := w.spilled }) ++
    ((s.stores.filter fun p => p.core == core && p.monitor).map fun p =>
      { age := p.age, who := p.who, id := p.id, spilled := p.spilled }) ++
    (s.rvHolds.filterMap fun h => match h.who with
      | some (r, _, _) => if s.coreOf r = core then some { age := h.id, who := r, id := h.id, spilled := h.spilled } else none
      | none => none) ++
    (s.mazes.flatMap fun m => m.stages.flatMap (fun x => x.q.takers) ++ m.sink.takers).filterMap fun t =>
      if s.coreOf t.who = core then some { age := t.id, who := t.who, id := t.id, spilled := t.spilled } else none

/-- The entries of a core's wait table that are in use. -/
def State.monitorUsed (s : State) (core : Nat) : Nat := ((s.tableOf core).filter fun e => !e.spilled).length

/-- The entries of the wait table that a command may need when it acts: one for a push, a pop, a SYNC that may be held, and a
claim at a maze queue (R156, 16_maze.md R253). -/
def CmdOp.entries (o : CmdOp) : Nat :=
  match o with
  | .qpush => 1 | .qpop => 1 | .qtrypush => 1 | .qtrypop => 1
  | .mztake => 1 | .mzsink => 1
  | o => if o.isSync && o != .rvinit then 1 else 0

/-- The entries that a run may need when it commits: one for each STS.WEF, and those of its command (R155 to R157). -/
def Run.entries (x : Run) : Nat :=
  (x.buf.filter fun o => o.op.isWef).length + ((x.commit.map fun c => c.op.entries).getD 0)

/-- The entries that what the threads of a core have already issued may still need: their open runs, their commands that have not
acted, and their STS.WEF that do not wait at their words yet. -/
def State.monitorOwed (s : State) (core : Nat) : Nat :=
  ((s.threads.filter fun x => decide (0 < x.2.run.entries) && s.coreOf (TRef.ofKey x.1) == core).map fun x => x.2.run.entries).sum +
    ((s.held.filter fun h => h.core == core).map fun h => (h.cmd.map fun c => c.op.entries).getD 0).sum +
    (s.stores.filter fun p => p.core == core && p.op.isWef && !p.monitor).length

/-- The core's wait table has room for n entries more, beside those that are in use and those that may still be needed (R156,
R157). -/
def State.monitorRoom (s : State) (core n : Nat) : Bool := decide (s.monitorUsed core + s.monitorOwed core + n ≤ 4096)

/-- The entry that has waited longest. -/
def oldestEntry (l : List TableEntry) : Option TableEntry :=
  l.foldl (fun m e => match m with
    | some x => if e.age < x.age then some e else some x
    | none => some e) none

/-- A set with each thread that waits at one of its queues changed. -/
def MazeSet.mapTakers (m : MazeSet) (f : Taker → Taker) : MazeSet :=
  let q := fun (q : MazeQueue) => { q with takers := q.takers.map f }
  { m with stages := m.stages.map fun x => { x with q := q x.q }, sink := q m.sink }

/-- An entry moved to the spill area or back. -/
def State.setSpilled (s : State) (id : Nat) (b : Bool) : State :=
  { s with
    waiters := s.waiters.map fun (w : Waiter) => if w.id = id then { w with spilled := b } else w
    stores := s.stores.map fun (p : PStore) => if p.id = id ∧ p.monitor = true then { p with spilled := b } else p
    rvHolds := s.rvHolds.map fun (h : RvHold) => if h.id = id ∧ h.who.isSome = true then { h with spilled := b } else h
    mazes := s.mazes.map fun (m : MazeSet) => m.mapTakers fun x => if x.id = id then { x with spilled := b } else x }

/-- Entries that a restored workgroup brings to a core beyond the 4,096 of its table are spilled, the oldest of the table first (R157).
DESIGN CHOICE (log entry 106): even where their page is not mapped. -/
def State.fitTable (s : State) (core : Nat) : State :=
  (List.range (s.monitorUsed core - 4096)).foldl (fun (s : State) _ =>
    match oldestEntry ((s.tableOf core).filter fun e => !e.spilled) with
    | none => s
    | some e => s.setSpilled e.id true) s

/-! ### Accesses of a thread (R137 to R140, R159) -/

/-- The outcome of an address: a place, a fault, or a translation that the TLB lacks. -/
inductive Reach where
  | ok (l : Loc)
  | fault (f : FaultInfo)
  | miss
  deriving DecidableEq, Repr

/-- The entry of a core's TLB that covers an address (R321). -/
def State.tlbFind (s : State) (core p : Nat) (a : DWord) : Option TlbEntry :=
  s.tlb.find? fun e => e.core == core && e.part == p && e.gen == (s.part p).gen && decide (e.base ≤ vaIndex a) &&
    decide (vaIndex a < e.base + e.size)

def TlbEntry.trans (e : TlbEntry) : Trans :=
  { base := e.base, size := e.size, pa := e.pa, tgt := e.tgt, mod := e.mod, r := e.r, w := e.w, x := e.x, sup := e.sup }

/-- Bytes of the private slices of a partition that are mapped (R140). -/
def State.privateMapped (s : State) (p : Nat) : Nat :=
  ((s.wgs.filter fun x => x.2.part == p).map fun x => (x.2.hwm - x.2.pbase).toNat).sum

/-- The fault of an access to an address with no translation: PMEMGROW below the reserve of the thread's slice,
QUOTA where the growth would pass the partition's HBM capacity, else XLATE (R140, R302). -/
def State.unmapped (s : State) (g : Wg) (a : DWord) : Code :=
  let off := (a - g.pbase).toNat
  if g.pres ≠ 0 ∧ g.pbase.toNat ≤ a.toNat ∧ off < g.pres then
    let need := off - off % 65536 + 65536 - (g.hwm - g.pbase).toNat
    if (s.part g.part).lim.hbmSize < s.privateMapped g.part + need then .quota else .pmemgrow
  else .xlate

/-- Whether a scope is permitted at a place (R153, R163, R337): below SY, only this module's HBM and scratchpad; a
promoting acquire likewise; another domain's memory never. -/
def State.scopeOk (s : State) (l : Loc) (sc : Option Scope) (promote : Bool) : Bool :=
  match l with
  | .key k => decide (k < 2 ^ 60) || isScratch k || ((sc == none || sc == some .sy) && !promote)
  | .remote _ pa => pa / 2 ^ 44 == s.fab.domain && (sc == none || sc == some .sy) && !promote

/-- A generic access of a thread to len bytes, aligned to size: ALIGN, then XLATE or PMEMGROW, then PROT, then SCOPE
(R159). -/
def State.reachLen (s : State) (r : TRef) (a : DWord) (size len : Nat) (k : Access) (sc : Option Scope)
    (promote : Bool) : Reach :=
  match s.thread r, s.wg r.wg with
  | some t, some g =>
    if inScratchRange a then
      if a.toNat % size ≠ 0 then .fault (faultAt .align a k true)
      else match s.scratchAt g (a.setWidth 32) len with
        | .ok key => .ok (.key key)
        | .error c => .fault (faultAt c a k true)
    else if a.toNat % size ≠ 0 then .fault (faultAt .align a k false)
    else if !isCanonical a then .fault (faultAt .xlate a k false)
    else match s.tlbFind (s.coreOf r) g.part a with
      | none => .miss
      | some e => match s.checkPage g.part t.arch.sup k e.trans a with
        | .error c => .fault (faultAt c a k false)
        | .ok l => if s.scopeOk l sc promote then .ok l else .fault (faultAt .scope 0 k false)
  | _, _ => .miss

/-- A generic access of a thread to a naturally aligned datum (R139). -/
def State.reach (s : State) (r : TRef) (a : DWord) (size : Nat) (k : Access) (sc : Option Scope) (promote : Bool) : Reach :=
  s.reachLen r a size size k sc promote

/-- An access to a scratchpad address (R138, R159). -/
def State.reachScratch (s : State) (r : TRef) (w : Word) (size : Nat) (k : Access) : Reach :=
  match s.wg r.wg with
  | none => .miss
  | some g =>
    if w.toNat % size ≠ 0 then .fault (faultAt .align (w.setWidth 64) k true)
    else match s.scratchAt g w size with
      | .ok key => .ok (.key key)
      | .error c => .fault (faultAt c (w.setWidth 64) k true)

/-- The place in another module that a fetch reads, where the core's TLB leads there. -/
def State.fetchFar (s : State) (r : TRef) (a : DWord) : Option (Nat × Nat) :=
  match s.thread r, s.wg r.wg with
  | some t, some g => match s.tlbFind (s.coreOf r) g.part a with
    | none => none
    | some e => match s.checkPage g.part t.arch.sup .fetch e.trans a with
      | .ok (.remote m pa) => if pa / 2 ^ 44 = s.fab.domain then some (m, pa) else none
      | _ => none
  | _, _ => none

/-- An instruction unit of another module's memory goes out as a request, and the thread waits for it (22_fabric_host.md R338). -/
def State.fetchAsk (s : State) (r : TRef) (a : DWord) (m pa : Nat) : State :=
  let (i, s) := s.takeId
  let s := s.addRemote { id := i, purpose := .fetch r a (kFar m pa), part := s.partOf r, mod := m, type := 1, paddr := pa,
                         body := natLe 1 2 }
  (s.dropFromQuad r).modThread r fun t => { t with status := .parked (.walk i) }

/-- The access hands its page to the die's walkers and the thread parks (R321). Requests for a page already being
walked join that walk. -/
def State.walkPage (s : State) (r : TRef) (a : DWord) (k : Access) : State :=
  let core := s.coreOf r
  let p := s.partOf r
  let page := vaIndex a / 65536
  let same := fun (w : Walk) => w.page == page && w.part == p && w.gen == (s.part p).gen && w.core / 96 == core / 96
  match s.walks.find? same with
  | some w =>
    let s := { s with walks := s.walks.map fun (x : Walk) => if x.id = w.id then { x with who := x.who ++ [(r, a, k)] } else x }
    (s.dropFromQuad r).modThread r fun t => { t with status := .parked (.walk w.id) }
  | none =>
    let (i, s) := s.takeId
    let w : Walk := { id := i, core := core, part := p, gen := (s.part p).gen, page := page, who := [(r, a, k)] }
    let s := { s with walks := s.walks ++ [w] }
    (s.dropFromQuad r).modThread r fun t => { t with status := .parked (.walk i) }

/-- What a thread waits for whose access cannot be made yet: the translation of its page, or an instruction unit of another
module. -/
def State.startWalk (s : State) (r : TRef) (a : DWord) (k : Access) : State :=
  match if k = .fetch then s.fetchFar r a else none with
  | some (m, pa) => s.fetchAsk r a m pa
  | none => s.walkPage r a k

/-! ### Loads (R117, R147) -/

/-- The run has buffered an SC fence: a load after it reads when the fence has taken its place (R145). -/
def Run.scFenced (x : Run) : Bool := x.buf.any fun o => match o.op with
  | .fence .sc _ => true
  | _ => false

/-- A load from another module goes out as a request (22_fabric_host.md R338, R339). -/
def State.sendLoad (s : State) (l : PLoad) : State :=
  match l.loc with
  | .key _ => s
  | .remote m pa =>
    let (j, s) := s.takeId
    let s := s.addRemote { id := j, purpose := .load l.id, part := s.partOf l.who, mod := m, type := 1, paddr := pa,
                           body := natLe 1 l.len }
    { s with loads := s.loads.map fun (x : PLoad) => if x.id = l.id then { x with remote := some j } else x }

/-- A load issued: it counts, its registers are outstanding, and an acquire holds the accesses after it. -/
def State.issueLoad (s : State) (r : TRef) (l : Loc) (len : Nat) (k : ReadKind) (ds : List Dest)
    (v : Option (List Byte)) (a : DWord) : State :=
  let (i, s) := s.takeId
  match s.thread r with
  | none => s
  | some t =>
    let x : PLoad := { id := i, who := r, seq := t.seq, core := s.coreOf r, loc := l, len := len, kind := k, dests := ds,
                       fwd := s.ownBytes r l len, value := v, addr := a, remote := none, order := v.isNone && t.run.scFenced,
                       after := if v.isNone then s.popsOf r else [] }
    let s := { s with loads := s.loads ++ [x] }
    let s := if x.order || !x.after.isEmpty then s else s.sendLoad x
    s.modThread r fun t =>
      { t with loads := t.loads + 1, busy := ds.map (·.reg) ++ t.busy
               acq := if k = .plain then t.acq else i :: t.acq }

/-- The bytes of a load as they are now, and whether one came from a poisoned codeword of its home (R147, R331). -/
def State.loadBytes (s : State) (l : PLoad) : List Byte × Bool :=
  match l.value, l.loc with
  | some bs, _ => (bs, false)
  | none, .key k =>
    let wide := l.early || match l.kind with
      | .plain => false
      | .acquire sc => sc.wide
      | .promote => true
    let one := fun i => match alook i l.fwd with
      | some b => (b, false)
      | none =>
        let (b, home) := s.seen l.core wide (k + i)
        (b, home && s.isPoisoned (k + i))
    let xs := (List.range l.len).map one
    (xs.map (·.1), xs.any (·.2))
  | none, .remote _ _ => ([], false)

/-- A read of a thread is there: the accesses that it held back go on (R163, R165). -/
def State.readDone (s : State) (r : TRef) (core i : Nat) : State :=
  let drop := match s.thread r with
    | some t => t.acqDrop && t.acq.all (· == i)
    | none => false
  let s := if drop then s.acquire core .sy else s
  let s := s.modThread r fun t => { t with acq := t.acq.filter (· != i), acqDrop := t.acqDrop && !drop }
  s.pushRetry r

/-- A load returns: its bytes are written to its registers, or on an error the registers are marked poisoned
(R117, R141). -/
def State.finishLoad (s : State) (l : PLoad) (bs : List Byte) (err : Option Code) : State :=
  let s := { s with loads := s.loads.filter fun (x : PLoad) => x.id != l.id }
  let s := match l.kind with
    | .plain => s
    | .acquire sc => s.acquire l.core sc
    | .promote => s.acquire l.core .dv
  let s := s.readDone l.who l.core l.id
  match err with
  | none => s.arrive l.who l.seq (destRegs l.dests bs) .loads
  | some c =>
    let (n, s) := s.takeFresh
    let f : FaultInfo := { code := c, addr := l.addr, access := .load, deferred := true }
    let waited := match s.thread l.who with
      | some t => (match t.status with
        | .trailer n _ _ _ aw => decide (n < t.loads) || l.dests.any fun d => aw == some d.reg
        | _ => false)
      | none => false
    let s := if waited then s.modThread l.who fun t => t.defer f (some l.seq) else s
    let ws := (poisonRegs n f l.dests).map fun w => (w.1, { w.2 with told := waited })
    s.arrive l.who l.seq ws .loads

/-! ### Stores (R117, R144, R328) -/

/-- The bytes of a release at a scope or of a fence leave the core: its earlier L1 writes go home (R165). -/
def State.releaseAt (s : State) (core : Nat) (sc : Scope) : State :=
  if sc.wide then s.writeBackAll core none else s

/-- Whether two buffered effects write a common byte. -/
def BufOp.overlaps (a b : BufOp) : Bool :=
  match a, b with
  | .store (.key j) x _ _, .store (.key k) y _ _ => decide (j < k + y.length) && decide (k < j + x.length)
  | .store (.remote m j) x _ _, .store (.remote n k) y _ _ =>
    m == n && decide (j < k + y.length) && decide (k < j + x.length)
  | _, _ => false

/-- Whether an effect stays within a core (R328): a release beyond WG scope does not, since what the core wrote before it has
to leave the core first (R144). -/
def BufOp.inCore (o : BufOp) (core : Nat) : Bool :=
  match o with
  | .store (.key k) _ _ rel => (rel.map Scope.wide).getD false == false &&
      (!(isScratch k) || scratchCore k == core || decide (2 ^ 64 ≤ k))
  | .store (.remote _ _) _ _ _ => false
  | .fence _ sc => !sc.wide
  | .cache _ _ => false

/-- The earlier effects of the thread that hold back a later one (R144, R165): a release waits for all of them, any
effect for an earlier fence that is not performed, and a store for an earlier one to the same byte. -/
def PStore.blocks (p q : PStore) : Bool :=
  p.who = q.who && decide (p.id < q.id) && (match p.op, q.op with
    | .fence .acq _, .fence .acq _ => false
    | .fence _ _, _ => true
    | _, .fence _ _ => true
    | _, .store _ _ _ (some _) => true
    | a, b => a.overlaps b)

/-- Whether an effect is a release that R267 names: a store with a release scope, or a fence that releases. -/
def BufOp.releases (o : BufOp) : Bool :=
  match o with
  | .store _ _ _ (some _) => true
  | .fence k _ => k != .acq
  | _ => false

/-- A fence that releases, or a release write: it follows every earlier access of its thread (R144, R165). -/
def BufOp.follows (o : BufOp) : Bool :=
  match o with
  | .store _ _ _ (some _) => true
  | .fence _ _ => true
  | _ => false

/-! ### The order of SC fences (R145) -/

/-- A scope of a thread includes another thread (R142). -/
def State.includes (s : State) (r : TRef) (sc : Scope) (x : TRef) : Bool :=
  match sc with
  | .wg => r.wg == x.wg
  | .cl => clusOfCore (s.coreOf r) == clusOfCore (s.coreOf x)
  | _ => true

/-- Two SC fences of two threads, each of whose scopes includes the other thread. -/
def State.scMutual (s : State) (r : TRef) (sc : Scope) (x : TRef) (sx : Scope) : Bool :=
  r != x && s.includes r sc x && s.includes x sx r

/-- An SC fence of another thread has its place in the order and is not performed: its run has made reads after it, and has
committed. One whose thread waits at a word for its own store holds back none (log entry 61). -/
def State.scPending (s : State) (r : TRef) (sc : Scope) : Bool :=
  s.stores.any fun p => (match p.op with
    | .fence .sc sx => s.scMutual r sc p.who sx
    | _ => false) && s.scReads.any (fun e => e.run == some p.run) && !(s.stores.any fun q => q.who = p.who && q.monitor)

/-- An SC fence follows those that have their places before it. -/
def State.scBehind (s : State) (p : PStore) : Bool :=
  match p.op with
  | .fence .sc sc => !(s.scReads.any fun e => e.run == some p.run) && s.scPending p.who sc
  | _ => false

/-- An SC fence of a thread takes its place: the open runs of other threads that have read after theirs are executed again. -/
def State.scSpoil (s : State) (r : TRef) (scs : List Scope) : State :=
  { s with scReads := s.scReads.map fun (e : ScRead) =>
      if e.run.isNone && e.scs.any (fun sx => scs.any fun sc => s.scMutual r sc e.who sx) then { e with spoiled := true } else e }

/-- An SC fence is performed; that of a run that has read after it took its place when the run committed. -/
def State.scPlace (s : State) (p : PStore) (sc : Scope) : State :=
  if s.scReads.any fun e => e.run == some p.run then s else s.scSpoil p.who [sc]

/-- The scopes of the SC fences that a run has buffered. -/
def Run.scScopes (x : Run) : List Scope := x.buf.filterMap fun o => match o.op with
  | .fence .sc sc => some sc
  | _ => none

/-- The present run of a thread has read after an SC fence of its own. -/
def State.readsEarly (s : State) (r : TRef) (seq : Nat) : Bool :=
  s.scReads.any fun e => e.who = r && e.seq == seq && e.run.isNone

/-- It reads after an SC fence of its own from here on. -/
def State.readEarly (s : State) (r : TRef) (t : Thread) : State :=
  if s.readsEarly r t.seq then s
  else
    let scs := t.run.scScopes
    { s with scReads := s.scReads ++
        [{ who := r, seq := t.seq, scs := scs, run := none, spoiled := scs.any fun sc => s.scPending r sc }] }

/-- Nothing but the run itself holds its SC fences back: everything earlier of the thread is performed, the loads of the run
before it among them. -/
def State.earlyMay (s : State) (r : TRef) (t : Thread) : Bool :=
  !(s.stores.any fun p => p.who = r) && !(s.loads.any fun l => l.who = r && !l.order && !l.early) && !(s.opsBefore r t.seq) &&
    !(s.privBefore r s.nextId)

/-- The run commits: its SC fences have their places (R145). -/
def State.scCommit (s : State) (r : TRef) (seq id : Nat) : State :=
  match s.scReads.find? fun e => e.who = r && e.seq == seq && e.run.isNone with
  | none => s
  | some e =>
    let s := { s with scReads := s.scReads.map fun (x : ScRead) => if x = e then { x with run := some id } else x }
    s.scSpoil r e.scs

/-- The records of committed runs whose SC fences are all performed go. -/
def State.tendScReads (s : State) : State :=
  { s with scReads := s.scReads.filter fun e => match e.run with
    | none => true
    | some i => s.stores.any fun p => p.run == i && (match p.op with
      | .fence .sc _ => true
      | _ => false) }

/-- Whether nothing but the word itself holds an effect back: earlier effects and reads, a CREAD or CWRITE, for a release the
atomics, SYNC requests, pushes and pops of its thread that still wait (R144, R165, 21_faults.md R311), and for an SC fence one
that has its place before it (R145). -/
def State.storeMay (s : State) (p : PStore) : Bool :=
  !(s.stores.any fun q => q.blocks p) && p.loads.all (fun i => !(s.onWay i)) && !(s.privBefore p.who p.run) &&
    !(p.op.follows && s.opsBefore p.who p.seq) && !(s.scBehind p) &&
    (p.op.inCore p.core || decide (p.rel ≤ s.clock)) && p.remote.isNone && (!p.op.releases || s.mirrorOk p.who)

/-- Whether the word that an effect writes is free of claims, and empty where it waits for that (R155). -/
def State.wordFree (s : State) (p : PStore) : Bool :=
  match p.op with
  | .store (.key k) bs f _ => !(isScratch k) || (!(s.claimedIn k bs.length none) && !(f == .waitEmpty && s.isFull k))
  | _ => true

/-- Whether an effect may be performed now. -/
def State.storeReady (s : State) (p : PStore) : Bool := s.storeMay p && s.wordFree p

/-- The scratchpad that an effect writes has gone to a new owner (25_system.md R378). -/
def State.storeGone (s : State) (p : PStore) : Bool :=
  match p.op with
  | .store (.key k) bs _ _ => !(s.still p.who k bs.length)
  | _ => false

/-- A store that waits for an empty word (R155). -/
def PStore.isWef (p : PStore) : Bool :=
  match p.op with
  | .store (.key k) _ f _ => isScratch k && f == .waitEmpty
  | _ => false

/-- A load after an SC fence of its run waits until the fence has taken its place (R145). -/
def State.orderWaits (s : State) (l : PLoad) : Bool :=
  l.order && (((s.thread l.who).map fun t => t.seq == l.seq).getD false || (s.stores.any fun p => p.who = l.who && (match p.op with
    | .fence .sc _ => true
    | _ => false) && (s.held.find? fun h => h.id == p.run).all fun h => decide (h.seq ≤ l.seq)))

/-- The loads from other modules that an SC fence or a pop has held back, and holds back no more, go out (R145, R192). -/
def State.sendLoads (s : State) : State :=
  forEach (fun s l => if l.remote.isNone && l.value.isNone && !(s.orderWaits l) && l.after.all (fun i => !(s.onWay i)) then
      s.sendLoad l else s) s
    (s.loads.filter fun l => l.order || !l.after.isEmpty)

/-- A load waits for an SC fence before it in its run (R145), for the waiting pops before it (R192), for an atomic or SYNC of its
own thread to its bytes (R147), and one through a generic address for words that another thread has claimed (R155). -/
def State.loadWaits (s : State) (l : PLoad) : Bool :=
  l.value.isNone && (s.orderWaits l || l.after.any s.onWay || s.cmdAt l.who l.seq l.loc l.len || (match l.loc with
    | .key k => inScratchRange l.addr && s.claimedIn k l.len (some l.who)
    | .remote _ _ => false))

/-- The scratchpad that a load reads has gone to a new owner (25_system.md R378). -/
def State.loadGone (s : State) (l : PLoad) : Bool :=
  match l.loc with
  | .key k => l.value.isNone && !(s.still l.who k l.len)
  | .remote _ _ => false

/-- Everything earlier of a thread is performed: its stores up to a run, its loads, and its other accesses (16_maze.md R254,
19_scheduling.md R301, 21_faults.md R311). -/
def State.settled (s : State) (h : HeldRun) : Bool :=
  !(s.stores.any fun p => p.who = h.who && decide (p.run ≤ h.id)) && !(s.loads.any fun l => l.who = h.who && decide (l.seq ≤ h.seq)) &&
    !(s.opsBefore h.who h.seq)

/-- A core's note of a line is there, or its home slice has room for it: it holds 4,096 (R150). With fewer than 4,096 notes in all
every slice has room; beyond that it depends on which lines share the slice (R15). -/
def State.noteRoom (s : State) (core k : Nat) : Bool :=
  s.notes.any (fun n => n.line == lineKey k && n.core == core) || decide (s.notes.length < 4096) ||
    decide ((s.notes.filter fun n => s.sliceOf n.line == s.sliceOf k).length < 4096)

/-- A presence note of a released line; none where the slice has no room (R150). -/
def State.noteLine (s : State) (core k : Nat) : Bool × State :=
  if s.notes.any fun n => n.line == lineKey k && n.core == core then (true, s)
  else if s.noteRoom core k then (true, { s with notes := s.notes ++ [{ line := lineKey k, core := core }] })
  else (false, s)

/-- Bytes written in a core's L1, dirty until they reach home, which is by the microsecond due (R152). -/
def State.l1Store (s : State) (run : Option Nat) (core rel due : Nat) (bs : List (Nat × Byte)) : State :=
  let s := bs.foldl (fun s b => s.l1Put run core b.1 (some { val := b.2, dirty := true, rel := rel, due := due })) s
  s.monitorAll (bs.map (·.1))

/-- A store to a place within the module is performed (R117). -/
def State.storeHere (s : State) (p : PStore) (k : Nat) (bs : List Byte) (f : FullOp) (rel : Option Scope) : State :=
  let run := if p.op.inCore p.core then some p.run else none
  if isScratch k then
    let s := match rel with
      | some sc => s.releaseAt p.core sc
      | none => s
    let s := s.pokes run (bytesAt k bs)
    let s := match f with
      | .keep => s
      | .setFull => s.setFull run k true
      | .setEmpty => s.setFull run k false
      | .waitEmpty => s.setFull run k true
    s.monitorAll ((bytesAt k bs).map (·.1))
  else match rel with
    | some sc =>
      if sc.wide then
        let s := s.releaseAt p.core sc
        let s := bs.zipIdx.foldl (fun s b => s.l1Put none p.core (k + b.2) none) s
        s.homeStore (bytesAt k bs) (some p.core)
      else s.l1Store run p.core p.rel p.due (bytesAt k bs)
    | none => s.l1Store run p.core p.rel p.due (bytesAt k bs)

/-- A cache form is performed (R166). -/
def State.cacheHere (s : State) (core : Nat) (o : CacheOp) (l : Loc) : State :=
  match l with
  | .remote _ _ => s
  | .key k =>
    let line := some (lineKey k)
    let s := s.writeBackAll core line
    if o = .cwb then s
    else
      let s := (s.dropClean core line).dropFetched core line
      if o = .cwbinv then s.dropLine k true else s

/-- A release fence of a scope beyond WG is performed: what it orders, it orders also for a WG-scope one before it (R150). -/
def Thread.wideRel (t : Thread) (id : Nat) : Thread :=
  { t with wgRel := t.wgRel.bind fun i => if i < id then none else some i }

/-- A committed effect is performed, and the stores count falls if it counts (R117). -/
def State.performStore (s : State) (p : PStore) : State :=
  let s := { s with stores := s.stores.filter fun (x : PStore) => x.id != p.id }
  let s := if p.op.releases then s.mirrorFor p.who else s
  let s : State := match p.op with
    | .store (.key k) bs f rel => s.storeHere p k bs f rel
    | .store (.remote _ _) _ _ _ => s
    | .fence k sc =>
      let s := if k = FenceKind.acq then s else s.releaseAt p.core sc
      let s := if k ≠ FenceKind.acq ∧ sc.wide = true then s.modThread p.who fun t => t.wideRel p.id else s
      let s := if k = FenceKind.sc then s.scPlace p sc else s
      if k = FenceKind.rel then s else s.acquire p.core sc
    | .cache o l => s.cacheHere p.core o l
  let s := s.pushRetry p.who
  if p.counted then s.uncount p.who .stores else s.tryReady p.who

/-- A WG-scope release to a line of this module's HBM: a release write of that scope, or a write that a release fence of that
scope comes before (R144, R150). -/
def PStore.noted (p : PStore) : Option Nat :=
  match p.op with
  | .store (.key k) _ _ rel =>
    if isHbm k && (rel == some .wg || (rel.isNone && p.fenced)) then some k else none
  | _ => none

/-- The release performs at DV scope, since its note finds no room (R150): it leaves the core at its release cycle. -/
def PStore.widen (p : PStore) : PStore :=
  match p.op with
  | .store l bs f _ => { p with op := .store l bs f (some .dv) }
  | _ => p

/-- A committed effect that may be performed is: a WG-scope release sends its presence note first (R150). -/
def State.perform (s : State) (p : PStore) : State :=
  match p.noted with
  | none => s.performStore p
  | some k =>
    let (ok, s) := s.noteLine p.core k
    if ok then s.performStore p
    else { s with stores := s.stores.map fun (x : PStore) => if x.id = p.id then p.widen else x }

/-- A store to another module goes out as a request (22_fabric_host.md R338, R339). -/
def State.sendStore (s : State) (p : PStore) (m : Nat) : State :=
  let (j, s) := s.takeId
  let (pa, bs) := match p.op with
    | .store (.remote _ pa) bs _ _ => (pa, bs)
    | _ => (0, [])
  let s := s.addRemote { id := j, purpose := .store p.id, part := s.partOf p.who, mod := m, type := 3, paddr := pa, body := bs }
  { s with stores := s.stores.map fun (x : PStore) => if x.id = p.id then { x with remote := some j } else x }

/-- A command that finds its scratchpad gone to a new owner is refused (25_system.md R378): its registers are poisoned, and
the fault is raised at the thread's next run (R141). -/
def State.refuseCmd (s : State) (h : HeldRun) (c : Cmd) : State :=
  let (n, s) := s.takeFresh
  let f : FaultInfo := { faultAt .prot c.addr .atomic true with deferred := true }
  let s := s.modThread h.who fun t => t.defer f (some h.seq)
  let ds := c.dests.map fun d => { reg := d, tag := tagRaw, off := 0, len := 4, sgn := false }
  (s.arrive h.who h.seq (poisonRegs n f ds) .loads).readDone h.who h.core h.id

end Sys2Proof.Machine
end

