-- ==== Sys2Proof/Machine/Issue.lean ====
section
/-! DEFINITION. What is common to every instruction of a thread: the checks in their order, guards, interlocks and
poison (03_encodings.md R47 to R52, 06_lane_instructions.md R81, R82, 07_execution.md R115, R123, 08_memory.md R141),
and the fetching of instruction bytes (R393). -/

namespace Sys2Proof.Machine

/-- An outcome of a step. -/
abbrev Result := Host.Outcome State Fault Refusal

/-- The slices that may contain an instruction (R37). -/
inductive Slice where
  | both | exec | access
  deriving DecidableEq, Repr

/-- What an instruction is before it acts: the registers it reads and writes, those it only names, its size, its slice,
and what it is to its run. meets names the mask register of a cross-lane instruction. cls is the class it counts in, at
issue for a load and at commit else, and counts how often. -/
structure Use where
  reads : List Nat := []
  writes : List Nat := []
  names : List Nat := []
  size : Nat := 4
  slice : Slice := .exec
  priv : Bool := false
  commits : Bool := false
  ends : Bool := false
  guards : Bool := false
  meets : Option Nat := none
  cls : Cls := .none
  counts : Nat := 1
  deriving DecidableEq, Repr

/-- The instruction ends a run of its thread: those of the access engine end none in an execute slice (R49). -/
def Use.endsFor (u : Use) (acc : Bool) : Bool := u.ends && (acc || u.slice != .access)

def Use.regs (u : Use) : List Nat := u.reads ++ u.writes
/-- Whether a slice may contain the instruction (R37). -/
def Use.allowed (u : Use) (acc : Bool) : Bool :=
  match u.slice with
  | .both => true
  | .exec => !acc
  | .access => acc

/-- The registers of a thread: its workgroup's allotment, and 32 for an access thread (R193). -/
def allotOf (r : TRef) (g : Wg) : Nat := if r.acc then 32 else g.allot

/-- The first check of R47 that an instruction of a thread fails beyond its decoding: the slice (R37), the mode, the
allotment (R30). -/
def Use.encFault (u : Use) (r : TRef) (t : Thread) (g : Wg) : Option Code :=
  if !u.allowed r.acc then some .illegal
  else if u.priv && !t.arch.sup then some .priv
  else if (u.regs ++ u.names).all fun x => decide (x < allotOf r g) then none
  else some .regbound

/-- The stores a run has buffered (R117). -/
def Run.buffered (x : Run) : Nat :=
  (x.buf.filter fun o => match o.op with
    | .fence _ _ => false
    | _ => true).length

/-- A class counter has no room for an instruction that counts n times (R117): the stores that its run has buffered will
count when the run commits. -/
def Thread.full (t : Thread) (c : Cls) (n : Nat) : Bool :=
  match c with
  | .stores => decide (15 < t.stores + t.run.buffered + n)
  | .none => false
  | c => decide (15 < t.counter c + n)

/-- The error of the first poisoned register that an instruction reads (R141). -/
def Arch.poisonOf (a : Arch) (l : List Nat) : Option FaultInfo := l.findSome? fun x => (a.regs.get x).poison

/-- The stall of the thread that is issuing: nothing changes but the interlock counter (R115). -/
def State.interlock (s : State) (r : TRef) : State :=
  s.modQuad (s.quadOf r) fun q => { q with interlocks := q.interlocks + 1 }

/-- An instruction passed over under a false guard (R82, R123): a committing one does not perform but closes its
run to further instructions (R50), and a cross-lane one whose mask has the thread's own lane counts it as exited at one meeting
there. DESIGN CHOICE (log entry 100): a run that is executed again passes it over once more, and the thread counts as exited once
more even where the meeting has taken place; R123 and R130 do not speak of it. -/
def State.passGuarded (s : State) (r : TRef) (u : Use) : State :=
  s.modThread r fun t =>
    let t := if u.commits then { t with run := { t.run with cmark := some t.run.count } } else t
    let t := match u.meets with
      | some b => if (t.arch.reg b).bits.getLsbD (r.tid % 32) then { t with arch := { t.arch with skips := t.arch.skips ++ [t.arch.pc] } } else t
      | none => t
    t.pass u.size

/-- The run of a thread cannot go on without its loads that follow an SC fence of the run itself, which is performed only when the
run has committed. As soon as nothing else holds the fence back, they are made before it: the fence will have its place
where the run commits, and the run is executed again if the fence of another thread has come between (R118, R145). DEDUCED (log
entry 61). -/
def State.hurry (s : State) (r : TRef) (t : Thread) : State :=
  let mine := s.loads.filter fun l => l.order && l.who == r && l.seq == t.seq
  if mine.isEmpty || !(s.earlyMay r t) then s
  else
    let s := s.readEarly r t
    let s := { s with loads := s.loads.map fun (l : PLoad) =>
      if l.order ∧ l.who = r ∧ l.seq = t.seq then { l with order := false, early := true } else l }
    forEach (fun (s : State) l => s.sendLoad l) s mine

/-- The stall of an instruction that waits for registers, counters or earlier accesses of its own run (R81, R115). -/
def State.stallRun (s : State) (r : TRef) (t : Thread) : State := (s.hurry r t).interlock r

/-- An instruction that its guard lets act: its interlocks, the poison check and its meaning. DESIGN CHOICE (log entry 95): the
poison of a named source (R141) comes before the instruction's own faults, such as TAG; R82 gives them no order. -/
def State.act (s : State) (u : Use) (body : TRef → Thread → Wg → State → State) (r : TRef) (t : Thread) (g : Wg) : State :=
  if u.regs.any (fun x => t.busy.contains x) || t.full u.cls u.counts then s.stallRun r t
  else match t.arch.poisonOf u.reads with
    | some f => s.takeFault r f t.run.count
    | none => body r t g s

/-- An access thread passes over a loop of no trips: instructions up to the matching aend have no effect (R195). -/
def Thread.skipping (t : Thread) : Bool :=
  match t.acc with
  | some a => decide (0 < a.skip)
  | none => false

/-- ONE INSTRUCTION of the issuing thread. In order: a committing instruction that something other than a terminator
follows (R50), the encoding checks (R47), a loop passed over (R195), a guarded range that ends the run or holds a guard
(R51), the guard (R123), outstanding registers and full counters (R115, R117), poisoned sources (R141), and then its own
meaning. -/
def State.lane (s : State) (u : Use) (body : TRef → Thread → Wg → State → State) : Result :=
  match s.cur with
  | none => .fault .noThread
  | some r =>
    match s.thread r, s.wg r.wg with
    | some t, some g =>
      match (if u.endsFor r.acc then none else t.run.cmark) with
      | some k => .next (s.takeFault r (plainFault .runform) k)
      | none =>
        match u.encFault r t g with
        | some c => .next (s.takeFault r (plainFault c) t.run.count)
        | none =>
          if t.skipping && !u.ends then .next (s.pass r u.size)
          else match t.run.guard with
          | some gs =>
            if u.ends || u.guards then .next (s.takeFault r (plainFault .runform) gs.at')
            else if !gs.cond then .next (s.passGuarded r u)
            else .next (s.act u body r t g)
          | none => .next (s.act u body r t g)
    | _, _ => .fault .noThread

/-- A lane instruction (R80): a new register state, or a fault. -/
def State.laneArch (s : State) (u : Use) (f : Thread → Wg → Except Code Arch) : Result :=
  s.lane u fun r t g s =>
    match f t g with
    | .ok a => (s.modThread r fun t => { t with arch := a }).pass r u.size
    | .error c => s.takeFault r (plainFault c) t.run.count

/-! ### Committing instructions (R50) -/

/-- What a committing instruction finds when it is issued: its command, a fault, a translation that the TLB lacks, or
an interlock. -/
inductive Cap where
  | ok (c : Cmd)
  | fault (f : FaultInfo)
  | miss (a : DWord) (k : Access)
  | wait
  deriving DecidableEq, Repr

/-- A pop. -/
def CmdOp.isPop (o : CmdOp) : Bool := o == .qpop || o == .qtrypop

/-- The reads of a thread that a command follows: the acquires before it, its waiting pops among them but for another pop, and the
earlier reads of the bytes it acts on (R147, R163, R192). -/
def State.cmdAfter (s : State) (r : TRef) (t : Thread) (c : Cmd) : List Nat :=
  t.acq ++ (if c.op.isPop then [] else s.popsOf r) ++ (match c.loc with
    | some l => if c.op.span = 0 then [] else s.ownReadsAt r l c.op.span
    | none => [])

/-- The command kept until the run commits (R118), and its place in the run. -/
def State.capture (s : State) (r : TRef) (u : Use) (c : Cap) : State :=
  match c with
  | .fault f => s.takeFault r f (((s.thread r).map (·.run.count)).getD 0)
  | .miss a k => s.startWalk r a k
  | .wait => (match s.thread r with
    | some t => s.stallRun r t
    | none => s)
  | .ok c =>
    let s := s.modThread r fun t =>
      { t with run := { t.run with commit := some { c with pc := t.arch.pc, after := s.cmdAfter r t c }, cmark := some t.run.count } }
    s.pass r u.size

/-- A committing instruction (R50). -/
def commitForm (u : Use) (f : TRef → Thread → Wg → State → Cap) (s : State) : Result :=
  s.lane { u with commits := true } fun r t g s => s.capture r u (f r t g s)

/-- A register operand of a committing instruction that must hold a scratchpad address of a block: the key of its
first byte (R137, R138). -/
def State.blockAt (s : State) (r : TRef) (w : Word) (align len : Nat) (k : Access) : Except FaultInfo Nat :=
  match s.wg r.wg with
  | none => .error (plainFault .xlate)
  | some g =>
    if w.toNat % align ≠ 0 then .error (faultAt .align (w.setWidth 64) k true)
    else match s.scratchAt g w len with
      | .ok key => .ok key
      | .error c => .error (faultAt c (w.setWidth 64) k true)

/-! ### Instruction bytes (R24, R393) -/

/-- The outcome of fetching one unit. -/
inductive Fetched where
  | ok (u : Half) (s : State)
  | fault (f : FaultInfo)
  | miss

/-- The unit of 2 bytes at home (R24). -/
def State.homeUnit (s : State) (k : Nat) : Half := BitVec.ofNat 16 (leNat (s.mem.readN k 2))

/-- One instruction unit for a thread: execute permission (R320), the line's home slice, or a copy that the core
keeps (R393). A unit of another module's memory has to come here first; one of another domain's raises SCOPE (22_fabric_host.md
R337). -/
def State.fetchUnit (s : State) (r : TRef) (a : DWord) : Fetched :=
  match s.thread r, s.wg r.wg with
  | some t, some g =>
    if inScratchRange a || !isCanonical a then .fault (faultAt .xlate a .fetch false)
    else
      let core := s.coreOf r
      match s.tlbFind core g.part a with
      | none => .miss
      | some e => match s.checkPage g.part t.arch.sup .fetch e.trans a with
        | .error c => .fault (faultAt c a .fetch false)
        | .ok (.remote m pa) => if pa / 2 ^ 44 ≠ s.fab.domain then .fault (faultAt .scope 0 .fetch false) else (match alook (l1Key core (kFar m pa)) s.fetched with
          | some c => .ok c s
          | none => .miss)
        | .ok (.key k) =>
          if s.isPoisoned k then .fault (faultAt .uncorr a .fetch false)
          else
            let home := s.homeUnit k
            match alook (l1Key core k) s.fetched with
            | none => .ok home { s with fetched := aput (l1Key core k) home s.fetched }
            | some c =>
              if c = home then .ok home s
              else
                let (n, s) := s.takeFresh
                if Config.staleFetch n then .ok c s
                else .ok home { s with fetched := aput (l1Key core k) home s.fetched }
  | _, _ => .miss

/-- The bytes of a unit (R24). -/
def unitBytes (u : Half) : List Byte := natLe 2 u.toNat

/-- The bytes of the instruction at the thread's PC: one unit, or two where bit 0 of the first is 1 (R24). -/
inductive FetchRes where
  | ok (bs : List Byte) (s : State)
  | fault (f : FaultInfo)
  | miss (a : DWord)

def State.fetchAt (s : State) (r : TRef) (a : DWord) : FetchRes :=
  match s.fetchUnit r a with
  | .fault f => .fault f
  | .miss => .miss a
  | .ok u s =>
    if u.getLsbD 0 then
      match s.fetchUnit r (a + 2) with
      | .fault f => .fault f
      | .miss => .miss (a + 2)
      | .ok v s => .ok (unitBytes u ++ unitBytes v) s
    else .ok (unitBytes u) s

/-! ### Words looked at without running them -/

/-- MAJ of a 32-bit word (R29). -/
def wordMaj (w : Nat) : Nat := w / 2 % 64

/-- A 32-bit word is a WAIT, a BR or BRX form, a FLOW form that ends a run, a GUARD, or in an access slice one of the AENG
forms that end a run (R49, R51). A word that does not decode is none: it is ILLEGAL where it stands (R47). -/
def wordEnds (acc : Bool) (maj d a b fn : Nat) : Bool :=
  match maj with
  | 0x1B => fn == 0 && a == 0 && b == 0
  | 0x1C => (decodeBr d a b fn).isOk
  | 0x1D => (decodeBrx d a b fn).isOk
  | 0x1E => (d / 8 == 1 || d / 8 == 2 || d / 8 == 3 || d / 8 == 5) && (decodeFlow d a b fn).isOk
  | 0x1F => decide (fn < 8) && !(fn / 4 == 0 && fn % 4 * 32 + b / 4 != 0)
  | 0x36 => acc && (fn == 0 || ((fn == 1 || fn == 4) && d == 0 && a == 0 && b == 0))
  | _ => false

/-- Whether a first unit and the word it starts end a run, or are a GUARD, in an execute or an access slice (R49,
R51). -/
def endsRange (acc : Bool) (lo w : Nat) : Bool :=
  lo % 2 == 1 && wordEnds acc (wordMaj w) (w / 2 ^ 7 % 128) (w / 2 ^ 14 % 128) (w / 2 ^ 21 % 128) (w / 2 ^ 28 % 16)

/-- The bytes at an address as a fetch of the thread would read them, if they can be read. -/
def State.peekUnit (s : State) (r : TRef) (a : DWord) : Option Nat :=
  match s.fetchUnit r a with
  | .ok u _ => some u.toNat
  | .fault _ => none
  | .miss => match s.engineAt (s.partOf r) (((s.thread r).map (·.arch.sup)).getD false) .fetch a with
    | .ok (.key k) => some (s.homeUnit k).toNat
    | _ => none

/-- The first unit of the next n instructions that is still to come from another module. -/
def State.rangeFar (s : State) (r : TRef) (a : DWord) : Nat → Option DWord
  | 0 => none
  | n + 1 => if (s.peekUnit r a).isNone then (if (s.fetchFar r a).isSome then some a else none)
    else if ((s.peekUnit r a).getD 0) % 2 = 0 then s.rangeFar r (a + 2) n
    else if (s.peekUnit r (a + 2)).isNone then (if (s.fetchFar r (a + 2)).isSome then some (a + 2) else none)
    else s.rangeFar r (a + 4) n

/-- Whether one of the next n instructions ends the run or is a GUARD (R51); those past the run's 24th are not in the run (R49). -/
def State.rangeBroken (s : State) (r : TRef) (a : DWord) : Nat → Bool
  | 0 => false
  | n + 1 => match s.peekUnit r a with
    | none => false
    | some lo =>
      if lo % 2 = 0 then s.rangeBroken r (a + 2) n
      else match s.peekUnit r (a + 2) with
        | none => false
        | some hi => endsRange r.acc lo (lo + 65536 * hi) || s.rangeBroken r (a + 4) n

/-- Whether the instruction at an address is an lpad with a label (R124, R126). -/
def isLpad (lo hi label : Nat) : Bool :=
  let w := lo + 65536 * hi
  decide (lo % 2 = 1) && wordMaj w == 0x1E && w / 2 ^ 10 % 16 == 4 && w / 2 ^ 7 % 8 == 0 && w / 2 ^ 14 % 128 == 0 &&
    w / 2 ^ 21 % 2048 == label

end Sys2Proof.Machine
end

