-- ==== Sys2Proof/Machine/MemInstr.lean ====
section
/-! DEFINITION. The meanings of the memory instructions: LD, ST, LDT, LDS, STS, LDA, STL, FENCE, CACHE and WAITA
(08_memory.md R159 to R163, R165 to R167). -/

namespace Sys2Proof.Machine

/-! ### What the memory instructions share -/

/-- The accesses of a thread that must wait: an acquire or a fence before them has not returned its value (R163, R165),
an SC fence of an earlier run has not taken its place (R145), or a CREAD or CWRITE has not acted (21_faults.md R311). -/
def State.mustWait (s : State) (r : TRef) (t : Thread) : Bool :=
  !t.acq.isEmpty || s.privBefore r s.nextId || s.stores.any fun p => p.who = r && (match p.op with
    | .fence .sc _ => true
    | _ => false)

/-- An access of an instruction that has translated, faulted, or missed the TLB (R52, R321). -/
def State.withReach (s : State) (r : TRef) (t : Thread) (a : DWord) (k : Access) (x : Reach) (f : Loc → State) : State :=
  match x with
  | .fault e => s.takeFault r e t.run.count
  | .miss => s.startWalk r a k
  | .ok l => f l

/-- X(b) plus an offset in units of a size (R160). -/
def genAddr (q : Arch) (b : Nat) (off : Int) (unit : Nat) : DWord := q.pair b + BitVec.ofInt 64 (off * unit)
/-- v[A] plus an offset in words (R162). -/
def scrAddr (q : Arch) (a : Nat) (off : Int) : Word := (q.reg a).bits + BitVec.ofInt 32 (off * 4)

/-- One register that receives a whole load. -/
def dest1 (d : Nat) (tag : Half) (len : Nat) (sgn : Bool) : List Dest := [{ reg := d, tag := tag, off := 0, len := len, sgn := sgn }]
/-- A pair that receives 8 bytes (R62). -/
def dest64 (d : Nat) : List Dest :=
  [{ reg := d, tag := tagLo64, off := 0, len := 4 }, { reg := d + 1, tag := tagHi64, off := 4, len := 4 }]

/-- A load through a generic address (R160, R163). -/
def loadGen (d : List Dest) (b : Nat) (off : Int) (size : Nat) (k : ReadKind) (sc : Option Scope) (s : State) : Result :=
  s.lane { reads := [b, b + 1], writes := d.map (·.reg), cls := .loads } fun r t _ s =>
    let a := genAddr t.arch b off size
    if s.mustWait r t then s.stallRun r t
    else
      let k := if inScratchRange a && k == .promote then .acquire .dv else k
      s.withReach r t a .load (s.reach r a size .load sc (k == .promote)) fun l =>
        (s.issueLoad r l size k d none a).pass r 4

/-- The low n bytes of a register or of a pair (R63). -/
def dataBytes (q : Arch) (d n : Nat) : List Byte :=
  if n = 8 then natLe 8 (q.pair d).toNat else natLe n (q.reg d).bits.toNat

/-- The registers that hold n bytes of store data. -/
def dataRegs (d n : Nat) : List Nat := if n = 8 then [d, d + 1] else [d]

/-- An effect buffered until the run commits (R118). A release and a fence follow every read before them, another effect
the acquires before it, and a store the earlier reads of its bytes (R144, R147, R165); all of them follow the waiting pops of
the thread (R192). -/
def State.buffer (s : State) (r : TRef) (o : BufOp) (a : DWord) : State :=
  s.modThread r fun t =>
    let before := s.popsOf r ++ match o with
      | .store _ _ _ (some _) => s.ownReads r
      | .store l bs _ none => t.acq ++ s.ownReadsAt r l bs.length
      | .fence _ _ => s.ownReads r
      | .cache _ _ => t.acq
    { t with run := { t.run with buf := t.run.buf ++ [{ op := o, after := before, addr := a }] } }

/-- A store through a generic address (R160, R163). -/
def storeGen (d b : Nat) (off : Int) (size : Nat) (rel : Option Scope) (s : State) : Result :=
  s.lane { reads := [b, b + 1] ++ dataRegs d size, cls := .stores } fun r t _ s =>
    let a := genAddr t.arch b off size
    s.withReach r t a .store (s.reach r a size .store rel false) fun l =>
      (s.buffer r (.store l (dataBytes t.arch d size) .keep rel) a).pass r 4

/-- A load from a scratchpad address that no bit holds up (R162). -/
def loadScr (d : List Dest) (a : Nat) (off : Int) (size : Nat) (s : State) : Result :=
  s.lane { reads := [a], writes := d.map (·.reg), cls := .loads } fun r t _ s =>
    let w := scrAddr t.arch a off
    if s.mustWait r t then s.stallRun r t
    else s.withReach r t (w.setWidth 64) .load (s.reachScratch r w size .load) fun l =>
      (s.issueLoad r l size .plain d none (w.setWidth 64)).pass r 4

/-- A store to a scratchpad address (R162). STS.WEF may need an entry of the wait table: without room for one it stalls here
(R157). -/
def storeScr (d a : Nat) (off : Int) (size : Nat) (f : FullOp) (s : State) : Result :=
  s.lane { reads := [a] ++ dataRegs d size, cls := .stores } fun r t _ s =>
    let w := scrAddr t.arch a off
    s.withReach r t (w.setWidth 64) .store (s.reachScratch r w size .store) fun l =>
      if f = .waitEmpty ∧ s.monitorRoom (s.coreOf r) 1 = false then s.stallRun r t
      else (s.buffer r (.store l (dataBytes t.arch d size) f none) (w.setWidth 64)).pass r 4

/-- A thread parked on a word with a monitor entry (R156, R158). Its value counts as a load from here on (R117). -/
def State.parkWord (s : State) (r : TRef) (l : Loc) (k : WaiterKind) (d : Nat) (a : DWord) : State :=
  let (i, s) := s.takeId
  match s.thread r with
  | none => s
  | some t =>
    let key := match l with
      | .key k => k
      | .remote _ _ => 0
    let w : Waiter := { id := i, who := r, seq := t.seq, core := s.coreOf r, key := key, loc := l, kind := k,
                        dests := dest1 d tagN32 4 false, cls := .loads, age := i, spilled := false, addr := a,
                        after := s.popsOf r }
    let s := { s with waiters := s.waiters ++ [w] }
    let s := match l with
      | .remote m pa =>
        let (j, s) := s.takeId
        s.addRemote { id := j, purpose := .waita i, part := s.partOf r, mod := m, type := 1, paddr := pa, body := [4] }
      | .key _ => s
    (s.dropFromQuad r).modThread r fun t =>
      { t with status := .parked (.word i), loads := t.loads + 1, busy := d :: t.busy }

/-- A read that is evaluated where it is made, after an SC fence of its own run: it is made before the fence, as hurry says, as
soon as nothing else holds the fence back (R145; log entry 61). Until then its thread stalls. -/
def State.orderedRead (s : State) (r : TRef) (t : Thread) (f : State → State) : State :=
  if !t.run.scFenced then f s else if s.earlyMay r t then f (s.readEarly r t) else s.stallRun r t

/-- A scratchpad read under F 1 to 3, evaluated at the bank in one step: it takes its value, and its claim where it
sets the word empty, or the thread parks (R155, R158, R162), as it does where a pop of its thread waits before it (R192). An
uncorrectable word is read as a load that fails (R141). DESIGN CHOICE (log entry 97): an lds.se that meets the claim of another
thread parks with a monitor entry, as lds.wf does; R155 says that it waits, R156 and R158 do not name it. -/
def loadBit (d a : Nat) (off : Int) (k : WaiterKind) (claim : Bool) (s : State) : Result :=
  s.lane { reads := [a], writes := [d], cls := .loads } fun r t _ s =>
    let w := scrAddr t.arch a off
    if s.mustWait r t then s.stallRun r t
    else s.withReach r t (w.setWidth 64) .load (s.reachScratch r w 4 .load) fun l =>
      match l with
      | .remote _ _ => s
      | .key key => s.orderedRead r t fun s =>
        let free := !(s.claimed key (some r)) && (k == .ldsSe || s.isFull key) && !(s.cmdAt r t.seq l 4) && (s.popsOf r).isEmpty
        if free then
          let v := if s.wordBad r l (s.coreOf r) false then none else some (s.bankWord r l (s.coreOf r))
          let s := s.issueLoad r l 4 .plain (dest1 d tagN32 4 false) v (w.setWidth 64)
          let s := if claim then s.claimWord r key else s
          s.pass r 4
        else if s.monitorRoom (s.coreOf r) 1 then s.parkWord r l k d (w.setWidth 64)
        else s.stallRun r t

/-! ### LD and ST (R160) -/

/-- ld.raw (R160). -/
def execLdRaw (d : Nat) (b : Nat) (off : Int) (s : State) : Result :=
  loadGen (dest1 d tagRaw 4 false) b off 4 .plain none s

/-- ld.i32 (R160). -/
def execLdI32 (d : Nat) (b : Nat) (off : Int) (s : State) : Result :=
  loadGen (dest1 d tagI32 4 false) b off 4 .plain none s

/-- ld.n32 (R160). -/
def execLdN32 (d : Nat) (b : Nat) (off : Int) (s : State) : Result :=
  loadGen (dest1 d tagN32 4 false) b off 4 .plain none s

/-- ld.f32 (R160). -/
def execLdF32 (d : Nat) (b : Nat) (off : Int) (s : State) : Result :=
  loadGen (dest1 d tagF32 4 false) b off 4 .plain none s

/-- ld.i8 (R160). -/
def execLdI8 (d : Nat) (b : Nat) (off : Int) (s : State) : Result :=
  loadGen (dest1 d tagI32 1 true) b off 1 .plain none s

/-- ld.n8 (R160). -/
def execLdN8 (d : Nat) (b : Nat) (off : Int) (s : State) : Result :=
  loadGen (dest1 d tagN32 1 false) b off 1 .plain none s

/-- ld.i16 (R160). -/
def execLdI16 (d : Nat) (b : Nat) (off : Int) (s : State) : Result :=
  loadGen (dest1 d tagI32 2 true) b off 2 .plain none s

/-- ld.n16 (R160). -/
def execLdN16 (d : Nat) (b : Nat) (off : Int) (s : State) : Result :=
  loadGen (dest1 d tagN32 2 false) b off 2 .plain none s

/-- ld.64 (R160). -/
def execLd64 (d : Nat) (b : Nat) (off : Int) (s : State) : Result := loadGen (dest64 d) b off 8 .plain none s

/-- st.8 (R160). -/
def execSt8 (d : Nat) (b : Nat) (off : Int) (s : State) : Result := storeGen d b off 1 none s

/-- st.16 (R160). -/
def execSt16 (d : Nat) (b : Nat) (off : Int) (s : State) : Result := storeGen d b off 2 none s

/-- st.32 (R160). -/
def execSt32 (d : Nat) (b : Nat) (off : Int) (s : State) : Result := storeGen d b off 4 none s

/-- st.64 (R160). -/
def execSt64 (d : Nat) (b : Nat) (off : Int) (s : State) : Result := storeGen d b off 8 none s

/-! ### LDT (R161) -/

/-- Whether z words from an address lie in one page, as far as the TLB knows the page (R161). -/
def State.onePage (s : State) (r : TRef) (a : DWord) (z : Nat) : Bool :=
  inScratchRange a || (match s.tlbFind (s.coreOf r) (s.partOf r) a with
    | some e => decide (vaIndex a + 4 * z ≤ e.base + e.size)
    | none => true)

/-- ldt (R161): Z words, each with the tag in v[A][15:0]. -/
def execLdt (d : Nat) (b : Nat) (a : Nat) (z : Nat) (s : State) : Result :=
  let n := ldtCount z
  let regs := (List.range n).map fun i => d + i
  s.lane { reads := [b, b + 1, a], writes := regs, cls := .loads } fun r t _ s =>
    let tag : Half := (t.arch.reg a).bits.setWidth 16
    let x := t.arch.pair b
    if s.mustWait r t then s.stallRun r t
    else if !validTag tag.toNat then s.takeFault r (plainFault .tag) t.run.count
    else if !s.onePage r x n then s.takeFault r (faultAt .align x .load false) t.run.count
    else s.withReach r t x .load (s.reachLen r x 4 (4 * n) .load none false) fun l =>
      let ds := (List.range n).map fun i => ({ reg := d + i, tag := tag, off := 4 * i, len := 4 } : Dest)
      (s.issueLoad r l (4 * n) .plain ds none x).pass r 4

/-! ### LDS and STS (R162) -/

/-- lds (R162). -/
def execLds (d : Nat) (a : Nat) (off : Int) (s : State) : Result := loadScr (dest1 d tagN32 4 false) a off 4 s

/-- lds.wf (R162): waits while the word is empty and leaves it full. -/
def execLdsWf (d : Nat) (a : Nat) (off : Int) (s : State) : Result := loadBit d a off (.ldsFull false) false s

/-- lds.wfe (R162): waits while the word is empty and claims it, to be empty at commit (R155). -/
def execLdsWfe (d : Nat) (a : Nat) (off : Int) (s : State) : Result := loadBit d a off (.ldsFull true) true s

/-- lds.se (R162): claims the word, to be empty at commit (R155). -/
def execLdsSe (d : Nat) (a : Nat) (off : Int) (s : State) : Result := loadBit d a off .ldsSe true s

/-- lds.64 (R162). -/
def execLds64 (d : Nat) (a : Nat) (off : Int) (s : State) : Result := loadScr (dest64 d) a off 8 s

/-- lds.8 (R162). -/
def execLds8 (d : Nat) (a : Nat) (off : Int) (s : State) : Result := loadScr (dest1 d tagN32 1 false) a off 1 s

/-- lds.16 (R162). -/
def execLds16 (d : Nat) (a : Nat) (off : Int) (s : State) : Result := loadScr (dest1 d tagN32 2 false) a off 2 s

/-- sts (R162). -/
def execSts (d : Nat) (a : Nat) (off : Int) (s : State) : Result := storeScr d a off 4 .keep s

/-- sts.wef: waits after commit until the word is empty, and sets it full (R155) (R162). -/
def execStsWef (d : Nat) (a : Nat) (off : Int) (s : State) : Result := storeScr d a off 4 .waitEmpty s

/-- sts.sf (R162). -/
def execStsSf (d : Nat) (a : Nat) (off : Int) (s : State) : Result := storeScr d a off 4 .setFull s

/-- sts.se (R162). -/
def execStsSe (d : Nat) (a : Nat) (off : Int) (s : State) : Result := storeScr d a off 4 .setEmpty s

/-- sts.64 (R162). -/
def execSts64 (d : Nat) (a : Nat) (off : Int) (s : State) : Result := storeScr d a off 8 .keep s

/-- sts.8 (R162). -/
def execSts8 (d : Nat) (a : Nat) (off : Int) (s : State) : Result := storeScr d a off 1 .keep s

/-- sts.16 (R162). -/
def execSts16 (d : Nat) (a : Nat) (off : Int) (s : State) : Result := storeScr d a off 2 .keep s

/-! ### LDA and STL (R163, R150) -/

/-- lda (R163). -/
def execLda32 (d : Nat) (b : Nat) (off : Int) (sc : Scope) (s : State) : Result :=
  loadGen (dest1 d tagN32 4 false) b off 4 (.acquire sc) (some sc) s

/-- lda.64 (R163). -/
def execLda64 (d : Nat) (b : Nat) (off : Int) (sc : Scope) (s : State) : Result :=
  loadGen (dest64 d) b off 8 (.acquire sc) (some sc) s

/-- lda.p.dv (R150, R163). -/
def execLdaP (d : Nat) (b : Nat) (off : Int) (s : State) : Result :=
  loadGen (dest1 d tagN32 4 false) b off 4 .promote (some .dv) s

/-- lda.p64.dv (R150, R163). -/
def execLdaP64 (d : Nat) (b : Nat) (off : Int) (s : State) : Result := loadGen (dest64 d) b off 8 .promote (some .dv) s

/-- stl (R163). -/
def execStl32 (d : Nat) (b : Nat) (off : Int) (sc : Scope) (s : State) : Result := storeGen d b off 4 (some sc) s

/-- stl.64 (R163). -/
def execStl64 (d : Nat) (b : Nat) (off : Int) (sc : Scope) (s : State) : Result := storeGen d b off 8 (some sc) s

/-! ### FENCE (R165) -/

/-- The acquire side of a fence: the loads before it hold the accesses after it. -/
def State.fenceLoads (s : State) (r : TRef) (sc : Scope) : State :=
  let ids := s.ownReads r
  if ids.isEmpty then s.acquire (s.coreOf r) sc
  else s.modThread r fun t => { t with acq := ids, acqDrop := t.acqDrop || sc.wide }

/-- A fence: its acquire side takes effect at once, its release side with the run's stores (R118, R165). -/
def fence (k : FenceKind) (sc : Scope) (s : State) : Result :=
  s.lane {} fun r _ _ s =>
    let s := if k = .rel then s else s.fenceLoads r sc
    let s := if k = .acq then s else s.buffer r (.fence k sc) 0
    s.pass r 4

/-- fence.acq (R165). -/
def execFenceAcq (sc : Scope) (s : State) : Result := fence .acq sc s
/-- fence.rel (R165). -/
def execFenceRel (sc : Scope) (s : State) : Result := fence .rel sc s
/-- fence.ar (R165). -/
def execFenceAr (sc : Scope) (s : State) : Result := fence .ar sc s
/-- fence.sc (R165, R145): it takes its place in the one order of SC fences in the step that performs it. -/
def execFenceSc (sc : Scope) (s : State) : Result := fence .sc sc s

/-! ### CACHE (R166) -/

/-- The line a CACHE form names. -/
def lineAddr (q : Arch) (b : Nat) (off : Int) : DWord := (genAddr q b off 128) &&& ~~~(127 : DWord)

/-- A CACHE form that only advises (R166): no fault, no class, no value. -/
def cacheHint (b : Nat) (off : Int) (f : TRef → Thread → DWord → State → State) (s : State) : Result :=
  s.lane { reads := [b, b + 1] } fun r t _ s => (f r t (lineAddr t.arch b off) s).pass r 4

/-- The line brought into the core's L1 as clean copies; a line that cannot be translated is ignored (R166), and an
uncorrectable codeword is no data that a copy could hold (R331). -/
def State.prefetchL1 (s : State) (r : TRef) (t : Thread) (a : DWord) : State :=
  if inScratchRange a then s
  else match s.engineAt (s.partOf r) t.arch.sup .load a with
    | .ok (.key k) =>
      let core := s.coreOf r
      let s := s.takeLine k
      { s with l1 := (List.range 128).foldl (fun m i =>
          match alook (l1Key core (k + i)) m with
          | some _ => m
          | none => if s.isPoisoned (k + i) then m else
              aput (l1Key core (k + i)) { val := Memory.read s.mem (k + i), dirty := false, rel := 0, due := s.us + 20 } m) s.l1 }
    | _ => s

/-- The line brought into its home slice; one that cannot be translated is ignored (R166). -/
def State.prefetchL2 (s : State) (r : TRef) (t : Thread) (a : DWord) : State :=
  if inScratchRange a then s
  else match s.engineAt (s.partOf r) t.arch.sup .load a with
    | .ok (.key k) => s.takeLine k
    | _ => s

/-- A CACHE form that acts with the run's stores and counts in their class (R166). -/
def cacheForm (b : Nat) (off : Int) (k : Access) (o : Loc → BufOp) (s : State) : Result :=
  s.lane { reads := [b, b + 1], cls := .stores } fun r t _ s =>
    let a := lineAddr t.arch b off
    if inScratchRange a then s.pass r 4
    else s.withReach r t a k (s.reach r a 1 k none false) fun l => (s.buffer r (o l) a).pass r 4

/-- pref.l2 (R166). -/
def execPrefL2 (b : Nat) (off : Int) (s : State) : Result := cacheHint b off (fun r t a s => s.prefetchL2 r t a) s
/-- pref.l1 (R166). -/
def execPrefL1 (b : Nat) (off : Int) (s : State) : Result := cacheHint b off (fun r t a s => s.prefetchL1 r t a) s
/-- cwb (R166). -/
def execCwb (b : Nat) (off : Int) (s : State) : Result := cacheForm b off .load (.cache .cwb) s
/-- cinv (R166). -/
def execCinv (b : Nat) (off : Int) (s : State) : Result := cacheForm b off .load (.cache .cinv) s
/-- cwbinv (R166). -/
def execCwbinv (b : Nat) (off : Int) (s : State) : Result := cacheForm b off .load (.cache .cwbinv) s
/-- czero (R166): a plain write of 128 zero bytes. -/
def execCzero (b : Nat) (off : Int) (s : State) : Result :=
  cacheForm b off .store (fun l => .store l (List.replicate 128 0) .keep none) s
/-- cevict (R166): replacement priority shows in timing only. -/
def execCevict (b : Nat) (off : Int) (s : State) : Result := cacheHint b off (fun _ _ _ s => s) s

/-! ### WAITA (R167) -/

/-- The dirty bytes of a word written home, where WAITA looks at it there (R167). -/
def State.bareWord (s : State) (core : Nat) (sc : Scope) (l : Loc) : State :=
  match l with
  | .key k => if widePlace sc l then s.writeBackAll core (some (lineKey k)) else s
  | .remote _ _ => s

/-- WAITA on a word: the satisfying read is an acquire at the scope; else the thread parks with a monitor entry, as it does where
a pop of its own waits before it (R192). An uncorrectable word is read as a load that fails (R141). -/
def State.waita (s : State) (r : TRef) (l : Loc) (k : WaiterKind) (sc : Scope) (d : Nat) (a : DWord) : State :=
  let core := s.coreOf r
  let s := s.bareWord core sc l
  let wide := widePlace sc l
  let met := match l, k with
    | .remote _ _, _ => false
    | .key key, .waitaFull _ => s.isFull key && !(s.claimed key (some r))
    | .key key, .waitaEq _ w => s.wordTest r l core sc (· == w) && !(s.claimed key (some r))
    | .key key, .waitaChg _ w => s.wordTest r l core sc (· != w) && !(s.claimed key (some r))
    | .key _, _ => false
  let before := (match s.thread r with
    | some t => s.cmdAt r t.seq l 4
    | none => false) || !(s.popsOf r).isEmpty
  let v := if s.wordBad r l core wide then none else some (s.wordFor r l core wide)
  if met && !before then (s.issueLoad r l 4 (.acquire sc) (dest1 d tagN32 4 false) v a).pass r 4
  else if s.monitorRoom core 1 then s.parkWord r l k d a
  else s.interlock r

/-- A place in another module. -/
def Loc.foreign : Loc → Bool
  | .remote _ _ => true
  | .key _ => false

/-- A WAITA on a global word (R167); on one of another module SCOPE below SY (R338). -/
def waitaGen (d b off : Nat) (sc : Scope) (k : Word → WaiterKind) (s : State) : Result :=
  s.lane { reads := [b, b + 1, d], writes := [d], cls := .loads } fun r t _ s =>
    let a := genAddr t.arch b off 4
    if s.mustWait r t then s.stallRun r t
    else s.withReach r t a .load (s.reach r a 4 .load none false) fun l =>
      if l.foreign && sc != .sy then s.takeFault r (faultAt .scope 0 .load false) t.run.count
      else s.orderedRead r t fun s => s.waita r l (k (t.arch.reg d).bits) sc d a

/-- A WAITA on a scratchpad word (R167). -/
def waitaScr (reads : List Nat) (d b off : Nat) (sc : Scope) (k : Word → WaiterKind) (s : State) : Result :=
  s.lane { reads := b :: reads, writes := [d], cls := .loads } fun r t _ s =>
    let w := scrAddr t.arch b off
    if s.mustWait r t then s.stallRun r t
    else s.withReach r t (w.setWidth 64) .load (s.reachScratch r w 4 .load) fun l =>
      s.orderedRead r t fun s => s.waita r l (k (t.arch.reg d).bits) sc d (w.setWidth 64)

/-- waita.eq on a global word (R167). -/
def execWaitaEqGlobal (d : Nat) (b : Nat) (off : Nat) (sc : Scope) (s : State) : Result :=
  waitaGen d b off sc (.waitaEq sc) s
/-- waita.chg on a global word (R167). -/
def execWaitaChgGlobal (d : Nat) (b : Nat) (off : Nat) (sc : Scope) (s : State) : Result :=
  waitaGen d b off sc (.waitaChg sc) s
/-- waita.full (R167): the bit stays as it is. -/
def execWaitaFull (d : Nat) (b : Nat) (off : Nat) (sc : Scope) (s : State) : Result :=
  waitaScr [] d b off sc (fun _ => .waitaFull sc) s
/-- waita.eq on a scratchpad word (R167). -/
def execWaitaEqScratch (d : Nat) (b : Nat) (off : Nat) (sc : Scope) (s : State) : Result :=
  waitaScr [d] d b off sc (.waitaEq sc) s
/-- waita.chg on a scratchpad word (R167). -/
def execWaitaChgScratch (d : Nat) (b : Nat) (off : Nat) (sc : Scope) (s : State) : Result :=
  waitaScr [d] d b off sc (.waitaChg sc) s

end Sys2Proof.Machine
end

