-- ==== Sys2Proof/Machine/Atomic.lean ====
section
/-! DEFINITION. The atomics: their operations, their sites and their meanings (08_memory.md R148, R153, R164). -/

namespace Sys2Proof.Machine

/-- OP of an operation (03_encodings.md R46). -/
def AtomOp.num : AtomOp → Nat
  | .add => 0 | .addb => 1 | .min => 2 | .max => 3 | .minn => 4 | .maxn => 5 | .and => 6 | .or => 7 | .xor => 8 | .swap => 9
  | .cas => 10 | .maxsi => 11 | .fadd => 12 | .add64 => 13 | .swap64 => 14 | .cas64 => 15

/-- The operations by OP. -/
def atomOps : List AtomOp :=
  [.add, .addb, .min, .max, .minn, .maxn, .and, .or, .xor, .swap, .cas, .maxsi, .fadd, .add64, .swap64, .cas64]

/-- The body of an atomic request (22_fabric_host.md R333): OP in a word, the value and the second value. -/
def atomBody (o : AtomOp) (ws : List Word) : List Byte :=
  natLe 4 o.num ++ (List.range (o.size / 2)).flatMap fun i => natLe 4 (ws.getD i 0).toNat

/-- The tag of the old value (R164); the 64-bit forms write lo64 and hi64. -/
def AtomOp.tag : AtomOp → Half
  | .add => tagI32 | .addb => tagI32 | .min => tagI32 | .max => tagI32
  | .fadd => tagF32
  | _ => tagN32

/-- The new word, none where nothing is written (R164). m is the old word, v the value and w the second value. -/
def atomNew32 (o : AtomOp) (m v w : Word) : Option Word :=
  match o with
  | .add => some (m + v)
  | .addb => if m.toInt + v.toInt ≤ w.toInt then some (BitVec.ofInt 32 (m.toInt + v.toInt)) else none
  | .min => some (if v.toInt < m.toInt then v else m)
  | .max => some (if m.toInt < v.toInt then v else m)
  | .minn => some (if v.toNat < m.toNat then v else m)
  | .maxn => some (if m.toNat < v.toNat then v else m)
  | .and => some (m &&& v)
  | .or => some (m ||| v)
  | .xor => some (m ^^^ v)
  | .swap => some v
  | .cas => if m = v then some w else none
  | .maxsi =>
    let sm := (m >>> 16).setWidth 16 |>.toInt
    let sv := (v >>> 16).setWidth 16 |>.toInt
    some (if sm < sv ∨ (sv = sm ∧ v.toNat % 2 ^ 16 < m.toNat % 2 ^ 16) then v else m)
  | .fadd => some (BitVec.ofNat 32 (roundIeee (sumNum .rne [f32.decode m.toNat, f32.decode v.toNat]).1 f32 .rne).1)
  | _ => none

/-- The new pair of the 64-bit operations (R164). -/
def atomNew64 (o : AtomOp) (m v w : DWord) : Option DWord :=
  match o with
  | .add64 => some (m + v)
  | .swap64 => some v
  | .cas64 => if m = v then some w else none
  | _ => none

/-- The bytes an operation writes, given the old bytes and the operand words, low word first. -/
def atomBytes (o : AtomOp) (old : List Byte) (ws : List Word) : Option (List Byte) :=
  let x := fun i => ws.getD i 0
  if o.size = 8 then
    (atomNew64 o (BitVec.ofNat 64 (leNat old)) (x 1 ++ x 0) (x 3 ++ x 2)).map fun n => natLe 8 n.toNat
  else (atomNew32 o (BitVec.ofNat 32 (leNat old)) (x 0) (x 1)).map fun n => natLe 4 n.toNat

/-- The registers that receive the old value. -/
def atomDests (o : AtomOp) (d : Nat) : List Dest := if o.size = 8 then dest64 d else dest1 d o.tag 4 false

/-- Whether an atomic stays within its core: its own scratchpad, or its L1 at WG scope (R153, R328). -/
def atomInCore (core : Nat) (l : Loc) (sc : Scope) : Bool :=
  match l with
  | .key k => if isScratch k then scratchCore k == core || decide (2 ^ 64 ≤ k) else !sc.wide
  | .remote _ _ => false

/-- The acquires that came before a command and the earlier reads of its bytes have returned (R147, R163). -/
def State.acquired (s : State) (c : Cmd) : Bool := c.after.all fun i => !(s.onWay i)

/-- The site of an atomic that reads and writes in two steps: the cluster unit of a core, for CL scope on HBM (R153). -/
def unitSite (core : Nat) (l : Loc) (sc : Scope) : Option Nat :=
  match l with
  | .key k => if sc == .cl && !(isScratch k) then some (clusOfCore core) else none
  | .remote _ _ => none

/-- A read-modify-write is under way at a site on some bytes (R148). -/
def State.siteBusy (s : State) (site k n : Nat) : Bool :=
  s.rmws.any fun x => x.site == site && decide (k < x.key + x.old.length) && decide (x.key < k + n)

/-- An atomic may act: no earlier effect of its thread to its bytes, no earlier fence, CREAD or CWRITE, no earlier acquire and
no claim holds it (R155, R163, R165, 21_faults.md R311). -/
def State.atomReady (s : State) (r : TRef) (run : Nat) (c : Cmd) (l : Loc) (size : Nat) : Bool :=
  let me : BufOp := .store l (List.replicate size 0) .keep none
  !(s.stores.any fun p => p.who = r && decide (p.run ≤ run) && (match p.op with
    | .fence _ _ => true
    | o => o.overlaps me)) &&
  s.acquired c && !(s.privBefore r run) && (match l with
    | .key k => !(isScratch k) || !(s.claimedIn k size none)
    | .remote _ _ => true)

/-- The bytes of global memory that a read-modify-write beyond WG scope reads: what the core itself holds of them goes home
first. -/
def State.rmwOld (s : State) (core k n : Nat) : List Byte × State :=
  let s := (s.writeBackAll core (some (lineKey k))).dropClean core (some (lineKey k))
  ((List.range n).map fun i => (s.seen core true (k + i)).1, s)

/-- The bytes that such a read-modify-write writes, home. -/
def State.rmwNew (s : State) (core k : Nat) (new : Option (List Byte)) : State :=
  match new with
  | some bs => (bytesAt k bs).foldl (fun s b => s.l1Put none core b.1 none) s |>.homeStore (bytesAt k bs) (some core)
  | none => s

/-- One read-modify-write in one step at the site of a place within the module (R148, R153). run names the run if the
effect may still be discarded. The old bytes are answered. -/
def State.rmwHere (s : State) (run : Option Nat) (core rel due k : Nat) (sc : Scope) (o : AtomOp) (ws : List Word) :
    List Byte × State :=
  let at' := fun (bs : List Byte) => bytesAt k bs
  if isScratch k then
    let old := s.mem.readN k o.size
    match atomBytes o old ws with
    | some new => (old, (s.pokes run (at' new)).monitorAll ((at' new).map (·.1)))
    | none => (old, s)
  else if sc.wide then
    let (old, s) := s.rmwOld core k o.size
    (old, s.rmwNew core k (atomBytes o old ws))
  else
    let old := (List.range o.size).map fun i => (s.seen core false (k + i)).1
    match atomBytes o old ws with
    | some new => (old, s.l1Store run core rel due (at' new))
    | none => (old, s)

/-- The old value of an atomic is written, and its thread's read is done (R164). -/
def State.atomDone (s : State) (h : HeldRun) (c : Cmd) (o : AtomOp) (old : List Byte) : State :=
  (s.arrive h.who h.seq (destRegs (atomDests o c.d) old) .loads).readDone h.who h.core h.id

/-- An atomic meets uncorrectable data (R141). -/
def State.atomBad (s : State) (h : HeldRun) (o : AtomOp) (sc : Scope) (k : Nat) : Bool :=
  (List.range o.size).any fun i => (s.seen h.core sc.wide (k + i)).2 && s.isPoisoned (k + i)

/-- A committed atomic acts, or goes out to another module under its run's number, and its old value is written (R164);
uncorrectable data leave memory as it is, poison the destination and raise the fault at the thread's next run (R141). -/
def State.actAtom (s : State) (h : HeldRun) (c : Cmd) (o : AtomOp) (sc : Scope) : State :=
  match c.loc with
  | none => s
  | some (.remote m pa) =>
    s.addRemote { id := h.id, purpose := .atom h.who h.seq o c.d c.addr, part := s.partOf h.who, mod := m, type := 5, paddr := pa,
                  body := atomBody o c.words }
  | some (.key k) =>
    if s.atomBad h o sc k then
      let (n, s) := s.takeFresh
      let f : FaultInfo := { code := .uncorr, addr := c.addr, access := .atomic, deferred := true }
      let s := s.modThread h.who fun t => t.defer f (some h.seq)
      (s.arrive h.who h.seq (poisonRegs n f (atomDests o c.d)) .loads).readDone h.who h.core h.id
    else
      let run := if atomInCore h.core (.key k) sc && decide (s.clock < h.rel) then some h.id else none
      let (old, s) := s.rmwHere run h.core h.rel h.due k sc o c.words
      s.atomDone h c o old

/-- An atomic at a cluster unit (R148, R153): it reads in one step and writes in a later one, so that the atomics of other
sites may come between; those of its own site may not. Answers whether it is done. -/
def State.actUnit (s : State) (h : HeldRun) (c : Cmd) (o : AtomOp) (sc : Scope) (site k : Nat) : Bool × State :=
  match s.rmws.find? fun x => x.run == some h.id with
  | some x =>
    let s := { s with rmws := s.rmws.filter fun y => y.run != some h.id }
    (true, (s.rmwNew h.core k (atomBytes o x.old c.words)).atomDone h c o x.old)
  | none =>
    if s.siteBusy site k o.size then (false, s)
    else if s.atomBad h o sc k then (true, s.actAtom h c o sc)
    else
      let (old, s) := s.rmwOld h.core k o.size
      (false, { s with rmws := s.rmws ++ [{ site := site, key := k, old := old, run := some h.id, req := none, begun := s.clock }] })

/-- The line of HBM that an atomic writes, where a WG-scope release fence of its thread makes it a release (R144, R150). -/
def Cmd.noted (c : Cmd) : Option Nat :=
  match c.loc with
  | some (.key k) => if c.fenced && isHbm k then some k else none
  | _ => none

/-- Such an atomic sends its presence note first; without room for it, what the core wrote before goes home (R150). -/
def State.noteAtom (s : State) (core : Nat) (c : Cmd) : State :=
  match c.noted with
  | none => s
  | some k =>
    let (ok, s) := s.noteLine core k
    if ok then s else s.releaseAt core .dv

/-- The registers that hold an atomic's operands: V, and V+1 or the pairs the operation reads (R164). -/
def atomOperands (o : AtomOp) (v : Nat) : List Nat :=
  match o with
  | .addb => [v, v + 1]
  | .cas => [v, v + 1]
  | .add64 => [v, v + 1]
  | .swap64 => [v, v + 1]
  | .cas64 => [v, v + 1, v + 2, v + 3]
  | _ => [v]

/-- ATOM (R164): ALIGN, XLATE or PMEMGROW, PROT and SCOPE when issued; it acts when its run has committed. -/
def atom (o : AtomOp) (sc : Scope) (d b v : Nat) (s : State) : Result :=
  let ops := atomOperands o v
  let ds := (atomDests o d).map (·.reg)
  commitForm { reads := [b, b + 1] ++ ops, writes := ds, cls := .loads } (fun r t _ s =>
    let a := t.arch.pair b
    match s.reach r a o.size .atomic (some sc) false with
    | .fault f => .fault f
    | .miss => .miss a .atomic
    | .ok l => .ok { op := .atom o sc, d := d, words := ops.map fun x => (t.arch.reg x).bits, loc := some l, addr := a,
                     dests := ds, cls := .loads }) s

/-- atom.add (R164). -/
def execAtomAdd (sc : Scope) (d : Nat) (b : Nat) (v : Nat) (s : State) : Result := atom .add sc d b v s
/-- atom.addb (R164). -/
def execAtomAddb (sc : Scope) (d : Nat) (b : Nat) (v : Nat) (s : State) : Result := atom .addb sc d b v s
/-- atom.min (R164). -/
def execAtomMin (sc : Scope) (d : Nat) (b : Nat) (v : Nat) (s : State) : Result := atom .min sc d b v s
/-- atom.max (R164). -/
def execAtomMax (sc : Scope) (d : Nat) (b : Nat) (v : Nat) (s : State) : Result := atom .max sc d b v s
/-- atom.minn (R164). -/
def execAtomMinn (sc : Scope) (d : Nat) (b : Nat) (v : Nat) (s : State) : Result := atom .minn sc d b v s
/-- atom.maxn (R164). -/
def execAtomMaxn (sc : Scope) (d : Nat) (b : Nat) (v : Nat) (s : State) : Result := atom .maxn sc d b v s
/-- atom.and (R164). -/
def execAtomAnd (sc : Scope) (d : Nat) (b : Nat) (v : Nat) (s : State) : Result := atom .and sc d b v s
/-- atom.or (R164). -/
def execAtomOr (sc : Scope) (d : Nat) (b : Nat) (v : Nat) (s : State) : Result := atom .or sc d b v s
/-- atom.xor (R164). -/
def execAtomXor (sc : Scope) (d : Nat) (b : Nat) (v : Nat) (s : State) : Result := atom .xor sc d b v s
/-- atom.swap (R164). -/
def execAtomSwap (sc : Scope) (d : Nat) (b : Nat) (v : Nat) (s : State) : Result := atom .swap sc d b v s
/-- atom.cas (R164). -/
def execAtomCas (sc : Scope) (d : Nat) (b : Nat) (v : Nat) (s : State) : Result := atom .cas sc d b v s
/-- atom.maxsi (R164). -/
def execAtomMaxsi (sc : Scope) (d : Nat) (b : Nat) (v : Nat) (s : State) : Result := atom .maxsi sc d b v s
/-- atom.fadd (R164). -/
def execAtomFadd (sc : Scope) (d : Nat) (b : Nat) (v : Nat) (s : State) : Result := atom .fadd sc d b v s
/-- atom.add64 (R164). -/
def execAtomAdd64 (sc : Scope) (d : Nat) (b : Nat) (v : Nat) (s : State) : Result := atom .add64 sc d b v s
/-- atom.swap64 (R164). -/
def execAtomSwap64 (sc : Scope) (d : Nat) (b : Nat) (v : Nat) (s : State) : Result := atom .swap64 sc d b v s
/-- atom.cas64 (R164). -/
def execAtomCas64 (sc : Scope) (d : Nat) (b : Nat) (v : Nat) (s : State) : Result := atom .cas64 sc d b v s

end Sys2Proof.Machine
end

