-- ==== Sys2Proof/Machine/Sync.lean ====
section
/-! DEFINITION. Rendezvous words: their evaluation at the bank, and the SYNC instructions (11_streamers.md R181 to
R186). -/

namespace Sys2Proof.Machine

/-! ### The word (R181) -/

/-- A rendezvous word's fields: PHASE, ARRIVALS and BYTES. -/
structure RvWord where
  phase : Bool
  arrivals : Nat
  bytes : Nat
  deriving DecidableEq, Repr

def RvWord.ofNat (n : Nat) : RvWord :=
  { phase := n / 2 ^ 63 % 2 == 1, arrivals := n / 2 ^ 40 % 2 ^ 23, bytes := n % 2 ^ 40 }
def RvWord.toNat (w : RvWord) : Nat := (if w.phase then 2 ^ 63 else 0) + w.arrivals % 2 ^ 23 * 2 ^ 40 + w.bytes % 2 ^ 40

def State.rvRead (s : State) (k : Nat) : RvWord := RvWord.ofNat (leNat (s.mem.readN k 8))
def State.rvWrite (s : State) (run : Option Nat) (k : Nat) (w : RvWord) : State := s.pokes run (bytesAt k (natLe 8 w.toNat))
/-- The phase word, at +12 (R181). -/
def State.phaseWord (s : State) (k : Nat) : Word := BitVec.ofNat 32 (leNat (s.mem.readN (k + 12) 4))
/-- The word's two full/empty bits set. -/
def State.rvBits (s : State) (run : Option Nat) (k : Nat) (b : Bool) : State := (s.setFull run k b).setFull run (k + 4) b
/-- The waiters on the 16 bytes evaluated again. -/
def State.rvMonitor (s : State) (k : Nat) : State := s.monitorAll [k, k + 4, k + 8, k + 12]

/-! ### Evaluation (R182) -/

/-- The thread, its run and the register that receive a request's phase word. -/
abbrev RvWho := Option (TRef × Nat × Nat)

/-- The phase word a request receives, written to its register (R185). -/
def State.rvReply (s : State) (who : RvWho) (w : Word) : State :=
  match who with
  | some (r, seq, d) => s.arrive r seq [(d, { val := regN32 w })] .loads
  | none => s

/-- Whether a word has been evaluated since its last flip, changed for a run. -/
def State.setRvOpen (s : State) (run : Option Nat) (k : Nat) (b : Bool) : State :=
  if s.rvOpen.contains k == b then s
  else { s.note run (.rvOpen k (!b) b) with rvOpen := if b then insNat k s.rvOpen else s.rvOpen.filter (· != k) }

/-- Requests in the order in which they came. -/
def insHold (h : RvHold) : List RvHold → List RvHold
  | [] => [h]
  | x :: l => if h.id < x.id then h :: x :: l else x :: insHold h l

/-- A request held at its word, for a run. -/
def State.holdAt (s : State) (run : Option Nat) (h : RvHold) : State :=
  { s.note run (.rvHold h true) with rvHolds := insHold h s.rvHolds }

/-- The requests held at a word, which hold there no more. -/
def State.takeHolds (s : State) (run : Option Nat) (k : Nat) : List RvHold × State :=
  let mine := s.rvHolds.filter fun h => h.key == k
  let s := mine.foldl (fun (s : State) h => s.note run (.rvHold h false)) s
  (mine, { s with rvHolds := s.rvHolds.filter fun h => h.key != k })

/-- One evaluation (R182): the arrivals and bytes of a request taken, the flip where both come to zero. Answers the requests that
the flip releases; what is left of the request itself is held until the flip after it. The word's waiters see each evaluation
(R184). -/
def State.rvOne (s : State) (run : Option Nat) (h : RvHold) : List RvHold × State :=
  let k := h.key
  let w := s.rvRead k
  if w.arrivals = 0 ∧ 0 < h.da then ([], s.holdAt run h)
  else
    let s := if s.rvOpen.contains k then s else (s.rvBits run k false).setRvOpen run k true
    let before := s.phaseWord k
    let t := min h.da w.arrivals
    let w := { w with arrivals := w.arrivals - t, bytes := (((w.bytes : Int) + h.db) % 2 ^ 40).toNat }
    let (out, s) :=
      if w.arrivals = 0 ∧ w.bytes = 0 then
        let i := { s.rvRead (k + 8) with phase := !w.phase }
        let s := ((s.rvWrite run k i).rvWrite run (k + 8) i).rvBits run k true
        (s.setRvOpen run k false).takeHolds run k
      else ([], s.rvWrite run k w)
    let s := if t < h.da then s.holdAt run { h with da := h.da - t, db := 0, spilled := false } else s.rvReply h.who before
    (out, s.rvMonitor k)

/-- Requests evaluated one after another, those that a flip releases after the ones already released, oldest first (R182). -/
def State.rvAll (run : Option Nat) : Nat → State → List RvHold → State
  | 0, s, _ => s
  | _, s, [] => s
  | n + 1, s, h :: l =>
    let (out, s) := s.rvOne run h
    rvAll run n s (l ++ out)

/-- EVALUATE (R182): a request to the rendezvous word at a key, and what flips release. Every evaluation but those that hold a
request takes an arrival or is a request's last, and a flip releases each held request once. -/
def State.evaluate (s : State) (run : Option Nat) (k da : Nat) (db : Int) (who : RvWho) : State :=
  let (i, s) := s.takeId
  let n := s.rvHolds.length + 1
  rvAll run (((s.rvHolds.map (·.da)).sum + da + 1) * (n + 1) + n) s [{ key := k, da := da, db := db, who := who, id := i }]

/-! ### SYNC (R185, R186) -/

/-- Whether a form is a release (R186). -/
def CmdOp.syncRelease : CmdOp → Bool
  | .arrive => true | .arriven => true | .pledge => true | .rvleave => true
  | _ => false

/-- The scope of an evaluation: WG in the issuing workgroup's own scratchpad, else CL (R186). -/
def State.rvScope (s : State) (r : TRef) (k : Nat) : Scope :=
  match s.wg r.wg with
  | some g => if g.holds k 16 then .wg else .cl
  | none => .cl

/-- A SYNC may act: no thread claims its words, the acquires before it have returned and the fences, CREAD and CWRITE before it
are performed; a release follows every earlier access of its thread, its waiting pushes and pops and its requests held at their
words among them (R155, R165, R186). -/
def State.syncReady (s : State) (h : HeldRun) (k : Nat) (c : Cmd) : Bool :=
  let r := h.who
  s.acquired c && !(s.fenceBefore r h.id) && !(s.privBefore r h.id) &&
  ([k, k + 4, k + 8, k + 12].all fun x => !(s.claimed x none)) && (!c.op.syncRelease || (s.mirrorOk r && s.settled h))

/-- The 16 bytes of a rendezvous word hold uncorrectable data (R141). -/
def State.syncBad (s : State) (k : Nat) : Bool := s.poisonedIn k 16

/-- A SYNC acts (R185). -/
def State.actSync (s : State) (h : HeldRun) (c : Cmd) (run : Option Nat) : State :=
  match c.loc with
  | some (.key k) =>
    if c.op != .rvinit && s.syncBad k then
      let (n, s) := s.takeFresh
      let f : FaultInfo := { code := .uncorr, addr := c.addr, access := .atomic, deferred := true, scratch := true }
      (s.modThread h.who fun t => t.defer f (some h.seq)).arrive h.who h.seq (poisonRegs n f (dest1 c.d tagN32 4 false)) .loads
    else
    let s := if c.op.syncRelease then (s.mirrorFor h.who).releaseAt h.core (s.rvScope h.who k) else s
    let who : RvWho := some (h.who, h.seq, c.d)
    let v := c.words.getD 0 0
    match c.op with
    | .rvinit =>
      let before := s.phaseWord k
      let w : RvWord := { phase := false, arrivals := v.toNat, bytes := 0 }
      let s := ((s.takeHolds run k).2).setRvOpen run k false
      let s := (s.rvWrite run k w).rvWrite run (k + 8) w
      let s := (s.rvBits run k false).rvBits run (k + 8) false
      (s.rvReply who before).rvMonitor k
    | .arrive => s.evaluate run k 1 0 who
    | .arriven => s.evaluate run k v.toNat 0 who
    | .expect => s.evaluate run k 0 v.toInt who
    | .pledge => s.evaluate run k 1 v.toInt who
    | .rvleave =>
      let i := s.rvRead (k + 8)
      let s := s.rvWrite run (k + 8) { i with arrivals := if i.arrivals = 1 then 1 else (i.arrivals + (2 ^ 23 - 1)) % 2 ^ 23 }
      s.evaluate run k 1 0 who
    | _ => s
  | _ => s

/-- A SYNC when it is issued: ALIGN, XLATE or PROT on the 16 bytes, then the range of n (R185). One that may be held needs an entry
of the wait table: without room for one it stalls here (R157). -/
def syncForm (op : CmdOp) (d a : Nat) (b : Option Nat) (ranged : Bool) (s : State) : Result :=
  commitForm { reads := a :: b.toList, writes := [d], cls := .loads } (fun r t _ s =>
    let v := (b.map fun x => (t.arch.reg x).bits).toList
    match s.blockAt r (t.arch.reg a).bits 8 16 .atomic with
    | .error f => .fault f
    | .ok k =>
      if ranged && v.any (fun x => x.toNat == 0 || decide (2 ^ 23 ≤ x.toNat)) then .fault (plainFault .queue)
      else if op != .rvinit && !(s.monitorRoom (s.coreOf r) 1) then .wait
      else .ok { op := op, d := d, words := v, loc := some (.key k), dests := [d], cls := .loads }) s

/-- rvinit (R185). -/
def execRvinit (d : Nat) (a : Nat) (b : Nat) (s : State) : Result := syncForm .rvinit d a (some b) true s
/-- arrive (R185). -/
def execArrive (d : Nat) (a : Nat) (s : State) : Result := syncForm .arrive d a none false s
/-- arriven (R185). -/
def execArriven (d : Nat) (a : Nat) (b : Nat) (s : State) : Result := syncForm .arriven d a (some b) true s
/-- expect (R185). -/
def execExpect (d : Nat) (a : Nat) (b : Nat) (s : State) : Result := syncForm .expect d a (some b) false s
/-- pledge (R185). -/
def execPledge (d : Nat) (a : Nat) (b : Nat) (s : State) : Result := syncForm .pledge d a (some b) false s
/-- rvleave (R185). -/
def execRvleave (d : Nat) (a : Nat) (s : State) : Result := syncForm .rvleave d a none false s

end Sys2Proof.Machine
end

