-- ==== Sys2Proof/Machine/Queue.lean ====
section
/-! DEFINITION. Queues: control words, claims, slots, operand queues, and the QUEUE instructions (11_streamers.md R187
to R192, R194). -/

namespace Sys2Proof.Machine

/-! ### Control words (R187) -/

def Wg.qc (g : Wg) (n : Nat) : QCtl := g.qcs.getD n {}
/-- A workgroup with an access slice (R188). -/
def Wg.hasAccess (g : Wg) : Bool := g.access != 0
/-- The queue numbers that name operand queues (R194). -/
def Wg.isOq (g : Wg) (n : Nat) : Bool := g.hasAccess && decide (4 ≤ n)

/-- A queue control word changed, for a run. -/
def State.setQc (s : State) (run : Option Nat) (w n : Nat) (q : QCtl) : State :=
  match s.wg w with
  | none => s
  | some g =>
    let s := s.note run (.qc w n (g.qc n) q)
    s.modWg w fun g => { g with qcs := g.qcs.set n q }

/-- The bytes of an element. -/
def QCtl.elem (q : QCtl) : Nat := if q.es then 8 else 4
/-- The slot that a count selects. -/
def QCtl.slot (q : QCtl) (c : Word) : Nat := c.toNat % 2 ^ q.ld
/-- The key of a slot: BASE is kept as the key of the storage's first byte. -/
def QCtl.slotKey (q : QCtl) (c : Word) : Nat := q.base + q.slot c * q.elem

/-! ### Pushes and pops (R191, R192) -/

/-- A waiter of a queue instruction: it acts in its core at once, and elsewhere from its release on, and so does a push that is a
release toward the cluster (R192, R328). -/
def queueWaiter (h : HeldRun) (c : Cmd) (i k : Nat) (kind : WaiterKind) (ds : List Dest) (cls : Cls) (wide : Bool) : Waiter :=
  let local' := scratchCore k == h.core && !(kind.isPush && wide)
  { id := i, who := h.who, seq := h.seq, core := h.core, key := k, loc := .key k, kind := kind, dests := ds, cls := cls,
    age := i, spilled := false, addr := 0, rel := if local' then 0 else h.rel, run := if local' then some h.id else none,
    after := c.after }

/-- A waiter put on its word, and the word's waiters evaluated. -/
def State.addWaiter (s : State) (w : Waiter) : State := ({ s with waiters := s.waiters ++ [w] }).monitorAll [w.key]

/-- The registers and tags of a pop (R191): lo64 gives the pair's tags, any other tag goes to both. -/
def popDests (d : Nat) (es : Bool) (tag : Half) : List Dest :=
  if es then
    [{ reg := d, tag := if tKind tag = 14 then tagLo64 else tag, off := 0, len := 4 },
     { reg := d + 1, tag := if tKind tag = 14 then tagHi64 else tag, off := 4, len := 4 }]
  else [{ reg := d, tag := tag, off := 0, len := 4 }]

/-- A slot of a queue is held by a waiting push, or by a waiting pop. -/
def State.slotHeld (s : State) (k : Nat) (push : Bool) : Bool :=
  s.waiters.any fun w => w.key == k && (match w.kind with
    | .push _ => push
    | .pop _ => !push
    | _ => false)

/-- The claim of a push and its slot (R191). -/
def State.pushClaim (s : State) (h : HeldRun) (c : Cmd) (run : Option Nat) (n : Nat) (bytes : List Byte) : Word × State :=
  match s.wg h.who.wg with
  | none => (0, s)
  | some g =>
    let q := g.qc n
    let k := q.slotKey q.tail
    let s := s.setQc run h.who.wg n { q with tail := q.tail + 1 }
    let (i, s) := s.takeId
    (BitVec.ofNat 32 (q.slot q.tail), s.addWaiter (queueWaiter h c i k (.push bytes) [] .stores (s.queueScope h.who k).wide))

/-- The entries of an operand queue, those on their way among them (R194). -/
def State.oqEntries (s : State) (r : TRef) (n : Nat) : List (Option Word × Nat) :=
  ((s.wg r.wg).bind fun g => alook (oqKey r.tid (n - 4)) g.oq).getD []

/-- The value of the oldest entry of an operand queue, if it is there. -/
def State.oqHead (s : State) (r : TRef) (n : Nat) : Option Word := (s.oqEntries r n).head?.bind (·.1)

/-- The oldest entry of an operand queue taken by a pop (R194). -/
def State.oqTake (s : State) (h : HeldRun) (n d : Nat) (tag : Half) : State :=
  let k := oqKey h.who.tid (n - 4)
  match s.oqEntries h.who n with
  | (some v, i) :: rest =>
    let s := s.note (some h.id) (.oqPop h.who.wg k (some v, i))
    let s := s.modWg h.who.wg fun g => { g with oq := aput k rest g.oq }
    s.arrive h.who h.seq (destRegs (popDests d false tag) (natLe 4 v.toNat)) .loads
  | _ => s

/-- The claim of a pop and its slot (R191); an operand queue gives its oldest entry, for which the run has waited (R194). -/
def State.popClaim (s : State) (h : HeldRun) (c : Cmd) (run : Option Nat) (n d : Nat) (tag : Half) : State :=
  match s.wg h.who.wg with
  | none => s
  | some g =>
    if g.isOq n then s.oqTake h n d tag
    else
      let q := g.qc n
      let (i, s) := s.takeId
      let k := q.slotKey q.head
      let s := s.setQc run h.who.wg n { q with head := q.head + 1 }
      s.addWaiter (queueWaiter h c i k (.pop q.elem) (popDests d q.es tag) .loads false)

/-- TAIL − HEAD of a queue as i32 (R191). -/
def State.queueLen (s : State) (r : TRef) (n : Nat) : Int :=
  match s.wg r.wg with
  | none => 0
  | some g =>
    if g.isOq n then ((s.oqEntries r n).length : Int)
    else ((g.qc n).tail - (g.qc n).head).toInt

/-- A register and predicate written by a committed instruction at once. -/
def State.writeNow (s : State) (r : TRef) (seq : Nat) (ws : List (Nat × Reg)) : State := s.arrive r seq ws .none

/-- A predicate written by a committed instruction, in every state kept from a later run's start. -/
def State.writePred (s : State) (r : TRef) (seq p : Nat) (b : Bool) : State :=
  let s := s.modThread r fun t =>
    { t with arch := t.arch.setPred p b
             run := if seq < t.seq then { t.run with snap := t.run.snap.setPred p b } else t.run }
  { s with held := s.held.map fun (h : HeldRun) =>
      if h.who = r ∧ seq < h.seq then { h with snap := h.snap.setPred p b } else h }

/-- The slots of a new queue set empty (R190): a word that another thread has claimed when the claim is gone (08_memory.md R155), one
in another core at the run's release (21_faults.md R328). -/
def State.emptySlots (s : State) (h : HeldRun) (c : Cmd) (k n : Nat) : State :=
  let ks := (List.range (n / 4)).map fun i => k + 4 * i
  let s := ks.foldl (fun (s : State) j =>
    if scratchCore j == h.core && !(s.claimed j none) then s.setFull (some h.id) j false
    else
      let (i, s) := s.takeId
      { s with waiters := s.waiters ++ [queueWaiter h c i j .emptied [] .none false] }) s
  s.monitorAll ks

/-- A QUEUE instruction acts at its run's commit, in commit order (R191, R192). c.p names the queue; the words are the
operands; the tag of a pop is in bits 15:0 of the first; the second word holds a predicate number. DESIGN CHOICE (log entry 105):
a qtrypush or qtrypop on a slot that another thread has claimed (08_memory.md R155) fails, as on one that is held; R191 does not
name the case. -/
def State.actQueue (s : State) (h : HeldRun) (c : Cmd) : State :=
  let run := some h.id
  let w := h.who.wg
  match s.wg w with
  | none => s
  | some g =>
    let q := g.qc c.p
    let x := c.words.getD 0 0
    let data := if q.es then natLe 4 x.toNat ++ natLe 4 (c.words.getD 1 0).toNat else natLe 4 x.toNat
    let tag : Half := x.setWidth 16
    let pr := (c.words.getD 2 0).toNat
    match c.op, c.loc with
    | .qinit, some (.key k) =>
      let hi := (c.words.getD 1 0).toNat
      let ld := hi % 16
      let es := hi / 16 % 2 == 1
      let s := s.setQc run w c.p { v := true, base := k, ld := ld, es := es, head := 0, tail := 0 }
      let s := s.emptySlots h c k (2 ^ ld * (if es then 8 else 4))
      s.arrive h.who h.seq [(c.d, { val := regNat (2 ^ ld) })] .none
    | .qpush, _ =>
      let (slot, s) := s.pushClaim h c run c.p data
      s.arrive h.who h.seq [(c.d, { val := regN32 slot })] .none
    | .qpop, _ => s.popClaim h c run c.p c.d tag
    | .qtrypush, _ =>
      let k := q.slotKey q.tail
      if !(s.isFull k) && !(s.claimed k none) && !(s.slotHeld k true) then
        let (slot, s) := s.pushClaim h c run c.p data
        (s.arrive h.who h.seq [(c.d, { val := regN32 slot })] .none).writePred h.who h.seq pr true
      else
        let s := s.arrive h.who h.seq [(c.d, { val := regN32 0xFFFFFFFF })] .stores
        s.writePred h.who h.seq pr false
    | .qtrypop, _ =>
      let ready :=
        if g.isOq c.p then (s.oqHead h.who c.p).isSome
        else (let k := q.slotKey q.head; s.isFull k && !(s.claimed k none) && !(s.slotHeld k false))
      if ready then (s.popClaim h c run c.p c.d tag).writePred h.who h.seq pr true
      else
        let s := s.modThread h.who fun t => { t with busy := c.dests.foldl (fun b x => b.erase x) t.busy }
        (s.uncount h.who .loads).writePred h.who h.seq pr false
    | .qlen, _ =>
      s.arrive h.who h.seq [(c.d, { val := { bits := BitVec.ofInt 32 (s.queueLen h.who c.p), tag := tagI32 } })] .none
    | _, _ => s

/-! ### The QUEUE instructions when they are issued (R189 to R191, R194) -/

/-- The fault of a pop of an operand queue that is empty for good: QUEUE where its access thread has halted, that
thread's own fault where it has faulted (R194). -/
def State.oqFault (s : State) (r : TRef) (n : Nat) : Option FaultInfo :=
  if (s.oqEntries r n).isEmpty then
    match s.thread { r with acc := true } with
    | some t => (match t.acc with
      | some a => (match a.fault with
        | some f => some f
        | none => if a.halted then some (plainFault .queue) else none)
      | none => some (plainFault .queue))
    | none => some (plainFault .queue)
  else none

/-- A QPOP of an operand queue whose oldest entry is not there waits, with its run open (R194). DEDUCED (log entry 78). -/
def State.oqWaits (s : State) (r : TRef) (g : Wg) (c : Cmd) : Bool :=
  c.op == .qpop && g.isOq c.p && (s.oqHead r c.p).isNone

/-- The thread of such a QPOP parks at its terminator, or takes the fault that its access thread has left at its run's start
(R194). -/
def State.oqPark (s : State) (r : TRef) (t : Thread) (c : Cmd) : State :=
  match s.oqFault r c.p with
  | some f => s.takeFault r f (t.run.cmark.getD 0)
  | none => (s.dropFromQuad r).modThread r fun t => { t with status := .parked .oq }

/-- What such a thread waits for is there (R194). -/
def State.oqReady (s : State) (r : TRef) (t : Thread) : Bool :=
  match t.run.commit with
  | some c => (s.oqHead r c.p).isSome || (s.oqFault r c.p).isSome
  | none => true

/-- The wait table has room for one more entry of the thread (R156, R157). -/
def State.queueRoom (s : State) (r : TRef) : Bool := s.monitorRoom (s.coreOf r) 1

/-- qinit (R190), whose storage lies in the scratchpad of the workgroup or of its ensemble. The descriptor is kept as its two
words. -/
def execQinit (d : Nat) (q : Nat) (a : Nat) (s : State) : Result :=
  commitForm { reads := [a, a + 1], writes := [d] } (fun r t g s =>
    let x := (t.arch.pair a).toNat
    let ld := x / 2 ^ 32 % 16
    let elem := if x / 2 ^ 36 % 2 = 1 then 8 else 4
    let base : Word := BitVec.ofNat 32 x
    let len := 2 ^ (min ld 12) * elem
    match s.blockAt r base elem len .store with
    | .error f => .fault f
    | .ok k =>
      if !((s.ensemble g).any fun w => w.holds k len) then .fault (faultAt .prot (base.setWidth 64) .store true)
      else if x / 2 ^ 37 ≠ 0 ∨ 12 < ld ∨ g.isOq q = true then .fault (plainFault .queue)
      else .ok { op := .qinit, d := d, p := q, words := [base, BitVec.ofNat 32 (x / 2 ^ 32)], loc := some (.key k),
                 dests := [d] }) s

/-- A push (R191): QUEUE where the queue is not initialised, where an eight-byte element has an odd A, or on an operand
queue. A+1 is read for an eight-byte element. -/
def pushForm (op : CmdOp) (pr d q a : Nat) (s : State) : Result :=
  let wide := match s.cur.bind fun r => s.wg r.wg with
    | some g => (g.qc q).es && !g.isOq q
    | none => false
  let regs := if wide && a % 2 == 0 then [a, a + 1] else [a]
  commitForm { reads := regs, writes := [d], cls := .stores } (fun r t g s =>
    if g.isOq q || !(g.qc q).v || ((g.qc q).es && a % 2 == 1) then .fault (plainFault .queue)
    else if !(s.queueRoom r) || !t.acq.isEmpty && (op == .qtrypush || op == .qtrypop) then .wait
    else .ok { op := op, d := d, p := q, words := [(t.arch.reg a).bits, (t.arch.reg (a + 1)).bits, BitVec.ofNat 32 pr],
               dests := [d], cls := .stores }) s

/-- A pop (R191, R194): QUEUE where the queue is not initialised or where an eight-byte element has an odd D, TAG where
v[A][15:0] is no valid tag. DESIGN CHOICE (log entry 65): the tag is checked before the queue; R191 gives the faults no order. -/
def popForm (op : CmdOp) (pr d q a : Nat) (s : State) : Result :=
  let wide := match s.cur.bind fun r => s.wg r.wg with
    | some g => (g.qc q).es && !g.isOq q
    | none => false
  let regs := if wide && d % 2 == 0 then [d, d + 1] else [d]
  commitForm { reads := [a], writes := regs, cls := .loads } (fun r t g s =>
    let tag : Half := (t.arch.reg a).bits.setWidth 16
    if !validTag tag.toNat then .fault (plainFault .tag)
    else if !g.isOq q && (!(g.qc q).v || ((g.qc q).es && d % 2 == 1)) then .fault (plainFault .queue)
    else match (if g.isOq q then s.oqFault r q else none) with
      | some f => .fault f
      | none =>
        if !(s.queueRoom r) || !t.acq.isEmpty && (op == .qtrypush || op == .qtrypop) then .wait
        else .ok { op := op, d := d, p := q, words := [(t.arch.reg a).bits, 0, BitVec.ofNat 32 pr], dests := regs,
                   cls := .loads }) s

/-- qpush (R191). -/
def execQpush (d : Nat) (q : Nat) (a : Nat) (s : State) : Result := pushForm .qpush 7 d q a s
/-- qpop (R191, R194). -/
def execQpop (d : Nat) (q : Nat) (a : Nat) (s : State) : Result := popForm .qpop 7 d q a s
/-- qtrypush (R191). -/
def execQtrypush (pr : Nat) (d : Nat) (q : Nat) (a : Nat) (s : State) : Result := pushForm .qtrypush pr d q a s
/-- qtrypop (R191, R194). -/
def execQtrypop (pr : Nat) (d : Nat) (q : Nat) (a : Nat) (s : State) : Result := popForm .qtrypop pr d q a s
/-- qlen (R191). -/
def execQlen (d : Nat) (q : Nat) (s : State) : Result :=
  commitForm { writes := [d] } (fun _ _ g _ =>
    if !(g.isOq q || (g.qc q).v) then .fault (plainFault .queue)
    else .ok { op := .qlen, d := d, p := q, dests := [d] }) s

end Sys2Proof.Machine
end

