-- ==== Sys2Proof/Machine/Post.lean ====
section
/-! DEFINITION. Records of task areas, and the events that reach a partition's supervisor (19_scheduling.md R291, R293,
R394). -/

namespace Sys2Proof.Machine

/-- The little-endian number of n bytes of a block at an offset. -/
def blkNat (b : List Byte) (off n : Nat) : Nat := leNat ((b.drop off).take n)

/-- A control register (21_faults.md R310). -/
def Part.creg (p : Part) (n : Nat) : Word := (alook n p.cregs).getD 0
/-- A control register of a partition. -/
def State.creg (s : State) (p n : Nat) : Word := (s.part p).creg n

/-! ### Structures that a supervisor names (R394) -/

/-- The place of a byte of a supervisor's structure, in this module's memory or the host's, with the permissions of
supervisor mode (R394). -/
def State.agentAt (s : State) (p : Nat) (k : Access) (a : DWord) : Option Nat :=
  if inScratchRange a then none
  else match s.engineAt p true k a with
    | .ok (.key x) => some x
    | _ => none

/-- Bytes of a supervisor's structure, none where they cannot be translated or read. -/
def State.agentRead (s : State) (p : Nat) (a : DWord) (n : Nat) : Option (List Byte) :=
  match s.agentAt p .load a with
  | some k => if (List.range n).any fun i => s.isPoisoned (k + i) then none else some (s.mem.readN k n)
  | none => none

/-- A number read from a supervisor's structure. -/
def State.agentNat (s : State) (p : Nat) (a : DWord) (n : Nat) : Option Nat := (s.agentRead p a n).map leNat

/-- Bytes written to a supervisor's structure; none where they cannot be. -/
def State.agentWrite (s : State) (p : Nat) (a : DWord) (bs : List Byte) : Option State :=
  (s.agentAt p .store a).map fun k => s.homeStore (bytesAt k bs)

/-! ### Records (R291) -/

/-- A record of a task area. -/
structure TaskRec where
  rpc : DWord
  waddr : DWord
  wval : Word
  wkind : Nat
  pred : Nat
  state : Nat
  regs : List RegVal
  deriving DecidableEq, Repr

def TaskRec.bytes (x : TaskRec) : List Byte :=
  natLe 8 x.rpc.toNat ++ natLe 8 x.waddr.toNat ++ natLe 4 x.wval.toNat ++
    natLe 4 (x.wkind + x.pred * 4 + x.state * 1024) ++ x.regs.flatMap (fun r => natLe 2 r.tag.toNat) ++ natLe 8 0 ++
    x.regs.flatMap (fun r => natLe 4 r.bits.toNat)

def TaskRec.parse (b : List Byte) : TaskRec :=
  let w := blkNat b 0x14 4
  { rpc := BitVec.ofNat 64 (blkNat b 0 8), waddr := BitVec.ofNat 64 (blkNat b 8 8), wval := BitVec.ofNat 32 (blkNat b 0x10 4),
    wkind := w % 4, pred := w / 4 % 256, state := w / 1024 % 4,
    regs := (List.range 16).map fun i =>
      { bits := BitVec.ofNat 32 (blkNat b (0x40 + 4 * i) 4), tag := BitVec.ofNat 16 (blkNat b (0x18 + 2 * i) 2) } }

/-- The address of a record of an area. -/
def recAddr (area : DWord) (i : Nat) : DWord := area + BitVec.ofNat 64 (128 * i)

/-- RSTATE of a record (R291). -/
def State.recState (s : State) (p : Nat) (area : DWord) (i : Nat) : Option Nat :=
  (s.agentNat p (recAddr area i + 0x14) 4).map fun w => w / 1024 % 4

/-- RSTATE of a record written. -/
def State.setRecState (s : State) (p : Nat) (area : DWord) (i st : Nat) : Option State :=
  match s.agentNat p (recAddr area i + 0x14) 4 with
  | some w => s.agentWrite p (recAddr area i + 0x14) (natLe 4 (w - w / 1024 % 4 * 1024 + st * 1024))
  | none => none

/-- The lowest-numbered free record of an area. -/
def State.freeRec (s : State) (p : Nat) (area : DWord) (n : Nat) : Option Nat :=
  (List.range n).find? fun i => s.recState p area i == some 0

/-- The first record of an area that cannot be read (R394). -/
def State.areaLost (s : State) (p : Nat) (area : DWord) (n : Nat) : Option DWord :=
  ((List.range n).find? fun i => (s.recState p area i).isNone).map fun i => recAddr area i

/-! ### Events (R293) -/

/-- EVQBASE, and the record slots at it (R310). -/
def Part.evqBase (p : Part) : DWord := p.pairReg 0x16 128
def Part.evqSlots (p : Part) : Nat := 2 ^ min (p.creg 0x18).toNat 12

/-- An event that finds no free slot, counted by its code. -/
def State.missEvent (s : State) (p code : Nat) : State :=
  s.modPart p fun x => { x with missed := aput code ((alook code x.missed).getD 0 + 1) x.missed }

/-- EVENT_POST (R293): an event with its data in v1 upward enters the partition's privileged task queue. -/
def State.postEvent (s : State) (p code : Nat) (data : List Word) : State :=
  let x := s.part p
  if x.evqBase = 0 then s.missEvent p code
  else match s.freeRec p x.evqBase x.evqSlots with
    | none => s.missEvent p code
    | some i =>
      let stands := (alook code x.missed).getD 0 + 1
      let v := fun (j : Nat) =>
        if j = 0 then BitVec.ofNat 32 code else if j = 7 then BitVec.ofNat 32 stands else data.getD (j - 1) 0
      let r : TaskRec := { rpc := x.pairReg 0x0E 2, waddr := 0, wval := 0, wkind := 0, pred := 0, state := 2,
                           regs := (List.range 16).map fun j => regN32 (v j) }
      match s.agentWrite p (recAddr x.evqBase i) r.bytes with
      | none => s.missEvent p code
      | some s => s.modPart p fun x => { x with missed := adel code x.missed, evReady := x.evReady ++ [i] }

/-- An address as event data: v1 the low word, v2 the high word. -/
def eventAddr (a : DWord) : List Word := [a.setWidth 32, (a >>> 32).setWidth 32]

/-- Event 9: a page of a supervisor's structure is missing (R293, R394). -/
def State.postMissing (s : State) (p : Nat) (a : DWord) (kind : Word) : State := s.postEvent p 9 (eventAddr a ++ [kind])

/-- An event for every partition defined on the module (R293). -/
def State.postAll (s : State) (code : Nat) (data : List Word) : State :=
  forEach (fun s x => s.postEvent x code data) s ((s.parts.filter fun x => x.2.defined).map (·.1))

/-- A range of keys zeroed at home; no core keeps a byte of it (R140). -/
def State.zeroRange (s : State) (k n : Nat) : State :=
  let gone := fun (j : Nat) => decide (k ≤ j) && decide (j < k + n)
  let s := { s with mem := s.mem.zero k n, back := s.back.filter (fun c => !gone c.1), poisoned := s.poisoned.filter fun c => !gone c
                    l1 := s.l1.filter fun c => !gone (c.1 % 2 ^ 70), fetched := s.fetched.filter fun c => !gone (c.1 % 2 ^ 70) }
  s.monitorAll ((s.waiters.filter fun w => gone w.key).map (·.key))

/-! ### Pages that are lost (R293, R331) -/

/-- The virtual address of a walk's 57 index bits (R137). -/
def vaOf (i : Nat) : DWord := if i / 2 ^ 56 % 2 = 1 then BitVec.ofNat 64 (i + (2 ^ 64 - 2 ^ 57)) else BitVec.ofNat 64 i

/-- The entries of a table that hold a byte that is not 0. -/
def tableEntries (m : Memory) (tbl bits : Nat) : List Nat :=
  ((m.filter fun c => decide (kHbm tbl ≤ c.1) && decide (c.1 < kHbm tbl + 8 * 2 ^ bits)).map fun c => (c.1 - kHbm tbl) / 8).dedup

/-- The pages of a table and those below it that map a byte of this module's HBM, by their index bits (R318, R319). -/
def pagesOf (m : Memory) (pa va tbl : Nat) : List Level → List Nat
  | [] => []
  | lv :: rest => (tableEntries m tbl lv.bits).flatMap fun i =>
    let e := leNat (m.readN (kHbm (tbl + 8 * i)) 8)
    let here := va + i * 2 ^ lv.shift
    let to' := entBits e 12 38 * 2 ^ 12
    match walkFrom m here tbl (lv :: rest), entBits e 1 1 with
    | some t, 1 => if t.tgt = 0 ∧ t.pa ≤ pa ∧ pa < t.pa + t.size then [here] else []
    | _, 0 => if entBits e 0 1 = 1 ∧ entBits e 6 2 = 0 then pagesOf m pa here to' rest else []
    | _, _ => []

/-- Event 8 for each page that holds a poisoned byte, to the partition that maps it (R331). -/
def State.pageLost (s : State) (pa : Nat) : State :=
  forEach (fun (s : State) (p : Nat × Part) =>
    forEach (fun (s : State) (v : Nat) => s.postEvent p.1 8 (eventAddr (vaOf v))) s
      (pagesOf s.mem pa 0 p.2.ptbase levels)) s (s.parts.filter fun p => p.2.defined)

/-- The codeword of a byte is uncorrectable (R331): it is poisoned, and the partitions that map its page in HBM hear of it. -/
def State.poisonWord (s : State) (k : Nat) : State :=
  if s.isPoisoned k || !(decide (k < hbmBytes) || isScratch k) then s
  else
    let s := { s with poisoned := insNat (codeword k) s.poisoned }
    if k < hbmBytes then s.pageLost (codeword k) else s

/-- The codewords of n bytes from a key on. -/
def State.poisonRange (s : State) (k n : Nat) : State :=
  forEach (fun (s : State) (i : Nat) => s.poisonWord (k + i)) s (List.range n)

end Sys2Proof.Machine
end

