-- ==== Sys2Proof/Machine/Copy.lean ====
section
/-! DEFINITION. Streamer commands: the command block and its checks, COPY, and the steps of a command on its channel
(11_streamers.md R168 to R180, 22_fabric_host.md R343, R346 to R350). -/

namespace Sys2Proof.Machine

/-! ### The command block (R170, R171) -/

/-- A number of n bits read as two's complement. -/
def signedOf (n v : Nat) : Int := if 2 ^ (n - 1) ≤ v then (v : Int) - 2 ^ n else (v : Int)

def CopyBlock.parse (b : List Byte) : CopyBlock :=
  let w0c := blkNat b 0x0C 4
  let w14 := blkNat b 0x14 4
  let fl := blkNat b 0x3C 4
  let tags := blkNat b 0x24 4
  { gaddr := BitVec.ofNat 64 (blkNat b 0 8), laddr := blkNat b 8 4, count0 := w0c % 2 ^ 24, esize := 2 ^ (w0c / 2 ^ 24 % 4),
    count1 := blkNat b 0x10 2, count2 := blkNat b 0x12 2, count3 := w14 % 2 ^ 16, rm := w14 / 2 ^ 16 % 8,
    ovf := w14 / 2 ^ 19 % 2 == 1, conv := w14 / 2 ^ 20 % 2 == 1, rscale := w14 / 2 ^ 21 % 2 == 1,
    stride1 := signedOf 32 (blkNat b 0x18 4), stride2 := signedOf 32 (blkNat b 0x1C 4),
    stride3 := signedOf 32 (blkNat b 0x20 4), srctag := BitVec.ofNat 16 tags, dsttag := BitVec.ofNat 16 (tags / 2 ^ 16),
    xaddr := BitVec.ofNat 64 (blkNat b 0x28 8), caddr := BitVec.ofNat 64 (blkNat b 0x30 8),
    cvalue := BitVec.ofNat 32 (blkNat b 0x38 4), cp := fl % 2 == 1, csp := fl / 2 % 2 == 1, acq := fl / 4 % 2 == 1,
    rel := fl / 8 % 2 == 1, scope := fl / 16 % 4, errpol := fl / 64 % 2 == 1, rv := fl / 128 % 2 == 1,
    rop := fl / 256 % 4, rvaddr := fl / 2 ^ 12 * 8,
    bad := decide (w0c / 2 ^ 26 ≠ 0) || decide (w14 / 2 ^ 22 ≠ 0) || decide (fl / 2 ^ 10 % 4 ≠ 0) }

/-- Bytes of an element of a kind that CONV or REDUCE may name (R176); none for raw, lo64 and hi64. -/
def elemSize (k : Nat) : Option Nat := if k = 0 ∨ 14 ≤ k then none else some (4 / nElem k)

/-- A count of 0 means 1 (R170). -/
def countOf (n : Nat) : Nat := if n = 0 then 1 else n
/-- The four counts as the kind uses them (R174). -/
def CopyBlock.counts (c : CopyBlock) (kind : Nat) : Nat × Nat × Nat × Nat :=
  if kind = 9 ∨ kind = 10 then (c.count0, countOf c.count1, 1, 1)
  else (c.count0, countOf c.count1, countOf c.count2, countOf c.count3)
/-- Elements of a command. -/
def CopyBlock.total (c : CopyBlock) (kind : Nat) : Nat :=
  let (a, b, d, e) := c.counts kind
  a * b * d * e
/-- Bytes of a destination element (R176). -/
def CopyBlock.dsize (c : CopyBlock) : Nat := if c.conv then (elemSize (tKind c.dsttag)).getD c.esize else c.esize

/-- The kinds that allow CONV (R174). -/
def convKind (k : Nat) : Bool := k ≤ 2 || k == 9 || k == 10

/-- What the rules of CONV and RSCALE refuse (R172, R176). -/
def CopyBlock.convBad (c : CopyBlock) (kind : Nat) : Bool :=
  ((c.conv || c.rscale) && !convKind kind) || (c.rscale && !c.conv) ||
  (c.conv && (!validTag c.srctag.toNat || !validTag c.dsttag.toNat || elemSize (tKind c.srctag) != some c.esize ||
    (elemSize (tKind c.dsttag)).isNone || (c.rscale && !(kindInt (tKind c.dsttag) || kindB8 (tKind c.dsttag)))))

/-- A field that the kind does not use is not 0, or one that it uses has a value that the kind refuses (R172, R174,
R175, R343, R347). -/
def CopyBlock.kindBad (c : CopyBlock) (kind : Nat) : Bool :=
  let l := c.laddr != 0
  let g := c.gaddr != 0
  let x := c.xaddr != 0
  let st2 := c.stride2 != 0 || c.stride3 != 0
  let st := c.stride1 != 0 || st2
  let plain := c.rm != 0 || c.ovf || c.srctag != 0 || c.dsttag != 0
  let two := decide (1 < c.count2) || decide (1 < c.count3)
  let sys := (c.acq || c.rel || c.cp) && c.scope != 3
  let canopy := two || decide (2 ^ 21 ≤ c.xaddr.toNat)
  match kind with
  | 0 => x
  | 1 => x
  | 2 => l
  | 3 => l || canopy || plain
  | 4 => g || st || canopy || plain
  | 5 => x || decide (2 ^ 15 ≤ c.laddr) || plain
  | 6 => x || decide (2 ^ 15 ≤ c.laddr) || plain
  | 7 => l || plain || sys
  | 8 => l || two || decide (1 < c.count1) || !(decide (0 ≤ c.stride1) && decide (c.stride1 < 256)) || c.stride3 != 0 ||
      c.dsttag != 0 || !validTag c.srctag.toNat ||
      !(tKind c.srctag == 1 || tKind c.srctag == 8 || kindB8 (tKind c.srctag)) ||
      elemSize (tKind c.srctag) != some c.esize || sys
  | _ => st2

/-- The addresses and strides that are no multiple of their side's element size (R172). DESIGN CHOICE (log entry 63): XADDR of
GATHER and SCATTER, the place of a list of 32-bit words, has to be a multiple of 4. -/
def CopyBlock.alignBad (c : CopyBlock) (kind : Nat) : Bool :=
  let e := c.esize
  let d := c.dsize
  let far := if kind = 1 ∨ kind = 10 then d else e
  let loc := if kind = 1 ∨ kind = 4 ∨ kind = 10 then e else d
  let xs := if kind = 9 ∨ kind = 10 then 4 else d
  let no := fun (z : Int) => z % far != 0
  c.gaddr.toNat % far != 0 || c.laddr % loc != 0 || c.xaddr.toNat % xs != 0 ||
    (kind != 8 && (no c.stride1 || no c.stride2 || no c.stride3))

/-- CMDBLOCK (R172): whether a block is refused. DESIGN CHOICE (log entry 62): with CONV the payload is counted in destination
elements. -/
def CopyBlock.refused (c : CopyBlock) (kind : Nat) : Bool :=
  c.bad || decide (5 < c.rm) || c.rop == 3 || (c.rop != 0 && kind != 8) || (!c.rv && c.rvaddr != 0) ||
  (c.csp && decide (2 ^ 32 ≤ c.caddr.toNat)) || c.caddr.toNat % 4 != 0 || c.count0 == 0 ||
  decide (2 ^ 32 < c.total kind * c.dsize) || c.convBad kind || c.kindBad kind || c.alignBad kind

/-- The scratchpad places that a block names, for the checks of R138 at commit: the completion word and the rendezvous
word (R179). -/
def State.copyPlaces (s : State) (g : Wg) (c : CopyBlock) : Except FaultInfo (Option Nat × Option Nat) :=
  let at' := fun (w : Word) (n : Nat) (k : Access) => match s.scratchAt g w n with
    | .ok key => Except.ok (some key)
    | .error e => Except.error (faultAt e (w.setWidth 64) k true)
  let comp := if c.cp && c.csp then at' (c.caddr.setWidth 32) 4 .store else .ok none
  let rv := if c.rv then at' (BitVec.ofNat 32 c.rvaddr) 16 .atomic else .ok none
  match comp, rv with
  | .error e, _ => .error e
  | _, .error e => .error e
  | .ok a, .ok b => .ok (a, b)

/-! ### COPY (R179) -/

/-- Entries of a core's command queue that are taken, the committed commands not yet started among them (R168). -/
def State.copyQueued (s : State) (core : Nat) : Nat :=
  (s.copies.filter fun c => c.core == core && !c.started && !c.channel).length +
    (s.held.filter fun h => h.core == core && (match h.cmd.map Cmd.op with
      | some (CmdOp.copy _) => true
      | _ => false)).length

/-- COPY when it is issued: PRODUCER, ALIGN, XLATE or PROT on the block. What the block holds is checked at commit
(R392). -/
def copyForm (kind d a : Nat) (s : State) : Result :=
  commitForm { reads := [a], writes := [d], cls := .copies } (fun r t g s =>
    let w := (t.arch.reg a).bits
    if !(decide (g.pfirst ≤ r.tid) && decide (r.tid < g.pfirst + g.plen)) then .fault (plainFault .producer)
    else match s.blockAt r w 64 64 .blockRead with
      | .error f => .fault f
      | .ok k =>
        if !((s.ensemble g).any fun h => h.holds k 64) then .fault (faultAt .prot (w.setWidth 64) .blockRead true)
        else .ok { op := .copy kind, d := d, words := if t.arch.sup then [1] else [], loc := some (.key k), addr := w.setWidth 64,
                   dests := [d], cls := .copies }) s

/-- copy.g2s (R174, R179). -/
def execCopyG2s (d : Nat) (a : Nat) (s : State) : Result := copyForm 0 d a s
/-- copy.s2g (R174, R179). -/
def execCopyS2g (d : Nat) (a : Nat) (s : State) : Result := copyForm 1 d a s
/-- copy.g2g (R174, R179). -/
def execCopyG2g (d : Nat) (a : Nat) (s : State) : Result := copyForm 2 d a s
/-- copy.g2c (R174, R175, R179). -/
def execCopyG2c (d : Nat) (a : Nat) (s : State) : Result := copyForm 3 d a s
/-- copy.s2c (R174, R175, R179). -/
def execCopyS2c (d : Nat) (a : Nat) (s : State) : Result := copyForm 4 d a s
/-- copy.meta (R174, R179). -/
def execCopyMeta (d : Nat) (a : Nat) (s : State) : Result := copyForm 5 d a s
/-- copy.scale (R174, R179). -/
def execCopyScale (d : Nat) (a : Nat) (s : State) : Result := copyForm 6 d a s
/-- copy.remote (R343). -/
def execCopyRemote (d : Nat) (a : Nat) (s : State) : Result := copyForm 7 d a s
/-- copy.reduce (R347). -/
def execCopyReduce (d : Nat) (a : Nat) (s : State) : Result := copyForm 8 d a s
/-- copy.gather (R174, R179). -/
def execCopyGather (d : Nat) (a : Nat) (s : State) : Result := copyForm 9 d a s
/-- copy.scatter (R174, R179). -/
def execCopyScatter (d : Nat) (a : Nat) (s : State) : Result := copyForm 10 d a s

/-- A command that has been released enters its core's queue (R168, R328). -/
def State.enqueueCopy (s : State) (h : HeldRun) (c : Cmd) (kind : Nat) : State :=
  match s.wg h.who.wg with
  | none => s
  | some g =>
    let b := CopyBlock.parse c.block
    let places := match s.copyPlaces g b with
      | .ok p => p
      | .error _ => (none, none)
    let (i, s) := s.takeId
    let x : Copy := { id := i, who := h.who, seq := h.seq, part := g.part, core := h.core, quad := g.quad,
                      sup := c.words == [1], kind := kind, blk := b, d := c.d, rvKey := places.2, compKey := places.1, started := false,
                      writes := [], sentWrites := [], code := 0, lost := [], comp := 0, aborted := g.killed, data := [], reducing := false }
    { s with copies := s.copies ++ [x] }

/-! ### Engine accesses (R151, R180) -/

/-- A generic address of an engine that may name scratchpad (R33): its place, or the code of R302. Memory of another
domain is reached by the payload and the completion word of copy.remote alone (R337). -/
def State.enginePlace (s : State) (g : Wg) (sup far : Bool) (k : Access) (a : DWord) (n : Nat) : Except Code Loc :=
  if inScratchRange a then (s.scratchAt g (a.setWidth 32) n).map Loc.key
  else match s.engineAt g.part sup k a with
    | .ok (.remote m pa) => if far || pa / 2 ^ 44 == s.fab.domain then .ok (.remote m pa) else .error .scope
    | x => x

/-- Bytes that a command's engine reads at a core; the code 3 on uncorrectable data (R177). Bytes of another module are those
that the command has asked for (R338, R339). -/
def State.engineRead (s : State) (owner core : Nat) (l : Loc) (n : Nat) : Except Nat (List Byte) × State :=
  match l with
  | .key k =>
    let xs := (List.range n).map fun i =>
      let (b, home) := s.seen core true (k + i)
      (b, home && s.isPoisoned (k + i))
    (if xs.any (·.2) then .error 3 else .ok (xs.map (·.1)), s)
  | .remote m pa => (match s.farRead owner m pa n with
    | some x => if x.code = 0 then .ok ((List.range n).map fun i => x.data.getD i 0) else .error x.code
    | none => .error 4, s)

/-- The write generations of the canopy blocks that a write touches go on (25_system.md R376). -/
def State.stepGens (s : State) (ks : List Nat) : State :=
  let blocks := ((ks.filter fun k => decide (2 ^ 62 ≤ k) && decide (k < 2 ^ 63)).map fun k => (k - 2 ^ 62) / 64).dedup
  { s with canGens := blocks.foldl (fun l b => aput b (((alook b l).getD 0 + 1) % 2 ^ 48) l) s.canGens }

/-- Bytes cross the canopy bond of a quadrant: the meter counts them for its holder (25_system.md R379; DEDUCED, log entry 111). -/
def State.bondMoved (s : State) (l : List (Nat × Nat)) (quad n : Nat) : List (Nat × Nat) :=
  match (s.quad quad).part with
  | some p => if n = 0 then l else aput p ((alook p l).getD 0 + n) l
  | none => l

/-- The quadrant of a key of canopy memory. -/
def canopyQuad (k : Nat) : Nat := (k - 2 ^ 62) / 2 ^ 21

/-- Bytes that an engine of a core writes within the module. A copy of them in the core's L1 is older and goes. -/
def State.engineWrite (s : State) (core : Nat) (bs : List (Nat × Byte)) : State :=
  let scr := bs.filter fun b => isScratch b.1
  let own := bs.filter fun b => decide (2 ^ 62 ≤ b.1) && decide (b.1 < 2 ^ 64)
  let home := bs.filter fun b => decide (b.1 < 2 ^ 61)
  let s := (s.pokes none scr).monitorAll (scr.map (·.1))
  let s := { s.stepGens (own.map (·.1)) with
    mem := putBytes s.mem own
    canMoved := (own.filter fun (b : Nat × Byte) => decide (b.1 < 2 ^ 63)).foldl (fun l (b : Nat × Byte) => s.bondMoved l (canopyQuad b.1) 1) s.canMoved }
  let s := home.foldl (fun s b => s.l1Put none core b.1 none) s
  s.homeStore home

/-- Bytes that a command writes within the module: the clean copies of them go too on the core that its thread has been restored to
(R180, R182). -/
def State.copyOut (s : State) (c : Copy) (bs : List (Nat × Byte)) : State :=
  let s := s.engineWrite c.core bs
  let here := s.coreOf c.who
  if here = c.core then s
  else ((bs.filter fun b => !(isScratch b.1)).map fun b => lineKey b.1).dedup.foldl (fun (s : State) l => s.dropClean here (some l)) s

/-- The release of an engine whose write goes to some places: at WG scope it leaves notes for a line of this module's HBM, or acts as
one at DV scope where there is no room for them (08_memory.md R150, R151, R180). -/
def State.engineRelease (s : State) (core : Nat) (sc : Scope) (ks : List Nat) : State :=
  if sc.wide then s.releaseAt core sc
  else ((ks.filter fun k => decide (k < hbmBytes)).map lineKey).dedup.foldl (fun (s : State) l =>
    let (ok, s) := s.noteLine core l
    if ok then s else s.releaseAt core .dv) s

/-- The scope that a block names. -/
def scopeOfCode (n : Nat) : Scope := if n = 0 then .wg else if n = 1 then .cl else if n = 2 then .dv else .sy

/-! ### A command on its channel (R173 to R177) -/

/-- A place that an element is read from or written to. -/
inductive Side where
  | far (a : DWord)
  | scr (w : Word)
  | canopy (lane off : Nat)
  | side (off : Nat)
  /-- a place that another failure has left unknown, with its code -/
  | lostAt (code : Nat)
  deriving DecidableEq, Repr

/-- An element of a command: where it comes from, where it goes, and its row (R173). -/
structure Elem where
  src : Side
  dst : Side
  row : Nat
  deriving DecidableEq, Repr

/-- An address an offset further. -/
def addOff (a : DWord) (z : Int) : DWord := a + BitVec.ofInt 64 z

/-- The element (i0, i1, i2, i3) of a kind other than GATHER and SCATTER (R173 to R175). -/
def CopyBlock.elem (c : CopyBlock) (kind i0 i1 i2 i3 : Nat) : Elem :=
  let (c0, c1, c2, _) := c.counts kind
  let e := c.esize
  let d := c.dsize
  let row := (i3 * c2 + i2) * c1 + i1
  let lin := row * c0 + i0
  let fe := if kind = 1 then d else e
  let far := Side.far (addOff c.gaddr ((i0 * fe : Nat) + (i1 : Int) * c.stride1 + (i2 : Int) * c.stride2 + (i3 : Int) * c.stride3))
  let loc := fun n => Side.scr (BitVec.ofNat 32 (c.laddr + lin * n))
  let x := Side.far (addOff c.xaddr ((lin * d : Nat) : Int))
  let lane := c.xaddr.toNat / 2 ^ 15 % 64 + i1
  let can := Side.canopy (lane % 64) (c.xaddr.toNat % 2 ^ 15 + (lane / 64 * c0 + i0) * e)
  let mem := Side.side (c.laddr % 2 ^ 15 + lin * e)
  match kind with
  | 0 => { src := far, dst := loc d, row := row }
  | 1 => { src := loc e, dst := far, row := row }
  | 2 => { src := far, dst := x, row := row }
  | 3 => { src := far, dst := can, row := row }
  | 4 => { src := loc e, dst := can, row := row }
  | 5 => { src := far, dst := mem, row := row }
  | 6 => { src := far, dst := mem, row := row }
  | 7 => { src := far, dst := x, row := row }
  | _ => { src := Side.far (addOff c.gaddr ((lin * e : Nat) : Int)), dst := x, row := row }

/-- The bytes at a source. -/
def State.readSide (s : State) (g : Wg) (owner core : Nat) (sup : Bool) (x : Side) (n : Nat) : Except Nat (List Byte) × State :=
  match x with
  | .far a => match s.enginePlace g sup false .load a n with
    | .ok l => s.engineRead owner core l n
    | .error _ => (.error 1, s)
  | .scr w => match s.scratchAt g w n with
    | .ok k => s.engineRead owner core (.key k) n
    | .error _ => (.error 1, s)
  | .lostAt c => (.error c, s)
  | _ => (.error 1, s)

/-- The place of a destination, or DSTFAULT (R175, R177). remote says that the kind writes another module's memory and
nothing else (R343). -/
def State.writeSide (s : State) (g : Wg) (sup remote : Bool) (x : Side) (n : Nat) : Except Nat Loc :=
  match x with
  | .far a => match s.enginePlace g sup remote .store a n with
    | .ok (.key k) => if remote then .error 2 else .ok (.key k)
    | .ok l => .ok l
    | .error _ => .error 2
  | .scr w => match s.scratchAt g w n with
    | .ok k => .ok (.key k)
    | .error _ => .error 2
  | .canopy lane o => if o + n ≤ g.canLen / 64 then .ok (.key (g.canKey lane o)) else .error 2
  | .side o => if o + n ≤ g.sideLen then .ok (.key (g.sideKey o)) else .error 2
  | .lostAt c => .error c

/-- The place of a source within this module. -/
def State.sideKey (s : State) (g : Wg) (sup : Bool) (x : Side) (n : Nat) : Option Nat :=
  match x with
  | .far a => match s.enginePlace g sup false .load a n with
    | .ok (.key k) => some k
    | _ => none
  | .scr w => match s.scratchAt g w n with
    | .ok k => some k
    | .error _ => none
  | _ => none

/-- The codeword that a source of an engine is read from, where it is read at its home (21_faults.md R331). -/
def State.sideWord (s : State) (g : Wg) (core : Nat) (sup : Bool) (x : Side) (n : Nat) : Option Nat :=
  match s.sideKey g sup x n with
  | some k => if (decide (k < hbmBytes) || isScratch k) && (s.seen core true k).2 then some (codeword k) else none
  | none => none

/-- The word k of an index list (R174). -/
def CopyBlock.indexAt (b : CopyBlock) (k : Nat) : Side := .far (addOff b.xaddr ((4 * k : Nat) : Int))

/-- The elements of a command in dense order; GATHER and SCATTER read their index list on the way (R174). -/
def State.copyElems (s : State) (g : Wg) (c : Copy) : List Elem × State :=
  let b := c.blk
  let (c0, c1, c2, c3) := b.counts c.kind
  if c.kind = 9 ∨ c.kind = 10 then
    let (ixs, s) := (List.range c1).foldl (fun (acc : List (Except Nat Nat) × State) k =>
      let (r, s) := acc.2.readSide g c.id c.core c.sup (b.indexAt k) 4
      (acc.1 ++ [r.map leNat], s)) (([] : List (Except Nat Nat)), s)
    let one := fun (k : Nat) (i0 : Nat) =>
      let fe := if c.kind = 10 then b.dsize else b.esize
      let far := match ixs.getD k (.error 1) with
        | .ok ix => Side.far (addOff b.gaddr ((ix : Int) * b.stride1 + ((i0 * fe : Nat) : Int)))
        | .error code => Side.lostAt code
      let le := if c.kind = 9 then b.dsize else b.esize
      let loc := Side.scr (BitVec.ofNat 32 (b.laddr + (k * c0 + i0) * le))
      if c.kind = 9 then ({ src := far, dst := loc, row := k } : Elem) else { src := loc, dst := far, row := k }
    ((List.range c1).flatMap fun k => (List.range c0).map fun i => one k i, s)
  else
    ((List.range c3).flatMap fun i3 => (List.range c2).flatMap fun i2 => (List.range c1).flatMap fun i1 =>
      (List.range c0).map fun i0 => b.elem c.kind i0 i1 i2 i3, s)

/-- The place of a source in another module. -/
def State.farSide (s : State) (g : Wg) (sup : Bool) (x : Side) (n : Nat) : Option (Nat × Nat × Nat) :=
  match x with
  | .far a => match s.enginePlace g sup false .load a n with
    | .ok (.remote m pa) => some (m, pa, n)
    | _ => none
  | _ => none

/-- The places in other modules that a command still has to read before it goes on: those of its index list first (R174). -/
def State.copyFar (s : State) (g : Wg) (c : Copy) : List (Nat × Nat × Nat) :=
  let ixs := if c.kind = 9 ∨ c.kind = 10 then
    (List.range (countOf c.blk.count1)).filterMap fun k => s.farSide g c.sup (c.blk.indexAt k) 4 else []
  match s.farMissing c.id ixs with
  | [] => s.farMissing c.id ((s.copyElems g c).1.filterMap fun e => s.farSide g c.sup e.src c.blk.esize)
  | l => l

/-! ### Conversion (R176) -/

/-- The largest finite magnitude of an element of a tag, its scale left out. -/
def tagMax (t : Half) : Num :=
  match tagFmt (tKind t) (tPrec t) with
  | some f => f.decode f.maxMag
  | none =>
    let w := 32 / nElem (tKind t)
    Num.ofInt (if kindSigned (tKind t) then 2 ^ (w - 1) - 1 else 2 ^ w - 1) 0

/-- The magnitude of a value. -/
def Num.abs : Num → Num
  | .nan => .nan
  | .inf _ => .inf false
  | .fin _ m e => .fin false m e

/-- RowScale (R176). -/
def rowScale (t : Half) (xs : List Num) : Int :=
  let live := (xs.filter fun x => !x.isNan).map Num.abs
  let fits := fun (i : Nat) => live.all fun x => decide (cmpNum x ((tagMax t).scale ((i : Int) - 128)) ≤ 0)
  match (List.range 256).find? fits with
  | some i => (i : Int) - 128
  | none => 127

/-- An element converted with the destination scale sc: its bytes and the flags. -/
def CopyBlock.convert (b : CopyBlock) (sc : Int) (code : Nat) : List Byte × FFlags :=
  let x := (valElem (BitVec.ofNat 32 code) b.srctag 0)
  let o : Ovf := if b.ovf then .ovf else .sat
  let rm := (rmField b.rm).getD .rne
  let (c, fl) := match tagFmt (tKind b.dsttag) (tPrec b.dsttag) with
    | some f => roundTo (x.scale (-sc)) f rm o
    | none => intConvert x (32 / nElem (tKind b.dsttag)) (kindSigned (tKind b.dsttag)) sc rm o
  (natLe b.dsize c, fl)

/-! ### Grouping into destination blocks (R177, R343) -/

/-- The block number of a destination byte within its space, and the space, in blocks of n bytes. DESIGN CHOICE (log entry 64):
rows of SCATTER whose index cannot be read have no known destination, and count as one block. -/
def Side.block (x : Side) (n : Nat) : Nat × Nat :=
  match x with
  | .far a => (0, a.toNat / n)
  | .scr w => (1, w.toNat / n)
  | .canopy l o => (2 + l, o / n)
  | .side o => (70, o / n)
  | .lostAt _ => (71, 0)

/-- A destination an offset further. -/
def Side.plus (x : Side) (n : Nat) : Side :=
  match x with
  | .far a => .far (addOff a (n : Int))
  | .scr w => .scr (w + BitVec.ofNat 32 n)
  | .canopy l o => .canopy l (o + n)
  | .side o => .side (o + n)
  | .lostAt c => .lostAt c

/-- One piece of the destination: its place, what it holds or the code of its failed source, its row, whether it was
clamped, and the codeword it was read from. A piece lies in one block. -/
structure Piece where
  dst : Side
  data : Except Nat (List Byte)
  row : Nat
  sat : Bool
  src : Option Nat

/-- The place where the vector of row exponents starts (R176). -/
def CopyBlock.vectorAt (b : CopyBlock) (kind : Nat) (es : List Elem) : Side :=
  let dense := (b.total kind) * b.dsize
  match kind with
  | 1 => .far (BitVec.ofNat 64 ((es.foldl (fun m e => match e.dst with
      | .far a => max m a.toNat
      | _ => m) 0) + b.dsize))
  | 10 => .far (BitVec.ofNat 64 ((es.foldl (fun m e => match e.dst with
      | .far a => max m a.toNat
      | _ => m) 0) + b.dsize))
  | 2 => .far (addOff b.xaddr (dense : Int))
  | _ => .scr (BitVec.ofNat 32 (b.laddr + dense))

/-- A command works row by row (R176). -/
def CopyBlock.rowwise (b : CopyBlock) : Bool := b.conv && b.rscale

/-- The pieces of a command: every element read and converted, and the row exponents. A row whose exponent is scaled is whole:
where one of its sources fails, nothing of it has a value (R176). -/
def State.copyPieces (s : State) (g : Wg) (c : Copy) : List Piece × State :=
  let b := c.blk
  let (es, s) := s.copyElems g c
  let (rd, s) := es.foldl (fun (acc : List (Elem × Except Nat (List Byte) × Option Nat) × State) e =>
    let (r, s) := acc.2.readSide g c.id c.core c.sup e.src b.esize
    (acc.1 ++ [(e, r, s.sideWord g c.core c.sup e.src b.esize)], s)) (([] : List (Elem × Except Nat (List Byte) × Option Nat)), s)
  let rows := (es.map (·.row)).dedup
  let vals := fun (row : Nat) => (rd.filter fun x => x.1.row == row).filterMap fun x => match x.2.1 with
    | .ok bs => some (valElem (BitVec.ofNat 32 (leNat bs)) b.srctag 0)
    | .error _ => none
  let scs := rows.map fun row => (row, if b.rscale then rowScale b.dsttag (vals row) else tScale b.dsttag)
  let sc := fun (row : Nat) => (alook row scs).getD 0
  let failed := fun (row : Nat) => rd.findSome? fun x => if x.1.row == row then (match x.2.1 with
    | .error code => some code
    | .ok _ => none) else none
  let whole := fun (row : Nat) (d : Except Nat (List Byte)) =>
    if b.rowwise then (match failed row with
      | some code => Except.error code
      | none => d) else d
  let elems := rd.map fun x => match x.2.1 with
    | .error code => ({ dst := x.1.dst, data := .error code, row := x.1.row, sat := false, src := x.2.2 } : Piece)
    | .ok bs =>
      if b.conv then
        let (w, fl) := b.convert (sc x.1.row) (leNat bs)
        { dst := x.1.dst, data := whole x.1.row (.ok w), row := x.1.row, sat := fl &&& fSAT != 0, src := x.2.2 }
      else { dst := x.1.dst, data := .ok bs, row := x.1.row, sat := false, src := x.2.2 }
  let v := b.vectorAt c.kind es
  let exps := if b.rscale then rows.zipIdx.map fun r =>
      ({ dst := v.plus r.2, data := whole r.1 (.ok [BitVec.ofInt 8 (sc r.1)]), row := r.1, sat := false, src := none } : Piece)
    else []
  (elems ++ exps, s)

/-- The packet of 256 bytes of the destination range, and the page in it, that a byte of copy.remote goes out with (R343). -/
def State.packetOf (s : State) (c : Copy) (x : Side) : Nat × Nat :=
  match x with
  | .far a => ((a - c.blk.xaddr).toNat / 256, ((s.walkVa c.part a).map (·.base)).getD (2 ^ 64 + a.toNat / 65536))
  | x => x.block 64

/-- Two bytes of a destination that one write can take: both in this module, or at consecutive places of another (R343). -/
def CopyByte.joins (a b : CopyByte) : Bool :=
  match a.loc, b.loc with
  | .key _, .key _ => true
  | .remote m p, .remote n q => m == n && q == p + 1
  | _, _ => false

/-- Bytes in parts that one write can take each. -/
def joined : List CopyByte → List (List CopyByte)
  | [] => []
  | b :: l => match joined l with
    | (c :: r) :: rs => if b.joins c then (b :: c :: r) :: rs else [b] :: (c :: r) :: rs
    | rs => [b] :: rs

/-- The bytes of a piece at their places, or the code that keeps them unwritten. -/
def State.pieceBytes (s : State) (g : Wg) (c : Copy) (p : Piece) : Except Nat (List CopyByte) :=
  let one := fun (f : Nat → Loc) (bs : List Byte) => bs.zipIdx.map fun (b : Byte × Nat) =>
    ({ loc := f b.2, val := b.1, blk := p.dst.block 64, row := p.row, sat := p.sat, src := p.src } : CopyByte)
  match p.data with
  | .error code => .error code
  | .ok bs => match s.writeSide g c.sup (c.kind == 7) p.dst bs.length with
    | .error code => .error code
    | .ok (.key k) => .ok (one (fun i => .key (k + i)) bs)
    | .ok (.remote m pa) => if c.kind = 8 then .error 2 else .ok (one (fun i => .remote m (pa + i)) bs)

/-- A piece whose source has failed. -/
def Piece.lost (p : Piece) : Bool :=
  match p.data with
  | .error _ => true
  | .ok _ => false

/-- The writes of a command (R177, R178): the pieces of each destination block, or packet, in their order. A block
fails whole where a source of it or its own place does, but a failed row leaves only its own bytes out (R176). Under ERRPOL 0
nothing of a packet that holds a failed block is written. What goes to other modules goes out in parts that adjoin there, each at
its own place; the first part carries the failure. -/
def State.copyWrites (s : State) (g : Wg) (c : Copy) (ps : List Piece) : List CopyWrite :=
  let unit := fun (p : Piece) => if c.kind = 7 then s.packetOf c p.dst else p.dst.block 64
  let res := ps.map fun p => (p, s.pieceBytes g c p)
  let fails := res.filterMap fun x => match x.2 with
    | .error code => some (x.1.dst.block 64, code, c.blk.rowwise && x.1.lost)
    | .ok _ => none
  let whole := (fails.filter fun f => !f.2.2).map (·.1)
  let parts := (ps.map unit).dedup.flatMap fun u =>
    let mine := res.filter fun x => unit x.1 == u
    let blocks := (mine.map fun x => x.1.dst.block 64).dedup
    let bad := fails.filter fun f => blocks.contains f.1
    let live := mine.flatMap fun x => match x.2 with
      | .ok l => if whole.contains (x.1.dst.block 64) then [] else l
      | .error _ => []
    let stop := !bad.isEmpty && !c.blk.errpol
    let runs := if stop then [[]] else if live.isEmpty then [[]] else joined live
    runs.zipIdx.map fun r => ({ id := 0, bytes := r.1, blocks := (r.1.map (·.blk)).dedup,
                                fail := if r.2 = 0 then bad.head?.map fun f => f.2.1 else none,
                                short := if r.2 ≠ 0 then [] else if stop then blocks else (bad.map (·.1)).dedup } : CopyWrite)
  parts.zipIdx.map fun x => { x.1 with id := x.2 }

/-- The blocks that a write leaves unwritten where it is not made. -/
def CopyWrite.all (w : CopyWrite) : List (Nat × Nat) := w.blocks ++ w.short

def State.modCopy (s : State) (id : Nat) (f : Copy → Copy) : State :=
  { s with copies := s.copies.map fun c => if c.id = id then f c else c }

/-- The blocks of a command that nothing more will write. -/
def Copy.dropRest (c : Copy) : Copy :=
  { c with writes := [], lost := c.lost ++ c.writes.flatMap (·.all) }

/-- A failure of a command (R178): the first gives CODE; the blocks named are lost, and ERRPOL 0 stops the command. -/
def Copy.failed (c : Copy) (code : Nat) (blocks : List (Nat × Nat)) : Copy :=
  let c := { c with code := if c.code = 0 ∨ c.code = 7 then code else c.code, lost := c.lost ++ blocks }
  if c.blk.errpol then c else c.dropRest

/-- The bytes of a command that a failure keeps from being written are lost: they go from the writes that are left (R176,
R178). -/
def Copy.lose (c : Copy) (code : Nat) (p : CopyByte → Bool) : Copy :=
  let gone := c.writes.flatMap fun w => (w.bytes.filter p).map (·.blk)
  let kept := c.writes.map fun w => { w with bytes := w.bytes.filter fun b => !p b }
  ({ c with writes := kept } : Copy).failed code gone.dedup

/-- A write of a command that is performed (R176, R178): the failures that it met are recorded with it. -/
def Copy.landed (c : Copy) (w : CopyWrite) : Copy :=
  let c := if w.bytes.any (·.sat) && c.code == 0 then { c with code := 7 } else c
  match w.fail with
  | some code => c.failed code w.short
  | none => c

/-- The round a contribution joins waits at the port while two others of its group are under way (R346). -/
def State.roundWaits (s : State) (p grp : Nat) (round : Word) : Bool :=
  decide (2 ≤ (((s.fab.rounds.filter fun x => x.part == p && x.group == grp && x.round != round && !x.waiting).map
    (·.round)).dedup.length))

/-- The codes of a REDUCE's own contribution (R347). -/
def Copy.codes (ps : List Piece) : Except Nat (List Nat) :=
  ps.foldr (fun p acc => match p.data, acc with
    | .ok bs, .ok l => .ok (leNat bs :: l)
    | .error e, _ => .error e
    | _, .error e => .error e) (.ok [])

/-- The bytes of a list in parts of at most n. -/
def chunks {α : Type} (n : Nat) : Nat → List α → List (List α)
  | 0, _ => []
  | f + 1, l => if l.isEmpty then [] else l.take n :: chunks n f (l.drop n)

/-- A REDUCE's contribution goes up the switches in TYPE 7 flits (R349). DESIGN CHOICE (log entry 87): each holds up to 256 bytes
of the elements in their order, with the group and the round in PADDR and the command in TID. -/
def State.contribute (s : State) (c : Copy) : State :=
  let bs := c.data.flatMap fun x => natLe c.blk.esize x
  let at' := c.blk.stride1.toNat % 2 ^ 8 + (BitVec.ofInt 32 c.blk.stride2).toNat * 2 ^ 8
  let f := fun (b : List Byte) =>
    ({ type := 7, dstMod := s.fab.modId, srcMod := s.fab.modId, srcPart := c.part, gen := (s.part c.part).gen,
       epoch := (s.part c.part).epoch, len := b.length, paddr := at', tid := c.id % 2 ^ 16, body := b } : Flit)
  match s.portFor s.fab.modId with
  | none => s
  | some n => (forEach (fun (s : State) b => s.sendFlit n (f b)) s (chunks 256 bs.length bs)).meterLink c.part bs.length

/-- A REDUCE sends its contribution (R346, R350), with REL 1 after what its core has written is home (R351). -/
def State.startReduce (s : State) (c : Copy) (ps : List Piece) : State :=
  let grp := c.blk.stride1.toNat
  let round := BitVec.ofInt 32 c.blk.stride2
  let all := (ps.map fun p => p.dst.block 64).dedup
  match Copy.codes ps, s.fab.groups.find? fun g => g.part == c.part && g.group == grp with
  | .error e, _ => s.modCopy c.id fun c => { c with started := true, code := e, lost := all }
  | _, none => s.modCopy c.id fun c => { c with started := true, code := 5, lost := all }
  | .ok l, some g =>
    let w := s.roundWaits c.part grp round
    let x : RedRound := { copy := c.id, part := c.part, group := grp, round := round, deadline := s.us + g.timeout, waiting := w }
    let s := { s with fab := { s.fab with rounds := s.fab.rounds ++ [x] } }
    let s := s.modCopy c.id fun c => { c with started := true, data := l, reducing := true }
    let s := if c.blk.rel then s.releaseAt c.core .sy else s
    if w then s else s.contribute { c with data := l }

/-- A word that a command is to read is claimed: its reads wait (R155). -/
def State.sourcesClaimed (s : State) (g : Wg) (c : Copy) : Bool :=
  let held := fun (x : Side) (n : Nat) => match s.sideKey g c.sup x n with
    | some k => isScratch k && s.claimedIn k n none
    | none => false
  !s.claims.isEmpty && !c.aborted &&
    (((c.kind == 9 || c.kind == 10) && (List.range (countOf c.blk.count1)).any fun k => held (c.blk.indexAt k) 4) ||
      (s.copyElems g c).1.any fun e => held e.src c.blk.esize)

/-- A command waits on its channel for claimed words or for bytes of other modules (R155, R338). -/
def State.copyWaits (s : State) (c : Copy) : Bool :=
  s.farPending c.id || ((s.wg c.who.wg).map fun g => s.sourcesClaimed g c).getD false

/-- The command of a core that goes on: the oldest that holds a channel and waits for nothing more, or the oldest queued one
(R168). -/
def State.nextCopy (s : State) (core : Nat) : Option Copy :=
  s.copies.find? fun c => c.core == core && !c.started && !(c.channel && s.copyWaits c)

/-- The channels of a core that commands hold (R168). -/
def State.channelsHeld (s : State) (core : Nat) : Nat :=
  (s.copies.filter fun c => c.core == core && (c.started || c.channel)).length

/-- The modules that a command writes, each with its domain. -/
def copyDests (ws : List CopyWrite) : List (Nat × Nat) :=
  (ws.flatMap fun w => w.bytes.filterMap fun b => match b.loc with
    | .remote m pa => some (m, pa / 2 ^ 44)
    | .key _ => none).dedup

/-- The port of each module to which a remote copy goes, chosen when it reaches a channel (R344). -/
def State.copyPorts (s : State) (ws : List CopyWrite) : List (Nat × Nat) :=
  ((ws.flatMap fun w => w.bytes.filterMap fun b => match b.loc with
    | .remote m _ => some m
    | .key _ => none).dedup).filterMap fun m => (s.portFor m).map fun n => (m, n)

/-- STREAMER_CHANNEL_START (R168, R173): a free channel of a core takes the oldest queued command. Its sources are
read, and what it will write is settled, as soon as no word of them is claimed (08_memory.md R155) and the bytes that it reads in
other modules are there (R338). A command aborted in the queue writes nothing (R177). -/
def execStreamerChannelStart (core : Nat) (s : State) : Result :=
  match s.nextCopy core with
  | none => .next s
  | some c =>
    if c.channel = false ∧ 8 ≤ s.channelsHeld core then .next s
    else if s.copyWaits c then .next (s.modCopy c.id fun c => { c with channel := true })
    else match s.wg c.who.wg with
      | none => .next { s with copies := s.copies.filter fun x => x.id != c.id }
      | some g =>
        let s := if c.blk.acq && !c.aborted then s.acquire c.core (scopeOfCode c.blk.scope) else s
        let far := if c.aborted then [] else s.copyFar g c
        if !far.isEmpty then .next ((s.askFar c.id c.part far).modCopy c.id fun c => { c with channel := true }) else
        let (ps, s) := s.copyPieces g c
        let s := s.dropFar c.id
        if c.aborted then
          let ws := s.copyWrites g c ps
          .next (s.modCopy c.id fun c => { c with started := true, code := 6, lost := ws.flatMap (·.all) })
        else if c.kind = 8 then .next (s.startReduce c ps)
        else
          let ws := s.copyWrites g c ps
          .next (s.modCopy c.id fun x =>
            { x with started := true, writes := ws, ports := s.copyPorts ws, dests := copyDests ws })

/-- The n-th item of a list taken out. -/
def takeNth {α : Type} (l : List α) (n : Nat) : Option (α × List α) :=
  (l[n]?).map fun x => (x, l.take n ++ l.drop (n + 1))

/-- A word that an engine's request finds claimed: the request waits (R155). -/
def State.claimedAt (s : State) (k : Option Nat) (n : Nat) : Bool :=
  match k with
  | some k => s.claimedIn k n none
  | none => false

/-- The report of performed bytes to the rendezvous word (R182). -/
def State.reportBytes (s : State) (c : Copy) (n : Nat) : State :=
  match c.rvKey with
  | some k => if n = 0 || !(s.still c.who k 16) then s else s.evaluate none k 0 (-(n : Int)) none
  | none => s

/-- The module a remote write goes to, with its first address. -/
def remoteOf (bs : List CopyByte) : Option (Nat × Nat) :=
  bs.findSome? fun b => match b.loc with
    | .remote m pa => some (m, pa)
    | .key _ => none

/-- The bytes of a write that stay in this module. -/
def localOf (bs : List CopyByte) : List (Nat × Byte) :=
  bs.filterMap fun b => match b.loc with
    | .key k => some (k, b.val)
    | .remote _ _ => none

/-- A byte of a write has lost its place to a new owner (25_system.md R378). -/
def State.byteGone (s : State) (c : Copy) (b : CopyByte) : Bool :=
  match b.loc with
  | .key k => !(s.still c.who k 1)
  | .remote _ _ => false

/-- The bytes of a write whose data may still be found uncorrectable: those of rows of which nothing has gone out, where a
row's exponent needs all of it (R176). -/
def Copy.doubtful (c : Copy) (w : CopyWrite) : List CopyByte :=
  w.bytes.filter fun b => !(c.blk.rowwise && c.rowsOut.contains b.row)

/-- The data read for one byte of a write are found uncorrectable (R176, R178, 21_faults.md R331): its row or its block is
lost, and the codeword is poisoned. -/
def State.copyBad (s : State) (c : Copy) (bs : List CopyByte) : State :=
  let (n, s) := if bs.length = 1 then (0, s) else s.takeFresh
  match bs[if bs.length = 1 then 0 else Config.freeChoice n % bs.length]? with
  | none => s
  | some b =>
    let s := match b.src with
      | some k => s.poisonWord k
      | none => s
    s.modCopy c.id fun c => c.lose 3 fun x => if c.blk.rowwise then x.row == b.row else x.blk == b.blk

/-- A write is the last of a command with REL 1 (R180): a release, which follows all its other writes. -/
def Copy.releases (c : Copy) (w : CopyWrite) (rest : List CopyWrite) : Bool :=
  c.blk.rel && !w.bytes.isEmpty && rest.all fun x => x.bytes.isEmpty

/-- The type of a flit that a command sends to an address of another module: a launch is a copy.remote of 128 bytes in all, into one
slot of the window (22_fabric_host.md R342). -/
def Copy.flitType (c : Copy) (pa n : Nat) : Nat :=
  if c.kind = 7 ∧ isWindow pa ∧ pa % 128 = 0 ∧ n = 128 ∧ c.blk.total 7 * c.blk.dsize = 128 then 9 else 3

/-- STREAMER_BYTE_REPORT (R168, R177, R178, R182): one write of a command, in no stated order, is performed and its
bytes are reported, or it fails; bad says that data read for it are uncorrectable. A write to another module goes out and
is acknowledged later (R343). The last write of a command with REL 1 is a release at its scope (R180). -/
def execStreamerByteReport (id : Nat) (bad : Bool) (s : State) : Result :=
  match s.copies.find? fun c => c.id == id with
  | none => .next s
  | some c =>
    if !c.started || c.writes.isEmpty then .next s
    else
      let (n, s) := if c.writes.length = 1 then (0, s) else s.takeFresh
      let at' := if c.writes.length = 1 then 0 else Config.freeChoice n % c.writes.length
      match takeNth c.writes at' with
      | none => .next s
      | some (w, rest) =>
        let gone := (w.bytes.filter fun b => s.byteGone c b).map (·.blk)
        let some' := c.doubtful w
        if s.claimedAt c.rvKey 16 || (localOf w.bytes).any (fun b => isScratch b.1 && s.claimed b.1 none) then .next s
        else if bad && !some'.isEmpty then .next (s.copyBad c some')
        else if !gone.isEmpty then .next (s.modCopy id fun c => c.lose 2 fun b => gone.contains b.blk)
        else if c.releases w rest && !c.sentWrites.isEmpty then .next s
        else
          let s := if c.releases w rest then s.engineRelease c.core (scopeOfCode c.blk.scope) ((localOf w.bytes).map (·.1)) else s
          let c := { c with writes := rest, rowsOut := if c.blk.rowwise then (c.rowsOut ++ w.bytes.map (·.row)).dedup else c.rowsOut }
          let s := s.copyOut c (localOf w.bytes)
          match remoteOf w.bytes with
          | some (m, pa) =>
            let (j, s) := s.takeId
            let s := s.addRemote { id := j, purpose := .copy id w.id, part := c.part, mod := m, paddr := pa, port := alook m c.ports,
                                   type := c.flitType pa w.bytes.length, body := w.bytes.map (·.val) }
            .next (s.modCopy id fun _ => { c with sentWrites := c.sentWrites ++ [w] })
          | none => .next ((s.modCopy id fun _ => c.landed w).reportBytes c w.bytes.length)

/-- A remote write of a command is acknowledged, or has failed (R339, R343). -/
def State.copyAcked (s : State) (id wid : Nat) (fail : Option Nat) : State :=
  match s.copies.find? fun c => c.id == id with
  | none => s
  | some c => match c.sentWrites.find? fun w => w.id == wid with
    | none => s
    | some w =>
      let c := { c with sentWrites := c.sentWrites.filter fun x => x.id != wid }
      match fail with
      | some code => s.modCopy id fun _ => (c.failed code w.blocks).lose code fun b => w.blocks.contains b.blk
      | none => (s.modCopy id fun _ => c.landed w).reportBytes c w.bytes.length

/-! ### Completion (R178, R180) -/

/-- The value of the completion word (R178). -/
def Copy.compValue (c : Copy) : Word :=
  if c.code = 0 ∨ c.code = 7 then c.blk.cvalue else BitVec.ofNat 32 (0xFFFFFF00 + c.code)
/-- The status word (R177): LOST saturates at 24 bits. -/
def Copy.status (c : Copy) : Word := BitVec.ofNat 32 (min c.lost.dedup.length (2 ^ 24 - 1) * 256 + c.code)

/-- The completion word could not be written (R178). -/
def Copy.compFail (c : Copy) (code : Nat) : Copy :=
  { c with code := if c.code = 0 ∨ c.code = 7 then code else c.code, comp := 2 }

/-- The place of a generic completion word: in this module or its domain, and for copy.remote nowhere but in this module or in one that
the command writes (R178, 22_fabric_host.md R337, R343). -/
def State.compPlace (s : State) (c : Copy) : Option Loc :=
  match (s.wg c.who.wg).map fun g => s.enginePlace g c.sup (c.kind == 7) .store c.blk.caddr 4 with
  | some (.ok (.key k)) => some (.key k)
  | some (.ok (.remote m pa)) => if c.kind = 7 ∧ !(c.dests.contains (m, pa / 2 ^ 44)) then none else some (.remote m pa)
  | _ => none

/-- The word of scratchpad that a completion is to be written to. -/
def State.compWord (s : State) (c : Copy) : Option Nat :=
  c.compKey.orElse fun _ => match s.compPlace c with
    | some (.key k) => if isScratch k then some k else none
    | _ => none

/-- The completion word is written, as a release at the command's scope, or goes out to another module (R178, R180). -/
def State.writeCompletion (s : State) (c : Copy) : State :=
  let v := natLe 4 c.compValue.toNat
  let s := s.engineRelease c.core (scopeOfCode c.blk.scope) (match c.compKey, s.compPlace c with
    | none, some (.key k) => [k]
    | _, _ => [])
  match c.compKey with
  | some k =>
    if !(s.still c.who k 4) then s.modCopy c.id fun c => c.compFail 2 else
    let s := (s.pokes none (bytesAt k v)).setFull none k true
    (s.monitorAll [k]).modCopy c.id fun c => { c with comp := 2 }
  | none => match s.compPlace c with
    | none => s.modCopy c.id fun c => c.compFail 2
    | some (.key k) =>
      let s := s.copyOut c (bytesAt k v)
      let s := if isScratch k then (s.setFull none k true).monitorAll [k] else s
      s.modCopy c.id fun c => { c with comp := 2 }
    | some (.remote m pa) =>
      let (j, s) := s.takeId
      let s := s.addRemote { id := j, purpose := .completion c.id, part := c.part, mod := m, type := 3, paddr := pa, body := v,
                             port := alook m c.ports }
      s.modCopy c.id fun c => { c with comp := 1 }

/-- COPY_COMPLETE (R177, R178, R180): a command with nothing left to write writes its completion word, and after that
its status. Its writes come before the issuing thread's later accesses (R151): the clean copies of its core go, and of the core
that its thread is on now. -/
def execCopyComplete (id : Nat) (s : State) : Result :=
  match s.copies.find? fun c => c.id == id with
  | none => .next s
  | some c =>
    if !c.started || !c.writes.isEmpty || !c.sentWrites.isEmpty || c.reducing || c.comp == 1 ||
        (c.comp == 0 && c.blk.cp && s.claimedAt (s.compWord c) 4) then .next s
    else
      let s := if c.comp == 0 && c.blk.rel then s.releaseAt c.core (scopeOfCode c.blk.scope) else s
      let s := if c.comp == 0 && c.blk.cp then s.writeCompletion c else s.modCopy id fun c => { c with comp := 2 }
      match s.copies.find? fun c => c.id == id with
      | none => .next s
      | some c =>
        if c.comp != 2 then .next s
        else
          let s := (s.dropClean c.core none).dropClean (s.coreOf c.who) none
          let s := { s with copies := s.copies.filter fun x => x.id != id }
          .next (s.arrive c.who c.seq [(c.d, { val := regN32 c.status })] .copies)

end Sys2Proof.Machine
end

