-- ==== Sys2Proof/Machine/Tile.lean ====
section
/-! DEFINITION. Tiles: descriptors, elements, the MMA parameter block, the tile generator's block, the checks of the
TILE instructions, and their meanings when issued (12_matrix.md R197 to R221). -/

namespace Sys2Proof.Machine

/-! ### Descriptors and elements (R198, R199) -/

def Wg.tile (g : Wg) (n : Nat) : Tile := g.tiles.getD n {}
def Tile.kind (t : Tile) : Nat := tagKind t.tag.toNat
def Tile.smode (t : Tile) : Nat := t.tag.toNat / 64 % 4
def Tile.scale (t : Tile) : Int := tagScale t.tag.toNat
/-- Bytes of an element; 4 for an invalid KIND too: DESIGN CHOICE (log entry 109), R212 gives its region no size. -/
def Tile.es (t : Tile) : Nat := if t.kind = 8 then 2 else 4
/-- A tile tag is valid (R198). -/
def tileTagOk (t : Nat) : Bool :=
  let k := tagKind t
  (k == 1 || k == 7 || k == 8) && t / 16 % 4 == 0 && (t / 64 % 4 != 0 || tagScale t == 0)

/-- Bytes of a tile's region in accumulator memory, and of a plan's regions (R198, R223). -/
def Tile.planBytes (t : Tile) : Nat := 4 * (t.rows * t.cols + t.rows + t.cols)
def Tile.margBytes (t : Tile) : Nat := 4 * (t.rows + t.cols)
def Tile.bytes (t : Tile) : Nat := if t.plan then t.planBytes else t.rows * t.cols * t.es

/-- Two ranges overlap. -/
def rangesMeet (a n b m : Nat) : Bool := decide (a < b + m) && decide (b < a + n)
/-- The accumulator regions of two tiles overlap. -/
def Tile.regionsMeet (a b : Tile) : Bool := rangesMeet a.abase a.bytes b.abase b.bytes
/-- The bytes of side memory that an operation on a tile reads or writes with it: a plan's marginal region, or a scale vector
(R199, 13_plan_tiles.md R223). -/
def Tile.sides (t : Tile) : List (Nat × Nat) :=
  if t.plan then [(t.voff, t.margBytes)]
  else if t.smode = 2 then [(t.voff, t.rows)]
  else if t.smode = 3 then [(t.voff, t.cols)]
  else []

/-- An operation on one tile touches the other by their regions in accumulator memory (R200). -/
def Tile.touches (a b : Tile) : Bool := a.v && b.v && a.regionsMeet b

/-- Offset of an element in the accumulator allocation (R198). -/
def Tile.off (t : Tile) (i j : Nat) : Nat := t.abase + (i * t.cols + j) * t.es

def State.accRead (s : State) (g : Wg) (off n : Nat) : Nat := leNat (s.mem.readN (g.accKey off) n)
def State.sideRead (s : State) (g : Wg) (off n : Nat) : Nat := leNat (s.mem.readN (g.sideKey off) n)
/-- A signed byte of side memory. -/
def State.sideByte (s : State) (g : Wg) (off : Nat) : Int := signedOf 8 (s.sideRead g off 1)
/-- Bytes to the accumulator allocation of a workgroup. -/
def accBytes (g : Wg) (off : Nat) (bs : List Byte) : List (Nat × Byte) := bytesAt (g.accKey off) bs
def sideBytes (g : Wg) (off : Nat) (bs : List Byte) : List (Nat × Byte) := bytesAt (g.sideKey off) bs

/-- e(i, j) (R199). -/
def State.tileExp (s : State) (g : Wg) (t : Tile) (i j : Nat) : Int :=
  match t.smode with
  | 0 => 0
  | 1 => t.scale
  | 2 => t.scale + s.sideByte g (t.voff + i)
  | _ => t.scale + s.sideByte g (t.voff + j)

/-- The value of stored bits (R199). -/
def Tile.decode (t : Tile) (c : Nat) : Num :=
  if t.kind = 1 then Num.ofInt (signedOf 32 c) 0 else if t.kind = 7 then f32.decode c else f16.decode c
/-- The decoded stored value of element (i, j). -/
def State.tileStored (s : State) (g : Wg) (t : Tile) (i j : Nat) : Num := t.decode (s.accRead g (t.off i j) t.es)
/-- The represented value of element (i, j) (R199). -/
def State.tileVal (s : State) (g : Wg) (t : Tile) (i j : Nat) : Num := (s.tileStored g t i j).scale (s.tileExp g t i j)

/-- A value converted into a tile's representation: the bits and the flags. -/
def Tile.encode (t : Tile) (x : Num) (e : Int) (rm : Rm) (o : Ovf) : Nat × FFlags :=
  if t.kind = 1 then intConvert x 32 true e rm o
  else roundTo (x.scale (-e)) (if t.kind = 7 then f32 else f16) rm o

/-- The indices of the elements, row by row. -/
def Tile.indices (t : Tile) : List (Nat × Nat) := (List.range t.rows).flatMap fun i => (List.range t.cols).map fun j => (i, j)

/-! ### The MMA parameter block (R206, R207) -/

/-- The fields of an MMA parameter block. bad says that a field marked 0 is not 0. -/
structure MmaBlock where
  aaddr : Word
  astride : Nat
  atag : Half
  boff : Nat
  btag : Half
  m : Nat
  n : Nat
  k : Nat
  neg : Bool
  ovw : Bool
  sp : Bool
  ra : Bool
  cb : Bool
  sat : Bool
  rm : Nat
  acq : Bool
  rel : Bool
  scope : Nat
  rv : Bool
  layout : Bool
  roff : Nat
  coff : Nat
  moff : Nat
  rvaddr : Word
  aidx : Word
  bad : Bool
  deriving DecidableEq, Repr

def MmaBlock.parse (b : List Byte) : MmaBlock :=
  let fl := blkNat b 0x18 4
  let bit := fun (n : Nat) => fl / 2 ^ n % 2 == 1
  let z := fun (o n : Nat) => blkNat b o n != 0
  { aaddr := BitVec.ofNat 32 (blkNat b 0 4), astride := blkNat b 4 2, atag := BitVec.ofNat 16 (blkNat b 6 2),
    boff := blkNat b 8 2 % 2 ^ 15, btag := BitVec.ofNat 16 (blkNat b 0x0C 2), m := blkNat b 0x10 1 + 1,
    n := 64 * (blkNat b 0x11 1 % 4 + 1), k := blkNat b 0x14 2, neg := bit 0, ovw := bit 1, sp := bit 2, ra := bit 3,
    cb := bit 4, sat := bit 5, rm := fl / 2 ^ 6 % 8, acq := bit 9, rel := bit 10, scope := fl / 2 ^ 11 % 4, rv := bit 13,
    layout := bit 14, roff := blkNat b 0x1C 2 % 2 ^ 15, coff := blkNat b 0x1E 2 % 2 ^ 15, moff := blkNat b 0x20 2 % 2 ^ 15,
    rvaddr := BitVec.ofNat 32 (blkNat b 0x24 4), aidx := BitVec.ofNat 32 (blkNat b 0x28 4),
    bad := decide (2 ^ 15 ≤ blkNat b 8 4) || z 0x0E 2 || decide (2 ^ 10 ≤ blkNat b 0x10 4) || z 0x16 2 ||
      decide (2 ^ 15 ≤ fl) || decide (2 ^ 15 ≤ blkNat b 0x1C 2) || decide (2 ^ 15 ≤ blkNat b 0x1E 2) ||
      decide (2 ^ 15 ≤ blkNat b 0x20 4) || z 0x2C 4 || z 0x30 8 || z 0x38 8 }

/-- Bytes of a source element of a tag: 1 or 2 for the kinds of R205. -/
def srcBytes (t : Half) : Nat := 4 / nElem (tKind t)
/-- The kinds of R205: binary8, 8-bit integers, 16-bit floats. -/
def srcClass (t : Half) : Nat :=
  let k := tKind t
  if kindB8 k then 1 else if k = 5 ∨ k = 6 then 2 else if k = 8 ∨ k = 9 then 3 else 0
/-- The chunk span (R202); that of two bytes for a kind that is none of R205's: DESIGN CHOICE (log entry 110), R207 gives none. -/
def MmaBlock.span (b : MmaBlock) : Nat := (if srcBytes b.atag = 1 then 128 else 64) * (if b.sp then 2 else 1)
/-- Bytes of a row of A. -/
def MmaBlock.rowBytes (b : MmaBlock) : Nat := (if b.sp then b.k / 2 else b.k) * srcBytes b.atag

/-- n bytes from a key on lie in some ranges, one of which may go on where another ends. -/
def covered : Nat → List (Nat × Nat) → Nat → Nat → Bool
  | 0, _, _, n => n == 0
  | f + 1, rs, k, n =>
    if n = 0 then true
    else match rs.find? fun x => decide (x.1 ≤ k) && decide (k < x.2) with
      | some x => covered f rs x.2 (k + n - x.2)
      | none => false

/-- The places where the array may find A and an index list (R203): the workgroup's scratchpad, and the lodges that it holds
open. -/
def State.arrayRanges (s : State) (g : Wg) : List (Nat × Nat) :=
  (g.base, g.base + g.scratch + g.qbytes) ::
    ((s.lodges.filter fun l => l.part == g.part && g.opens.contains l.id && l.holds (kScratch l.core l.off) 1).map fun l =>
      (kScratch l.core l.off, kScratch l.core l.off + l.pages * pageBytes))

/-- A byte range that the array reads as A or as an index list: in the quadrant's own banks, every byte in the workgroup's
scratchpad or in a lodge that it holds open (R203). -/
def State.arrayKey (s : State) (g : Wg) (w : Word) (n : Nat) : Option Nat :=
  let core := coreOfQuad g.quad
  match scratchKey core w with
  | none => none
  | some k =>
    let off := k - kScratch core 0
    let own := scratchCore k == core && off / 0x20000 == g.quad % 4 && decide (off % 0x20000 + n ≤ 0x20000)
    if own && covered (s.lodges.length + 2) (s.arrayRanges g) k n then some k else none

/-- A word of the index list as it is, or at the commit of a run of a thread, whose buffered stores it then holds (R207). -/
def State.indexNow (s : State) (who : Option TRef) (k : Nat) : Nat :=
  let buf := ((who.bind s.thread).map fun t => t.run.buf.reverse.map (·.op)).getD []
  let own := bytesOf buf (.key k) 2
  leNat ((List.range 2).map fun i => (alook i own).getD (Memory.read s.mem (k + i)))

/-- A scratchpad address an offset further; none past the last one. -/
def wordPlus (w : Word) (n : Nat) : Option Word := if w.toNat + n < 2 ^ 32 then some (w + BitVec.ofNat 32 n) else none

/-- The start of row i of A as a scratchpad address (R203); none where it or its index lies outside. -/
def State.rowAddr (s : State) (who : Option TRef) (g : Wg) (b : MmaBlock) (i : Nat) : Option Word :=
  if b.layout then
    ((wordPlus b.aidx (2 * i)).bind fun w => s.arrayKey g w 2).bind fun k => wordPlus b.aaddr (s.indexNow who k * b.astride)
  else wordPlus b.aaddr (i * b.astride)

/-- CMDBLOCK for an MMA at the commit of a thread's run (R207). The checks that need C's shape are made where C is a
defined PLAIN tile (R221). -/
def State.mmaRefused (s : State) (r : TRef) (g : Wg) (b : MmaBlock) (c : Tile) : Bool :=
  let tags := !validTag b.atag.toNat || !validTag b.btag.toNat
  let rows := (List.range b.m).all fun i => match s.rowAddr (some r) g b i with
    | none => false
    | some w => (s.arrayKey g w b.rowBytes).isSome
  b.bad || decide (5 < b.rm) || b.aaddr.toNat % 128 != 0 || b.astride % 128 != 0 || b.k == 0 || b.k % b.span != 0 ||
  (!b.layout && b.aidx != 0) || (b.layout && b.aidx.toNat % 2 != 0) || (!b.rv && b.rvaddr != 0) ||
  (b.rv && b.rvaddr.toNat % 8 != 0) || (!b.ra && b.roff != 0) || (!b.cb && b.coff != 0) || (!b.sp && b.moff != 0) ||
  (c.v && !c.plan && (c.rows != b.m || c.cols != b.n)) || (b.ra && decide (g.sideLen < b.roff + b.m)) ||
  (b.cb && decide (g.sideLen < b.coff + b.n)) || (b.sp && decide (g.sideLen < b.moff + b.m * (b.k / 8))) ||
  decide (g.canLen / 64 < b.boff + b.n / 64 * b.k * srcBytes b.btag) || !rows || tags

/-- TAG for an MMA (R205, R208). -/
def mmaTagBad (b : MmaBlock) (c : Tile) : Bool :=
  !c.v || c.plan || srcClass b.atag == 0 || srcClass b.atag != srcClass b.btag ||
  (match srcClass b.atag with
    | 2 => c.kind != 1 || c.scale != tScale b.atag + tScale b.btag ||
        b.ra != (c.smode == 2 && b.ra && b.roff == c.voff) || (c.smode == 2 && !b.ra) ||
        b.cb != (c.smode == 3 && b.cb && b.coff == c.voff) || (c.smode == 3 && !b.cb) || (b.ra && b.cb)
    | 3 => c.kind == 1 || tScale b.atag != 0 || tScale b.btag != 0
    | _ => c.kind == 1)

/-! ### The tile generator's block (R218) -/

structure GenBlk where
  haddr : DWord
  e : Nat
  mr : Nat
  passes : Nat
  qaddr : DWord
  qcap : Nat
  oaddr : DWord
  caddr : DWord
  cvalue : Word
  cp : Bool
  csp : Bool
  acq : Bool
  rel : Bool
  scope : Nat
  refused : Bool
  deriving DecidableEq, Repr

def GenBlk.parse (b : List Byte) : GenBlk :=
  let d := fun (o : Nat) => BitVec.ofNat 64 (blkNat b o 8)
  let fl := blkNat b 0x34 4
  let e := blkNat b 8 2
  let passes := blkNat b 0x0C 4
  let caddr := d 0x28
  { haddr := d 0, e := e, mr := blkNat b 0x0A 1, passes := passes, qaddr := d 0x10, qcap := blkNat b 0x18 4, oaddr := d 0x20,
    caddr := caddr, cvalue := BitVec.ofNat 32 (blkNat b 0x30 4), cp := fl % 2 == 1, csp := fl / 2 % 2 == 1,
    acq := fl / 4 % 2 == 1, rel := fl / 8 % 2 == 1, scope := fl / 16 % 4,
    refused := (d 0).toNat % 4 != 0 || e == 0 || decide (4096 < e) || blkNat b 0x0B 1 != 0 || passes == 0 ||
      decide (2 ^ 15 ≤ passes) || (d 0x10).toNat % 8 != 0 || blkNat b 0x18 4 == 0 || blkNat b 0x1C 4 != 0 ||
      (d 0x20).toNat % 4 != 0 || decide (2 ^ 6 ≤ fl) || blkNat b 0x38 8 != 0 || caddr.toNat % 4 != 0 ||
      (fl / 2 % 2 == 1 && decide (2 ^ 32 ≤ caddr.toNat)) }

/-! ### Checks at commit (R200, R221, R392) -/

/-- The bytes of a tile in memory that TLD reads or TST writes, one element after another: each is translated and
checked (R213). -/
def State.tileSpan (s : State) (r : TRef) (g : Wg) (t : Tile) (a : DWord) (stride esz : Nat) (k : Access) : Option FaultInfo :=
  let sup := ((s.thread r).map (·.arch.sup)).getD false
  t.indices.findSome? fun ij =>
    let x := a + BitVec.ofNat 64 (ij.1 * stride + ij.2 * esz)
    if inScratchRange x then match s.scratchAt g (x.setWidth 32) esz with
      | .ok _ => none
      | .error c => some (faultAt c x k true)
    else if !isCanonical x then some (faultAt .xlate x k false)
    else match s.walkVa g.part x with
      | none => some (faultAt (s.unmapped g x) x k false)
      | some tr => match s.checkPage g.part sup k tr x with
        | .error c => some (faultAt c x k false)
        | .ok l => if s.scopeOk l none false then none else some (faultAt .scope 0 k false)

/-- A PLAIN tile that is defined. -/
def Tile.isPlain (t : Tile) : Bool := t.v && !t.plan

/-- The checks of steps in their order: the first that fails. -/
def firstFault (l : List (Bool × Code)) : Option FaultInfo := (l.find? (·.1)).map fun x => plainFault x.2

/-- The format word of TLD and TST (R213). -/
def fmtKindOk (f : Nat) : Bool := validTag (f % 2 ^ 16) && (elemSize (tagKind f)).isSome
def fmtSize (f : Nat) : Nat := (elemSize (tagKind f)).getD 1

/-- The new descriptor of a TZERO (R212). -/
def zeroTile (x : DWord) (gen : Nat) : Tile :=
  let n := x.toNat
  { v := true, plan := false, rows := n % 256 + 1, cols := n / 2 ^ 8 % 256 + 1, tag := BitVec.ofNat 16 (n / 2 ^ 16),
    abase := n / 2 ^ 32 % 2 ^ 18, voff := n / 2 ^ 51 * 4, gen := gen }

/-- What TGET writes or TSET requires at an element: the lane tag, or none where the tile does not allow it (R215). -/
def Tile.laneTag (t : Tile) (j : Nat) : Option Half :=
  if t.kind = 1 ∧ t.smode ≤ 1 then some (BitVec.ofNat 16 (mkTag 1 0 t.scale))
  else if t.kind = 7 ∧ t.smode = 0 then some tagF32
  else if t.kind = 8 ∧ t.smode = 0 ∧ j % 2 = 0 then some (kTag 8)
  else none

/-- The operand words of a TILE or PLAN instruction raise CMDBLOCK whatever its tiles are (R212 to R216, 13_plan_tiles.md R227 to
R236). -/
def Cmd.refused (c : Cmd) : Bool :=
  let w := fun i => (c.words.getD i 0).toNat
  match c.op with
  | .tld => 5 < w 1 / 2 ^ 16 % 8 || 2 ^ 20 ≤ w 1
  | .tst => 5 < w 1 / 2 ^ 16 % 8 || 2 ^ 20 ≤ w 1
  | .tcvt => 16 ≤ w 0 || 5 < w 0 % 8
  | .tredr => 64 ≤ w 0 || w 0 % 4 == 3 || 5 < w 0 / 4 % 8
  | .tredc => 64 ≤ w 0 || w 0 % 4 == 3 || 5 < w 0 / 4 % 8
  | .pform => c.d == c.p || 2 ^ 31 ≤ w 1 || w 0 == 0 || 0x7F800000 ≤ w 0
  | .pmarg => 2 ≤ w 1
  | .balance => 2 ^ 12 ≤ w 0 || (f32.decode (w 1)).isNan || 2 ^ 31 < w 1
  | .pextract => 16 ≤ w 0 || 5 < w 0 % 8
  | .pstat => w 0 / 8 % 32 != 0 || 2 ^ 24 ≤ w 0 || w 0 % 8 == 7 ||
      (!([1, 2, 3, 4].contains (w 0 % 8)) && w 0 / 2 ^ 8 % 2 ^ 16 != 0)
  | _ => false

/-- The checks of a TILE instruction on what stands at its run's commit (R221); blk is its block. -/
def State.tileFault (s : State) (r : TRef) (g : Wg) (c : Cmd) (blk : List Byte) : Option FaultInfo :=
  let d := g.tile c.d
  let a := g.tile c.p
  let w := fun i => (c.words.getD i 0).toNat
  let place := fun (x : Word) (n : Nat) (k : Access) => match s.scratchAt g x n with
    | .ok _ => none
    | .error e => some (faultAt e (x.setWidth 64) k true)
  match c.op with
  | .mma =>
    let b := MmaBlock.parse blk
    let rv := if b.rv then place b.rvaddr 16 .atomic else none
    rv.orElse fun _ => firstFault [(s.mmaRefused r g b d, .cmdblock), (mmaTagBad b d, .tag)]
  | .tld =>
    let mem := if d.isPlain && fmtKindOk (w 1) then s.tileSpan r g d c.addr (w 0) (fmtSize (w 1)) .load else none
    mem.orElse fun _ => firstFault [(c.refused, .cmdblock), (!d.isPlain || !fmtKindOk (w 1), .tag)]
  | .tst =>
    let mem := if d.isPlain && fmtKindOk (w 1) then s.tileSpan r g d c.addr (w 0) (fmtSize (w 1)) .store else none
    mem.orElse fun _ => firstFault [(c.refused, .cmdblock), (!d.isPlain || !fmtKindOk (w 1), .tag)]
  | .tzero =>
    let t := zeroTile c.addr 0
    let vec := if t.smode = 2 then t.rows else if t.smode = 3 then t.cols else 0
    firstFault
      [(c.addr.getLsbD 50 || t.abase % 256 != 0 || decide (g.accLen < t.abase + t.bytes) ||
          (decide (0 < vec) && decide (g.sideLen < t.voff + vec)) || (t.kind == 8 && t.cols % 2 == 1), .cmdblock),
       (!tileTagOk t.tag.toNat, .tag)]
  | .tcvt =>
    firstFault
      [(c.refused || (d.isPlain && a.isPlain && (d.rows != a.rows || d.cols != a.cols || d.regionsMeet a)), .cmdblock),
       (!d.isPlain || !a.isPlain, .tag)]
  | .tget =>
    firstFault
      [(a.isPlain && (decide (a.rows ≤ w 0 / 2 ^ 16) || decide (a.cols ≤ w 0 % 2 ^ 16)), .cmdblock),
       (!a.isPlain || (a.laneTag (w 0 % 2 ^ 16)).isNone, .tag)]
  | .tset =>
    firstFault
      [(d.isPlain && (decide (d.rows ≤ w 1 / 2 ^ 16) || decide (d.cols ≤ w 1 % 2 ^ 16)), .cmdblock),
       (!d.isPlain || d.laneTag (w 1 % 2 ^ 16) != some ((c.words.getD 2 0).setWidth 16), .tag)]
  | .tredr =>
    firstFault
      [(c.refused || (d.isPlain && a.isPlain && (d.rows != a.rows || d.cols != 1 || d.regionsMeet a)), .cmdblock),
       (!d.isPlain || !a.isPlain, .tag)]
  | .tredc =>
    firstFault
      [(c.refused || (d.isPlain && a.isPlain && (d.rows != 1 || d.cols != a.cols || d.regionsMeet a)), .cmdblock),
       (!d.isPlain || !a.isPlain, .tag)]
  | .tstat => firstFault [(!a.v, .tag)]
  | .tgen =>
    let b := GenBlk.parse blk
    let comp := if b.cp && b.csp then place (b.caddr.setWidth 32) 4 .store else none
    comp.orElse fun _ => firstFault [(b.refused, .cmdblock)]
  | _ => none

/-! ### Scratchpad that a command under way is at (R155, 18_lodges.md R262) -/

/-- Some of n bytes that an engine finds at a scratchpad address of a core lie in a range of keys. -/
def scratchMeets (core : Nat) (w : Word) (n k len : Nat) : Bool :=
  match scratchKey core w with
  | some x => rangesMeet x n k len
  | none => false

/-- The same at a generic address. -/
def genericMeets (core : Nat) (a : DWord) (n k len : Nat) : Bool := inScratchRange a && scratchMeets core (a.setWidth 32) n k len

/-- A tile or plan operation has bytes of a range of scratchpad to read or to write, its arrival left out. -/
def State.tileTouches (s : State) (g : Wg) (o : TileOp) (k len : Nat) : Bool :=
  let core := coreOfQuad g.quad
  let w := fun i => (o.cmd.words.getD i 0).toNat
  let mem := o.td.indices.any fun ij =>
    genericMeets core (o.cmd.addr + BitVec.ofNat 64 (ij.1 * w 0 + ij.2 * fmtSize (w 1))) (fmtSize (w 1)) k len
  match o.cmd.op with
  | .mma =>
    let b := MmaBlock.parse o.cmd.block
    o.arrival.isNone && ((b.layout && scratchMeets core b.aidx (2 * b.m) k len) || (List.range b.m).any fun i =>
      match s.rowAddr none g b i with
      | some a => scratchMeets core a b.rowBytes k len
      | none => false)
  | .tld => mem
  | .tst => mem
  | .pmarg => scratchMeets core (o.cmd.words.getD 0 0) o.td.margBytes k len
  | _ => false

/-- A TGEN has bytes of a range of scratchpad to read or to write. -/
def TGen.touches (t : TGen) (k len : Nat) : Bool :=
  let b := GenBlk.parse t.block
  genericMeets t.core b.haddr (4 * b.e) k len || genericMeets t.core b.qaddr (8 + 8 * b.qcap) k len ||
    (b.oaddr != 0 && genericMeets t.core b.oaddr (4 * (b.e + 1)) k len) || (b.cp && (match t.compKey with
      | some x => rangesMeet x 4 k len
      | none => genericMeets t.core b.caddr 4 k len))

/-! ### The TILE instructions when issued (R211, R221) -/

/-- A TILE or PLAN instruction: REGBOUND on the tiles it names, then ALIGN and the place of its block. Where it has no block, the
checks chk that its run's commit makes on its tiles are made here already if its operand words alone raise a fault (03_encodings.md
R52). -/
def tileForm (u : Use) (tiles : List Nat) (align : Arch → Option FaultInfo) (blk : Option Nat)
    (chk : State → TRef → Wg → Cmd → Option FaultInfo) (f : Arch → Cmd) (s : State) : Result :=
  commitForm { u with cls := .tiles } (fun r t g s =>
    if tiles.any fun n => decide (g.tiles.length ≤ n) then .fault (plainFault .regbound)
    else match align t.arch with
      | some e => .fault e
      | none => match blk with
        | none =>
          let c := { f t.arch with cls := .tiles }
          (match (if c.refused || c.op == .tzero then chk s r g c else none) with
          | some e => .fault e
          | none => .ok c)
        | some x => match s.blockAt r (t.arch.reg x).bits 64 64 .blockRead with
          | .error e => .fault e
          | .ok k =>
            if !((s.ensemble g).any fun h => h.holds k 64) then
              .fault (faultAt .prot ((t.arch.reg x).bits.setWidth 64) .blockRead true)
            else .ok { f t.arch with cls := .tiles, loc := some (.key k), addr := (t.arch.reg x).bits.setWidth 64 }) s

/-- The alignment of a tile's memory (R213): base and stride by the element size of the format word's kind. -/
def fmtAlign (b v : Nat) (k : Access) (q : Arch) : Option FaultInfo :=
  let n := fmtSize (q.reg (v + 1)).bits.toNat
  let a := q.pair b
  if a.toNat % n ≠ 0 then some (faultAt .align a k (inScratchRange a))
  else if (q.reg v).bits.toNat % n ≠ 0 then some (faultAt .align a k (inScratchRange a)) else none

def noFault (_ : Arch) : Option FaultInfo := none
/-- The checks of a TILE instruction without a block. -/
def State.tileCheck (s : State) (r : TRef) (g : Wg) (c : Cmd) : Option FaultInfo := s.tileFault r g c []
/-- An instruction all of whose checks wait for its run's commit. -/
def noCheck (_ : State) (_ : TRef) (_ : Wg) (_ : Cmd) : Option FaultInfo := none
def wordOf (q : Arch) (n : Nat) : Word := (q.reg n).bits

/-- mma (R208). -/
def execMma (d : Nat) (a : Nat) (s : State) : Result :=
  tileForm { reads := [a] } [d] noFault (some a) noCheck (fun _ => { op := .mma, d := d }) s
/-- tld (R213). -/
def execTld (d : Nat) (a : Nat) (b : Nat) (s : State) : Result :=
  tileForm { reads := [a, a + 1, b, b + 1] } [d] (fmtAlign a b .load) none State.tileCheck
    (fun q => { op := .tld, d := d, addr := q.pair a, words := [wordOf q b, wordOf q (b + 1)] }) s
/-- tst (R213). -/
def execTst (d : Nat) (a : Nat) (b : Nat) (s : State) : Result :=
  tileForm { reads := [a, a + 1, b, b + 1] } [d] (fmtAlign a b .store) none State.tileCheck
    (fun q => { op := .tst, d := d, addr := q.pair a, words := [wordOf q b, wordOf q (b + 1)] }) s
/-- tzero (R212). -/
def execTzero (d : Nat) (a : Nat) (s : State) : Result :=
  tileForm { reads := [a, a + 1] } [d] noFault none State.tileCheck (fun q => { op := .tzero, d := d, addr := q.pair a }) s
/-- tcvt (R214). -/
def execTcvt (d : Nat) (a : Nat) (b : Nat) (s : State) : Result :=
  tileForm { reads := [b] } [d, a] noFault none State.tileCheck (fun q => { op := .tcvt, d := d, p := a, words := [wordOf q b] }) s
/-- tget (R215). -/
def execTget (d : Nat) (a : Nat) (b : Nat) (s : State) : Result :=
  tileForm { reads := [b], writes := [d] } [a] noFault none State.tileCheck
    (fun q => { op := .tget, d := d, p := a, words := [wordOf q b], dests := [d] }) s
/-- tset (R215). -/
def execTset (d : Nat) (a : Nat) (b : Nat) (s : State) : Result :=
  tileForm { reads := [a, b] } [d] noFault none State.tileCheck
    (fun q => { op := .tset, d := d, words := [wordOf q a, wordOf q b, (q.reg a).tag.setWidth 32] }) s
/-- tredr (R216). -/
def execTredr (d : Nat) (a : Nat) (b : Nat) (s : State) : Result :=
  tileForm { reads := [b] } [d, a] noFault none State.tileCheck (fun q => { op := .tredr, d := d, p := a, words := [wordOf q b] }) s
/-- tredc (R216). -/
def execTredc (d : Nat) (a : Nat) (b : Nat) (s : State) : Result :=
  tileForm { reads := [b] } [d, a] noFault none State.tileCheck (fun q => { op := .tredc, d := d, p := a, words := [wordOf q b] }) s
/-- tstat (R217). -/
def execTstat (d : Nat) (a : Nat) (s : State) : Result :=
  tileForm { writes := [d] } [a] noFault none State.tileCheck (fun _ => { op := .tstat, d := d, p := a, dests := [d] }) s
/-- tgen (R219). -/
def execTgen (d : Nat) (a : Nat) (s : State) : Result :=
  tileForm { reads := [a], writes := [d] } [] noFault (some a) noCheck (fun q => { op := .tgen, d := d, words := [if q.sup then 1 else 0], dests := [d] }) s

end Sys2Proof.Machine
end

