-- ==== Sys2Proof/Machine/Plan.lean ====
section
/-! DEFINITION. Plan tiles: their arithmetic, BALANCE, the checks of the PLAN instructions, and their meanings when
issued (13_plan_tiles.md R223 to R237). Values are binary32 codes. -/

namespace Sys2Proof.Machine

/-! ### Arithmetic (R224) -/

def f32One : Nat := 0x3F800000
def f32Zero : Nat := 0
def f32NegInf : Nat := 0xFF800000
def f32Nan : Nat := 0x7FC00000
/-- The negative of a code. -/
def f32Neg (c : Nat) : Nat := if c / 2 ^ 31 = 0 then c + 2 ^ 31 else c - 2 ^ 31
def f32IsNan (c : Nat) : Bool := (f32.decode c).isNan
/-- NaN or +∞: what stops a BALANCE. -/
def f32Bad (c : Nat) : Bool := f32IsNan c || c == 0x7F800000
def f32Finite (c : Nat) : Bool := c / 2 ^ 23 % 256 != 255
def f32Abs (c : Nat) : Nat := c % 2 ^ 31

/-- Add32 (R224). -/
def add32 (x y : Nat) : Nat := (roundTo (sumNum .rne [f32.decode x, f32.decode y]).1 f32 .rne .ovf).1
/-- Exp2r (R224). -/
def exp2r (x : Nat) : Nat := (roundIeee (sfuExp2 (f32.decode x)).1 f32 .rne).1
/-- Log2r (R224). -/
def log2r (x : Nat) : Nat := (roundIeee (sfuLog2 (f32.decode x)).1 f32 .rne).1
/-- The larger of two codes that are no NaN. -/
def max32 (x y : Nat) : Nat := if cmpNum (f32.decode x) (f32.decode y) < 0 then y else x

/-- Lse2 (R224); NaN where a term is. -/
def lse2 (xs : List Nat) : Nat :=
  if xs.any f32IsNan then f32Nan
  else
    let m := xs.foldl max32 f32NegInf
    if m = f32NegInf then f32NegInf
    else add32 m (log2r (xs.foldl (fun s x => add32 s (exp2r (add32 x (f32Neg m)))) f32Zero))

/-- Lse2 at the smallest interesting case. -/
def log2Nat (n : Nat) : Nat := log2r (roundTo (.fin false n 0) f32 .rne .ovf).1

/-! ### Reading a plan (R223) -/

def Tile.fOff (t : Tile) (i : Nat) : Nat := t.abase + 4 * (t.rows * t.cols + i)
def Tile.gOff (t : Tile) (j : Nat) : Nat := t.abase + 4 * (t.rows * t.cols + t.rows + j)
def Tile.laOff (t : Tile) (i : Nat) : Nat := t.voff + 4 * i
def Tile.lbOff (t : Tile) (j : Nat) : Nat := t.voff + 4 * (t.rows + j)

/-- The words of a plan: the kernel row by row, the scalings and the marginals. -/
structure PlanData where
  c : List Nat
  f : List Nat
  g : List Nat
  la : List Nat
  lb : List Nat
  deriving DecidableEq, Repr

def State.planData (s : State) (g : Wg) (t : Tile) : PlanData :=
  { c := (List.range (t.rows * t.cols)).map fun i => s.accRead g (t.abase + 4 * i) 4
    f := (List.range t.rows).map fun i => s.accRead g (t.fOff i) 4
    g := (List.range t.cols).map fun j => s.accRead g (t.gOff j) 4
    la := (List.range t.rows).map fun i => s.sideRead g (t.laOff i) 4
    lb := (List.range t.cols).map fun j => s.sideRead g (t.lbOff j) 4 }

def PlanData.cell (p : PlanData) (m i j : Nat) : Nat := p.c.getD (i * m + j) 0

/-- The bytes of consecutive words. -/
def wordBytes (l : List Nat) : List Byte := l.flatMap fun w => natLe 4 w

/-! ### BALANCE (R229 to R232) -/

/-- RowUpdate and ColUpdate (R230): the new scaling and whether no mass was found. -/
def planUpdate (mass : Nat) (terms : List Nat) : Nat × Bool :=
  if mass = f32NegInf then (f32NegInf, false)
  else
    let l := lse2 terms
    if l = f32NegInf then (f32NegInf, true) else (add32 mass (f32Neg l), false)

def PlanData.rowUpdate (p : PlanData) (m i : Nat) : Nat × Bool :=
  planUpdate (p.la.getD i 0) ((List.range m).map fun j => add32 (p.cell m i j) (p.g.getD j 0))
def PlanData.colUpdate (p : PlanData) (m n j : Nat) : Nat × Bool :=
  planUpdate (p.lb.getD j 0) ((List.range n).map fun i => add32 (p.cell m i j) (p.f.getD i 0))

/-- Where an evaluation of rows or columns stands: the values so far, whether no mass was found, and whether it has stopped on a
value that is NaN or +∞ (R229). -/
structure PlanScan where
  vals : List Nat := []
  infeas : Bool := false
  bad : Bool := false
  deriving DecidableEq, Repr

/-- One row or column more, in ascending order: nothing is evaluated after a value that is NaN or +∞. -/
def PlanScan.take (x : PlanScan) (u : Nat × Bool) : PlanScan :=
  if x.bad then x
  else if f32Bad u.1 then { x with infeas := x.infeas || u.2, bad := true }
  else { x with vals := x.vals ++ [u.1], infeas := x.infeas || u.2 }

/-- Err (R230) over the rows in ascending order: the error last among the values. -/
def PlanData.err (p : PlanData) (n m : Nat) : PlanScan :=
  (List.range n).foldl (fun (x : PlanScan) i =>
    if x.bad then x
    else
      let (h, inf) := p.rowUpdate m i
      let f := p.f.getD i 0
      let d := if f32Finite h && f32Finite f then f32Abs (add32 h (f32Neg f)) else f32Zero
      { vals := [max32 (x.vals.headD f32Zero) d], infeas := x.infeas || inf, bad := f32Bad h || f32Bad d })
    { vals := [f32Zero] }

/-- The error evaluated after a sweep, or with no sweep asked for (R229). -/
def PlanRun.judge (x : PlanRun) (p : PlanData) (n m : Nat) (tol : Nat) (limit : Nat) : PlanRun :=
  let y := p.err n m
  if y.bad then { x with nan := true, infeas := x.infeas || y.infeas, stopped := true }
  else
    let e := y.vals.headD f32Zero
    let conv := decide (cmpNum (f32.decode e) (f32.decode tol) ≤ 0)
    { x with err := some e, infeas := x.infeas || y.infeas, conv := conv, stopped := conv || decide (limit ≤ x.k) }

/-- The start of a BALANCE (R229): the checks, the mass test with its rescaled column marginals, and with LIMIT 0 the
error. A mass or a difference that is NaN or +∞ stops it. DEDUCED (log entry 83): where a rescaled marginal is, those before
it keep their new values, and MASS is set if there are any. -/
def planStart (p : PlanData) (n m : Nat) (limit tol : Nat) : PlanRun × Option (List Nat) :=
  let stop : PlanRun := { nan := true, stopped := true }
  let la := lse2 p.la
  let lb := lse2 p.lb
  let d := add32 la (f32Neg lb)
  if (p.c ++ p.la ++ p.lb).any f32Bad || f32Bad la || f32Bad lb then (stop, none)
  else if (la == f32NegInf) != (lb == f32NegInf) then ({ infeas := true, stopped := true }, none)
  else if f32Finite la && f32Bad (f32Abs d) then (stop, none)
  else if f32Finite la && decide (0 < cmpNum (f32.decode (f32Abs d)) (.fin false 1 (-20))) then
    let y := p.lb.foldl (fun (x : PlanScan) b => x.take (add32 b d, false)) {}
    let lb' := y.vals ++ p.lb.drop y.vals.length
    if y.bad then ({ stop with mass := !y.vals.isEmpty }, some lb')
    else
      let x : PlanRun := { mass := true }
      (if limit = 0 then x.judge { p with lb := lb' } n m tol 0 else x, some lb')
  else (if limit = 0 then PlanRun.judge {} p n m tol 0 else {}, none)

/-- One sweep (R229, R230): the new scalings, or none where a value is NaN or +∞; and whether no mass was found before that. -/
def planSweep (p : PlanData) (n m : Nat) : Option (List Nat × List Nat) × Bool :=
  let x := (List.range n).foldl (fun (x : PlanScan) i => if x.bad then x else x.take (p.rowUpdate m i)) {}
  let p' := { p with f := x.vals }
  let y := if x.bad then { x with vals := [] }
    else (List.range m).foldl (fun (y : PlanScan) j => if y.bad then y else y.take (p'.colUpdate m n j)) { x with vals := [] }
  (if y.bad then none else some (x.vals, y.vals), y.infeas)

/-- The status word (R232). -/
def PlanRun.status (x : PlanRun) : Word :=
  let e := match x.err with
    | some c => (roundTo (f32.decode c) f16 .rup .ovf).1
    | none => 0
  let bit := fun (b : Bool) (n : Nat) => if b then 2 ^ n else 0
  BitVec.ofNat 32 (bit x.nan 31 + bit x.mass 30 + bit x.infeas 29 + bit x.conv 28 + e * 2 ^ 12 + x.k)

/-! ### PEXTRACT and PCOST (R234, R235) -/

/-- p of an element (R234). -/
def PlanData.plan (p : PlanData) (m i j : Nat) : Nat := exp2r (add32 (add32 (p.f.getD i 0) (p.cell m i j)) (p.g.getD j 0))

/-- Σ p · cost (R235). DESIGN CHOICE (log entry 68): an exact zero whose products are all zeros of one sign has that sign. -/
def planCost (terms : List (Nat × Num)) : Nat :=
  let l := terms.filterMap fun x =>
    let v := f32.decode x.1
    if v.isZero then none else some (mulNum v x.2).1
  (roundTo (sumNum .rne l).1 f32 .rne .ovf).1

/-! ### Checks at commit (R226) -/

/-- The plan tile that a PFORM defines (R227). -/
def formTile (a : Tile) (place : Word) (gen : Nat) : Tile :=
  { v := true, plan := true, rows := a.rows, cols := a.cols, tag := 7, abase := place.toNat % 2 ^ 18,
    voff := place.toNat / 2 ^ 18 % 2 ^ 13 * 4, gen := gen }

/-- The words of PMARG (R228): whether they may be read. -/
def State.margPlace (s : State) (g : Wg) (w : Word) (n : Nat) : Option FaultInfo :=
  match s.scratchAt g w n with
  | .error c => some (faultAt c (w.setWidth 64) .load true)
  | .ok k => if (s.ensemble g).any fun h => h.holds k n then none else some (faultAt .prot (w.setWidth 64) .load true)

/-- The checks of a PLAN instruction on what stands at its run's commit, those of its operand words among them. -/
def State.planFault (s : State) (g : Wg) (c : Cmd) : Option FaultInfo :=
  let d := g.tile c.d
  let a := g.tile c.p
  let w := fun i => (c.words.getD i 0).toNat
  let isPlan := fun (t : Tile) => t.v && t.plan
  match c.op with
  | .pform =>
    let t := formTile a (c.words.getD 1 0) 0
    let bad := c.refused || t.abase % 256 != 0 || (a.isPlain && (decide (g.accLen < t.abase + t.planBytes) || decide (g.sideLen < t.voff + t.margBytes) ||
        t.regionsMeet a))
    firstFault [(bad, .cmdblock), (!a.isPlain || tagKind (w 2) != 7, .tag)]
  | .pmarg =>
    let mem := if isPlan d then s.margPlace g (c.words.getD 0 0) d.margBytes else none
    mem.orElse fun _ => firstFault [(c.refused, .cmdblock), (!isPlan d, .tag)]
  | .balance =>
    firstFault [(c.refused, .cmdblock), (!isPlan a, .tag)]
  | .pextract =>
    firstFault
      [(c.refused || (isPlan a && d.isPlain && (d.rows != a.rows || d.cols != a.cols || d.regionsMeet a)), .cmdblock),
       (!isPlan a || !d.isPlain, .tag)]
  | .pcost =>
    let b := g.tile (w 0)
    firstFault [(isPlan a && b.isPlain && (b.rows != a.rows || b.cols != a.cols), .cmdblock), (!isPlan a || !b.isPlain, .tag)]
  | .pstat =>
    let item := w 0 % 8
    let ix := w 0 / 2 ^ 8 % 2 ^ 16
    let range := if item = 1 ∨ item = 3 then isPlan a && decide (a.rows ≤ ix)
      else if item = 2 ∨ item = 4 then isPlan a && decide (a.cols ≤ ix)
      else false
    firstFault [(c.refused || range, .cmdblock), (!isPlan a, .tag)]
  | _ => none

/-! ### The PLAN instructions when issued (R225, R226) -/

/-- The checks of a PLAN instruction when it is issued. -/
def State.planCheck (s : State) (_r : TRef) (g : Wg) (c : Cmd) : Option FaultInfo := s.planFault g c

/-- pform (R227). -/
def execPform (d : Nat) (a : Nat) (b : Nat) (s : State) : Result :=
  tileForm { reads := [b, b + 1] } [d, a] noFault none State.planCheck
    (fun q => { op := .pform, d := d, p := a, words := [wordOf q b, wordOf q (b + 1), (q.reg b).tag.setWidth 32] }) s
/-- pmarg (R228). -/
def execPmarg (d : Nat) (a : Nat) (b : Nat) (s : State) : Result :=
  tileForm { reads := [a, b] } [d]
    (fun q => if (wordOf q a).toNat % 4 ≠ 0 then some (faultAt .align ((wordOf q a).setWidth 64) .load true) else none) none State.planCheck
    (fun q => { op := .pmarg, d := d, words := [wordOf q a, wordOf q b] }) s
/-- balance (R229). -/
def execBalance (d : Nat) (a : Nat) (b : Nat) (s : State) : Result :=
  tileForm { reads := [b, b + 1], writes := [d] } [a] noFault none State.planCheck
    (fun q => { op := .balance, d := d, p := a, words := [wordOf q b, wordOf q (b + 1)], dests := [d] }) s
/-- pextract (R234). -/
def execPextract (d : Nat) (a : Nat) (b : Nat) (s : State) : Result :=
  tileForm { reads := [b] } [d, a] noFault none State.planCheck (fun q => { op := .pextract, d := d, p := a, words := [wordOf q b] }) s
/-- pcost (R235). -/
def execPcost (d : Nat) (a : Nat) (b : Nat) (s : State) : Result :=
  tileForm { writes := [d] } [a, b] noFault none State.planCheck
    (fun _ => { op := .pcost, d := d, p := a, words := [BitVec.ofNat 32 b], dests := [d] }) s
/-- pstat (R236). -/
def execPstat (d : Nat) (a : Nat) (b : Nat) (s : State) : Result :=
  tileForm { reads := [b], writes := [d] } [a] noFault none State.planCheck
    (fun q => { op := .pstat, d := d, p := a, words := [wordOf q b], dests := [d] }) s

end Sys2Proof.Machine
end

