-- ==== Sys2Proof/Machine/Array.lean ====
section
/-! DEFINITION. Tile and plan operations from their commit to their completion, and the tile generator (12_matrix.md
R200 to R220, 13_plan_tiles.md R227 to R237, 21_faults.md R328). -/

namespace Sys2Proof.Machine

/-! ### Tile registers that operations update (R200, R217) -/

/-- A descriptor changed, by its number and definition: the register's, or one that has been defined anew since. -/
def State.modTile (s : State) (w n gen : Nat) (f : Tile → Tile) : State :=
  s.modWg w fun g =>
    if (g.tile n).gen = gen then { g with tiles := g.tiles.set n (f (g.tile n)) }
    else { g with oldTiles := g.oldTiles.map fun x => if x.1 = n ∧ x.2.gen = gen then (n, f x.2) else x }

/-- The descriptor with a number and a definition as it now is. -/
def Wg.tileGen (g : Wg) (n : Nat) (t : Tile) : Tile :=
  if (g.tile n).gen = t.gen then g.tile n
  else ((g.oldTiles.find? fun x => x.1 == n && x.2.gen == t.gen).map (·.2)).getD t

/-- Flags raised in a STATUS (R217). -/
def Tile.raise (t : Tile) (f : FFlags) : Tile := { t with status := t.status ||| f.setWidth 32 }
/-- ERR (R217). -/
def Tile.raiseErr (t : Tile) : Tile := { t with status := t.status ||| 64 }

/-! ### Commit (R200) -/

/-- The operations that the quadrant's array serves in commit order (R200, R225). -/
def CmdOp.onArray : CmdOp → Bool
  | .mma => true | .pform => true | .pmarg => true | .balance => true | .pextract => true | .pcost => true | .pstat => true
  | _ => false

/-- The TILE and PLAN instructions, TGEN left out. -/
def CmdOp.onTiles : CmdOp → Bool
  | .mma => true | .tld => true | .tst => true | .tzero => true | .tcvt => true | .tget => true | .tset => true
  | .tredr => true | .tredc => true | .tstat => true
  | o => o.onArray

/-- The operation names a tile in its D, in its A. -/
def CmdOp.tileD : CmdOp → Bool
  | .tget => false | .tstat => false | .balance => false | .pcost => false | .pstat => false
  | o => o.onTiles
def CmdOp.tileA : CmdOp → Bool
  | .tcvt => true | .tget => true | .tredr => true | .tredc => true | .tstat => true | .pform => true | .balance => true
  | .pextract => true | .pcost => true | .pstat => true
  | _ => false

/-- A descriptor defined anew, for a run (R200). -/
def State.defineTile (s : State) (run w n : Nat) (t : Tile) : State :=
  match s.wg w with
  | none => s
  | some g =>
    let old := g.tile n
    let s := s.note (some run) (.tile w n old t)
    s.modWg w fun g => { g with tiles := g.tiles.set n t
                                oldTiles := if old.v then g.oldTiles ++ [(n, old)] else g.oldTiles }

/-- The address and the size of an element in memory that a TLD reads or a TST writes (R213). -/
def Cmd.elemAt (c : Cmd) (ij : Nat × Nat) : DWord :=
  c.addr + BitVec.ofNat 64 (ij.1 * (c.words.getD 0 0).toNat + ij.2 * fmtSize (c.words.getD 1 0).toNat)
def Cmd.elemLen (c : Cmd) : Nat := fmtSize (c.words.getD 1 0).toNat

/-- The places of the elements in memory of a TLD or TST (R213). -/
def State.tilePlaces (s : State) (g : Wg) (sup : Bool) (c : Cmd) (t : Tile) : List (Option Loc) :=
  let k : Access := if c.op = .tst then .store else .load
  if c.op = .tld ∨ c.op = .tst then t.indices.map fun ij => (s.enginePlace g sup false k (c.elemAt ij) (c.elemLen)).toOption
  else []

/-- A tile or plan operation committed (R200): TZERO and PFORM change their descriptor now. -/
def State.commitTile (s : State) (h : HeldRun) (c : Cmd) : State :=
  match s.wg h.who.wg with
  | none => s
  | some g =>
    let old := g.tile c.d
    let new := match c.op with
      | .tzero => some (zeroTile c.addr (old.gen + 1))
      | .pform => some (formTile (g.tile c.p) (c.words.getD 1 0) (old.gen + 1))
      | _ => none
    let s := match new with
      | some t => s.defineTile h.id h.who.wg c.d t
      | none => s
    let (i, s) := s.takeId
    let sup := ((s.thread h.who).map (·.arch.sup)).getD false
    let x : TileOp :=
      { id := i, who := h.who, seq := h.seq, run := h.id, wg := h.who.wg, core := h.core, sup := sup, cmd := c
        places := s.tilePlaces g sup c (new.getD old)
        td := if c.op.tileD then new.getD old else {}
        ta := if c.op.tileA then g.tile c.p else {}
        tb := if c.op = .pcost then g.tile ((c.words.getD 0 0).toNat) else {}
        phase := .queued, pass := 0, failed := false, stores := [], plan := {}, rel := h.rel }
    { s with tileOps := s.tileOps ++ [x] }

/-! ### Starting (R200) -/

def TileOp.tiles (o : TileOp) : List Tile := [o.td, o.ta, o.tb].filter (·.v)
/-- The bytes of side memory that an operation reads or writes: those of its tiles, and an MMA's exponents and sparse positions
(R206). -/
def TileOp.sides (o : TileOp) : List (Nat × Nat) :=
  let b := MmaBlock.parse o.cmd.block
  o.tiles.flatMap Tile.sides ++ (if o.cmd.op = .mma then
    (if b.ra then [(b.roff, b.m)] else []) ++ (if b.cb then [(b.coff, b.n)] else []) ++ (if b.sp then [(b.moff, b.m * (b.k / 8))] else [])
  else [])

/-- An operation reads or writes the marginal region of a plan tile of the other (13_plan_tiles.md R237). -/
def TileOp.meetsPlan (a b : TileOp) : Bool :=
  b.tiles.any fun t => t.plan && a.sides.any fun x => rangesMeet x.1 x.2 t.voff t.margBytes

/-- Two operations touch the same tile (R200, 13_plan_tiles.md R237). -/
def TileOp.meets (a b : TileOp) : Bool :=
  a.wg == b.wg && ((a.tiles.any fun x => b.tiles.any fun y => x.touches y) || a.meetsPlan b || b.meetsPlan a)

/-- An operation is in the array of a quadrant, or waits in its queue: not one that goes with a saved workgroup (13_plan_tiles.md
R233), nor an MMA that has nothing left but a held arrival (log entry 84). -/
def State.inArray (s : State) (quad : Nat) (o : TileOp) : Bool :=
  o.cmd.op.onArray && o.arrival.isNone && ((s.wg o.wg).map fun g => !g.saved && g.quad == quad).getD false

/-- The array's queue of a quadrant is full (R200). DEDUCED (log entry 84): an MMA that has nothing left but an arrival held at
its rendezvous word has left it. -/
def State.arrayFull (s : State) (quad : Nat) : Bool := decide (8 ≤ (s.tileOps.filter fun o => s.inArray quad o).length)

/-- An operation may begin: its run has been released, no earlier one touches its tiles, and for the array no earlier
one of the quadrant is there (R200, R328). An MMA whose arrival is held has completed in this sense (log entry 84). -/
def State.tileMayStart (s : State) (o : TileOp) : Bool :=
  let quad := ((s.wg o.wg).map (·.quad)).getD 0
  o.phase == .queued && decide (o.rel ≤ s.clock) && !(((s.wg o.wg).map (·.saved)).getD true) &&
    s.tileOps.all fun x => decide (o.id ≤ x.id) || x.arrival.isSome || (!(x.meets o) && !(o.cmd.op.onArray && s.inArray quad x))

/-- Another operation has the array of a quadrant: a BALANCE that was restored there waits for its end (R200, 13_plan_tiles.md
R233). -/
def State.arrayBusy (s : State) (quad : Nat) (o : TileOp) : Bool :=
  s.tileOps.any fun x => x.id != o.id && x.phase == .running && s.inArray quad x

def State.modTileOp (s : State) (id : Nat) (f : TileOp → TileOp) : State :=
  { s with tileOps := s.tileOps.map fun o => if o.id = id then f o else o }

/-- The mode and overflow of a control word whose RM lies at a bit. -/
def ctlRm (w lo : Nat) : Rm := (rmField (w / 2 ^ lo % 8)).getD .rne
def ovfOf (b : Bool) : Ovf := if b then .ovf else .sat

/-- An element of memory under a lane format tag (R213). -/
def fmtValue (ft : Half) (code : Nat) : Num := valElem (BitVec.ofNat 32 code) ft 0
/-- A value converted into an element of a lane format tag (R213, R176). -/
def fmtEncode (ft : Half) (x : Num) (rm : Rm) (o : Ovf) : Nat × FFlags :=
  match tagFmt (tKind ft) (tPrec ft) with
  | some f => roundTo (x.scale (-(tScale ft))) f rm o
  | none => intConvert x (32 / nElem (tKind ft)) (kindSigned (tKind ft)) (tScale ft) rm o

/-- The place of element number i of a TLD or TST: the one that its commit settled (R213), unless it has gone to a new owner since
(25_system.md R378), or where its scratchpad is now. -/
def State.tilePlace (s : State) (g : Wg) (o : TileOp) (k : Access) (i : Nat) (a : DWord) : Except Code Loc :=
  if inScratchRange a then s.enginePlace g o.sup false k a o.cmd.elemLen
  else match (o.places.getD i none) with
    | some (.key x) => if s.still o.who x o.cmd.elemLen then .ok (.key x) else .error .prot
    | some l => .ok l
    | none => .error .xlate

/-- The bytes that a TST writes, element by element, each with its flags. -/
def State.tstBytes (s : State) (g : Wg) (o : TileOp) : List (DWord × List Byte × FFlags) :=
  let f := (o.cmd.words.getD 1 0)
  let ft : Half := f.setWidth 16
  let rm := ctlRm f.toNat 16
  let ov := ovfOf (f.getLsbD 19)
  o.td.indices.map fun ij =>
    let (c, fl) := fmtEncode ft (s.tileVal g o.td ij.1 ij.2) rm ov
    (o.cmd.elemAt ij, natLe o.cmd.elemLen c, fl)

/-- Elements of a TST go to memory: those within the module are performed, the others go out as stores (R213). DESIGN CHOICE (log
entry 67): they go in row order, all at once. -/
def State.tstPut (s : State) (g : Wg) (o : TileOp) (l : List (DWord × List Byte × FFlags)) : State :=
  let s := s.modTile o.wg o.cmd.d o.td.gen fun t => t.raise (l.foldl (fun f b => f ||| b.2.2) 0)
  l.zipIdx.foldl (fun s x => let b := x.1; match s.tilePlace g o .store x.2 b.1 with
    | .ok (.key k) => s.engineWrite o.core (bytesAt k b.2.1)
    | .ok l =>
      let (i, s) := s.takeId
      let p : PStore := { id := i, who := o.who, run := o.run, core := o.core, op := .store l b.2.1 .keep none, rel := o.rel,
                          loads := [], counted := false, monitor := false, age := i, spilled := false, remote := none, addr := b.1 }
      let s := { s with stores := s.stores ++ [p] }
      s.modTileOp o.id fun x => { x with stores := i :: x.stores }
    | .error c => s.modThread o.who fun t => t.defer (faultAt c b.1 .store (inScratchRange b.1)) (some o.seq)) s

/-- All of a TST's elements. -/
def State.tstStores (s : State) (g : Wg) (o : TileOp) : State := s.tstPut g o (s.tstBytes g o)

/-- BALANCE begins: LIMIT and TOL are stored, and the checks and the mass test are made (R229). -/
def State.balanceStart (s : State) (g : Wg) (o : TileOp) : State :=
  let limit := (o.cmd.words.getD 0 0).toNat % 2 ^ 12
  let tol := o.cmd.words.getD 1 0
  let s := s.modTile o.wg o.cmd.p o.ta.gen fun t => { t with limit := limit, tol := tol }
  let (x, lb) := planStart (s.planData g o.ta) o.ta.rows o.ta.cols limit tol.toNat
  let s := match lb with
    | some l => { s with mem := putBytes s.mem (sideBytes g (o.ta.lbOff 0) (wordBytes l)) }
    | none => s
  s.modTileOp o.id fun y => { y with plan := x }

/-- TILE_OP_START (R200, R209): an operation that nothing earlier holds back begins. -/
def execTileOpStart (id : Nat) (s : State) : Result :=
  match s.tileOps.find? fun o => o.id == id with
  | none => .next s
  | some o => match s.wg o.wg with
    | none => .next s
    | some g =>
      if !(s.tileMayStart o) then .next s
      else
        let s := s.modTileOp id fun x => { x with phase := .running }
        match o.cmd.op with
        | .mma =>
          let b := MmaBlock.parse o.cmd.block
          .next (if b.acq then s.acquire o.core (scopeOfCode b.scope) else s)
        | .balance => .next (s.balanceStart g o)
        | _ => .next s

/-! ### Uncorrectable data (R210) -/

/-- The keys of what an operation has not finished. -/
def TileOp.unfinished (o : TileOp) (g : Wg) : List Nat :=
  let acc := fun (off n : Nat) => (List.range n).map fun i => g.accKey (off + i)
  match o.cmd.op with
  | .mma =>
    let b := MmaBlock.parse o.cmd.block
    let first := 64 * (o.pass / (b.k / b.span))
    o.td.indices.flatMap fun ij => if first ≤ ij.2 then acc (o.td.off ij.1 ij.2) o.td.es else []
  | .balance => acc (o.ta.fOff 0) (4 * (o.ta.rows + o.ta.cols))
  | .pmarg => (List.range o.td.margBytes).map fun i => g.sideKey (o.td.voff + i)
  | .tst => []
  | .tset => acc (o.td.off ((o.cmd.words.getD 1 0).toNat / 2 ^ 16) ((o.cmd.words.getD 1 0).toNat % 2 ^ 16)) 4
  | op => if op.tileD then acc o.td.abase o.td.bytes else []

/-- An operation removed; descriptors that nothing refers to any more go with the last. -/
def State.dropTileOp (s : State) (o : TileOp) : State :=
  let s := { s with tileOps := s.tileOps.filter fun x => x.id != o.id }
  if s.tileOps.any fun x => x.wg == o.wg then s else s.modWg o.wg fun g => { g with oldTiles := [] }

/-- A TST that stops on uncorrectable data before one of its elements: those before it are written, and the rest of its memory
elements is undefined (R210, R213). -/
def State.tstUncorr (s : State) (g : Wg) (o : TileOp) : State :=
  let l := s.tstBytes g o
  let n := s.fresh
  let at' := Config.freeChoice n % max l.length 1
  let rest := (l.drop at').zipIdx.map fun x =>
    (x.1.1, natLe x.1.2.1.length (Config.freeBits (n + 1 + x.2)).toNat, (0 : FFlags))
  let s := { s with fresh := n + 1 + l.length }
  s.tstPut g o (l.take at' ++ rest)

/-- A codeword that a TLD reads is found uncorrectable: it is poisoned (21_faults.md R331). -/
def State.tldPoison (s : State) (g : Wg) (o : TileOp) : State :=
  if o.cmd.op != .tld || o.td.indices.isEmpty then s
  else
    let (n, s) := s.takeFresh
    let i := Config.freeChoice n % o.td.indices.length
    match s.tilePlace g o .load i (o.cmd.elemAt (o.td.indices.getD i (0, 0))) with
    | .ok (.key k) => s.poisonWord k
    | _ => s

/-- An operation stops on data that it cannot read (R210): what it had not finished is undefined, ERR is set, and the fault comes
at the thread's next run. -/
def State.tileStop (s : State) (g : Wg) (o : TileOp) (code : Code) : State :=
  let s := if o.cmd.op = .tst then s.tstUncorr g o else s
  let ks := o.unfinished g
  let n := s.fresh
  let s := { s with fresh := s.fresh + ks.length + 4 }
  let s := { s with mem := putBytes s.mem (ks.zipIdx.map fun (k : Nat × Nat) => (k.1, (Config.freeBits (n + k.2)).setWidth 8)) }
  let t := if o.td.v then (o.cmd.d, o.td.gen) else (o.cmd.p, o.ta.gen)
  let s := s.modTile o.wg t.1 t.2 Tile.raiseErr
  let s := s.modThread o.who fun t => t.defer { code := code, deferred := true } (some o.seq)
  let s := s.dropTileOp o
  let s := { s with passHolds := s.passHolds.filter fun h => h.was.id != o.id }
  s.arrive o.who o.seq (o.cmd.dests.map fun d => (d, freeReg (n + ks.length))) .tiles

/-- An operation stops on uncorrectable data (R210). -/
def State.tileUncorr (s : State) (g : Wg) (o : TileOp) : State := s.tileStop g o .uncorr

/-- The places in other modules that a TLD reads. -/
def State.tldFar (s : State) (g : Wg) (o : TileOp) : List (Nat × Nat × Nat) :=
  if o.cmd.op != .tld then []
  else o.td.indices.zipIdx.filterMap fun x => match s.tilePlace g o .load x.2 (o.cmd.elemAt x.1) with
    | .ok (.remote m pa) => some (m, pa, o.cmd.elemLen)
    | _ => none

/-- The fault of a TLD whose data cannot be read: UNCORR, PROT where they have gone to a new owner (25_system.md R378), or REMOTE where a read of another module has failed without being
uncorrectable (R210, 22_fabric_host.md R339). -/
def State.tldCode (s : State) (g : Wg) (o : TileOp) : Code :=
  if o.td.indices.zipIdx.any (fun x => (s.tilePlace g o .load x.2 (o.cmd.elemAt x.1)).toOption.isNone) then .prot
  else if s.fab.farReads.any fun x => x.owner == o.id && decide (3 < x.code) then .remote else .uncorr

/-! ### Passes (R202 to R208, R328) -/

/-- Bytes that the hold buffer of a quadrant keeps. -/
def State.heldBytes (s : State) (quad : Nat) : Nat :=
  ((s.passHolds.filter fun h => ((s.wg h.was.wg).map (·.quad)).getD 0 == quad).map (·.old.length)).sum

/-- The writes of a pass, held until its end cycle plus 320 (R328); the operation is past it, and the meter counts it. -/
def State.endPass (s : State) (o : TileOp) (n : Nat) (gen : Nat) (bs : List (Nat × Byte)) (fl : FFlags) (next : TileOp) : State :=
  let (i, s) := s.takeId
  let before := ((s.wg o.wg).map fun g => g.tileGen n { ({} : Tile) with gen := gen }).getD {}
  let h : PassHold := { id := i, core := o.core, rel := s.clock + 320, old := bs.map fun b => (b.1, Memory.read s.mem b.1),
                        was := o, tile := n, before := before }
  let s := { s with passHolds := s.passHolds ++ [h], mem := putBytes s.mem bs }
  let s := s.modPart (((s.wg o.wg).map (·.part)).getD 0) fun p => { p with meter := { p.meter with passes := p.meter.passes + 1 } }
  let s := s.modTile o.wg n gen fun t => t.raise fl
  s.modTileOp o.id fun _ => next

/-- The code of an element of A at its place in a row; a place outside the region that was checked at commit holds a
free value. -/
def State.aCode (s : State) (g : Wg) (b : MmaBlock) (row : Option Word) (k : Nat) : Nat :=
  let n := srcBytes b.atag
  match (row.bind fun w => wordPlus w (k * n)).bind fun w => s.arrayKey g w n with
  | some key => leNat (s.mem.readN key n)
  | none => (Config.freeBits (s.fresh + k)).toNat % 2 ^ (8 * n)

/-- The code of element (k, j) of B in the canopy (R202). -/
def State.bCode (s : State) (g : Wg) (b : MmaBlock) (k j : Nat) : Nat :=
  let n := srcBytes b.btag
  leNat (s.mem.readN (g.canKey (j % 64) (b.boff + j / 64 * b.k * n + k * n)) n)

/-- The stored elements of a row in a chunk: the position in the row, and the position in k (R202, R204). -/
def State.chunkPlaces (s : State) (g : Wg) (b : MmaBlock) (i c : Nat) : List (Nat × Nat) :=
  if b.sp then
    (List.range (b.span / 4)).flatMap fun x =>
      let q := c * (b.span / 4) + x
      let nib := s.sideRead g (b.moff + i * (b.k / 8) + q / 2) 1 / 2 ^ (4 * (q % 2)) % 16
      [(2 * q, 4 * q + nib % 4), (2 * q + 1, 4 * q + nib / 4)]
  else (List.range b.span).map fun x => (c * b.span + x, c * b.span + x)

/-- The products of a chunk for element (i, j) (R205), row exponents and tag scales among their factors. -/
def State.mmaProducts (s : State) (g : Wg) (b : MmaBlock) (i j c : Nat) : List (Num × Bool) :=
  let row := s.rowAddr none g b i
  let ra := if b.ra then s.sideByte g (b.roff + i) else 0
  let cb := if b.cb then s.sideByte g (b.coff + j) else 0
  (s.chunkPlaces g b i c).map fun p =>
    let (x, inv) := mulNum (fmtValue b.atag (s.aCode g b row p.1)) (fmtValue b.btag (s.bCode g b p.2 j))
    ((if b.neg then x.neg else x).scale (ra + cb), inv)

/-- The chunk's sum for an i32 tile, as an integer number of C's units (R205). -/
def State.mmaInt (s : State) (g : Wg) (b : MmaBlock) (i j c : Nat) : Int :=
  let row := s.rowAddr none g b i
  let v := fun (t : Half) (code : Nat) => if kindSigned (tKind t) then signedOf 8 code else (code : Int)
  let z := ((s.chunkPlaces g b i c).map fun p => v b.atag (s.aCode g b row p.1) * v b.btag (s.bCode g b p.2 j)).sum
  if b.neg then -z else z

/-- The new element of C after a chunk (R208). -/
def State.mmaElem (s : State) (g : Wg) (b : MmaBlock) (t : Tile) (i j c : Nat) : Nat × FFlags :=
  let fresh := b.ovw && c == 0
  let code := s.accRead g (t.off i j) t.es
  if t.kind = 1 then
    let z := (if fresh then 0 else signedOf 32 code) + s.mmaInt g b i j c
    if b.sat then (let (w, fl) := satI32 z; (w.toNat, fl)) else ((z % 2 ^ 32).toNat, 0)
  else
    let e := s.tileExp g t i j
    let ps := s.mmaProducts g b i j c
    let terms := (if fresh then [] else [t.decode code]) ++ ps.map fun x => x.1.scale (-e)
    let rm := (rmField b.rm).getD .rne
    let (x, inv) := sumNum rm terms
    let (w, fl) := roundTo x (if t.kind = 7 then f32 else f16) rm .ovf
    (w, fl ||| flagIf (inv || ps.any (·.2)) fNV)

/-- A pass of an MMA: its column group and its chunk (R202). -/
def State.mmaPass (s : State) (g : Wg) (o : TileOp) : List (Nat × Byte) × FFlags :=
  let b := MmaBlock.parse o.cmd.block
  let chunks := b.k / b.span
  let grp := o.pass / chunks
  let c := o.pass % chunks
  ((List.range b.m).flatMap fun i => (List.range 64).map fun j => (i, 64 * grp + j)).foldl
    (fun (acc : List (Nat × Byte) × FFlags) ij =>
      let (w, fl) := s.mmaElem g b o.td ij.1 ij.2 c
      (acc.1 ++ accBytes g (o.td.off ij.1 ij.2) (natLe o.td.es w), acc.2 ||| fl)) ([], 0)

/-- The next pass of an operation reads scratchpad that is marked uncorrectable (R210, 21_faults.md R331): an MMA's index list and
its chunk of A, or the marginals of a PMARG. -/
def State.passBad (s : State) (g : Wg) (o : TileOp) : Bool :=
  let bad := fun (k n : Nat) => (List.range n).any fun i => s.isPoisoned (k + i)
  match o.cmd.op with
  | .mma =>
    let b := MmaBlock.parse o.cmd.block
    let len := (if b.sp then b.span / 2 else b.span) * srcBytes b.atag
    let at' := o.pass % (b.k / b.span) * len
    (b.layout && (List.range b.m).any fun i => match (wordPlus b.aidx (2 * i)).bind fun w => s.arrayKey g w 2 with
      | some k => bad k 2
      | none => false) ||
    (List.range b.m).any fun i => match ((s.rowAddr none g b i).bind fun w => wordPlus w at').bind fun w => s.arrayKey g w len with
      | some k => bad k len
      | none => false
  | .pmarg => (match s.scratchAt g (o.cmd.words.getD 0 0) o.td.margBytes with
    | .ok k => bad k o.td.margBytes
    | .error _ => false)
  | _ => false

/-- The passes of an array operation: those of R202 for MMA, one for the others that write. -/
def TileOp.passes (o : TileOp) : Nat :=
  match o.cmd.op with
  | .mma =>
    let b := MmaBlock.parse o.cmd.block
    b.n / 64 * (b.k / b.span)
  | .pform => 1
  | .pmarg => 1
  | .pextract => 1
  | _ => 0

/-- The writes of PFORM (R227). -/
def State.formPass (s : State) (g : Wg) (o : TileOp) : List (Nat × Byte) × FFlags :=
  let r := f32.decode (o.cmd.words.getD 0 0).toNat
  let (cs, fl) := o.ta.indices.foldl (fun (acc : List Nat × FFlags) ij =>
    let x := s.tileVal g o.ta ij.1 ij.2
    let (c, f) := if x.isZero then (f32Zero, 0) else roundTo (mulNum x.neg r).1 f32 .rne .ovf
    (acc.1 ++ [c], acc.2 ||| f)) ([], 0)
  let zeros := List.replicate (o.td.rows + o.td.cols) f32Zero
  let la := List.replicate o.td.rows (f32Neg (log2Nat o.td.rows)) ++ List.replicate o.td.cols (f32Neg (log2Nat o.td.cols))
  (accBytes g o.td.abase (wordBytes (cs ++ zeros)) ++ sideBytes g o.td.voff (wordBytes la), fl)

/-- The writes of PMARG (R228). -/
def State.margPass (s : State) (g : Wg) (o : TileOp) : List (Nat × Byte) :=
  let w := o.cmd.words.getD 0 0
  let mode := (o.cmd.words.getD 1 0).toNat % 2
  match s.scratchAt g w o.td.margBytes with
  | .error _ => []
  | .ok k =>
    let ws := (List.range (o.td.rows + o.td.cols)).map fun i => leNat (s.mem.readN (k + 4 * i) 4)
    sideBytes g o.td.voff (wordBytes (ws.map fun x => if mode = 0 then x else log2r x))

/-- The writes of PEXTRACT (R234). -/
def State.extractPass (s : State) (g : Wg) (o : TileOp) : List (Nat × Byte) × FFlags :=
  let p := s.planData g o.ta
  let w := (o.cmd.words.getD 0 0).toNat
  let rm := ctlRm w 0
  let ov := ovfOf (w / 8 % 2 == 1)
  o.td.indices.foldl (fun (acc : List (Nat × Byte) × FFlags) ij =>
    let (c, f) := o.td.encode (f32.decode (p.plan o.ta.cols ij.1 ij.2)) (s.tileExp g o.td ij.1 ij.2) rm ov
    (acc.1 ++ accBytes g (o.td.off ij.1 ij.2) (natLe o.td.es c), acc.2 ||| f)) ([], 0)

/-- A word that an operation has to read or write is claimed: the operation waits (R155). -/
def State.tileClaimed (s : State) (g : Wg) (o : TileOp) : Bool :=
  s.claims.any fun c => s.tileTouches g o c.1 4

/-- The bytes of canopy memory that a pass reads: a chunk of 64 columns of B (R202). -/
def TileOp.passCanopy (o : TileOp) : Nat :=
  let b := MmaBlock.parse o.cmd.block
  if o.cmd.op = .mma then 64 * b.span * srcBytes b.btag else 0

/-- MATRIX_PASS_END (R202, R208): the next pass of a running operation writes its results, unless the hold buffer has no
room; bad says that data it read are uncorrectable. -/
def execMatrixPassEnd (id : Nat) (bad : Bool) (s : State) : Result :=
  match s.tileOps.find? fun o => o.id == id with
  | none => .next s
  | some o => match s.wg o.wg with
    | none => .next s
    | some g =>
      if o.phase != .running || decide (o.passes ≤ o.pass) || s.tileClaimed g o then .next s
      else if bad || s.passBad g o then .next (s.tileUncorr g o)
      else
        let (bs, fl) := match o.cmd.op with
          | .mma => s.mmaPass g o
          | .pform => s.formPass g o
          | .pmarg => (s.margPass g o, 0)
          | _ => s.extractPass g o
        let held := s.heldBytes g.quad
        if held != 0 && decide (81920 < held + bs.length) then .next s
        else .next (({ s with canMoved := s.bondMoved s.canMoved g.quad o.passCanopy } : State).endPass o o.cmd.d o.td.gen bs fl { o with pass := o.pass + 1 })

/-- BALANCE_SWEEP (R229, R233): one sweep of a running BALANCE with its error; none while its workgroup is pre-empted. -/
def execBalanceSweep (id : Nat) (s : State) : Result :=
  match s.tileOps.find? fun o => o.id == id with
  | none => .next s
  | some o => match s.wg o.wg with
    | none => .next s
    | some g =>
      if o.cmd.op != .balance || o.phase != .running || o.plan.stopped || g.saved || s.arrayBusy g.quad o then .next s
      else
        let n := o.ta.rows
        let m := o.ta.cols
        let limit := (o.cmd.words.getD 0 0).toNat % 2 ^ 12
        let tol := (o.cmd.words.getD 1 0).toNat
        let p := s.planData g o.ta
        let (res, inf) := planSweep p n m
        match res with
        | none => .next (s.modTileOp id fun x =>
            { x with plan := { x.plan with nan := true, infeas := x.plan.infeas || inf, stopped := true } })
        | some (f, h) =>
          let bs := accBytes g (o.ta.fOff 0) (wordBytes (f ++ h))
          let x := { o.plan with k := o.plan.k + 1, infeas := o.plan.infeas || inf }
          let x := x.judge { p with f := f, g := h } n m tol limit
          .next (s.endPass o o.cmd.p o.ta.gen bs 0 { o with plan := x })

/-- PASS_HOLD_RELEASE (R328): the held writes of a pass are final. -/
def execPassHoldRelease (id : Nat) (s : State) : Result :=
  match s.passHolds.find? fun h => h.id == id with
  | none => .next s
  | some h => if h.rel ≤ s.clock then .next { s with passHolds := s.passHolds.filter fun x => x.id != id } else .next s

/-! ### Completion (R200, R208 to R217, R232) -/

/-- The whole work of a TILE operation off the array: the bytes it writes in accumulator memory, and its flags. none on
uncorrectable data. -/
def State.tileWork (s : State) (g : Wg) (o : TileOp) : Option (List (Nat × Byte) × FFlags) × State :=
  let w := fun i => (o.cmd.words.getD i 0).toNat
  let put := fun (t : Tile) (i j c : Nat) => accBytes g (t.off i j) (natLe t.es c)
  let conv := fun (rm : Rm) (ov : Ovf) (l : List ((Nat × Nat) × Num × FFlags)) =>
    some (l.foldl (fun (acc : List (Nat × Byte) × FFlags) x =>
      let (c, f) := o.td.encode x.2.1 (s.tileExp g o.td x.1.1 x.1.2) rm ov
      (acc.1 ++ put o.td x.1.1 x.1.2 c, acc.2 ||| f ||| x.2.2)) ([], 0))
  match o.cmd.op with
  | .tzero => (some (accBytes g o.td.abase (List.replicate o.td.bytes 0), 0), s)
  | .tld =>
    let f := o.cmd.words.getD 1 0
    let ft : Half := f.setWidth 16
    let (vals, s') := o.td.indices.zipIdx.foldl (fun (acc : Option (List ((Nat × Nat) × Num × FFlags)) × State) ij =>
      match acc.1, acc.2.tilePlace g o .load ij.2 (o.cmd.elemAt ij.1) with
      | some l, .ok x => match acc.2.engineRead o.id o.core x o.cmd.elemLen with
        | (.ok bs, s') => (some (l ++ [(ij.1, fmtValue ft (leNat bs), 0)]), s')
        | (.error _, s') => (none, s')
      | _, _ => (none, acc.2)) (some [], s)
    match vals with
    | some l => (conv (ctlRm f.toNat 16) (ovfOf (f.getLsbD 19)) l, s')
    | none => (none, s')
  | .tcvt =>
    (conv (ctlRm (w 0) 0) (ovfOf (w 0 / 8 % 2 == 1)) (o.ta.indices.map fun ij => (ij, s.tileVal g o.ta ij.1 ij.2, 0)), s)
  | .tset =>
    let i := w 1 / 2 ^ 16
    let j := w 1 % 2 ^ 16
    (some (accBytes g (o.td.off i j) (natLe 4 (w 0)), 0), s)
  | .tredr =>
    let rm := ctlRm (w 0) 2
    let red := fun (l : List Num) => match w 0 % 4 with
      | 0 => (let (x, inv) := sumNum rm l; (x, flagIf inv fNV))
      | 1 => (l.foldl maxNum .nan, 0)
      | _ => (l.foldl minNum .nan, 0)
    (conv rm (ovfOf (w 0 / 32 % 2 == 1)) ((List.range o.ta.rows).map fun i =>
      ((i, 0), red ((List.range o.ta.cols).map fun j => s.tileVal g o.ta i j))), s)
  | .tredc =>
    let rm := ctlRm (w 0) 2
    let red := fun (l : List Num) => match w 0 % 4 with
      | 0 => (let (x, inv) := sumNum rm l; (x, flagIf inv fNV))
      | 1 => (l.foldl maxNum .nan, 0)
      | _ => (l.foldl minNum .nan, 0)
    (conv rm (ovfOf (w 0 / 32 % 2 == 1)) ((List.range o.ta.cols).map fun j =>
      ((0, j), red ((List.range o.ta.rows).map fun i => s.tileVal g o.ta i j))), s)
  | _ => (some ([], 0), s)

/-- The register that an operation writes (R215, R217, R232, R235, R236). -/
def State.tileResult (s : State) (g : Wg) (o : TileOp) : RegVal :=
  let w := (o.cmd.words.getD 0 0).toNat
  let t := g.tileGen o.cmd.p o.ta
  match o.cmd.op with
  | .tget =>
    let j := w % 2 ^ 16
    { bits := BitVec.ofNat 32 (s.accRead g (o.ta.off (w / 2 ^ 16) j) 4), tag := (o.ta.laneTag j).getD tagRaw }
  | .tstat => regN32 (t.status ||| (if o.ta.plan then 256 else 0))
  | .balance => regN32 o.plan.status
  | .pcost =>
    let p := s.planData g o.ta
    let m := o.ta.cols
    { bits := BitVec.ofNat 32 (planCost (o.ta.indices.map fun ij => (p.plan m ij.1 ij.2, s.tileVal g o.tb ij.1 ij.2))), tag := tagF32 }
  | _ =>
    let p := s.planData g o.ta
    let ix := w / 2 ^ 8 % 2 ^ 16
    let f := fun (l : List Nat) => ({ bits := BitVec.ofNat 32 (l.getD ix 0), tag := tagF32 } : RegVal)
    match w % 8 with
    | 0 => regN32 t.pstatus
    | 1 => f p.f
    | 2 => f p.g
    | 3 => f p.la
    | 4 => f p.lb
    | 5 => regNat t.limit
    | _ => { bits := t.tol, tag := tagF32 }

/-- Whether an operation has nothing left but to complete: its passes or sweeps are done and none of them is held, and its
stores are performed. -/
def State.tileDone (s : State) (o : TileOp) : Bool :=
  o.phase != .queued && decide (o.passes ≤ o.pass) && (o.cmd.op != .balance || o.plan.stopped) &&
    !(s.passHolds.any fun h => h.was.id == o.id) && !(s.stores.any fun p => o.stores.contains p.id)

/-- The last accumulator write of an MMA is a release, and its arrival is made (R208, R209): the number of the arrival, where it
is held at its word (11_streamers.md R182). -/
def State.mmaArrive (s : State) (g : Wg) (o : TileOp) : Option Nat × State :=
  let b := MmaBlock.parse o.cmd.block
  let s := if b.rel then s.releaseAt o.core (scopeOfCode b.scope) else s
  if b.rv then match s.scratchAt g b.rvaddr 16 with
    | .ok k =>
      let i := s.nextId
      let s := s.evaluate none k 1 0 none
      (if s.rvHolds.any fun h => h.id == i then some i else none, s)
    | .error _ => (none, s)
  else (none, s)

/-- The arrival of an MMA waits while a thread has claimed its word (R155). -/
def State.mmaWaits (s : State) (g : Wg) (o : TileOp) : Bool :=
  let b := MmaBlock.parse o.cmd.block
  o.cmd.op == .mma && b.rv && (match s.scratchAt g b.rvaddr 16 with
    | .ok k => s.claimedAt (some k) 16
    | .error _ => false)

/-- An operation completes: it writes its register if it has one, and its tiles count falls. -/
def State.endTileOp (s : State) (g : Wg) (o : TileOp) : State :=
  let ws := o.cmd.dests.map fun d => (d, ({ val := s.tileResult g o } : Reg))
  (s.dropTileOp o).arrive o.who o.seq ws .tiles

/-- An MMA past its last pass makes its arrival, and completes once that is performed (R208). -/
def State.endMma (s : State) (g : Wg) (o : TileOp) : State :=
  match o.arrival with
  | some i => if s.rvHolds.any fun h => h.id == i then s else s.endTileOp g o
  | none =>
    let (held, s) := s.mmaArrive g o
    if held.isSome then s.modTileOp o.id fun x => { x with arrival := held } else s.endTileOp g o

/-- A TST writes its elements, and completes when those that go to other modules are performed (R213). -/
def State.endTst (s : State) (g : Wg) (o : TileOp) : State :=
  if o.phase = .finishing then s.endTileOp g o
  else
    let s := (s.tstStores g o).modTileOp o.id fun x => { x with phase := .finishing }
    match s.tileOps.find? fun x => x.id == o.id with
    | some x => if x.stores.isEmpty then s.endTileOp g x else s
    | none => s

/-- TILE_OP_COMPLETE (R200, R208): an operation completes, writes its register if it has one, and its tiles count falls;
bad says that data it read are uncorrectable. -/
def execTileOpComplete (id : Nat) (bad : Bool) (s : State) : Result :=
  match s.tileOps.find? fun o => o.id == id with
  | none => .next s
  | some o => match s.wg o.wg with
    | none => .next s
    | some g =>
      if !(s.tileDone o) || s.mmaWaits g o || s.tileClaimed g o then .next s
      else if bad && o.phase == .running && o.arrival.isNone && !(o.cmd.op == .tzero) then .next ((s.tldPoison g o).tileUncorr g o)
      else if o.cmd.op = .mma then .next (s.endMma g o)
      else if o.cmd.op = .tst then .next (s.endTst g o)
      else if !(s.farMissing o.id (s.tldFar g o)).isEmpty then .next (s.askFar o.id g.part (s.tldFar g o))
      else match s.tileWork g o with
        | (none, s) => .next ((s.dropFar o.id).tileStop g o (s.tldCode g o))
        | (some (bs, fl), s) =>
          let s := { s.dropFar o.id with mem := putBytes s.mem bs }
          let s := if o.td.v then s.modTile o.wg o.cmd.d o.td.gen fun t => t.raise fl else s
          let s := if o.cmd.op = .balance then s.modTile o.wg o.cmd.p o.ta.gen fun t => { t with pstatus := o.plan.status } else s
          .next (s.endTileOp ((s.wg o.wg).getD g) o)

/-! ### The tile generator (R218 to R220) -/

/-- A TGEN that has been released (R328). -/
def State.enqueueTgen (s : State) (h : HeldRun) (c : Cmd) : State :=
  match s.wg h.who.wg with
  | none => s
  | some g =>
    let b := GenBlk.parse c.block
    let comp := if b.cp && b.csp then (match s.scratchAt g (b.caddr.setWidth 32) 4 with
      | .ok k => some k
      | .error _ => none) else none
    let (i, s) := s.takeId
    let x : TGen := { id := i, who := h.who, seq := h.seq, part := g.part, sup := c.words == [1], core := h.core,
                      block := c.block, d := c.d, aborted := g.killed, compKey := comp }
    { s with tgens := s.tgens ++ [x] }

/-- What a histogram gives (R219): the descriptors that fit, the offsets, the number of descriptors and whether a FIRST
passed its range. -/
structure GenOut where
  descs : List Nat
  offs : List Nat
  off : Nat
  n : Nat
  stopped : Bool
  deriving DecidableEq, Repr

/-- One expert of the loop of R219. -/
def GenOut.expert (b : GenBlk) (x : GenOut) (e c : Nat) : GenOut :=
  if x.stopped then x
  else
    let r := b.mr + 1
    let tiles := (c + r - 1) / r
    let good := if x.off ≤ 2 ^ 24 - 1 then min tiles ((2 ^ 24 - 1 - x.off) / r + 1) else 0
    let ds := (List.range (min good (b.qcap - x.n))).map fun t =>
      b.passes * 2 ^ 49 + (min r (c - t * r) - 1) * 2 ^ 40 + (x.off + t * r) * 2 ^ 16 + e
    { descs := x.descs ++ ds, offs := x.offs ++ [x.off % 2 ^ 32], off := x.off + c, n := x.n + good, stopped := decide (good < tiles) }

/-- The loop of R219 over the counts. -/
def genLoop (b : GenBlk) (counts : List Nat) : GenOut :=
  let x := counts.zipIdx.foldl (fun x c => x.expert b c.2 c.1) { descs := [], offs := [], off := 0, n := 0, stopped := false }
  if x.stopped then x else { x with offs := x.offs ++ [x.off % 2 ^ 32] }

def State.modTgen (s : State) (id : Nat) (f : TGen → TGen) : State :=
  { s with tgens := s.tgens.map fun (t : TGen) => if t.id = id then f t else t }

/-- Bytes at a generic address that the cluster unit writes for a command; none on a failure. A write to another module is
awaited. -/
def State.unitWrite (s : State) (g : Wg) (t : TGen) (a : DWord) (bs : List Byte) : Option State :=
  match s.enginePlace g t.sup false .store a bs.length with
  | .ok (.key k) => some (s.engineWrite t.core (bytesAt k bs))
  | .ok (.remote m pa) =>
    let (j, s) := s.takeId
    let s := s.addRemote { id := j, purpose := .tgen t.id, part := g.part, mod := m, type := 3, paddr := pa, body := bs }
    some (s.modTgen t.id fun x => { x with waits := x.waits ++ [j] })
  | .error _ => none

/-- Items written at rising addresses; the state after the last that could be written, and whether all were. -/
def State.unitWrites (s : State) (g : Wg) (t : TGen) (l : List (DWord × List Byte)) : Bool × State :=
  l.foldl (fun (acc : Bool × State) x =>
    if acc.1 then match acc.2.unitWrite g t x.1 x.2 with
      | some s => (true, s)
      | none => (false, acc.2)
    else acc) (true, s)

/-- A count that a TGEN reads, or its code (R219): a read of another module that is denied or lost is SRCFAULT too; bad says that it is found uncorrectable, and its codeword is poisoned
(21_faults.md R331). -/
def State.genCount (s : State) (g : Wg) (t : TGen) (b : GenBlk) (bad : Bool) (e : Nat) : Except Nat Nat × State :=
  match s.enginePlace g t.sup false .load (b.haddr + BitVec.ofNat 64 (4 * e)) 4 with
  | .error _ => (.error 1, s)
  | .ok x =>
    if bad then (.error 3, match x with
      | .key k => s.poisonWord k
      | .remote _ _ => s)
    else match s.engineRead t.id t.core x 4 with
      | (.ok bs, s) => (.ok (leNat bs), s)
      | (.error c, s) => (.error (if c = 3 then 3 else 1), s)

/-- The loop of R219 for one expert more: its offset is written, its count is read, and its descriptors are written. code is that
of a failure, after which nothing more is done. -/
def State.genExpert (g : Wg) (t : TGen) (b : GenBlk) (badAt : Option Nat) (acc : GenOut × Nat × State) (e : Nat) :
    GenOut × Nat × State :=
  let (x, code, s) := acc
  if code != 0 || x.stopped then acc
  else
    let offs := if b.oaddr = 0 then [] else [(b.oaddr + BitVec.ofNat 64 (4 * e), natLe 4 (x.off % 2 ^ 32))]
    match s.unitWrites g t offs with
    | (false, s) => (x, 2, s)
    | (true, s) => match s.genCount g t b (badAt == some e) e with
      | (.error c, s) => (x, c, s)
      | (.ok c, s) =>
        let y := x.expert b e c
        let ds := (y.descs.drop x.descs.length).zipIdx.map fun d =>
          (b.qaddr + BitVec.ofNat 64 (8 + 8 * (x.descs.length + d.2)), natLe 8 d.1)
        match s.unitWrites g t ds with
        | (ok, s) => (y, if ok then 0 else 2, s)

/-- The places in other modules of the counts that a TGEN reads. -/
def State.genFar (s : State) (g : Wg) (t : TGen) : List (Nat × Nat × Nat) :=
  let b := GenBlk.parse t.block
  if t.stage != 0 || t.aborted then []
  else (List.range b.e).filterMap fun e => s.farSide g t.sup (.far (b.haddr + BitVec.ofNat 64 (4 * e))) 4

/-- The descriptors and offsets of a TGEN (R219): what it reports, and its code. -/
def State.genRun (s : State) (g : Wg) (t : TGen) (b : GenBlk) (badAt : Option Nat) : Nat × Nat × State :=
  let (x, code, s) := (List.range b.e).foldl (State.genExpert g t b badAt)
    (({ descs := [], offs := [], off := 0, n := 0, stopped := false } : GenOut), 0, s)
  if code != 0 then (0, code, s)
  else
    let last := if b.oaddr = 0 || x.stopped then [] else [(b.oaddr + BitVec.ofNat 64 (4 * b.e), natLe 4 (x.off % 2 ^ 32))]
    match s.unitWrites g t last with
    | (false, s) => (0, 2, s)
    | (true, s) => (min x.n b.qcap, if x.stopped ∨ b.qcap < x.n then 8 else 0, s)

/-- A TGEN that fails (R219): its count is 0. -/
def TGen.fail (t : TGen) (code : Nat) : TGen := { t with count := 0, code := code }

/-- CURSOR and COUNT (R219, R220): the write of COUNT is a release where the command asks for one. -/
def State.genHead (s : State) (g : Wg) (t : TGen) (b : GenBlk) : State :=
  let s := if b.rel then s.releaseAt t.core (scopeOfCode b.scope) else s
  match s.unitWrites g t [(b.qaddr + 4, natLe 4 0), (b.qaddr, natLe 4 t.count)] with
  | (true, s) => s
  | (false, s) => s.modTgen t.id fun t => if t.code = 0 ∨ t.code = 8 then t.fail 2 else t

/-- The completion word could not be written (R178): that is its code, unless an earlier failure has set one. -/
def TGen.compFail (t : TGen) (code : Nat) : TGen := if t.code = 0 then t.fail code else t

/-- The completion word of a TGEN (R178, R219, R220). -/
def State.genCompletion (s : State) (g : Wg) (t : TGen) (b : GenBlk) : State :=
  let v : Word := if t.code = 0 ∨ t.code = 8 then b.cvalue else BitVec.ofNat 32 (0xFFFFFF00 + t.code)
  if !b.cp then s
  else
    let s := s.releaseAt t.core (scopeOfCode b.scope)
    match t.compKey with
    | some k =>
      if !(s.still t.who k 4) then s.modTgen t.id fun t => t.compFail 2
      else ((s.pokes none (bytesAt k (natLe 4 v.toNat))).setFull none k true).monitorAll [k]
    | none =>
      if b.csp then s.modTgen t.id fun t => t.compFail 2
      else match s.unitWrite g t b.caddr (natLe 4 v.toNat) with
        | none => s.modTgen t.id fun t => t.compFail 2
        | some s => match s.enginePlace g t.sup false .store b.caddr 4 with
          | .ok (.key k) => if isScratch k then (s.setFull none k true).monitorAll [k] else s
          | _ => s

/-- One stage of a TGEN: its descriptors and offsets, its CURSOR and COUNT, its completion word, and at last its status, after
which the clean copies of its core and of its thread's go (R151). -/
def State.genStage (s : State) (g : Wg) (t : TGen) (bad : Bool) : State :=
  let b := GenBlk.parse t.block
  match t.stage with
  | 0 =>
    if t.aborted then s.modTgen t.id fun t => { t.fail 6 with stage := 1 }
    else
      let s := if b.acq then s.acquire t.core (scopeOfCode b.scope) else s
      let (f, s) := s.takeFresh
      let (n, code, s) := s.genRun g t b (if bad then some (Config.freeChoice f % max b.e 1) else none)
      (s.dropFar t.id).modTgen t.id fun t => { t with stage := 1, count := n, code := code }
  | 1 => (s.modTgen t.id fun t => { t with stage := 2 }).genHead g t b
  | 2 => (s.modTgen t.id fun t => { t with stage := 3 }).genCompletion g t b
  | _ =>
    let s := (s.dropClean t.core none).dropClean (s.coreOf t.who) none
    let s := { s with tgens := s.tgens.filter fun x => x.id != t.id }
    s.arrive t.who t.seq [(t.d, { val := regNat (t.count * 256 + t.code) })] .tiles

/-- The stages of a TGEN, as far as no write to another module is awaited (R219, R220). -/
def State.genStages (id : Nat) (bad : Bool) : Nat → State → State
  | 0, s => s
  | n + 1, s => match s.tgens.find? fun t => t.id == id with
    | none => s
    | some t => match s.wg t.who.wg with
      | none => { s with tgens := s.tgens.filter fun x => x.id != id }
      | some g =>
        if !t.waits.isEmpty || s.claims.any (fun c => t.touches c.1 4) then s
        else if !(s.farMissing t.id (s.genFar g t)).isEmpty then s.askFar t.id t.part (s.genFar g t)
        else State.genStages id bad n (s.genStage g t bad)

/-- TGEN_COMPLETE (R219, R220): the generator goes on; bad says that a count it reads is uncorrectable. -/
def execTgenComplete (id : Nat) (bad : Bool) (s : State) : Result := .next (s.genStages id bad 4)

/-- A write of a TGEN to another module is performed, or has failed (R178, R219). -/
def State.genAcked (s : State) (id remote : Nat) (fail : Option Nat) : State :=
  s.modTgen id fun t =>
    let t := { t with waits := t.waits.filter (· != remote) }
    match fail with
    | none => t
    | some code => if t.stage = 3 then t.compFail code else if t.code = 0 ∨ t.code = 8 then t.fail 2 else t

end Sys2Proof.Machine
end

