-- ==== Sys2Proof/Machine/Lodge.lean ====
section
/-! DEFINITION. Lodges: names and handles, the directory, moves, rebuilds and mirrors, and the LODGE instructions
(18_lodges.md R256 to R271). -/

namespace Sys2Proof.Machine

/-- LODGE with a subcode (R270). -/
def lodgeCode (n : Nat) : FaultInfo := { code := .lodge, sub := n }

/-! ### Names, pages and handles (R256, R257) -/

/-- The lodge a name names in a partition's directory. -/
def State.lodge (s : State) (p : Nat) (name : DWord) : Option Lodge :=
  s.lodges.find? fun l => l.part == p && l.name == name && l.named
def State.lodgeById (s : State) (id : Nat) : Option Lodge := s.lodges.find? fun l => l.id == id
def State.modLodge (s : State) (id : Nat) (f : Lodge → Lodge) : State :=
  { s with lodges := s.lodges.map fun (l : Lodge) => if l.id = id then f l else l }

/-- A lodge's handle (R257). -/
def Lodge.handle (l : Lodge) : Word := BitVec.ofNat 32 (l.core * 2 ^ 24 + l.slot * 2 ^ 18 + l.gen % 2 ^ 16)
/-- The scratchpad address of its first byte (R268). -/
def Lodge.addr (l : Lodge) : Word := BitVec.ofNat 32 (l.core % 8 * 2 ^ 19 + l.off)
/-- The key of its first byte, and its bytes. -/
def Lodge.key (l : Lodge) : Nat := kScratch l.core l.off
def Lodge.bytes (l : Lodge) : Nat := l.pages * pageBytes
/-- Its pages are on its core. -/
def Lodge.placed (l : Lodge) : Bool := l.st == .live || l.st == .moving

/-- The lodge of a partition that a handle names; none where the handle is stale (R257). -/
def State.lodgeOf (s : State) (p : Nat) (h : Word) : Option Lodge :=
  s.lodges.find? fun l => l.part == p && l.handle == h

/-- A quadrant that a partition holds; home asks for one of its home set (R265). -/
def State.holdsQuad (s : State) (p q : Nat) (home : Bool) : Bool :=
  (s.quad q).part == some p && !(s.quad q).lostCore && (!home || (s.quad q).home == some p)

/-- A range of a core's offsets that a workgroup or a lodge holds (R188, R256). -/
def State.offsetsHeld (s : State) (core lo n : Nat) : Bool :=
  (s.wgs.any fun x => coreOfQuad x.2.quad == core && !x.2.saved && decide (0 < x.2.footprint) &&
    rangesMeet x.2.off x.2.footprint lo n) ||
  (s.lodges.any fun l => (l.placed && l.core == core && rangesMeet l.off l.bytes lo n) ||
    (match l.running with
     | some (c, o, _) => c == core && rangesMeet o l.bytes lo n
     | none => false))

/-- A range of a core's offsets lies in quadrants that a partition holds. -/
def State.offsetsOwned (s : State) (p core lo n : Nat) (home : Bool) : Bool :=
  decide (lo + n ≤ 2 ^ 19) && (List.range 4).all fun q =>
    !(rangesMeet (q * 2 ^ 17) (2 ^ 17) lo n) || s.holdsQuad p (core * 4 + q) home

/-- The lowest free run of pages of a core for a partition (R256, R269). -/
def State.lodgeRun (s : State) (p core pages : Nat) (home : Bool) : Option Nat :=
  ((List.range 128).map (· * pageBytes)).find? fun o =>
    s.offsetsOwned p core o (pages * pageBytes) home && !(s.offsetsHeld core o (pages * pageBytes))

/-- The lowest free lodge slot of a core (R256). -/
def State.lodgeSlot (s : State) (core : Nat) : Option Nat :=
  (List.range 64).find? fun i => !(s.lodges.any fun l => (l.core == core && l.slot == i) ||
    (match l.running with
     | some (c, _, j) => c == core && j == i
     | none => false))

/-- The lowest free mirror slot of a partition that is wholly mapped (R267). -/
def State.freeMirror (s : State) (p : Nat) : Option Nat :=
  (List.range 4096).find? fun i =>
    !(s.lodges.any fun l => l.part == p && l.mirror == some i) && (s.mirrorParts p i).isSome

/-- The next GEN of a slot: one more than its last, or than the lodge's own where that is larger (R257). -/
def State.nextGen (s : State) (core slot own : Nat) : Nat :=
  (max ((alook (core * 64 + slot) s.slotGens).getD 0) own + 1) % 2 ^ 16
def State.setGen (s : State) (core slot g : Nat) : State := { s with slotGens := aput (core * 64 + slot) g s.slotGens }

/-- The bytes that two ranges share. -/
def overlap (a n b m : Nat) : Nat := min (a + n) (b + m) - max a b

/-- The free bytes of a core in the quadrants of a partition (R261): those that a move under way has taken are not free. -/
def State.freeBytes (s : State) (p core : Nat) (home : Bool) : Nat :=
  ((List.range 4).map fun q =>
    if s.holdsQuad p (core * 4 + q) home then
      let lo := q * 2 ^ 17
      2 ^ 17 - ((s.wgs.filter fun x => coreOfQuad x.2.quad == core && !x.2.saved).map fun x =>
          overlap x.2.off x.2.footprint lo (2 ^ 17)).sum -
        ((s.lodges.filter fun l => l.placed && l.core == core).map fun l => overlap l.off l.bytes lo (2 ^ 17)).sum -
        (s.lodges.map fun l => match l.running with
          | some (c, o, _) => if c = core then overlap o l.bytes lo (2 ^ 17) else 0
          | none => 0).sum
    else 0).sum

/-- The core with the most free bytes, the lowest-numbered among equals (R261). -/
def State.roomiest (s : State) (p : Nat) (home : Bool) (l : List Nat) : Option Nat :=
  l.foldl (fun acc c => match acc with
    | none => some c
    | some b => if s.freeBytes p b home < s.freeBytes p c home then some c else acc) none

/-- A core has pages and a slot for a lodge. -/
def State.lodgeFits (s : State) (l : Lodge) (home : Bool) (core : Nat) : Bool :=
  (s.lodgeRun l.part core l.pages home).isSome && (s.lodgeSlot core).isSome

/-- The core that takes a lodge that leaves its quadrant or has lost its pages: the roomiest of its cluster, its own among them, else
the lowest-numbered of the module with room (R265, R266). -/
def State.refuge (s : State) (l : Lodge) (home : Bool) : Option Nat :=
  let ok := fun c => !(s.lostCores.contains c) && s.lodgeFits l home c
  let near := ((List.range 8).map fun i => clusOfCore l.core * 8 + i).filter ok
  match s.roomiest l.part home near with
  | some c => some c
  | none => (List.range 192).find? ok

/-! ### Pages (R259, R260, R262) -/

/-- A range of scratchpad zeroed with its full/empty bits empty (R260); what is held at its rendezvous words goes. -/
def State.wipe (s : State) (k n : Nat) : State :=
  let gone := fun (x : Nat) => decide (k ≤ x) && decide (x < k + n)
  { s with mem := s.mem.zero k n, full := s.full.filter fun x => !(gone x), poisoned := s.poisoned.filter fun x => !(gone x)
           rvHolds := s.rvHolds.filter fun h => !(gone h.key),
           rvOpen := s.rvOpen.filter fun x => !(gone x), undo := s.keepUndo gone }

/-- The rendezvous words of a range that moves: the phases under way go with them, and what is held there goes. -/
def State.moveRv (s : State) (src dst n : Nat) : State :=
  let inSrc := fun (x : Nat) => decide (src ≤ x) && decide (x < src + n)
  { s with rvHolds := s.rvHolds.filter fun h => !(inSrc h.key), undo := s.keepUndo inSrc,
           rvOpen := (s.rvOpen.filter inSrc).foldl (fun l x => insNat (dst + (x - src)) l) (s.rvOpen.filter fun x => !(inSrc x)) }

/-- A range of bytes moved with its full/empty bits and the marks of its words (R260, 21_faults.md R331). -/
def State.moveRange (s : State) (src dst n : Nat) : State :=
  let m := Memory.copyRange s.mem src dst n
  let inSrc := fun (x : Nat) => decide (src ≤ x) && decide (x < src + n)
  let f := (s.full.filter fun x => !(decide (dst ≤ x) && decide (x < dst + n)))
  let f := (s.full.filter inSrc).foldl (fun f x => insNat (dst + (x - src)) f) (f.filter fun x => !inSrc x)
  let p := (s.poisoned.filter inSrc).foldl (fun p x => insNat (dst + (x - src)) p)
    (s.poisoned.filter fun x => !inSrc x && !(decide (dst ≤ x) && decide (x < dst + n)))
  { s with mem := m.zero src n, full := f, poisoned := p }

/-- A key lies in a range. -/
def Loc.inRange (l : Loc) (k n : Nat) : Bool :=
  match l with
  | .key x => decide (k ≤ x) && decide (x < k + n)
  | .remote _ _ => false

/-- The place a buffered effect writes. -/
def BufOp.inRange (o : BufOp) (k n : Nat) : Bool :=
  match o with
  | .store l _ _ _ => l.inRange k n
  | _ => false

/-- A streamer command has bytes of a range of scratchpad to read or to write (R262, 11_streamers.md R180). -/
def State.copyTouches (s : State) (c : Copy) (k n : Nat) : Bool :=
  let one := fun (x : Side) (len : Nat) => match x with
    | .far a => genericMeets c.core a len k n
    | .scr w => scratchMeets c.core w len k n
    | _ => false
  (c.writes ++ c.sentWrites).any (fun w => w.bytes.any fun b => b.loc.inRange k n) ||
    [c.rvKey, c.compKey].any (fun x => x.any fun y => (Loc.key y).inRange k n) ||
    (c.blk.cp && !c.blk.csp && genericMeets c.core c.blk.caddr 4 k n) ||
    ((!c.started || c.reducing) && (match s.wg c.who.wg with
      | none => false
      | some g => (s.copyElems g c).1.any (fun e => one e.src c.blk.esize || one e.dst c.blk.dsize) ||
        (c.blk.rscale && one ((c.blk.vectorAt c.kind (s.copyElems g c).1)) (c.blk.total c.kind)) ||
        ((c.kind == 9 || c.kind == 10) && one (c.blk.indexAt 0) (4 * countOf c.blk.count1))))

/-- Accesses to the pages of a lodge by threads of its holders, past ones too, that are outstanding or buffered, or that a
strike could still take back, and those of their commands (R142, R262, R263, 21_faults.md R328). -/
def State.lodgeBusy (s : State) (l : Lodge) : Bool :=
  let k := l.key
  let n := l.bytes
  (s.loads.any fun x => x.loc.inRange k n) || (s.stores.any fun x => x.op.inRange k n) ||
    (s.waiters.any fun x => x.loc.inRange k n) || (s.rvHolds.any fun x => x.who.isSome && (Loc.key x.key).inRange k n) ||
    (s.undo.any fun u => (u.item.at'.any fun x => (Loc.key x).inRange k n) && (match u.run with
      | some i => s.held.any fun h => h.id == i
      | none => false)) ||
    (s.held.any fun x => match x.cmd.bind (·.loc) with
      | some y => y.inRange k n
      | none => false) ||
    s.copies.any (fun c => s.copyTouches c k n) || s.tgens.any (fun t => t.touches k n) ||
    s.tileOps.any (fun o => ((s.wg o.wg).map fun g => s.tileTouches g o k n || (o.cmd.op == .mma && o.arrival.isNone &&
      (MmaBlock.parse o.cmd.block).rv && scratchMeets o.core (MmaBlock.parse o.cmd.block).rvaddr 16 k n)).getD false) ||
    (s.threads.any fun x => x.2.run.buf.any (fun o => o.op.inRange k n) ||
      (match x.2.run.commit.bind (·.loc) with
       | some y => y.inRange k n
       | none => false))

/-- The workgroups that hold a lodge open. -/
def State.holders (s : State) (id : Nat) : List Nat :=
  (s.wgs.filter fun x => x.2.opens.contains id && !x.2.ended).map (·.1)

/-- R262's conditions: no holder but the issuing workgroup, and none of their accesses to the lodge under way. -/
def State.lodgeQuiet (s : State) (l : Lodge) (issuer : Option Nat) : Bool :=
  (s.holders l.id).all (fun w => some w == issuer) && !(s.lodgeBusy l)

/-- The accesses under way to pages that their owner loses: stores are not performed and loads give no data (R265,
R378). -/
def State.refuse (s : State) (k n : Nat) : State :=
  let st := s.stores.filter fun x => x.op.inRange k n
  let ld := s.loads.filter fun x => x.loc.inRange k n
  let s := forEach (fun s x => s.failStore x .prot) s st
  forEach (fun s x => s.finishLoad x [] (some .prot)) s ld

/-- The waits on words of pages that their owner has lost end, refused. -/
def State.refuseWaits (s : State) (k n : Nat) : State :=
  s.monitorAll ((s.waiters.filter fun w => w.loc.inRange k n).map (·.key))

/-! ### Results (R268, R270) -/

/-- The registers of a LODGE instruction written: each leaves the loads class. -/
def State.lodgeReply (s : State) (who : TRef) (seq : Nat) (ws : List (Nat × Word)) : State :=
  (ws.foldl (fun (s : State) w => s.arrive who seq [(w.1, { val := regN32 w.2 })] .loads) s).replied who

/-- A fault of the directory: its registers are left unwritten and leave the loads class, and the fault is raised at the
start of the thread's next run (R270). -/
def State.lodgeFail (s : State) (who : TRef) (seq : Nat) (c : Cmd) (n : Nat) : State :=
  let s := s.modThread who fun t =>
    let t := t.defer (lodgeCode n) (some seq)
    { t with busy := c.dests.foldl (fun (b : List Nat) x => b.erase x) t.busy }
  (c.dests.foldl (fun (s : State) _ => s.uncount who .loads) s).replied who

/-- A lodge opened for a workgroup (R259). -/
def State.openFor (s : State) (w id : Nat) : State :=
  s.modWg w fun g => { g with opens := if g.opens.contains id then g.opens else g.opens ++ [id] }
/-- A workgroup's open ended. -/
def State.closeFor (s : State) (w id : Nat) : State := s.modWg w fun g => { g with opens := g.opens.filter (· != id) }
/-- A ninth open (R259). -/
def Wg.fullOpens (g : Wg) (id : Nat) : Bool := !(g.opens.contains id) && decide (8 ≤ g.opens.length)

/-- A LODGE instruction that waits in the directory. -/
def State.lodgeHold (s : State) (id : Nat) (who : TRef) (seq : Nat) (c : Cmd) (name : DWord) : State :=
  { s with lodgeWaits := s.lodgeWaits ++ [{ lodge := id, who := who, seq := seq, cmd := c, name := name }] }

/-- A lodge and all that is left of it gone from the directory; its pages are zeroed (R260, R269). -/
def State.freeLodge (s : State) (l : Lodge) : State :=
  let s := if l.placed then s.wipe l.key l.bytes else s
  { s with lodges := s.lodges.filter fun x => x.id != l.id
           wgs := s.wgs.map fun x => (x.1, { x.2 with opens := x.2.opens.filter (· != l.id) }) }

/-! ### The forms (R269) -/

/-- LCREATE (R269). -/
def State.lcreate (s : State) (who : TRef) (seq : Nat) (c : Cmd) (mirror : Bool) : State :=
  match s.wg who.wg with
  | none => s
  | some g =>
    let name : DWord := c.words.getD 1 0 ++ c.words.getD 0 0
    let pages := (c.words.getD 2 0).toNat % 128
    let core := s.coreOf who
    if (s.lodge g.part name).isSome then s.lodgeFail who seq c 1
    else if 8 ≤ g.opens.length then s.lodgeFail who seq c 8
    else
      let mir := if mirror then (s.freeMirror g.part).map some else some none
      match s.lodgeRun g.part core pages false, s.lodgeSlot core, mir with
      | some off, some slot, some m =>
        if 4096 ≤ (s.lodges.filter fun l => l.part == g.part && l.named).length then s.lodgeFail who seq c 5
        else
          let gen := s.nextGen core slot 0
          let (i, s) := s.takeId
          let l : Lodge := { id := i, part := g.part, name := name, pages := pages, st := .live, core := core, off := off,
                             slot := slot, gen := gen, mirror := m, named := true, pend := .none, running := none,
                             dirty := m.isSome }
          let s := (s.wipe l.key l.bytes).setGen core slot gen
          let s := { s with lodges := s.lodges ++ [l] }
          (s.openFor who.wg i).lodgeReply who seq [(c.d, l.handle), (c.d + 1, l.addr)]
      | _, _, _ => s.lodgeFail who seq c 5

/-- LOPEN of the lodge its name gave (R269). -/
def State.lopenAt (s : State) (who : TRef) (seq : Nat) (c : Cmd) (name : DWord) (l : Lodge) : State :=
  match s.wg who.wg with
  | none => s
  | some g =>
    if l.st = .lost then s.lodgeFail who seq c 3
    else if clusOfCore l.core ≠ clusOfCore (s.coreOf who) then s.lodgeFail who seq c 2
    else if l.st ≠ .live then s.lodgeHold l.id who seq c name
    else if g.fullOpens l.id then s.lodgeFail who seq c 8
    else (s.openFor who.wg l.id).lodgeReply who seq [(c.d, l.handle), (c.d + 1, l.addr)]

/-- The number of a lodge's state (R258). -/
def LodgeState.num : LodgeState → Nat
  | .live => 1 | .moving => 2 | .rebuild => 3 | .lost => 4

/-- The PEND field (R269). -/
def Lodge.pendNum (l : Lodge) : Nat :=
  match l.pend with
  | .none => 0
  | .drop _ _ _ => 2
  | _ => 1

/-- LHAND of the lodge its handle gave (R269). -/
def State.lhandAt (s : State) (who : TRef) (seq : Nat) (c : Cmd) (l : Lodge) : State :=
  match s.wg who.wg with
  | none => s
  | some g =>
    let target := (c.words.getD 1 0).toNat
    let near := clusOfCore target == clusOfCore (s.coreOf who)
    if l.st = .lost then s.lodgeFail who seq c 3
    else if s.lostCores.contains target || !((List.range 4).any fun q => s.holdsQuad g.part (target * 4 + q) false) then
      s.lodgeFail who seq c 7
    else if near && g.fullOpens l.id then s.lodgeFail who seq c 8
    else if target = l.core ∧ l.placed = true ∧ l.running = none then
      (s.openFor who.wg l.id).lodgeReply who seq [(c.d, l.handle), (c.d + 1, l.addr)]
    else if (l.st ≠ .live ∧ !(match l.pend with
        | .place _ => l.running.isNone
        | _ => false)) ∨ l.pendNum = 2 then s.lodgeHold l.id who seq c l.name
    else s.modLodge l.id fun l => { l with st := .moving, pend := .hand who seq c.d target near }

/-- LDROP of the lodge its handle gave (R269). -/
def State.ldropAt (s : State) (who : TRef) (seq : Nat) (c : Cmd) (l : Lodge) : State :=
  let s := s.modLodge l.id fun l => { l with named := false }
  if l.st = .lost ∨ l.st = .rebuild then (s.freeLodge l).lodgeReply who seq [(c.d, 0)]
  else
    let free := l.running.isNone && (match l.pend with
      | .none => true
      | .place _ => true
      | _ => false)
    if free then s.modLodge l.id fun l => { l with st := .live, pend := .drop who seq c.d }
    else s.lodgeHold l.id who seq c l.name

/-- The LOPENs parked on a lodge that has been freed end with NOTFOUND, and what else waited on it with STALE (R269). -/
def State.failOpens (s : State) (l : Lodge) : State :=
  if (s.lodgeById l.id).isSome then s
  else
    let mine := s.lodgeWaits.filter fun w => w.lodge == l.id
    let s := { s with lodgeWaits := s.lodgeWaits.filter fun w => w.lodge != l.id }
    forEach (fun s w => s.lodgeFail w.who w.seq w.cmd (if w.cmd.op = .lopen then 4 else 6)) s mine

/-- The affinity entries of a workgroup (R276). -/
def Launch.affinity (l : Launch) (wgid : Nat) : List Affinity :=
  if l.pkt.laffwg then (l.aff.drop (4 * wgid)).take 4 else l.aff

/-- The governing lodge of a workgroup and its patience (R261). -/
def State.governing (s : State) (l : Launch) (wgid : Nat) : Option (Lodge × Nat) :=
  (l.affinity wgid).findSome? fun a => if a.v then (match s.lodge l.part a.name with
    | some x => if x.placed then some (x, a.patience) else none
    | none => none) else none

/-- The workgroups that wait on a core for their governing lodge (R261, R269). -/
def State.waitersOn (s : State) (core : Nat) : List AffWait :=
  s.affWaits.filter fun a => a.core == core && ((s.launch a.launch).map fun l => (s.governing l a.wgid).any fun x =>
    x.1.name == a.name) == some true

/-- LINFO (R269). -/
def State.linfo (s : State) (p : Nat) (name : DWord) : Word × Word :=
  match s.lodge p name with
  | none => (0, 0)
  | some l =>
    let hs := min (s.holders l.id).length 1023
    let ws := min (s.waitersOn l.core).length 4
    (BitVec.ofNat 32 (l.st.num * 2 ^ 29 + (if l.mirror.isSome then 2 ^ 28 else 0) + l.pendNum * 2 ^ 26 + l.pages * 2 ^ 19 +
      hs * 2 ^ 9 + ws * 2 ^ 6), if l.st = .lost then 0 else l.handle)

/-- A LODGE instruction applied by the directory (R269). -/
def State.actLodge (s : State) (h : HeldRun) (c : Cmd) : State :=
  let p := s.partOf h.who
  let name : DWord := c.words.getD 1 0 ++ c.words.getD 0 0
  match c.op with
  | .lcreate => s.lcreate h.who h.seq c false
  | .lcreateM => s.lcreate h.who h.seq c true
  | .lopen => (match s.lodge p name with
    | none => s.lodgeFail h.who h.seq c 4
    | some l => s.lopenAt h.who h.seq c name l)
  | .lhand => (match s.lodgeOf p (c.words.getD 0 0) with
    | none => s.lodgeFail h.who h.seq c 6
    | some l => s.lhandAt h.who h.seq c l)
  | .ldrop => (match s.lodgeOf p (c.words.getD 0 0) with
    | none => s.lodgeFail h.who h.seq c 6
    | some l => (s.ldropAt h.who h.seq c l).failOpens l)
  | .linfo =>
    let (w, x) := s.linfo p name
    s.lodgeReply h.who h.seq [(c.d, w), (c.d + 1, x)]
  | _ => s

/-- The instructions that wait on a lodge applied again, in their order, when its move, rebuild or drop has ended. -/
def State.lodgeRetry (s : State) (id : Nat) : State :=
  let mine := s.lodgeWaits.filter fun w => w.lodge == id
  let s := { s with lodgeWaits := s.lodgeWaits.filter fun w => w.lodge != id }
  forEach (fun s w => match s.lodgeById id with
    | none => s.lodgeFail w.who w.seq w.cmd (if w.cmd.op = .lopen then 4 else 6)
    | some l => match w.cmd.op with
      | .lopen => if l.named then s.lopenAt w.who w.seq w.cmd w.name l else s.lodgeFail w.who w.seq w.cmd 4
      | .lhand => s.lhandAt w.who w.seq w.cmd l
      | _ => s.ldropAt w.who w.seq w.cmd l) s mine

/-- A workgroup that has ended still has writes to the pages of a lodge on their way: its end is a release of them (R267). -/
def State.lateWrites (s : State) (l : Lodge) : Bool :=
  let past := fun (r : TRef) => ((s.wg r.wg).map (·.ended)).getD true
  s.stores.any (fun x => past x.who && x.op.inRange l.key l.bytes) ||
    s.waiters.any (fun w => past w.who && w.loc.inRange l.key l.bytes) ||
    s.held.any (fun h => past h.who && (match h.cmd.bind (·.loc) with
      | some y => y.inRange l.key l.bytes
      | none => false)) || s.copies.any (fun c => past c.who && s.copyTouches c l.key l.bytes)

/-- Pending drops whose conditions hold are carried out (R262, R269), and the mirrors of workgroups that have ended are
brought up to date (R267). -/
def State.tendLodges (s : State) : State :=
  let s := forEach (fun s l => match l.pend with
    | .drop who seq d =>
      if s.lodgeQuiet l (some who.wg) then ((s.freeLodge l).lodgeReply who seq [(d, 0)]).lodgeRetry l.id else s
    | _ => s) s s.lodges
  forEach (fun s l => if l.dirty && l.placed && !(s.lateWrites l) then (s.mirrorCopy l).getD s else s) s s.lodges

/-! ### Moves and rebuilds (R262, R263, R266) -/

/-- The core a pending move goes to, and the workgroup exempt from R262. -/
def LodgePend.target : LodgePend → Option (Nat × Option Nat × Bool)
  | .place c => some (c, Option.none, false)
  | .hand who _ _ c _ => some (c, some who.wg, false)
  | .lease c => some (c, Option.none, true)
  | _ => Option.none

/-- The waiters on a lodge's core wait on its new one (R261). -/
def State.followLodge (s : State) (l : Lodge) (core : Nat) : State :=
  { s with affWaits := s.affWaits.map fun (a : AffWait) =>
      if a.name = l.name ∧ ((s.launch a.launch).map (·.part)) = some l.part then { a with core := core } else a }

/-- A move starts (R262): from here on the old pages raise PROT. -/
def State.startMove (s : State) (l : Lodge) : State :=
  match l.pend.target with
  | none => s
  | some (core, exempt, forced) =>
    if l.running.isSome ∨ !(forced || s.lodgeQuiet l exempt) then s
    else match s.lodgeRun l.part core l.pages forced, s.lodgeSlot core with
      | some off, some slot =>
        let s := if forced then s.refuse l.key l.bytes else s
        (s.modLodge l.id fun l => { l with st := .moving, running := some (core, off, slot) }).refuseWaits l.key l.bytes
      | _, _ => s

/-- A move ends (R262): the pages are copied and the old ones zeroed, GEN advances and the lodge is LIVE. An LHAND whose
workgroup has opened eight others meanwhile raises OPENLIMIT and opens nothing (R259, log entry 60). -/
def State.endMove (s : State) (l : Lodge) : State :=
  match l.running with
  | none => s
  | some (core, off, slot) =>
    let s := (s.moveRange l.key (kScratch core off) l.bytes).moveRv l.key (kScratch core off) l.bytes
    let gen := s.nextGen core slot l.gen
    let s := s.setGen core slot gen
    let n := { l with st := .live, core := core, off := off, slot := slot, gen := gen, pend := .none, running := none }
    let s := (s.modLodge l.id fun _ => n).followLodge l core
    let s := match l.pend with
      | .hand who seq d _ near =>
        if near && ((s.wg who.wg).map fun (g : Wg) => g.fullOpens l.id).getD false then
          s.lodgeFail who seq { op := .lhand, d := d, dests := [d, d + 1], cls := .loads } 8
        else if near then (s.openFor who.wg l.id).lodgeReply who seq [(d, n.handle), (d + 1, n.addr)]
        else (s.closeFor who.wg l.id).lodgeReply who seq [(d, n.handle), (d + 1, 0)]
      | _ => s
    s.lodgeRetry l.id

/-- LODGE_MOVE_COMPLETE (R262). -/
def execLodgeMoveComplete (part : Nat) (name : DWord) (s : State) : Result :=
  match s.lodges.find? fun l => l.part == part && l.name == name && l.running.isSome with
  | some l => .next (s.endMove l)
  | none => .next s

/-- LODGE_REBUILD (R266): a lodge in REBUILD is restored from its mirror where a core has room. -/
def execLodgeRebuild (part : Nat) (name : DWord) (s : State) : Result :=
  match s.lodge part name with
  | none => .next s
  | some l =>
    if l.st ≠ .rebuild then .next s
    else match s.refuge l false, l.mirror.bind (s.mirrorParts part) with
      | some core, some ks => (match s.lodgeRun part core l.pages false, s.lodgeSlot core with
        | some off, some slot =>
          let s := s.wipe (kScratch core off) l.bytes
          let m := ks.zipIdx.foldl (fun m k =>
            Memory.copyRange m k.1 (kScratch core off + k.2 * 65536) (min 65536 (l.bytes - k.2 * 65536))) s.mem
          let gen := s.nextGen core slot l.gen
          let s := ({ s with mem := m }).setGen core slot gen
          let s := s.modLodge l.id fun l => { l with st := .live, core := core, off := off, slot := slot, gen := gen,
                                                     pend := .none, running := none, dirty := false }
          .next ((s.followLodge l core).lodgeRetry l.id)
        | _, _ => .next s)
      | _, _ => .next s

/-- LODGE_MIRROR_COPY (R267): the written pages are copied to the mirror; event 9 where it is not mapped (R394). -/
def execLodgeMirrorCopy (part : Nat) (name : DWord) (s : State) : Result :=
  match s.lodge part name with
  | none => .next s
  | some l =>
    if !l.placed then .next s
    else match s.mirrorCopy l, l.mirror with
      | some s', _ => .next s'
      | none, some i => .next (s.postMissing part ((s.part part).mirbase + BitVec.ofNat 64 (i * 2 ^ 18)) 2)
      | none, none => .next s

/-- A hand-over that loses its move waits in the directory, to be applied again. -/
def State.holdHand (s : State) (l : Lodge) : State :=
  match l.pend with
  | .hand who seq d c _ => s.lodgeHold l.id who seq
      { op := .lhand, d := d, words := [l.handle, BitVec.ofNat 32 c], dests := [d, d + 1], cls := .loads } l.name
  | _ => s

/-- A lodge loses its pages (R265, R266): REBUILD with a mirror, else LOST, and event 4. A pending drop is carried out. -/
def State.loseLodge (s : State) (l : Lodge) : State :=
  let s := ((s.refuse l.key l.bytes).wipe l.key l.bytes).holdHand l
  let st' : LodgeState := if l.mirror.isSome then .rebuild else .lost
  let s := match l.pend with
    | .drop who seq d => (s.freeLodge { l with st := .lost }).lodgeReply who seq [(d, 0)]
    | _ => s.modLodge l.id fun l => { l with st := st', pend := .none, running := none }
  let s := s.refuseWaits l.key l.bytes
  let s := s.postEvent l.part 4 (eventAddr l.name ++ [if l.mirror.isSome then 1 else 0])
  if l.mirror.isSome && l.pendNum != 2 then s else s.lodgeRetry l.id

/-- A move to a core that has been lost ends without effect: LHAND finds its target no healthy core (R269), a placement
move is cancelled, and a lodge that leaves a lent quadrant goes elsewhere, or is lost
where no core has room (R265). -/
def State.retarget (s : State) (l : Lodge) : State :=
  let back := fun (s : State) => s.modLodge l.id fun l => { l with st := .live, pend := .none, running := none }
  match l.pend with
  | .hand who seq d _ _ =>
    ((back s).lodgeFail who seq { op := .lhand, d := d, dests := [d, d + 1], cls := .loads } 7).lodgeRetry l.id
  | .place _ => (back s).lodgeRetry l.id
  | .lease _ => (match s.refuge l true with
    | some c => s.modLodge l.id fun l => { l with pend := .lease c, running := none }
    | none => s.loseLodge l)
  | _ => s

/-- What the loss of a core does to its lodges (R266). -/
def State.loseLodges (s : State) (core : Nat) : State :=
  let s := forEach (fun s l => s.retarget l) s
    (s.lodges.filter fun l => l.placed && l.core != core && (l.pend.target.map (·.1)) == some core)
  forEach (fun s l => s.loseLodge l) s (s.lodges.filter fun l => l.placed && l.core == core)

/-! ### The LODGE instructions when they are issued (R268, R270) -/

/-- A LODGE instruction (R268). -/
def lodgeForm (op : CmdOp) (d : Nat) (reads writes : List Nat) (bad : Arch → Bool) (s : State) : Result :=
  commitForm { reads := reads, writes := writes, cls := .loads, counts := writes.length } (fun _ t _ _ =>
    if bad t.arch then .fault (lodgeCode 7)
    else .ok { op := op, d := d, words := reads.map fun x => (t.arch.reg x).bits, dests := writes, cls := .loads }) s

/-- A size word outside R269. -/
def badSize (b : Nat) (q : Arch) : Bool := (q.reg b).bits.toNat == 0 || decide (64 < (q.reg b).bits.toNat)
/-- A target word outside R269. -/
def badTarget (b : Nat) (q : Arch) : Bool := decide (191 < (q.reg b).bits.toNat)

/-- lcreate (R269). -/
def execLcreate (d : Nat) (a : Nat) (b : Nat) (s : State) : Result :=
  lodgeForm .lcreate d [a, a + 1, b] [d, d + 1] (badSize b) s
/-- lcreate.m (R267, R269). -/
def execLcreateM (d : Nat) (a : Nat) (b : Nat) (s : State) : Result :=
  lodgeForm .lcreateM d [a, a + 1, b] [d, d + 1] (badSize b) s
/-- lopen (R269). -/
def execLopen (d : Nat) (a : Nat) (s : State) : Result := lodgeForm .lopen d [a, a + 1] [d, d + 1] (fun _ => false) s
/-- lhand (R269). -/
def execLhand (d : Nat) (a : Nat) (b : Nat) (s : State) : Result := lodgeForm .lhand d [a, b] [d, d + 1] (badTarget b) s
/-- ldrop (R269). -/
def execLdrop (d : Nat) (a : Nat) (s : State) : Result := lodgeForm .ldrop d [a] [d] (fun _ => false) s
/-- linfo (R269). -/
def execLinfo (d : Nat) (a : Nat) (s : State) : Result := lodgeForm .linfo d [a, a + 1] [d, d + 1] (fun _ => false) s

end Sys2Proof.Machine
end

