-- ==== Sys2Proof/Machine/Launchq.lean ====
section
/-! DEFINITION. Launch queues and packets, signals and waits, effective priority, and the beginning and completion of
launches (19_scheduling.md R272 to R279, R324, R325). -/

namespace Sys2Proof.Machine

/-! ### Queue blocks (R272) -/

/-- A queue block. -/
structure QBlock where
  ring : DWord
  qld : Nat
  prio : Nat
  priv : Bool
  en : Bool
  resv : Word
  write : Word
  read : Word
  deriving DecidableEq, Repr

/-- QBASE, SIGBASE and RCBASE (21_faults.md R310). -/
def Part.qbase (p : Part) : DWord := p.pairReg 0x04 64
def Part.sigbase (p : Part) : DWord := p.pairReg 0x06 4
def Part.rcbase (p : Part) : DWord := p.pairReg 0x1A 8

/-- The address of a queue's block. -/
def State.qAddr (s : State) (p q : Nat) : DWord := (s.part p).qbase + BitVec.ofNat 64 (64 * q)

/-- A queue's block as it stands in memory. -/
def State.queueAt (s : State) (p q : Nat) : Option QBlock :=
  (s.agentRead p (s.qAddr p q) 64).map fun b =>
    let w := blkNat b 8 4
    { ring := BitVec.ofNat 64 (blkNat b 0 8), qld := min (w % 16) 12, prio := w / 16 % 4, priv := w / 64 % 2 == 1,
      en := w / 128 % 2 == 1, resv := BitVec.ofNat 32 (blkNat b 0x0C 4), write := BitVec.ofNat 32 (blkNat b 0x10 4),
      read := BitVec.ofNat 32 (blkNat b 0x14 4) }

/-- A word of a queue's block written. -/
def State.setQWord (s : State) (p q off : Nat) (v : Word) : Option State :=
  s.agentWrite p (s.qAddr p q + BitVec.ofNat 64 off) (natLe 4 v.toNat)

/-- The address of a slot (R272). -/
def QBlock.slotVa (b : QBlock) (c : Word) : DWord := b.ring + BitVec.ofNat 64 (128 * (c.toNat % 2 ^ b.qld))

/-- RESV − READ = 2^QLD: the queue is full (R272). -/
def QBlock.isFull (b : QBlock) : Bool := (b.resv - b.read).toNat == 2 ^ b.qld

/-! ### Packets (R274 to R276) -/

def Packet.parse (b : List Byte) : Packet :=
  let g := blkNat b 0x14 4
  let z := blkNat b 0x18 4
  let r := blkNat b 0x1C 4
  let c := blkNat b 0x60 8
  let f := blkNat b 0x6C 4
  { exec := BitVec.ofNat 64 (blkNat b 0 8), access := BitVec.ofNat 64 (blkNat b 8 8), nens := blkNat b 0x10 4 % 2 ^ 24,
    wgens := g % 16 + 1, nthr := (g / 2 ^ 4 % 16 + 1) * 32, allot := (g / 2 ^ 8 % 32 + 1) * 8, rm := g / 2 ^ 13 % 8,
    pfirst := g / 2 ^ 16 % 16 * 32, plen := g / 2 ^ 20 % 4 * 32, scratch := z % 2 ^ 16 * 64, qbytes := z / 2 ^ 16 * 256,
    tiles := r % 32, acc := r / 2 ^ 5 % 128 * 4096, side := r / 2 ^ 12 % 64 * 1024, canopy := r / 2 ^ 18 % 64 * 65536,
    args := BitVec.ofNat 64 (blkNat b 0x20 8), laff := BitVec.ofNat 64 (blkNat b 0x28 8),
    pbase := BitVec.ofNat 64 (blkNat b 0x30 8), pstride := blkNat b 0x38 4 * 65536, pres := blkNat b 0x3C 4 * 65536,
    waits := (List.range 4).filterMap fun w =>
      let x := blkNat b (0x40 + 8 * w) 8
      if x / 2 ^ 48 % 2 = 1 then some (x / 2 ^ 32 % 2 ^ 16, BitVec.ofNat 32 x) else none,
    cv := c / 2 ^ 50 % 2 == 1, cindex := c / 2 ^ 32 % 2 ^ 16, cop := c / 2 ^ 48 % 4, cvalue := BitVec.ofNat 32 c,
    limit := blkNat b 0x68 4, supv := f / 32 % 2 == 1, laffwg := f / 16 % 2 == 1, serial := f / 8 % 2 == 1,
    idemok := f / 4 % 2 == 1, replay := f / 2 % 2 == 1, persist := f % 2 == 1,
    tasks := BitVec.ofNat 64 (blkNat b 0x70 8), tld := blkNat b 0x78 4 % 16 }

/-- The fields of a packet that are marked 0 (R274), and bit 0 of EXEC. -/
def packetZeros (b : List Byte) : Bool :=
  blkNat b 0 1 % 2 == 0 && blkNat b 0x13 1 == 0 && blkNat b 0x14 4 / 2 ^ 22 == 0 && blkNat b 0x1C 4 / 2 ^ 24 == 0 &&
    ((List.range 4).all fun w => blkNat b (0x40 + 8 * w) 8 / 2 ^ 49 == 0) && blkNat b 0x60 8 / 2 ^ 51 == 0 &&
    blkNat b 0x6C 4 / 2 ^ 6 == 0 && blkNat b 0x78 4 / 2 ^ 4 == 0

/-- Tile staging bytes (12_matrix.md R197). -/
def Packet.staging (k : Packet) : Nat := if k.tiles = 0 then 0 else 4096
/-- The footprint of a workgroup (11_streamers.md R188). -/
def Packet.footprint (k : Packet) : Nat := k.scratch + k.qbytes + k.staging

/-- BADPACKET, as far as the packet itself says (R275). -/
def Packet.bad (k : Packet) : Bool :=
  k.nens == 0 || k.plen == 96 || k.cop == 3 || decide (12 < k.tld) || decide (2048 * 64 < k.scratch) ||
    decide (k.pstride < k.pres) || decide (65536 < k.nthr * k.allot) || decide (k.nthr < k.pfirst + k.plen)

/-- NOFIT: more than one quadrant provides (R275). -/
def Packet.noFit (k : Packet) : Bool :=
  decide (2 ^ 17 < k.footprint) || decide (16 < k.tiles) || decide (2 ^ 18 < k.acc) || decide (2 ^ 15 < k.side) ||
    decide (2 ^ 21 < k.canopy)

/-- Bytes that may lie in several pages. -/
def State.agentBytes (s : State) (p : Nat) (a : DWord) (n : Nat) : Option (List Byte) :=
  let xs := (List.range n).filterMap fun i => (s.agentRead p (a + BitVec.ofNat 64 i) 1).map leNat
  if xs.length = n then some (xs.map fun x => BitVec.ofNat 8 x) else none

/-- The entries of an affinity block of n entries; none where it cannot be read or a field marked 0 is not (R276). -/
def State.readAffinity (s : State) (p : Nat) (a : DWord) (n : Nat) : Option (List Affinity) :=
  match s.agentBytes p a (16 * n) with
  | none => none
  | some b =>
    if (List.range n).all fun i => blkNat b (16 * i + 12) 4 / 2 == 0 then
      some ((List.range n).map fun i =>
        { name := BitVec.ofNat 64 (blkNat b (16 * i) 8), patience := blkNat b (16 * i + 8) 4, v := blkNat b (16 * i + 12) 4 % 2 == 1 })
    else none

/-- Workgroups of a launch. -/
def Packet.wgs (k : Packet) : Nat := k.nens * k.wgens

/-! ### STATUS (R275) -/

/-- The word of a STATE and a CODE. -/
def statusWord (st code : Nat) : Word := BitVec.ofNat 32 (st * 2 ^ 30 + code)
def State.setStatus (s : State) (p : Nat) (slotVa : DWord) (w : Word) : Option State :=
  s.agentWrite p (slotVa + 0x7C) (natLe 4 w.toNat)

/-! ### Signals and waits (R277, R278) -/

/-- The address of a signal word. -/
def State.sigAddr (s : State) (p i : Nat) : DWord := (s.part p).sigbase + BitVec.ofNat 64 (4 * i)

/-- The operations on signal words (R274, R297). -/
def sigNew (op : Nat) (m v : Word) : Word :=
  if op = 0 then m + v else if op = 1 then v else if m.toNat < v.toNat then v else m

/-- A signal operation: one read-modify-write at the word's home slice (R278). -/
def State.signal (s : State) (p i op : Nat) (v : Word) : Option (Word × State) :=
  match s.agentNat p (s.sigAddr p i) 4 with
  | none => none
  | some m => (s.agentWrite p (s.sigAddr p i) (natLe 4 (sigNew op (BitVec.ofNat 32 m) v).toNat)).map fun s =>
    (BitVec.ofNat 32 m, s)

/-- A launch's waits are met (R277). -/
def State.waitsMet (s : State) (p : Nat) (ws : List (Nat × Word)) : Bool :=
  ws.all fun w => match s.agentNat p (s.sigAddr p w.1) 4 with
    | some m => decide (w.2.toNat ≤ m)
    | none => false

/-- The signals of the waits that are not met. -/
def State.unmetOf (s : State) (p : Nat) (ws : List (Nat × Word)) : List Nat := (ws.filter fun w => !s.waitsMet p [w]).map (·.1)

/-- Event 9 for the first signal word of some waits that cannot be read (R394). -/
def State.seekWaits (s : State) (p : Nat) (ws : List (Nat × Word)) : State :=
  match ws.find? fun w => (s.agentNat p (s.sigAddr p w.1) 4).isNone with
  | some w => s.postMissing p (s.sigAddr p w.1) 2
  | none => s

/-- The launches of a queue that are pending, as they stand. -/
def State.launchesOf (s : State) (p q : Nat) : List Launch :=
  (s.launches.map (·.2)).filter fun l => l.part == p && l.queue == q

/-- A head whose waits are met becomes active: STATUS says so and READ advances (R273). -/
def State.tryActivate (s : State) (id : Nat) : State :=
  match s.launch id with
  | none => s
  | some l =>
    let earlier := (s.launchesOf l.part l.queue).any fun x => x.id != id
    if l.active || !l.met || (l.pkt.serial && earlier) || (s.part l.part).suspended || (s.part l.part).resetWait then s
    else match s.queueAt l.part l.queue with
      | none => s.postMissing l.part (s.qAddr l.part l.queue) 2
      | some b => (match s.setStatus l.part l.slotVa (statusWord 1 0) with
        | none => s.postMissing l.part (l.slotVa + 0x7C) 2
        | some s' => (match s'.setQWord l.part l.queue 0x14 (b.read + 1) with
          | none => s.postMissing l.part (s.qAddr l.part l.queue) 2
          | some s => s.modLaunch id fun x => { x with active := true }))

/-- The waits of a head evaluated (R277). -/
def State.evalLaunch (s : State) (l : Launch) : State :=
  let s := s.seekWaits l.part l.pkt.waits
  let u := s.unmetOf l.part l.pkt.waits
  s.modLaunch l.id fun x => { x with unmet := u, met := u.isEmpty }

/-- The record slots of a launch's task area (R291). -/
def Launch.recSlots (l : Launch) : Nat := if l.pkt.tasks = 0 then 0 else 2 ^ min l.pkt.tld 12

/-- A continuation record that waits on a signal is evaluated like the waits of a head (R277, R292); event 9 where it or its signal
word cannot be read (R394). -/
def State.evalRec (s : State) (l : Launch) (i : Nat) (index : Option Nat) : State :=
  let a := recAddr l.pkt.tasks i
  match s.agentRead l.part a 128 with
  | none => s.postMissing l.part a 2
  | some b =>
    let x := TaskRec.parse b
    let w := (x.waddr.toNat % 2 ^ 16, x.wval)
    if x.state ≠ 1 ∨ x.wkind ≠ 2 ∨ (index.map fun j => decide (j ≠ w.1)) = some true then s
    else if s.waitsMet l.part [w] then s.modLaunch l.id fun y => { y with sigMet := insNat i y.sigMet }
    else s.seekWaits l.part [w]

/-- WAIT_EVALUATION (R277) of the heads and of the records that wait on a signal, or on any. -/
def State.evalWaits (s : State) (p : Nat) (i : Option Nat) : State :=
  let ls := (s.launches.map (·.2)).filter fun l => l.part == p
  let mine := ls.filter fun l => !l.active && (match i with
    | none => true
    | some j => l.pkt.waits.any fun w => w.1 == j)
  let s := forEach (fun s l => (s.evalLaunch l).tryActivate l.id) s mine
  forEach (fun s l => forEach (fun (s : State) r => s.evalRec l r i) s (List.range l.recSlots)) s ls

/-! ### Effective priority (R279) -/

/-- A packet in the relations of R279: its launch if it has become head, its queue, its priority, and what it waits on
and signals. -/
structure PrioNode where
  id : Option Nat
  queue : Nat
  prio : Nat
  unmet : Bool
  waits : List Nat
  cindex : Option Nat
  deriving DecidableEq, Repr

/-- A launch in those relations: it donates for the waits that are not met. -/
def Launch.node (l : Launch) : PrioNode :=
  { id := some l.id, queue := l.queue, prio := l.prio, unmet := !l.active && !l.met,
    waits := l.unmet, cindex := if l.pkt.cv then some l.pkt.cindex else none }

/-- The packets queued behind the head of a queue. -/
def State.behind (s : State) (p q : Nat) : List PrioNode :=
  match s.queueAt p q with
  | none => []
  | some b =>
    let first := if (s.launchesOf p q).any fun l => !l.active then 1 else 0
    ((List.range (min (b.write - b.read).toNat (2 ^ b.qld))).drop first).filterMap fun i =>
      (s.agentRead p (b.slotVa (b.read + BitVec.ofNat 32 i)) 128).map fun x =>
        let k := Packet.parse x
        { id := none, queue := q, prio := b.prio, unmet := false, waits := [],
          cindex := if k.cv then some k.cindex else none }

/-- Event 9 for the first queue block, or packet queued behind a head, of a partition that the dispatcher cannot read when it weighs
its launches (R279, R394). -/
def State.seekQueues (s : State) (p : Nat) : State :=
  if (s.part p).qbase = 0 then s
  else match (List.range 16).findSome? fun q => match s.queueAt p q with
    | none => some (s.qAddr p q)
    | some b => ((List.range (min (b.write - b.read).toNat (2 ^ b.qld))).map fun i => b.slotVa (b.read + BitVec.ofNat 32 i)).find?
        fun a => b.en && (s.agentRead p a 128).isNone with
  | some a => s.postMissing p a 2
  | none => s

/-- One step of donation: every packet takes the smallest priority that it is given. -/
def donate (l : List PrioNode) : List PrioNode :=
  l.map fun x => { x with prio := l.foldl (fun m y =>
    if (y.unmet && (match x.cindex with
          | some c => y.waits.contains c
          | none => false)) || (x.unmet && y.id.isNone && y.queue == x.queue) then min m y.prio else m) x.prio }

def donateN : Nat → List PrioNode → List PrioNode
  | 0, l => l
  | n + 1, l => donateN n (donate l)

/-- The effective priority of a launch (R279). -/
def State.effPrio (s : State) (id : Nat) : Nat :=
  match s.launch id with
  | none => 3
  | some l =>
    let ns := ((s.launches.map (·.2)).filter fun x => x.part == l.part).map Launch.node ++
      (List.range 16).flatMap fun q => s.behind l.part q
    match (donateN ns.length ns).find? fun x => x.id == some id with
    | some x => x.prio
    | none => l.prio

/-! ### Completion (R275, R278, R324) -/

/-- The oldest of some slots of a queue and its READ. -/
def oldestSlot (slots : List Nat) (read : Word) : Word :=
  slots.foldl (fun (m : Word) n =>
    let x : Word := BitVec.ofNat 32 n
    if (read - m).toNat < (read - x).toNat ∧ (read - x).toNat < 2 ^ 31 then x else m) read

/-- The slots of a queue whose launches have not completed. -/
def State.openSlots (s : State) (p q : Nat) : List Nat := (s.launchesOf p q).map (·.slot)

/-- FSLOT of a queue: its oldest slot whose launch has not completed (R324). -/
def State.fslot (s : State) (p q : Nat) (read : Word) : Word := oldestSlot (s.openSlots p q) read

/-- FSLOT_WRITE (R324): the recovery area's word written where its value has changed; event 9 where it or the queue's block cannot be
reached (R394). -/
def State.writeFslot (s : State) (p q : Nat) : State :=
  match s.queueAt p q with
  | none => s.postMissing p (s.qAddr p q) 2
  | some b =>
    let a := (s.part p).rcbase + BitVec.ofNat 64 (8 * q)
    let v := (s.fslot p q b.read).toNat
    if (s.part p).rcbase = 0 ∨ s.agentNat p a 8 = some v then s
    else match s.agentWrite p a (natLe 8 v) with
      | some s => s
      | none => s.postMissing p a 2

/-- QUEUE_REPLAY (R325): a queue's READ becomes its FSLOT; the slots up to the old READ are treated by their
STATUS, and where an earlier replay has not reached its end yet, those up to there. Where the block cannot be reached, event 9 tells of
it, and the replay takes place when the queue's head is next looked at (R394). -/
def State.replayQueue (s : State) (p q : Nat) (slots : List Nat) : State :=
  let wait := (s.modPart p fun x => { x with replayDue := aput q slots x.replayDue }).postMissing p (s.qAddr p q) 2
  match s.queueAt p q with
  | none => if (s.part p).qbase = 0 then s else wait
  | some b =>
    let f := oldestSlot slots b.read
    match s.setQWord p q 0x14 f with
    | none => wait
    | some s =>
      let far := match alook q (s.part p).replays with
        | some old => if (b.read - f).toNat < (old - f).toNat ∧ (old - f).toNat < 2 ^ 31 then old else b.read
        | none => b.read
      let s := s.modPart p fun x => { x with replayDue := adel q x.replayDue }
      if f = far then s else s.modPart p fun x => { x with replays := aput q far x.replays }

/-- A completion signal applied and all the partition's waits evaluated (R277, R278); none where the word cannot be reached. That of a
packet rejected for its COP leaves a free value: no operation has the code 3 (R274, R275). -/
def State.completionSignal (s : State) (p : Nat) (k : Packet) : Option State :=
  if k.cv ∧ k.cop = 3 then
    let (n, s) := s.takeFresh
    (s.signal p k.cindex 1 (Config.freeBits n)).map fun x => x.2.evalWaits p none
  else if k.cv then (s.signal p k.cindex k.cop k.cvalue).map fun x => x.2.evalWaits p none else some s

/-- Every dirty byte of the L1 caches written home: a release at SY scope of the module's threads. -/
def State.writeBackEvery (s : State) : State :=
  forEach (fun s c => s.writeBackAll c none) s ((s.l1.map fun c => c.1 / 2 ^ 70).dedup)

/-- The waiting and ready records of a launch (R292). -/
def State.liveRecs (s : State) (l : Launch) : List Nat :=
  (List.range l.recSlots).filter fun i => match s.recState l.part l.pkt.tasks i with
    | some 1 => true
    | some 2 => true
    | _ => false

/-- The reads for continuation records of launches that are gone end (R292). -/
def State.dropPolls (s : State) : State :=
  { s with fab := { s.fab with remotes := s.fab.remotes.filter fun x => match x.purpose with
      | .cont l _ => (s.launch l).isSome
      | _ => true } }

/-- Every workgroup of a launch has ended, and its work is done (R278). -/
def State.launchDone (s : State) (l : Launch) : Bool :=
  l.active && decide (l.pkt.wgs ≤ l.ended) && !(s.wgs.any fun x => x.2.launch == l.id) &&
    !(s.lodges.any fun x => x.dirty && x.part == l.part && x.placed)

/-- LAUNCH_COMPLETE (R278): records left over are discarded (R292), the completion signal is applied, and STATUS and FSLOT
follow it. -/
def execLaunchComplete (l : Nat) (s : State) : Result :=
  match s.launch l with
  | none => .next s
  | some x =>
    if !s.launchDone x then .next s
    else match s.areaLost x.part x.pkt.tasks x.recSlots with
    | some a => .next (s.postMissing x.part a 2)
    | none =>
      let s0 := s
      let live := s.liveRecs x
      let s := forEach (fun s i => (s.setRecState x.part x.pkt.tasks i 0).getD s) s live
      let s := s.writeBackEvery
      let (n, s) := s.takeFresh
      let code := if x.killed ∧ !live.isEmpty then (if Config.freeChoice n % 2 = 0 then 4 else 5)
        else if x.killed then 4 else if live.isEmpty then 0 else 5
      match s.completionSignal x.part x.pkt with
      | none => .next (s0.postMissing x.part (s0.sigAddr x.part x.pkt.cindex) 2)
      | some s => (match s.setStatus x.part x.slotVa (statusWord 2 code) with
        | none => .next (s0.postMissing x.part (x.slotVa + 0x7C) 2)
        | some s =>
          let s := ({ s with launches := adel l s.launches, affWaits := s.affWaits.filter fun a => a.launch != l } : State).dropPolls
          let s := forEach (fun s y => s.tryActivate y.id) s (s.launchesOf x.part x.queue)
          .next (s.writeFslot x.part x.queue))

/-- Slots of the module's own writers published once every earlier claim has been (R272); event 9 where the queue's
block cannot be reached (R394). -/
def State.publish (fuel : Nat) (s : State) (p q : Nat) : State :=
  match fuel with
  | 0 => s
  | n + 1 => match s.queueAt p q with
    | none => s.postMissing p (s.qAddr p q) 2
    | some b =>
      if (s.part p).pubs.contains (q, b.write) then
        match s.setQWord p q 0x10 (b.write + 1) with
        | none => s.postMissing p (s.qAddr p q) 2
        | some s' => (s'.modPart p fun x => { x with pubs := x.pubs.erase (q, b.write) }).publish n p q
      else s

/-! ### Heads (R273, R275, R325) -/

/-- PACKET_REJECT (R275): the completion signal is applied, STATUS says why, and READ passes the slot. -/
def State.reject (s : State) (p q : Nat) (b : QBlock) (k : Packet) (code : Nat) : State :=
  match s.completionSignal p k with
  | none => s.postMissing p (s.sigAddr p k.cindex) 2
  | some s' => (match s'.setStatus p (b.slotVa b.read) (statusWord 3 code) with
    | none => s.postMissing p (b.slotVa b.read + 0x7C) 2
    | some s' => (match s'.setQWord p q 0x14 (b.read + 1) with
      | none => s.postMissing p (s.qAddr p q) 2
      | some s => s.writeFslot p q))

/-- The head's packet captured with its arguments and its affinity block: rejected, or pending with its waits evaluated
(R273 to R277). -/
def State.capture' (s : State) (p q : Nat) (b : QBlock) (x : List Byte) : State :=
  let k := Packet.parse x
  let n := if k.laffwg then 4 * k.wgs else 4
  let args := s.agentBytes p k.args 128
  let bad := !packetZeros x || k.bad || args.isNone
  let aff := if bad || k.laff == 0 then some [] else s.readAffinity p k.laff n
  if bad || aff.isNone then s.reject p q b k 1
  else if k.supv && !b.priv then s.reject p q b k 2
  else if k.noFit then s.reject p q b k 3
  else
    let (i, s) := (s.seekWaits p k.waits).takeId
    let u := s.unmetOf p k.waits
    let l : Launch := { id := i, part := p, queue := q, slot := b.read.toNat, slotVa := b.slotVa b.read, prio := b.prio,
                        pkt := k, args := (List.range 16).map fun j => BitVec.ofNat 64 (blkNat (args.getD []) (8 * j) 8),
                        aff := aff.getD [], active := false, met := u.isEmpty, unmet := u, nextEns := 0, ended := 0,
                        killed := false, leftover := false, ready := [], arrived := s.clock }
    ({ s with launches := aput i l s.launches }).tryActivate i

/-- QUEUE_HEAD_ACTIVATE (R273): the dispatcher looks at the packet at READ. After a reset, slots whose launches had
begun are treated by their STATUS and REPLAY (R325). A replay and slots to be published that could not be written before are tried
again first (R394). -/
def execQueueHeadActivate (part : Nat) (q : Nat) (s : State) : Result :=
  if !(s.part part).defined || (s.part part).suspended || (s.part part).resetWait || decide (16 ≤ q) then .next s
  else if let some slots := alook q (s.part part).replayDue then .next (s.replayQueue part q slots)
  else
  let s := if (s.part part).pubs.any fun x => x.1 == q then s.publish ((s.part part).pubs.length + 1) part q else s
  match s.queueAt part q with
    | none => .next (s.postMissing part (s.qAddr part q) 2)
    | some b =>
      match (s.launchesOf part q).find? fun l => !l.active with
      | some l => .next (s.tryActivate l.id)
      | none =>
        if !b.en || b.read == b.write then .next s
        else match s.agentRead part (b.slotVa b.read) 128 with
          | none => .next (s.postMissing part (b.slotVa b.read) 2)
          | some x =>
            let again := match alook q (s.part part).replays with
              | some old => b.read != old
              | none => false
            let s := if again then s else s.modPart part fun y => { y with replays := adel q y.replays }
            let st := blkNat x 0x7C 4 / 2 ^ 30
            let skip := fun (s : State) => match s.setQWord part q 0x14 (b.read + 1) with
              | some s => s.writeFslot part q
              | none => s.postMissing part (s.qAddr part q) 2
            if again && decide (2 ≤ st) then .next (skip s)
            else if again && st == 1 && !(Packet.parse x).replay then
              match s.setStatus part (b.slotVa b.read) (statusWord 2 6) with
              | some s => .next (skip s)
              | none => .next (s.postMissing part (b.slotVa b.read + 0x7C) 2)
            else if again && st == 1 then
              match s.setStatus part (b.slotVa b.read) 0 with
              | some s => .next (s.capture' part q b x)
              | none => .next (s.postMissing part (b.slotVa b.read + 0x7C) 2)
            else .next (s.capture' part q b x)

/-! ### Publication (R272, R296, R355) -/

/-- A packet put into a queue by an agent of the module: a slot claimed, the packet written with STATUS 0, and WRITE
past it. Answers the slot; the words of R296 for a queue that is not enabled or is full; the address of a structure that
cannot be reached (R394). -/
def State.submit (s : State) (p q : Nat) (pkt : List Byte) : Except DWord (Word × State) :=
  match s.queueAt p q with
  | none => .error (s.qAddr p q)
  | some b =>
    if !b.en then .ok (0x80000000, s)
    else if b.isFull then .ok (0x40000000, s)
    else
      let bs := (pkt.take 0x7C) ++ natLe 4 0
      match s.agentWrite p (b.slotVa b.resv) bs with
      | none => .error (b.slotVa b.resv)
      | some s => (match s.setQWord p q 0x0C (b.resv + 1) with
        | none => .error (s.qAddr p q)
        | some s => if b.write = b.resv then (match s.setQWord p q 0x10 (b.resv + 1) with
            | none => .error (s.qAddr p q)
            | some s => .ok (b.resv &&& 0x3FFFFFFF, s))
          else .ok (b.resv &&& 0x3FFFFFFF, s.modPart p fun x => { x with pubs := x.pubs ++ [(q, b.resv)] }))

end Sys2Proof.Machine
end

