-- ==== Sys2Proof/Machine/Maze.lean ====
section
/-! DEFINITION. The maze router: stage sets, records, the lottery, effects, and the MAZE instructions (16_maze.md R238 to
R255). -/

namespace Sys2Proof.Machine

/-! ### Stage sets and handles (R238) -/

def State.maze (s : State) (clus num : Nat) : Option MazeSet := s.mazes.find? fun m => m.clus == clus && m.num == num
def State.modMaze (s : State) (clus num : Nat) (f : MazeSet → MazeSet) : State :=
  { s with mazes := s.mazes.map fun m => if m.clus = clus ∧ m.num = num then f m else m }

/-- The handle of a set. -/
def MazeSet.handle (m : MazeSet) : Word := BitVec.ofNat 32 (m.gen % 256 * 256 + m.num)

/-- The set that a handle names for a workgroup; none where the handle is not valid there (R238). -/
def State.mazeFor (s : State) (g : Wg) (h : Word) : Option MazeSet :=
  match s.maze (clusOfCore (coreOfQuad g.quad)) (h.toNat % 4) with
  | none => none
  | some m => if m.handle = h ∧ m.held = some (g.launch, g.ensid) then some m else none

/-- A fault of the MAZE forms with a subcode (R252). -/
def mazeCode (n : Nat) : FaultInfo := { code := .maze, sub := n }

/-- The number that stands for the cluster of an ensemble's sets while it is saved (R255). -/
def imgClus (l e : Nat) : Nat := 24 + (l * 2 ^ 24 + e)

/-- The sets of an ensemble leave their cluster unit with its image (R255); each number keeps its GEN. -/
def State.saveMazes (s : State) (l e : Nat) : State :=
  { s with mazes := s.mazes.flatMap fun (m : MazeSet) =>
      if m.held = some (l, e) then [{ m with held := none }, { m with clus := imgClus l e }] else [m] }

/-- The set numbers of a saved ensemble are free in a cluster. -/
def State.mazesFit (s : State) (l e clus : Nat) : Bool :=
  (s.mazes.filter fun m => m.clus == imgClus l e).all fun m => ((s.maze clus m.num).map (·.held.isNone)).getD true

/-- The sets of a restored ensemble enter the unit of its cluster; core gives each declaring core's place. -/
def State.restoreMazes (s : State) (l e clus : Nat) (core : Nat → Nat) : State :=
  let mine := s.mazes.filter fun m => m.clus == imgClus l e
  { s with mazes := (s.mazes.filter fun m => m.clus != imgClus l e && !(m.clus == clus && mine.any fun x => x.num == m.num)) ++
      mine.map fun (m : MazeSet) => { m with clus := clus, core := core m.core } }

/-- While a workgroup of the set's ensemble is pre-empted, the router makes no choice (R255). DESIGN CHOICE (log entry 104): it is
pre-empted from the saving of its image on (19_scheduling.md R285), not while its threads are being stopped. -/
def State.mazePaused (s : State) (m : MazeSet) : Bool :=
  s.wgs.any fun g => m.held == some (g.2.launch, g.2.ensid) && g.2.saved

/-! ### Records (R240) -/

/-- A word of a header. DESIGN CHOICE (log entry 70): where a program has written to the header of a LIVE record, the router
takes the bytes that it finds there. -/
def State.hdr (s : State) (k off : Nat) : Nat := leNat (s.mem.readN (k + off) 4)
def State.setHdr (s : State) (k off v : Nat) : State :=
  (s.pokes none (bytesAt (k + off) (natLe 4 v))).monitorAll [k + off]
/-- n bits of a number from a bit on. -/
def bitsAt (v lo n : Nat) : Nat := v / 2 ^ lo % 2 ^ n
/-- A number with n bits from a bit on replaced. -/
def setBitsAt (v lo n x : Nat) : Nat := v - bitsAt v lo n * 2 ^ lo + x % 2 ^ n * 2 ^ lo

def State.recDone (s : State) (k : Nat) : Nat := bitsAt (s.hdr k 0) 0 16
def State.recDrop (s : State) (k : Nat) : Bool := bitsAt (s.hdr k 0) 16 1 == 1
def State.recLive (s : State) (k : Nat) : Bool := bitsAt (s.hdr k 0) 17 1 == 1
def State.recSteps (s : State) (k : Nat) : Nat := bitsAt (s.hdr k 0) 24 8
def State.recCur (s : State) (k : Nat) : Nat := bitsAt (s.hdr k 8) 0 4
def State.recTaken (s : State) (k : Nat) : Bool := bitsAt (s.hdr k 8) 4 1 == 1
def State.recNeff (s : State) (k : Nat) : Nat := bitsAt (s.hdr k 8) 8 3
def State.recHandle (s : State) (k : Nat) : Nat := bitsAt (s.hdr k 8) 16 16

/-! ### Queues (R239, R246, R253) -/

def MazeQueue.slotKey (q : MazeQueue) (c : Nat) : Nat := q.qbase + 4 * (c % 2 ^ q.ld)
/-- Bytes of the scratchpad of a set's ensemble: a workgroup's that has been released is none of it (R239, R240,
25_system.md R378). -/
def State.mazeOwns (s : State) (m : MazeSet) (k n : Nat) : Bool :=
  s.wgs.any fun x => m.held == some (x.2.launch, x.2.ensid) && x.2.holds k n
/-- The slot at the tail is empty (R246). -/
def State.mazeRoom (s : State) (m : MazeSet) (q : MazeQueue) : Bool :=
  decide (q.recs.length < 2 ^ q.ld) && s.mazeOwns m (q.slotKey q.tail) 4 && !(s.isFull (q.slotKey q.tail))
/-- A word of a set's queues, or of the headers of some records, is claimed: what the unit does there waits (R155). -/
def State.mazeClaimed (s : State) (m : MazeSet) (rs : List MazeRec) : Bool :=
  !s.claims.isEmpty && ((m.stages.map (·.q) ++ [m.sink]).any (fun q => s.claimedIn q.qbase (4 * 2 ^ q.ld) none) ||
    rs.any fun r => s.claimedIn r.key 64 none)
/-- A report on a record that reaches the unit in this cycle has still to be applied (R253). -/
def State.reportDue (s : State) (k : Nat) : Bool :=
  s.held.any fun h => h.rel == s.clock && ((h.cmd.map fun c =>
    (c.op == .mzdonePass || c.op == .mzdoneDrop) && c.loc == some (.key k)).getD false)
/-- A pushed record can be taken; of two reports on it in one cycle the second is applied first, and finds it not Taken (R253). -/
def State.mazeReady (s : State) (m : MazeSet) (q : MazeQueue) : Bool :=
  !q.recs.isEmpty && !(q.recs.take 1).any (fun r => s.reportDue r.key) && s.mazeOwns m (q.slotKey q.head) 4 && s.isFull (q.slotKey q.head) && !(s.mazeClaimed m (q.recs.take 1))

/-- Stage n's queue, or for 16 the sink's. -/
def MazeSet.queue (m : MazeSet) (n : Nat) : Option MazeQueue := if n = 16 then some m.sink else (m.stages[n]?).map (·.q)
def MazeSet.setQueue (m : MazeSet) (n : Nat) (q : MazeQueue) : MazeSet :=
  if n = 16 then { m with sink := q }
  else { m with stages := m.stages.zipIdx.map fun x => if x.2 = n then { x.1 with q := q } else x.1 }

/-- The set is closed and every posted record has been taken from its sink (R253). DESIGN CHOICE (log entry 102): this is what
bit 1 of item 14 reports, which the manual does not define apart from MZSINK's conditions. -/
def MazeSet.drained (m : MazeSet) : Bool := m.closed && m.posted == m.sunk - m.sink.recs.length

/-- A record taken from a queue by a waiting claim (R253): the slot empties, and the register receives what it held. A
taker of a stage marks the record Taken; one of the sink clears its LIVE, which is a release of its thread (R254). -/
def State.mazeTake (s : State) (clus num n : Nat) (t : Taker) : State :=
  match s.maze clus num with
  | none => s
  | some m => match m.queue n with
    | none => s
    | some q => match q.recs with
      | [] => s
      | r :: rest =>
        let slot := q.slotKey q.head
        let w := BitVec.ofNat 32 (leNat (s.mem.readN slot 4))
        let s := (s.setFull none slot false).monitorAll [slot]
        let s := s.modMaze clus num fun m => m.setQueue n { q with head := q.head + 1, recs := rest, takers := q.takers.drop 1 }
        let s := if n = 16 then s.releaseAt (s.coreOf t.who) (scopeOfCode m.scope) else s
        let s := if !(s.mazeOwns m r.key 64) then s
          else if n = 16 then s.setHdr r.key 0 (setBitsAt (s.hdr r.key 0) 17 1 0)
          else s.setHdr r.key 8 (setBitsAt (s.hdr r.key 8) 0 5 (16 + n))
        let s := s.acquire (s.coreOf t.who) (scopeOfCode m.scope)
        (s.arrive t.who t.seq [(t.d, { val := regN32 w })] .loads).replied t.who

/-- The waiting claims of one queue that can be served. -/
def State.mazeServeQ (s : State) (clus num n : Nat) : State :=
  match (s.maze clus num).bind fun m => m.queue n with
  | none => s
  | some q => (List.range (min q.recs.length q.takers.length)).foldl (fun s _ =>
      match s.maze clus num with
      | none => s
      | some m => match m.queue n with
        | none => s
        | some q => match q.takers with
          | [] => s
          | t :: _ => if s.mazeReady m q then s.mazeTake clus num n t else s) s

/-- The claims that a drained set answers with 0 (R253). -/
def State.mazeEnd (s : State) (clus num : Nat) : State :=
  match s.maze clus num with
  | none => s
  | some m =>
    if !m.drained then s
    else
      let ts := m.stages.flatMap (fun x => x.q.takers) ++ m.sink.takers
      let s := s.modMaze clus num fun m =>
        { m with stages := m.stages.map fun x => { x with q := { x.q with takers := [] } }
                 sink := { m.sink with takers := [] } }
      forEach (fun s t => (s.arrive t.who t.seq [(t.d, { val := regN32 0 })] .loads).replied t.who) s ts

/-- The claims of a set that can be served, and those that will never be. -/
def State.mazeServe (s : State) (clus num : Nat) : State :=
  let n := ((s.maze clus num).map fun m => m.stages.length).getD 0
  let s := (List.range n ++ [16]).foldl (fun (s : State) i => s.mazeServeQ clus num i) s
  s.mazeEnd clus num

/-- A record pushed into a queue. -/
def State.mazePush (s : State) (clus num n : Nat) (r : MazeRec) : State :=
  match (s.maze clus num).bind fun m => m.queue n with
  | none => s
  | some q =>
    let slot := q.slotKey q.tail
    let s := (s.pokes none (bytesAt slot (natLe 4 r.addr.toNat))).setFull none slot true
    let s := s.monitorAll [slot]
    s.modMaze clus num fun m => m.setQueue n { q with tail := q.tail + 1, recs := q.recs ++ [r] }

/-! ### The lottery (R242 to R246) -/

/-- LfsrStep (R244). -/
def lfsrStep (r : Word) : Word := if r.getLsbD 0 then (r >>> 1) ^^^ 0x80200003 else r >>> 1
/-- n steps. -/
def lfsrSteps (r : Word) : Nat → Word
  | 0 => r
  | n + 1 => lfsrSteps (lfsrStep r) n

/-- w_s (R243). -/
def MazeStage.weight (x : MazeStage) (det : Bool) : Nat :=
  let pass := if det then x.pass0 else x.pass
  let depth := if det then 0 else x.q.recs.length
  max 1 ((66560 - pass) * 2 ^ 16 / (x.cost * (16 + depth)))

/-- The draw (R243): the candidate whose running sum first exceeds t. -/
def drawStage : List (Nat × Nat) → Nat → Nat → Nat
  | [], _, _ => 0
  | (s, w) :: l, sum, t => if t < sum + w ∨ l = [] then s else drawStage l (sum + w) t

/-- The candidates of a record (R242). -/
def State.mazeCandidates (s : State) (m : MazeSet) (k : Nat) : List Nat :=
  let done := s.recDone k
  let drop := s.recDrop k
  (List.range m.stages.length).filter fun i =>
    done / 2 ^ i % 2 == 0 && (!drop || ((m.stages[i]?).map (·.eff)).getD false)

/-- ROUTE (R242, R246): a record completes, is pushed to a drawn stage, or is held. One whose bytes are no more the
ensemble's leaves the set. -/
def State.mazeRoute (s : State) (clus num : Nat) (r : MazeRec) : State :=
  match s.maze clus num with
  | none => s
  | some m =>
    let cs := s.mazeCandidates m r.key
    if !(s.mazeOwns m r.key 64) then s
    else if cs = [] then s.modMaze clus num fun m => { m with completing := m.completing ++ [r] }
    else
      let open' := cs.filter fun i => ((m.stages[i]?).map fun x => s.mazeRoom m x.q).getD false
      if open' = [] ∨ s.mazePaused m = true then s.modMaze clus num fun m => { m with heldRecs := m.heldRecs ++ [r] }
      else
        let start := m.seed ^^^ BitVec.ofNat 32 (s.hdr r.key 4)
        let rnd := if m.det then lfsrSteps (if start = 0 then 1 else start) (s.recSteps r.key + 1) else lfsrStep m.lfsr
        let s := if m.det then s else s.modMaze clus num fun m => { m with lfsr := rnd }
        let ws := open'.map fun i => (i, ((m.stages[i]?).map fun x => x.weight m.det).getD 1)
        let total := (ws.map (·.2)).sum
        s.mazePush clus num (drawStage ws 0 (rnd.toNat * total / 2 ^ 32)) r

/-- One report on a stage (R250). -/
def MazeStage.report (x : MazeStage) (det pass : Bool) (win : Nat) : MazeStage :=
  let reports := x.reports + 1
  let passes := x.passes + (if pass then 1 else 0)
  if reports = win then
    { x with pass := if det then x.pass else min 65535 (passes * 65536 / win), reports := 0, passes := 0, windows := x.windows + 1 }
  else { x with reports := reports, passes := passes }

/-- WIN, where 0 means 256 (R239). -/
def winOf (n : Nat) : Nat := if n = 0 then 256 else n

/-! ### Completion (R247 to R249) -/

/-- The new word of an effect (R248). -/
def effectNew (op : Nat) (m v : Word) : Word :=
  match op with
  | 0 => v
  | 1 => m + v
  | 2 => if m.toInt < v.toInt then v else m
  | 3 => if v.toInt < m.toInt then v else m
  | 4 => if m.toNat < v.toNat then v else m
  | 5 => if v.toNat < m.toNat then v else m
  | 6 => m ||| v
  | _ => m &&& v

/-- The workgroup for which effects are translated and checked. DESIGN CHOICE (log entry 103): one of the ensemble on the declaring
core, else the first, in the mode of the thread that declared the set; R248 and R249 name none. -/
def State.mazeWg (s : State) (m : MazeSet) : Option Wg :=
  let ws := (s.wgs.map (·.2)).filter fun g => m.held == some (g.launch, g.ensid)
  (ws.find? fun g => coreOfQuad g.quad == m.core).orElse fun _ => ws.head?

/-- EADDR of effect i of a record. -/
def State.effectAddr (s : State) (k i : Nat) : DWord :=
  BitVec.ofInt 64 (signedOf 57 (s.hdr k (0x10 + 12 * i) + s.hdr k (0x14 + 12 * i) % 2 ^ 25 * 2 ^ 32))

/-- The word of an effect (R248): in this module's HBM or a scratchpad, where the DV scope has a site (R153). -/
def State.effectKey (s : State) (m : MazeSet) (k i : Nat) : Option Nat :=
  match s.mazeWg m with
  | none => none
  | some g => match s.enginePlace g m.sup false .atomic (s.effectAddr k i) 4 with
    | .ok (.key x) => if s.scopeOk (.key x) (some .dv) false then some x else none
    | _ => none

/-- Apply(k) (R248, R249): whether the effect was applied. DEDUCED (log entry 80): memory of the host or of another module,
where DV scope is refused (R153), fails as protection does. The old word is that of the bank or of the home slice. -/
def State.mazeApply (s : State) (m : MazeSet) (k i : Nat) : Bool × State :=
  let v := BitVec.ofNat 32 (s.hdr k (0x18 + 12 * i))
  let op := bitsAt (s.hdr k (0x14 + 12 * i)) 25 4
  match s.effectKey m k i with
  | none => (false, s)
  | some x =>
    let old := BitVec.ofNat 32 (leNat (s.mem.readN x 4))
    let new := bytesAt x (natLe 4 (effectNew op old v).toNat)
    if (List.range 4).any fun j => s.isPoisoned (x + j) then (false, s)
    else (true, if isScratch x then s.engineWrite m.core new else s.homeStore new)

/-- The effect slots of a record in the order in which they are applied (R247). -/
def State.effectOrder (s : State) (m : MazeSet) (k : Nat) : List Nat :=
  (List.range m.stages.length).flatMap fun st => (List.range (min 4 (s.recNeff k))).filter fun i =>
    bitsAt (s.hdr k 0x0C) (4 * i) 4 == st && (!s.recDrop k || bitsAt (s.hdr k (0x14 + 12 * i)) 29 1 == 1)

/-- The effects of a record applied in their order, as far as none finds its word claimed (R155, R247): those that are left. -/
def State.mazeEffects (clus num : Nat) (m : MazeSet) (r : MazeRec) : List Nat → State → List Nat × State
  | [], s => ([], s)
  | i :: l, s =>
    if ((s.effectKey m r.key i).map fun x => isScratch x && s.claimedIn x 4 none).getD false then (i :: l, s)
    else
      let (ok, s) := s.mazeApply m r.key i
      State.mazeEffects clus num m r l (if ok then s else
        (s.setHdr r.key 0x0C (setBitsAt (s.hdr r.key 0x0C) 31 1 1)).modMaze clus num fun m => { m with failed := m.failed + 1 })

/-- MAZE_RECORD_COMPLETE (R247): the oldest complete record applies its effects and goes to the sink, if that has room.
DESIGN CHOICE (log entry 71): a record of a set that has been freed with its ensemble is dropped, its effects unapplied. -/
def execMazeRecordComplete (clus set : Nat) (s : State) : Result :=
  match s.maze clus set with
  | none => .next s
  | some m => match m.completing with
    | [] => .next s
    | r :: rest =>
      if !(s.mazeOwns m r.key 64) then .next (s.modMaze clus set fun m =>
        { m with completing := rest, todo := none })
      else if !(s.mazeRoom m m.sink) || s.mazePaused m || s.mazeClaimed m [r] then .next s
      else
        let (left, s) := State.mazeEffects clus set m r (m.todo.getD (s.effectOrder m r.key)) s
        if !left.isEmpty then .next (s.modMaze clus set fun m => { m with todo := some left })
        else
          let s := s.releaseAt m.core (scopeOfCode m.scope)
          let s := s.modMaze clus set fun m => { m with completing := rest, sunk := m.sunk + 1, todo := none }
          .next ((s.mazePush clus set 16 r).mazeServe clus set)

/-- The claims that have had to wait are served. -/
def State.tendMazes (s : State) : State :=
  forEach (fun (s : State) (m : MazeSet) => s.mazeServe m.clus m.num) s (s.mazes.filter fun m =>
    m.held.isSome && decide (m.clus < 24) && (!m.sink.takers.isEmpty || m.stages.any fun x => !x.q.takers.isEmpty))

/-- The held records of a set routed again, oldest first (R246). -/
def State.mazeHeld (s : State) (clus num : Nat) : State :=
  match s.maze clus num with
  | none => s
  | some m =>
    let s := s.modMaze clus num fun m => { m with heldRecs := [] }
    forEach (fun s r => s.mazeRoute clus num r) s m.heldRecs

/-- MAZE_HELD_REROUTE (R246): the held records are routed again, oldest first. -/
def execMazeHeldReroute (clus set : Nat) (s : State) : Result :=
  match s.maze clus set with
  | none => .next s
  | some m => if s.mazePaused m || s.mazeClaimed m m.heldRecs then .next s else .next ((s.mazeHeld clus set).mazeServe clus set)

/-! ### The checks of the MAZE forms (R239, R252, R253) -/

/-- The fields of a declaration block (R239). -/
structure MazeBlock where
  nstage : Nat
  det : Bool
  scope : Nat
  win : Nat
  seed : Word
  sbase : Word
  sld : Nat
  /-- base, log2 of the depth, EFF, COST, PASS0 -/
  stages : List (Word × Nat × Bool × Nat × Nat)
  bad : Bool
  deriving DecidableEq, Repr

def MazeBlock.parse (b : List Byte) : MazeBlock :=
  let w0 := blkNat b 0 4
  let n := w0 % 32
  let one := fun (i : Nat) =>
    let o := 0x40 + 16 * i
    (BitVec.ofNat 32 (blkNat b o 4), blkNat b (o + 4) 1 % 16, blkNat b (o + 4) 1 / 16 % 2 == 1, blkNat b (o + 8) 2, blkNat b (o + 10) 2)
  let stBad := (List.range n).any fun i => decide (32 ≤ blkNat b (0x44 + 16 * i) 4) || blkNat b (0x4C + 16 * i) 4 != 0
  { nstage := n, det := w0 / 2 ^ 8 % 2 == 1, scope := w0 / 2 ^ 9 % 4, win := blkNat b 4 2, seed := BitVec.ofNat 32 (blkNat b 8 4),
    sbase := BitVec.ofNat 32 (blkNat b 0x10 4), sld := blkNat b 0x14 1 % 16, stages := (List.range (min n 16)).map one,
    bad := bitsAt w0 5 3 != 0 || decide (2 ^ 11 ≤ w0) || blkNat b 6 2 != 0 || blkNat b 0x0C 4 != 0 ||
      decide (16 ≤ blkNat b 0x14 4) || ((List.range 40).any fun i => blkNat b (0x18 + i) 1 != 0) || stBad }

/-- The queue regions of a block: base and log2 of the depth, the sink's last. -/
def MazeBlock.regions (b : MazeBlock) : List (Word × Nat) := (b.stages.map fun x => (x.1, x.2.1)) ++ [(b.sbase, b.sld)]

/-- A place in the scratchpad of the ensemble (R239, R240). -/
def State.ensembleAt (s : State) (g : Wg) (w : Word) (n : Nat) (k : Access) : Except FaultInfo Nat :=
  match s.scratchAt g w n with
  | .error c => .error (faultAt c (w.setWidth 64) k true)
  | .ok key =>
    if (s.ensemble g).any fun h => h.holds key n then .ok key else .error (faultAt .prot (w.setWidth 64) k true)

/-- The first fault in a list of checks. -/
def firstErr {α : Type} (l : List (Except FaultInfo α)) : Option FaultInfo :=
  l.findSome? fun x => match x with
    | .error f => some f
    | .ok _ => none

/-- A free set of a cluster (R239). DESIGN CHOICE (log entry 69): the lowest-numbered. -/
def State.freeSet (s : State) (clus : Nat) : Option Nat :=
  (List.range 4).find? fun n => match s.maze clus n with
    | none => true
    | some m => m.held.isNone

/-- The checks of MZDECL on its block (R239, R252, R392). -/
def State.mzdeclFault (s : State) (g : Wg) (blk : List Byte) (addr : Word) : Option FaultInfo :=
  let b := MazeBlock.parse blk
  let al := b.regions.find? fun x => x.1.toNat % 4 != 0
  let places := b.regions.map fun x => s.ensembleAt g x.1 (4 * 2 ^ min x.2 12) .store
  let whole := match s.scratchAt g addr (64 + 16 * min b.nstage 16) with
    | .ok _ => none
    | .error c => some (faultAt c (addr.setWidth 64) .blockRead true)
  let keys := (places.zip b.regions).filterMap fun x => match x.1 with
    | .ok k => some (k, 4 * 2 ^ min x.2.2 12)
    | .error _ => none
  let overlap := keys.zipIdx.any fun x => keys.zipIdx.any fun y => decide (x.2 < y.2) && decide (x.1.1 < y.1.1 + y.1.2) &&
    decide (y.1.1 < x.1.1 + x.1.2)
  let bad := b.bad || b.nstage == 0 || decide (16 < b.nstage) || b.scope == 0 || b.scope == 3 ||
    b.regions.any (fun x => decide (12 < x.2)) || b.stages.any (fun x => x.2.2.2.1 == 0) || overlap
  match al with
  | some x => some (faultAt .align (x.1.setWidth 64) .store true)
  | none => (whole.orElse fun _ => firstErr places).orElse fun _ =>
    if bad then some (plainFault .cmdblock)
    else if (s.freeSet (clusOfCore (coreOfQuad g.quad))).isNone then some (mazeCode 2) else none

/-- What a report finds wrong with a record: its HANDLE is another's, or nobody holds it (R252). -/
def State.doneFault (s : State) (m : MazeSet) (k : Nat) : Option FaultInfo :=
  if s.recHandle k ≠ m.handle.toNat % 2 ^ 16 then some (mazeCode 1)
  else if !(s.recLive k) || !(s.recTaken k) then some (mazeCode 4) else none

/-- The checks of the other MAZE forms that do not depend on what their records and queues hold (R252, R253): words are the
operands. -/
def State.mazeOwnFault (s : State) (g : Wg) (c : Cmd) : Option FaultInfo :=
  let w := fun i => c.words.getD i 0
  let h := s.mazeFor g (w 0)
  let prot := fun (n : Nat) => some (faultAt .prot ((w n).setWidth 64) .store true)
  match c.op, c.loc with
  | .mzeff, some (.key k) =>
    if !((s.ensemble g).any fun h => h.holds k 64) then prot 2
    else if 32 ≤ (w 1).toNat then some (plainFault .cmdblock) else none
  | .mzeff, _ => none
  | .mzstat, _ =>
    let sel := (w 1).toNat
    let item := sel / 16 % 16
    if 256 ≤ sel ∨ item = 6 ∨ item = 7 ∨ item = 15 ∨ (6 ≤ item ∧ sel % 16 ≠ 0) then some (plainFault .cmdblock)
    else match h with
      | none => some (mazeCode 1)
      | some m => if item ≤ 5 ∧ m.stages.length ≤ sel % 16 then some (mazeCode 3) else none
  | .mztake, _ => (match h with
    | none => some (mazeCode 1)
    | some m => if m.stages.length ≤ (w 1).toNat then some (mazeCode 3) else none)
  | _, l => (match h, l with
    | none, _ => some (mazeCode 1)
    | some m, some (.key k) => if s.mazeOwns m k 64 then none else prot 1
    | some _, _ => none)

/-- The checks of a record (R252): it is a set's, and in the state that its form asks for. -/
def State.mazeFormFault (s : State) (g : Wg) (c : Cmd) : Option FaultInfo :=
  match c.op, c.loc, s.mazeFor g (c.words.getD 0 0) with
  | .mzpost, l, some m => (match l with
    | some (.key k) => if s.recLive k then some (mazeCode 4) else if m.closed then some (mazeCode 6) else none
    | _ => if m.closed then some (mazeCode 6) else none)
  | .mzeff, some (.key k), _ => (match s.mazeFor g (BitVec.ofNat 32 (s.recHandle k)) with
    | none => some (mazeCode 1)
    | some m =>
      let op := (c.words.getD 1 0).toNat
      if !(s.recLive k) || !(s.recTaken k) || decide (4 ≤ s.recNeff k) then some (mazeCode 4)
      else if 8 ≤ op % 16 ∨ (op / 16 = 1 ∧ ((m.stages[s.recCur k]?).map (·.eff)).getD false = false) then some (mazeCode 5)
      else none)
  | .mzdonePass, some (.key k), some m => s.doneFault m k
  | .mzdoneDrop, some (.key k), some m => s.doneFault m k
  | _, _, _ => none

/-- The faults of a MAZE form (R252). -/
def State.mazeFault (s : State) (g : Wg) (c : Cmd) : Option FaultInfo :=
  (s.mazeOwnFault g c).orElse fun _ => s.mazeFormFault g c

/-- A set that stalls MZPOST and MZDONE before commit (R246). -/
def State.mazeStalls (s : State) (g : Wg) (c : Cmd) : Bool :=
  (c.op == .mzpost || c.op == .mzdonePass || c.op == .mzdoneDrop) && (match s.mazeFor g (c.words.getD 0 0) with
    | some m => decide (32 ≤ m.heldRecs.length) || (!m.completing.isEmpty && !(s.mazeRoom m m.sink))
    | none => false)

/-- A MAZE form may act: one that is a release follows everything earlier of its thread (R254), and one that routes a
record waits while the set is paused (R255) or holds 32 records (R246). None acts on a word that is claimed (R155). -/
def State.mazeMay (s : State) (h : HeldRun) (g : Wg) (c : Cmd) : Bool :=
  let routes := c.op == .mzpost || c.op == .mzdonePass || c.op == .mzdoneDrop
  let recs := match c.loc with
    | some (.key k) => [{ addr := 0, key := k }]
    | _ => []
  let clear := match s.mazeFor g (c.words.getD 0 0) with
    | some m => !(s.mazeClaimed m (if routes then recs ++ m.heldRecs else recs))
    | none => !(recs.any fun r => s.claimedIn r.key 64 none)
  clear && (!(routes || c.op == .mzsink) || s.settled h) && s.acquired c && (!routes || match s.mazeFor g (c.words.getD 0 0) with
    | some m => !(s.mazePaused m) && decide (m.heldRecs.length < 32)
    | none => true)

/-! ### What the forms do (R253) -/

/-- MZDECL takes a free set (R238, R239). -/
def State.mzdecl (s : State) (h : HeldRun) (g : Wg) (c : Cmd) : State :=
  let clus := clusOfCore h.core
  let b := MazeBlock.parse c.block
  match s.freeSet clus with
  | none => (s.modThread h.who fun t => t.defer (mazeCode 2) (some h.seq)).arrive h.who h.seq [(c.d, freeReg s.fresh)] .loads
  | some n =>
    let gen := (((s.maze clus n).map (·.gen)).getD 0 + 1) % 256
    let key := fun (w : Word) (ld : Nat) => match s.ensembleAt g w (4 * 2 ^ ld) .store with
      | .ok k => k
      | .error _ => 0
    let q := fun (w : Word) (ld : Nat) => ({ qbase := key w ld, ld := ld, head := 0, tail := 0, recs := [], takers := [] } : MazeQueue)
    let seed : Word := if b.seed = 0 then 1 else b.seed
    let st := b.stages.map fun x => ({ q := q x.1 x.2.1, eff := x.2.2.1, cost := x.2.2.2.1, pass0 := x.2.2.2.2,
                                       pass := x.2.2.2.2, reports := 0, passes := 0, windows := 0 } : MazeStage)
    let m : MazeSet := { clus := clus, num := n, gen := gen, held := some (g.launch, g.ensid), part := g.part, core := h.core,
                         sup := ((s.thread h.who).map (·.arch.sup)).getD false, det := b.det, scope := b.scope,
                         win := winOf b.win, seed := seed, lfsr := seed, stages := st, sink := q b.sbase b.sld, heldRecs := [],
                         completing := [], posted := 0, sunk := 0, dropped := 0, failed := 0, closed := false }
    let s := { s with mazes := (s.mazes.filter fun (x : MazeSet) => !(x.clus == clus && x.num == n)) ++ [m] }
    let s := (m.stages.map (·.q) ++ [m.sink]).foldl (fun s q =>
      ((List.range (2 ^ q.ld)).foldl (fun s i => s.setFull none (q.qbase + 4 * i) false) s).monitorAll
        ((List.range (2 ^ q.ld)).map fun i => q.qbase + 4 * i)) s
    s.arrive h.who h.seq [(c.d, { val := regN32 m.handle })] .loads

/-- MZSTAT's item (R253). -/
def MazeSet.stat (m : MazeSet) (sel : Nat) : Nat :=
  let st := sel % 16
  let f := fun (g : MazeStage → Nat) => ((m.stages[st]?).map g).getD 0
  match sel / 16 % 16 with
  | 0 => f (·.pass)
  | 1 => f (·.reports)
  | 2 => f (·.passes)
  | 3 => f fun x => x.q.recs.length
  | 4 => f (·.cost)
  | 5 => f (·.windows)
  | 8 => m.posted
  | 9 => m.sunk
  | 10 => m.dropped
  | 11 => m.failed
  | 12 => m.heldRecs.length
  | 13 => m.lfsr.toNat
  | _ => (if m.closed then 1 else 0) + (if m.drained then 2 else 0)

/-- A report on a record (R253). -/
def State.mzdone (s : State) (clus num : Nat) (r : MazeRec) (drop : Bool) : State :=
  let k := r.key
  let cur := s.recCur k
  let w0 := s.hdr k 0
  let newDrop := drop && !(s.recDrop k)
  let w0 := setBitsAt (setBitsAt w0 cur 1 1) 24 8 (bitsAt w0 24 8 + 1)
  let s := s.setHdr k 0 (if drop then setBitsAt w0 16 1 1 else w0)
  let s := s.setHdr k 8 (setBitsAt (s.hdr k 8) 4 1 0)
  let s := s.modMaze clus num fun m =>
    { m with dropped := m.dropped + (if newDrop then 1 else 0)
             stages := m.stages.zipIdx.map fun x => if x.2 = cur then x.1.report m.det (!drop) m.win else x.1 }
  (s.mazeHeld clus num).mazeRoute clus num r

/-- A MAZE form acts at its release (R253, R254, R328). One that finds what it names changed since its commit takes its
fault at the thread's next run. -/
def State.actMaze (s : State) (h : HeldRun) (c : Cmd) : State :=
  match s.wg h.who.wg with
  | none => s
  | some g =>
    let w := fun i => c.words.getD i 0
    let key := match c.loc with
      | some (.key k) => k
      | _ => 0
    let clus := clusOfCore h.core
    if c.op = .mzdecl then s.mzdecl h g c
    else match s.mazeFault g c with
      | some f =>
        let s := s.modThread h.who fun t => t.defer f (some h.seq)
        let (n, s) := s.takeFresh
        s.arrive h.who h.seq (c.dests.map fun d => (d, freeReg n)) c.cls
      | none => match s.mazeFor g (if c.op = .mzeff then BitVec.ofNat 32 (s.recHandle key) else w 0) with
        | none => s
        | some m =>
          let sc := scopeOfCode m.scope
          let rec' : MazeRec := { addr := w 1, key := key }
          let done := fun (s : State) => (s.mazeServe clus m.num).uncount h.who .stores
          match c.op with
          | .mzpost =>
            let s := s.releaseAt h.core sc
            if w 1 = 0 then done (s.modMaze clus m.num fun m => { m with closed := true })
            else
              let s := s.setHdr key 0 (2 ^ 17)
              let s := s.setHdr key 4 (w 2).toNat
              let s := s.setHdr key 8 (m.handle.toNat % 2 ^ 16 * 2 ^ 16)
              let s := (List.range 13).foldl (fun s i => s.setHdr key (12 + 4 * i) 0) s
              let s := s.modMaze clus m.num fun m => { m with posted := m.posted + 1 }
              done ((s.mazeHeld clus m.num).mazeRoute clus m.num rec')
          | .mzdonePass => done ((s.releaseAt h.core sc).mzdone clus m.num rec' false)
          | .mzdoneDrop => done ((s.releaseAt h.core sc).mzdone clus m.num rec' true)
          | .mzeff =>
            let i := s.recNeff key
            let a := c.addr.toNat
            let op := (w 1).toNat
            let s := s.setHdr key (0x10 + 12 * i) (a % 2 ^ 32)
            let s := s.setHdr key (0x14 + 12 * i) (a / 2 ^ 32 % 2 ^ 25 + op % 16 * 2 ^ 25 + op / 16 % 2 * 2 ^ 29)
            let s := s.setHdr key (0x18 + 12 * i) (w 0).toNat
            let s := s.setHdr key 0x0C (setBitsAt (s.hdr key 0x0C) (4 * i) 4 (s.recCur key))
            let s := s.setHdr key 8 (setBitsAt (s.hdr key 8) 8 3 (i + 1))
            s.uncount h.who .stores
          | .mztake =>
            let t : Taker := { who := h.who, seq := h.seq, d := c.d, id := h.id }
            let n := (w 1).toNat
            let s := s.modMaze clus m.num fun m => match m.queue n with
              | some q => m.setQueue n { q with takers := q.takers ++ [t] }
              | none => m
            s.mazeServe clus m.num
          | .mzsink =>
            let t : Taker := { who := h.who, seq := h.seq, d := c.d, id := h.id }
            let s := s.modMaze clus m.num fun m => m.setQueue 16 { m.sink with takers := m.sink.takers ++ [t] }
            s.mazeServe clus m.num
          | _ => s.arrive h.who h.seq [(c.d, { val := regNat (m.stat (w 1).toNat) })] .loads

/-! ### The MAZE instructions when issued (R252) -/

/-- A record address (R240): ALIGN, then XLATE or PROT; 0 names none. -/
def State.recordAt (s : State) (g : Wg) (w : Word) : Except FaultInfo Nat :=
  if w.toNat % 64 ≠ 0 then .error (faultAt .align (w.setWidth 64) .store true) else s.ensembleAt g w 64 .store

/-- A MAZE form whose operands have passed their checks; those that no record can change are made here already (03_encodings.md
R52). -/
def State.mazeCap (s : State) (g : Wg) (c : Cmd) : Cap :=
  match s.mazeOwnFault g c with
  | some f => .fault f
  | none => .ok c

/-- A MAZE form on a record. -/
def mazeRecForm (u : Use) (rec' : Nat) (zero : Bool) (pre : Arch → Option FaultInfo) (f : Arch → Cmd) (s : State) : Result :=
  commitForm { u with cls := .stores } (fun _ t g s =>
    let w := (t.arch.reg rec').bits
    if zero ∧ w = 0 then s.mazeCap g { f t.arch with cls := .stores }
    else if w.toNat % 64 ≠ 0 then .fault (faultAt .align (w.setWidth 64) .store true)
    else match pre t.arch with
      | some e => .fault e
      | none => match s.recordAt g w with
        | .error e => .fault e
        | .ok k => s.mazeCap g { f t.arch with cls := .stores, loc := some (.key k) }) s

/-- mzdecl (R239). -/
def execMzdecl (d : Nat) (a : Nat) (s : State) : Result :=
  commitForm { reads := [a], writes := [d], cls := .loads } (fun r t _ s =>
    match s.blockAt r (t.arch.reg a).bits 64 64 .blockRead with
    | .error f => .fault f
    | .ok k => .ok { op := .mzdecl, d := d, loc := some (.key k), addr := (t.arch.reg a).bits.setWidth 64, dests := [d],
                     cls := .loads }) s
/-- mzpost (R253). -/
def execMzpost (a : Nat) (b : Nat) (s : State) : Result :=
  mazeRecForm { reads := [a, b, b + 1] } b true (fun _ => none)
    (fun q => { op := .mzpost, words := [(q.reg a).bits, (q.reg b).bits, (q.reg (b + 1)).bits] }) s
/-- mztake (R253). -/
def execMztake (d : Nat) (a : Nat) (b : Nat) (s : State) : Result :=
  commitForm { reads := [a, b], writes := [d], cls := .loads } (fun r t g s =>
    if !(s.monitorRoom (s.coreOf r) 1) then .wait
    else s.mazeCap g { op := .mztake, d := d, words := [(t.arch.reg a).bits, (t.arch.reg b).bits], dests := [d], cls := .loads }) s
/-- mzdone.pass (R253). -/
def execMzdonePass (a : Nat) (b : Nat) (s : State) : Result :=
  mazeRecForm { reads := [a, b] } b false (fun _ => none)
    (fun q => { op := .mzdonePass, words := [(q.reg a).bits, (q.reg b).bits] }) s
/-- mzdone.drop (R253). -/
def execMzdoneDrop (a : Nat) (b : Nat) (s : State) : Result :=
  mazeRecForm { reads := [a, b] } b false (fun _ => none)
    (fun q => { op := .mzdoneDrop, words := [(q.reg a).bits, (q.reg b).bits] }) s
/-- mzeff (R253): ALIGN and XLATE on the effect's address, which must be canonical. -/
def execMzeff (d : Nat) (a : Nat) (b : Nat) (s : State) : Result :=
  mazeRecForm { reads := [d, d + 1, a, b, b + 1] } a false
    (fun q =>
      let x := q.pair d
      if x.toNat % 4 ≠ 0 then some (faultAt .align x .atomic (inScratchRange x))
      else if !isCanonical x then some (faultAt .xlate x .atomic false) else none)
    (fun q => { op := .mzeff, addr := q.pair d, words := [(q.reg b).bits, (q.reg (b + 1)).bits, (q.reg a).bits] }) s
/-- mzsink (R253). -/
def execMzsink (d : Nat) (a : Nat) (s : State) : Result :=
  commitForm { reads := [a], writes := [d], cls := .loads } (fun r t g s =>
    if !(s.monitorRoom (s.coreOf r) 1) then .wait
    else s.mazeCap g { op := .mzsink, d := d, words := [(t.arch.reg a).bits], dests := [d], cls := .loads }) s
/-- mzstat (R253). -/
def execMzstat (d : Nat) (a : Nat) (b : Nat) (s : State) : Result :=
  commitForm { reads := [a, b], writes := [d], cls := .loads } (fun _ t g s =>
    s.mazeCap g { op := .mzstat, d := d, words := [(t.arch.reg a).bits, (t.arch.reg b).bits], dests := [d], cls := .loads }) s

end Sys2Proof.Machine
end

