-- ==== Sys2Proof/Machine/Place.lean ====
section
/-! DEFINITION. Placement of workgroups: room on a quadrant, lodge residency, lending, and the start of an ensemble
(07_execution.md R108, 18_lodges.md R261, R262, 19_scheduling.md R280, R281, R284). -/

namespace Sys2Proof.Machine

/-! ### Room on a quadrant (R108, R188, R197) -/

/-- The workgroups that hold resources of a quadrant. -/
def State.wgsOn (s : State) (q : Nat) : List Wg := (s.wgs.map (·.2)).filter fun g => g.quad == q && !g.saved

/-- The lowest multiple of a step in a range at which n free units begin, among ranges that are held. -/
def gap (held : List (Nat × Nat)) (size step n : Nat) : Option Nat :=
  ((List.range (size / step)).map (· * step)).find? fun o =>
    decide (o + n ≤ size) && !(held.any fun h => decide (0 < h.2) && rangesMeet h.1 h.2 o n)

/-- The free offsets for a footprint of a quadrant (11_streamers.md R188). -/
def State.offsetsFor (s : State) (q n : Nat) : List Nat :=
  let lo := q % 4 * 2 ^ 17
  ((List.range 512).map fun i => lo + 256 * i).filter fun o =>
    decide (o + n ≤ lo + 2 ^ 17) && (n == 0 || !(s.offsetsHeld (q / 4) o n))

/-- What a workgroup is given on a quadrant. Which free offset it gets is not fixed (R188). -/
structure Alloc where
  off : Nat
  acc : Nat
  side : Nat
  can : Nat
  deriving DecidableEq, Repr

/-- Room for a workgroup of a launch on a quadrant: thread slots, registers, tile table, scratchpad and the memories
(R108, R188, R197). sel selects among the free offsets. -/
def State.roomOn (s : State) (q : Nat) (k : Packet) (sel : Nat) : Option Alloc :=
  let ws := s.wgsOn q
  let offs := s.offsetsFor q k.footprint
  if (s.freeSlots q).length < k.nthr ∨ 65536 < (ws.map fun g => g.nthr * g.allot).sum + k.nthr * k.allot ∨
      64 < (ws.map (·.tiles.length)).sum + k.tiles ∨ (s.quad q).lostCore = true then none
  else match offs[sel % max offs.length 1]?, gap (ws.map fun g => (g.accBase, g.accLen)) (2 ^ 18) 4096 k.acc,
      gap (ws.map fun g => (g.sideBase, g.sideLen)) (2 ^ 15) 1024 k.side,
      gap (ws.map fun g => (g.canBase, g.canLen / 64)) (2 ^ 15) 1024 (k.canopy / 64) with
    | some off, some acc, some side, some can => some { off := off, acc := acc, side := side, can := can }
    | _, _, _, _ => none

/-- The canopy bytes of a partition have room for more (R283). -/
def State.canopyRoom (s : State) (p n : Nat) : Bool :=
  decide ((((s.wgs.map (·.2)).filter fun g => g.part == p && !g.saved).map (·.canLen)).sum + n ≤ (s.part p).lim.canopy)

/-- The workgroup that was discarded and is to be placed again as a launch's workgroup of a number (R288). -/
def State.redoWg (s : State) (l : Launch) (wgid : Nat) : Option Wg :=
  (s.wgs.map (·.2)).find? fun g => g.launch == l.id && g.wgid == wgid && g.saved && g.discarded

/-- The control word of an operand queue or of the branch queue when a workgroup starts (11_streamers.md R187). -/
def startQ (access : DWord) : QCtl := if access = 0 then {} else { v := true, ld := 4 }

/-- A workgroup of a launch, its quadrant's resources reserved: a new one, or one that was discarded (R288). -/
def State.reserveWg (s : State) (l : Launch) (wgid q : Nat) : Option State :=
  let k := l.pkt
  let (n, s) := s.takeFresh
  match s.roomOn q k (Config.freeChoice n) with
  | none => none
  | some a =>
    if !s.canopyRoom l.part k.canopy then none
    else
      let slots := (s.freeSlots q).take k.nthr
      match s.redoWg l wgid with
      | some g =>
        let (i, s) := s.takeId
        some (s.modWg g.id fun x => { x with
          quad := q, off := a.off, accBase := a.acc, sideBase := a.side, canBase := a.can, slots := slots, order := i
          placedAt := s.us, started := false, here := false, saved := false, preempting := false })
      | none =>
      let (i, s) := s.takeId
      let pb := if k.pbase = 0 then 0 else k.pbase + BitVec.ofNat 64 (k.pstride * wgid)
      let g : Wg := { id := i, part := l.part, launch := l.id, wgid := wgid, ensid := wgid / k.wgens, wgens := wgid % k.wgens,
                      nwgens := k.wgens, quad := q, nthr := k.nthr, allot := k.allot, rm := (rmField k.rm).getD .rne,
                      supv := k.supv, persist := k.persist, idemok := k.idemok, exec := k.exec, access := k.access,
                      pfirst := k.pfirst, plen := k.plen, off := a.off, scratch := k.scratch, qbytes := k.qbytes,
                      staging := k.staging, accBase := a.acc, accLen := k.acc, sideBase := a.side, sideLen := k.side,
                      canBase := a.can, canLen := k.canopy, tiles := List.replicate k.tiles {}, oldTiles := [],
                      qcs := List.replicate 4 {} ++ List.replicate 4 (startQ k.access), args := l.args, pbase := pb,
                      pres := if k.pbase = 0 then 0 else k.pres, hwm := pb, opens := [], idem := none, limit := k.limit,
                      timer := 0, fired := false, grace := none, placedAt := s.us, order := i, started := false,
                      here := false, saved := false, preempting := false, discarded := false, ended := false, oq := [],
                      bq := [], slots := slots }
      some { s with wgs := aput i g s.wgs }

/-! ### The quadrants a partition may use (R280, R284) -/

/-- The urgent reserve of a partition: the first of its home quadrants. -/
def Part.urgentQuads (p : Part) : List Nat := p.lim.home.take p.lim.urgent
/-- Quadrants that a partition holds. -/
def State.held' (s : State) (p : Nat) : List Nat := (s.quads.filter fun x => x.2.part == some p).map (·.1)

/-- A quadrant is idle: no workgroup, no lodge page and no reservation, that of a running move's target among them (R265,
R284). -/
def State.idleQuad (s : State) (q : Nat) : Bool :=
  (s.wgsOn q).isEmpty && !(s.lodges.any fun l => l.placed && ((l.core == q / 4 &&
    rangesMeet l.off l.bytes (q % 4 * 2 ^ 17) (2 ^ 17)) || (match l.running with
      | some (c, o, _) => c == q / 4 && rangesMeet o l.bytes (q % 4 * 2 ^ 17) (2 ^ 17)
      | none => false))) && !(s.quad q).lostCore

/-- A quadrant of a partition that takes a workgroup of an effective priority (R280). -/
def State.ownQuad (s : State) (p prio q : Nat) : Bool :=
  s.holdsQuad p q false && (s.quad q).reclaim.isNone && (prio == 0 || !((s.part p).urgentQuads.contains q))

/-- The quadrants that a partition may borrow, in the order in which it does: idle ones of the pool, then of other home sets
outside their urgent reserves, the lowest-numbered first (R284). -/
def State.lendable (s : State) (p : Nat) : List Nat :=
  let free := (List.range 768).filter fun q => s.idleQuad q && (s.quad q).part == (s.quad q).home && (s.quad q).part != some p
  (free.filter fun q => (s.quad q).home.isNone) ++ free.filter fun q => match (s.quad q).home with
    | some h => !((s.part h).urgentQuads.contains q)
    | none => false

/-- QUADRANT_BORROW (R284). -/
def State.borrow (s : State) (p q : Nat) : State := s.modQuad q fun x => { x with part := some p, loan := s.us }

/-! ### Lodge residency (R261) -/

/-- The quadrants of a core on which a workgroup may be placed. -/
def State.coreQuads (s : State) (p prio core : Nat) : List Nat :=
  ((List.range 4).map fun i => core * 4 + i).filter fun q => s.ownQuad p prio q

/-- A workgroup reserved on the first of some quadrants that has room. -/
def State.reserveOn (s : State) (l : Launch) (wgid : Nat) (qs : List Nat) : Option State :=
  qs.findSome? fun q => s.reserveWg l wgid q

/-- A lodge's cluster-mate with room for the lodge and for a workgroup, the roomiest (R261). -/
def State.moveTarget (s : State) (x : Lodge) (l : Launch) (wgid : Nat) : Option Nat :=
  let ok := fun (c : Nat) => c != x.core && !(s.lostCores.contains c) &&
    (match s.lodgeRun x.part c x.pages false, s.lodgeSlot c with
     | some off, some slot =>
       let s := s.modLodge x.id fun y => { y with running := some (c, off, slot) }
       (s.reserveOn l wgid (s.coreQuads l.part (s.effPrio l.id) c)).isSome
     | _, _ => false)
  s.roomiest x.part false (((List.range 8).map fun i => clusOfCore x.core * 8 + i).filter ok)

/-- A launch's next ensemble: one that was discarded comes back at its original place, before those not placed yet (R281,
R288). -/
def Launch.nextEnsemble (l : Launch) : Option Nat :=
  if !l.active then none
  else match l.redo with
    | e :: _ => some e
    | [] => if l.nextEns < l.pkt.nens then some l.nextEns else none

/-- The workgroups of a launch's next ensemble. -/
def Launch.nextWgs (l : Launch) : List Nat :=
  match l.nextEnsemble with
  | some e => (List.range l.pkt.wgens).map fun i => e * l.pkt.wgens + i
  | none => []

/-- A workgroup has room on its governing lodge's core, beside those of its ensemble that come before it and go there too (R261). -/
def State.roomNear (s : State) (l : Launch) (wgid : Nat) (x : Lodge) : Bool :=
  let qs := s.coreQuads l.part (s.effPrio l.id) x.core
  let mates := (l.nextWgs.takeWhile (· != wgid)).filter fun w => ((s.governing l w).map (·.1.core)) == some x.core
  let s := mates.foldl (fun (s : State) w => (s.reserveOn l w qs).getD s) s
  (s.reserveOn l wgid qs).isSome

/-- A move of the governing lodge arranged for a waiter that has no room on its core (R261, R262). -/
def State.arrangeMove (s : State) (a : AffWait) : State :=
  match s.launch a.launch with
  | none => s
  | some l => match s.governing l a.wgid with
    | none => s
    | some (x, _) =>
      if x.st ≠ .live ∨ x.pend ≠ .none ∨ s.roomNear l a.wgid x = true then s
      else match s.moveTarget x l a.wgid with
        | some c => s.modLodge x.id fun y => { y with st := .moving, pend := .place c }
        | none => s

/-- The wait of a workgroup, if it waits on a core. -/
def State.waitOf (s : State) (l wgid : Nat) : Option AffWait := s.affWaits.find? fun a => a.launch == l && a.wgid == wgid

/-- A workgroup begins to wait on its governing lodge's core; with patience 0, or as the fifth waiter, a move is arranged
at once (R261). One that waits by that lodge already goes on waiting. -/
def State.beginWait (s : State) (l : Launch) (wgid : Nat) (x : Lodge) (patience : Nat) : State :=
  if ((s.waitOf l.id wgid).map fun a => a.name) = some x.name then s
  else
    let s := { s with affWaits := s.affWaits.filter fun a => !(a.launch == l.id && a.wgid == wgid) }
    let fifth := decide (4 ≤ (s.affWaits.filter fun a => a.core == x.core).length)
    let a : AffWait := { launch := l.id, wgid := wgid, since := s.clock, name := x.name, core := x.core,
                         expired := patience == 0 || fifth }
    let s := { s with affWaits := s.affWaits ++ [a] }
    if a.expired then s.arrangeMove a else s

/-- The waits by lodges that govern no more: a workgroup that another lodge governs begins to wait on that one's core, and one that
none governs waits on no core (R261). -/
def State.tendWaits (s : State) : State :=
  forEach (fun (s : State) (a : AffWait) => match s.launch a.launch with
    | none => s
    | some l => match s.governing l a.wgid with
      | some (x, pat) => s.beginWait l a.wgid x pat
      | none => { s with affWaits := s.affWaits.filter (· != a) }) s s.affWaits

/-- Room for every waiter of a lodge on its core (R262). -/
def State.roomForAll (s : State) (x : Lodge) : Bool :=
  let mine := s.affWaits.filter fun a => a.name == x.name && ((s.launch a.launch).map (·.part)) == some x.part
  (mine.foldl (fun (acc : Option State) a => match acc with
    | none => none
    | some s => match s.launch a.launch with
      | none => some s
      | some l => s.reserveOn l a.wgid (s.coreQuads l.part (s.effPrio l.id) x.core)) (some s)).isSome

/-- A pending placement move that is to be cancelled: every waiter has room on the lodge's core (R262). -/
def State.mayCancel (s : State) (x : Lodge) : Bool :=
  (match x.pend with
    | .place _ => x.running.isNone
    | _ => false) && s.roomForAll x

/-- LODGE_MOVE_CANCEL (R262): pending placement moves that have not started are cancelled where every waiter has room, and
what waited for their end goes on. -/
def State.cancelMoves (s : State) : State :=
  forEach (fun s x => if s.mayCancel x then (s.modLodge x.id fun y => { y with st := .live, pend := .none }).lodgeRetry x.id else s)
    s s.lodges

/-- LODGE_MOVE_START (R262): a move starts, unless it is one that is to be cancelled. -/
def execLodgeMoveStart (part : Nat) (name : DWord) (s : State) : Result :=
  let s := s.cancelMoves
  match s.lodges.find? fun l => l.part == part && l.name == name && l.pend.target.isSome with
  | some l => .next (s.startMove l)
  | none => .next s

/-! ### Placing (R280, R281) -/

/-- A launch whose next ensemble has been reserved. -/
def Launch.advance (l : Launch) : Launch :=
  match l.redo with
  | _ :: es => { l with redo := es }
  | [] => { l with nextEns := l.nextEns + 1 }

/-- An ensemble's quadrants reserved in one step within a cluster: workgroups with a governing lodge on its core, the
first on the quadrant named if it may stand there, and on those it may borrow in their order after its own; none where it
does not fit (R261, R281, R284). near asks for that core; without it the question is only whether there is room. -/
def State.reserveEns (s : State) (l : Launch) (clus quad : Nat) (more : List Nat) (near : Bool) : Option State :=
  let prio := s.effPrio l.id
  let own := ((List.range 32).map fun i => clus * 32 + i).filter fun q => s.ownQuad l.part prio q
  let start := (if own.contains quad then quad :: own.filter (· != quad) else own) ++ more
  if !(s.mazesFit l.id (l.nextEnsemble.getD 0) clus) then none
  else l.nextWgs.foldl (fun (acc : Option State) w => match acc with
    | none => none
    | some s => (match (if near then s.governing l w else none) with
      | some (x, _) => if x.st == .moving then none
        else s.reserveOn l w (start.filter fun q => q / 4 == x.core && s.ownQuad l.part prio q)
      | none => s.reserveOn l w start)) (some s)

/-- The launches of a partition in the order in which R280 considers them. -/
def State.candidates (s : State) (p : Nat) : List Launch :=
  let ls := (s.launches.map (·.2)).filter fun l => l.part == p && !l.nextWgs.isEmpty
  let before := fun (x y : Launch) =>
    let kx := (s.effPrio x.id, (alook x.queue (s.part p).served).getD 0, x.queue, x.id)
    let ky := (s.effPrio y.id, (alook y.queue (s.part p).served).getD 0, y.queue, y.id)
    decide (kx.1 < ky.1) || (kx.1 == ky.1 && (decide (kx.2.1 < ky.2.1) || (kx.2.1 == ky.2.1 &&
      (decide (kx.2.2.1 < ky.2.2.1) || (kx.2.2.1 == ky.2.2.1 && decide (kx.2.2.2 ≤ ky.2.2.2))))))
  ls.mergeSort before

/-- Whether a launch's next ensemble finds room on the quadrants that its partition holds, anywhere on the module. -/
def State.fitsOwn (s : State) (l : Launch) : Bool :=
  (List.range 24).any fun c => (s.reserveEns l c (c * 32) [] false).isSome

/-- The quadrants of a cluster that a partition may borrow, in its order, as many as MAX leaves it (R284). -/
def State.loansIn (s : State) (l : Launch) (clus : Nat) : List Nat :=
  ((s.lendable l.part).filter fun q => q / 32 == clus).take ((s.part l.part).lim.max - (s.held' l.part).length)

/-- The place, in the order of R284, of the first quadrant that a launch's next ensemble would borrow in a cluster; none
where it does not fit there. -/
def State.loanRank (s : State) (l : Launch) (clus : Nat) : Option Nat :=
  let bs := s.loansIn l clus
  if bs.isEmpty then none
  else (s.reserveEns l clus (clus * 32) bs true).bind fun s' =>
    (bs.find? fun q => !(s'.wgsOn q).isEmpty).map fun q => (s.lendable l.part).findIdx (· == q)

/-- The quadrants of a cluster that a partition borrows for a launch that fits none of its own: in the cluster whose first
loan comes first in the order of R284. -/
def State.loans (s : State) (l : Launch) (clus : Nat) : List Nat :=
  if s.fitsOwn l then []
  else match s.loanRank l clus with
    | none => []
    | some n => if (List.range 24).any fun c => ((s.loanRank l c).map fun m => decide (m < n)).getD false then [] else s.loansIn l clus

/-- The candidates of a partition with the waiters on one core oldest first (R261). -/
def State.inOrder (s : State) (p : Nat) : List Launch :=
  let since := fun (l : Launch) => (l.nextWgs.findSome? fun w => s.waitOf l.id w).map fun a => (a.core, a.since)
  let older := fun (x y : Launch) => match since x, since y with
    | some a, some b => a.1 == b.1 && decide (a.2 < b.2)
    | _, _ => false
  (s.candidates p).foldl (fun (acc : List Launch) l =>
    (acc.filter fun x => !older l x) ++ [l] ++ acc.filter fun x => older l x) []

/-- The first candidate of a partition that fits a cluster, its ensemble reserved there (R280). -/
def State.placeable (s : State) (p clus quad : Nat) : Option (Launch × State) :=
  (s.inOrder p).findSome? fun l =>
    match s.reserveEns l clus quad [] true with
    | some s' => some (l, s')
    | none =>
      let bs := s.loans l clus
      if bs.isEmpty then none
      else (s.reserveEns l clus quad bs true).map fun s' =>
        (l, forEach (fun s q => if (s.wgsOn q).isEmpty then s else s.borrow p q) s' bs)

/-- A thread at its start (R110, R193); bit 0 of a PC is always 0 (03_encodings.md R25). -/
def newThread (g : Wg) (acc : Bool) (pc : DWord) (n : Nat) : Thread :=
  let a : Arch := { pc := pc &&& ~~~1, regs := { cells := [], base := n, kbase := n + 256 }, preds := 0, ix := 0, fflags := 0, rm := g.rm,
                    rstack := [], xcount := 0, alone := 0, sup := g.supv, depth := 0, frame := none, lpad := none, skips := [] }
  { arch := a, status := .woken, loads := 0, stores := 0, copies := 0, tiles := 0, busy := [], run := Run.start a, seq := 0,
    deferred := none, defSeq := none, acq := [], acc := if acc then some { loops := [], skip := 0, halted := false, fault := none, out := [] } else none,
    stop := none, acqDrop := false, post := .woken }

/-- A thread at its start whose workgroup was discarded: its flags are those at the start of the discarded run
(04_numbers.md R73), and its runs are numbered on. -/
def Thread.again (t old : Thread) : Thread :=
  let a := { t.arch with fflags := old.arch.fflags }
  { t with arch := a, run := Run.start a, seq := old.seq + 1 }

/-- The threads of a workgroup start at an address, in ascending `%tid`, each with its access thread (R108, R193). -/
def State.startThreads (s : State) (w : Nat) (pc : DWord) : State :=
  match s.wg w with
  | none => s
  | some g =>
    let s := forEach (fun (s : State) (t : Nat) =>
      let one := fun (s : State) (r : TRef) (pc : DWord) =>
        let (n, s) := s.takeFresh
        let (_, s) := s.takeFresh
        let t := newThread g r.acc pc n
        (s.setThread r (((s.thread r).map t.again).getD t)).makeReady r 0
      let s := one s { wg := w, tid := t } pc
      if g.access = 0 then s else one s { wg := w, tid := t, acc := true } g.access) s (List.range g.nthr)
    s.modWg w fun g => { g with started := true, discarded := false }

/-- Where the threads of a workgroup start: at its entry, or at the restart address of its region (R288, R300). -/
def Wg.startPc (g : Wg) : DWord := if g.discarded then g.idem.getD g.exec else g.exec

/-- The copies that a core keeps of data and of instructions dropped: what happened before its new threads start is seen by
them (R301). -/
def State.freshCore (s : State) (core : Nat) : State := (s.dropClean core none).dropFetched core none

/-- A queue has been served: a workgroup of one of its launches was placed (R280). -/
def State.served (s : State) (l : Nat) : State :=
  match s.launch l with
  | some x => s.modPart x.part fun y => { y with served := aput x.queue (s.clock + 1) y.served }
  | none => s

/-- The next workgroup of a reserved ensemble placed in a cluster; when it is the last, all the ensemble's threads become
ready in the next cycle (R281). -/
def State.placeNext (s : State) (g : Wg) : State :=
  let s := (s.modWg g.id fun x => { x with here := true, placedAt := s.us, timer := 0 }).served g.launch
  let es := s.ensemble g
  if es.all (·.here) then
    let c := s.clock
    let s := forEach (fun s (x : Wg) => s.freshCore (coreOfQuad x.quad)) { s with clock := c + 1 } es
    let s := forEach (fun s (x : Wg) => s.startThreads x.id x.startPc) s (es.mergeSort fun a b => decide (a.wgens ≤ b.wgens))
    { s with clock := c }
  else s

/-- The lowest reserved workgroup of a cluster that is not placed yet. -/
def State.midPlacing (s : State) (clus : Nat) : Option Wg :=
  (s.wgs.map (·.2)).find? fun g => g.quad / 32 == clus && !g.here && !g.ended && !g.saved

/-- The cluster's placement of this cycle is taken (R280). -/
def State.tookTurn (s : State) (clus p : Nat) : State := { s with turns := aput clus (p, s.clock + 1) s.turns }

/-- Partitions in the order of their turns in a cluster (R280). -/
def State.turnOrder (s : State) (clus : Nat) : List Nat :=
  let last := ((alook clus s.turns).map (·.1)).getD 19
  (List.range 20).map fun i => (last + 1 + i) % 20

/-- The waits of the candidates that find no room on their governing lodge's core (R261). -/
def State.startWaits (s : State) (clus : Nat) : State :=
  let ls := (s.launches.map (·.2)).filter fun l => !l.nextWgs.isEmpty && !(s.part l.part).suspended &&
    (s.reserveEns l clus (clus * 32) [] true).isNone
  forEach (fun s l => forEach (fun s w => match s.governing l w with
    | some (x, pat) => if clusOfCore x.core = clus ∧ s.roomNear l w x = false then s.beginWait l w x pat else s
    | none => s) s l.nextWgs) s ls

/-- The waiters whose patience has run out try for a move again (R261). -/
def State.retryMoves (s : State) (clus : Nat) : State :=
  forEach (fun s a => if a.expired && clusOfCore a.core == clus then s.arrangeMove a else s) s s.affWaits

/-- The core of a declaring core's workgroups in an ensemble that has been reserved again: that of the lowest-numbered. -/
def State.coreAfter (s : State) (l : Launch) (core : Nat) : Nat :=
  match (s.wgs.map (·.2)).find? fun g => g.launch == l.id && l.nextEnsemble == some g.ensid with
  | some g => coreOfQuad g.quad
  | none => core

/-- WORKGROUP_PLACE (R280): a cluster places at most one workgroup in a cycle, while the clock runs
(25_system.md R388). -/
def execWorkgroupPlace (clus : Nat) (quad : Nat) (s : State) : Result :=
  if 24 ≤ clus ∨ s.sys.power.gated = true ∨ ((alook clus s.turns).map (·.2)) = some (s.clock + 1) then .next s
  else match s.midPlacing clus with
    | some g => .next (((s.placeNext g).tookTurn clus g.part).retryMoves clus)
    | none =>
      let s := s.cancelMoves
      let ps := (s.turnOrder clus).filter fun p => (s.part p).defined && !(s.part p).suspended && !(s.part p).resetWait
      let s := forEach (fun (s : State) p => if (s.candidates p).isEmpty then s else s.seekQueues p) s ps
      match ps.findSome? fun p => (s.placeable p clus quad).map fun x => (p, x) with
      | none => .next ((s.startWaits clus).retryMoves clus)
      | some (p, l, s) =>
        let s := s.modLaunch l.id Launch.advance
        let s := s.restoreMazes l.id (l.nextEnsemble.getD 0) clus (s.coreAfter l)
        let s := { s with affWaits := s.affWaits.filter fun a => !(a.launch == l.id && l.nextWgs.contains a.wgid) }
        match s.midPlacing clus with
        | some g => .next ((((s.placeNext g).tookTurn clus p).startWaits clus).retryMoves clus)
        | none => .next s

/-- PATIENCE_EXPIRY (R261): the patience of a waiter has run out, and a move of its governing lodge is arranged. -/
def execPatienceExpiry (l : Nat) (w : Nat) (s : State) : Result :=
  match s.waitOf l w, s.launch l with
  | some a, some x => match s.governing x w with
    | some (_, pat) =>
      if a.expired ∨ pat = 2 ^ 32 - 1 ∨ s.clock < a.since + pat then .next s
      else
        let a' := { a with expired := true }
        let s := { s with affWaits := s.affWaits.map fun y => if y = a then a' else y }
        .next (s.arrangeMove a')
    | none => .next s
  | _, _ => .next s

end Sys2Proof.Machine
end

