-- ==== Sys2Proof/Machine/Preempt.lean ====
section
/-! DEFINITION. Pre-emption, the save image and restoring, reclaim and the end of a lease (18_lodges.md R264, R265,
19_scheduling.md R282, R284 to R288). -/

namespace Sys2Proof.Machine

/-! ### Runs that end before their terminator (R130, R158, R285) -/

/-- A thread that waits inside its run: parked, woken and not yet issuing, or held at a meeting. -/
def TStatus.inRun : TStatus → Bool
  | .parked (.walk _) => true
  | .parked (.word _) => true
  | .parked .spill => true
  | .parked .brq => true
  | .parked .oq => true
  | .woken => true
  | .held _ _ => true
  | _ => false

/-- The run of a thread that waits inside it discarded: it is ready again at the run's start, in no bin (R285). -/
def State.abandonRun (s : State) (r : TRef) : State :=
  let s := (s.dropRun r).dropFromQuad r
  s.modThread r fun t => { t with status := .ready s.clock 0 }

/-- A ready thread of a workgroup that is not pre-empted any more is filed again with its key and ready time (R286). -/
def State.refile (s : State) (r : TRef) : State :=
  match s.thread r with
  | some t => (match t.status with
    | .ready at' v =>
      if r.acc then s
      else s.modQuad (s.quadOf r) fun x => { x with filing := insertFiling s (r, at', v) x.filing }
    | .yielded => s.makeReady r 0
    | .woken => s.makeReady r 0
    | _ => s)
  | none => s

/-- The order of pairs by their first part, then their second. -/
def pairLt (a b : Nat × Nat) : Bool := decide (a.1 < b.1) || (a.1 == b.1 && decide (a.2 < b.2))

/-! ### Choosing a victim (R282) -/

/-- A placed workgroup that may be pre-empted. -/
def Wg.placed (g : Wg) : Bool := g.here && g.started && !g.saved && !g.preempting && !g.ended

/-- The workgroup that R282 takes for a priority: of the numerically largest effective priority, the last placed; one
placed less than 20 µs ago only for priority 0. -/
def State.victim (s : State) (p prio : Nat) : Option Wg :=
  let ok := fun (g : Wg) => g.part == p && g.placed && decide (prio < s.effPrio g.launch) &&
    (prio == 0 || decide (20 ≤ s.us - g.placedAt))
  ((s.wgs.map (·.2)).filter ok).foldl (fun (m : Option Wg) g => match m with
    | none => some g
    | some h => if s.effPrio h.launch < s.effPrio g.launch ∨
        (s.effPrio h.launch = s.effPrio g.launch ∧ pairLt (h.placedAt, h.order) (g.placedAt, g.order) = true) then some g else m) none

/-- A saved workgroup fits a quadrant of its index at its offsets (R134, R287): one of its partition, or one that this may borrow
(R284). -/
def State.fitsAgain (s : State) (g : Wg) (loans : List Nat) (q : Nat) : Bool :=
  let ws := s.wgsOn q
  let core := q / 4
  let clear := fun (l : List (Nat × Nat)) (a n : Nat) => !(l.any fun h => decide (0 < h.2) && decide (0 < n) && rangesMeet h.1 h.2 a n)
  q % 4 == g.quad % 4 && (loans.contains q || s.ownQuad g.part (s.effPrio g.launch) q) &&
    decide (g.nthr ≤ (s.freeSlots q).length) && decide ((ws.map fun x => x.nthr * x.allot).sum + g.nthr * g.allot ≤ 65536) &&
    decide ((ws.map (·.tiles.length)).sum + g.tiles.length ≤ 64) && (g.footprint == 0 || !(s.offsetsHeld core g.off g.footprint)) &&
    clear (ws.map fun x => (x.accBase, x.accLen)) g.accBase g.accLen &&
    clear (ws.map fun x => (x.sideBase, x.sideLen)) g.sideBase g.sideLen &&
    clear (ws.map fun x => (x.canBase, x.canLen / 64)) g.canBase (g.canLen / 64) && s.canopyRoom g.part g.canLen

/-- The core of the lodge that governs a workgroup (18_lodges.md R261, R264). -/
def State.govCore (s : State) (g : Wg) : Option Nat :=
  ((s.launch g.launch).bind fun l => s.governing l g.wgid).map fun x => x.1.core

/-- The quadrants of a cluster to which a saved workgroup may return, that of its governing lodge's core first (18_lodges.md
R264, R287), and those it may borrow in their order last (R284). -/
def State.seatsOf (s : State) (g : Wg) (clus : Nat) (loans : List Nat) : List Nat :=
  let own := ((List.range 8).map fun c => clus * 32 + 4 * c + g.quad % 4).filter fun q => !(loans.contains q)
  let qs := (own ++ loans).filter fun q => s.fitsAgain g loans q
  match s.govCore g with
  | some c => (qs.filter fun q => q / 4 == c) ++ qs.filter fun q => q / 4 != c
  | none => qs

/-- A saved workgroup's quadrant taken for it. -/
def State.seat (s : State) (g : Wg) (q : Nat) : State :=
  let slots := (s.freeSlots q).take g.nthr
  s.modWg g.id fun x => { x with quad := q, saved := false, slots := slots }

/-- Quadrants of one cluster for all of some saved workgroups together (R285). -/
def State.seating (s : State) (clus : Nat) (loans : List Nat) : List Wg → Option (List (Wg × Nat))
  | [] => some []
  | g :: l => (s.seatsOf g clus loans).findSome? fun q => ((s.seat g q).seating clus loans l).map fun xs => (g, q) :: xs

/-- An ensemble is away with an image of its own: it is saved, and not wholly discarded (R285, R288). -/
def State.imaged (s : State) (g : Wg) : Bool := g.saved && !((s.ensemble g).all fun x => x.discarded)

/-- The ensemble of a saved workgroup finds room on the quadrants of its partition. -/
def State.seatsOwn (s : State) (g : Wg) : Bool :=
  (List.range 24).any fun c => s.mazesFit g.launch g.ensid c && (s.seating c [] (s.ensemble g)).isSome

/-- The saved workgroups of a partition whose ensembles find no room. -/
def State.unseated (s : State) (p : Nat) : List Wg :=
  (s.wgs.map (·.2)).filter fun g => g.part == p && s.imaged g && !s.seatsOwn g

/-- The quadrants of a cluster that a partition may borrow for a saved ensemble, and the place in the order of R284 of the first that
it would take (R284). -/
def State.seatLoans (s : State) (g : Wg) (clus : Nat) : List Nat :=
  ((s.lendable g.part).filter fun q => q / 32 == clus).take ((s.part g.part).lim.max - (s.held' g.part).length)
def State.seatRank (s : State) (g : Wg) (clus : Nat) : Option Nat :=
  let bs := s.seatLoans g clus
  if bs.isEmpty || !(s.mazesFit g.launch g.ensid clus) then none
  else (s.seating clus bs (s.ensemble g)).bind fun xs =>
    (bs.find? fun q => xs.any fun x => x.2 == q).map fun q => (s.lendable g.part).findIdx (· == q)

/-- The quadrants of a cluster that a saved ensemble borrows where it fits none of its partition's: in the cluster whose first loan
comes first in the order of R284. -/
def State.loansFor (s : State) (g : Wg) (clus : Nat) : List Nat :=
  if s.seatsOwn g then []
  else match s.seatRank g clus with
    | none => []
    | some n => if (List.range 24).any fun c => ((s.seatRank g c).map fun m => decide (m < n)).getD false then [] else s.seatLoans g clus

/-- The priority for which a partition pre-empts: that of its first candidate that finds no room on any quadrant it
holds, or of a saved workgroup that finds none, those being pre-empted counted as gone (R282). What the canopy limit of the
partition or the clusters' stage sets hold back finds room on a quadrant, and waits without pre-empting (R283). -/
def State.wants (s : State) (p : Nat) : Option Nat :=
  let s' := ({ s with wgs := s.wgs.filter fun x => !(x.2.preempting && !x.2.saved), mazes := [] } : State).modPart p fun x =>
    { x with lim := { x.lim with canopy := 2 ^ 62 } }
  let fresh := ((s.candidates p).find? fun l => !s'.fitsOwn l).map fun l => s.effPrio l.id
  let back := (s'.unseated p).map fun g => s.effPrio g.launch
  (fresh.toList ++ back).foldl (fun m x => match m with
    | none => some x
    | some y => some (min x y)) none

/-! ### Pre-empting (R285, R288) -/

/-- A workgroup in an IDEM region of a launch that honours it (R288, R300). -/
def Wg.inIdem (g : Wg) : Bool := g.idemok && g.idem.isSome

/-- A workgroup's bins are no longer selected, and the runs of its parked and held threads are discarded (R285); whether it will be
discarded shows when its running group has finished (R288). -/
def State.stopWg (s : State) (g : Wg) : State :=
  let s := s.modWg g.id fun x => { x with preempting := true }
  forEach (fun s x => if x.2.status.inRun then s.abandonRun x.1 else s) s (s.threadsOf g.id)

/-- An ensemble is pre-empted as a whole. -/
def State.stopEnsemble (s : State) (g : Wg) : State := forEach (fun s x => s.stopWg x) s (s.ensemble g)

/-- PREEMPT (R282, R285). -/
def execPreempt (w : Nat) (s : State) : Result :=
  match s.wg w with
  | none => .next s
  | some g => match s.wants g.part with
    | none => .next s
    | some prio => match s.victim g.part prio with
      | some v => if v.id = w then .next (s.stopEnsemble g) else .next s
      | none => .next s

/-! ### The image (R286, R287) -/

/-- A thread issues: it is in a group. -/
def State.issuing (s : State) (r : TRef) : Bool :=
  let q := s.quad (s.quadOf r)
  let inG := fun (g : Option Group) => match g with
    | some g => g.todo.contains r || g.done.contains r || g.waitX.contains r
    | none => false
  inG q.active || inG q.acc

/-- The threads that have come to wait inside a run when their halt or their workgroup's pre-emption had been asked for: their runs
are discarded as those of threads that waited then (R285, 21_faults.md R313, R316). -/
def State.tendStops (s : State) : State :=
  let away := fun (r : TRef) => ((s.wg r.wg).map fun g => g.preempting && !g.saved).getD false
  forEach (fun (s : State) (x : Nat × Thread) =>
    let r := TRef.ofKey x.1
    if s.issuing r then s else if x.2.stop.isSome then s.redoRun r else s.abandonRun r) s
    (s.threads.filter fun x => x.2.status.inRun && (x.2.stop.isSome || away (TRef.ofKey x.1)))

/-- A BALANCE that has not begun a sweep, or is between two: its workgroup may be pre-empted, and f, g and the sweep count go
with it (13_plan_tiles.md R233). -/
def State.balancePauses (s : State) (o : TileOp) : Bool :=
  o.cmd.op == .balance && (o.phase == .queued || (o.phase == .running && !o.plan.stopped)) &&
    !(s.passHolds.any fun h => h.was.id == o.id)

/-- Nothing of a workgroup that R285 waits for is under way: running groups, loads, stores, tile operations and runs that
have not been released; of one that is discarded, its copies, its tile operations (R288) and what else it committed too. -/
def State.drainedFor (s : State) (g : Wg) : Bool :=
  !((s.threadsOf g.id).any fun x => s.issuing x.1 || x.2.status.inRun) &&
    !(s.loads.any fun l => l.who.wg == g.id) && !(s.stores.any fun p => p.who.wg == g.id) &&
    !(s.tileOps.any fun o => o.wg == g.id && (g.inIdem || !(s.balancePauses o))) && !(s.held.any fun h => h.who.wg == g.id && !(match h.cmd.map (·.op) with
      | some CmdOp.take => true
      | _ => false)) &&
    (!g.inIdem || (!(s.copies.any fun c => c.who.wg == g.id) && !(s.tgens.any fun c => c.who.wg == g.id) &&
      !(s.fab.remotes.any fun x => match x.purpose with
        | .atom r _ _ _ _ => r.wg == g.id
        | _ => false) && !(s.lodgeWaits.any fun w => w.who.wg == g.id) &&
      !(s.lodges.any fun l => match l.pend with
        | .hand who _ _ _ _ => who.wg == g.id
        | .drop who _ _ => who.wg == g.id
        | _ => false)))

/-- Every key of the state that names a place, mapped. -/
def State.mapKeys (s : State) (f : Nat → Nat) : State :=
  let loc := fun (l : Loc) => match l with
    | .key k => .key (f k)
    | x => x
  let queue := fun (q : MazeQueue) =>
    { q with qbase := f q.qbase, recs := q.recs.map fun (r : MazeRec) => { r with key := f r.key } }
  let moveQ := fun (q : QCtl) => { q with base := if q.v && q.base != 0 then f q.base else q.base }
  let recs := fun (l : List MazeRec) => l.map fun r => { r with key := f r.key }
  let moveC := fun (c : Copy) =>
    { c with rvKey := c.rvKey.map f, compKey := c.compKey.map f,
             writes := c.writes.map fun (w : CopyWrite) => { w with
      bytes := w.bytes.map fun (b : CopyByte) => { b with loc := loc b.loc, src := b.src.map f } } }
  let moveM := fun (m : MazeSet) =>
    { m with stages := m.stages.map fun (x : MazeStage) => { x with q := queue x.q },
             sink := queue m.sink, heldRecs := recs m.heldRecs, completing := recs m.completing }
  { s with waiters := s.waiters.map fun (w : Waiter) => { w with key := f w.key, loc := loc w.loc },
           copies := s.copies.map moveC,
           tgens := s.tgens.map fun (t : TGen) => { t with compKey := t.compKey.map f },
           rvHolds := s.rvHolds.map fun (h : RvHold) => { h with key := f h.key },
           rvOpen := s.rvOpen.map f,
           wgs := s.wgs.map fun x => (x.1, { x.2 with qcs := x.2.qcs.map moveQ }),
           mazes := s.mazes.map moveM,
           launches := s.launches.map fun x => (x.1, { x.2 with conts := x.2.conts.map fun y => (y.1, loc y.2) }) }

/-- The bytes of a workgroup moved from one place to another, and every name of them with them. -/
def State.carry (s : State) (a b : Wg) : State :=
  let s := s.moveRange a.base b.base a.footprint
  let s := s.moveRange (a.accKey 0) (b.accKey 0) a.accLen
  let s := s.moveRange (a.sideKey 0) (b.sideKey 0) a.sideLen
  let s := forEach (fun (s : State) (c : Nat) => s.moveRange (a.canKey c 0) (b.canKey c 0) (a.canLen / 64)) s (List.range 64)
  let s := (s.stepCanopy a).stepCanopy b
  let part := fun (k lo n to' : Nat) => if lo ≤ k ∧ k < lo + n then some (to' + (k - lo)) else none
  let f := fun (k : Nat) =>
    match part k a.base a.footprint b.base with
    | some j => j
    | none => match part k (a.accKey 0) a.accLen (b.accKey 0) with
      | some j => j
      | none => match part k (a.sideKey 0) a.sideLen (b.sideKey 0) with
        | some j => j
        | none => ((List.range 64).findSome? fun c => part k (a.canKey c 0) (a.canLen / 64) (b.canKey c 0)).getD k
  s.mapKeys f

/-- A thread of a discarded workgroup as it is restarted (R300): registers undefined, at the restart address. -/
def State.restartThread (s : State) (g : Wg) (r : TRef) : State :=
  let (n, s) := s.takeFresh
  let (_, s) := s.takeFresh
  let pc := if r.acc then g.access else g.idem.getD g.exec
  s.modThread r fun t => { (newThread g r.acc pc n).again t with status := .ready s.clock 0 }

/-- A discarded workgroup is put back to its restart address, its memories zeroed and its tile registers undefined, and what
its threads wait for dropped: words, records, stages and sinks (R288, R300). -/
def State.restartWg (s : State) (g : Wg) : State :=
  let stays := fun (q : MazeQueue) => { q with takers := q.takers.filter fun t => t.who.wg != g.id }
  let unasked := fun (m : MazeSet) =>
    { m with stages := m.stages.map fun (x : MazeStage) => { x with q := stays x.q }, sink := stays m.sink }
  let s := { s with
    waiters := s.waiters.filter fun w => w.who.wg != g.id
    held := s.held.filter fun h => h.who.wg != g.id
    mazes := s.mazes.map unasked }
  let s := s.zeroWg g
  let s := s.modWg g.id fun x => { x with
    tiles := List.replicate x.tiles.length {}, oldTiles := [], oq := [], bq := []
    qcs := List.replicate 4 ({} : QCtl) ++ List.replicate 4 (startQ x.access) }
  forEach (fun s x => s.restartThread g x.1) s (s.threadsOf g.id)

/-- SAVEBASE (21_faults.md R310). -/
def Part.savebase (p : Part) : DWord := p.pairReg 0x12 65536

/-- The bytes of a workgroup's image (R286). -/
def Wg.imgLen (g : Wg) : Nat := 6 * g.nthr * g.allot + 128 * g.nthr + g.footprint + g.accLen + g.sideLen + g.canLen + 4096

/-- The offset in a partition's save area at which an image of n bytes goes. DESIGN CHOICE (log entry 81): the lowest that is
free. -/
def State.imgSpot (s : State) (p n : Nat) : Nat :=
  let held := ((s.wgs.map (·.2)).filter fun g => g.part == p && g.saved && !g.discarded).map fun g => (g.img, g.imgLen)
  (((0 :: held.map fun h => h.1 + h.2).filter fun o => !(held.any fun h => rangesMeet h.1 h.2 o n)).min?).getD 0

/-- The first page of n bytes of a partition's save area that cannot be written (R394). -/
def State.saveLost (s : State) (p o n : Nat) : Option DWord :=
  ((List.range ((o % 4096 + n + 4095) / 4096)).map fun i =>
    (s.part p).savebase + BitVec.ofNat 64 ((o / 4096 + i) * 4096)).find? fun a => (s.agentAt p .store a).isNone

/-- An image of n bytes written to the save area (R285, R286). Its layout is not given: its bytes are free values, and what
it holds stays with the workgroup (log entry 26). -/
def State.writeImage (s : State) (p o n : Nat) : State :=
  let b := fun (i : Nat) => (Config.freeBits (s.fresh + i)).setWidth 8
  let s1 := forEach (fun (s : State) (i : Nat) =>
    match s.agentAt p .store ((s.part p).savebase + BitVec.ofNat 64 (o + i)) with
    | some k => s.homeStore [(k, b i)]
    | none => s) s (List.range n)
  ({ s1 with fresh := s1.fresh + n } : State).modPart p fun x => { x with saveTop := max x.saveTop (o + n) }

/-- What a workgroup has under way counted with a core: 192 stands for its image. -/
def State.moveWork (s : State) (w core : Nat) : State :=
  { s with waiters := s.waiters.map fun (x : Waiter) => if x.who.wg = w then { x with core := core } else x
           tileOps := s.tileOps.map fun (x : TileOp) => if x.wg = w then { x with core := core } else x }

/-- A workgroup's image is saved and its quadrant released (R285, R286); one in an IDEM region is discarded and has none (R288). -/
def State.saveWg (s : State) (g : Wg) : State :=
  let core := coreOfQuad g.quad
  let s := ((s.writeBackAll core none).dropClean core none).dropFetched core none
  let s := forEach (fun s x => s.dropFromQuad x.1) s (s.threadsOf g.id)
  let s := if g.inIdem then s.restartWg g else s
  let o := s.imgSpot g.part g.imgLen
  let s := (s.carry g { g with saved := true }).moveWork g.id 192
  let s := if g.inIdem then s else s.writeImage g.part o g.imgLen
  s.modWg g.id fun x => { x with saved := true, discarded := g.inIdem, img := o }

/-- An ensemble saved; where it was discarded as a whole it is among its launch's next (R288). -/
def State.saveEns (s : State) (g : Wg) (es : List Wg) : State :=
  let s := (forEach (fun s (x : Wg) => s.saveWg x) s es).saveMazes g.launch g.ensid
  if es.all fun x => x.inIdem then s.modLaunch g.launch fun l => { l with redo := insNat g.ensid l.redo } else s

/-- PREEMPT_SAVE (R285, R286): when every workgroup of the ensemble has drained, and the pages of its images can be written;
else event 9 tells of them (R394). -/
def execPreemptSave (w : Nat) (s : State) : Result :=
  match s.wg w with
  | none => .next s
  | some g =>
    let es := s.ensemble g
    if g.preempting && es.all (fun x => x.preempting && !x.saved && s.drainedFor x) then
      let s' := s.saveEns g es
      let spots := ((es.filter fun x => !x.inIdem).filterMap fun x => (s'.wg x.id).map fun y => (y.img, y.imgLen))
      match spots.findSome? fun x => s.saveLost g.part x.1 x.2 with
      | some a => .next (s.postMissing g.part a 2)
      | none => .next s'
    else .next s

/-! ### Restoring (R264, R287) -/

/-- The waiters on the words of a workgroup's scratchpad evaluated again (R156, R287). -/
def State.wakeWords (s : State) (g : Wg) : State :=
  s.monitorAll ((s.waiters.filter fun w => decide (g.base ≤ w.key) && decide (w.key < g.base + g.footprint)).map (·.key))

/-- The threads of a restored ensemble take part again. -/
def State.resumeWg (s : State) (g : Wg) : State :=
  let s := s.modWg g.id fun x => { x with preempting := false, discarded := false, placedAt := s.us, timer := 0 }
  let s := forEach (fun s x => s.refile x.1) s (s.threadsOf g.id)
  s.wakeWords ((s.wg g.id).getD g)

/-- A workgroup brought back to its seat (R287). -/
def State.carryBack (s : State) (g : Wg) (q : Nat) : State :=
  let core := coreOfQuad q
  let s := (((s.carry g { g with saved := false, quad := q }).seat g q).moveWork g.id core).fitTable core
  (s.writeBackAll core none).freshCore core

/-- A quadrant is the one that R264 prefers for a saved workgroup: its governing lodge's core has no other seat for it. -/
def State.preferred (s : State) (g : Wg) (rest : List Wg) (loans : List Nat) (quad : Nat) : Bool :=
  match s.govCore g with
  | none => true
  | some c =>
    let q := c * 4 + g.quad % 4
    q == quad || !(s.fitsAgain g loans q && s.mazesFit g.launch g.ensid (q / 32) &&
      ((s.seat g q).seating (q / 32) loans rest).isSome)

/-- RESTORE (R285, R287): a saved workgroup goes to a quadrant of the same index at the same offsets, and its ensemble with it
in one cluster; where it fits none of its partition's quadrants, on borrowed ones too (R284). -/
def execRestore (w : Nat) (quad : Nat) (s : State) : Result :=
  match s.wg w with
  | none => .next s
  | some g =>
    let es := s.ensemble g
    let rest := es.filter fun x => x.id != w
    let clus := quad / 32
    let loans := s.loansFor g clus
    if s.imaged g && es.all (fun x => x.saved) && !s.sys.power.gated && decide (quad < 768) && s.fitsAgain g loans quad &&
        s.mazesFit g.launch g.ensid clus && s.preferred g rest loans quad && !(s.part g.part).suspended && !(s.part g.part).resetWait then
      match (s.seat g quad).seating clus loans rest with
      | none => .next s
      | some xs =>
        let seats := (g, quad) :: xs
        let s := forEach (fun (s : State) q => if seats.any fun x => x.2 == q then s.borrow g.part q else s) s loans
        let core := fun (c : Nat) => ((seats.find? fun x => coreOfQuad x.1.quad == c).map fun x => coreOfQuad x.2).getD c
        let s := forEach (fun s (x : Wg × Nat) => s.carryBack x.1 x.2) s seats
        let s := s.restoreMazes g.launch g.ensid clus core
        .next (forEach (fun s x => s.resumeWg x) s (s.ensemble g))
    else .next s

/-! ### Reclaim and leases (R265, R284) -/

/-- The quadrants of a home set that are lent. -/
def State.lent (s : State) (h : Nat) : List Nat :=
  (s.quads.filter fun x => x.2.home == some h && x.2.part != some h && x.2.part.isSome && x.2.reclaim.isNone).map (·.1)

/-- The largest priority number of a quadrant's workgroups. -/
def State.quadPrio (s : State) (q : Nat) : Nat := (s.wgsOn q).foldl (fun m g => max m (s.effPrio g.launch)) 0

/-- The lent quadrant that a home partition reclaims (R284). -/
def State.reclaims (s : State) (h : Nat) : Option Nat :=
  (s.lent h).foldl (fun (m : Option Nat) q => match m with
    | none => some q
    | some b => if pairLt (s.quadPrio b, (s.quad b).loan) (s.quadPrio q, (s.quad q).loan) then some q else m) none

/-- A home partition has a workgroup that its lent quadrant would take, once its borrower and its lodges have left it: one that is to
be placed, or a saved one (R284). -/
def State.wouldFit (s : State) (h q : Nat) : Bool :=
  let stays := fun (l : Lodge) => !(l.placed && some l.part == (s.quad q).part && l.core == q / 4 &&
    rangesMeet l.off l.bytes (q % 4 * 2 ^ 17) (2 ^ 17))
  let s' := ({ s with wgs := s.wgs.filter fun x => x.2.saved || x.2.quad != q
                      lodges := s.lodges.filter stays } : State).modQuad q fun x => { x with part := some h, reclaim := none }
  (s.candidates h).any (fun l => s'.ownQuad h (s.effPrio l.id) q && l.nextWgs.any fun w => (s'.reserveWg l w q).isSome) ||
    ((s.wgs.map (·.2)).filter fun g => g.part == h && s.imaged g).any fun g => s'.fitsAgain g [] q

/-- A quadrant taken back from its borrower: the workgroups there are pre-empted. -/
def State.takeBack (s : State) (q : Nat) : State :=
  let s := s.modQuad q fun x => { x with reclaim := some s.us }
  forEach (fun s g => if g.placed then s.stopEnsemble g else s) s (s.wgsOn q)

/-- The lodges of a borrower on a quadrant's offsets. -/
def State.lodgesOn (s : State) (q : Nat) : List Lodge :=
  s.lodges.filter fun l => l.placed && l.core == q / 4 && rangesMeet l.off l.bytes (q % 4 * 2 ^ 17) (2 ^ 17)

/-- A lodge moved home at the end of a lease without waiting for holders; without room it is lost (R265, R266). -/
def State.leaseLodge (s : State) (p : Nat) (l : Lodge) : State :=
  let leaves := match l.pend with
    | .lease _ => l.running.isSome
    | _ => false
  if l.part ≠ p ∨ leaves = true then s
  else match s.refuge l true with
    | none => s.loseLodge l
    | some c =>
      let s := s.holdHand l
      match l.pend with
      | .drop who seq d => (((s.refuse l.key l.bytes).freeLodge l).refuseWaits l.key l.bytes).lodgeReply who seq [(d, 0)] |>.lodgeRetry l.id
      | _ =>
        let s := s.modLodge l.id fun x => { x with pend := .lease c, running := none }
        s.startMove ((s.lodgeById l.id).getD l)

/-- A borrower's lodges leave a quadrant, and its moves that have taken a place there find another (R265). -/
def State.evictLodges (s : State) (p q : Nat) : State :=
  let s := forEach (fun s l => s.leaseLodge p l) s (s.lodgesOn q)
  { s with lodges := s.lodges.map fun (l : Lodge) => match l.running with
      | some (c, o, _) =>
        if l.part = p ∧ c = q / 4 ∧ rangesMeet o l.bytes (q % 4 * 2 ^ 17) (2 ^ 17) = true then { l with running := none } else l
      | none => l }

/-- A quadrant whose borrower has left it returns to its home (R284), and the borrower's lodges leave it (R265); the meter log
records an overrun of 40 µs. Workgroups of an ensemble that had not started when it was taken back are pre-empted once they have. -/
def State.returnQuad (s : State) (q : Nat) : State :=
  let s := forEach (fun (s : State) (g : Wg) => if (s.quad q).reclaim.isSome && g.placed then s.stopEnsemble g else s) s (s.wgsOn q)
  match (s.quad q).reclaim, (s.quad q).part with
  | some since, some p =>
    if (s.wgsOn q).isEmpty then
      let s := if 40 < s.us - since then s.meterEvent 5 ((s.quad q).home.getD 255) (natLe 8 q) else s
      (s.evictLodges p q).modQuad q fun x => { x with part := x.home, reclaim := none }
    else s
  | _, _ => s
def State.returnQuads (s : State) : State :=
  forEach (fun s q => s.returnQuad q) s ((s.quads.filter fun x => x.2.reclaim.isSome).map (·.1))

/-- QUADRANT_RECLAIM (R284): a home partition takes back a lent quadrant, or a home set that has grown a pool
quadrant. -/
def execQuadrantReclaim (q : Nat) (s : State) : Result :=
  match (s.quad q).home with
  | some h => if s.reclaims h = some q ∧ s.wouldFit h q = true then .next (s.takeBack q) else .next s
  | none => .next s

/-- LEASE_END (R265): the lease of a borrowed quadrant that has been reclaimed ends (R284); the borrower's workgroups there are evicted
with their runs discarded, and its lodges move home. -/
def execLeaseEnd (q : Nat) (s : State) : Result :=
  match (s.quad q).part with
  | some p =>
    if (s.quad q).home = some p ∨ (s.quad q).reclaim = none then .next s
    else
      let ws := (s.wgsOn q).flatMap fun g => s.ensemble g
      let s := forEach (fun s (g : Wg) =>
        let s := s.modWg g.id fun x => { x with preempting := true }
        forEach (fun s x => if s.issuing x.1 || x.2.status.inRun then s.abandonRun x.1 else s) s (s.threadsOf g.id)) s ws
      .next ((s.evictLodges p q).returnQuad q)
  | none => .next s

end Sys2Proof.Machine
end

