-- ==== Sys2Proof/Machine/Reset.lean ====
section
/-! DEFINITION. Partition reset and its queues' replay, generations, the loss of cores and channels, and the rescaling of
minima (19_scheduling.md R289, R290, 21_faults.md R322, R323, R325, R327). -/

namespace Sys2Proof.Machine

/-! ### Translations (21_faults.md R322) -/

/-- TLBINV with a value: the partition's translations are dropped from every TLB; walks under way read their entries again
when they complete (R322). -/
def State.tlbInv (s : State) (p : Nat) (v : Word) : State :=
  let a := (s.creg p 0x1C).toNat % 2 ^ 25 * 2 ^ 32 + v.toNat / 2 ^ 16 * 2 ^ 16
  let hit := fun (e : TlbEntry) => e.part == p && (v.getLsbD 0 || (decide (e.base ≤ a) && decide (a < e.base + e.size)))
  { s with tlb := s.tlb.filter fun e => !hit e }

/-- TLBINV_WRITE (R322). -/
def execTlbinvWrite (part : Nat) (v : Word) (s : State) : Result := .next (s.tlbInv part v)

/-! ### What a partition has under way -/

/-- The threads, engine commands, walks and waits of some workgroups gone; they write nothing further (R323, R327). -/
def State.dropWork (s : State) (gone : Nat → Bool) (keepThreads : Bool) : State :=
  let cs := (s.copies.filter fun c => gone c.who.wg).map (·.id)
  let ids := cs ++ (s.loads.filter fun l => gone l.who.wg).map (·.id) ++ (s.stores.filter fun p => gone p.who.wg).map (·.id) ++
    (s.held.filter fun h => gone h.who.wg).map (·.id)
  let ts := (s.tgens.filter fun t => gone t.who.wg).map (·.id)
  let us := cs ++ ts ++ (s.tileOps.filter fun o => gone o.wg).map (·.id)
  let mine := fun (x : Remote) => match x.purpose with
    | .load i => ids.contains i
    | .store i => ids.contains i
    | .atom r _ _ _ _ => gone r.wg
    | .waita i => ids.contains i
    | .copy i _ => ids.contains i
    | .completion i => ids.contains i
    | .tgen i => ts.contains i
    | .cont _ _ => false
    | .far => s.fab.farReads.any fun y => y.req == x.id && us.contains y.owner
    | .fetch r _ _ => gone r.wg
  { s with
    threads := if keepThreads then s.threads else s.threads.filter fun x => !gone (x.1 / 1024),
    loads := s.loads.filter fun l => !gone l.who.wg,
    stores := s.stores.filter fun p => !gone p.who.wg,
    waiters := s.waiters.filter fun w => !gone w.who.wg,
    held := s.held.filter fun h => !gone h.who.wg,
    claims := s.claims.filter fun c => !gone c.2.wg,
    copies := s.copies.filter fun c => !gone c.who.wg,
    tileOps := s.tileOps.filter fun o => !gone o.wg,
    passHolds := s.passHolds.filter fun h => !gone h.was.wg,
    tgens := s.tgens.filter fun t => !gone t.who.wg,
    rvHolds := s.rvHolds.filter fun h => match h.who with
      | some (r, _, _) => !gone r.wg
      | none => true,
    lodgeWaits := s.lodgeWaits.filter fun w => !gone w.who.wg,
    walks := s.walks.map fun (w : Walk) => { w with who := w.who.filter fun x => !gone x.1.wg },
    fab := { s.fab with remotes := s.fab.remotes.filter fun x => !mine x,
                        farReads := s.fab.farReads.filter fun x => !us.contains x.owner,
                        rounds := s.fab.rounds.filter fun x => !cs.contains x.copy } }

/-- The scratchpad, accumulator, side memory and canopy of a quadrant zeroed (R323, 25_system.md R378). -/
def State.zeroQuad (s : State) (q : Nat) : State :=
  let s := (s.wipe (kScratch (q / 4) (q % 4 * 2 ^ 17)) (2 ^ 17)).stepRange (kCanopy q 0 0) (2 ^ 21)
  { s with mem := ((s.mem.zero (kAccum q 0) (2 ^ 18)).zero (kSide q 0) (2 ^ 15)).zero (kCanopy q 0 0) (2 ^ 21) }

/-! ### Generations (R289) -/

/-- The next value of G is blocked (R289). -/
def State.nextBlocked (s : State) (p : Nat) : Bool :=
  s.genBlocks.any fun b => b.part == p && b.gen == ((s.part p).gen + 1) % 1024

/-- A lodge of a partition that is reset: rebuilt from its mirror, or removed; event 4 says which (R323). -/
def State.resetLodge (s : State) (l : Lodge) : State :=
  let s := if l.placed then s.wipe l.key l.bytes else s
  let m := l.mirror.isSome
  let keep := m && l.named
  let s := if keep then s.modLodge l.id fun x => { x with st := .rebuild, pend := .none, running := none, dirty := false }
    else { s with lodges := s.lodges.filter fun x => x.id != l.id }
  if l.named then s.postEvent l.part 4 (eventAddr l.name ++ [if m then 1 else 0]) else s

/-- What a reset and a teardown have in common: a partition's work is discarded and its resources are zeroed (R323, steps
1, 2 and 4). -/
def State.discardWork (s : State) (p : Nat) : State :=
  let ws := (s.wgs.filter fun x => x.2.part == p).map (·.1)
  let es := ((s.wgs.map (·.2)).filter fun g => g.part == p).map fun g => (g.launch, g.ensid)
  let gone := fun (w : Nat) => ws.contains w
  let s := forEach (fun s r => s.dropFromQuad r) s ((s.threads.map fun x => TRef.ofKey x.1).filter fun r => gone r.wg)
  let s := forEach (fun s (g : Wg) => s.zeroWg g) s ((s.wgs.map (·.2)).filter fun g => g.part == p)
  let s := s.dropWork gone false
  let free : MazeSet → MazeSet := fun m =>
    if (m.held.map fun h => es.contains h) = some true then { m with held := none } else m
  let s := { s with mazes := s.mazes.filter fun m => decide (m.clus < 24) || !((m.held.map fun h => es.contains h).getD true) }
  let s := { s with
    wgs := s.wgs.filter fun x => x.2.part != p,
    walks := s.walks.filter fun w => w.part != p,
    tlb := s.tlb.filter fun e => e.part != p,
    affWaits := s.affWaits.filter fun a => ((s.launch a.launch).map (·.part)) != some p,
    mazes := s.mazes.map free }
  let s := forEach (fun s q => s.zeroQuad q) s (s.held' p)
  { s with rvOpen := s.rvOpen.filter fun k => s.wgs.any fun x => decide (x.2.base ≤ k) && decide (k < x.2.base + x.2.footprint) }

/-- The bytes of a partition's save area that have held images zeroed (R323, step 4); event 9 for a page of them that cannot be
written (R394). -/
def State.zeroSave (s : State) (p : Nat) : State :=
  let s := forEach (fun (s : State) (i : Nat) =>
    let a := (s.part p).savebase + BitVec.ofNat 64 (4096 * i)
    match s.agentAt p .store a with
    | some k => s.zeroRange k 4096
    | none => s.postMissing p a 2) s (List.range (((s.part p).saveTop + 4095) / 4096))
  s.modPart p fun x => { x with saveTop := 0 }

/-- PARTITION_RESET (R323). A reset whose new G would be a blocked value waits until that value is released (R289). -/
def State.resetPart (s : State) (p : Nat) : State :=
  if !(s.part p).defined then s
  else if s.nextBlocked p then s.modPart p fun x => { x with resetWait := true }
  else
    let s := (s.discardWork p).zeroSave p
    let old := (s.part p).gen
    let s := { s with genBlocks := s.genBlocks ++ [GenBlock.mk p old s.us] }
    let s := s.modPart p fun x =>
      { x with gen := (old + 1) % 1024, epoch := (x.epoch + 1) % 2 ^ 32, resetWait := false, pubs := [],
               tt := { x.tt with launch := none, deferred := false } }
    let s := forEach (fun s l => s.resetLodge l) s (s.lodges.filter fun l => l.part == p)
    let s := forEach (fun (s : State) q => s.replayQueue p q (s.openSlots p q ++ (alook q (s.part p).replayDue).getD [])) s (List.range 16)
    let s := ({ s with launches := s.launches.filter fun x => x.2.part != p } : State).dropPolls
    s.meterEvent 10 p (natLe 4 (s.part p).epoch)

/-- RESET_WRITE (R323). -/
def execResetWrite (part : Nat) (s : State) : Result := .next (s.resetPart part)
/-- HOST_RESET_REQUEST (R323). -/
def execHostResetRequest (part : Nat) (s : State) : Result := .next (s.resetPart part)

/-- DIE_RESET (R293, R323): event 5, and the partitions with a quadrant on the die are reset. -/
def execDieReset (die : Nat) (s : State) : Result :=
  let hit := (s.parts.filter fun x => x.2.defined && (s.held' x.1).any fun q => q / 384 == die).map (·.1)
  .next (forEach (fun s p => (s.postEvent p 5 [BitVec.ofNat 32 die]).resetPart p) s hit)

/-- GEN_QUARANTINE_RELEASE (R289): 4 ms after its reset, and once no agent holds a transaction of that value, a value of G
is free again. -/
def execGenQuarantineRelease (part : Nat) (g : Nat) (s : State) : Result :=
  match s.genBlocks.find? fun b => b.part == part && b.gen == g with
  | none => .next s
  | some b =>
    let used := s.walks.any (fun w => w.part == part && w.gen == g) || s.fab.remotes.any (fun x => x.part == part && x.gen == g)
    if s.us < b.since + 4000 ∨ (s.part part).gen = g ∨ used = true then .next s
    else
      let s := { s with genBlocks := s.genBlocks.filter fun x => !(x.part == part && x.gen == g) }
      if (s.part part).resetWait then .next (s.resetPart part) else .next s

/-! ### Minima (R290) -/

/-- A minimum scaled to what remains. -/
def scaled (m a t : Nat) : Nat := max 1 (m * a / t)

/-- The defined partitions. -/
def State.definedParts (s : State) : List Nat := (s.parts.filter fun x => x.2.defined).map (·.1)

/-- Partitions from the highest number downward suspended until the floors fit (R290). -/
def suspensions (a : Nat) (l : List (Nat × Nat)) : List Nat :=
  ((l.reverse.foldl (fun (acc : Nat × List Nat) x =>
    if a < acc.1 then (acc.1 - x.2, x.1 :: acc.2) else acc) ((l.map (·.2)).sum, [])).2)

/-- MINIMA_RESCALE (R290) of one resource: get and set give a partition's minimum, a is what remains. -/
def State.rescale (s : State) (a : Nat) (get : PartLimits → Nat) (set : PartLimits → Nat → PartLimits) : State :=
  let ps := s.definedParts
  let t := (ps.map fun p => get (s.part p).lim).sum
  if t ≤ a then s
  else
    let s := forEach (fun s p => s.modPart p fun x => { x with lim := set x.lim (scaled (get x.lim) a t) }) s ps
    let s := forEach (fun s p =>
      let l := (s.part p).lim
      (s.postEvent p 6 [BitVec.ofNat 32 l.min, BitVec.ofNat 32 l.urgent]).meterEvent 6 p (natLe 4 l.min ++ natLe 4 l.urgent)) s ps
    forEach (fun s p => s.modPart p fun x => { x with suspended := true }) s
      (suspensions a (ps.map fun p => (p, get (s.part p).lim)))

/-- Healthy quadrants. -/
def State.healthyQuads (s : State) : Nat := 768 - 4 * s.lostCores.length

/-- The minima of quadrants rescaled (R290). -/
def State.rescaleQuads (s : State) : State :=
  let t := (s.definedParts.map fun p => (s.part p).lim.min).sum
  s.rescale s.healthyQuads (·.min) fun l m => { l with min := m, urgent := min m (l.urgent * s.healthyQuads / t) }

/-- The home set of a partition changed: an idle quadrant goes to its home at once, another when it is reclaimed (R284). One of
a lost core is nobody's. -/
def State.setHome (s : State) (p : Nat) (home : List Nat) : State :=
  let old := (s.quads.filter fun q => q.2.home == some p && !home.contains q.1).map (·.1)
  let s := forEach (fun s q => s.modQuad q fun x =>
    { x with home := none, part := if s.idleQuad q || x.lostCore then none else x.part }) s old
  forEach (fun s q => s.modQuad q fun x =>
    { x with home := some p, part := if s.idleQuad q then some p else x.part }) s home

/-- A partition's home set as its limits and the quadrants have it. -/
def State.takeHome (s : State) (p : Nat) (home : List Nat) : State :=
  (s.modPart p fun x => { x with lim := { x.lim with home := home } }).setHome p home

/-- The home sets after a loss (R283, R290): a partition keeps as many of its healthy home quadrants as its MIN, and where it
has fewer it is given quadrants that are in no home set. DESIGN CHOICE (log entry 85): it keeps the first and is given the
lowest-numbered. -/
def State.rehome (s : State) : State :=
  let s := forEach (fun (s : State) (p : Nat) =>
    let l := (s.part p).lim
    s.takeHome p ((l.home.filter fun q => !(s.quad q).lostCore).take l.min)) s s.definedParts
  forEach (fun (s : State) (p : Nat) =>
    let l := (s.part p).lim
    let free := (List.range 768).filter fun q => (s.quad q).home.isNone && !(s.quad q).lostCore
    s.takeHome p (l.home ++ free.take (l.min - l.home.length))) s s.definedParts

/-- Healthy channels, and the HBM bytes and bytes per second that they give (02_organisation.md R17). -/
def State.healthyChannels (s : State) : Nat := 256 - s.retiredChannels.length

/-- The minima of HBM rescaled (R290). -/
def State.rescaleHbm (s : State) : State :=
  let s := s.rescale (s.healthyChannels * (hbmBytes / 256)) (·.hbmSize) fun l m => { l with hbmSize := m }
  s.rescale (s.healthyChannels * 102400000000) (·.hbmBw) fun l m => { l with hbmBw := m }

/-- MEMORY_CHANNEL_RETIRE (R290). -/
def execMemoryChannelRetire (chan : Nat) (s : State) : Result :=
  if 256 ≤ chan ∨ s.retiredChannels.contains chan = true then .next s
  else .next ({ s with retiredChannels := s.retiredChannels ++ [chan] }).rescaleHbm

/-! ### The loss of a core (R266, R327) -/

/-- CORE_RETIRE (R327) of cores that are lost together, a cluster's among them (R290): the workgroups of every ensemble with one
on a core are killed, with what they committed there, the cores' lodges go REBUILD or LOST, and minima are rescaled once. Saved
workgroups stay. -/
def State.loseCores (s : State) (cores : List Nat) : State :=
  let new := cores.filter fun c => decide (c < 192) && !(s.lostCores.contains c)
  if new.isEmpty then s
  else
    let there := fun (g : Wg) => new.contains (coreOfQuad g.quad)
    let hit := ((s.wgs.map (·.2)).filter fun g => there g && !g.saved && !g.ended).flatMap fun g => s.ensemble g
    let ids := (hit.map (·.id)).dedup
    let on := (hit.filter there).map (·.id)
    let s := s.dropWork (fun w => on.contains w) true
    let s := forEach (fun s w => s.killWg w) s ids
    let s := { s with lostCores := s.lostCores ++ new }
    let s := forEach (fun s q => s.modQuad q fun x => { x with lostCore := true }) s
      (new.flatMap fun c => (List.range 4).map fun i => c * 4 + i)
    (forEach (fun s c => s.loseLodges c) s new).rescaleQuads.rehome

/-- CORE_LOSS (R327): cores are lost, by fault or by management: one, or the eight of a cluster (R290). -/
def execCoreLoss (cores : List Nat) (s : State) : Result := .next (s.loseCores cores)

end Sys2Proof.Machine
end

