-- ==== Sys2Proof/Machine/Task.lean ====
section
/-! DEFINITION. The TASK instructions, continuation records and the host's doorbell (19_scheduling.md R291 to R301,
22_fabric_host.md R355). -/

namespace Sys2Proof.Machine

/-- A thread's register state changed between its runs: the run that it will start begins with the new state. -/
def State.between (s : State) (r : TRef) (f : Arch → Arch) : State :=
  s.modThread r fun t => { t with arch := f t.arch, run := Run.start (f t.arch) }

/-! ### LAUNCH and SIGNAL (R296, R297) -/

/-- LAUNCH: the packet copied into the queue. Answers whether it has been done; a structure that cannot be reached is
reported and tried again (R394). -/
def State.actLaunch (s : State) (h : HeldRun) (c : Cmd) : Bool × State :=
  let p := s.partOf h.who
  let q := (c.words.getD 0 0).toNat
  match c.loc with
  | some (.key k) =>
    if !(s.still h.who k 128) then (true, s.refuseCmd h c) else
    let s1 := s.writeBackAll h.core none
    (match s1.submit p q (s1.mem.readN k 128) with
    | .ok (w, s2) => (true, s2.arrive h.who h.seq [(c.d, { val := regN32 w })] .loads)
    | .error a => (false, s.postMissing p a 2))
  | _ => (true, s)

/-- SIGNAL: the operation on the word, and the evaluation of the waits on it (R277, R297). -/
def State.actSignal (s : State) (h : HeldRun) (c : Cmd) : Bool × State :=
  let p := s.partOf h.who
  let a := (c.words.getD 0 0).toNat
  let s1 := s.writeBackAll h.core none
  match s1.signal p (a % 2 ^ 16) (a / 2 ^ 16 % 4) (c.words.getD 1 0) with
  | some (w, s2) => (true, (s2.evalWaits p (some (a % 2 ^ 16))).arrive h.who h.seq [(c.d, { val := regN32 w })] .loads)
  | none => (false, s.postMissing p (s.sigAddr p (a % 2 ^ 16)) 2)

/-! ### CONT (R298) -/

/-- The launch of a thread. -/
def State.launchOf (s : State) (r : TRef) : Option Launch := (s.wg r.wg).bind fun g => s.launch g.launch

/-- Free records of a launch's task area that no committed CONT will take. -/
def State.contRoom (s : State) (l : Launch) : Nat :=
  ((List.range l.recSlots).filter fun i => s.recState l.part l.pkt.tasks i == some 0).length -
    (s.held.filter fun h => (h.cmd.map (·.op)) = some CmdOp.cont ∧ ((s.launchOf h.who).map (·.id)) = some l.id).length

/-- The record of a thread that ends itself with CONT (R291, R298). -/
def contRecord (a : Arch) (c : Cmd) : TaskRec :=
  let k := (c.words.getD 1 0).toNat % 4
  { rpc := a.pc, waddr := c.addr, wval := c.words.getD 0 0, wkind := k, pred := 128 + a.preds.toNat, state := 1,
    regs := (List.range 16).map fun i => a.reg i }

/-- What a launch keeps of a record's wait word: its place, where that is in scratchpad or on another module (R292). -/
def Launch.setCont (l : Launch) (i : Nat) (w : Option Loc) : Launch :=
  let l := { l with sigMet := l.sigMet.filter (· != i) }
  match w with
  | some (.key k) => { l with conts := if isScratch k then aput i (.key k) l.conts else adel i l.conts }
  | some x => { l with conts := aput i x l.conts }
  | none => { l with conts := adel i l.conts }

/-- CONT: the record is written once no write to v0 to v15 is outstanding, and the thread ends (R298). -/
def State.actCont (s : State) (h : HeldRun) (c : Cmd) : Bool × State :=
  match s.thread h.who, s.launchOf h.who with
  | some t, some l =>
    if t.status = .exited then (true, s)
    else if t.busy.any fun x => decide (x < 16) then (false, s)
    else match s.freeRec l.part l.pkt.tasks l.recSlots with
      | none => (false, match s.areaLost l.part l.pkt.tasks l.recSlots with
        | some a => s.postMissing l.part a 2
        | none => s)
      | some i =>
        let s1 := s.writeBackAll h.core none
        (match s1.agentWrite l.part (recAddr l.pkt.tasks i) (contRecord t.arch c).bytes with
        | none => (false, s.postMissing l.part (recAddr l.pkt.tasks i) 2)
        | some s2 => (true, ((s2.modLaunch l.id fun x => x.setCont i c.loc).evalRec l i none).endThread h.who))
  | _, _ => (true, s)

/-- A word of scratchpad is in the hands of a partition: a workgroup or a lodge of it holds it. -/
def State.holdsWord (s : State) (p k : Nat) : Bool :=
  s.wgs.any (fun x => x.2.part == p && x.2.holds k 4) ||
    s.lodges.any fun l => l.part == p && l.placed && decide (l.key ≤ k) && decide (k + 4 ≤ l.key + l.bytes)

/-- The value meets a record's condition on a word (R291). -/
def TaskRec.meets (x : TaskRec) (m : Nat) : Bool := if x.wkind = 0 then m == x.wval.toNat else decide (x.wval.toNat ≤ m)

/-- A record's condition (R292): a word as WAITA at DV scope reads it, or a signal word as its last evaluations found it (R277). That of a word on another module is
seen by a read (State.contSeen). -/
def State.recHolds (s : State) (l : Launch) (i : Nat) (x : TaskRec) : Bool :=
  if x.wkind = 2 then l.sigMet.contains i
  else match alook i l.conts with
    | some (.key k) => s.holdsWord l.part k && !(s.isPoisoned k) && x.meets (leNat (s.mem.readN k 4))
    | some (.remote _ _) => false
    | none => ((s.agentNat l.part x.waddr 4).map x.meets).getD false

/-- A waiting record becomes ready (R292). -/
def State.recReady (s : State) (l : Launch) (i : Nat) : State :=
  match s.setRecState l.part l.pkt.tasks i 2 with
  | some s => s.modLaunch l.id fun y => { y with ready := y.ready ++ [i], sigMet := y.sigMet.filter (· != i) }
  | none => s.postMissing l.part (recAddr l.pkt.tasks i) 2

/-- The word that a record waits for on another module is read, unless a read of it is under way. -/
def State.contPoll (s : State) (l : Launch) (i : Nat) : State :=
  match alook i l.conts with
  | some (.remote m pa) =>
    if s.fab.remotes.any fun x => x.purpose == .cont l.id i then s
    else
      let (j, s) := s.takeId
      s.addRemote { id := j, purpose := .cont l.id i, part := l.part, mod := m, type := 1, paddr := pa, body := [4] }
  | _ => s

/-- A read of such a word has returned: status 0 with its bytes. -/
def State.contSeen (s : State) (id i status : Nat) (data : List Byte) : State :=
  match s.launch id with
  | none => s
  | some l => match s.agentRead l.part (recAddr l.pkt.tasks i) 128 with
    | none => s.postMissing l.part (recAddr l.pkt.tasks i) 2
    | some b => if status = 0 ∧ (TaskRec.parse b).state = 1 ∧ (TaskRec.parse b).meets (leNat data) = true then s.recReady l i else s

/-- CONT_RECORD_READY (R292): a waiting record whose condition holds becomes ready. -/
def execContRecordReady (l : Nat) (r : Nat) (s : State) : Result :=
  match s.launch l with
  | none => .next s
  | some x =>
    if x.recSlots ≤ r then .next s
    else match s.agentRead x.part (recAddr x.pkt.tasks r) 128 with
      | none => .next (s.postMissing x.part (recAddr x.pkt.tasks r) 2)
      | some b =>
        let k := TaskRec.parse b
        if k.state ≠ 1 then .next s
        else if s.recHolds x r k then .next (s.recReady x r)
        else if k.wkind = 2 then .next s
        else .next (s.contPoll x r)

/-! ### TAKE (R299) -/

/-- The area a TAKE reads, its slots and the records that became ready in it, oldest first. -/
def State.takeSource (s : State) (r : TRef) (mode : Word) : DWord × Nat × List Nat :=
  let p := s.part (s.partOf r)
  if mode.getLsbD 1 then (p.evqBase, p.evqSlots, p.evReady)
  else match s.launchOf r with
    | some l => (l.pkt.tasks, l.recSlots, l.ready)
    | none => (0, 0, [])

/-- The ready records of an area, oldest-ready first: those that became ready there as far as their RSTATE still says so, then
any other whose RSTATE does. -/
def State.readyRecs (s : State) (p : Nat) (area : DWord) (n : Nat) (listed : List Nat) : List Nat :=
  let isReady := fun (i : Nat) => area != 0 && s.recState p area i == some 2
  let l := listed.filter fun i => decide (i < n) && isReady i
  l ++ (List.range n).filter fun i => isReady i && !(l.contains i)

/-- A record of the source waits (R299). -/
def State.someWaiting (s : State) (p : Nat) (area : DWord) (n : Nat) : Bool :=
  area != 0 && (List.range n).any fun i => s.recState p area i == some 1

/-- A thread with a record's registers and predicates, at its RPC (R299); bit 0 of a PC is always 0 (03_encodings.md R25). -/
def Arch.loadRec (a : Arch) (x : TaskRec) (allot d : Nat) : Arch :=
  let a := (x.regs.zipIdx.filter fun y => decide (y.2 < allot)).foldl (fun a y => a.setReg y.2 y.1) a
  let a := { a with preds := BitVec.ofNat 7 x.pred, fflags := 0, ix := 0, rstack := [], pc := x.rpc &&& ~~~1, lpad := none }
  a.setPred d true

/-- A record taken out of its source. -/
def State.dropReady (s : State) (r : TRef) (mode : Word) (i : Nat) : State :=
  if mode.getLsbD 1 then s.modPart (s.partOf r) fun p => { p with evReady := p.evReady.erase i }
  else match s.launchOf r with
    | some l => s.modLaunch l.id fun y => { y with ready := y.ready.erase i }
    | none => s

/-- TAKE (R299). It parks where WAIT asks for it and a record waits, and follows the earlier writes to v0 to v15. -/
def State.actTake (s : State) (h : HeldRun) (c : Cmd) : Bool × State :=
  let r := h.who
  let p := s.partOf r
  let mode := c.words.getD 0 0
  let (area, n, listed) := s.takeSource r mode
  match s.thread r, s.wg r.wg with
  | some t, some g =>
    if t.status = .exited then (true, s)
    else if t.busy.any fun x => decide (x < 16) then (false, s)
    else match (if area = 0 then none else s.areaLost p area n) with
    | some a => (false, s.postMissing p a 2)
    | none => match s.readyRecs p area n listed with
    | [] =>
      if mode.getLsbD 0 && s.someWaiting p area n then
        (false, s.modThread r fun t => { t with status := .parked .take })
      else (true, s.writePred r h.seq c.d false)
    | i :: _ => (match s.agentRead p (recAddr area i) 128 with
      | none => (false, s.postMissing p (recAddr area i) 2)
      | some b => (match s.setRecState p area i 0 with
        | none => (false, s.postMissing p (recAddr area i) 2)
        | some s =>
          let s := (s.dropReady r mode i).acquire h.core .dv
          (true, s.between r fun a => a.loadRec (TaskRec.parse b) (allotOf r g) c.d)))
  | _, _ => (true, s)

/-! ### IDEM regions (R300) -/

/-- IDEM.BEGIN and IDEM.END, at their run's commit: nothing without IDEMOK. -/
def State.actIdem (s : State) (h : HeldRun) (c : Cmd) : State :=
  match s.wg h.who.wg with
  | none => s
  | some g =>
    let new := if c.op = .idemBegin then some c.addr else none
    if g.idemok then (s.note (some h.id) (.idem g.id g.idem new)).modWg g.id fun x => { x with idem := new } else s

/-- A TASK instruction acts at its release. -/
def State.actTask (s : State) (h : HeldRun) (c : Cmd) : Bool × State :=
  match c.op with
  | .launch => s.actLaunch h c
  | .signal => s.actSignal h c
  | .cont => s.actCont h c
  | .take => s.actTake h c
  | _ => (true, s)

/-! ### The TASK instructions when they are issued (R295) -/

/-- launch (R296). -/
def execLaunch (d : Nat) (a : Nat) (b : Nat) (s : State) : Result :=
  commitForm { reads := [a, b], writes := [d], cls := .loads } (fun r t g s =>
    let w := (t.arch.reg a).bits
    match s.blockAt r w 128 128 .blockRead with
    | .error f => .fault f
    | .ok k =>
      if !((s.ensemble g).any fun h => h.holds k 128) && !(s.mayScratch g k 128) then .fault (faultAt .prot (w.setWidth 64) .blockRead true)
      else if 15 < (t.arch.reg b).bits.toNat then .fault (plainFault .queue)
      else .ok { op := .launch, d := d, words := [(t.arch.reg b).bits], loc := some (.key k), dests := [d], cls := .loads }) s

/-- signal (R297). -/
def execSignal (d : Nat) (a : Nat) (b : Nat) (s : State) : Result :=
  commitForm { reads := [a, b], writes := [d], cls := .loads } (fun _ t _ _ =>
    let x := (t.arch.reg a).bits.toNat
    if x / 2 ^ 18 ≠ 0 ∨ x / 2 ^ 16 % 4 = 3 then .fault (plainFault .queue)
    else .ok { op := .signal, d := d, words := [(t.arch.reg a).bits, (t.arch.reg b).bits], dests := [d], cls := .loads }) s

/-- cont (R298): the wait address is checked like that of a load; where CONT may not stand, QUEUE. -/
def execCont (a : Nat) (b : Nat) (s : State) : Result :=
  commitForm { reads := [a, a + 1, b, b + 1] } (fun r t g s =>
    let x := t.arch.pair a
    let k := (t.arch.reg (b + 1)).bits
    let ok := g.persist && k.toNat < 3 && (match s.launchOf r with
      | some l => l.pkt.tasks != 0
      | none => false)
    let fin := fun (l : Option Loc) => if ok then Cap.ok { op := .cont, words := [(t.arch.reg b).bits, k], addr := x, loc := l }
      else .fault (plainFault .queue)
    if k.toNat % 4 < 2 then
      match s.reach r x 4 .load none false with
      | .fault f => .fault f
      | .miss => .miss x .load
      | .ok l => fin (some l)
    else fin none) s

/-- take (R299): PRIV for the privileged queue outside supervisor mode, then QUEUE. -/
def execTake (d : Nat) (a : Nat) (s : State) : Result :=
  commitForm { reads := [a] } (fun _ t g _ =>
    let m := (t.arch.reg a).bits
    if m.getLsbD 1 && !t.arch.sup then .fault (plainFault .priv)
    else if m.toNat / 4 ≠ 0 ∨ (m.getLsbD 1 = false ∧ g.persist = false) then .fault (plainFault .queue)
    else .ok { op := .take, d := d, words := [m] }) s

/-- idem.begin (R300): the restart address must hold lpad with label 0. -/
def execIdemBegin (a : Nat) (s : State) : Result :=
  commitForm { reads := [a, a + 1] } (fun r t g s =>
    let x := t.arch.pair a
    let c : Cmd := { op := .idemBegin, addr := x }
    if !g.idemok then .ok c
    else if x.getLsbD 0 then .fault (faultAt .align x .fetch false)
    else match s.fetchUnit r x, s.fetchUnit r (x + 2) with
      | .fault f, _ => .fault f
      | .miss, _ => .miss x .fetch
      | .ok lo _, .ok hi _ => if isLpad lo.toNat hi.toNat 0 then .ok c else .fault (plainFault .cfi)
      | .ok lo _, y => if lo.getLsbD 0 then (match y with
          | .fault f => .fault f
          | _ => .miss (x + 2) .fetch) else .fault (plainFault .cfi)) s

/-- idem.end (R300). -/
def execIdemEnd (s : State) : Result := commitForm {} (fun _ _ _ _ => .ok { op := .idemEnd }) s

/-! ### The doorbell (R355) -/

/-- DOORBELL (R355): WRITE becomes the value where it lies among the claimed slots; otherwise the write is counted. The
waits are evaluated in either case (R277). -/
def execDoorbell (part : Nat) (q : Nat) (v : Word) (s : State) : Result :=
  if !(s.part part).defined ∨ 16 ≤ q then .next s
  else
    let count := fun (s : State) =>
      { s with fab := { s.fab with doorbellIgnored := aput part ((alook part s.fab.doorbellIgnored).getD 0 + 1) s.fab.doorbellIgnored } }
    let s := match s.queueAt part q with
      | none => s.postMissing part (s.qAddr part q) 2
      | some b =>
        if (v - b.write).toNat ≤ (b.resv - b.write).toNat then
          match s.setQWord part q 0x10 v with
          | some s => s.publish ((s.part part).pubs.length + 1) part q
          | none => s.postMissing part (s.qAddr part q) 2
        else count s
    .next (s.evalWaits part none)

end Sys2Proof.Machine
end

