-- ==== Sys2Proof/Machine/Priv.lean ====
section
/-! DEFINITION. Control registers, trap frames, halting, resuming and killing threads, TRAP and BKPT, and the watchdog
(21_faults.md R305 to R317). -/

namespace Sys2Proof.Machine

/-! ### Control registers (R310) -/

/-- The low words of the pairs (R310). -/
def isPairLow (n : Nat) : Bool :=
  n == 0x04 || n == 0x06 || n == 0x08 || n == 0x0C || n == 0x0E || n == 0x10 || n == 0x12 || n == 0x14 || n == 0x16 ||
    n == 0x1A || n == 0x21
/-- The single registers that are read and written (R310). -/
def isPlainCreg (n : Nat) : Bool := n == 0x0A || n == 0x0B || n == 0x18 || n == 0x19 || n == 0x1C

/-- ECCCE (R310, R330). DESIGN CHOICE (log entry 107): beside the errors that the patrol scrub has corrected, the count has risen since
it was last read by a free number, of those that SRAM ECC and demand reads of HBM have corrected. -/
def State.eccRead (s : State) (p : Nat) : Word × State :=
  let (n, s) := s.takeFresh
  let v := (s.part p).eccce + Config.freeChoice n
  (BitVec.ofNat 32 v, s.modPart p fun x => { x with eccce := v })

/-- A control register's value (R310). A register that the table gives for writing only, and a core that does not exist,
have no stated value: a free value. -/
def State.cregRead (s : State) (p n : Nat) (i : Word) : Word × State :=
  let x := s.part p
  let free := (Config.freeBits s.fresh, (s.takeFresh).2)
  if n = 0x00 then (BitVec.ofNat 32 p, s)
  else if n = 0x01 then (BitVec.ofNat 32 x.gen, s)
  else if n = 0x02 then (BitVec.ofNat 32 x.epoch, s)
  else if n = 0x03 then (if s.holdsQuad p i.toNat false then BitVec.ofNat 32 (s.quad i.toNat).age else 0, s)
  else if n = 0x1D ∨ n = 0x20 then free
  else if n = 0x1E then (if i.toNat < 192 then (BitVec.ofNat 32 ((alook i.toNat s.strikes).getD 0), s) else free)
  else if n = 0x1F then s.eccRead p
  else if isPairLow n then ((alook n x.low).getD (x.creg n), s)
  else if isPairLow (n - 1) || isPlainCreg n then (x.creg n, s)
  else (0, s)

/-- AGE as it is kept (07_execution.md R116). -/
def clampAge (v : Nat) : Nat := max 16 (min v 1024)

/-- The bits of a single register that the table of R310 gives; the others read 0 and ignore writes (00_scope.md R5). -/
def cregMask (n : Nat) : Word :=
  if n = 0x0A ∨ n = 0x0B then 1 else if n = 0x18 then 15 else if n = 0x1C then 0x1FFFFFF else 0xFFFFFFFF

/-- A control register written (R310). A pair takes effect when its high word is written. Writing PTBASE invalidates the
partition's translations (R322). A time-triggered table that is turned on starts at its first entry (R294). -/
def State.cregWrite (s : State) (p n : Nat) (i v : Word) : State :=
  if n = 0x03 then (if s.holdsQuad p i.toNat false then s.modQuad i.toNat fun q => { q with age := clampAge v.toNat } else s)
  else if n = 0x1D then s.tlbInv p v
  else if n = 0x20 then (if v = 1 then s.resetPart p else s)
  else if isPairLow n then s.modPart p fun x => { x with low := aput n v x.low }
  else if isPairLow (n - 1) && decide (0 < n) then
    let s := s.modPart p fun x =>
      let c := match alook (n - 1) x.low with
        | some w => aput (n - 1) w x.cregs
        | none => x.cregs
      { x with cregs := aput n v c, low := adel (n - 1) x.low }
    if n = 0x11 then s.tlbInv p 1 else s
  else if isPlainCreg n then s.modPart p fun x =>
    let on := n == 0x0A && v.getLsbD 0 && !((alook n x.cregs).getD 0).getLsbD 0
    { x with cregs := aput n (v &&& cregMask n) x.cregs, tt := if on then { x.tt with entry := 0, ends := 0, deferred := false } else x.tt }
  else s

/-- The control registers of a partition that has just been defined (R308, R310). -/
def cregsAtDefine : List (Nat × Word) := [(0x0B, 1), (0x19, 1000)]

/-! ### Frames (R305, R312) -/

/-- STATE of a thread (R305). -/
def Thread.stateNum (t : Thread) : Nat :=
  match t.status with
  | .exited => 3
  | .halted => 2
  | _ => if t.arch.depth = 0 then 0 else 1

/-- A thread's frame; one that has none is given as its state stands (R312). -/
def Thread.frame (t : Thread) : Frame := t.arch.frame.getD (t.arch.toFrame none 0 t.arch.alone t.seq)

def lowWord (v : DWord) : Word := v.setWidth 32
def highWord (v : DWord) : Word := (v >>> 32).setWidth 32
def setLow (v : DWord) (w : Word) : DWord := highWord v ++ w
def setHigh (v : DWord) (w : Word) : DWord := w ++ lowWord v

/-- The number of a rounding mode's code (04_numbers.md R66). -/
def rmCode (m : Rm) : Nat := ((List.range 8).find? fun c => rmField c == some m && c != 0).getD 0

/-- A frame item as TRAPRD reads it (R305). -/
def Frame.item (f : Frame) (n : Nat) (allot st : Nat) : Word :=
  let cause := match f.fault with
    | some x => x.cause
    | none => 0
  let addr := match f.fault with
    | some x => x.addr
    | none => 0
  if n = 0x00 then cause
  else if n = 0x01 then lowWord f.pc
  else if n = 0x02 then highWord f.pc
  else if n = 0x03 then BitVec.ofNat 32 f.foff
  else if n = 0x04 then lowWord addr
  else if n = 0x05 then highWord addr
  else if n = 0x06 then (match f.fault with
    | some x => x.info
    | none => 0)
  else if n = 0x07 then f.preds.setWidth 32
  else if n = 0x08 then f.ix.setWidth 32
  else if n = 0x09 then flagsWord f.fflags
  else if n = 0x0A then BitVec.ofNat 32 (rmCode f.rm)
  else if n = 0x0B then BitVec.ofNat 32 f.xcount
  else if n = 0x0C then BitVec.ofNat 32 st
  else if n = 0x0D then (if f.sup then 1 else 0)
  else if n = 0x0E then BitVec.ofNat 32 f.rstack.length
  else if n = 0x10 then (if f.ix.toNat < allot then (f.regs.get f.ix.toNat).val.bits else 0)
  else if n = 0x11 then (if f.ix.toNat < allot then (f.regs.get f.ix.toNat).val.tag.setWidth 32 else 0)
  else if n = 0x12 then lowWord (f.rstack.getD f.ix.toNat 0)
  else if n = 0x13 then highWord (f.rstack.getD f.ix.toNat 0)
  else 0

/-- A frame with an item written by TRAPWR (R305). A register written loses its poison mark (08_memory.md R141). supv
says that the launch has SUPV set. -/
def Frame.setItem (f : Frame) (n : Nat) (v : Word) (allot : Nat) (supv : Bool) : Frame :=
  let i := f.ix.toNat
  if n = 0x01 then (if v.getLsbD 0 then f else { f with pc := setLow f.pc v, lpad := none })
  else if n = 0x02 then { f with pc := setHigh f.pc v, lpad := none }
  else if n = 0x07 then { f with preds := v.setWidth 7 }
  else if n = 0x08 then { f with ix := v.setWidth 16 }
  else if n = 0x09 then { f with fflags := flagsOfWord v }
  else if n = 0x0A then
    let c := v.toNat % 8
    if c = 0 then f else (match rmField c with
      | some m => { f with rm := m }
      | none => f)
  else if n = 0x0B then { f with xcount := v.toNat }
  else if n = 0x0D then (if supv then { f with sup := v.getLsbD 0 } else f)
  else if n = 0x10 then
    if i < allot then { f with regs := f.regs.set i { val := { (f.regs.get i).val with bits := v } } } else f
  else if n = 0x11 then
    if i < allot ∧ validTag (v.toNat % 2 ^ 16) = true then
      { f with regs := f.regs.set i { val := { (f.regs.get i).val with tag := v.setWidth 16 } } } else f
  else if n = 0x12 ∧ i < f.rstack.length then { f with rstack := f.rstack.set i (setLow (f.rstack.getD i 0) v) }
  else if n = 0x13 ∧ i < f.rstack.length then { f with rstack := f.rstack.set i (setHigh (f.rstack.getD i 0) v) }
  else f

/-- A thread's frame changed, in its present state and in every state kept from a run's start. -/
def State.modFrame (s : State) (r : TRef) (g : Frame → Frame) : State :=
  let f := fun (fr : Frame) (a : Arch) => { a with frame := some (g (a.frame.getD fr)) }
  match s.thread r with
  | none => s
  | some t =>
    let fr := t.frame
    let s := s.setThread r { t with arch := f fr t.arch, run := { t.run with snap := f fr t.run.snap } }
    { s with held := s.held.map fun (h : HeldRun) =>
        if h.who = r ∧ h.snap.frame.isSome then { h with snap := f fr h.snap } else h }

/-! ### Stopping, resuming and killing (R313, R316) -/

/-- The TAKE of a parked thread and its run's start (R299). -/
def State.takeOf (s : State) (r : TRef) : Option HeldRun :=
  s.held.find? fun h => h.who == r && (h.cmd.map Cmd.op) == some CmdOp.take

/-- A thread stopped: at once where it is between runs or waits inside one, whose run is then discarded, and at its next
run boundary where it issues or awaits its release. Answers whether it has stopped. -/
def State.stopThread (s : State) (r : TRef) (f : Option FaultInfo) : Bool × State :=
  match s.thread r with
  | none => (true, s)
  | some t =>
    let later := (false, s.setThread r { t with stop := some f })
    match t.status with
    | .exited => (true, s)
    | .halted => (true, s)
    | .running => later
    | .awaiting _ => later
    | .parked .take =>
      let s := match s.takeOf r with
        | some h => { s.between r (fun _ => h.snap) with held := s.held.filter fun x => x.id != h.id }
        | none => s
      (true, s.haltThread r f)
    | _ =>
      let s := if t.status.inRun then s.dropRun r else s
      (true, s.haltThread r f)

/-- Threads stopped one after another: those that have stopped, and those that will. -/
def State.stopAll (s : State) (rs : List TRef) (f : Option FaultInfo) : List TRef × List TRef × State :=
  rs.foldl (fun acc r =>
    let (now, s) := acc.2.2.stopThread r f
    if now then (acc.1 ++ [r], acc.2.1, s) else (acc.1, acc.2.1 ++ [r], s)) ([], [], s)

/-- The execute threads of a workgroup. -/
def State.execThreads (s : State) (w : Nat) : List (TRef × Thread) := (s.threadsOf w).filter fun x => !x.1.acc

/-- The threads that RESUME and KILL name (R313). -/
def State.named (s : State) (me : TRef) (v : Word) : List (TRef × Thread) :=
  if v = 0xFFFFFFFF then (s.execThreads me.wg).filter fun x => x.1 != me
  else (s.execThreads me.wg).filter fun x => x.1.tid == v.toNat

/-- Threads killed: each ends; a workgroup whose last thread is killed ends with its launch's CODE KILLED (R313). -/
def State.killThreads (s : State) (w : Nat) (rs : List TRef) : State :=
  let s := forEach (fun (s : State) r =>
    let s := { s with held := s.held.filter fun h => !(h.who == r && (match h.cmd.map Cmd.op with
      | some CmdOp.take => true
      | some CmdOp.cont => true
      | _ => false)) }
    (s.discardRun r).endThread r) s rs
  if !rs.isEmpty && (s.execThreads w).all fun x => x.2.status = .exited then
    (s.modLaunch (((s.wg w).map (·.launch)).getD 0) fun l => { l with killed := true }).abortWork w
  else s

/-- A RESUME restarts the workgroup's timer and ends its grace period (R317); no discarded run takes that back. -/
def State.restartTimer (s : State) (w : Nat) : State :=
  ({ s with undo := s.undo.filter fun u => match u.item with
      | .timer x _ => x != w
      | _ => true } : State).modWg w fun g => { g with timer := 0, fired := false, grace := none }

/-! ### The PRIV and SYS forms at their release (R307, R310 to R313) -/

/-- A count or a value written to D. -/
def State.privReply (s : State) (h : HeldRun) (c : Cmd) (v : Word) : State :=
  s.arrive h.who h.seq [(c.d, { val := regN32 v })] .loads

/-- The command of a held run replaced. -/
def State.setHeldCmd (s : State) (id : Nat) (c : Cmd) : State :=
  { s with held := s.held.map fun (h : HeldRun) => if h.id = id then { h with cmd := some c } else h }

/-- CREAD and CWRITE act as FENCE.SC at DV scope does (R311). -/
def State.privFence (s : State) (h : HeldRun) : State := (s.writeBackAll h.core none).acquire h.core .dv

/-- HALTWG (R313): its words are empty at first; then the number stopped, and the threads still to stop. -/
def State.actHaltwg (s : State) (h : HeldRun) (c : Cmd) : Bool × State :=
  let at' := fun (w : Word) => TRef.mk h.who.wg w.toNat false
  match c.words with
  | [] =>
    let ts := ((s.execThreads h.who.wg).filter fun x => x.1 != h.who && x.2.stateNum == 0).map (·.1)
    let (now, later, s) := s.stopAll ts none
    if later.isEmpty then (true, s.privReply h c (BitVec.ofNat 32 now.length))
    else (false, s.setHeldCmd h.id { c with words := BitVec.ofNat 32 now.length :: later.map fun r => BitVec.ofNat 32 r.tid })
  | n :: ws =>
    let ts := ws.filterMap fun w => s.thread (at' w)
    if ts.any fun t => t.stop.isSome && t.status ≠ .exited then (false, s)
    else (true, s.privReply h c (n + BitVec.ofNat 32 (ts.filter fun t => t.status = .halted).length))

/-- TRAPRD and TRAPWR (R312): a running target is halted first. -/
def State.actFrame (s : State) (h : HeldRun) (c : Cmd) (item : Nat) (write : Bool) : Bool × State :=
  let tid := (c.words.getD 0 0).toNat
  let v := c.words.getD 1 0
  match s.wg h.who.wg with
  | none => (true, s)
  | some g =>
    let r : TRef := { wg := h.who.wg, tid := tid }
    let act := fun (s : State) => match s.thread r with
      | none => s
      | some t =>
        if write then (if t.stateNum = 3 then s else s.modFrame r fun f => f.setItem item v g.allot g.supv)
        else s.privReply h c (t.frame.item item g.allot t.stateNum)
    if g.nthr ≤ tid then (true, if write then s else s.privReply h c 0)
    else match s.thread r with
      | none => (true, if write then s else s.privReply h c 0)
      | some t =>
        if r ≠ h.who ∧ t.stateNum = 0 then
          if t.stop.isSome then (false, s)
          else
            let (now, s) := s.stopThread r none
            if now then (true, act s) else (false, s)
        else (true, act s)

/-- RESUME (R313): the named threads in STATE 2 take their state from their frames; the issuer in its handler resumes in
the same way. -/
def State.actResume (s : State) (h : HeldRun) (c : Cmd) : State :=
  let v := c.words.getD 0 0
  let ts := ((s.named h.who v).filter fun x => x.1 != h.who && x.2.stateNum == 2).map (·.1)
  let me := (s.named h.who v).any fun x => x.1 == h.who && x.2.stateNum == 1
  let s := s.restartTimer h.who.wg
  let s := forEach (fun s r => s.returnFromTrap r) s ts
  let s := s.privReply h c (BitVec.ofNat 32 (ts.length + if me then 1 else 0))
  if me then s.returnFromTrap h.who else s

/-- KILL (R313). -/
def State.actKill (s : State) (h : HeldRun) (c : Cmd) : State :=
  let ts := ((s.named h.who (c.words.getD 0 0)).filter fun x => x.2.status ≠ .exited).map (·.1)
  let s := s.privReply h c (BitVec.ofNat 32 ts.length)
  s.killThreads h.who.wg ts

/-- TRAP and BKPT (R307, R308): the thread faults at the start of its next run. -/
def State.actTrap (s : State) (h : HeldRun) (c : Cmd) (code : Code) (n : Nat) : State :=
  s.modThread h.who fun t =>
    { t with deferred := some (t.deferred.getD { code := code, arg := n, addr := c.pc }) }

/-- A PRIV or SYS instruction acts at its release; answers whether it has. -/
def State.actPriv (s : State) (h : HeldRun) (c : Cmd) : Bool × State :=
  let p := s.partOf h.who
  match c.op with
  | .trap n => (true, s.actTrap h c .trapi n)
  | .bkpt n => (true, if (s.creg p 0x0B).getLsbD 0 then s.actTrap h c .bkpt n else s)
  | .cread n =>
    let s := s.privFence h
    let (v, s) := s.cregRead p n (c.words.getD 0 0)
    (true, s.privReply h c v)
  | .cwrite n =>
    let s := s.privFence h
    let s := s.cregWrite p n (c.words.getD 0 0) (c.words.getD 1 0)
    (true, if c.cls = .stores then s.uncount h.who .stores else s)
  | .traprd i => s.actFrame h c i false
  | .trapwr i => s.actFrame h c i true
  | .haltwg => s.actHaltwg h c
  | .resume => (true, s.actResume h c)
  | .kill => (true, s.actKill h c)
  | _ => (true, s)

/-! ### The PRIV and SYS instructions when they are issued -/

/-- A PRIV instruction (R310). -/
def privForm (u : Use) (f : Arch → Cmd) (s : State) : Result :=
  commitForm { u with priv := true } (fun _ t _ _ => .ok (f t.arch)) s

/-- Whether the table of R310 names an index for a control register. -/
def cregIndexed (n : Nat) : Bool := n == 0x03 || n == 0x1E

/-- trap (R307). -/
def execTrap (c : Nat) (s : State) : Result := commitForm {} (fun _ _ _ _ => .ok { op := .trap c }) s
/-- bkpt (R307, R308). -/
def execBkpt (c : Nat) (s : State) : Result := commitForm {} (fun _ _ _ _ => .ok { op := .bkpt c }) s
/-- cread (R310, R311). A is ignored except where the table names an index (R30). -/
def execCread (d : Nat) (a : Nat) (n : Nat) (s : State) : Result :=
  privForm { reads := if cregIndexed n then [a] else [], writes := [d], cls := .loads } (fun q =>
    { op := .cread n, d := d, words := [(q.reg a).bits], dests := [d], cls := .loads }) s
/-- cwrite (R310, R311, R322). -/
def execCwrite (d : Nat) (a : Nat) (n : Nat) (s : State) : Result :=
  let cls : Cls := if n = 0x1D then .stores else .none
  privForm { reads := if cregIndexed n then [a, d] else [d], cls := cls } (fun q =>
    { op := .cwrite n, words := [(q.reg a).bits, (q.reg d).bits], cls := cls }) s
/-- traprd (R312). -/
def execTraprd (d : Nat) (a : Nat) (n : Nat) (s : State) : Result :=
  privForm { reads := [a], writes := [d], cls := .loads } (fun q =>
    { op := .traprd n, d := d, words := [(q.reg a).bits], dests := [d], cls := .loads }) s
/-- trapwr (R312). -/
def execTrapwr (d : Nat) (a : Nat) (n : Nat) (s : State) : Result :=
  privForm { reads := [a, d] } (fun q => { op := .trapwr n, words := [(q.reg a).bits, (q.reg d).bits] }) s
/-- haltwg (R313). A and I are ignored. -/
def execHaltwg (d : Nat) (_a : Nat) (_n : Nat) (s : State) : Result :=
  privForm { writes := [d], cls := .loads } (fun _ => { op := .haltwg, d := d, dests := [d], cls := .loads }) s
/-- resume (R313). I is ignored. -/
def execResume (d : Nat) (a : Nat) (_n : Nat) (s : State) : Result :=
  privForm { reads := [a], writes := [d], cls := .loads } (fun q =>
    { op := .resume, d := d, words := [(q.reg a).bits], dests := [d], cls := .loads }) s
/-- kill (R313). I is ignored. -/
def execKill (d : Nat) (a : Nat) (_n : Nat) (s : State) : Result :=
  privForm { reads := [a], writes := [d], cls := .loads } (fun q =>
    { op := .kill, d := d, words := [(q.reg a).bits], dests := [d], cls := .loads }) s

/-! ### The watchdog (R315 to R317) -/

/-- The timer of a workgroup has reached LIMIT (R315). -/
def Wg.due (g : Wg) : Bool := g.started && !g.saved && !g.ended && g.limit != 0 && !g.fired && decide (g.limit ≤ g.timer)

/-- Steps 2 and 3 of R316, once every thread of step 1 has stopped: where none is in its handler, the lowest-numbered of those
that step 1 halted enters it; event 7 is posted. -/
def State.watchSettle (s : State) (w : Nat) (g : Wg) : State :=
  let s := s.modWg w fun x => { x with stopped := [] }
  let at' := fun (t : Nat) => TRef.mk w t false
  let s := if (s.execThreads w).any (fun x => x.2.stateNum == 1) then s
    else match g.stopped.find? fun t => ((s.thread (at' t)).map (·.status)) == some .halted with
      | none => s
      | some t => match (s.thread (at' t)).bind (·.arch.frame) with
        | some fr => (match fr.fault with
          | some f => s.enterHandler (at' t) f fr
          | none => s)
        | none => s
  s.postEvent g.part 7 [BitVec.ofNat 32 (((s.launch g.launch).map (·.slot)).getD 0), BitVec.ofNat 32 g.wgid]

/-- The watchdog of a workgroup goes on when the threads that it stops have all stopped (R316). -/
def State.watchEnter (s : State) (w : Nat) : State :=
  match s.wg w with
  | none => s
  | some g =>
    if g.stopped.isEmpty || g.stopped.any (fun t => match s.thread { wg := w, tid := t } with
        | some x => x.stop.isSome && decide (x.status ≠ .exited)
        | none => false) then s
    else s.watchSettle w g

/-- WATCHDOG_FIRE (R316): the threads in STATE 0 are stopped; when they have, the handler is entered and event 7 is posted. -/
def execWatchdogFire (w : Nat) (s : State) : Result :=
  match s.wg w with
  | none => .next s
  | some g =>
    if !g.due then .next s
    else
      let f : FaultInfo := { code := .watchdog, sub := if g.persist then 1 else 2 }
      let ts := ((s.execThreads w).filter fun x => x.2.stateNum == 0).map (·.1)
      let s := s.modWg w fun g => { g with fired := true, grace := some s.us, stopped := ts.map (·.tid) }
      let (_, _, s) := s.stopAll ts (some f)
      .next (if ts.isEmpty then s.watchSettle w g else s.watchEnter w)

/-- WATCHDOG_GRACE_EXPIRY (R317): WDGRACE has passed, the workgroup has not ended and no RESUME has restarted its
timer: the partition is reset. -/
def execWatchdogGraceExpiry (w : Nat) (s : State) : Result :=
  match s.wg w with
  | none => .next s
  | some g => match g.grace with
    | none => .next s
    | some t =>
      if g.ended ∨ s.us < t + (s.creg g.part 0x19).toNat then .next s else .next (s.resetPart g.part)

end Sys2Proof.Machine
end

