-- ==== Sys2Proof/Machine/Xlane.lean ====
section
/-! DEFINITION. Cross-lane meetings and the instructions that meet: XLANE, lsync and elect (07_execution.md R129 to
R133). -/

namespace Sys2Proof.Machine

/-! ### Values (R132, R133) -/

/-- A live member of a meeting: its lane, the operand A, the word v[B+1] and its instruction. -/
structure Member where
  who : TRef
  lane : Nat
  a : RegVal
  fill : Word
  x : XUse
  deriving DecidableEq, Repr

/-- The operations that demand equal tags over the live members, and of these the slides, which compare KIND and P. -/
def XOp.slides (o : XOp) : Bool := o == .slideup || o == .slidedn
def XOp.numeric (o : XOp) : Bool :=
  o == .lredAdd || o == .lredMin || o == .lredMax || o == .lscanInc || o == .lscanExc

/-- The kinds that a row accepts. -/
def XOp.accepts (o : XOp) (t : Half) : Bool := !o.numeric || tKind t == 1 || tKind t == 2 || tKind t == 7
/-- Two tags that a row takes as equal. -/
def XOp.sameTag (o : XOp) (t u : Half) : Bool :=
  if o.numeric then t == u else if o.slides then tKind t == tKind u && tPrec t == tPrec u else true

/-- The members whose tag the row takes, measured by the lowest one that it accepts. -/
def meetOk (l : List Member) : List Member :=
  match l.find? fun m => m.x.op.accepts m.a.tag with
  | none => []
  | some ref => l.filter fun m => m.x.op.accepts m.a.tag && m.x.op.sameTag ref.a.tag m.a.tag

/-- A sum over members of one tag: modulo 2^32, or for f32 exact and rounded once; 0 where there is none. -/
def xSum (rm : Rm) (kind : Nat) (l : List Word) : Word × FFlags :=
  if l.isEmpty then (0, 0)
  else if kind = 7 then
    let (v, inv) := sumNum rm (l.map fun w => f32.decode w.toNat)
    let (c, fl) := roundTo v f32 rm .ovf
    (BitVec.ofNat 32 c, fl ||| flagIf inv fNV)
  else (l.foldl (· + ·) 0, 0)

/-- A minimum or a maximum over members of one tag. -/
def xExtreme (lo : Bool) (kind : Nat) (l : List Word) : Word :=
  match l with
  | [] => 0
  | w :: rest =>
    if kind = 7 then
      let f := if lo then minNum else maxNum
      BitVec.ofNat 32 (exactCode (rest.foldl (fun acc x => f acc (f32.decode x.toNat)) (f32.decode w.toNat)) f32)
    else
      let num := fun (x : Word) => if kind = 1 then x.toInt else (x.toNat : Int)
      rest.foldl (fun acc x => if lo == decide (num x < num acc) && num x != num acc then x else acc) w

/-- The elements of all members in ascending lane, those of lanes that contribute nothing 0 (R132). -/
def slideSeq (mask : Word) (n : Nat) (l : List Member) : List Nat :=
  ((List.range 32).filter fun i => mask.getLsbD i).flatMap fun i =>
    match l.find? fun m => m.lane == i with
    | some m => (List.range n).map fun e => elemBits m.a.bits n e
    | none => List.replicate n 0

/-- The result of a slide for one member. -/
def xSlide (up : Bool) (mask : Word) (l : List Member) (m : Member) : Word :=
  let n := nElem m.a.kind
  let v := slideSeq mask n l
  let first := (l.head?.map fun x => elemBits x.fill n (n - 1)).getD 0
  let last := (l.getLast?.map fun x => elemBits x.fill n 0).getD 0
  let w := if up then first :: v.dropLast else v.drop 1 ++ [last]
  let at' := (((List.range 32).filter fun i => mask.getLsbD i && decide (i < m.lane)).length) * n
  packElems n ((w.drop at').take n)

/-- D of an XLANE form for one member (R132): its value and the flags. DESIGN CHOICE (log entry 59): the flags of a scan in a
member are those of the sum that it receives; the rule says only that flags are set in every live member. -/
def xResult (mask : Word) (rm : Rm) (l : List Member) (m : Member) : RegVal × FFlags :=
  let ws := l.map (·.a.bits)
  let bit := fun (b : Bool) => (regNat (if b then 1 else 0), (0 : FFlags))
  let same := fun (w : Word) =>
    (({ bits := w, tag := if l.all (fun x => x.a.tag == m.a.tag) then m.a.tag else tagRaw } : RegVal), (0 : FFlags))
  let own := fun (r : Word × FFlags) => (({ bits := r.1, tag := m.a.tag } : RegVal), r.2)
  match m.x.op with
  | .lpick => (((l.find? fun x => x.lane == m.fill.toNat % 32).map (·.a)).getD m.a, 0)
  | .slideup => own (xSlide true mask l m, 0)
  | .slidedn => own (xSlide false mask l m, 0)
  | .ballot => (regNat ((l.map fun x => if x.a.bits != 0 then 2 ^ x.lane else 0).sum), 0)
  | .voteAny => bit (ws.any (· != 0))
  | .voteAll => bit (ws.all (· != 0))
  | .voteEq => bit (ws.all (· == m.a.bits))
  | .lredAdd => own (xSum rm m.a.kind ws)
  | .lredMin => own (xExtreme true m.a.kind ws, 0)
  | .lredMax => own (xExtreme false m.a.kind ws, 0)
  | .lredAnd => same (ws.foldl (· &&& ·) 0xFFFFFFFF)
  | .lredOr => same (ws.foldl (· ||| ·) 0)
  | .lredXor => same (ws.foldl (· ^^^ ·) 0)
  | .lscanInc => own (xSum rm m.a.kind ((l.filter fun x => decide (x.lane ≤ m.lane)).map (·.a.bits)))
  | .lscanExc => own (xSum rm m.a.kind ((l.filter fun x => decide (x.lane < m.lane)).map (·.a.bits)))
  | .lsync => (m.a, 0)
  | .elect => (m.a, 0)

/-- What a completed meeting writes in one member (R132, R133). -/
def Arch.meet (q : Arch) (mask : Word) (rm : Rm) (l : List Member) (m : Member) : Arch :=
  match m.x.op with
  | .lsync => q
  | .elect => q.setPred m.x.d (l.head?.map (·.lane) == some m.lane)
  | _ =>
    let (v, fl) := xResult mask rm l m
    (q.setReg m.x.d v).raise fl

/-! ### Meetings (R129, R130) -/

/-- A meeting: the workgroup and its lane set, the PC and the mask. -/
structure Meeting where
  wg : Nat
  lset : Nat
  pc : DWord
  mask : Word
  deriving DecidableEq, Repr

/-- The thread of a lane. -/
def Meeting.ref (m : Meeting) (lane : Nat) : TRef := { wg := m.wg, tid := m.lset * 32 + lane }

/-- The thread has passed over a cross-lane instruction at a PC, and no meeting has counted it as exited for that yet (R123). -/
def Arch.skipped (a : Arch) (pc : DWord) : Bool := a.skips.contains pc

/-- A thread that has arrived, as a member. One that still counts as exited at a meeting here has arrived for a later one. -/
def State.memberAt (s : State) (m : Meeting) (lane : Nat) : Option Member :=
  match s.thread (m.ref lane) with
  | none => none
  | some t => match t.status with
    | .held mask x =>
      if mask = m.mask ∧ t.arch.pc = m.pc ∧ t.arch.skipped m.pc = false then
        some { who := m.ref lane, lane := lane, a := t.arch.reg x.a, fill := (t.arch.reg (x.b + 1)).bits, x := x }
      else none
    | _ => none

/-- A lane that the meeting waits for no more: its thread has exited, or counts as exited (R123). -/
def State.laneGone (s : State) (m : Meeting) (lane : Nat) : Bool :=
  match s.thread (m.ref lane) with
  | none => true
  | some t => decide (t.status = .exited) || t.arch.skipped m.pc

/-- The lanes of a mask. -/
def maskLanes (mask : Word) : List Nat := (List.range 32).filter fun i => mask.getLsbD i

/-- Every member has arrived, or counts as exited (R129). -/
def State.meetReady (s : State) (m : Meeting) : Bool :=
  (maskLanes m.mask).all fun l => (s.memberAt m l).isSome || s.laneGone m l

/-- The cross-lane instructions that the members have passed over and that no meeting has taken up (R123). -/
def State.marks (s : State) (m : Meeting) : Nat :=
  ((maskLanes m.mask).map fun l => ((s.thread (m.ref l)).map fun t => t.arch.skips.count m.pc).getD 0).sum

/-- The live members, in ascending lane. -/
def State.liveMembers (s : State) (m : Meeting) : List Member := (maskLanes m.mask).filterMap (s.memberAt m)

/-- A member past its meeting. One of the issuing group goes on in its group; a held one waits for its resumption
group (R130). -/
def State.meetLeave (s : State) (r : TRef) : State :=
  let q := s.quadOf r
  let mine : Bool := ((s.quad q).active.map fun g => g.waitX.contains r).getD false
  if mine || s.cur == some r then
    let s := s.modThread r fun t => { t with status := .running }
    let move := fun (g : Group) =>
      if g.waitX.contains r then { g with waitX := g.waitX.filter (· != r), done := g.done ++ [r] } else g
    s.modQuad q fun x => { x with active := x.active.map move }
  else s.wake r

/-- The first mark of a cross-lane instruction passed over at a PC is spent (R123). -/
def Arch.unskip (a : Arch) (pc : DWord) : Arch := { a with skips := a.skips.erase pc }

/-- A meeting completes (R129, R130, R132): members whose tag the row refuses take TAG, and the others execute once,
together. -/
def State.meetRun (s : State) (m : Meeting) : State :=
  let live := s.liveMembers m
  let ok := meetOk live
  let rm := ((ok.head?.bind fun x => s.thread x.who).map (·.arch.rm)).getD .rne
  let seqs := live.map fun x => (x.who, ((s.thread x.who).map (·.seq)).getD 0)
  let s := forEach (fun s l => s.modThread (m.ref l) fun t =>
    { t with arch := t.arch.unskip m.pc, run := { t.run with snap := t.run.snap.unskip m.pc } }) s (maskLanes m.mask)
  let s := forEach (fun s x =>
    let s := s.modThread x.who fun t =>
      let t := { t with
        arch := { (t.arch.meet m.mask rm ok x) with xcount := t.arch.xcount + 1 }
        run := { t.run with mates := t.run.mates ++ seqs.filter fun (y : TRef × Nat) => y.1 != x.who } }
      t.pass 4
    s.meetLeave x.who) s ok
  forEach (fun s x => s.takeFault x.who (plainFault .tag) (((s.thread x.who).map (·.run.count)).getD 0)) s
    (live.filter fun x => !(ok.contains x))

/-- The open meetings of a workgroup. -/
def State.openMeetings (s : State) (w : Nat) : List Meeting :=
  ((s.threadsOf w).filterMap fun x => match x.2.status with
    | .held mask _ => some { wg := w, lset := x.1.tid / 32, pc := x.2.arch.pc, mask := mask }
    | _ => none).dedup

/-- The meetings of one kind that are complete take place, one after another: one without a live member only takes up what
its members have passed over (R123). -/
def State.meetTry (s : State) (m : Meeting) : Nat → State
  | 0 => s
  | n + 1 =>
    if s.meetReady m && (!(s.liveMembers m).isEmpty || decide (0 < s.marks m)) then (s.meetRun m).meetTry m n else s

/-- The meetings of a workgroup that an exit, a guard or a kill has completed. -/
def State.meetings (s : State) (w : Nat) : State :=
  forEach (fun s m => s.meetTry m (s.marks m + 1)) s (s.openMeetings w)

/-- An instruction that a re-executed run executes for its thread alone (R130). -/
def State.meetAlone (s : State) (r : TRef) (x : XUse) : State :=
  match s.thread r with
  | none => s
  | some t =>
    let m : Member := { who := r, lane := r.tid % 32, a := t.arch.reg x.a, fill := (t.arch.reg (x.b + 1)).bits, x := x }
    if meetOk [m] = [] then s.takeFault r (plainFault .tag) t.run.count
    else
      s.modThread r fun t =>
        ({ t with arch := { (t.arch.meet (t.arch.reg x.b).bits t.arch.rm [m] m) with xcount := t.arch.xcount + 1 } }).pass 4

/-- A CROSS-LANE INSTRUCTION (R129, R130): LANESET where the mask leaves out the thread's own lane or disagrees with an
open meeting that includes it; otherwise the thread arrives, and the last to arrive completes the meeting. -/
def crossLane (op : XOp) (d a b : Nat) (reads writes : List Nat) (s : State) : Result :=
  s.lane { reads := reads, writes := writes, meets := some b } fun r t _ s =>
    let x : XUse := { op := op, d := d, a := a, b := b }
    let mask := (t.arch.reg b).bits
    let lane := r.tid % 32
    let m : Meeting := { wg := r.wg, lset := r.tid / 32, pc := t.arch.pc, mask := mask }
    let other := (s.openMeetings r.wg).any fun o =>
      o.lset == m.lset && o.pc == m.pc && o.mask != mask && o.mask.getLsbD lane
    if !(mask.getLsbD lane) then s.takeFault r (plainFault .laneset) t.run.count
    else if t.arch.xcount < t.arch.alone then s.meetAlone r x
    else if other then s.takeFault r (plainFault .laneset) t.run.count
    else
      let s := s.modThread r fun t =>
        { t with status := .held mask x }
      s.meetTry m (s.marks m + 1)

/-! ### XLANE (R132) and the FLOW forms that meet (R133) -/

/-- lpick (R132). -/
def execLpick (d : Nat) (a : Nat) (b : Nat) (s : State) : Result := crossLane .lpick d a b [a, b, b + 1] [d] s
/-- slideup (R132). -/
def execSlideup (d : Nat) (a : Nat) (b : Nat) (s : State) : Result := crossLane .slideup d a b [a, b, b + 1] [d] s
/-- slidedn (R132). -/
def execSlidedn (d : Nat) (a : Nat) (b : Nat) (s : State) : Result := crossLane .slidedn d a b [a, b, b + 1] [d] s
/-- ballot (R132). -/
def execBallot (d : Nat) (a : Nat) (b : Nat) (s : State) : Result := crossLane .ballot d a b [a, b] [d] s
/-- vote.any (R132). -/
def execVoteAny (d : Nat) (a : Nat) (b : Nat) (s : State) : Result := crossLane .voteAny d a b [a, b] [d] s
/-- vote.all (R132). -/
def execVoteAll (d : Nat) (a : Nat) (b : Nat) (s : State) : Result := crossLane .voteAll d a b [a, b] [d] s
/-- vote.eq (R132). -/
def execVoteEq (d : Nat) (a : Nat) (b : Nat) (s : State) : Result := crossLane .voteEq d a b [a, b] [d] s
/-- lred.add (R132). -/
def execLredAdd (d : Nat) (a : Nat) (b : Nat) (s : State) : Result := crossLane .lredAdd d a b [a, b] [d] s
/-- lred.min (R132). -/
def execLredMin (d : Nat) (a : Nat) (b : Nat) (s : State) : Result := crossLane .lredMin d a b [a, b] [d] s
/-- lred.max (R132). -/
def execLredMax (d : Nat) (a : Nat) (b : Nat) (s : State) : Result := crossLane .lredMax d a b [a, b] [d] s
/-- lred.and (R132). -/
def execLredAnd (d : Nat) (a : Nat) (b : Nat) (s : State) : Result := crossLane .lredAnd d a b [a, b] [d] s
/-- lred.or (R132). -/
def execLredOr (d : Nat) (a : Nat) (b : Nat) (s : State) : Result := crossLane .lredOr d a b [a, b] [d] s
/-- lred.xor (R132). -/
def execLredXor (d : Nat) (a : Nat) (b : Nat) (s : State) : Result := crossLane .lredXor d a b [a, b] [d] s
/-- lscan.inc (R132). -/
def execLscanInc (d : Nat) (a : Nat) (b : Nat) (s : State) : Result := crossLane .lscanInc d a b [a, b] [d] s
/-- lscan.exc (R132). -/
def execLscanExc (d : Nat) (a : Nat) (b : Nat) (s : State) : Result := crossLane .lscanExc d a b [a, b] [d] s
/-- lsync (R133). -/
def execLsync (a : Nat) (s : State) : Result := crossLane .lsync 0 a a [a] [] s
/-- elect (R133). -/
def execElect (p : Nat) (a : Nat) (s : State) : Result := crossLane .elect p a a [a] [] s

end Sys2Proof.Machine
end

