-- ==== Sys2Proof/Machine/Commit.lean ====
section
/-! DEFINITION. The end of a run: its block checks, the release of its buffered effects, its committing instruction, and
where its thread goes (07_execution.md R113, R118 to R120, R392); and the release of what a run holds back until its release
cycle (21_faults.md R328). -/

namespace Sys2Proof.Machine

/-! ### Blocks (R392) -/

/-- Bytes of a block as a commit finds it: with the run's own buffered stores applied (R392). -/
def State.blockNow (s : State) (t : Thread) (k n : Nat) : List Byte :=
  let ops := t.run.buf.reverse.map (·.op)
  (List.range n).map fun i => (ops.findSome? fun o => o.byteAt (.key k) i).getD (Memory.read s.mem (k + i))

/-- Bytes of the block that a committing instruction reads, as many as the largest has (R392). -/
def CmdOp.blockLen : CmdOp → Nat
  | .copy _ => 64 | .mma => 64 | .tgen => 64 | .mzdecl => 320 | _ => 0

/-- A command with its block captured. -/
def State.withBlock (s : State) (t : Thread) (c : Cmd) : Cmd :=
  match c.loc with
  | some (.key k) => if c.op.blockLen = 0 then c else { c with block := s.blockNow t k c.op.blockLen }
  | _ => c

/-! ### Checks and stalls at commit -/

/-- The lines of global memory that stores write in a core's L1: those that hold bytes written there that may not leave it yet, those
of committed stores that are not performed, and those given. -/
def State.l1Held (s : State) (core : Nat) (ops : List BufOp) : List Nat :=
  let lines := fun (o : BufOp) => match o with
    | .store (.key k) bs _ _ => if !(isScratch k) && o.inCore core then [lineKey k, lineKey (k + bs.length - 1)] else []
    | _ => []
  (((s.l1.filter fun c => c.1 / 2 ^ 70 == core && c.2.dirty && decide (s.clock < c.2.rel)).map fun c => lineKey (c.1 % 2 ^ 70)) ++
    ((s.stores.filter fun p => p.core == core).map (·.op) ++ ops).flatMap lines).dedup

/-- A run waits at its terminator while its core's L1, of 1,024 lines, has no room for what the run writes (02_organisation.md R12,
R328). -/
def State.l1Waits (s : State) (r : TRef) (t : Thread) : Bool :=
  let ops := t.run.buf.map (·.op) ++ (match t.run.commit with
    | some { op := .atom o .wg, loc := some l, .. } => [.store l (List.replicate o.size 0) .keep none]
    | _ => [])
  ops.any (fun o => match o with
    | .store _ _ _ _ => true
    | _ => false) && decide (1024 < (s.l1Held (s.coreOf r) ops).length)

/-- A committing instruction reads a block one of whose words another thread has claimed (R155). -/
def State.blockClaimed (s : State) (r : TRef) (c : Cmd) : Bool :=
  match c.loc with
  | some (.key k) => decide (0 < c.op.blockLen) && s.claimedIn k c.op.blockLen (some r)
  | _ => false

/-- CONT, MZPOST, COPY and the array wait for room as an interlock (R168, R200, R246, R328), and a block for the words that
another thread has claimed (R155). -/
def State.commitWaits (s : State) (r : TRef) (g : Wg) (c : Cmd) : Bool :=
  s.blockClaimed r c || match c.op with
  | .copy _ => decide (64 ≤ s.copyQueued (s.coreOf r))
  | op => (op.onArray && s.arrayFull g.quad) || s.mazeStalls g c

/-- The fault of a committing instruction at its run's commit, if it has one (R392). -/
def State.commitFault (s : State) (r : TRef) (g : Wg) (c : Cmd) (post : TStatus) : Option FaultInfo :=
  match c.op with
  | .copy kind =>
    let b := CopyBlock.parse c.block
    (match s.copyPlaces g b with
    | .error f => some f
    | .ok _ => if b.refused kind then some (plainFault .cmdblock) else none)
  | .mzdecl => s.mzdeclFault g c.block (c.addr.setWidth 32)
  | .mzpost => s.mazeFault g c
  | .mztake => s.mazeFault g c
  | .mzdonePass => s.mazeFault g c
  | .mzdoneDrop => s.mazeFault g c
  | .mzeff => s.mazeFault g c
  | .mzsink => s.mazeFault g c
  | .mzstat => s.mazeFault g c
  | .cont =>
    let wait := match post with
      | .trailer _ _ _ _ _ => true
      | _ => false
    (match s.launchOf r with
    | some l => if !wait || (s.contRoom l == 0 && (s.areaLost l.part l.pkt.tasks l.recSlots).isNone) then some (plainFault .queue) else none
    | none => some (plainFault .queue))
  | .tgen => s.tileFault r g c c.block
  | op => if op.onTiles then (s.tileFault r g c c.block).orElse fun _ => s.planFault g c else none

/-! ### The buffered effects of a run (R118, R155, R328) -/

/-- One buffered effect becomes a pending one. -/
def State.releaseOp (s : State) (h : HeldRun) (o : BufItem) : State :=
  let (i, s) := s.takeId
  let counted := match o.op with
    | .fence _ _ => false
    | _ => true
  let p : PStore := { id := i, who := h.who, run := h.id, core := h.core, op := o.op, rel := h.rel, loads := o.after,
                      counted := counted, monitor := false, age := i, spilled := false, remote := none, addr := o.addr,
                      seq := h.seq, due := h.due, fenced := ((s.thread h.who).bind (·.wgRel)).isSome }
  let s := { s with stores := s.stores ++ [p] }
  let s := match o.op with
    | .fence k .wg => if k = .acq then s else s.modThread h.who fun t => { t with wgRel := some i }
    | _ => s
  if counted then s.modThread h.who fun t => { t with stores := t.stores + 1 } else s

/-- A store that waits for its word to be empty holds a monitor entry from here on (R155, R156). -/
def State.monitorStore (s : State) (p : PStore) : State :=
  { s with stores := s.stores.map fun (x : PStore) => if x.id = p.id then { x with monitor := true } else x }

/-- A pending effect is tried: it is performed, waits at its bank, or is refused (25_system.md R378). -/
def State.tryStore (s : State) (p : PStore) : State :=
  if s.storeGone p then s.failStore p .prot
  else if s.storeReady p then s.perform p
  else if p.isWef && s.storeMay p then s.monitorStore p
  else s

/-- The effects of a run that stay within its core are performed at its commit, in order (R328). -/
def State.performLocal (s : State) (h : HeldRun) : State :=
  forEach (fun (s : State) (i : Nat) => match s.stores.find? fun p => p.id == i with
    | some p => if p.op.inCore p.core then s.tryStore p else s
    | none => s) s ((s.stores.filter fun p => p.run == h.id).map (·.id))

/-- The claims of a run: their words are set empty and the claims go (R155). -/
def State.commitClaims (s : State) (h : HeldRun) (ks : List Nat) : State :=
  let s := ks.foldl (fun (s : State) k => s.setFull (some h.id) k false) s
  s.dropClaims h.who

/-- What a run of an access thread has sent joins its queues (11_streamers.md R194). -/
def State.sendOut (s : State) (r : TRef) (run : Option Nat) (xs : List (Nat × Option Word × Nat)) : State :=
  xs.foldl (fun (s : State) (x : Nat × Option Word × Nat) =>
    if x.1 < 4 then
      let k := oqKey r.tid x.1
      let s := s.note run (.oqPush r.wg k)
      s.modWg r.wg fun g => { g with oq := aput k ((alook k g.oq).getD [] ++ [x.2]) g.oq }
    else
      let s := s.note run (.bqPush r.wg r.tid)
      s.modWg r.wg fun g => { g with bq := aput r.tid ((alook r.tid g.bq).getD [] ++ [x.2.1 == some (1 : Word)]) g.bq }) s

/-! ### The committing instruction (R118, R328) -/

/-- The QUEUE instructions (R189). -/
def CmdOp.isQueue : CmdOp → Bool
  | .qinit => true | .qpush => true | .qpop => true | .qtrypush => true | .qtrypop => true | .qlen => true
  | _ => false

/-- An ATOM or a SYNC whose word has gone to a new owner (25_system.md R378). -/
def State.cmdGone (s : State) (h : HeldRun) (c : Cmd) : Bool :=
  match c.loc with
  | some (.key k) => !(s.still h.who k c.op.span)
  | _ => false

/-- An ATOM or a SYNC acts if nothing holds it; answers whether it has. -/
def State.actMemory (s : State) (h : HeldRun) (c : Cmd) : Bool × State :=
  if s.cmdGone h c then (true, s.refuseCmd h c)
  else match c.op, c.loc with
  | .atom o sc, some l =>
    if !(s.atomReady h.who h.id c l o.size) then (false, s)
    else let s := s.noteAtom h.core c; (match unitSite h.core l sc, l with
      | some site, .key k => s.actUnit h c o sc site k
      | _, _ => (true, s.actAtom h c o sc))
  | op, some (.key k) =>
    if op.isSync then
      if s.syncReady h k c then
        (true, (s.actSync h c (if s.clock < h.rel then some h.id else none)).readDone h.who h.core h.id)
      else (false, s)
    else (true, s)
  | _, _ => (true, s)

/-- An ATOM or a SYNC acts within its core (R328). A release toward the cluster does not: what its thread wrote before has to
leave the core first (11_streamers.md R186), nor does a WG-scope release whose note finds no room (R150). -/
def State.cmdLocal (s : State) (h : HeldRun) (c : Cmd) : Bool :=
  match c.op, c.loc with
  | .atom _ sc, some l => atomInCore h.core l sc && (c.noted.map fun k => s.noteRoom h.core k).getD true
  | op, some (.key k) => op.isSync && (scratchCore k == h.core || decide (2 ^ 64 ≤ k)) &&
      !(op.syncRelease && (s.rvScope h.who k).wide)
  | _, _ => false

/-- The LODGE instructions (18_lodges.md R268). -/
def CmdOp.isLodge : CmdOp → Bool
  | .lcreate => true | .lcreateM => true | .lopen => true | .lhand => true | .ldrop => true | .linfo => true
  | _ => false

/-- How often a command counts in its class: a LODGE instruction once for each register it writes (18_lodges.md R268). -/
def Cmd.counts (c : Cmd) : Nat := if c.op.isLodge then c.dests.length else 1

/-- The committing instruction of a run that commits: it counts, and acts or is held until the release cycle (R328). -/
def State.commitCmd (s : State) (h : HeldRun) (c : Cmd) : State :=
  let s := s.modThread h.who fun t => { t.count c.cls (· + c.counts) with busy := c.dests ++ t.busy }
  let c := { c with fenced := ((s.thread h.who).bind (·.wgRel)).isSome }
  if c.op.isQueue then s.actQueue h c
  else if c.op == .idemBegin || c.op == .idemEnd then s.actIdem h c
  else if c.op.onTiles then s.commitTile h c
  else if s.cmdLocal h c then
    let (done, s) := s.actMemory h c
    if done then s else s.setHeldCmd h.id c
  else s.setHeldCmd h.id c

/-- The committing instructions whose thread parks past its run until it is answered (16_maze.md R253, 18_lodges.md R262). -/
def CmdOp.parks : CmdOp → Bool
  | .mztake => true | .mzsink => true | .lopen => true
  | _ => false

/-- Whether the terminator's outcome waits for the committing instruction: it may change where the thread goes on (R298,
R299, R307, R313), or park the thread (16_maze.md R253, 18_lodges.md R262). -/
def Cmd.redirects (c : Cmd) (r : TRef) : Bool :=
  match c.op with
  | .trap _ => true
  | .bkpt _ => true
  | .take => true
  | .cont => true
  | .resume => c.words.getD 0 0 == BitVec.ofNat 32 r.tid
  | o => o.parks

/-! ### Where the thread goes (R112, R113, R127, R128, R313) -/

/-- A thread past its run: the terminator takes effect. A halt that was asked for takes place first (R313). An access
thread that ends leaves its reads on their way (R194), and an execute thread ends for good when its last run is released
(R128, R329). -/
def State.goOn (s : State) (r : TRef) (post : TStatus) : State :=
  match s.thread r with
  | none => s
  | some _ =>
    if post = .exited then
      if r.acc then s.modThread r fun t => { t with status := .exited }
      else (s.exitOne r).meetings r.wg
    else s.proceed r post

/-! ### Commit (R118) -/

/-- The beacon of a run sets its workgroup's timer to 0, until the run is discarded (R309, R328). -/
def State.resetTimer (s : State) (run w : Nat) : State :=
  (s.note (some run) (.timer w (((s.wg w).map (·.timer)).getD 0))).modWg w fun g => { g with timer := 0 }

/-- A run that has passed its checks commits. -/
def State.commitRun (s : State) (r : TRef) (t : Thread) (g : Wg) (cmd : Option Cmd) (next : Arch → Arch)
    (acc : AccState → AccState) (post : TStatus) : State :=
  let (id, s) := s.takeId
  let (n, s) := s.takeFresh
  let plain := t.acc.map fun (a : AccState) => { a with out := [] }
  let h : HeldRun := { id := id, who := r, seq := t.seq, core := s.coreOf r, snap := t.run.snap, rel := s.clock + 320,
                       cmd := none, mates := t.run.mates, met := t.arch.xcount, acc := plain, due := s.us + 20,
                       exits := post == .exited }
  let s := { s.scCommit r t.seq id with held := s.held ++ [h] }
  let s := s.modThread r fun t =>
    let a := next { t.arch with regs := t.arch.regs.newRun n, xcount := 0, alone := 0 }
    { t with arch := a, seq := t.seq + 1, run := Run.start a, acc := plain.map acc }
  let s := s.commitClaims h t.run.claims
  let s := t.run.buf.foldl (fun (s : State) o => s.releaseOp h o) s
  let s := (s.performLocal h).monitorAll t.run.claims
  let s := s.sendOut r (some id) ((t.acc.map (·.out)).getD [])
  let s := if t.run.beacon && g.persist then s.resetTimer id g.id else s
  match cmd with
  | none => s.goOn r post
  | some c =>
    let s := s.commitCmd h c
    if c.redirects r && post != .exited then s.modThread r fun t => { t with status := .awaiting id, post := post }
    else s.goOn r post

/-- A TERMINATOR: the run of the issuing thread commits, stalls, or is discarded for a fault of its committing instruction
(R118, R392), or to be executed again where it read before its SC fence and another's came between (R145). The watchdog ends the stall of a
run that cannot commit (16_maze.md R246, 21_faults.md R316). -/
def State.endRun (s : State) (r : TRef) (t : Thread) (g : Wg) (next : Arch → Arch) (acc : AccState → AccState)
    (post : TStatus) : State :=
  if s.spoiled r t.seq then s.redoRun r
  else if s.l1Waits r t then s.interlock r
  else match t.run.commit with
  | none => s.commitRun r t g none next acc post
  | some c =>
    let c := s.withBlock t c
    if s.commitWaits r g c then (if t.stop.bind id = none then s.interlock r else s.redoRun r)
    else if s.oqWaits r g c then s.oqPark r t c
    else match s.commitFault r g c post with
      | some f => s.takeFault r f (t.run.cmark.getD 0)
      | none => s.commitRun r t g (some c) next acc post

/-! ### The release cycle (R328) -/

/-- A held command acts; answers whether it has. -/
def State.actHeld (s : State) (h : HeldRun) (c : Cmd) : Bool × State :=
  match c.op with
  | .atom _ _ => s.actMemory h c
  | .copy kind => (true, s.enqueueCopy h c kind)
  | .tgen => (true, s.enqueueTgen h c)
  | .mzdecl => (true, s.actMaze h c)
  | .mzpost => (true, s.actMaze h c)
  | .mztake => (true, s.actMaze h c)
  | .mzdonePass => (true, s.actMaze h c)
  | .mzdoneDrop => (true, s.actMaze h c)
  | .mzeff => (true, s.actMaze h c)
  | .mzsink => (true, s.actMaze h c)
  | .mzstat => (true, s.actMaze h c)
  | .lcreate => (true, s.actLodge h c)
  | .lcreateM => (true, s.actLodge h c)
  | .lopen => (true, s.actLodge h c)
  | .lhand => (true, s.actLodge h c)
  | .ldrop => (true, s.actLodge h c)
  | .linfo => (true, s.actLodge h c)
  | .launch => s.actTask h c
  | .signal => s.actTask h c
  | .cont => s.actTask h c
  | .take => s.actTask h c
  | .cread n => if s.settled h then s.actPriv h { c with op := .cread n } else (false, s)
  | .cwrite n => if s.settled h then s.actPriv h { c with op := .cwrite n } else (false, s)
  | op => if op.isSync then s.actMemory h c else s.actPriv h c

/-- An earlier run's command of the same kind is still to act: LAUNCHes of a workgroup act in the order of their commits
(19_scheduling.md R296), and so do a partition's LODGE instructions that commit in different cycles; those of one cycle act in
any order (18_lodges.md R269, 26_ordering_table.md R390). -/
def State.heldBehind (s : State) (h : HeldRun) (c : Cmd) : Bool :=
  s.held.any fun x => decide (x.id < h.id) && ((x.cmd.map fun y =>
    (y.op == .launch && c.op == .launch && x.who.wg == h.who.wg) ||
      (y.op.isLodge && c.op.isLodge && s.partOf x.who == s.partOf h.who && decide (x.rel < h.rel))) == some true)

/-- LAUNCH and SIGNAL follow everything earlier of their thread (R301), and a MAZE form waits as R246, R254 and R255 say. -/
def State.heldMay (s : State) (h : HeldRun) (c : Cmd) : Bool :=
  let maze := ((s.wg h.who.wg).map fun g => s.mazeMay h g c).getD true
  match c.op with
  | .mzpost => maze
  | .mztake => maze
  | .mzdonePass => maze
  | .mzdoneDrop => maze
  | .mzeff => maze
  | .mzsink => maze
  | .launch => s.settled h
  | .signal => s.settled h
  | .cont => s.settled h
  | _ => true

/-- The records of changes that no discard can reach any more are dropped (R328). -/
def State.trimUndo (s : State) : State :=
  { s with undo := s.undo.dropWhile fun u => match u.run with
    | none => true
    | some i => !(s.held.any fun h => h.id == i) }

/-- The thread whose MZTAKE, MZSINK or LOPEN has acted and not been answered parks (16_maze.md R253, 18_lodges.md R262). -/
def State.replyWaits (s : State) (r : TRef) (seq : Nat) : Bool :=
  (s.lodgeWaits.any fun w => w.who == r && w.seq == seq && w.cmd.op == .lopen) ||
    s.mazes.any fun m => (m.sink.takers ++ m.stages.flatMap (fun x => x.q.takers)).any fun x => x.who == r && x.seq == seq

/-- A thread whose committing instruction has acted goes where its terminator sends it, or parks for its answer. -/
def State.unawait (s : State) (h : HeldRun) : State :=
  match s.thread h.who with
  | none => s
  | some t =>
    if t.status = .awaiting h.id ∧ t.stop = none ∧ (h.cmd.map fun c => c.op.parks) = some true ∧ s.replyWaits h.who h.seq = true then
      s.modThread h.who fun t => { t with status := .parked .reply }
    else
    if t.status = .awaiting h.id ∨ (t.status = .parked .take ∧ (h.cmd.map Cmd.op) = some .take) then s.goOn h.who t.post else s

/-- A run whose release is done is held no more: its thread goes where its terminator sends it, and has ended for good where it was
its last run (R128); what waited for it is evaluated again. -/
def State.letGo (s : State) (h : HeldRun) : State :=
  let s := ({ s with held := s.held.filter fun x => x.id != h.id }).trimUndo
  let s := s.unawait h
  let s := if h.exits && !h.who.acc then s.endThread h.who else s
  let s := s.monitorAll ((s.waiters.filter fun w => w.who = h.who ∧ w.rel ≤ s.clock).map (·.key))
  (s.meetings h.who.wg).settleWg h.who.wg

/-- RUN_RELEASE (R328): at a run's release cycle its committing instruction acts, in the order of its thread's runs, and
what it holds back may leave its core. -/
def execRunRelease (id : Nat) (s : State) : Result :=
  match s.held.find? fun h => h.id == id with
  | none => .next s
  | some h =>
    if s.clock < h.rel ∨ (s.held.any fun x => x.who == h.who && decide (x.id < h.id) && x.cmd.isSome) = true then .next s
    else
      let (done, s) := match h.cmd with
        | none => (true, s)
        | some c => if s.heldMay h c && !(s.heldBehind h c) then s.actHeld h c else (false, s)
      .next (if done then s.letGo h else s)

/-- TRAP_ENTRY (R304): the fault that a ready thread has to take at its run's start is taken. -/
def execTrapEntry (w : Nat) (t : Nat) (s : State) : Result :=
  let r : TRef := { wg := w, tid := t }
  match s.thread r with
  | none => .next s
  | some x => match x.deferred, x.status with
    | some f, .ready _ _ => .next ((s.modThread r fun t => { t with deferred := none, defSeq := none }).takeFault r f 0)
    | _, _ => .next s

end Sys2Proof.Machine
end

