-- ==== Sys2Proof/Machine/Control.lean ====
section
/-! DEFINITION. Guards, branches and calls, the FLOW forms, special registers and the trailer (07_execution.md R111, R121
to R128, R134, R135, 21_faults.md R309). -/

namespace Sys2Proof.Machine

/-- The status of a thread that is ready at once under a key value (R113). -/
def readyAt (v : Nat) : TStatus := .ready 0 v

/-- A terminator that files its thread at a place under a key value (R113). -/
def State.goTo (s : State) (r : TRef) (t : Thread) (g : Wg) (pc : DWord) (v : Nat) : State :=
  s.endRun r t g (fun a => { a with pc := pc }) id (readyAt v)

/-! ### Guards (R51, R123) -/

/-- guard (R123): the condition is sampled, once; a range that ends the run or holds a guard raises RUNFORM here (R51), as soon as
the units of the range that lie in another module are there. -/
def execGuard (p : Nat) (inv : Nat) (n : Nat) (s : State) : Result :=
  s.lane { guards := true, slice := .exec } fun r t _ s =>
    let k := min n (23 - t.run.count)
    match s.rangeFar r (t.arch.pc + 4) k with
    | some a => s.startWalk r a .fetch
    | none =>
      if s.rangeBroken r (t.arch.pc + 4) k then s.takeFault r (plainFault .runform) t.run.count
      else (s.pass r 4).modRun r fun x => { x with guard := some { left := n, cond := t.arch.pred p != (inv == 1), at' := t.run.count } }

/-! ### Branches (R25, R121) -/

/-- The target of a branch offset (R25). -/
def target (pc : DWord) (off : Int) : DWord := pc + BitVec.ofInt 64 (2 * off)
/-- The condition of a branch (R121). -/
def Arch.cond (a : Arch) (p inv : Nat) : Bool := a.pred p != (inv == 1)

/-- br (R121). -/
def execBr (off : Int) (inv : Nat) (p : Nat) (s : State) : Result :=
  s.lane { ends := true } fun r t g s =>
    s.goTo r t g (if t.arch.cond p inv then target t.arch.pc off else t.arch.pc + 4) 0

/-! ### The return stack (R111, R157) -/

/-- Entries of a return stack that the quadrant holds (R111). -/
def heldEntries : Nat := 8

/-- The thread slot whose spill a thread uses (R107, R157). -/
def Wg.slotOf (g : Wg) (r : TRef) : Nat := g.slots.getD r.tid r.tid % 512

/-- SPILLBASE (R310). -/
def Part.spillbase (p : Part) : DWord := p.pairReg 0x21 65536

/-- The address to which a call spills the oldest entry that the quadrant holds (R157). -/
def State.spillAt (s : State) (r : TRef) (t : Thread) (g : Wg) : DWord :=
  (s.part g.part).spillbase + BitVec.ofNat 64 (0x440000 * g.quad + 8192 * g.slotOf r + 8 * (t.arch.rstack.length - heldEntries))

/-- A call can push: nothing spills, or the page of its spill is mapped (R157). -/
def State.canSpill (s : State) (r : TRef) (t : Thread) (g : Wg) : Bool :=
  decide (t.arch.rstack.length < heldEntries) || (match s.engineAt g.part true .store (s.spillAt r t g) with
    | .ok _ => true
    | .error _ => false)

/-- A thread parked at its call until the page of its spill is mapped; event 9 tells the supervisor (R157). -/
def State.parkSpill (s : State) (r : TRef) (t : Thread) (g : Wg) : State :=
  let s := s.postMissing g.part (s.spillAt r t g) 1
  (s.dropFromQuad r).modThread r fun t => { t with status := .parked .spill }

/-- A call to a place (R111, R121): CFI where the stack is full, else the return address is pushed. -/
def State.callTo (s : State) (r : TRef) (t : Thread) (g : Wg) (pc : DWord) (lpad : Option Nat) : State :=
  if t.arch.rstack.length = 1024 then s.takeFault r (plainFault .cfi) t.run.count
  else if !(s.canSpill r t g) then s.parkSpill r t g
  else s.endRun r t g (fun a => { a with rstack := (a.pc + 4) :: a.rstack, pc := pc, lpad := lpad }) id (readyAt 0)

/-- call (R121). -/
def execCall (off : Int) (inv : Nat) (p : Nat) (s : State) : Result :=
  s.lane { ends := true } fun r t g s =>
    if t.arch.cond p inv then s.callTo r t g (target t.arch.pc off) none else s.goTo r t g (t.arch.pc + 4) 0

/-- The fault of a pop of a branch queue that is empty for good (11_streamers.md R194). -/
def State.bqFault (s : State) (r : TRef) : Option FaultInfo :=
  match (s.thread { r with acc := true }).bind (·.acc) with
  | some a => (match a.fault with
    | some f => some f
    | none => if a.halted then some (plainFault .queue) else none)
  | none => some (plainFault .queue)

/-- The bits of a thread's branch queue. -/
def Wg.branchBits (g : Wg) (tid : Nat) : List Bool := (alook tid g.bq).getD []

/-- brq (R121, R194): the oldest bit of the branch queue decides; with none the thread waits, its run still open. -/
def execBrq (off : Int) (inv : Nat) (s : State) : Result :=
  s.lane { ends := true } fun r t g s =>
    match g.branchBits r.tid with
    | [] => (match s.bqFault r with
      | some f => s.takeFault r f t.run.count
      | none => (s.dropFromQuad r).modThread r fun t => { t with status := .parked .brq })
    | b :: rest =>
      let id := s.nextId
      let pc := if b == (inv == 0) then target t.arch.pc off else t.arch.pc + 4
      let s := s.goTo r t g pc 0
      if s.held.any fun h => h.id == id && h.who == r then
        let s := s.note (some id) (.bqPop r.wg r.tid b)
        s.modWg r.wg fun g => { g with bq := aput r.tid rest g.bq }
      else s

/-! ### Indirect transfers (R124, R125) -/

/-- What a fetch of a unit finds outside an issue: the unit, if it can be read. -/
def State.lookUnit (s : State) (r : TRef) (a : DWord) : Option Half × State :=
  match s.fetchUnit r a with
  | .ok u s => (some u, s)
  | .fault _ => (none, s)
  | .miss => match s.engineAt (s.partOf r) (((s.thread r).map (·.arch.sup)).getD false) .fetch a with
    | .ok (.key k) => (if s.isPoisoned k then none else some (s.homeUnit k), s)
    | _ => (none, s)

/-- The unit lies in another module and has to come here first. -/
def State.unitFar (s : State) (r : TRef) (a : DWord) : Bool :=
  match s.fetchUnit r a with
  | .miss => (match s.engineAt (s.partOf r) (((s.thread r).map (·.arch.sup)).getD false) .fetch a with
    | .ok (.remote _ pa) => pa / 2 ^ 44 == s.fab.domain
    | _ => false)
  | _ => false

/-- The outcome of a label check (R124): it holds, it fails, or the target cannot be fetched. -/
inductive LabelRes where
  | ok | bad | unread
  deriving DecidableEq, Repr

/-- The label check of an indirect transfer (R124). -/
def State.labelAt (s : State) (r : TRef) (a : DWord) (label : Nat) : LabelRes × State :=
  match s.lookUnit r a with
  | (none, s) => (.unread, s)
  | (some lo, s) =>
    if !(lo.getLsbD 0) then (.bad, s)
    else match s.lookUnit r (a + 2) with
      | (none, s) => (.unread, s)
      | (some hi, s) => (if isLpad lo.toNat hi.toNat label then .ok else .bad, s)

/-- An indirect transfer (R25, R124). -/
def indirect (call : Bool) (a imm : Nat) (s : State) : Result :=
  s.lane { reads := [a, a + 1], ends := true } fun r t g s =>
    let x := t.arch.pair a
    let go := fun (s : State) (lpad : Option Nat) =>
      if call then s.callTo r t g x lpad
      else s.endRun r t g (fun q => { q with pc := x, lpad := lpad }) id (readyAt 0)
    if x.getLsbD 0 then s.takeFault r (faultAt .align x .fetch false) t.run.count
    else if t.arch.sup && imm == 0x7FF then go s none
    else if s.unitFar r x then s.startWalk r x .fetch
    else if ((s.lookUnit r x).1.getD 0).getLsbD 0 && s.unitFar r (x + 2) then s.startWalk r (x + 2) .fetch
    else match s.labelAt r x imm with
      | (.bad, s) => s.takeFault r (plainFault .cfi) t.run.count
      | (.ok, s) => go s none
      | (.unread, s) => go s (some imm)

/-- jmpi (R124). -/
def execJmpi (a : Nat) (imm : Nat) (s : State) : Result := indirect false a imm s
/-- calli (R124). -/
def execCalli (a : Nat) (imm : Nat) (s : State) : Result := indirect true a imm s

/-- ret (R25, R124). -/
def execRet (s : State) : Result :=
  s.lane { ends := true } fun r t g s =>
    match t.arch.rstack with
    | [] => s.takeFault r (plainFault .cfi) t.run.count
    | x :: rest =>
      if x.getLsbD 0 then s.takeFault r (faultAt .align x .fetch false) t.run.count
      else s.endRun r t g (fun a => { a with pc := x, rstack := rest }) id (readyAt 0)

/-- brt (R125): the entry is read as an instruction fetch. -/
def execBrt (a : Nat) (imm : Nat) (s : State) : Result :=
  s.lane { reads := [a], ends := true } fun r t g s =>
    let i := (t.arch.reg a).bits.toNat
    let e := t.arch.pc + 4 + BitVec.ofNat 64 (4 * i)
    if imm ≤ i then s.takeFault r (plainFault .brtrange) t.run.count
    else match s.fetchUnit r e with
      | .fault f => s.takeFault r { f with addr := e } t.run.count
      | .miss => s.startWalk r e .fetch
      | .ok lo s => match s.fetchUnit r (e + 2) with
        | .fault f => s.takeFault r { f with addr := e } t.run.count
        | .miss => match s.engineAt g.part t.arch.sup .fetch (e + 2) with
          | .error c => s.takeFault r (faultAt c e .fetch false) t.run.count
          | .ok _ => s.startWalk r (e + 2) .fetch
        | .ok hi s => s.goTo r t g (target t.arch.pc (hi ++ lo : Word).toInt) 0

/-! ### FLOW forms (R126 to R128, R309) -/

/-- nop (R126). -/
def execNop (s : State) : Result := s.lane {} fun r _ _ s => s.pass r 4
/-- lpad (R126): a mark, without effect. -/
def execLpad (_imm : Nat) (s : State) : Result := s.lane {} fun r _ _ s => s.pass r 4
/-- reform (R126). -/
def execReform (s : State) : Result := s.lane { ends := true } fun r t g s => s.goTo r t g (t.arch.pc + 4) 0
/-- reform.k (R113, R126). -/
def execReformK (a : Nat) (s : State) : Result :=
  s.lane { reads := [a], ends := true } fun r t g s =>
    s.goTo r t g (t.arch.pc + 4) ((t.arch.reg a).bits.toNat % 65536)
/-- yield (R127). -/
def execYield (s : State) : Result :=
  s.lane { ends := true } fun r t g s => s.endRun r t g (fun a => { a with pc := a.pc + 4 }) id .yielded
/-- exit (R128). -/
def execExit (s : State) : Result :=
  s.lane { ends := true } fun r t g s => s.endRun r t g (fun a => { a with pc := a.pc + 4 }) id .exited
/-- beacon (R309): the run's commit will set the timer of a PERSIST launch's workgroup to 0. -/
def execBeacon (s : State) : Result :=
  s.lane {} fun r _ _ s => (s.modRun r fun x => { x with beacon := true }).pass r 4

/-- YIELD_READY (R127): every thread that was ready when the thread yielded has issued, ended or is ready no more. -/
def execYieldReady (w : Nat) (t : Nat) (s : State) : Result :=
  let r : TRef := { wg := w, tid := t }
  let q := s.quadOf r
  match (s.quad q).yields.find? fun y => y.who == r with
  | none => .next s
  | some y =>
    if !y.recorded.isEmpty || ((s.wg w).map (·.preempting)).getD true then .next s
    else
      let s := s.modQuad q fun q => { q with yields := q.yields.filter fun y => y.who != r }
      .next (s.makeReady r 0)

/-! ### Special registers (R134) -/

/-- A 32-bit special register. An access thread's are those of its execute thread (11_streamers.md R193). DESIGN CHOICE (log entry
94): the flags that its own rsari has raised (04_numbers.md R73) are seen with them, and its rsari goes on rounding under the mode
that its launch gave it (R67) where TRAPWR has changed `%rm` of its execute thread. -/
def State.special (s : State) (r : TRef) (t : Thread) (g : Wg) (n : Nat) : Word :=
  let core := coreOfQuad g.quad
  let own := if r.acc then t.arch.fflags else 0
  let t := if r.acc then (s.thread { r with acc := false }).getD t else t
  match n with
  | 0x00 => BitVec.ofNat 32 r.tid
  | 0x01 => BitVec.ofNat 32 (r.tid % 32)
  | 0x02 => BitVec.ofNat 32 (r.tid / 32)
  | 0x03 => BitVec.ofNat 32 g.nthr
  | 0x04 => BitVec.ofNat 32 g.wgid
  | 0x05 => BitVec.ofNat 32 g.ensid
  | 0x06 => BitVec.ofNat 32 g.wgens
  | 0x07 => BitVec.ofNat 32 g.nwgens
  | 0x08 => BitVec.ofNat 32 core
  | 0x09 => BitVec.ofNat 32 (g.quad % 4)
  | 0x0A => BitVec.ofNat 32 (clusOfCore core)
  | 0x0B => BitVec.ofNat 32 g.part
  | 0x0C => BitVec.ofNat 32 (15 * 2 ^ 19 + g.off)
  | 0x0D => flagsWord (t.arch.fflags ||| own)
  | 0x0E => BitVec.ofNat 32 (rmCode t.arch.rm)
  | _ => BitVec.ofNat 32 s.clock

/-- A 64-bit special register: `%clock` or a launch argument. -/
def State.special64 (s : State) (g : Wg) (n : Nat) : DWord :=
  if n = 0x20 then BitVec.ofNat 64 s.clock else g.args.getD (n - 0x10) 0

/-- sread (R134). -/
def execSread (d : Nat) (n : Nat) (s : State) : Result :=
  s.lane { writes := if sregWide n then [d, d + 1] else [d], slice := .both } fun r t g s =>
    (s.modArch r fun a =>
      if sregWide n then a.setPair d (split64 (s.special64 g n)) else a.setReg d (regN32 (s.special r t g n))).pass r 4

/-! ### The trailer (R135) -/

/-- wait (R135). -/
def execWait (l : Nat) (st : Nat) (c : Nat) (t : Nat) (av : Nat) (aw : Nat) (s : State) : Result :=
  s.lane { names := if av = 1 then [aw] else [], ends := true, slice := .both } fun r x g s =>
    s.endRun r x g (fun a => { a with pc := a.pc + 4 }) id (.trailer l st c t (if av = 1 then some aw else none))

end Sys2Proof.Machine
end

