-- ==== Sys2Proof/Machine/Access.lean ====
section
/-! DEFINITION. Access threads: their groups, loops, reads into operand queues and branch bits (11_streamers.md R193 to
R196). -/

namespace Sys2Proof.Machine

/-! ### What an access thread sends (R194) -/

/-- The queue of an access thread's own number n, 4 for the branch queue: entries in it. -/
def State.accFill (s : State) (r : TRef) (n : Nat) : Nat :=
  match s.wg r.wg with
  | none => 0
  | some g => if n < 4 then ((alook (oqKey r.tid n) g.oq).getD []).length else (g.branchBits r.tid).length

/-- The room of a queue (R194). -/
def accRoom (n : Nat) : Nat := if n < 4 then 16 else 32

/-- Entries that the present run has sent to a queue. -/
def AccState.sent (a : AccState) (n : Nat) : Nat := (a.out.filter fun x => x.1 == n).length

/-- A full queue: the access thread stalls, and what its own run has sent there goes in at once, so that the queue can
empty. DESIGN CHOICE (log entry 66): the rule does not say when the entries of a run that stalls come to be in the queue. -/
def State.accStall (s : State) (r : TRef) (n : Nat) : State :=
  let xs := (((s.thread r).bind (·.acc)).map fun a => a.out.filter fun x => x.1 == n).getD []
  let s := s.sendOut r none xs
  let s := s.modThread r fun t => { t with acc := t.acc.map fun (a : AccState) => { a with out := a.out.filter fun x => x.1 != n } }
  s.interlock r

/-- Entries sent by the present run. -/
def State.accSend (s : State) (r : TRef) (xs : List (Nat × Option Word × Nat)) : State :=
  s.modThread r fun t => { t with acc := t.acc.map fun (a : AccState) => { a with out := a.out ++ xs } }

/-- Instructions for access slices only (R37). -/
def accUse (u : Use) : Use := { u with slice := .access }

/-- The access state of a thread. -/
def Thread.accState (t : Thread) : AccState := t.acc.getD { loops := [], skip := 0, halted := false, fault := none, out := [] }

/-! ### AENG (R195) -/

/-- afor (R195): QUEUE for a fifth loop. -/
def execAfor (d : Nat) (a : Nat) (b : Nat) (s : State) : Result :=
  s.lane (accUse { reads := [a, b], writes := [d], ends := true }) fun r t g s =>
    let x := t.accState
    let next := t.arch.pc + 4
    if 0 < x.skip then
      s.endRun r t g (fun q => { q with pc := next }) (fun y => { y with skip := y.skip + 1 }) (readyAt 0)
    else if 4 ≤ x.loops.length then s.takeFault r (plainFault .queue) t.run.count
    else
      let trips := (t.arch.reg a).bits.toNat
      let stride := (t.arch.reg b).bits
      let q := fun (q : Arch) => { (q.setReg d (regN32 0)) with pc := next }
      if trips = 0 then s.endRun r t g q (fun y => { y with skip := 1 }) (readyAt 0)
      else s.endRun r t g q
        (fun y => { y with loops := { start := next, trips := trips, stride := stride, reg := d } :: y.loops }) (readyAt 0)

/-- aend (R195): QUEUE with an empty loop stack. -/
def execAend (s : State) : Result :=
  s.lane (accUse { ends := true }) fun r t g s =>
    let x := t.accState
    let next := t.arch.pc + 4
    if 0 < x.skip then
      s.endRun r t g (fun q => { q with pc := next }) (fun y => { y with skip := y.skip - 1 }) (readyAt 0)
    else match x.loops with
      | [] => s.takeFault r (plainFault .queue) t.run.count
      | l :: rest =>
        let step := fun (q : Arch) => q.setReg l.reg (regN32 ((q.reg l.reg).bits + l.stride))
        if 1 < l.trips then
          s.endRun r t g (fun q => { (step q) with pc := l.start })
            (fun y => { y with loops := { l with trips := l.trips - 1 } :: rest }) (readyAt 0)
        else s.endRun r t g (fun q => { (step q) with pc := next }) (fun y => { y with loops := rest }) (readyAt 0)

/-- A read on its way to an operand queue: it belongs to no class (R117, R196). -/
def State.issueAload (s : State) (r : TRef) (t : Thread) (l : Loc) (len : Nat) (a : DWord) : Nat × State :=
  let (i, s) := s.takeId
  let (rem, s) : Option Nat × State := match l with
    | .remote m pa =>
      let (j, s) := s.takeId
      (some j, s.addRemote { id := j, purpose := .load i, part := s.partOf r, mod := m, type := 1, paddr := pa,
                             body := natLe 1 len })
    | .key _ => (none, s)
  let x : PLoad := { id := i, who := r, seq := t.seq, core := s.coreOf r, loc := l, len := len, kind := .plain, dests := [],
                     fwd := [], value := none, addr := a, remote := rem }
  (i, { s with loads := s.loads ++ [x] })

/-- aload (R195): a plain read whose one or two words take their places in the operand queue in issue order (R194). -/
def execAload (d : Nat) (a : Nat) (b : Nat) (s : State) : Result :=
  s.lane (accUse { reads := [a, a + 1] }) fun r t _ s =>
    let words := if b = 1 then 2 else 1
    let x := t.arch.pair a
    if accRoom d < s.accFill r d + t.accState.sent d + words then s.accStall r d
    else match s.reach r x (4 * words) .load none false with
      | .fault f => s.takeFault r f t.run.count
      | .miss => s.startWalk r x .load
      | .ok l =>
        let (i, s) := s.issueAload r t l (4 * words) x
        (s.accSend r (List.replicate words (d, none, i))).pass r 4

/-- abr (R195). -/
def execAbr (a : Nat) (s : State) : Result :=
  s.lane (accUse { reads := [a] }) fun r t _ s =>
    if accRoom 4 < s.accFill r 4 + t.accState.sent 4 + 1 then s.accStall r 4
    else (s.accSend r [(4, some (if (t.arch.reg a).bits = 0 then 0 else 1), 0)]).pass r 4

/-- ahalt (R195): the access thread ends; reads on their way still reach its queues. -/
def execAhalt (s : State) : Result :=
  s.lane (accUse { ends := true }) fun r t g s =>
    if 0 < t.accState.skip then s.goTo r t g (t.arch.pc + 4) 0
    else s.endRun r t g (fun q => { q with pc := q.pc + 4 }) (fun y => { y with halted := true }) .exited

/-! ### Reads that return (R194) -/

/-- The words of a read put into their places, low word first. -/
def fillWords (id : Nat) : List Word → List (Option Word × Nat) → List (Option Word × Nat) × List Word
  | ws, [] => ([], ws)
  | [], l => (l, [])
  | w :: ws, (v, i) :: l =>
    if i = id ∧ v = none then
      let (r, rest) := fillWords id ws l
      ((some w, i) :: r, rest)
    else
      let (r, rest) := fillWords id (w :: ws) l
      ((v, i) :: r, rest)

/-- The words of a read placed, in the operand queues and in what the present run has sent. -/
def State.aloadFill (s : State) (r : TRef) (id : Nat) (ws : List Word) : State :=
  let qs := (List.range 4).map (oqKey r.tid)
  match s.wg r.wg with
  | none => s
  | some g =>
    let (oq, ws) := qs.foldl (fun (acc : List (Nat × List (Option Word × Nat)) × List Word) k =>
      match alook k acc.1 with
      | some l =>
        let (l, ws) := fillWords id acc.2 l
        (aput k l acc.1, ws)
      | none => acc) (g.oq, ws)
    let s := s.modWg r.wg fun g => { g with oq := oq }
    s.modThread r fun t => { t with acc := t.acc.map fun (a : AccState) =>
      let (l, _) := fillWords id ws (a.out.map fun x => x.2)
      { a with out := (a.out.map (·.1)).zip l } }

/-- A read that failed: its place and those after it in its queue never fill. -/
def State.aloadLost (s : State) (r : TRef) (id : Nat) : State :=
  s.modWg r.wg fun g =>
    { g with oq := g.oq.map fun q => if q.1 / 4 = r.tid then (q.1, q.2.takeWhile fun x => x.2 != id) else q }

/-- The fault of a read of an access thread, which stops it (R194, R195). -/
def State.accFault (s : State) (r : TRef) (c : Code) (a : DWord) : State :=
  let f := faultAt c a .load false
  match s.thread r with
  | none => s
  | some t => if t.accState.fault.isSome then s else s.takeFault r f t.run.count

/-- ALOAD_RETURN (R194, R196): the words of a read reach their places in its queue; bad says that they are
uncorrectable, which poisons their codewords (21_faults.md R331). -/
def execAloadReturn (id : Nat) (bad : Bool) (s : State) : Result :=
  match s.loads.find? fun l => l.id == id && l.who.acc with
  | none => .next s
  | some l => match l.loc with
    | .remote _ _ => .next s
    | .key k =>
      if s.loadGone l then
        .next ((({ s with loads := s.loads.filter fun x => x.id != id }).aloadLost l.who id).accFault l.who .prot l.addr)
      else if s.loadWaits l then .next s else
      let (bs, poison) := s.loadBytes l
      let s := { s with loads := s.loads.filter fun x => x.id != id }
      let s := if bad then s.poisonRange k l.len else s
      if bad || poison then .next ((s.aloadLost l.who id).accFault l.who .uncorr l.addr)
      else
        let ws := (List.range (l.len / 4)).map fun i => BitVec.ofNat 32 (leNat ((bs.drop (4 * i)).take 4))
        .next (s.aloadFill l.who id ws)

/-! ### Groups of access threads (R193) -/

/-- ACCESS_GROUP_ISSUE (R193): the quadrant's access engine takes the ready access threads of a lane set that stand at one
PC, that of the lowest-numbered of them. -/
def execAccessGroupIssue (q : Nat) (w : Nat) (lset : Nat) (s : State) : Result :=
  match s.wg w with
  | none => .next s
  | some g =>
    if (s.quad q).acc.isSome || g.quad != q || g.saved || g.preempting || !g.started then .next s
    else
      let ready := (s.threadsOf w).filter fun x => x.1.acc && x.1.tid / 32 == lset && (match x.2.status with
        | .ready _ _ => true
        | .woken => true
        | _ => false)
      match ready with
      | [] => .next s
      | x :: _ =>
        let rs := (ready.filter fun y => y.2.arch.pc == x.2.arch.pc).map (·.1)
        let s := forEach (fun (s : State) r => (s.dropFromQuad r).modThread r fun t => { t with status := .running }) s rs
        .next (s.modQuad q fun y => { y with acc := some { todo := rs, done := [], waitX := [] } })

/-! ### Execute threads that wait for their access threads (R194) -/

/-- The execute threads of the queues of access threads go on: a run whose QPOP or brq waits goes on when its entry or bit is
there, or never will be. -/
def State.tendAccess (s : State) : State :=
  let waiting := s.threads.filter fun x => x.2.status == .parked .brq || x.2.status == .parked .oq
  forEach (fun (s : State) x =>
    let r := TRef.ofKey x.1
    let ready := if x.2.status = .parked .oq then s.oqReady r x.2
      else ((s.wg r.wg).map fun g => !(g.branchBits r.tid).isEmpty).getD false || (s.bqFault r).isSome
    if ready then s.wake r else s) s waiting

/-- Threads parked at a call go on when the page of their spill has been mapped (R157). -/
def State.tendSpills (s : State) : State :=
  let waiting := s.threads.filter fun x => x.2.status == .parked .spill
  forEach (fun (s : State) x =>
    let r := TRef.ofKey x.1
    match s.thread r, s.wg r.wg with
    | some t, some g => if s.canSpill r t g then s.wake r else s
    | _, _ => s) s waiting

end Sys2Proof.Machine
end

