-- ==== Sys2Proof/Machine/Strike.lean ====
section
/-! DEFINITION. Strikes: the runs and passes that one discards, and what is put back (21_faults.md R327 to R329). -/

namespace Sys2Proof.Machine

/-! ### Undoing what runs did within their core (R328) -/

/-- An L1 byte as the record keeps it. -/
def putCell (l : List (Nat × L1Cell)) (j : Nat) (c : Option (Byte × Bool × Nat × Nat)) : List (Nat × L1Cell) :=
  match c with
  | some (v, d, r, u) => aput j { val := v, dirty := d, rel := r, due := u } l
  | none => adel j l

/-- A tile register and the descriptors kept besides, changed. -/
def Wg.putTile (g : Wg) (n : Nat) (t : Tile) (keep : Option Tile) : Wg :=
  { g with
    tiles := g.tiles.set n t
    oldTiles := match keep with
      | some o => g.oldTiles ++ [(n, o)]
      | none => g.oldTiles.filter fun x => !(x.1 == n && x.2.gen == t.gen) }

/-- A change taken back. Queues of an access thread are put back apart from the others. -/
def State.undoItem (s : State) (u : UndoItem) : State :=
  match u with
  | .byte k old _ => { s with mem := Memory.write s.mem k old }
  | .full k old _ => { s with full := if old then insNat k s.full else s.full.filter (· != k) }
  | .l1 core k old _ => { s with l1 := putCell s.l1 (l1Key core k) old }
  | .qc w n old _ => s.modWg w fun g => { g with qcs := g.qcs.set n old }
  | .tile w n old _ => s.modWg w fun g => g.putTile n old none
  | .rvOpen k old _ => { s with rvOpen := if old then insNat k s.rvOpen else s.rvOpen.filter (· != k) }
  | .rvHold h true => { s with rvHolds := s.rvHolds.erase h }
  | .rvHold h false => { s with rvHolds := insHold { h with who := none } s.rvHolds }
  | .mark k => { s with poisoned := insNat k s.poisoned }
  | .timer w n => s.modWg w fun g => { g with timer := g.timer + n }
  | .idem w old _ => s.modWg w fun g => { g with idem := old }
  | _ => s

/-- A change of a run that survives made again. -/
def State.redoItem (s : State) (run : Option Nat) (u : UndoItem) : State :=
  match u with
  | .byte k _ new => s.poke run k new
  | .full k _ new => s.setFull run k new
  | .l1 core k _ new => s.l1Put run core k (new.map fun c => { val := c.1, dirty := c.2.1, rel := c.2.2.1, due := c.2.2.2 })
  | .qc w n _ new => s.setQc run w n new
  | .tile w n old new => (s.note run (.tile w n old new)).modWg w fun g => g.putTile n new (if old.v then some old else none)
  | .rvOpen k _ new => s.setRvOpen run k new
  | .rvHold h true => s.holdAt run h
  | .rvHold h false =>
    let s := s.note run (.rvHold h false)
    { s with rvHolds := s.rvHolds.filter fun x => !(x.key == h.key && x.id == h.id) }
  | .mark k => { s.note run (.mark k) with poisoned := s.poisoned.filter (· != k) }
  | .timer w n => (s.note run (.timer w n)).modWg w fun g => { g with timer := g.timer - n }
  | .idem w old new => (s.note run (.idem w old new)).modWg w fun g => { g with idem := new }
  | u => s.note run u

/-- What discarded runs sent to the queues of an access thread and took from them: the newest entries go, and those taken
come back (R194, R328). -/
def State.undoQueues (s : State) (gone : List UndoItem) : State :=
  let oks := (gone.filterMap fun u => match u with
    | .oqPush w q => some (w, q)
    | .oqPop w q _ => some (w, q)
    | _ => none).dedup
  let bks := (gone.filterMap fun u => match u with
    | .bqPush w t => some (w, t)
    | .bqPop w t _ => some (w, t)
    | _ => none).dedup
  let s := oks.foldl (fun (s : State) (k : Nat × Nat) =>
    let back := gone.filterMap fun u => match u with
      | .oqPop w q e => if (w, q) = k then some e else none
      | _ => none
    let n := (gone.filter fun u => u == .oqPush k.1 k.2).length
    s.modWg k.1 fun g =>
      let l := back ++ (alook k.2 g.oq).getD []
      { g with oq := aput k.2 (l.take (l.length - n)) g.oq }) s
  bks.foldl (fun (s : State) (k : Nat × Nat) =>
    let back := gone.filterMap fun u => match u with
      | .bqPop w t b => if (w, t) = k then some b else none
      | _ => none
    let n := (gone.filter fun u => u == .bqPush k.1 k.2).length
    s.modWg k.1 fun g =>
      let l := back ++ (alook k.2 g.bq).getD []
      { g with bq := aput k.2 (l.take (l.length - n)) g.bq }) s

/-- The effects within their cores of the runs given undone: every change back to the oldest of theirs is taken back, newest
first, and those of the other runs are made again. -/
def State.undoRuns (s : State) (ids : List Nat) : State :=
  let mine := fun (u : UndoRec) => match u.run with
    | some i => ids.contains i
    | none => false
  let old := s.undo.takeWhile fun u => !mine u
  let rest := s.undo.dropWhile fun u => !mine u
  let s := rest.reverse.foldl (fun (s : State) u => s.undoItem u.item) s
  let s := { s with undo := old }
  let s := (rest.filter fun u => !mine u).foldl (fun (s : State) u => s.redoItem u.run u.item) s
  s.undoQueues ((rest.filter mine).map (·.item))

/-! ### The thread of a discarded run (R118, R329) -/

/-- What a thread counts for a run that is discarded, once for each register of a LODGE instruction (18_lodges.md R268), and the
registers outstanding for it. -/
def State.owed (s : State) (r : TRef) (seq : Nat) : List (Cls × List Nat) :=
  (s.loads.filterMap fun l => if l.who = r ∧ seq ≤ l.seq ∧ r.acc = false then some (Cls.loads, l.dests.map (·.reg)) else none) ++
    (s.waiters.filterMap fun w => if w.who = r ∧ seq ≤ w.seq then some (w.cls, w.dests.map (·.reg)) else none) ++
    (s.held.flatMap fun h => if h.who = r ∧ seq ≤ h.seq then ((h.cmd.map fun c =>
      (c.cls, c.dests) :: List.replicate (c.counts - 1) (c.cls, [])).getD []) else []) ++
    (s.tileOps.filterMap fun o => if o.who = r ∧ seq ≤ o.seq then some (Cls.tiles, o.cmd.dests) else none) ++
    (s.stores.filterMap fun p =>
      if p.who = r ∧ p.counted = true ∧ (s.held.any fun h => h.id == p.run && decide (seq ≤ h.seq)) = true then
        some (Cls.stores, []) else none) ++
    (s.rvHolds.filterMap fun h => match h.who with
      | some (t, q, d) => if t = r ∧ seq ≤ q then some (Cls.loads, [d]) else none
      | none => none)

/-- A thread returns to the start of a run of its own: its state then, without anything that the run and later ones still
had on its way, or a fault that they have left. alone is the number of cross-lane instructions that it executes for itself (R130). -/
def State.returnTo (s : State) (r : TRef) (seq : Nat) (a : Arch) (acc : Option AccState) (alone : Nat) : State :=
  let owed := s.owed r seq
  let loads := (s.loads.filter fun l => l.who = r ∧ seq ≤ l.seq).map (·.id)
  let runs := (s.held.filter fun h => h.who = r ∧ seq ≤ h.seq).map (·.id)
  let s := s.dropFromQuad r
  let (n, s) := s.takeFresh
  let a := { a with regs := a.regs.newRun n, alone := max a.alone alone, xcount := 0 }
  let s := s.modThread r fun t =>
    let t := owed.foldl (fun (t : Thread) o => { t.count o.1 (· - 1) with busy := o.2.foldl (fun b x => b.erase x) t.busy }) t
    let late := (t.defSeq.map fun q => decide (seq ≤ q)).getD false
    { t with
      arch := a, run := Run.start a, seq := seq, acc := acc, acq := t.acq.filter fun i => !(loads.contains i || runs.contains i)
      deferred := if late then none else t.deferred
      defSeq := if late then none else t.defSeq }
  let s := { s with
    loads := s.loads.filter fun (l : PLoad) => !(loads.contains l.id)
    stores := s.stores.filter fun (p : PStore) => !(runs.contains p.run)
    waiters := s.waiters.filter fun (w : Waiter) => !(w.who = r ∧ seq ≤ w.seq)
    tileOps := s.tileOps.filter fun (o : TileOp) => !(runs.contains o.run)
    held := s.held.filter fun (h : HeldRun) => !(runs.contains h.id)
    scReads := s.scReads.filter fun (e : ScRead) => !(e.who = r ∧ seq ≤ e.seq)
    walks := s.walks.map fun (w : Walk) => { w with who := w.who.filter fun x => x.1 != r }
    rvHolds := s.rvHolds.filter fun (h : RvHold) => match h.who with
      | some (t, q, _) => !(t = r ∧ seq ≤ q)
      | none => true
    fab := { s.fab with remotes := s.fab.remotes.filter fun (x : Remote) => match x.purpose with
      | .load i => !(loads.contains i)
      | _ => true } }
  let s := s.dropClaims r
  match (s.thread r).bind (·.stop) with
  | some f => s.haltThread r f
  | none => s.makeReady r 0

/-- The thread's place to return to: its oldest discarded run, or the run that it is in, with the number of cross-lane
instructions it executes alone there because a run that it met is not discarded (R130). A thread that has been killed, or whose
last run is released, does not return. -/
def State.zoneReturn (s : State) (gone : List HeldRun) (r : TRef) (t : Thread) : Option (Nat × Arch × Option AccState × Nat) :=
  let here := gone.map fun h => (h.who, h.seq)
  let met := fun (l : List (TRef × Nat)) => l.all fun m => here.contains m || (match s.thread m.1 with
    | some x => x.seq == m.2
    | none => false)
  match (if t.status = .exited ∧ (gone.any fun h => h.who = r ∧ h.exits = true) = false then none else gone.find? fun h => h.who = r) with
  | some h => some (h.seq, h.snap, h.acc, if met h.mates then 0 else h.met)
  | none =>
    if t.status = .running ∨ t.status.inRun = true then
      some (t.seq, t.run.snap, t.acc.map fun (a : AccState) => { a with out := [] },
        if met t.run.mates then 0 else t.arch.xcount)
    else none

/-- A pass put back: its memory, its operation and its tile's status are as they were before it (R329). -/
def State.undoPass (s : State) (h : PassHold) : State :=
  let s := { s with
    mem := putBytes s.mem h.old
    passHolds := s.passHolds.filter fun (x : PassHold) => x.id != h.id }
  (s.modTileOp h.was.id fun _ => h.was).modTile h.was.wg h.tile h.before.gen fun _ => h.before

/-- The discards of a strike heard now in the zone of a core (R329). -/
def State.replayZone (s : State) (core : Nat) : State :=
  let gone := s.held.filter fun h => h.core == core && decide (s.clock < h.rel)
  let back := (s.threads.filter fun x => s.coreOf (TRef.ofKey x.1) == core).filterMap fun x =>
    let r := TRef.ofKey x.1
    (s.zoneReturn gone r x.2).map fun y => (r, y)
  let s1 := s.undoRuns (gone.map (·.id))
  let s2 := back.foldl (fun (s : State) y =>
    s.returnTo y.1 y.2.1 y.2.2.1 y.2.2.2.1 y.2.2.2.2) s1
  let holds := (s2.passHolds.filter fun h => h.core == core && decide (s2.clock < h.rel)).reverse
  let s3 := holds.foldl (fun (s : State) h => s.undoPass h) s2
  let ws := (s3.wgs.filter fun x => coreOfQuad x.2.quad == core).map (·.1)
  forEach (fun (s : State) w => (s.meetings w).settleWg w) s3 ws

/-- STRIKE (R327, R329): it is counted, and a core that has heard more than 64 within a millisecond is lost; else the zone
replays. -/
def execStrike (core : Nat) (s : State) : Result :=
  if 192 ≤ core then .next s
  else
    let log := (s.strikeLog.filter fun x => decide (s.us < x.2 + 1000)) ++ [(core, s.us)]
    let s := { s with strikes := aput core ((alook core s.strikes).getD 0 + 1) s.strikes, strikeLog := log }
    if 64 < (log.filter fun x => x.1 == core).length then .next (s.loseCores [core]) else .next (s.replayZone core)

end Sys2Proof.Machine
end

