-- ==== Sys2Proof/Machine/MemEvents.lean ====
section
/-! DEFINITION. The steps of the memory system that no instruction makes: returning loads, performing stores, the wait table,
page walks, promotion, growth of private regions, write-back and scrubbing (07_execution.md R117, 08_memory.md R140, R150,
R152, R157, 21_faults.md R321, R330, R331). -/

namespace Sys2Proof.Machine

/-! ### Loads and stores (R117, R141) -/

/-- The line of a load brought into the L1 as clean copies, which stay there for 20 µs at most, so that every write becomes
visible (R152; log entry 98); bytes held dirty stay, and a poisoned codeword is not copied (R331). -/
def State.fillLine (s : State) (core k : Nat) : State :=
  if isScratch k then s
  else
    let base := lineKey k
    let s := s.takeLine k
    { s with l1 := (List.range 128).foldl (fun m i =>
        match alook (l1Key core (base + i)) m with
        | some _ => m
        | none => if s.isPoisoned (base + i) then m else
          aput (l1Key core (base + i)) { val := Memory.read s.mem (base + i), dirty := false, rel := 0, due := s.us + 20 } m) s.l1 }

/-- A promoting acquire waits while its line is noted (R150). -/
def State.promoteWaits (s : State) (l : PLoad) : Bool :=
  l.kind == .promote && (match l.loc with
    | .key k => s.notes.any fun n => n.line == lineKey k
    | .remote _ _ => false)

/-- LOAD_RETURN (R117): the value of a load is written to its registers. fill says that the line came from its home slice
and is kept in the L1; bad says that the data are uncorrectable (R141, R330). -/
def execLoadReturn (id : Nat) (fill : Bool) (bad : Bool) (s : State) : Result :=
  match s.loads.find? fun l => l.id == id && !l.who.acc && l.remote.isNone with
  | none => .next s
  | some l =>
    if s.loadGone l then .next (s.finishLoad l [] (some .prot))
    else if s.promoteWaits l || s.loadWaits l then .next s
    else match l.loc with
      | .remote _ _ => .next s
      | .key k =>
        let s := if fill && !(isScratch k) then s.dropClean l.core (some (lineKey k)) else s
        let (bs, poison) := s.loadBytes l
        let s := if bad then s.poisonRange k l.len else s
        let s := if fill then s.fillLine l.core k else s
        .next (s.finishLoad l bs (if bad || poison then some .uncorr else none))

/-- STORE_PERFORM (R117): a pending effect that nothing holds back is performed, waits at its bank, or goes out to another
module; bad says that its data are uncorrectable (R141). A release to another module takes what its core wrote before it home
first (R144, R163). -/
def execStorePerform (id : Nat) (bad : Bool) (s : State) : Result :=
  match s.stores.find? fun p => p.id == id && p.remote.isNone with
  | none => .next s
  | some p =>
    match p.op with
    | .store (.remote m _) _ _ _ =>
      if s.storeMay p then
        (if bad then .next (s.failStore p .uncorr) else
          .next ((if p.op.releases then (s.mirrorFor p.who).releaseAt p.core .sy else s).sendStore p m))
      else .next s
    | .store (.key _) _ _ _ =>
      if bad && s.storeMay p then .next (s.failStore p .uncorr) else .next (s.tryStore p)
    | _ => .next (s.tryStore p)

/-! ### The wait table (R156, R157) -/

/-- Where an entry of a thread spills (R157). -/
def State.tableSpillAt (s : State) (e : TableEntry) : DWord :=
  match s.wg e.who.wg with
  | none => 0
  | some g =>
    let n := ((s.tableOf (coreOfQuad g.quad)).filter fun x => x.who = e.who ∧ x.spilled = true).length
    (s.part g.part).spillbase + BitVec.ofNat 64 (0x440000 * g.quad + 0x400000 + 512 * g.slotOf e.who + 16 * n)

/-- WAIT_TABLE_SPILL (R157): a full table spills its oldest entry, or event 9 is posted where its page is not mapped. -/
def execWaitTableSpill (core : Nat) (s : State) : Result :=
  let es := (s.tableOf core).filter fun e => !e.spilled
  if es.length < 4096 then .next s
  else match oldestEntry es with
    | none => .next s
    | some e =>
      let a := s.tableSpillAt e
      let p := s.partOf e.who
      match s.engineAt p true .store a with
      | .ok _ => .next (s.setSpilled e.id true)
      | .error _ => .next (s.postMissing p a 0)

/-- The key of the word that an entry waits on. -/
def State.entryKey (s : State) (id : Nat) : List Nat :=
  ((s.waiters.filter fun w => w.id == id).map (·.key)) ++ (s.stores.filterMap fun p => if p.id = id then (match p.op with
    | .store (.key k) _ _ _ => some k
    | _ => none) else none)

/-- A spilled entry whose condition holds. -/
def State.spilledReady (s : State) (e : TableEntry) : Bool :=
  (s.waiters.any fun w => w.id == e.id && s.waiterReady w) ||
    (s.stores.any fun p => p.id == e.id && s.wefReady { p with spilled := false })

/-- WAIT_TABLE_FILL (R157): the oldest spilled entry comes back where one is free; a spilled waiter whose condition holds
proceeds. A request held at a rendezvous word and a claim at a maze queue are served where they are held, spilled or not. -/
def execWaitTableFill (core : Nat) (s : State) : Result :=
  let es := s.tableOf core
  let out := es.filter (·.spilled)
  let room := decide ((es.filter fun e => !e.spilled).length < 4096)
  match oldestEntry (out.filter s.spilledReady), oldestEntry out with
  | some e, _ => .next ((s.setSpilled e.id false).monitorAll (s.entryKey e.id))
  | none, some e => if room then .next (s.setSpilled e.id false) else .next s
  | none, none => .next s

/-! ### Page walks (R318 to R321) -/

/-- A translation kept in a core's TLB, which holds the newest 512 (R321). -/
def State.tlbFill (s : State) (core p : Nat) (t : Trans) : State :=
  let e : TlbEntry := { core := core, part := p, gen := (s.part p).gen, base := t.base, size := t.size, pa := t.pa,
                        tgt := t.tgt, mod := t.mod, r := t.r, w := t.w, x := t.x, sup := t.sup }
  let mine := (s.tlb.filter fun x => x.core == core && !(x.part == p && x.gen == e.gen && x.base == e.base && x.size == e.size)).take 511
  { s with tlb := e :: (mine ++ s.tlb.filter fun x => x.core != core) }

/-- A walk has ended for one of its threads: the thread goes on at its access, or faults (R52, R321); an entry that is
uncorrectable ends it with UNCORR (R331). -/
def State.walkEnd (s : State) (id : Nat) (r : TRef) (a : DWord) (k : Access) : State :=
  match s.thread r, s.wg r.wg with
  | some t, some g =>
    if t.status ≠ .parked (.walk id) then s
    else if s.walkBad g.part a then s.takeFault r (faultAt .uncorr a k false) t.run.count
    else match s.walkVa g.part a with
      | some x => (s.tlbFill (s.coreOf r) g.part x).wake r
      | none => s.takeFault r (faultAt (s.unmapped g a) a k false) t.run.count
  | _, _ => s

/-- The walks of a die that its 64 walkers are at: the oldest (02_organisation.md R9). -/
def State.walking (s : State) (die : Nat) : List Walk := (s.walks.filter fun w => w.core / 96 == die).take 64

/-- PAGE_WALK_COMPLETE (R321): one of the walks that the die's walkers are at ends. -/
def execPageWalkComplete (id : Nat) (s : State) : Result :=
  match s.walks.find? fun w => w.id == id with
  | none => .next s
  | some w =>
    if !((s.walking (w.core / 96)).any fun x => x.id == id) then .next s else
    let s := { s with walks := s.walks.filter fun (x : Walk) => x.id != id }
    .next (forEach (fun (s : State) (x : TRef × DWord × Access) => s.walkEnd id x.1 x.2.1 x.2.2) s w.who)

/-! ### Promotion and write-back (R150, R152) -/

/-- PROMOTION_REQUEST (R150): the owner of a noted line writes its L1's writes to their home slices and acknowledges. -/
def execPromotionRequest (core : Nat) (line : Nat) (s : State) : Result :=
  if s.notes.any fun n => n.core == core && n.line == lineKey line then .next (s.writeBackAll core none) else .next s

/-- L1_WRITEBACK (R152): the dirty bytes of a line reach their home slice. -/
def execL1Writeback (core : Nat) (line : Nat) (s : State) : Result := .next (s.writeBackAll core (some (lineKey line)))

/-! ### Private regions (R140) -/

/-- The bytes that the driver writes to page tables, in 8-byte entries. -/
def entryBytes (l : List (Nat × DWord)) : List (Nat × Byte) := l.flatMap fun x => bytesAt (kHbm x.1) (natLe 8 x.2.toNat)

/-- The driver may write an entry: it lies in its partition's HBM. -/
def State.driverMay (s : State) (p : Nat) (l : List (Nat × DWord)) : Bool :=
  let m := (s.part p).lim
  l.all fun x => x.1 % 8 == 0 && decide (m.hbmBase ≤ x.1) && decide (x.1 + 8 ≤ m.hbmBase + m.hbmSize)

/-- The 64 KiB parts of a slice from its mark to a new one, zeroed where they lie in this module's memory or the host's
(R140). -/
def State.zeroGrown (s : State) (p : Nat) (lo n : Nat) : State :=
  (List.range n).foldl (fun (s : State) i =>
    let a : DWord := BitVec.ofNat 64 (lo + 65536 * i)
    match (s.walkVa p a).map fun (t : Trans) => t.loc a with
    | some (.key k) => s.zeroRange k 65536
    | _ => s) s

/-- PMEMGROW_SERVICE (R140): the host driver has written page-table entries and raised the high-water mark through the
faulting page; the parked thread resumes at its run's start, and event 2 is posted. -/
def execPmemgrowService (w : Nat) (t : Nat) (high : DWord) (writes : List (Nat × DWord)) (s : State) : Result :=
  let grows := fun (r : TRef) => match (s.thread r).map (·.status) with
    | some (.parked (.pmemgrow _)) => true
    | _ => false
  let r : TRef := { wg := w, tid := t, acc := !(grows { wg := w, tid := t }) && grows { wg := w, tid := t, acc := true } }
  match s.thread r, s.wg w with
  | some x, some g => (match x.status with
    | .parked (.pmemgrow a) =>
      let s1 := s.homeStore (entryBytes writes)
      let ok := s.driverMay g.part writes && high.toNat % 65536 == 0 && decide (g.hwm.toNat ≤ high.toNat) &&
        decide (a.toNat < high.toNat) && decide (high.toNat ≤ g.pbase.toNat + g.pres) &&
        (List.range ((high.toNat - g.hwm.toNat) / 65536)).all fun i =>
          (s1.walkVa g.part (BitVec.ofNat 64 (g.hwm.toNat + 65536 * i))).isSome
      if !ok then .next s
      else
        let s := s1.zeroGrown g.part g.hwm.toNat ((high.toNat - g.hwm.toNat) / 65536)
        let s := s.modWg w fun g => { g with hwm := high }
        .next ((s.makeReady r 0).postEvent g.part 2 (eventAddr high ++ [BitVec.ofNat 32 g.wgid]))
    | _ => .next s)
  | _, _ => .next s

/-! ### Scrubbing (R331) -/

/-- The partition whose HBM holds a byte counts a corrected error (R330). -/
def State.countFixed (s : State) (k : Nat) : State :=
  forEach (fun (s : State) (p : Nat) => s.modPart p fun x => { x with eccce := x.eccce + 1 }) s
    ((s.parts.filter fun x => x.2.defined && decide (x.2.lim.hbmBase ≤ k) && decide (k < x.2.lim.hbmBase + x.2.lim.hbmSize)).map (·.1))

/-- PATROL_SCRUB (R331): a line of HBM is read and corrected; found names the codewords of it, 0 to 3, with an error and says
of each whether it was corrected, which is counted (R330), or is uncorrectable. -/
def execPatrolScrub (line : Nat) (found : List (Nat × Bool)) (s : State) : Result :=
  .next (forEach (fun (s : State) (e : Nat × Bool) =>
    let k := lineKey line + 32 * e.1
    if 4 ≤ e.1 then s else if e.2 then s.countFixed k else s.poisonWord k) s found)

end Sys2Proof.Machine
end

