-- ==== Sys2Proof/Machine/Table.lean ====
section
/-! DEFINITION. The time-triggered table (19_scheduling.md R294). -/

namespace Sys2Proof.Machine

/-- TTBASE, and whether the table runs (21_faults.md R310). -/
def Part.ttbase (p : Part) : DWord := p.pairReg 0x08 16
def Part.ttOn (p : Part) : Bool := (p.creg 0x0A).getLsbD 0

/-- An entry of the table. -/
structure TtEntry where
  pkt : DWord
  slot : Nat
  q : Nat
  en : Bool
  deriving DecidableEq, Repr

/-- The address of an entry. -/
def Part.ttAddr (p : Part) (e : Nat) : DWord := p.ttbase + BitVec.ofNat 64 (16 * e)

/-- An entry as it stands in memory. A slot length outside 1 to 1,000 counts as the nearest of these. -/
def State.ttEntry (s : State) (p e : Nat) : Option TtEntry :=
  (s.agentRead p ((s.part p).ttAddr e) 16).map fun b =>
    let w := blkNat b 8 4
    { pkt := BitVec.ofNat 64 (blkNat b 0 8), slot := max 1 (min (w % 1024) 1000), q := w / 1024 % 16, en := w / 2 ^ 14 % 2 == 1 }

/-- The table's previous launch has completed: its slot is not queued, and no launch of it is under way; the address of a queue block
that cannot be read. -/
def State.ttFree (s : State) (p : Nat) : Except DWord Bool :=
  match (s.part p).tt.launch with
  | none => .ok true
  | some (q, slot) => match s.queueAt p q with
    | none => .error (s.qAddr p q)
    | some b => .ok (!((s.launchesOf p q).any fun l => l.slot == slot.toNat) && decide ((b.resv - b.read).toNat ≤ (slot - b.read).toNat))

/-- The packet of the present entry submitted as LAUNCH does (R296); a queue that is not enabled or is full leaves the
submission deferred. none where a structure cannot be reached. -/
def State.ttSubmit (s : State) (p : Nat) (e : TtEntry) : Except DWord State :=
  match s.ttFree p with
  | .error a => .error a
  | .ok false => .ok (s.modPart p fun x => { x with tt := { x.tt with deferred := true } })
  | .ok true => match s.agentRead p e.pkt 128 with
    | none => .error e.pkt
    | some pkt => match s.queueAt p e.q, s.submit p e.q pkt with
      | some b, .ok (w, s) =>
        if 2 ^ 30 ≤ w.toNat then .ok (s.modPart p fun x => { x with tt := { x.tt with deferred := true } })
        else .ok (s.modPart p fun x => { x with tt := { x.tt with deferred := false, launch := some (e.q, b.resv) } })
      | _, .error a => .error a
      | none, _ => .error (s.qAddr p e.q)

/-- The entry whose slot is running. -/
def TtState.present (t : TtState) : Nat := (t.entry + 255) % 256

/-- TT_SLOT_START (R294): the present slot has ended and the next begins, its packet submitted or deferred; or a deferred
submission takes place. -/
def execTtSlotStart (part : Nat) (s : State) : Result :=
  let x := s.part part
  if !x.defined || !x.ttOn || x.suspended || x.resetWait then .next s
  else if x.tt.ends ≤ s.us then
    if x.tt.deferred then .next s
    else match s.ttEntry part x.tt.entry with
      | none => .next (s.postMissing part (x.ttAddr x.tt.entry) 2)
      | some e =>
        let from' := if x.tt.ends = 0 then s.us else x.tt.ends
        let s := s.modPart part fun y => { y with tt := { y.tt with entry := (x.tt.entry + 1) % 256, ends := from' + e.slot } }
        if !e.en then .next s
        else match s.ttSubmit part e with
          | .ok s => .next s
          | .error a => .next ((s.modPart part fun y => { y with tt := { y.tt with deferred := true } }).postMissing part a 2)
  else if x.tt.deferred then
    match s.ttEntry part x.tt.present with
    | none => .next (s.postMissing part (x.ttAddr x.tt.present) 2)
    | some e => match s.ttSubmit part e with
      | .ok s => .next s
      | .error a => .next (s.postMissing part a 2)
  else .next s

/-- TT_SLOT_SKIP (R294): a slot has ended with its submission deferred. The packet's STATUS says so, and the meter log; where the
entry or STATUS cannot be reached, event 9 tells of it and the slot's end is tried again (R394). -/
def execTtSlotSkip (part : Nat) (s : State) : Result :=
  let x := s.part part
  if !x.defined || !x.ttOn || !x.tt.deferred || decide (s.us < x.tt.ends) then .next s
  else
    let e := x.tt.present
    match s.ttEntry part e with
    | none => .next (s.postMissing part (x.ttAddr e) 2)
    | some y => match s.agentWrite part (y.pkt + 0x7C) (natLe 4 (statusWord 3 7).toNat) with
      | none => .next (s.postMissing part (y.pkt + 0x7C) 2)
      | some s => .next ((s.modPart part fun y => { y with tt := { y.tt with deferred := false } }).meterEvent 4 part (natLe 8 e))

end Sys2Proof.Machine
end

