-- ==== Sys2Proof/Machine/Peer.lean ====
section
/-! DEFINITION. What arrives from other modules: flits and their acceptance, requests of peers, responses, reductions, and
the frames of the scale-out ports (22_fabric_host.md R332 to R352). -/

namespace Sys2Proof.Machine

/-! ### Requests of peers (R337, R338, R340, R342) -/

/-- What a request asks: read, write, atomic or launch. -/
inductive PeerKind where
  | read | write | atomic | launch
  deriving DecidableEq, Repr

/-- The kind of a request by its TYPE (R333); a write of a whole window slot is a launch (R342). -/
def peerWhat (q : PeerReq) : Option PeerKind :=
  let slot := isWindow q.paddr && q.paddr % 128 == 0 && q.data.length == 128
  match q.kind with
  | 1 => some .read
  | 3 => some (if slot then .launch else .write)
  | 5 => some .atomic
  | 9 => if slot then some PeerKind.launch else none
  | _ => none

/-- The bytes of memory that a request touches. -/
def peerSpan (q : PeerReq) : Nat :=
  match q.kind with
  | 1 => q.len
  | 3 => q.data.length
  | _ => match atomOps[leNat (q.data.take 4)]? with
    | some o => o.size
    | none => 4

/-- DSTPART of a request: the partition whose HBM allocation holds the whole range, or whose window slot it writes (R340). -/
def State.dstPart (s : State) (q : PeerReq) : Option Nat :=
  let a := q.paddr % 2 ^ 44
  if q.paddr / 2 ^ 44 ≠ s.fab.domain then none
  else if isWindow q.paddr then
    let p := (a - 0xFFFFFFF0000) / 0x800
    if peerWhat q = some PeerKind.launch ∧ (s.part p).defined = true ∧ p < 20 then some p else none
  else (s.parts.find? fun x => x.2.defined && decide (x.2.lim.hbmBase ≤ a) &&
    decide (a + peerSpan q ≤ x.2.lim.hbmBase + x.2.lim.hbmSize)).map (·.1)

/-- The entry that a request is checked against: the lowest-numbered valid one whose fields equal the request's (R340). -/
def State.aclFor (s : State) (q : PeerReq) (p : Nat) : Option AclEntry :=
  ((List.range 512).filterMap fun i => alook i s.fab.acl).find? fun e =>
    e.valid && e.srcMod == q.srcMod && e.srcPart == q.srcPart && e.dstPart == p

/-- An entry permits a request. -/
def aclPermits (e : AclEntry) (q : PeerReq) : Bool :=
  match peerWhat q with
  | some .read => e.rd
  | some .write => e.wr
  | some .atomic => e.atom
  | some PeerKind.launch => e.qmask / 2 ^ (q.paddr / 0x80 % 16) % 2 == 1
  | none => false

/-- The partition that a request is permitted to reach; none where it is denied (R340). -/
def State.peerMay (s : State) (q : PeerReq) : Option Nat :=
  match s.dstPart q with
  | none => none
  | some p => match s.aclFor q p with
    | none => none
    | some e => if aclPermits e q && !(s.part p).resetWait then some p else none

/-- What the destination last learned of a peer's generation and epoch (R289, R336): under its partition, its module and, for one
of another domain, that domain (R352). -/
def peerKey (far : Option Nat) (m p : Nat) : Nat := (far.elim 0 fun d => d + 1) * 2 ^ 19 + m * 32 + p

/-- A request is stale where its GEN or EPOCH is not the one learned; a later epoch is learned from it. -/
def State.learn (s : State) (far : Option Nat) (m p gen epoch : Nat) : Bool × State :=
  let put := { s with fab := { s.fab with peers := aput (peerKey far m p) (gen, epoch) s.fab.peers } }
  match alook (peerKey far m p) s.fab.peers with
  | none => (true, put)
  | some x =>
    if x = (gen, epoch) then (true, s)
    else if x.2 ≠ epoch ∧ (epoch + 2 ^ 32 - x.2) % 2 ^ 32 < 2 ^ 31 then (true, put)
    else (false, s)

/-- A response to a request: TYPE, LEN and body (R333). -/
structure Answer where
  type : Nat
  len : Nat
  body : List Byte
  deriving DecidableEq, Repr

/-- The TYPE of the response to a kind of request. -/
def respType (kind : Nat) : Nat := kind + 1

/-- A denial (R333). -/
def Answer.denied (kind : Nat) : Answer :=
  { type := respType kind, len := if kind = 1 ∨ kind = 5 then 0 else 1, body := [1] }
/-- The data met an uncorrectable error (R333). -/
def Answer.uncorr (kind : Nat) : Answer := { type := respType kind, len := 0, body := [2] }

/-- The first byte that a request names, and whether data that it reads are uncorrectable. -/
def peerKeyOf (q : PeerReq) : Nat := kHbm (q.paddr % 2 ^ 44)
def State.peerBad (s : State) (q : PeerReq) (n : Nat) : Bool := (List.range n).any fun i => s.isPoisoned (peerKeyOf q + i)

/-- An access of a peer performed at the home slice (R338), as an agent of SY scope. -/
def State.peerAccess (s : State) (p : Nat) (q : PeerReq) : Answer × State :=
  match peerWhat q with
  | some .read =>
    if s.peerBad q q.len then (.uncorr q.kind, s)
    else ({ type := respType q.kind, len := q.len, body := s.mem.readN (peerKeyOf q) q.len }, s.meterLink p q.len)
  | some .write =>
    ({ type := respType q.kind, len := 1, body := [0] }, (s.homeStore (bytesAt (peerKeyOf q) q.data)).meterLink p q.data.length)
  | _ => (.denied q.kind, s)

/-- The operation and the operand words of a peer's atomic (R333). -/
def peerAtom (q : PeerReq) : Option AtomOp := atomOps[leNat (q.data.take 4)]?
def peerWords (q : PeerReq) (o : AtomOp) : List Word :=
  (List.range (o.size / 2)).map fun i => BitVec.ofNat 32 (leNat ((q.data.drop (4 + 4 * i)).take 4))

/-- A peer's atomic begins at its fabric port, a site of its own (R148, R153, R338): it reads now and writes when it ends.
Answered at once where it is none or its data are uncorrectable. -/
def State.peerBegin (s : State) (site : Nat) (far : Option Nat) (q : PeerReq) : Option Answer × State :=
  match peerAtom q with
  | none => (some (.denied q.kind), s)
  | some o =>
    if s.peerBad q o.size then (some (.uncorr q.kind), s)
    else
      let (old, s) := s.rmwOld 192 (peerKeyOf q) o.size
      (none, { s with rmws := s.rmws ++
        [{ site := site, key := peerKeyOf q, old := old, run := none, req := some (far, q), begun := s.clock }] })

/-- A denial enters the meter log (R340). -/
def State.deny (s : State) (q : PeerReq) : State :=
  s.meterEvent 3 ((s.dstPart q).getD 255) (natLe 2 q.srcMod ++ natLe 1 q.srcPart ++ natLe 1 q.kind ++ natLe 8 q.paddr)

/-- A peer's packet queued as LAUNCH does (R342); a queue that is not enabled or is full denies it. The address of a structure
of the queue that cannot be reached: nothing is answered. -/
def State.peerQueue (s : State) (p : Nat) (q : PeerReq) : Except DWord (Answer × State) :=
  let n := q.paddr / 0x80 % 16
  (s.submit p n q.data).map fun x =>
    if 2 ^ 30 ≤ x.1.toNat then (.denied q.kind, s.deny q) else ({ type := respType q.kind, len := 1, body := [0] }, x.2.meterLink p 128)

/-- A request of a peer that came in at a site: checked, performed and answered; an atomic is answered when it ends. In
S3 no home slice is there to perform it (25_system.md R388). -/
def State.servePeer (s : State) (site : Nat) (far : Option Nat) (q : PeerReq) : Option Answer × State :=
  if s.sys.power = .s3 then (none, s)
  else match s.learn far q.srcMod q.srcPart q.gen q.epoch with
  | (false, s) => (none, s)
  | (true, s) => (match s.peerMay q with
    | none => (some (.denied q.kind), s.deny q)
    | some p => match peerWhat q with
      | some PeerKind.launch => (match s.peerQueue p q with
        | .ok x => (some x.1, x.2)
        | .error a => (none, s.postMissing p a 2))
      | some PeerKind.atomic => s.peerBegin site far q
      | _ =>
        let x := s.peerAccess p q
        (some x.1, x.2))

/-- The flit of an answer: the partition that answers, the requesting partition, and the generation and epoch of the request. -/
def State.answerFlit (s : State) (q : PeerReq) (a : Answer) : Flit :=
  { type := a.type, dstMod := q.srcMod, srcMod := s.fab.modId, dstPart := q.srcPart, srcPart := (s.dstPart q).getD 0, gen := q.gen,
    epoch := q.epoch, len := a.len, paddr := q.paddr, tid := q.tid, body := a.body }

/-- An answer sent out by a port, or by a frame to the domain that its request came from. -/
def State.answer (s : State) (far : Option Nat) (q : PeerReq) (a : Answer) : State :=
  match far, s.portFor q.srcMod with
  | some d, _ => s.sendFrame d q.srcMod (s.answerFlit q a)
  | none, some n => s.sendFlit n (s.answerFlit q a)
  | none, none => s

/-- A peer's atomic ends (R148): it writes and is answered; it is denied where its access has been taken away meanwhile. -/
def State.peerEnd (s : State) (x : Rmw) : State :=
  let s := { s with rmws := s.rmws.erase x }
  match x.req with
  | none => s
  | some (far, q) => match s.peerMay q, peerAtom q with
    | some p, some o =>
      let s := (s.rmwNew 192 x.key (atomBytes o x.old (peerWords q o))).meterLink p o.size
      s.answer far q { type := respType q.kind, len := x.old.length, body := x.old }
    | _, _ => (s.deny q).answer far q (.denied q.kind)

/-- The atomics of a fabric port that are under way end: a port's accesses follow one another. -/
def State.endSite (s : State) (site : Nat) : State :=
  forEach (fun s x => s.peerEnd x) s (s.rmws.filter fun x => x.site == site && x.req.isSome)

/-- The site of a fabric port: those of the twelve scale-up ports, then those of the two scale-out ports. -/
def portSite (n : Nat) : Nat := 24 + n

/-- A request that came in at a port is served and answered. -/
def State.peerTurn (s : State) (site : Nat) (far : Option Nat) (q : PeerReq) : State :=
  match (s.endSite site).servePeer site far q with
  | (none, s) => s
  | (some a, s) => s.answer far q a

/-- The port at which a module's requests come in: the one that leads to it. -/
def State.portFrom (s : State) (m : Nat) : Nat := portSite ((s.portFor m).getD 0)

/-- PEER_REQUEST (R340). -/
def execPeerRequest (req : PeerReq) (s : State) : Result := .next (s.peerTurn (s.portFrom req.srcMod) none req)
/-- PEER_LAUNCH (R342): a request that writes the window. -/
def execPeerLaunch (req : PeerReq) (s : State) : Result :=
  if isWindow req.paddr then .next (s.peerTurn (s.portFrom req.srcMod) none req) else .next s

/-! ### Responses (R339) -/

/-- The code of a failed load, store or atomic (R141, R339), and that of a command (R177). -/
def remoteCode (status : Nat) : Code := if status = 2 then .uncorr else .remote
def remoteStatus (status : Nat) : Nat := if status = 1 then 5 else if status = 2 then 3 else 4

/-- A load of another module's memory ends: the bytes of its own thread's stores are kept (R147). -/
def State.remoteLoad (s : State) (l : PLoad) (status : Nat) (data : List Byte) : State :=
  if l.who.acc then
    let s := { s with loads := s.loads.filter fun (x : PLoad) => x.id != l.id }
    if status = 0 then s.aloadFill l.who l.id ((List.range (l.len / 4)).map fun i => BitVec.ofNat 32 (leNat ((data.drop (4 * i)).take 4)))
    else (s.aloadLost l.who l.id).accFault l.who (remoteCode status) l.addr
  else
    let bs := (List.range l.len).map fun i => (alook i l.fwd).getD (data.getD i 0)
    s.finishLoad l bs (if status = 0 then none else some (remoteCode status))

/-- The condition of a WAITA holds for a value (R167). -/
def WaiterKind.holds (k : WaiterKind) (v : Word) : Bool :=
  match k with
  | .waitaEq _ x => v == x
  | .waitaChg _ x => v != x
  | _ => true

/-- A read for a WAITA on another module (R338): the thread goes on where its condition holds; else the word is read again
when it changes there. -/
def State.remoteWait (s : State) (x : Remote) (w : Waiter) (status : Nat) (data : List Byte) : State :=
  let l : PLoad := { id := w.id, who := w.who, seq := w.seq, core := w.core, loc := w.loc, len := 4, kind := w.kind.read,
                     dests := w.dests, fwd := [], value := some data, addr := w.addr, remote := none }
  let go := fun (s : State) (err : Option Code) =>
    let s := { s with waiters := s.waiters.filter fun (y : Waiter) => y.id != w.id }
    ((s.pass w.who 4).wake w.who).finishLoad l data err
  if status ≠ 0 then go s (some (remoteCode status))
  else if w.kind.holds (BitVec.ofNat 32 (leNat data)) then go s none
  else
    let (j, s) := s.takeId
    s.addRemote { x with id := j }

/-- An instruction unit of another module is there, and the thread's core keeps it; or its fetch has failed (R338, R339). -/
def State.fetchEnd (s : State) (id : Nat) (r : TRef) (a : DWord) (k status : Nat) (data : List Byte) : State :=
  match s.thread r with
  | none => s
  | some t =>
    if t.status ≠ .parked (.walk id) then s
    else if status = 0 then
      ({ s with fetched := aput (l1Key (s.coreOf r) k) (BitVec.ofNat 16 (leNat (data.take 2))) s.fetched }).wake r
    else s.takeFault r (faultAt (remoteCode status) a .fetch false) t.run.count

/-- An outstanding request ends: status 0 with its data, 1 denied, 2 uncorrectable, 3 without a response (R339). -/
def State.remoteEnd (s : State) (x : Remote) (status : Nat) (data : List Byte) : State :=
  let s := { s with fab := { s.fab with remotes := s.fab.remotes.filter fun (y : Remote) => y.id != x.id } }
  let s := s.meterLink x.part data.length
  match x.purpose with
  | .load i => (match s.loads.find? fun l => l.id == i with
    | some l => s.remoteLoad l status data
    | none => s)
  | .store i => (match s.stores.find? fun p => p.id == i with
    | some p => if status = 0 then s.performStore p else s.failStore p (remoteCode status)
    | none => s)
  | .atom r seq o d a =>
    let s := if status = 0 then s.arrive r seq (destRegs (atomDests o d) data) .loads
      else
        let (n, s) := s.takeFresh
        let f : FaultInfo := { code := remoteCode status, addr := a, access := .atomic, deferred := true }
        (s.modThread r fun t => t.defer f (some seq)).arrive r seq (poisonRegs n f (atomDests o d)) .loads
    s.readDone r (s.coreOf r) x.id
  | .waita i => (match s.waiters.find? fun w => w.id == i with
    | some w => s.remoteWait x w status data
    | none => s)
  | .copy i w => s.copyAcked i w (if status = 0 then none else some (remoteStatus status))
  | .completion i => s.modCopy i fun c => if status = 0 then { c with comp := 2 } else c.compFail (remoteStatus status)
  | .tgen i => s.genAcked i x.id (if status = 0 then none else some (remoteStatus status))
  | .cont l i => s.contSeen l i status data
  | .far => s.farDone x.id (if status = 0 then 0 else remoteStatus status) data
  | .fetch r a k => s.fetchEnd x.id r a k status data

/-- REMOTE_RESPONSE (R339): a response in time ends its request; a later one is discarded. -/
def execRemoteResponse (id : Nat) (status : Nat) (data : List Byte) (s : State) : Result :=
  match s.fab.remotes.find? fun x => x.id == id with
  | none => .next s
  | some x => if x.deadline ≤ s.us then .next s else .next (s.remoteEnd x (min status 2) data)

/-- REMOTE_TIMEOUT (R339): a request without a response for 2 ms, or to a module that no port reaches, has failed. -/
def execRemoteTimeout (id : Nat) (s : State) : Result :=
  match s.fab.remotes.find? fun x => x.id == id with
  | none => .next s
  | some x =>
    let lost := x.paddr / 2 ^ 44 == s.fab.domain && (s.portFor x.mod).isNone
    if x.deadline ≤ s.us ∨ lost = true then .next (s.remoteEnd x 3 []) else .next s

/-! ### Flits (R332 to R336) -/

/-- The held flits that an ACK does not cover (R334). -/
def Port.acked (p : Port) (ack : Nat) : Port :=
  if p.held.any fun x => x.1 == ack then
    { p with held := (p.held.dropWhile fun x => x.1 != ack).drop 1 }
  else p

/-- A flit of link control (R333, R334). -/
def linkControl (me : Nat) (bs : List Byte) : Flit := { type := 11, dstMod := 0, srcMod := me, len := bs.length, body := bs }

/-- A flit that a port drops; the first such drop is answered with a NAK naming the expected SEQ (R334). A retrain sends no flit
(R335). -/
def Port.dropOne (p : Port) (me us : Nat) : Port :=
  if p.nakSent || p.retraining then p else { (p.put us (linkControl me ([0, 0] ++ natLe 2 p.expect))) with nakSent := true }

/-- The request that a flit carries. -/
def Flit.request (f : Flit) : PeerReq :=
  let n := (f.body.getD 0 0).toNat
  { srcMod := f.srcMod, srcPart := f.srcPart, gen := f.gen, epoch := f.epoch, kind := f.type, paddr := f.paddr,
    len := if f.type = 1 then (if n = 0 then 256 else n) else f.len, tid := f.tid, data := f.body.take f.len }

/-- STATUS of a response flit (R333). -/
def Flit.status (f : Flit) : Nat :=
  if f.type = 2 ∨ f.type = 6 then (if f.len = 0 then (f.body.getD 0 0).toNat else 0) else (f.body.getD 0 0).toNat

/-- The request that a response answers: its TID, its partition, and a generation and an epoch that are current (R289,
R336). -/
def State.answered (s : State) (f : Flit) : Option Remote :=
  if f.gen = (s.part f.dstPart).gen ∧ f.epoch = (s.part f.dstPart).epoch then
    s.fab.remotes.find? fun x => x.id % 2 ^ 16 == f.tid && x.part == f.dstPart && x.type + 1 == f.type && decide (s.us < x.deadline)
  else none

/-- A flit that the module has received at a port's site takes effect; far is the other domain that it came from. The result of
a reduction, TYPE 8, takes its effect with REDUCTION_RESULT (log entry 87). -/
def State.takeFlit (s : State) (site : Nat) (far : Option Nat) (f : Flit) : State :=
  if f.type = 1 ∨ f.type = 3 ∨ f.type = 5 ∨ f.type = 9 then s.peerTurn site far f.request
  else if f.type = 2 ∨ f.type = 4 ∨ f.type = 6 ∨ f.type = 10 then
    match s.answered f with
    | some x => s.remoteEnd x (min f.status 2) (f.body.take f.len)
    | none => s
  else s

/-- A port whose retrain has ended with a mask: it replays from the last SEQ that the other side acknowledged (R335). -/
def Port.trained (p : Port) (mask : Nat) : Port :=
  let first : Option Nat := p.held.head?.map fun (x : Nat × Nat × Flit) => x.1
  { p with retraining := false, asked := false, nakSent := false, mask := mask, replay := first }

/-- The bits of n lanes from lane lo on. -/
def laneBits (lo n : Nat) : Nat := 2 ^ lo * (2 ^ n - 1)

/-- The widths of a retrain, in order (R335). -/
def linkWidths : List (Nat × Nat) := [(0, 8), (8, 8), (0, 4), (4, 4), (8, 4), (12, 4)]

/-- The mask of the first width that contains no failed lane. -/
def widthFor (failed : List Nat) : Option Nat :=
  (linkWidths.find? fun w => failed.all fun l => decide (l < w.1) || decide (w.1 + w.2 ≤ l)).map fun w => laneBits w.1 w.2

/-- PORT_FAILOVER (R344): the packets of remote copies that a port had not delivered go out again by the next port. -/
def State.failover (s : State) (n : Nat) : State :=
  forEach (fun (s : State) (x : Remote) => match s.portFor x.mod with
    | none => s
    | some m =>
      let s := { s with fab := { s.fab with remotes := s.fab.remotes.map fun (y : Remote) =>
        if y.id = x.id then { y with port := some m } else y } }
      s.sendFlit m (s.requestFlit x)) s
    (s.fab.remotes.filter fun x => x.port == some n && (match x.purpose with
      | .copy _ _ => true
      | .completion _ => true
      | _ => false))

/-- A port tells the other end that it begins a retrain (R333), unless it can send no flit. -/
def Port.tellRetrain (p : Port) (me us : Nat) : Port := if p.retraining || p.down then p else p.put us (linkControl me [1])

/-- A port trains onto the first width without a failed lane (R335); with none the link is down and its held flits are dropped. -/
def State.retrain (s : State) (n : Nat) : State :=
  match widthFor (s.port n).failed with
  | some m => s.modPort n fun p => { (p.tellRetrain s.fab.modId s.us) with mask := m, retraining := true, asked := false }
  | none => (s.modPort n fun p => { p with mask := 0, down := true, retraining := false, held := [], waiting := [] }).failover n

/-- Event 3 for a retrain that has ended (R293, R335). -/
def State.postRetrain (s : State) (n : Nat) : State :=
  s.postAll 3 [BitVec.ofNat 32 n, BitVec.ofNat 32 (s.port n).mask]

/-- Link control that a port accepts (R333 to R335): a NAK starts a replay, a retrain stops its sending, and the end of a
retrain gives it the mask. It takes no mask with a lane that has failed here, which stays out of every later retrain: one that it
was asked to take makes it train the link once more, onto a width without such a lane. -/
def State.linkCtl (s : State) (n : Nat) (f : Flit) : State :=
  let w := leNat ((f.body.drop 2).take 2)
  match (f.body.getD 0 0).toNat with
  | 0 => s.modPort n fun p => { p with replay := (p.held.find? fun x => x.1 == w).map (·.1) }
  | 1 => s.modPort n fun p => if p.retraining then p else { p with retraining := true, asked := true }
  | 2 =>
    let p := s.port n
    let lame := p.failed.any fun l => w / 2 ^ l % 2 == 1
    if p.retraining && p.asked && lame then (s.modPort n fun p => { p with retraining := false, asked := false }).retrain n
    else if p.retraining && p.asked then (s.modPort n fun p => let q := p.trained w; q.drain s.us q.waiting.length).postRetrain n
    else if lame then s
    else s.modPort n fun p => { p with mask := w }
  | _ => s

/-- FLIT_RECEIVE (R334): a flit is accepted where its CRC holds and its SEQ is the next expected, and takes effect; every
other one is dropped. Idle flits carry an ACK and take no SEQ. -/
def execFlitReceive (port : Nat) (flit : List Byte) (s : State) : Result :=
  let p := s.port port
  if 12 ≤ port ∨ p.down = true then .next s
  else if !crcHolds flit then .next (s.modPort port fun p => p.dropOne s.fab.modId s.us)
  else
    let f := Flit.parse flit
    let ack := fun (s : State) => s.modPort port fun p =>
      let p := p.acked f.ack
      p.drain s.us (p.waiting.length)
    if f.type = 0 then .next (ack s)
    else if f.seq ≠ p.expect then .next (s.modPort port fun p => p.dropOne s.fab.modId s.us)
    else
      let s := ack (s.modPort port fun p => { p with expect := (p.expect + 1) % 65536, nakSent := false, unacked := p.unacked + 1 })
      if 12 ≤ f.type then .next (s.modPort port fun p => { p with errors := p.errors + 1 })
      else if f.type = 11 then .next (s.linkCtl port f)
      else .next (s.takeFlit (portSite port) none f)

/-- ACK_RETURN (R334): an idle flit returns the ACK of the flits accepted. -/
def execAckReturn (port : Nat) (s : State) : Result :=
  if (s.port port).unacked = 0 ∨ (s.port port).retraining = true then .next s
  else .next (s.modPort port fun p => { p with unacked := 0 })

/-- FLIT_EXPIRE (R336): a flit that has been in the fabric for 1 ms is dropped. -/
def execFlitExpire (port : Nat) (seq : Nat) (s : State) : Result :=
  if (s.port port).held.any fun x => x.1 == seq && decide (x.2.1 + 1000 ≤ s.us) then
    .next (s.modPort port fun p => { p with held := p.held.filter fun x => !(x.1 == seq && decide (x.2.1 + 1000 ≤ s.us)) })
  else .next s

/-! ### Lanes (R335, R344) -/

/-- LANE_FAILURE (R335): the lane is left out of every later retrain. One in use makes the port retrain onto the first width
without a failed lane; with none the link is down and its held flits are dropped. -/
def execLaneFailure (port : Nat) (lane : Nat) (s : State) : Result :=
  let p := s.port port
  if 12 ≤ port ∨ 16 ≤ lane ∨ p.failed.contains lane = true then .next s
  else
    let failed := insNat lane p.failed
    let s := s.modPort port fun p => { p with failed := failed }
    if p.down ∨ p.mask / 2 ^ lane % 2 = 0 then .next s
    else .next (s.retrain port)

/-- LINK_RETRAIN_DONE (R335): the port tells the other end the mask, replays from the last SEQ that the other side
acknowledged, and event 3 is posted to every partition. A retrain that the other end began ends when that one tells the mask
(R333, log entry 86). -/
def execLinkRetrainDone (port : Nat) (peerAck : Nat) (s : State) : Result :=
  let p := s.port port
  if 12 ≤ port ∨ p.retraining = false ∨ p.asked = true then .next s
  else
    let s := s.modPort port fun p =>
      let q := ((p.acked peerAck).trained p.mask).put s.us (linkControl s.fab.modId ([2, 0] ++ natLe 2 p.mask))
      q.drain s.us q.waiting.length
    .next (s.postRetrain port)

/-- LINK_RESTORE (R335): the port trains to its full width again. -/
def execLinkRestore (port : Nat) (s : State) : Result :=
  if 12 ≤ port then .next (s.mailed false)
  else .next ((s.modPort port fun p =>
    { (p.tellRetrain s.fab.modId s.us) with failed := [], mask := 0xFFFF, down := false, retraining := true, asked := false }).mailed true)

/-! ### Reductions (R346 to R350) -/

/-- The unit of the accumulator as a value (R348), scale included. -/
def redUnit (t : Half) : Num :=
  match tKind t with
  | 1 => .fin false 1 0
  | 8 => .fin false 1 (-24)
  | _ => match tagFmt (tKind t) (tPrec t) with
    | some f => if tPrec t = 1 ∧ !(kindSigned (tKind t)) then .fin false 1 (-18) else f.decode 1
    | none => .fin false 1 0

/-- An addend as the accumulator takes it: an unsigned P = 1 value is rounded to a multiple of the unit under RNE (R348). -/
def redAddend (t : Half) (x : Num) : Num :=
  if kindB8 (tKind t) && !(kindSigned (tKind t)) && tPrec t == 1 then
    match x with
    | .fin sg m e => if e < -18 then .fin sg (roundIntMag .rne sg m (e + 18)).1 (-18) else x
    | y => y
  else x

/-- One element of a result: its code and its flags (R349). ROP is 0 add, 1 max, 2 min. -/
def redElem (b : CopyBlock) (codes : List Nat) : Nat × FFlags :=
  let t := b.srctag
  let t0 := t &&& 0x00FF
  let xs := codes.map fun c => valElem (BitVec.ofNat 32 c) t0 0
  let rm := (rmField b.rm).getD .rne
  let o : Ovf := if b.ovf then .ovf else .sat
  let r : Num :=
    if b.rop = 0 then (sumNum rm (xs.map (redAddend t0))).1
    else match xs with
      | [] => .nan
      | x :: l => l.foldl (fun a y => if b.rop = 1 then maxNum a y else minNum a y) x
  match tagFmt (tKind t) (tPrec t) with
  | some f => roundTo r f rm o
  | none => intConvert r (32 / nElem (tKind t)) (kindSigned (tKind t)) 0 rm o

/-- The 64-byte blocks of a REDUCE's result. -/
def Copy.redBlocks (c : Copy) : List (Nat × Nat) :=
  ((List.range (c.blk.total c.kind)).map fun i => (Side.far (addOff c.blk.xaddr ((i * c.blk.esize : Nat) : Int))).block 64).dedup

/-- A REDUCE that fails writes no result (R350). -/
def Copy.redFail (c : Copy) (code : Nat) : Copy := { c with code := code, lost := c.redBlocks, reducing := false }

/-- A contribution's round is over; one that waits at the port for it goes on (R346). -/
def State.endRound (s : State) (x : RedRound) : State :=
  let s := { s with fab := { s.fab with rounds := s.fab.rounds.filter fun y => y.copy != x.copy } }
  let timeout := ((s.fab.groups.find? fun g => g.part == x.part && g.group == x.group).map (·.timeout)).getD 0
  match s.fab.rounds.find? fun y => y.waiting && y.part == x.part && y.group == x.group && !(s.roundWaits y.part y.group y.round) with
  | none => s
  | some w =>
    let s := { s with fab := { s.fab with rounds := s.fab.rounds.map fun (y : RedRound) =>
      if y.part == w.part && y.group == w.group && y.round == w.round then
        { y with waiting := false, deadline := s.us + timeout } else y } }
    match s.copies.find? fun c => c.id == w.copy with
    | some c => s.contribute c
    | none => s

/-- A member of a group whose results a partition does not take (R340, R349): no entry permits its reductions. DESIGN CHOICE (log
entry 88): a result counts as a request of each other member; R340 does not say whose it is. -/
def State.redDenied (s : State) (p : Nat) (g : RedGroup) : Option (Nat × Nat) :=
  g.members.find? fun m => !(m == (s.fab.modId, p) || ((((List.range 512).filterMap fun i => alook i s.fab.acl).find? fun e =>
    e.valid && e.srcMod == m.1 && e.srcPart == m.2 && e.dstPart == p).map (·.red)).getD false)

/-- REDUCTION_RESULT (R349, R350): the contributions of the other members have been added to the command's own, and the
result is to be written at XADDR; status 1 says that the round has failed, 2 that this destination is denied. Where the member has
contributed twice to the round, all its commands for it fail. -/
def execReductionResult (id : Nat) (status : Nat) (contribs : List (List Nat)) (s : State) : Result :=
  match s.fab.rounds.find? fun x => x.copy == id, s.copies.find? fun c => c.id == id with
  | some x, some c => (match s.wg c.who.wg, s.fab.groups.find? fun g => g.part == x.part && g.group == x.group with
    | some w, some g =>
      let twins := s.fab.rounds.filter fun y => y.copy != id && y.part == x.part && y.group == x.group && y.round == x.round
      if x.waiting then .next s
      else if !twins.isEmpty then
        .next (forEach (fun (s : State) (y : RedRound) => (s.endRound y).modCopy y.copy fun c => c.redFail 5) s (x :: twins))
      else if status = 1 ∨ contribs.any (fun l => l.length != c.data.length) = true then
        .next ((s.endRound x).modCopy id fun c => c.redFail 5)
      else if status = 2 then .next ((s.endRound x).modCopy id fun c => c.redFail 2)
      else if contribs.length + 1 ≠ g.members.length then .next s
      else if let some m := s.redDenied x.part g then
        .next (((s.endRound x).modCopy id fun c => c.redFail 2).meterEvent 3 x.part (natLe 2 m.1 ++ natLe 1 m.2 ++ natLe 1 8 ++ natLe 8 0))
      else
        let ps := c.data.zipIdx.map fun d =>
          let (code, fl) := redElem c.blk (d.1 :: contribs.map fun l => l.getD d.2 0)
          ({ dst := .far (addOff c.blk.xaddr ((d.2 * c.blk.esize : Nat) : Int)), data := .ok (natLe c.blk.esize code), row := 0,
             sat := fl &&& fSAT != 0, src := none } : Piece)
        let ws := s.copyWrites w c ps
        .next ((s.endRound x).modCopy id fun c => { c with writes := ws, reducing := false })
    | _, _ => .next s)
  | _, _ => .next s

/-- REDUCTION_TIMEOUT (R350): a round that is not complete within its group's timeout fails. -/
def execReductionTimeout (id : Nat) (s : State) : Result :=
  match s.fab.rounds.find? fun x => x.copy == id with
  | none => .next s
  | some x =>
    if x.waiting ∨ s.us < x.deadline then .next s
    else .next ((s.endRound x).modCopy id fun c => c.redFail 4)

/-! ### The scale-out ports (R352) -/

/-- The prefix of a frame (R352). -/
structure Prefix where
  dstDom : Nat
  srcDom : Nat
  fseq : Nat
  fack : Nat
  aonly : Bool
  bad : Bool
  deriving DecidableEq, Repr

def Prefix.parse (b : List Byte) : Prefix :=
  let h := leNat (b.take 16)
  { dstDom := h % 64, srcDom := h / 64 % 64, fseq := h / 2 ^ 16 % 2 ^ 16, fack := h / 2 ^ 32 % 2 ^ 16, aonly := h / 2 ^ 48 % 2 == 1,
    bad := decide (h / 2 ^ 12 % 16 ≠ 0) || decide (h / 2 ^ 49 ≠ 0) }

/-- The payload of a frame: its prefix and its flit. -/
def frameBytes (x : ScalePair) (me fseq : Nat) (f : Flit) : List Byte :=
  natLe 16 (x.dom + me * 2 ^ 6 + fseq * 2 ^ 16 + x.fack * 2 ^ 32) ++ f.bytes

/-- The payload of a frame that carries only FACK (R352): AONLY is 1, its flit is of TYPE 0, and it takes no FSEQ. -/
def ackFrameBytes (x : ScalePair) (me srcMod : Nat) : List Byte :=
  natLe 16 (x.dom + me * 2 ^ 6 + x.fack * 2 ^ 32 + 2 ^ 48) ++ ({ type := 0, dstMod := x.mod, srcMod := srcMod, len := 0, body := [] } : Flit).bytes

/-- The frames that a FACK does not cover. -/
def ScalePair.acked (x : ScalePair) (fack : Nat) : ScalePair :=
  if x.held.any fun y => y.1 == fack then { x with held := (x.held.dropWhile fun y => y.1 != fack).drop 1 } else x

/-- The error counter of a scale-out port (R333, R352). -/
def State.etherError (s : State) (port : Nat) : State :=
  { s with fab := { s.fab with etherErrors := aput port ((alook port s.fab.etherErrors).getD 0 + 1) s.fab.etherErrors } }

/-- SCALE_OUT_FRAME_RECEIVE (R352): the payload of a frame arrives. A reserved field that is not 0, and a flit of TYPE 12 to 15,
is counted; a FACK covers
frames sent; a frame in order is accepted and its flit takes effect, and any other is dropped. -/
def execScaleOutFrameReceive (port : Nat) (frame : List Byte) (s : State) : Result :=
  let h := Prefix.parse frame
  let b := frame.drop 16
  if 2 ≤ port then .next s
  else if h.bad then
    .next (s.etherError port)
  else if h.dstDom ≠ s.fab.domain ∨ crcHolds b = false then .next s
  else
    let f := Flit.parse b
    let x := (s.pairFor h.srcDom f.srcMod).acked h.fack
    if h.aonly ∨ h.fseq ≠ x.expect then .next (s.setPair x)
    else
      let s := s.setPair { x with expect := (x.expect + 1) % 65536 }
      if 12 ≤ f.type then .next (s.etherError port)
      else if f.type = 3 ∨ f.type = 4 ∨ f.type = 9 ∨ f.type = 10 then .next (s.takeFlit (portSite (12 + port)) (some h.srcDom) f)
      else .next s

/-- The frames of a pair that have not been acknowledged for 100 µs are sent again. DESIGN CHOICE (log entry 108): with none to
send, a FACK that no frame has carried yet goes out in a frame of its own (ackFrameBytes). -/
def ScalePair.resend (x : ScalePair) (us : Nat) : ScalePair :=
  { x with told := x.fack, held := x.held.map fun (y : Nat × Nat × Flit) => if y.2.1 + 100 ≤ us then (y.1, us, y.2.2) else y }

/-- SCALE_OUT_RESEND (R352). -/
def execScaleOutResend (port : Nat) (s : State) : Result :=
  .next { s with fab := { s.fab with pairs := s.fab.pairs.map fun (x : ScalePair) => if x.port = port then x.resend s.us else x } }

end Sys2Proof.Machine
end

