-- ==== Sys2Proof/Machine/Custody.lean ====
section
/-! DEFINITION. The custody processor and the power controller: signatures, the meter log, boot, and the power states
(02_organisation.md R23, 25_system.md R375, R379, R380, R385 to R388). -/

namespace Sys2Proof.Machine

/-! ### Signatures (R375, R385) -/

/-- The signature of bytes: over their SHA-384 digest, with the device's key (R375). -/
def signed (bs : List Byte) : List Byte := Config.sign (sha384 bs)

/-- The partition table as a quote covers it: every defined partition with its generation, its epoch and its limits. -/
def State.partTable (s : State) : List Byte :=
  (s.parts.filter fun x => x.2.defined).flatMap fun x =>
    let l := x.2.lim
    natLe 1 x.1 ++ natLe 2 x.2.gen ++ natLe 4 x.2.epoch ++
      [l.min, l.urgent, l.max, l.hbmBase, l.hbmSize, l.hbmBw, l.canopy, l.linkBw].flatMap (natLe 8) ++ l.home.flatMap (natLe 2)

/-- ATTESTATION_QUOTE (R375): the boot measurements, the partition table and a nonce of 48 bytes, signed. -/
def execAttestationQuote (nonce : List Byte) (s : State) : Result :=
  if nonce.length ≠ 48 then .next s
  else .next { s with sys := { s.sys with quotes := s.sys.quotes ++ [signed (s.sys.measures.flatten ++ s.partTable ++ nonce)] } }

/-- The MAGIC of a shard header and of a commit record (R385). -/
def headerMagic : Nat := 0x4B435031
def commitMagic : Nat := 0x4B434D54

/-- A shard header with the signature over its first 80 bytes, and a commit record with that over its first 96 (R385). -/
def signedHeader (h : List Byte) : List Byte := h.take 0x50 ++ (signed (h.take 0x50) ++ List.replicate 96 0).take 96 ++ List.replicate 80 0
def signedCommit (h : List Byte) : List Byte := h.take 0x60 ++ (signed (h.take 0x60) ++ List.replicate 96 0).take 96

/-- The commit record of a step (R385): its DIGEST is that of the signatures of its shard headers, in INDEX order. -/
def commitRecord (step : Nat) (headers : List (List Byte)) : List Byte :=
  signedCommit (natLe 8 commitMagic ++ natLe 8 step ++ natLe 4 headers.length ++ natLe 4 0 ++
    sha384 (headers.flatMap fun h => (h.drop 0x50).take 96) ++ natLe 24 0)

/-- CHECKPOINT_HEADER_SIGN (R385): a shard header, or a step's commit record by its MAGIC, with the signature in its place. -/
def execCheckpointHeaderSign (header : List Byte) (s : State) : Result :=
  let magic := leNat (header.take 8)
  if magic = commitMagic ∧ 0x60 ≤ header.length then .next { s with sys := { s.sys with headers := s.sys.headers ++ [signedCommit header] } }
  else if header.length < 0x50 then .next s
  else .next { s with sys := { s.sys with headers := s.sys.headers ++ [signedHeader header] } }

/-- A shard of a checkpoint as it is found: its header and its payload (R385). -/
structure Shard where
  header : List Byte
  payload : List Byte
  deriving DecidableEq, Repr

def Shard.step (x : Shard) : Nat := leNat ((x.header.drop 8).take 8)
def Shard.index (x : Shard) : Nat := leNat ((x.header.drop 16).take 4)
/-- The header verifies, and the payload has its length and its digest (R386). -/
def Shard.good (x : Shard) : Bool :=
  x.header == signedHeader x.header && leNat (x.header.take 8) == headerMagic && leNat ((x.header.drop 24).take 8) == x.payload.length &&
    (x.header.drop 32).take 48 == sha384 x.payload

/-- A commit record names a complete step among some shards (R386): it verifies, and every shard INDEX 0 to NS − 1 is there, carries
the step, verifies and matches its digest. -/
def completeStep (shards : List Shard) (c : List Byte) : Option Nat :=
  let step := leNat ((c.drop 8).take 8)
  let ns := leNat ((c.drop 16).take 4)
  let of := fun (i : Nat) => shards.find? fun x => x.step == step && x.index == i
  let hs := (List.range ns).filterMap of
  if c == commitRecord step (hs.map (·.header)) && hs.length == ns && hs.all Shard.good then some step else none

/-- The step that a restore uses: the newest complete one (R386). -/
def restoreStep (shards : List Shard) (commits : List (List Byte)) : Option Nat := (commits.filterMap (completeStep shards)).max?

/-! ### The meter log (R379, R380) -/

/-- A record of a partition, its count of events left 0 (R379). The energy is a free value: no rule says what an activity costs
(log entry 111). -/
def State.meterRecord (s : State) (p : Nat) : List Byte × State :=
  let (n, s) := s.takeFresh
  let x := s.part p
  let free := fun (i : Nat) => natLe 4 (Config.freeBits (n + i)).toNat
  (natLe 2 p ++ natLe 2 x.gen ++ free 0 ++ natLe 8 x.meter.quadCycles ++ natLe 8 x.meter.passes ++
    natLe 8 ((alook p s.hbmMoved).getD 0) ++ natLe 8 ((alook p s.canMoved).getD 0) ++ natLe 8 x.meter.linkBytes ++ natLe 16 0, s)

/-- A record with its count of events. -/
def withEvents (r : List Byte) (n : Nat) : List Byte := r.take 0x30 ++ natLe 4 n ++ r.drop 0x34

def MeterEvent.bytes (e : MeterEvent) : List Byte :=
  natLe 8 e.time ++ natLe 2 e.code ++ natLe 1 e.part ++ natLe 5 0 ++ e.data

/-- Events by ascending time, then partition. -/
def insEvent (e : MeterEvent) : List MeterEvent → List MeterEvent
  | [] => [e]
  | x :: l => if e.time < x.time ∨ (e.time = x.time ∧ e.part < x.part) then e :: x :: l else x :: insEvent e l

/-- Records by ascending partition. -/
def insRecord (r : Nat × List Byte) : List (Nat × List Byte) → List (Nat × List Byte)
  | [] => [r]
  | x :: l => if r.1 < x.1 then r :: x :: l else x :: insRecord r l

/-- The records of a period: every defined partition's, and the last of each torn down in it. -/
def State.meterRecords (s : State) : List (Nat × List Byte) × State :=
  let (rs, s) := s.definedParts.foldl (fun (acc : List (Nat × List Byte) × State) p =>
    let (r, s) := acc.2.meterRecord p
    (acc.1 ++ [(p, r)], s)) (([] : List (Nat × List Byte)), s)
  ((s.sys.torn ++ rs).foldl (fun l r => insRecord r l) [], s)

/-- A block (R379). -/
def State.meterBlock (s : State) (rs : List (Nat × List Byte)) : List Byte :=
  let es := s.sys.events.foldl (fun l e => insEvent e l) []
  let body := natLe 8 s.sys.blockSeq ++ natLe 8 (s.sys.tstart * 1000) ++ (s.sys.prev ++ List.replicate 48 0).take 48 ++
    natLe 4 rs.length ++ natLe 4 es.length ++
    (rs.flatMap fun r => withEvents r.2 (es.filter fun e => e.part == r.1).length) ++ es.flatMap MeterEvent.bytes
  body ++ (signed body ++ List.replicate 96 0).take 96

/-- METER_BLOCK_CLOSE (R379): ten seconds after its period began a block is closed and signed, and written to the ring in
host memory, where blocks follow one another and wrap. -/
def execMeterBlockClose (s : State) : Result :=
  if s.us < s.sys.tstart + 10000000 then .next s
  else
    let (rs, s) := s.meterRecords
    let b := s.meterBlock rs
    let n := s.sys.ringSize
    let s := if n = 0 then s
      else s.homeStore (b.zipIdx.map fun x => (kHost (s.sys.ringBase + (s.sys.ringPos + x.2) % n), x.1))
    let parts := s.parts.map fun (x : Nat × Part) => (x.1, { x.2 with meter := {} })
    .next { s with
      parts := parts, hbmMoved := [], canMoved := [],
      sys := { s.sys with blockSeq := s.sys.blockSeq + 1, prev := sha384 b, tstart := s.us, events := [], torn := [],
                          ringPos := if n = 0 then 0 else (s.sys.ringPos + b.length) % n } }

/-- METER_RING_NAME (R379, R384). -/
def execMeterRingName (base : Nat) (size : Nat) (s : State) : Result :=
  .next { s with sys := { s.sys with ringBase := base, ringSize := size, ringPos := 0, status := some true } }

/-! ### The capability chain (R382, R383) -/

/-- The layout version that every entry carries: the manual names none (DESIGN CHOICE, log entry 82). -/
def capVersion : Nat := 1

/-- An entry (R382): the header of 16 bytes with ID, VERSION and NEXT, its length in bytes at +16, and what it announces from
+24. -/
def capEntry (id next : Nat) (body : List Byte) : List Byte :=
  natLe 2 id ++ natLe 2 capVersion ++ natLe 4 next ++ natLe 8 0 ++ natLe 8 (24 + body.length) ++ body

/-- Entries that follow one another from an offset of BAR0; the NEXT of the last is 0 (R382). -/
def capChain : Nat → List (Nat × List Byte) → List Byte
  | _, [] => []
  | off, (id, body) :: l =>
    let next := off + 24 + body.length
    capEntry id (if l.isEmpty then 0 else next) body ++ capChain next l

/-- A text padded so that its entry, 24 bytes longer, has a length that is a multiple of 16 (R382). -/
def capBody (bs : List Byte) : List Byte := bs ++ List.replicate ((24 - bs.length % 16) % 16) 0

/-- 0x0001: the domain, the module ID and the serial number (R383). -/
def State.capIdentity (s : State) : List Byte :=
  capBody (natLe 4 s.fab.domain ++ natLe 4 s.fab.modId ++ (Config.serial ++ List.replicate 16 0).take 16)

/-- 0x0002: the meter ring's base and size, and the SEQ of the newest block, all ones where none is closed yet (R383). -/
def State.capMeter (s : State) : List Byte :=
  capBody (natLe 8 s.sys.ringBase ++ natLe 8 s.sys.ringSize ++ natLe 8 (s.sys.blockSeq + (2 ^ 64 - 1)))

/-- A byte of the meter ring as the meter capability gives it to the physical function (R379, R384). -/
def State.ringByte (s : State) (physical : Bool) (off : Nat) : Option Byte :=
  if physical && decide (3 ≤ s.sys.stage) && decide (off < s.sys.ringSize) then some (Memory.read s.mem (kHost (s.sys.ringBase + off))) else none

/-- 0x0003: the management mailbox, with the completion status of its last command (R383, R384). -/
def State.capMailbox (s : State) : List Byte :=
  capBody (natLe 8 (match s.sys.status with | none => 0 | some true => 1 | some false => 2))

/-- 0x0004: the certificate chain after its length, with the newest quote and the newest signed header that were asked for
(R375, R383, R385). -/
def State.capAttest (s : State) : List Byte :=
  let certs := Config.certificates.take (2 ^ 16)
  capBody (natLe 8 certs.length ++ ((s.sys.quotes.getLast?.getD []) ++ List.replicate 96 0).take 96 ++
    ((s.sys.headers.getLast?.getD []) ++ List.replicate 256 0).take 256 ++ certs)

/-- What a function announces (R383): the physical function all four, a virtual one neither the meter log nor the mailbox. -/
def State.caps (s : State) (physical : Bool) : List (Nat × List Byte) :=
  if physical then [(1, s.capIdentity), (2, s.capMeter), (3, s.capMailbox), (4, s.capAttest)]
  else [(1, s.capIdentity), (4, s.capAttest)]

/-- The offset of BAR0 at which the chain begins (R382). -/
def capBase : Nat := 0x1000

/-- BAR0's byte at an offset, as a function's capability chain gives it (R382, R383): the chain can be read from boot stage 3
on (R387). What an entry holds behind its header lies where the model puts it (DESIGN CHOICE, log entry 82). -/
def State.bar0 (s : State) (physical : Bool) (off : Nat) : Option Byte :=
  if s.sys.stage < 3 ∨ off < capBase then none else (capChain capBase (s.caps physical))[off - capBase]?

/-! ### The clock and the power states (R23, R388) -/

/-- The state of a module that runs: P1 with a cap below 3,200 W. -/
def Sys.running (y : Sys) : Power := if y.cap < 3200 then .p1 else .p0

/-- No quadrant issues a group, and no thread that was parked, held or woken is within a run: a change of the clock takes
effect here (R23, 07_execution.md R120). -/
def State.betweenRuns (s : State) : Bool :=
  (s.quads.all fun q => q.2.active.isNone && q.2.acc.isNone) && s.threads.all fun t => t.2.run.count == 0

/-- The arithmetic clock changed; the meter log says so (R23). -/
def State.setFreq (s : State) (mhz : Nat) : State :=
  if s.freq = mhz then s else ({ s with freq := mhz, usub := s.usub * mhz / max s.freq 1 }).meterEvent 1 255 (natLe 4 mhz)

/-- POWER_CAP_ADJUST (R23): the clock is lowered, or raised again, by one step of 100 MHz. A junction that is too hot lets it
only fall (R388). The rule gives no lowest clock: that it never falls below 100 MHz is the model's choice (DESIGN CHOICE, log
entry 43). -/
def execPowerCapAdjust (mhz : Nat) (s : State) : Result :=
  if (mhz ≠ s.freq + 100 ∧ mhz + 100 ≠ s.freq) ∨ mhz < 100 ∨ 2100 < mhz ∨ s.betweenRuns = false ∨ s.sys.power.gated = true ∨
      (s.sys.hot = true ∧ s.freq < mhz) then .next s
  else .next (s.setFreq mhz)

/-- POWER_CAP_SET (R384, R388). -/
def execPowerCapSet (watts : Nat) (s : State) : Result :=
  let y := { s.sys with cap := min watts 3200, status := some true }
  .next { s with sys := { y with power := if y.power.gated then y.power else y.running } }

/-- THERMAL_THROTTLE (R388): at 100 °C the clock is lowered, a step at each, until the junction is below 95 °C. The floor of
100 MHz is the model's choice, as in execPowerCapAdjust (DESIGN CHOICE, log entry 43). -/
def execThermalThrottle (hot : Bool) (s : State) : Result :=
  if !hot then .next { s with sys := { s.sys with hot := false } }
  else
    let s := if s.sys.hot then s else ({ s with sys := { s.sys with hot := true } }).meterEvent 9 255 [1]
    if 100 < s.freq ∧ s.betweenRuns = true then .next (s.setFreq (s.freq - 100)) else .next s

/-- Every line leaves its home slice. -/
def State.dropLines (s : State) : State := (s.l2.map (·.1)).foldl (fun s k => s.dropLine k false) s

/-- What the compute dies hold besides the partitions' work is lost without power (R388); the home slices have written their
lines back (DESIGN CHOICE, log entry 93). -/
def State.unpower (s : State) : State :=
  { s.dropLines with l1 := [], fetched := [], tlb := [], notes := [], walks := [], undo := [], held := [], passHolds := [] }

/-- THERMAL_TRIP (R388): the compute dies trip to S3, every partition is reset, and the meter log says so. The work of a partition
whose reset has to wait (R289) ends too. -/
def execThermalTrip (s : State) : Result :=
  let s := forEach (fun s p => (s.discardWork p).resetPart p) s s.definedParts
  let s := s.unpower
  .next ((({ s with sys := { s.sys with power := .s3 } })).meterEvent 9 255 [2])

/-- A workgroup is placed. -/
def State.anyPlaced (s : State) : Bool := s.wgs.any fun x => x.2.here && !x.2.saved && !x.2.ended

/-- S1_ENTRY (R388): no workgroup has been placed for 10 ms. -/
def execS1Entry (s : State) : Result :=
  if s.sys.power.gated ∨ s.anyPlaced ∨ s.us < s.sys.idleSince + 10000 then .next s
  else .next { s with sys := { s.sys with power := .s1 } }

/-- S1_EXIT (R388). -/
def execS1Exit (s : State) : Result :=
  if s.sys.power = .s1 then .next { s with sys := { s.sys with power := s.sys.running, idleSince := s.us } } else .next s

/-- S3_EXIT (R388): the compute dies are powered again, and boot stages 2 and 3 follow. -/
def execS3Exit (s : State) : Result :=
  if s.sys.power = .s3 then
    .next { s with sys := { s.sys with power := s.sys.running, idleSince := s.us, stage := 1 } }
  else .next s

/-! ### Boot (R387) -/

/-- MODULE_BOOT (R387): the next stage is measured and, where it is good, done; else its failure is recorded. Stage 2
teaches the module its domain and its module ID (22_fabric_host.md R337) and sets the clock, at a run boundary and with
an entry in the meter log where the clock changes by it (R23); a junction that is too hot lets it not rise (R388). -/
def execModuleBoot (stage : Nat) (measure : List Byte) (good : Bool) (s : State) : Result :=
  if stage ≠ s.sys.stage + 1 ∨ 4 ≤ stage ∨ s.sys.power = .s3 ∨ (stage = 2 ∧ s.betweenRuns = false) then .next s
  else
    let y := { s.sys with measures := s.sys.measures ++ [sha384 measure] }
    if !good then .next { s with sys := { y with failed := some stage } }
    else
      let s := { s with sys := { y with stage := stage, failed := none } }
      if stage = 2 then
        .next ({ s with fab := { s.fab with domain := Config.domain % 64, modId := Config.moduleId % 9216 } }.setFreq (if s.sys.hot then s.freq else 2100))
      else .next s

end Sys2Proof.Machine
end

