-- ==== Sys2Proof/Machine/Host.lean ====
section
/-! DEFINITION. The host port and the management mailbox: memory accesses of the host, partitions, HBM ranges, access-control
entries and reduction groups (19_scheduling.md R283, 22_fabric_host.md R340, R346, R353, R354, 25_system.md R376 to R378,
R384, R386). -/

namespace Sys2Proof.Machine

/-! ### Memory accesses of the host (R353, R354) -/

/-- The places of a partition's HBM range that a host access names. -/
def State.hdmRange (s : State) (p addr n : Nat) : Option Nat :=
  let x := s.part p
  if x.defined && decide (addr + n ≤ x.lim.hbmSize) then some (kHbm (x.lim.hbmBase + addr)) else none

/-- The lines of a range. -/
def linesOf (k n : Nat) : List Nat := ((List.range n).map fun i => lineKey (k + i)).dedup

/-- Every core's dirty bytes of a range written home. -/
def State.recall (s : State) (k n : Nat) : State :=
  let cores := (s.l1.map fun c => c.1 / 2 ^ 70).dedup
  forEach (fun (s : State) (x : Nat × Nat) => s.writeBackAll x.1 (some x.2)) s
    (cores.flatMap fun c => (linesOf k n).map fun l => (c, l))

/-- HOST_CXL_MEM_ACCESS (R353): a host access of a partition's HDM range, coherent with the caches; in S3 only CXL.io is
alive (R388). A read answers as many bytes as data has. -/
def execHostCxlMemAccess (part : Nat) (write : Bool) (addr : Nat) (data : List Byte) (s : State) : Result :=
  if s.sys.power = .s3 then .next s else
  match s.hdmRange part addr data.length with
  | none => .next s
  | some k =>
    let s := s.recall k data.length
    if write then
      let s := { s with l1 := s.l1.filter fun c => !(decide (k ≤ c.1 % 2 ^ 70) && decide (c.1 % 2 ^ 70 < k + data.length) && !c.2.dirty) }
      .next (s.homeStore (bytesAt k data))
    else .next { s with sys := { s.sys with answer := s.mem.readN k data.length } }

/-- Bytes written in backing memory (R354): a line that a home slice holds keeps what the slice has. -/
def State.backWrite (s : State) (bs : List (Nat × Byte)) : State :=
  let held := bs.filter fun b => s.sliceHas b.1
  let bare := bs.filter fun b => !(s.sliceHas b.1)
  let clear := fun c => (List.range 32).all fun i => (bare.map (·.1)).contains (c + i)
  { s with mem := putBytes s.mem bare, back := held.foldl (fun m b => aput b.1 b.2 m) s.back,
           poisoned := s.poisoned.filter fun c => !clear c }

/-- BAR2_APERTURE_ACCESS (R354): backing memory, not coherent with the caches. -/
def execBar2ApertureAccess (part : Nat) (write : Bool) (addr : Nat) (data : List Byte) (s : State) : Result :=
  match s.hdmRange part addr data.length with
  | none => .next s
  | some k =>
    if write then .next (s.backWrite (bytesAt k data))
    else .next { s with sys := { s.sys with answer := (List.range data.length).map fun i => s.backByte (k + i) } }

/-- HOST_CXL_CACHE_SNOOP (R353): the host takes back a line of its memory, and the bytes given are what it then holds. -/
def execHostCxlCacheSnoop (line : Nat) (data : List Byte) (s : State) : Result :=
  if s.sys.power = .s3 then .next s else
  let k := lineKey (kHost line)
  let s := s.homeStore (bytesAt k (data.take 128))
  .next { s with sys := { s.sys with hostLines := s.sys.hostLines.filter fun x => x.1 != k } }

/-! ### HBM ranges (R378) -/

/-- A range of HBM zeroed for its new owner: no agent reads an earlier owner's bytes. -/
def State.zeroHbm (s : State) (base size : Nat) : State :=
  let inside := fun (k : Nat) => decide (kHbm base ≤ k) && decide (k < kHbm base + size)
  { s with
    mem := s.mem.zero (kHbm base) size, back := s.back.filter (fun c => !inside c.1), poisoned := s.poisoned.filter fun c => !inside c,
    l1 := s.l1.filter fun c => !inside (c.1 % 2 ^ 70), fetched := s.fetched.filter fun c => !inside (c.1 % 2 ^ 70),
    notes := s.notes.filter fun n => !inside n.line }

/-- A partition's range of HBM without the part that another range takes. -/
def cutRange (l : PartLimits) (base size : Nat) : PartLimits :=
  let lo := l.hbmBase
  let hi := l.hbmBase + l.hbmSize
  if hi ≤ base ∨ base + size ≤ lo then l
  else if base ≤ lo then { l with hbmBase := min (base + size) hi, hbmSize := hi - min (base + size) hi }
  else { l with hbmSize := base - lo }

/-- HBM_REASSIGN (R378): a range is zeroed and becomes the partition's; its earlier owners have it no more. -/
def execHbmReassign (part : Nat) (base : Nat) (size : Nat) (s : State) : Result :=
  if !(s.part part).defined ∨ hbmBytes < base + size then .next (s.mailed false)
  else
    let s := forEach (fun s p => s.modPart p fun x =>
      { x with lim := if p = part then { x.lim with hbmBase := base, hbmSize := size } else cutRange x.lim base size }) s s.definedParts
    .next ((s.zeroHbm base size).mailed true)

/-! ### Partitions (R283, R376, R377) -/

/-- Limits that a partition may have (R283): the home set is as large as MIN and free of other partitions' quadrants, the
minima fit, and no other partition's HBM is touched. -/
def State.limitsOk (s : State) (p : Nat) (l : PartLimits) : Bool :=
  let others := s.definedParts.filter (· != p)
  decide (1 ≤ l.min) && decide (l.urgent ≤ l.min) && decide (l.min ≤ l.max) && l.home.length == l.min && decide l.home.Nodup &&
    l.home.all (fun q => decide (q < 768) && !(s.quad q).lostCore && ((s.quad q).home.getD p == p)) &&
    decide ((others.map fun x => (s.part x).lim.min).sum + l.min ≤ s.healthyQuads) &&
    decide (l.hbmBase + l.hbmSize ≤ hbmBytes) &&
    others.all fun x => decide ((s.part x).lim.hbmBase + (s.part x).lim.hbmSize ≤ l.hbmBase) ||
      decide (l.hbmBase + l.hbmSize ≤ (s.part x).lim.hbmBase)

/-- PARTITION_DEFINE (R283, R376, R378): a partition with fresh keys; its HBM reads zero. -/
def execPartitionDefine (part : Nat) (lim : PartLimits) (s : State) : Result :=
  if 20 ≤ part ∨ (s.part part).defined = true ∨ s.sys.stage < 3 ∨ s.limitsOk part lim = false then .next (s.mailed false)
  else
    let old := s.part part
    let s := s.zeroHbm lim.hbmBase lim.hbmSize
    let s := { s with sys := { s.sys with keys := s.sys.keys + 2, stage := 4 } }
    let s := s.modPart part fun _ =>
      { defined := true, lim := lim, cregs := cregsAtDefine, gen := old.gen, epoch := old.epoch, kh := s.sys.keys - 1, kc := s.sys.keys }
    .next (((s.setHome part lim.home).meterEvent 7 part []).mailed true)

/-- PARTITION_CHANGE (R283, R290): new limits; a partition that was suspended takes part again. Bytes of HBM that it had not
read zero. -/
def execPartitionChange (part : Nat) (lim : PartLimits) (s : State) : Result :=
  if (s.part part).defined = false ∨ s.limitsOk part lim = false then .next (s.mailed false)
  else
    let o := (s.part part).lim
    let lo := max lim.hbmBase o.hbmBase
    let hi := min (lim.hbmBase + lim.hbmSize) (o.hbmBase + o.hbmSize)
    let s := if lo < hi then
        (s.zeroHbm lim.hbmBase (lo - lim.hbmBase)).zeroHbm hi (lim.hbmBase + lim.hbmSize - hi)
      else s.zeroHbm lim.hbmBase lim.hbmSize
    let s := s.modPart part fun x => { x with lim := lim, suspended := false }
    .next ((s.setHome part lim.home).mailed true)

/-- PARTITION_TEARDOWN (R377): the partition's work ends as in a reset; its lodges, queues and signal table go; its keys are
zeroized; and the meter log says so. A teardown whose new G would be a blocked value waits (R289). -/
def execPartitionTeardown (part : Nat) (s : State) : Result :=
  if (s.part part).defined = false then .next (s.mailed false)
  else if s.nextBlocked part = true then .next s
  else
    let s := (s.discardWork part).zeroSave part
    let x := s.part part
    let s := { s with genBlocks := s.genBlocks ++ [GenBlock.mk part x.gen s.us] }
    let s := forEach (fun (s : State) (l : Lodge) => if l.placed then s.wipe l.key l.bytes else s) s (s.lodges.filter fun l => l.part == part)
    let s := ({ s with lodges := s.lodges.filter fun l => l.part != part,
                       launches := s.launches.filter fun l => l.2.part != part } : State).dropPolls
    let s := s.zeroHbm x.lim.hbmBase x.lim.hbmSize
    let s := s.setHome part []
    let s := forEach (fun s q => s.modQuad q fun y => { y with part := y.home, reclaim := none }) s (s.held' part)
    let (r, s) := s.meterRecord part
    let s := s.modPart part fun _ => { gen := (x.gen + 1) % 1024, epoch := (x.epoch + 1) % 2 ^ 32 }
    let s := { s with
      fab := { s.fab with groups := s.fab.groups.filter fun g => g.part != part },
      sys := { s.sys with torn := s.sys.torn ++ [(part, r)] } }
    .next ((s.meterEvent 8 part []).mailed true)

/-! ### The fabric's tables (R340, R346) -/

/-- PEER_ACL_WRITE (R340). -/
def execPeerAclWrite (idx : Nat) (e : AclEntry) (s : State) : Result :=
  if 512 ≤ idx then .next (s.mailed false)
  else .next ({ s with fab := { s.fab with acl := aput idx e s.fab.acl } }.mailed true)

/-- REDUCTION_GROUP_DEFINE (R346, R350): a timeout of 0 stands for the default of 100 ms. -/
def execReductionGroupDefine (part : Nat) (g : Nat) (members : List (Nat × Nat)) (timeout : Nat) (s : State) : Result :=
  if (s.part part).defined = false ∨ 256 ≤ g ∨ members.length < 2 ∨ 9216 < members.length then .next (s.mailed false)
  else
    let x : RedGroup := { part := part, group := g, members := members, timeout := if timeout = 0 then 100000 else timeout }
    .next ({ s with fab := { s.fab with groups := x :: s.fab.groups.filter fun y => !(y.part == part && y.group == g) } }.mailed true)

/-! ### Post-copy restores (R386) -/

/-- POSTCOPY_PAGE_PULL (R386): at the first access, whose walk is under way, or before it, the host driver has pulled a page and mapped it, with event 1; or the pull has failed, the
page stays unmapped, and event 8 is posted. -/
def execPostcopyPagePull (part : Nat) (va : DWord) (good : Bool) (writes : List (Nat × DWord)) (s : State) : Result :=
  if (s.part part).defined = false then .next s
  else if !good then .next (s.postEvent part 8 (eventAddr va))
  else if s.driverMay part writes then .next ((s.homeStore (entryBytes writes)).postEvent part 1 (eventAddr va))
  else .next s

end Sys2Proof.Machine
end

