-- ==== Sys2Proof/Machine/Sched.lean ====
section
/-! DEFINITION. Issue: the choice of a group, one instruction of one thread, what becomes of the group, and what follows
every turn (07_execution.md R114 to R116, R119, R120, R124, R130). -/

namespace Sys2Proof.Machine

/-! ### The choice of a group (R114) -/

/-- The earliest ready time in a bin (R114). -/
def Bin.oldest (b : Bin) : Nat := b.members.foldl (fun m x => min m x.2) ((b.members.head?.map (·.2)).getD 0)

/-- Pick (R114): the bin whose oldest thread is earliest, among equals the lowest. -/
def pick : List (Nat × Bin) → Option (Nat × Bin)
  | [] => none
  | b :: l => match pick l with
    | none => some b
    | some c => if c.2.oldest < b.2.oldest then some c else some b

/-- SelectBin (R114) over the bins given. -/
def selectBin (now age : Nat) (bins : List (Nat × Bin)) : Option (Nat × Bin) :=
  let old := bins.filter fun b => decide (age ≤ now - b.2.oldest)
  let full := bins.filter fun b => b.2.members.length == 32
  let most := bins.foldl (fun m b => max m b.2.members.length) 0
  if !old.isEmpty then pick old else if !full.isEmpty then pick full
  else pick (bins.filter fun b => b.2.members.length == most)

/-- A workgroup whose threads may begin to issue (R285). -/
def State.mayIssue (s : State) (w : Nat) : Bool := ((s.wg w).map fun g => !g.preempting && !g.saved).getD false

/-- A thread put in its place in ascending `%tid`. -/
def insertTid (r : TRef) : List TRef → List TRef
  | [] => [r]
  | x :: l => if r.tid < x.tid then r :: x :: l else x :: insertTid r l

/-- Threads of one workgroup in ascending `%tid`. -/
def byTid (l : List TRef) : List TRef := l.foldr insertTid []

/-- Threads that begin to issue as a group: they act in ascending `%tid` (12_matrix.md R200, R215, 11_streamers.md R192), and each
that takes another datapath lane than the one below its slot moves (R117). -/
def State.startGroup (s : State) (q : Nat) (ts : List TRef) : State :=
  let rs := byTid ts
  let lane := fun (r : TRef) => ((s.wg r.wg).map fun g => g.slots.getD r.tid r.tid).getD r.tid % 32
  let moved := fun (r : TRef) => decide (lane r ≠ (rs.findIdx (· == r)) % 32)
  let s := forEach (fun (s : State) r => s.modQuad q fun x => x.drop r) s rs
  let s := forEach (fun (s : State) r => s.modThread r fun t => { t with status := .running }) s rs
  let s := s.refill q
  s.modQuad q fun x =>
    { x with active := some { todo := rs, done := [], waitX := [] }, moves := x.moves + (rs.filter moved).length }

/-- ISSUE_GROUP_SELECT (R114): an idle quadrant issues its oldest resumption group, or the bin that SelectBin gives, while its
clock runs (25_system.md R388). -/
def execIssueGroupSelect (q : Nat) (s : State) : Result :=
  let x := s.quad q
  if x.active.isSome || decide (s.clock < x.slot) || s.sys.power.gated then .next s
  else match x.resume.find? fun g => g.2.all fun r => s.mayIssue r.wg with
    | some g => .next (s.startGroup q g.2)
    | none =>
      let bins := x.bins.filter fun b => s.mayIssue b.2.key.1 && !b.2.members.isEmpty
      match selectBin s.clock x.age bins with
      | none => .next s
      | some b => .next (s.startGroup q (b.2.members.map (·.1)))

/-! ### One instruction of one thread -/

/-- What a thread finds at the start of a run (R119, R124): a fault to be taken, and whether its pending label holds. -/
def State.runStart (s : State) (r : TRef) (t : Thread) : Option FaultInfo × State :=
  match t.deferred with
  | some f => (some f, s.modThread r fun t => { t with deferred := none, defSeq := none })
  | none => match t.arch.lpad with
    | none => (none, s)
    | some label => match s.labelAt r t.arch.pc label with
      | (.bad, s) => (some (plainFault .cfi), s)
      | (.unread, s) => (none, s)
      | (.ok, s) =>
        let clear := fun (a : Arch) => { a with lpad := none }
        (none, s.modThread r fun t => { t with arch := clear t.arch, run := { t.run with snap := clear t.run.snap } })

/-- An instruction that cannot be decoded (R47, R50). -/
def State.undecoded (s : State) (r : TRef) (t : Thread) : State :=
  match t.run.cmark with
  | some k => s.takeFault r (plainFault .runform) k
  | none => s.takeFault r (plainFault .illegal) t.run.count

/-- One instruction of a running thread, its meaning given by ex: the start of its run, the 25th instruction of one (R49),
the fetch (R24) and the decoding (R47). -/
noncomputable def State.issueThread (ex : Instr → State → Result) (s : State) (r : TRef) : Result :=
  match s.thread r with
  | none => .next s
  | some t =>
    if 24 ≤ t.run.count then .next (s.takeFault r (plainFault .runform) 23)
    else match (if t.run.count = 0 then s.runStart r t else (none, s)) with
      | (some f, s) => .next (s.takeFault r f 0)
      | (none, s) => match s.fetchAt r t.arch.pc with
        | .fault f => .next (s.takeFault r f t.run.count)
        | .miss a => .next (s.startWalk r a .fetch)
        | .ok bs s => match decodeBytes bs with
          | .error _ => .next (s.undecoded r t)
          | .ok (i, _) => ex i { s with cur := some r }

/-! ### What becomes of the group (R115, R130) -/

/-- A group after one of its threads was tried: the thread has issued, waits at a meeting, stalls, or has left. -/
def Group.settle (g : Group) (r : TRef) (st : Option TStatus) (moved : Bool) : Group :=
  let todo := g.todo.filter (· != r)
  let done := g.done.filter (· != r)
  let wait := g.waitX.filter (· != r)
  match st with
  | some .running => if moved then { todo := todo, done := done ++ [r], waitX := wait } else g
  | some (.held _ _) => { todo := todo, done := done, waitX := wait ++ [r] }
  | _ => { todo := todo, done := done, waitX := wait }

/-- A slot that is over: the threads that have issued go on to their next instruction, in ascending `%tid` (12_matrix.md R200), those
held at a meeting leave the group, and a group without threads ends. -/
def Group.turn (g : Group) : Option Group :=
  if !g.todo.isEmpty then some g
  else if g.done.isEmpty then none
  else some { todo := byTid g.done, done := [], waitX := [] }

/-- The group of a quadrant, of execute or of access threads. -/
def Quad.group (q : Quad) (acc : Bool) : Option Group := if acc then q.acc else q.active
def Quad.setGroup (q : Quad) (acc : Bool) (g : Option Group) : Quad := if acc then { q with acc := g } else { q with active := g }

/-- The meetings that a thread has completed by passing over its cross-lane instruction under a false guard (R123, R129). -/
def State.guardMeet (s : State) (r : TRef) : State :=
  match s.thread r with
  | some t => if t.arch.skips.isEmpty then s else s.meetings r.wg
  | none => s

/-- The state after one thread was tried: the meetings it has completed by passing one over, its group, and the slot, which is
over when each of its threads has issued, has come to a meeting or has left, or when one of them stalls (R115). -/
def State.settleGroup (s : State) (q : Nat) (acc : Bool) (r : TRef) (before : Nat × Nat) : State :=
  let s := s.guardMeet r
  let t := s.thread r
  let moved := match t with
    | some t => decide ((t.seq, t.run.count) ≠ before)
    | none => true
  let s := { s with cur := none }
  s.modQuad q fun x =>
    let g := (x.group acc).map fun g => g.settle r (t.map (·.status)) moved
    let stalls := !moved && (t.map fun t => decide (t.status = .running)).getD false
    let ended := (match g with
      | some g => g.todo.isEmpty
      | none => true) || stalls
    let x := x.setGroup acc (g.bind Group.turn)
    if ended && !acc then { x with slot := s.clock + 1 } else x

/-- What a thread of a group meets that has to stall at its next instruction (R115): the state after the stall. -/
noncomputable def State.stall (ex : Instr → State → Result) (s : State) (q : Nat) (r : TRef) : Option State :=
  match s.issueThread ex r with
  | .next s' => if (s'.quad q).interlocks = (s.quad q).interlocks then none else some { s' with cur := none }
  | _ => none

/-- The slot of a group of which some thread has to stall: nothing issues, and the interlock counter counts one (R115). -/
noncomputable def State.stallGroup (ex : Instr → State → Result) (s : State) (q : Nat) (acc : Bool) (rs : List TRef) : State :=
  let n := (s.quad q).interlocks + 1
  let s := forEach (fun (s : State) r => (s.stall ex q r).getD s) s rs
  s.modQuad q fun x => { x with interlocks := n, slot := if acc then x.slot else s.clock + 1 }

/-- Some thread of a group that is about to begin a slot has to stall (R115). -/
noncomputable def State.groupStalls (ex : Instr → State → Result) (s : State) (q : Nat) (g : Group) : Bool :=
  g.done.isEmpty && g.waitX.isEmpty && decide (1 < g.todo.length) && g.todo.any fun r => (s.stall ex q r).isSome

/-- ISSUE: the next thread of a quadrant's group issues one instruction; time passes to the quadrant's next slot. A group one
of whose threads would stall at the beginning of a slot issues nothing in it (R115), and none issues while the clock is gated
(25_system.md R388). -/
noncomputable def State.issue (ex : Instr → State → Result) (s : State) (q : Nat) (acc : Bool) : Result :=
  if s.sys.power.gated then .next s
  else match (s.quad q).group acc with
  | none => .next s
  | some g => match g.todo with
    | [] => .next (s.modQuad q fun x => x.setGroup acc g.turn)
    | r :: _ =>
      let s := if acc then s else s.passTo (s.quad q).slot
      let before := match s.thread r with
        | some t => (t.seq, t.run.count)
        | none => (0, 0)
      if s.groupStalls ex q g then .next (s.stallGroup ex q acc g.todo)
      else match s.issueThread ex r with
      | .next s' => .next (s'.settleGroup q acc r before)
      | .fault f => .fault f
      | .refused f => .refused f

end Sys2Proof.Machine
end

