-- ==== Sys2Proof/Machine/Auto.lean ====
section
/-! DEFINITION. What happens next where the state's schedule leaves it open: the first step of the module's own units that
changes something, else an instruction of a thread, else the choice of a group, else a cycle passes. The order is the model's
own. -/

namespace Sys2Proof.Machine

/-- The steps of the memory system and of runs that may be due. -/
noncomputable def State.memoryTurns (s : State) : List Instr :=
  (s.threads.filterMap fun x => if x.2.deferred.isSome then some (.trapEntry (x.1 / 1024) (x.1 / 2 % 512)) else none) ++
  s.held.map (fun h => .runRelease h.id) ++
  s.loads.map (fun l => if l.who.acc then .aloadReturn l.id false else .loadReturn l.id false false) ++
  s.stores.map (fun p => .storePerform p.id false) ++
  s.walks.map (fun w => .pageWalkComplete w.id) ++
  s.notes.map (fun n => .promotionRequest n.core n.line) ++
  ((s.waiters.filter fun w => w.spilled).map fun w => .waitTableFill w.core) ++
  (s.threads.filterMap fun x => if x.2.status = .yielded then some (.yieldReady (x.1 / 1024) (x.1 / 2 % 512)) else none)

/-- The steps of the engines that may be due. -/
noncomputable def State.engineTurns (s : State) : List Instr :=
  s.copies.map (fun c => if c.started then .streamerByteReport c.id false else .streamerChannelStart c.core) ++
  s.copies.map (fun c => .copyComplete c.id) ++
  s.tileOps.flatMap (fun o =>
    [.tileOpStart o.id, .matrixPassEnd o.id false, .balanceSweep o.id, .tileOpComplete o.id false]) ++
  s.tgens.map (fun t => .tgenComplete t.id false) ++
  s.passHolds.map (fun h => .passHoldRelease h.id) ++
  (s.mazes.filter fun m => !m.heldRecs.isEmpty).map (fun m => .mazeHeldReroute m.clus m.num) ++
  (s.mazes.filter fun m => !m.completing.isEmpty).map (fun m => .mazeRecordComplete m.clus m.num) ++
  s.lodges.flatMap (fun l => [.lodgeMoveStart l.part l.name, .lodgeMoveComplete l.part l.name, .lodgeRebuild l.part l.name,
    .lodgeMirrorCopy l.part l.name])

/-- The steps of the dispatcher that may be due. -/
noncomputable def State.dispatchTurns (s : State) : List Instr :=
  s.launches.map (fun l => .launchComplete l.1) ++
  s.definedParts.flatMap (fun p => (List.range 16).map fun q => .queueHeadActivate p q) ++
  s.launches.flatMap (fun l => (s.liveRecs l.2).map fun r => .contRecordReady l.1 r) ++
  s.affWaits.map (fun a => .patienceExpiry a.launch a.wgid) ++
  s.wgs.flatMap (fun g => [.watchdogFire g.1, .watchdogGraceExpiry g.1, .preemptSave g.1]) ++
  (s.wgs.filter fun g => g.2.saved).flatMap (fun g => (List.range 768).map fun q => .restore g.1 q) ++
  (if s.launches.any fun l => !l.2.nextWgs.isEmpty then
    .s1Exit :: (List.range 768).map fun q => .workgroupPlace (q / 32) q else []) ++
  ((s.wgs.filter fun g => g.2.here && !g.2.started && !g.2.saved).map fun g => .workgroupPlace (g.2.quad / 32) g.2.quad) ++
  s.quads.map (fun q => .quadrantReclaim q.1) ++
  ((s.quads.filter fun q => (q.2.reclaim.map fun since => decide (40 ≤ s.us - since)).getD false).map fun q => .leaseEnd q.1) ++
  s.wgs.map (fun g => .preempt g.1) ++
  s.definedParts.flatMap (fun p => [.ttSlotSkip p, .ttSlotStart p]) ++
  s.genBlocks.map (fun b => .genQuarantineRelease b.part b.gen)

/-- The steps of the fabric and of the custody processor that may be due. -/
noncomputable def State.fabricTurns (s : State) : List Instr :=
  s.fab.remotes.map (fun x => .remoteTimeout x.id) ++
  s.fab.rounds.map (fun x => .reductionTimeout x.copy) ++
  ((s.fab.ports.filter fun p => decide (64 ≤ p.2.unacked)).map fun p => .ackReturn p.1) ++
  s.fab.ports.flatMap (fun p => p.2.held.map fun x => .flitExpire p.1 x.1) ++
  (s.fab.pairs.map fun x => .scaleOutResend x.port) ++
  [.meterBlockClose]

/-- The instructions that may be issued now. -/
def State.issueTurns (s : State) : List Turn :=
  (s.quads.filterMap fun q => if q.2.active.isSome && decide (q.2.slot ≤ s.clock) then some (Turn.issue q.1) else none) ++
  (s.quads.filterMap fun q => if q.2.acc.isSome then some (Turn.access q.1) else none)

/-- The choices of groups that may be made now. -/
noncomputable def State.groupTurns (s : State) : List Instr :=
  s.quads.map (fun q => .issueGroupSelect q.1) ++
  (s.wgs.flatMap fun g => if g.2.access = 0 then [] else
    (List.range (g.2.nthr / 32)).map fun l => .accessGroupIssue g.2.quad g.1 l) ++
  (s.waiters.map fun w => .waitTableSpill w.core)

/-- What shows that a step has done something: not only an event posted that finds no place, or a number taken. -/
def State.shape (s : State) : State :=
  let part := fun (p : Part) => { p with missed := [], evReady := [] }
  { s with mem := [], l2 := [], back := [], nextId := 0, fresh := 0, parts := s.parts.map fun (x : Nat × Part) => (x.1, part x.2) }

/-- The state after a step, where it has done something. -/
def State.progress (s : State) (x : Result) : Option Result :=
  match x with
  | .next s' => if s'.shape = s.shape then none else some (.next s')
  | y => some y

/-- The state after the first of some steps that does something. -/
def State.firstOf (ex : Instr → State → Result) (s : State) (l : List Instr) : Option Result :=
  l.findSome? fun i => s.progress (ex i s)

/-- The cycle that passes where nothing else happens. As a microsecond ends, the units whose accesses have failed try them
again, and tell of it in events (19_scheduling.md R394). -/
noncomputable def State.idleTurn (ex : Instr → State → Result) (s : State) : State :=
  let again := fun (s : State) (i : Instr) => match ex i s with
    | .next s' => s'
    | _ => s
  (if s.usub + 1 < max s.freq 1 then s else forEach again s (s.memoryTurns ++ s.dispatchTurns)).passTime 1

/-- A home slice takes in the line at a key, or lets it go (R15; log entry 93). -/
def State.sliceTurn (s : State) (k : Nat) (hold : Bool) : State := if hold then s.takeLine k else s.dropLine k false

/-- AUTO: what happens next where nothing is settled. -/
noncomputable def State.autoTurn (ex : Instr → State → Result) (s : State) : Result :=
  let a := s.firstOf ex (s.memoryTurns ++ s.engineTurns ++ s.dispatchTurns ++ s.fabricTurns)
  let b := s.issueTurns.findSome? fun t => s.progress (match t with
    | .issue q => s.issue ex q false
    | .access q => s.issue ex q true
    | .event i => ex i s
    | .tick n => .next (s.passTime n)
    | .slice k hold => .next (s.sliceTurn k hold))
  let c := s.firstOf ex s.groupTurns
  ((a.orElse fun _ => b).orElse fun _ => c).getD (.next (s.idleTurn ex))

/-! ### What follows every turn -/

/-- The lines that a core's L1 holds, and those of them that hold no byte that may not leave it yet. -/
def State.l1Lines (s : State) (core : Nat) : List Nat :=
  ((s.l1.filter fun c => c.1 / 2 ^ 70 == core).map fun c => lineKey (c.1 % 2 ^ 70)).dedup
def State.l1Free (s : State) (core : Nat) : List Nat :=
  (s.l1Lines core).filter fun l => !(s.l1.any fun c => c.1 / 2 ^ 70 == core && lineKey (c.1 % 2 ^ 70) == l && c.2.dirty &&
    decide (s.clock < c.2.rel))

/-- A core's L1 keeps within its 1,024 lines (02_organisation.md R12). Which line leaves it is a free choice (log entry 79). -/
def State.trimCore : Nat → State → Nat → State
  | 0, s, _ => s
  | n + 1, s, core =>
    let free := s.l1Free core
    if (s.l1Lines core).length ≤ 1024 ∨ free.isEmpty = true then s
    else
      let (i, s) := s.takeFresh
      match free[Config.freeChoice i % free.length]? with
      | none => s
      | some l => ((s.writeBackAll core (some l)).dropClean core (some l)).trimCore n core

/-- The dirty lines that are due are written home, clean copies that are due go (08_memory.md R152; log entry 98), and every L1 keeps
within its size. -/
def State.tendL1 (s : State) : State :=
  let s := { s with l1 := s.l1.filter fun c => c.2.dirty || decide (s.us < c.2.due) }
  let due := s.l1.filter fun c => c.2.dirty && decide (c.2.due ≤ s.us) && decide (c.2.rel ≤ s.clock)
  let s := forEach (fun (s : State) (x : Nat × Nat) => s.writeBackAll x.1 (some x.2)) s
    ((due.map fun c => (c.1 / 2 ^ 70, lineKey (c.1 % 2 ^ 70))).dedup)
  if s.l1.length ≤ 1024 then s
  else forEach (fun (s : State) (c : Nat) => s.trimCore s.l1.length c) s ((s.l1.map fun c => c.1 / 2 ^ 70).dedup)

/-- A line of host memory leaves its home slice: the host has what the slice had (22_fabric_host.md R353). -/
def State.dropHost (s : State) (line : Nat) : State :=
  { s with sys := { s.sys with hostLines := s.sys.hostLines.filter fun x => x.1 != line } }

/-- Of the lines of one home slice, those beyond its 2 MiB leave it (02_organisation.md R9, R12). The manual names no rule for
which line leaves, and the function that gives a line its slice is the part's (R15): both are free (log entry 93). -/
def State.trimSlice : Nat → State → Nat → State
  | 0, s, _ => s
  | n + 1, s, c =>
    let ls := (s.l2.map (·.1) ++ s.sys.hostLines.map (·.1)).filter fun k => s.sliceOf k == c
    if ls.length ≤ sliceLines then s
    else
      let (i, s) := s.takeFresh
      match ls[Config.freeChoice i % ls.length]? with
      | none => s
      | some k => (if isHost k then s.dropHost k else s.dropLine k false).trimSlice n c

/-- Every home slice keeps within its size. -/
def State.tendL2 (s : State) : State :=
  if s.l2.length + s.sys.hostLines.length ≤ sliceLines then s
  else forEach (fun (s : State) (c : Nat) => s.trimSlice (s.l2.length + s.sys.hostLines.length) c) s (List.range 64)

/-- The read-modify-writes of fabric ports that began in an earlier cycle end, and those of runs that are gone are dropped
(08_memory.md R148). -/
def State.tendRmws (s : State) : State :=
  let s := { s with rmws := s.rmws.filter fun x => match x.run with
    | some i => s.held.any fun h => h.id == i
    | none => true }
  forEach (fun s x => s.peerEnd x) s (s.rmws.filter fun x => x.req.isSome && decide (x.begun < s.clock))

/-- What units do without a step of their own: threads to be stopped, waiters and loads that had to wait, caches, fabric ports, queues of access
threads, spills, stage sets, lodges and what waits for them, quadrants on loan and the watchdog's handler. -/
def State.finish (s : State) : State :=
  let s := s.tendStops.tendAccess.tendWaiters.tendScReads.sendLoads.tendL1.tendL2.tendRmws.tendSpills.tendMazes.tendLodges.tendWaits.cancelMoves.returnQuads
  forEach (fun (s : State) (w : Nat) => s.watchEnter w) s ((s.wgs.filter fun x => !x.2.stopped.isEmpty).map (·.1))

/-- The state after a turn. -/
def finished (x : Result) : Result :=
  match x with
  | .next s => .next s.finish
  | y => y

end Sys2Proof.Machine
end

