-- ==== Sys2Proof/Machine/LaneInt.lean ====
section
/-! DEFINITION. The meanings of the integer, address, compare and select instructions, R85 to R94, and of MOVX, R105. Each is a lane
instruction (06_lane_instructions.md R80 to R82): its registers read, its operation of LaneOps, its destination
written with its tag, its flags raised. -/

namespace Sys2Proof.Machine

/-- A result for register d: its value and tag written, its flags raised (R72, R81). -/
def Arch.putVal (a : Arch) (d : Nat) (x : RegVal × FFlags) : Arch := (a.setReg d x.1).raise x.2

/-- A form with a v destination. -/
def laneV (u : Use) (d : Nat) (f : Arch → LaneVal) (s : State) : Result :=
  s.laneArch { u with writes := [d] } fun t _ => (f t.arch).map fun x => t.arch.putVal d x
/-- A form with an x destination, both halves written together (R81). -/
def laneX (u : Use) (d : Nat) (f : Arch → LanePair) (s : State) : Result :=
  s.laneArch { u with writes := [d, d + 1] } fun t _ => (f t.arch).map fun x => t.arch.setPair d x
/-- A form with a predicate destination. -/
def laneP (u : Use) (d : Nat) (f : Arch → LanePred) (s : State) : Result :=
  s.laneArch u fun t _ => (f t.arch).map fun x => (t.arch.setPred d x.1).raise x.2
/-- A form on predicates alone (R94). -/
def lanePP (d : Nat) (f : Arch → Bool) (s : State) : Result :=
  s.laneArch {} fun t _ => .ok (t.arch.setPred d (f t.arch))

/-! ### The 16-bit forms (03_encodings.md R27): the 32-bit forms with D = A = VD and B = VS -/

/-- MOV in 16 bits (R27, R85). -/
def execMov16 (d : Nat) (b : Nat) (s : State) : Result :=
  laneV { reads := [b], size := 2, slice := .both } d (fun q => opMov (q.reg b)) s

/-- ADD in 16 bits (R27, R85). -/
def execAdd16 (d : Nat) (b : Nat) (s : State) : Result :=
  laneV { reads := [d, b], size := 2, slice := .both } d (fun q => opAdd (q.reg d) (q.reg b)) s

/-- SUB in 16 bits (R27, R85). -/
def execSub16 (d : Nat) (b : Nat) (s : State) : Result :=
  laneV { reads := [d, b], size := 2, slice := .both } d (fun q => opSub (q.reg d) (q.reg b)) s

/-- MUL in 16 bits (R27, R85). -/
def execMul16 (d : Nat) (b : Nat) (s : State) : Result :=
  laneV { reads := [d, b], size := 2, slice := .both } d (fun q => opMul (q.reg d) (q.reg b)) s

/-- AND in 16 bits (R27, R85). -/
def execAnd16 (d : Nat) (b : Nat) (s : State) : Result :=
  laneV { reads := [d, b], size := 2, slice := .both } d (fun q => opAnd (q.reg d) (q.reg b)) s

/-- OR in 16 bits (R27, R85). -/
def execOr16 (d : Nat) (b : Nat) (s : State) : Result :=
  laneV { reads := [d, b], size := 2, slice := .both } d (fun q => opOr (q.reg d) (q.reg b)) s

/-- XOR in 16 bits (R27, R85). -/
def execXor16 (d : Nat) (b : Nat) (s : State) : Result :=
  laneV { reads := [d, b], size := 2, slice := .both } d (fun q => opXor (q.reg d) (q.reg b)) s

/-- SHL in 16 bits (R27, R85). -/
def execShl16 (d : Nat) (b : Nat) (s : State) : Result :=
  laneV { reads := [d, b], size := 2, slice := .both } d (fun q => opShl (q.reg d) (q.reg b)) s

/-- SHR in 16 bits (R27, R85). -/
def execShr16 (d : Nat) (b : Nat) (s : State) : Result :=
  laneV { reads := [d, b], size := 2, slice := .both } d (fun q => opShr (q.reg d) (q.reg b)) s

/-- SAR in 16 bits (R27, R85). -/
def execSar16 (d : Nat) (b : Nat) (s : State) : Result :=
  laneV { reads := [d, b], size := 2, slice := .both } d (fun q => opSar (q.reg d) (q.reg b)) s

/-- MIN in 16 bits (R27, R85). -/
def execMin16 (d : Nat) (b : Nat) (s : State) : Result :=
  laneV { reads := [d, b], size := 2, slice := .both } d (fun q => opMin (q.reg d) (q.reg b)) s

/-- MAX in 16 bits (R27, R85). -/
def execMax16 (d : Nat) (b : Nat) (s : State) : Result :=
  laneV { reads := [d, b], size := 2, slice := .both } d (fun q => opMax (q.reg d) (q.reg b)) s

/-! ### IALU (R85) -/

/-- add (R85). -/
def execAdd (d : Nat) (a : Nat) (b : Nat) (s : State) : Result :=
  laneV { reads := [a, b], slice := .both } d (fun q => opAdd (q.reg a) (q.reg b)) s

/-- sub (R85). -/
def execSub (d : Nat) (a : Nat) (b : Nat) (s : State) : Result :=
  laneV { reads := [a, b], slice := .both } d (fun q => opSub (q.reg a) (q.reg b)) s

/-- mul (R85). -/
def execMul (d : Nat) (a : Nat) (b : Nat) (s : State) : Result :=
  laneV { reads := [a, b], slice := .both } d (fun q => opMul (q.reg a) (q.reg b)) s

/-- mulhi (R85). -/
def execMulhi (d : Nat) (a : Nat) (b : Nat) (s : State) : Result :=
  laneV { reads := [a, b], slice := .both } d (fun q => opMulhi (q.reg a) (q.reg b)) s

/-- and (R85). -/
def execAnd (d : Nat) (a : Nat) (b : Nat) (s : State) : Result :=
  laneV { reads := [a, b], slice := .both } d (fun q => opAnd (q.reg a) (q.reg b)) s

/-- or (R85). -/
def execOr (d : Nat) (a : Nat) (b : Nat) (s : State) : Result :=
  laneV { reads := [a, b], slice := .both } d (fun q => opOr (q.reg a) (q.reg b)) s

/-- xor (R85). -/
def execXor (d : Nat) (a : Nat) (b : Nat) (s : State) : Result :=
  laneV { reads := [a, b], slice := .both } d (fun q => opXor (q.reg a) (q.reg b)) s

/-- shl (R85). -/
def execShl (d : Nat) (a : Nat) (b : Nat) (s : State) : Result :=
  laneV { reads := [a, b], slice := .both } d (fun q => opShl (q.reg a) (q.reg b)) s

/-- shr (R85). -/
def execShr (d : Nat) (a : Nat) (b : Nat) (s : State) : Result :=
  laneV { reads := [a, b], slice := .both } d (fun q => opShr (q.reg a) (q.reg b)) s

/-- sar (R85). -/
def execSar (d : Nat) (a : Nat) (b : Nat) (s : State) : Result :=
  laneV { reads := [a, b], slice := .both } d (fun q => opSar (q.reg a) (q.reg b)) s

/-- min (R85). -/
def execMin (d : Nat) (a : Nat) (b : Nat) (s : State) : Result :=
  laneV { reads := [a, b], slice := .both } d (fun q => opMin (q.reg a) (q.reg b)) s

/-- max (R85). -/
def execMax (d : Nat) (a : Nat) (b : Nat) (s : State) : Result :=
  laneV { reads := [a, b], slice := .both } d (fun q => opMax (q.reg a) (q.reg b)) s

/-- div (R85). -/
def execDiv (d : Nat) (a : Nat) (b : Nat) (s : State) : Result :=
  laneV { reads := [a, b], slice := .both } d (fun q => opDiv (q.reg a) (q.reg b)) s

/-- rem (R85). -/
def execRem (d : Nat) (a : Nat) (b : Nat) (s : State) : Result :=
  laneV { reads := [a, b], slice := .both } d (fun q => opRem (q.reg a) (q.reg b)) s

/-- andn (R85). -/
def execAndn (d : Nat) (a : Nat) (b : Nat) (s : State) : Result :=
  laneV { reads := [a, b], slice := .both } d (fun q => opAndn (q.reg a) (q.reg b)) s

/-- mov (R85). -/
def execMov (d : Nat) (b : Nat) (s : State) : Result :=
  laneV { reads := [b], slice := .both } d (fun q => opMov (q.reg b)) s

/-! ### IALU2 (R86) -/

/-- not (R86). -/
def execNot (d : Nat) (a : Nat) (s : State) : Result :=
  laneV { reads := [a], slice := .both } d (fun q => opNot (q.reg a)) s

/-- clz (R86). -/
def execClz (d : Nat) (a : Nat) (s : State) : Result :=
  laneV { reads := [a], slice := .both } d (fun q => opClz (q.reg a)) s

/-- popc (R86). -/
def execPopc (d : Nat) (a : Nat) (s : State) : Result :=
  laneV { reads := [a], slice := .both } d (fun q => opPopc (q.reg a)) s

/-- brev (R86). -/
def execBrev (d : Nat) (a : Nat) (s : State) : Result :=
  laneV { reads := [a], slice := .both } d (fun q => opBrev (q.reg a)) s

/-- abs (R86). -/
def execAbs (d : Nat) (a : Nat) (s : State) : Result :=
  laneV { reads := [a], slice := .both } d (fun q => opAbs (q.reg a)) s

/-- neg (R86). -/
def execNeg (d : Nat) (a : Nat) (s : State) : Result :=
  laneV { reads := [a], slice := .both } d (fun q => opNeg (q.reg a)) s

/-- gettag (R86). -/
def execGettag (d : Nat) (a : Nat) (s : State) : Result :=
  laneV { reads := [a], slice := .both } d (fun q => opGettag (q.reg a)) s

/-- bfx (R86). -/
def execBfx (d : Nat) (a : Nat) (b : Nat) (s : State) : Result :=
  laneV { reads := [a, b], slice := .both } d (fun q => opBfx (q.reg a) (q.reg b)) s

/-- bfi (R86): the control word is v[B+1]. -/
def execBfi (d : Nat) (a : Nat) (b : Nat) (s : State) : Result :=
  laneV { reads := [a, b, b + 1], slice := .both } d (fun q => opBfi (q.reg a) (q.reg b) (q.reg (b + 1))) s

/-- settag (R86). -/
def execSettag (d : Nat) (a : Nat) (b : Nat) (s : State) : Result :=
  laneV { reads := [a, b], slice := .both } d (fun q => opSettag (q.reg a) (q.reg b)) s

/-! ### Immediate groups (R87 to R89) -/

/-- addi (R87). -/
def execAddi (d : Nat) (a : Nat) (imm : Int) (s : State) : Result :=
  laneV { reads := [a], slice := .both } d (fun q => opAddi imm (q.reg a)) s

/-- andi (R87). -/
def execAndi (d : Nat) (a : Nat) (imm : Int) (s : State) : Result :=
  laneV { reads := [a], slice := .both } d (fun q => opAndi imm (q.reg a)) s

/-- ori (R87). -/
def execOri (d : Nat) (a : Nat) (imm : Int) (s : State) : Result :=
  laneV { reads := [a], slice := .both } d (fun q => opOri imm (q.reg a)) s

/-- xori (R87). -/
def execXori (d : Nat) (a : Nat) (imm : Int) (s : State) : Result :=
  laneV { reads := [a], slice := .both } d (fun q => opXori imm (q.reg a)) s

/-- muli (R87). -/
def execMuli (d : Nat) (a : Nat) (imm : Int) (s : State) : Result :=
  laneV { reads := [a], slice := .both } d (fun q => opMuli imm (q.reg a)) s

/-- shli (R88). -/
def execShli (d : Nat) (a : Nat) (n : Nat) (s : State) : Result :=
  laneV { reads := [a], slice := .both } d (fun q => opShli n (q.reg a)) s

/-- shri (R88). -/
def execShri (d : Nat) (a : Nat) (n : Nat) (s : State) : Result :=
  laneV { reads := [a], slice := .both } d (fun q => opShri n (q.reg a)) s

/-- sari (R88). -/
def execSari (d : Nat) (a : Nat) (n : Nat) (s : State) : Result :=
  laneV { reads := [a], slice := .both } d (fun q => opSari n (q.reg a)) s

/-- rsari (R88). -/
def execRsari (d : Nat) (a : Nat) (n : Nat) (s : State) : Result :=
  laneV { reads := [a], slice := .both } d (fun q => opRsari q.rm n (q.reg a)) s

/-- lui (R89). -/
def execLui (d : Nat) (imm : Nat) (s : State) : Result :=
  laneV { slice := .both } d (fun _ => opLui imm) s

/-! ### 64-bit pairs (R90, R91) -/

/-- adr (R90). -/
def execAdr (d : Nat) (a : Nat) (b : Nat) (sh : Nat) (s : State) : Result :=
  laneX { reads := [a, a + 1, b], slice := .both } d (fun q => opAdr false sh (q.pair a) (q.reg b)) s

/-- adr.s (R90). -/
def execAdrS (d : Nat) (a : Nat) (b : Nat) (sh : Nat) (s : State) : Result :=
  laneX { reads := [a, a + 1, b], slice := .both } d (fun q => opAdr true sh (q.pair a) (q.reg b)) s

/-- add64 (R91). -/
def execAdd64 (d : Nat) (a : Nat) (b : Nat) (s : State) : Result :=
  laneX { reads := [a, a + 1, b, b + 1], slice := .both } d (fun q => opAdd64 (q.pair a) (q.pair b)) s

/-- sub64 (R91). -/
def execSub64 (d : Nat) (a : Nat) (b : Nat) (s : State) : Result :=
  laneX { reads := [a, a + 1, b, b + 1], slice := .both } d (fun q => opSub64 (q.pair a) (q.pair b)) s

/-- and64 (R91). -/
def execAnd64 (d : Nat) (a : Nat) (b : Nat) (s : State) : Result :=
  laneX { reads := [a, a + 1, b, b + 1], slice := .both } d (fun q => opAnd64 (q.pair a) (q.pair b)) s

/-- or64 (R91). -/
def execOr64 (d : Nat) (a : Nat) (b : Nat) (s : State) : Result :=
  laneX { reads := [a, a + 1, b, b + 1], slice := .both } d (fun q => opOr64 (q.pair a) (q.pair b)) s

/-- xor64 (R91). -/
def execXor64 (d : Nat) (a : Nat) (b : Nat) (s : State) : Result :=
  laneX { reads := [a, a + 1, b, b + 1], slice := .both } d (fun q => opXor64 (q.pair a) (q.pair b)) s

/-- shl64 (R91): the count is v[B][7:0]. -/
def execShl64 (d : Nat) (a : Nat) (b : Nat) (s : State) : Result :=
  laneX { reads := [a, a + 1, b], slice := .both } d (fun q => opShl64 (q.pair a) (q.reg b)) s

/-- shr64 (R91): the count is v[B][7:0]. -/
def execShr64 (d : Nat) (a : Nat) (b : Nat) (s : State) : Result :=
  laneX { reads := [a, a + 1, b], slice := .both } d (fun q => opShr64 (q.pair a) (q.reg b)) s

/-- sar64 (R91): the count is v[B][7:0]. -/
def execSar64 (d : Nat) (a : Nat) (b : Nat) (s : State) : Result :=
  laneX { reads := [a, a + 1, b], slice := .both } d (fun q => opSar64 (q.pair a) (q.reg b)) s

/-- mov64 (R91): both registers with their tags. -/
def execMov64 (d : Nat) (b : Nat) (s : State) : Result :=
  laneX { reads := [b, b + 1], slice := .both } d (fun q => .ok (q.reg b, q.reg (b + 1))) s

/-- xaddi (R91). -/
def execXaddi (d : Nat) (a : Nat) (imm : Int) (s : State) : Result :=
  laneX { reads := [a, a + 1], slice := .both } d (fun q => opXaddi imm (q.pair a)) s

/-! ### Compare and select (R92 to R94) -/

/-- cmp.eq (R92). -/
def execCmpEq (d : Nat) (a : Nat) (b : Nat) (s : State) : Result :=
  laneP { reads := [a, b] } d (fun q => opCmp .eq (q.reg a) (q.reg b)) s

/-- cmp.ne (R92). -/
def execCmpNe (d : Nat) (a : Nat) (b : Nat) (s : State) : Result :=
  laneP { reads := [a, b] } d (fun q => opCmp .ne (q.reg a) (q.reg b)) s

/-- cmp.lt (R92). -/
def execCmpLt (d : Nat) (a : Nat) (b : Nat) (s : State) : Result :=
  laneP { reads := [a, b] } d (fun q => opCmp .lt (q.reg a) (q.reg b)) s

/-- cmp.le (R92). -/
def execCmpLe (d : Nat) (a : Nat) (b : Nat) (s : State) : Result :=
  laneP { reads := [a, b] } d (fun q => opCmp .le (q.reg a) (q.reg b)) s

/-- cmp.gt (R92). -/
def execCmpGt (d : Nat) (a : Nat) (b : Nat) (s : State) : Result :=
  laneP { reads := [a, b] } d (fun q => opCmp .gt (q.reg a) (q.reg b)) s

/-- cmp.ge (R92). -/
def execCmpGe (d : Nat) (a : Nat) (b : Nat) (s : State) : Result :=
  laneP { reads := [a, b] } d (fun q => opCmp .ge (q.reg a) (q.reg b)) s

/-- cmp.unord (R92). -/
def execCmpUnord (d : Nat) (a : Nat) (b : Nat) (s : State) : Result :=
  laneP { reads := [a, b] } d (fun q => opCmpUnord (q.reg a) (q.reg b)) s

/-- ptest (R92). -/
def execPtest (d : Nat) (a : Nat) (b : Nat) (s : State) : Result :=
  laneP { reads := [a, b] } d (fun q => opPtest (q.reg a) (q.reg b)) s

/-- cmp64.eq (R92). -/
def execCmp64Eq (d : Nat) (a : Nat) (b : Nat) (s : State) : Result :=
  laneP { reads := [a, a + 1, b, b + 1] } d (fun q => opCmp64Eq (q.pair a) (q.pair b)) s

/-- cmp64.ne (R92). -/
def execCmp64Ne (d : Nat) (a : Nat) (b : Nat) (s : State) : Result :=
  laneP { reads := [a, a + 1, b, b + 1] } d (fun q => opCmp64Ne (q.pair a) (q.pair b)) s

/-- cmp64.lt (R92). -/
def execCmp64Lt (d : Nat) (a : Nat) (b : Nat) (s : State) : Result :=
  laneP { reads := [a, a + 1, b, b + 1] } d (fun q => opCmp64Lt (q.pair a) (q.pair b)) s

/-- cmp64.ltn (R92). -/
def execCmp64Ltn (d : Nat) (a : Nat) (b : Nat) (s : State) : Result :=
  laneP { reads := [a, a + 1, b, b + 1] } d (fun q => opCmp64Ltn (q.pair a) (q.pair b)) s

/-- cmpi.eq (R93). -/
def execCmpiEq (d : Nat) (a : Nat) (imm : Int) (s : State) : Result :=
  laneP { reads := [a] } d (fun q => opCmpi .eq imm (q.reg a)) s

/-- cmpi.ne (R93). -/
def execCmpiNe (d : Nat) (a : Nat) (imm : Int) (s : State) : Result :=
  laneP { reads := [a] } d (fun q => opCmpi .ne imm (q.reg a)) s

/-- cmpi.lt (R93). -/
def execCmpiLt (d : Nat) (a : Nat) (imm : Int) (s : State) : Result :=
  laneP { reads := [a] } d (fun q => opCmpi .lt imm (q.reg a)) s

/-- cmpi.le (R93). -/
def execCmpiLe (d : Nat) (a : Nat) (imm : Int) (s : State) : Result :=
  laneP { reads := [a] } d (fun q => opCmpi .le imm (q.reg a)) s

/-- cmpi.gt (R93). -/
def execCmpiGt (d : Nat) (a : Nat) (imm : Int) (s : State) : Result :=
  laneP { reads := [a] } d (fun q => opCmpi .gt imm (q.reg a)) s

/-- cmpi.ge (R93). -/
def execCmpiGe (d : Nat) (a : Nat) (imm : Int) (s : State) : Result :=
  laneP { reads := [a] } d (fun q => opCmpi .ge imm (q.reg a)) s

/-- sel with predicate n (R94): the value and the tag of the register chosen. -/
def execSel (d : Nat) (n : Nat) (a : Nat) (b : Nat) (s : State) : Result :=
  laneV { reads := [a, b] } d (fun q => .ok (if q.pred n then q.reg a else q.reg b, 0)) s

/-- pand (R94). -/
def execPand (d : Nat) (a : Nat) (b : Nat) (s : State) : Result := lanePP d (fun q => q.pred a && q.pred b) s

/-- por (R94). -/
def execPor (d : Nat) (a : Nat) (b : Nat) (s : State) : Result := lanePP d (fun q => q.pred a || q.pred b) s

/-- pxor (R94). -/
def execPxor (d : Nat) (a : Nat) (b : Nat) (s : State) : Result := lanePP d (fun q => xor (q.pred a) (q.pred b)) s

/-- pandn (R94). -/
def execPandn (d : Nat) (a : Nat) (b : Nat) (s : State) : Result := lanePP d (fun q => q.pred a && !q.pred b) s

/-- pnot (R94). -/
def execPnot (d : Nat) (a : Nat) (s : State) : Result := lanePP d (fun q => !q.pred a) s

/-- ptov (R94). -/
def execPtov (d : Nat) (a : Nat) (s : State) : Result := laneV {} d (fun q => opPtov (q.pred a)) s

/-- vtop (R94). -/
def execVtop (d : Nat) (a : Nat) (s : State) : Result := laneP { reads := [a] } d (fun q => opVtop (q.reg a)) s

/-! ### MOVX (R105) -/

/-- The register v[ix] where the allotment has it (R105). -/
def ixOk (t : Thread) (g : Wg) : Bool := decide (t.arch.ix.toNat < g.allot)

/-- A form on v[ix]: REGBOUND at or above the allotment, else an interlock while the register is outstanding; one
that reads it faults on poison (R105, R115, R141). DESIGN CHOICE (log entry 96): REGBOUND comes before the poison of v[ix], and the
poison of a register that a field names before REGBOUND; the manual gives no order. -/
def movIx (u : Use) (rd : Bool) (f : Arch → Nat → Arch) (s : State) : Result :=
  s.lane u fun r t g s =>
    let i := t.arch.ix.toNat
    if !ixOk t g then s.takeFault r (plainFault .regbound) t.run.count
    else if t.busy.contains i then s.stallRun r t
    else match (if rd then t.arch.poisonOf [i] else none) with
      | some e => s.takeFault r e t.run.count
      | none => (s.modArch r fun q => f q i).pass r u.size

/-- vmovfrom (R105): D := v[ix] with its tag. -/
def execVmovfrom (d : Nat) (s : State) : Result :=
  movIx { writes := [d] } true (fun q i => q.setReg d (q.reg i)) s
/-- vmovto (R105): v[ix] := a with its tag. -/
def execVmovto (a : Nat) (s : State) : Result :=
  movIx { reads := [a] } false (fun q i => q.setReg i (q.reg a)) s
/-- setix (R105). -/
def execSetix (a : Nat) (s : State) : Result :=
  s.laneArch { reads := [a] } fun t _ => .ok { t.arch with ix := (t.arch.reg a).bits.setWidth 16 }
/-- getix (R105). -/
def execGetix (d : Nat) (s : State) : Result :=
  laneV {} d (fun q => .ok (regN32 (q.ix.setWidth 32), 0)) s
/-- addix (R105). -/
def execAddix (a : Nat) (s : State) : Result :=
  s.laneArch { reads := [a] } fun t _ => .ok { t.arch with ix := t.arch.ix + (t.arch.reg a).bits.setWidth 16 }

end Sys2Proof.Machine
end

