-- ==== Sys2Proof/Machine/LaneFloat.lean ====
section
/-! DEFINITION. The meanings of the floating, packed, special-function, conversion, tag and packing instructions, R95 to R104. Each is a lane
instruction (06_lane_instructions.md R80 to R82): its registers read, its operation of LaneOps, its destination
written with its tag, its flags raised. -/

namespace Sys2Proof.Machine

/-! ### The 16-bit forms (R27) -/

/-- FADD in 16 bits (R27, R95). -/
def execFadd16 (d : Nat) (b : Nat) (s : State) : Result :=
  laneV { reads := [d, b], size := 2 } d (fun q => opFadd q.rm (q.reg d) (q.reg b)) s

/-- FSUB in 16 bits (R27, R95). -/
def execFsub16 (d : Nat) (b : Nat) (s : State) : Result :=
  laneV { reads := [d, b], size := 2 } d (fun q => opFsub q.rm (q.reg d) (q.reg b)) s

/-- FMUL in 16 bits (R27, R95). -/
def execFmul16 (d : Nat) (b : Nat) (s : State) : Result :=
  laneV { reads := [d, b], size := 2 } d (fun q => opFmul q.rm (q.reg d) (q.reg b)) s

/-- FMAX in 16 bits (R27, R95). -/
def execFmax16 (d : Nat) (b : Nat) (s : State) : Result :=
  laneV { reads := [d, b], size := 2 } d (fun q => opFmax (q.reg d) (q.reg b)) s

/-! ### FALU and FFMA (R95, R96) -/

/-- fadd (R95). -/
def execFadd (d : Nat) (a : Nat) (b : Nat) (s : State) : Result :=
  laneV { reads := [a, b] } d (fun q => opFadd q.rm (q.reg a) (q.reg b)) s

/-- fsub (R95). -/
def execFsub (d : Nat) (a : Nat) (b : Nat) (s : State) : Result :=
  laneV { reads := [a, b] } d (fun q => opFsub q.rm (q.reg a) (q.reg b)) s

/-- fmul (R95). -/
def execFmul (d : Nat) (a : Nat) (b : Nat) (s : State) : Result :=
  laneV { reads := [a, b] } d (fun q => opFmul q.rm (q.reg a) (q.reg b)) s

/-- fdiv (R95). -/
def execFdiv (d : Nat) (a : Nat) (b : Nat) (s : State) : Result :=
  laneV { reads := [a, b] } d (fun q => opFdiv q.rm (q.reg a) (q.reg b)) s

/-- fmin (R95). -/
def execFmin (d : Nat) (a : Nat) (b : Nat) (s : State) : Result :=
  laneV { reads := [a, b] } d (fun q => opFmin (q.reg a) (q.reg b)) s

/-- fmax (R95). -/
def execFmax (d : Nat) (a : Nat) (b : Nat) (s : State) : Result :=
  laneV { reads := [a, b] } d (fun q => opFmax (q.reg a) (q.reg b)) s

/-- fcsgn (R95). -/
def execFcsgn (d : Nat) (a : Nat) (b : Nat) (s : State) : Result :=
  laneV { reads := [a, b] } d (fun q => opFcsgn (q.reg a) (q.reg b)) s

/-- fabs (R95). -/
def execFabs (d : Nat) (a : Nat) (s : State) : Result :=
  laneV { reads := [a] } d (fun q => opFabs (q.reg a)) s

/-- fneg (R95). -/
def execFneg (d : Nat) (a : Nat) (s : State) : Result :=
  laneV { reads := [a] } d (fun q => opFneg (q.reg a)) s

/-- ffloor (R95). -/
def execFfloor (d : Nat) (a : Nat) (s : State) : Result :=
  laneV { reads := [a] } d (fun q => opRint .rdn false (q.reg a)) s

/-- fceil (R95). -/
def execFceil (d : Nat) (a : Nat) (s : State) : Result :=
  laneV { reads := [a] } d (fun q => opRint .rup false (q.reg a)) s

/-- ftrunc (R95). -/
def execFtrunc (d : Nat) (a : Nat) (s : State) : Result :=
  laneV { reads := [a] } d (fun q => opRint .rtz false (q.reg a)) s

/-- frint (R95). -/
def execFrint (d : Nat) (a : Nat) (s : State) : Result :=
  laneV { reads := [a] } d (fun q => opRint q.rm true (q.reg a)) s

/-- ffma (R96). -/
def execFfma (d : Nat) (a : Nat) (b : Nat) (s : State) : Result :=
  laneV { reads := [d, a, b] } d (fun q => opFma false false q.rm (q.reg d) (q.reg a) (q.reg b)) s

/-- ffms (R96). -/
def execFfms (d : Nat) (a : Nat) (b : Nat) (s : State) : Result :=
  laneV { reads := [d, a, b] } d (fun q => opFma false true q.rm (q.reg d) (q.reg a) (q.reg b)) s

/-- fnma (R96). -/
def execFnma (d : Nat) (a : Nat) (b : Nat) (s : State) : Result :=
  laneV { reads := [d, a, b] } d (fun q => opFma true false q.rm (q.reg d) (q.reg a) (q.reg b)) s

/-- fnms (R96). -/
def execFnms (d : Nat) (a : Nat) (b : Nat) (s : State) : Result :=
  laneV { reads := [d, a, b] } d (fun q => opFma true true q.rm (q.reg d) (q.reg a) (q.reg b)) s

/-! ### HALU (R97) -/

/-- hadd (R97). -/
def execHadd (d : Nat) (a : Nat) (b : Nat) (s : State) : Result :=
  laneV { reads := [a, b] } d (fun q => opHadd q.rm (q.reg a) (q.reg b)) s

/-- hsub (R97). -/
def execHsub (d : Nat) (a : Nat) (b : Nat) (s : State) : Result :=
  laneV { reads := [a, b] } d (fun q => opHsub q.rm (q.reg a) (q.reg b)) s

/-- hmul (R97). -/
def execHmul (d : Nat) (a : Nat) (b : Nat) (s : State) : Result :=
  laneV { reads := [a, b] } d (fun q => opHmul q.rm (q.reg a) (q.reg b)) s

/-- hfma (R97). -/
def execHfma (d : Nat) (a : Nat) (b : Nat) (s : State) : Result :=
  laneV { reads := [d, a, b] } d (fun q => opHfma q.rm (q.reg d) (q.reg a) (q.reg b)) s

/-- hmin (R97). -/
def execHmin (d : Nat) (a : Nat) (b : Nat) (s : State) : Result :=
  laneV { reads := [a, b] } d (fun q => opHmin (q.reg a) (q.reg b)) s

/-- hmax (R97). -/
def execHmax (d : Nat) (a : Nat) (b : Nat) (s : State) : Result :=
  laneV { reads := [a, b] } d (fun q => opHmax (q.reg a) (q.reg b)) s

/-- hneg (R97). -/
def execHneg (d : Nat) (a : Nat) (s : State) : Result :=
  laneV { reads := [a] } d (fun q => opHneg (q.reg a)) s

/-- habs (R97). -/
def execHabs (d : Nat) (a : Nat) (s : State) : Result :=
  laneV { reads := [a] } d (fun q => opHabs (q.reg a)) s

/-! ### PALU (R98) and DMAC (R99) -/

/-- padd (R98). -/
def execPadd (d : Nat) (a : Nat) (b : Nat) (s : State) : Result :=
  laneV { reads := [a, b] } d (fun q => opPadd (q.reg a) (q.reg b)) s

/-- padd.sat (R98). -/
def execPaddSat (d : Nat) (a : Nat) (b : Nat) (s : State) : Result :=
  laneV { reads := [a, b] } d (fun q => opPaddSat (q.reg a) (q.reg b)) s

/-- psub (R98). -/
def execPsub (d : Nat) (a : Nat) (b : Nat) (s : State) : Result :=
  laneV { reads := [a, b] } d (fun q => opPsub (q.reg a) (q.reg b)) s

/-- psub.sat (R98). -/
def execPsubSat (d : Nat) (a : Nat) (b : Nat) (s : State) : Result :=
  laneV { reads := [a, b] } d (fun q => opPsubSat (q.reg a) (q.reg b)) s

/-- pmul (R98). -/
def execPmul (d : Nat) (a : Nat) (b : Nat) (s : State) : Result :=
  laneV { reads := [a, b] } d (fun q => opPmul (q.reg a) (q.reg b)) s

/-- pmin (R98). -/
def execPmin (d : Nat) (a : Nat) (b : Nat) (s : State) : Result :=
  laneV { reads := [a, b] } d (fun q => opPmin (q.reg a) (q.reg b)) s

/-- pmax (R98). -/
def execPmax (d : Nat) (a : Nat) (b : Nat) (s : State) : Result :=
  laneV { reads := [a, b] } d (fun q => opPmax (q.reg a) (q.reg b)) s

/-- pavg (R98). -/
def execPavg (d : Nat) (a : Nat) (b : Nat) (s : State) : Result :=
  laneV { reads := [a, b] } d (fun q => opPavg (q.reg a) (q.reg b)) s

/-- pshl (R98). -/
def execPshl (d : Nat) (a : Nat) (b : Nat) (s : State) : Result :=
  laneV { reads := [a, b] } d (fun q => opPshl (q.reg a) (q.reg b)) s

/-- psar (R98). -/
def execPsar (d : Nat) (a : Nat) (b : Nat) (s : State) : Result :=
  laneV { reads := [a, b] } d (fun q => opPsar (q.reg a) (q.reg b)) s

/-- pshr (R98). -/
def execPshr (d : Nat) (a : Nat) (b : Nat) (s : State) : Result :=
  laneV { reads := [a, b] } d (fun q => opPshr (q.reg a) (q.reg b)) s

/-- pabs (R98). -/
def execPabs (d : Nat) (a : Nat) (s : State) : Result :=
  laneV { reads := [a] } d (fun q => opPabs (q.reg a)) s

/-- prsar (R98). -/
def execPrsar (d : Nat) (a : Nat) (b : Nat) (s : State) : Result :=
  laneV { reads := [a, b] } d (fun q => opPrsar q.rm (q.reg a) (q.reg b)) s

/-- dmac (R99). -/
def execDmac (d : Nat) (a : Nat) (b : Nat) (s : State) : Result :=
  laneV { reads := [d, a, b] } d (fun q => opDmac (q.reg d) (q.reg a) (q.reg b)) s

/-- dmac.sat (R99). -/
def execDmacSat (d : Nat) (a : Nat) (b : Nat) (s : State) : Result :=
  laneV { reads := [d, a, b] } d (fun q => opDmacSat (q.reg d) (q.reg a) (q.reg b)) s

/-- fdmac (R99). -/
def execFdmac (d : Nat) (a : Nat) (b : Nat) (s : State) : Result :=
  laneV { reads := [d, a, b] } d (fun q => opFdmac q.rm (q.reg d) (q.reg a) (q.reg b)) s

/-! ### SFU (R100, R101) -/

/-- exp2 (R100). -/
def execExp2 (d : Nat) (a : Nat) (s : State) : Result :=
  laneV { reads := [a] } d (fun q => opSfu sfuExp2 q.rm (q.reg a)) s

/-- log2 (R100). -/
def execLog2 (d : Nat) (a : Nat) (s : State) : Result :=
  laneV { reads := [a] } d (fun q => opSfu sfuLog2 q.rm (q.reg a)) s

/-- rcp (R100). -/
def execRcp (d : Nat) (a : Nat) (s : State) : Result :=
  laneV { reads := [a] } d (fun q => opSfu sfuRcp q.rm (q.reg a)) s

/-- rsq (R100). -/
def execRsq (d : Nat) (a : Nat) (s : State) : Result :=
  laneV { reads := [a] } d (fun q => opSfu sfuRsq q.rm (q.reg a)) s

/-- sqrt (R100). -/
def execSqrt (d : Nat) (a : Nat) (s : State) : Result :=
  laneV { reads := [a] } d (fun q => opSfu sfuSqrt q.rm (q.reg a)) s

/-- sin (R100). -/
def execSin (d : Nat) (a : Nat) (s : State) : Result :=
  laneV { reads := [a] } d (fun q => opSfu sfuSin q.rm (q.reg a)) s

/-- cos (R100). -/
def execCos (d : Nat) (a : Nat) (s : State) : Result :=
  laneV { reads := [a] } d (fun q => opSfu sfuCos q.rm (q.reg a)) s

/-- exp (R100). -/
def execExp (d : Nat) (a : Nat) (s : State) : Result :=
  laneV { reads := [a] } d (fun q => opSfu sfuExp q.rm (q.reg a)) s

/-- log (R100). -/
def execLog (d : Nat) (a : Nat) (s : State) : Result :=
  laneV { reads := [a] } d (fun q => opSfu sfuLog q.rm (q.reg a)) s

/-- sigm (R100). -/
def execSigm (d : Nat) (a : Nat) (s : State) : Result :=
  laneV { reads := [a] } d (fun q => opSfu sfuSigm q.rm (q.reg a)) s

/-- tanh (R101): which of two neighbours it returns is the part's. -/
def execTanh (d : Nat) (a : Nat) (s : State) : Result :=
  laneV { reads := [a] } d (fun q => opTanh Config.tanhUp (q.reg a)) s

/-! ### CVT, TAG and PACK (R102 to R104) -/

/-- cvt (R102). -/
def execCvt (d : Nat) (a : Nat) (b : Nat) (m : Nat) (o : Nat) (s : State) : Result :=
  laneV { reads := [a, b] } d (fun q => opCvt q.rm m o (q.reg a) (q.reg b)) s

/-- retag (R103). -/
def execRetag (d : Nat) (t : Nat) (s : State) : Result :=
  laneV { reads := [d] } d (fun q => opRetag t (q.reg d)) s

/-- scadd (R103). -/
def execScadd (d : Nat) (imm : Int) (s : State) : Result :=
  laneV { reads := [d] } d (fun q => opScadd imm (q.reg d)) s

/-- pklo (R104). -/
def execPklo (d : Nat) (a : Nat) (b : Nat) (s : State) : Result :=
  laneV { reads := [a, b] } d (fun q => opPklo (q.reg a) (q.reg b)) s

/-- pkhi (R104). -/
def execPkhi (d : Nat) (a : Nat) (b : Nat) (s : State) : Result :=
  laneV { reads := [a, b] } d (fun q => opPkhi (q.reg a) (q.reg b)) s

/-- pkbl (R104). -/
def execPkbl (d : Nat) (a : Nat) (b : Nat) (s : State) : Result :=
  laneV { reads := [a, b] } d (fun q => opPkbl (q.reg a) (q.reg b)) s

/-- xtb (R104). -/
def execXtb (d : Nat) (a : Nat) (b : Nat) (s : State) : Result :=
  laneV { reads := [a, b] } d (fun q => opXtb (q.reg a) (q.reg b)) s

/-- xtlo (R104). -/
def execXtlo (d : Nat) (a : Nat) (s : State) : Result :=
  laneV { reads := [a] } d (fun q => opXtlo (q.reg a)) s

/-- xthi (R104). -/
def execXthi (d : Nat) (a : Nat) (s : State) : Result :=
  laneV { reads := [a] } d (fun q => opXthi (q.reg a)) s

end Sys2Proof.Machine
end

