-- ==== Sys2Proof/Machine/Dispatch.lean ====
section
/-! DEFINITION. The meaning of every instruction: one arm for each row of the opcode table. -/

namespace Sys2Proof.Machine

/-- What an instruction of the thread that is issuing, or a step of the module's units, does. -/
def exec (i : Instr) (s : State) : Host.Outcome State Fault Refusal :=
  match i with
  | .mov16 d b => Sys2Proof.Machine.execMov16 d b s
  | .add16 d b => Sys2Proof.Machine.execAdd16 d b s
  | .sub16 d b => Sys2Proof.Machine.execSub16 d b s
  | .mul16 d b => Sys2Proof.Machine.execMul16 d b s
  | .and16 d b => Sys2Proof.Machine.execAnd16 d b s
  | .or16 d b => Sys2Proof.Machine.execOr16 d b s
  | .xor16 d b => Sys2Proof.Machine.execXor16 d b s
  | .shl16 d b => Sys2Proof.Machine.execShl16 d b s
  | .shr16 d b => Sys2Proof.Machine.execShr16 d b s
  | .sar16 d b => Sys2Proof.Machine.execSar16 d b s
  | .min16 d b => Sys2Proof.Machine.execMin16 d b s
  | .max16 d b => Sys2Proof.Machine.execMax16 d b s
  | .fadd16 d b => Sys2Proof.Machine.execFadd16 d b s
  | .fsub16 d b => Sys2Proof.Machine.execFsub16 d b s
  | .fmul16 d b => Sys2Proof.Machine.execFmul16 d b s
  | .fmax16 d b => Sys2Proof.Machine.execFmax16 d b s
  | .add d a b => Sys2Proof.Machine.execAdd d a b s
  | .sub d a b => Sys2Proof.Machine.execSub d a b s
  | .mul d a b => Sys2Proof.Machine.execMul d a b s
  | .mulhi d a b => Sys2Proof.Machine.execMulhi d a b s
  | .and d a b => Sys2Proof.Machine.execAnd d a b s
  | .or d a b => Sys2Proof.Machine.execOr d a b s
  | .xor d a b => Sys2Proof.Machine.execXor d a b s
  | .shl d a b => Sys2Proof.Machine.execShl d a b s
  | .shr d a b => Sys2Proof.Machine.execShr d a b s
  | .sar d a b => Sys2Proof.Machine.execSar d a b s
  | .min d a b => Sys2Proof.Machine.execMin d a b s
  | .max d a b => Sys2Proof.Machine.execMax d a b s
  | .mov d b => Sys2Proof.Machine.execMov d b s
  | .div d a b => Sys2Proof.Machine.execDiv d a b s
  | .rem d a b => Sys2Proof.Machine.execRem d a b s
  | .andn d a b => Sys2Proof.Machine.execAndn d a b s
  | .not d a => Sys2Proof.Machine.execNot d a s
  | .clz d a => Sys2Proof.Machine.execClz d a s
  | .popc d a => Sys2Proof.Machine.execPopc d a s
  | .brev d a => Sys2Proof.Machine.execBrev d a s
  | .abs d a => Sys2Proof.Machine.execAbs d a s
  | .neg d a => Sys2Proof.Machine.execNeg d a s
  | .bfx d a b => Sys2Proof.Machine.execBfx d a b s
  | .bfi d a b => Sys2Proof.Machine.execBfi d a b s
  | .gettag d a => Sys2Proof.Machine.execGettag d a s
  | .settag d a b => Sys2Proof.Machine.execSettag d a b s
  | .addi d a imm => Sys2Proof.Machine.execAddi d a imm s
  | .andi d a imm => Sys2Proof.Machine.execAndi d a imm s
  | .ori d a imm => Sys2Proof.Machine.execOri d a imm s
  | .xori d a imm => Sys2Proof.Machine.execXori d a imm s
  | .muli d a imm => Sys2Proof.Machine.execMuli d a imm s
  | .shli d a n => Sys2Proof.Machine.execShli d a n s
  | .shri d a n => Sys2Proof.Machine.execShri d a n s
  | .sari d a n => Sys2Proof.Machine.execSari d a n s
  | .rsari d a n => Sys2Proof.Machine.execRsari d a n s
  | .lui d imm => Sys2Proof.Machine.execLui d imm s
  | .adr d a b sh => Sys2Proof.Machine.execAdr d a b sh s
  | .adrS d a b sh => Sys2Proof.Machine.execAdrS d a b sh s
  | .add64 d a b => Sys2Proof.Machine.execAdd64 d a b s
  | .sub64 d a b => Sys2Proof.Machine.execSub64 d a b s
  | .and64 d a b => Sys2Proof.Machine.execAnd64 d a b s
  | .or64 d a b => Sys2Proof.Machine.execOr64 d a b s
  | .xor64 d a b => Sys2Proof.Machine.execXor64 d a b s
  | .shl64 d a b => Sys2Proof.Machine.execShl64 d a b s
  | .shr64 d a b => Sys2Proof.Machine.execShr64 d a b s
  | .sar64 d a b => Sys2Proof.Machine.execSar64 d a b s
  | .mov64 d b => Sys2Proof.Machine.execMov64 d b s
  | .xaddi d a imm => Sys2Proof.Machine.execXaddi d a imm s
  | .cmpEq d a b => Sys2Proof.Machine.execCmpEq d a b s
  | .cmpNe d a b => Sys2Proof.Machine.execCmpNe d a b s
  | .cmpLt d a b => Sys2Proof.Machine.execCmpLt d a b s
  | .cmpLe d a b => Sys2Proof.Machine.execCmpLe d a b s
  | .cmpGt d a b => Sys2Proof.Machine.execCmpGt d a b s
  | .cmpGe d a b => Sys2Proof.Machine.execCmpGe d a b s
  | .cmpUnord d a b => Sys2Proof.Machine.execCmpUnord d a b s
  | .ptest d a b => Sys2Proof.Machine.execPtest d a b s
  | .cmp64Eq d a b => Sys2Proof.Machine.execCmp64Eq d a b s
  | .cmp64Ne d a b => Sys2Proof.Machine.execCmp64Ne d a b s
  | .cmp64Lt d a b => Sys2Proof.Machine.execCmp64Lt d a b s
  | .cmp64Ltn d a b => Sys2Proof.Machine.execCmp64Ltn d a b s
  | .cmpiEq d a imm => Sys2Proof.Machine.execCmpiEq d a imm s
  | .cmpiNe d a imm => Sys2Proof.Machine.execCmpiNe d a imm s
  | .cmpiLt d a imm => Sys2Proof.Machine.execCmpiLt d a imm s
  | .cmpiLe d a imm => Sys2Proof.Machine.execCmpiLe d a imm s
  | .cmpiGt d a imm => Sys2Proof.Machine.execCmpiGt d a imm s
  | .cmpiGe d a imm => Sys2Proof.Machine.execCmpiGe d a imm s
  | .sel d n a b => Sys2Proof.Machine.execSel d n a b s
  | .pand d a b => Sys2Proof.Machine.execPand d a b s
  | .por d a b => Sys2Proof.Machine.execPor d a b s
  | .pxor d a b => Sys2Proof.Machine.execPxor d a b s
  | .pandn d a b => Sys2Proof.Machine.execPandn d a b s
  | .pnot d a => Sys2Proof.Machine.execPnot d a s
  | .ptov d a => Sys2Proof.Machine.execPtov d a s
  | .vtop d a => Sys2Proof.Machine.execVtop d a s
  | .sread d n => Sys2Proof.Machine.execSread d n s
  | .fadd d a b => Sys2Proof.Machine.execFadd d a b s
  | .fsub d a b => Sys2Proof.Machine.execFsub d a b s
  | .fmul d a b => Sys2Proof.Machine.execFmul d a b s
  | .fdiv d a b => Sys2Proof.Machine.execFdiv d a b s
  | .fmin d a b => Sys2Proof.Machine.execFmin d a b s
  | .fmax d a b => Sys2Proof.Machine.execFmax d a b s
  | .fabs d a => Sys2Proof.Machine.execFabs d a s
  | .fneg d a => Sys2Proof.Machine.execFneg d a s
  | .fcsgn d a b => Sys2Proof.Machine.execFcsgn d a b s
  | .ffloor d a => Sys2Proof.Machine.execFfloor d a s
  | .fceil d a => Sys2Proof.Machine.execFceil d a s
  | .ftrunc d a => Sys2Proof.Machine.execFtrunc d a s
  | .frint d a => Sys2Proof.Machine.execFrint d a s
  | .ffma d a b => Sys2Proof.Machine.execFfma d a b s
  | .ffms d a b => Sys2Proof.Machine.execFfms d a b s
  | .fnma d a b => Sys2Proof.Machine.execFnma d a b s
  | .fnms d a b => Sys2Proof.Machine.execFnms d a b s
  | .hadd d a b => Sys2Proof.Machine.execHadd d a b s
  | .hsub d a b => Sys2Proof.Machine.execHsub d a b s
  | .hmul d a b => Sys2Proof.Machine.execHmul d a b s
  | .hfma d a b => Sys2Proof.Machine.execHfma d a b s
  | .hmin d a b => Sys2Proof.Machine.execHmin d a b s
  | .hmax d a b => Sys2Proof.Machine.execHmax d a b s
  | .hneg d a => Sys2Proof.Machine.execHneg d a s
  | .habs d a => Sys2Proof.Machine.execHabs d a s
  | .padd d a b => Sys2Proof.Machine.execPadd d a b s
  | .paddSat d a b => Sys2Proof.Machine.execPaddSat d a b s
  | .psub d a b => Sys2Proof.Machine.execPsub d a b s
  | .psubSat d a b => Sys2Proof.Machine.execPsubSat d a b s
  | .pmul d a b => Sys2Proof.Machine.execPmul d a b s
  | .pmin d a b => Sys2Proof.Machine.execPmin d a b s
  | .pmax d a b => Sys2Proof.Machine.execPmax d a b s
  | .pabs d a => Sys2Proof.Machine.execPabs d a s
  | .pavg d a b => Sys2Proof.Machine.execPavg d a b s
  | .pshl d a b => Sys2Proof.Machine.execPshl d a b s
  | .psar d a b => Sys2Proof.Machine.execPsar d a b s
  | .pshr d a b => Sys2Proof.Machine.execPshr d a b s
  | .prsar d a b => Sys2Proof.Machine.execPrsar d a b s
  | .dmac d a b => Sys2Proof.Machine.execDmac d a b s
  | .dmacSat d a b => Sys2Proof.Machine.execDmacSat d a b s
  | .fdmac d a b => Sys2Proof.Machine.execFdmac d a b s
  | .exp2 d a => Sys2Proof.Machine.execExp2 d a s
  | .log2 d a => Sys2Proof.Machine.execLog2 d a s
  | .rcp d a => Sys2Proof.Machine.execRcp d a s
  | .rsq d a => Sys2Proof.Machine.execRsq d a s
  | .sqrt d a => Sys2Proof.Machine.execSqrt d a s
  | .sin d a => Sys2Proof.Machine.execSin d a s
  | .cos d a => Sys2Proof.Machine.execCos d a s
  | .tanh d a => Sys2Proof.Machine.execTanh d a s
  | .exp d a => Sys2Proof.Machine.execExp d a s
  | .log d a => Sys2Proof.Machine.execLog d a s
  | .sigm d a => Sys2Proof.Machine.execSigm d a s
  | .cvt d a b m o => Sys2Proof.Machine.execCvt d a b m o s
  | .retag d t => Sys2Proof.Machine.execRetag d t s
  | .scadd d imm => Sys2Proof.Machine.execScadd d imm s
  | .pklo d a b => Sys2Proof.Machine.execPklo d a b s
  | .pkhi d a b => Sys2Proof.Machine.execPkhi d a b s
  | .pkbl d a b => Sys2Proof.Machine.execPkbl d a b s
  | .xtlo d a => Sys2Proof.Machine.execXtlo d a s
  | .xthi d a => Sys2Proof.Machine.execXthi d a s
  | .xtb d a b => Sys2Proof.Machine.execXtb d a b s
  | .lpick d a b => Sys2Proof.Machine.execLpick d a b s
  | .slideup d a b => Sys2Proof.Machine.execSlideup d a b s
  | .slidedn d a b => Sys2Proof.Machine.execSlidedn d a b s
  | .ballot d a b => Sys2Proof.Machine.execBallot d a b s
  | .voteAny d a b => Sys2Proof.Machine.execVoteAny d a b s
  | .voteAll d a b => Sys2Proof.Machine.execVoteAll d a b s
  | .voteEq d a b => Sys2Proof.Machine.execVoteEq d a b s
  | .lredAdd d a b => Sys2Proof.Machine.execLredAdd d a b s
  | .lredMin d a b => Sys2Proof.Machine.execLredMin d a b s
  | .lredMax d a b => Sys2Proof.Machine.execLredMax d a b s
  | .lredAnd d a b => Sys2Proof.Machine.execLredAnd d a b s
  | .lredOr d a b => Sys2Proof.Machine.execLredOr d a b s
  | .lredXor d a b => Sys2Proof.Machine.execLredXor d a b s
  | .lscanInc d a b => Sys2Proof.Machine.execLscanInc d a b s
  | .lscanExc d a b => Sys2Proof.Machine.execLscanExc d a b s
  | .vmovfrom d => Sys2Proof.Machine.execVmovfrom d s
  | .vmovto a => Sys2Proof.Machine.execVmovto a s
  | .setix a => Sys2Proof.Machine.execSetix a s
  | .getix d => Sys2Proof.Machine.execGetix d s
  | .addix a => Sys2Proof.Machine.execAddix a s
  | .guard p inv n => Sys2Proof.Machine.execGuard p inv n s
  | .br off inv p => Sys2Proof.Machine.execBr off inv p s
  | .call off inv p => Sys2Proof.Machine.execCall off inv p s
  | .brq off inv => Sys2Proof.Machine.execBrq off inv s
  | .jmpi a imm => Sys2Proof.Machine.execJmpi a imm s
  | .calli a imm => Sys2Proof.Machine.execCalli a imm s
  | .ret => Sys2Proof.Machine.execRet s
  | .brt a imm => Sys2Proof.Machine.execBrt a imm s
  | .nop => Sys2Proof.Machine.execNop s
  | .reform => Sys2Proof.Machine.execReform s
  | .reformK a => Sys2Proof.Machine.execReformK a s
  | .yield => Sys2Proof.Machine.execYield s
  | .lpad imm => Sys2Proof.Machine.execLpad imm s
  | .exit => Sys2Proof.Machine.execExit s
  | .lsync a => Sys2Proof.Machine.execLsync a s
  | .elect p a => Sys2Proof.Machine.execElect p a s
  | .beacon => Sys2Proof.Machine.execBeacon s
  | .wait l st c t av aw => Sys2Proof.Machine.execWait l st c t av aw s
  | .ldRaw d b off => Sys2Proof.Machine.execLdRaw d b off s
  | .ldI32 d b off => Sys2Proof.Machine.execLdI32 d b off s
  | .ldN32 d b off => Sys2Proof.Machine.execLdN32 d b off s
  | .ldF32 d b off => Sys2Proof.Machine.execLdF32 d b off s
  | .ld64 d b off => Sys2Proof.Machine.execLd64 d b off s
  | .ldI8 d b off => Sys2Proof.Machine.execLdI8 d b off s
  | .ldN8 d b off => Sys2Proof.Machine.execLdN8 d b off s
  | .ldI16 d b off => Sys2Proof.Machine.execLdI16 d b off s
  | .ldN16 d b off => Sys2Proof.Machine.execLdN16 d b off s
  | .st8 d b off => Sys2Proof.Machine.execSt8 d b off s
  | .st16 d b off => Sys2Proof.Machine.execSt16 d b off s
  | .st32 d b off => Sys2Proof.Machine.execSt32 d b off s
  | .st64 d b off => Sys2Proof.Machine.execSt64 d b off s
  | .ldt d b a z => Sys2Proof.Machine.execLdt d b a z s
  | .lds d a off => Sys2Proof.Machine.execLds d a off s
  | .ldsWf d a off => Sys2Proof.Machine.execLdsWf d a off s
  | .ldsWfe d a off => Sys2Proof.Machine.execLdsWfe d a off s
  | .ldsSe d a off => Sys2Proof.Machine.execLdsSe d a off s
  | .lds64 d a off => Sys2Proof.Machine.execLds64 d a off s
  | .lds8 d a off => Sys2Proof.Machine.execLds8 d a off s
  | .lds16 d a off => Sys2Proof.Machine.execLds16 d a off s
  | .sts d a off => Sys2Proof.Machine.execSts d a off s
  | .stsWef d a off => Sys2Proof.Machine.execStsWef d a off s
  | .stsSf d a off => Sys2Proof.Machine.execStsSf d a off s
  | .stsSe d a off => Sys2Proof.Machine.execStsSe d a off s
  | .sts64 d a off => Sys2Proof.Machine.execSts64 d a off s
  | .sts8 d a off => Sys2Proof.Machine.execSts8 d a off s
  | .sts16 d a off => Sys2Proof.Machine.execSts16 d a off s
  | .lda32 d b off sc => Sys2Proof.Machine.execLda32 d b off sc s
  | .lda64 d b off sc => Sys2Proof.Machine.execLda64 d b off sc s
  | .ldaP d b off => Sys2Proof.Machine.execLdaP d b off s
  | .ldaP64 d b off => Sys2Proof.Machine.execLdaP64 d b off s
  | .stl32 d b off sc => Sys2Proof.Machine.execStl32 d b off sc s
  | .stl64 d b off sc => Sys2Proof.Machine.execStl64 d b off sc s
  | .atomAdd sc d b v => Sys2Proof.Machine.execAtomAdd sc d b v s
  | .atomAddb sc d b v => Sys2Proof.Machine.execAtomAddb sc d b v s
  | .atomMin sc d b v => Sys2Proof.Machine.execAtomMin sc d b v s
  | .atomMax sc d b v => Sys2Proof.Machine.execAtomMax sc d b v s
  | .atomMinn sc d b v => Sys2Proof.Machine.execAtomMinn sc d b v s
  | .atomMaxn sc d b v => Sys2Proof.Machine.execAtomMaxn sc d b v s
  | .atomAnd sc d b v => Sys2Proof.Machine.execAtomAnd sc d b v s
  | .atomOr sc d b v => Sys2Proof.Machine.execAtomOr sc d b v s
  | .atomXor sc d b v => Sys2Proof.Machine.execAtomXor sc d b v s
  | .atomSwap sc d b v => Sys2Proof.Machine.execAtomSwap sc d b v s
  | .atomCas sc d b v => Sys2Proof.Machine.execAtomCas sc d b v s
  | .atomMaxsi sc d b v => Sys2Proof.Machine.execAtomMaxsi sc d b v s
  | .atomFadd sc d b v => Sys2Proof.Machine.execAtomFadd sc d b v s
  | .atomAdd64 sc d b v => Sys2Proof.Machine.execAtomAdd64 sc d b v s
  | .atomSwap64 sc d b v => Sys2Proof.Machine.execAtomSwap64 sc d b v s
  | .atomCas64 sc d b v => Sys2Proof.Machine.execAtomCas64 sc d b v s
  | .fenceAcq sc => Sys2Proof.Machine.execFenceAcq sc s
  | .fenceRel sc => Sys2Proof.Machine.execFenceRel sc s
  | .fenceAr sc => Sys2Proof.Machine.execFenceAr sc s
  | .fenceSc sc => Sys2Proof.Machine.execFenceSc sc s
  | .prefL2 b off => Sys2Proof.Machine.execPrefL2 b off s
  | .prefL1 b off => Sys2Proof.Machine.execPrefL1 b off s
  | .cwb b off => Sys2Proof.Machine.execCwb b off s
  | .cinv b off => Sys2Proof.Machine.execCinv b off s
  | .cwbinv b off => Sys2Proof.Machine.execCwbinv b off s
  | .czero b off => Sys2Proof.Machine.execCzero b off s
  | .cevict b off => Sys2Proof.Machine.execCevict b off s
  | .waitaEqGlobal d b off sc => Sys2Proof.Machine.execWaitaEqGlobal d b off sc s
  | .waitaChgGlobal d b off sc => Sys2Proof.Machine.execWaitaChgGlobal d b off sc s
  | .waitaFull d b off sc => Sys2Proof.Machine.execWaitaFull d b off sc s
  | .waitaEqScratch d b off sc => Sys2Proof.Machine.execWaitaEqScratch d b off sc s
  | .waitaChgScratch d b off sc => Sys2Proof.Machine.execWaitaChgScratch d b off sc s
  | .copyG2s d a => Sys2Proof.Machine.execCopyG2s d a s
  | .copyS2g d a => Sys2Proof.Machine.execCopyS2g d a s
  | .copyG2g d a => Sys2Proof.Machine.execCopyG2g d a s
  | .copyG2c d a => Sys2Proof.Machine.execCopyG2c d a s
  | .copyS2c d a => Sys2Proof.Machine.execCopyS2c d a s
  | .copyMeta d a => Sys2Proof.Machine.execCopyMeta d a s
  | .copyScale d a => Sys2Proof.Machine.execCopyScale d a s
  | .copyRemote d a => Sys2Proof.Machine.execCopyRemote d a s
  | .copyReduce d a => Sys2Proof.Machine.execCopyReduce d a s
  | .copyGather d a => Sys2Proof.Machine.execCopyGather d a s
  | .copyScatter d a => Sys2Proof.Machine.execCopyScatter d a s
  | .qinit d q a => Sys2Proof.Machine.execQinit d q a s
  | .qpush d q a => Sys2Proof.Machine.execQpush d q a s
  | .qpop d q a => Sys2Proof.Machine.execQpop d q a s
  | .qtrypush r d q a => Sys2Proof.Machine.execQtrypush r d q a s
  | .qtrypop r d q a => Sys2Proof.Machine.execQtrypop r d q a s
  | .qlen d q => Sys2Proof.Machine.execQlen d q s
  | .rvinit d a b => Sys2Proof.Machine.execRvinit d a b s
  | .arrive d a => Sys2Proof.Machine.execArrive d a s
  | .arriven d a b => Sys2Proof.Machine.execArriven d a b s
  | .expect d a b => Sys2Proof.Machine.execExpect d a b s
  | .pledge d a b => Sys2Proof.Machine.execPledge d a b s
  | .rvleave d a => Sys2Proof.Machine.execRvleave d a s
  | .mma d a => Sys2Proof.Machine.execMma d a s
  | .tld d a b => Sys2Proof.Machine.execTld d a b s
  | .tst d a b => Sys2Proof.Machine.execTst d a b s
  | .tzero d a => Sys2Proof.Machine.execTzero d a s
  | .tcvt d a b => Sys2Proof.Machine.execTcvt d a b s
  | .tget d a b => Sys2Proof.Machine.execTget d a b s
  | .tset d a b => Sys2Proof.Machine.execTset d a b s
  | .tredr d a b => Sys2Proof.Machine.execTredr d a b s
  | .tredc d a b => Sys2Proof.Machine.execTredc d a b s
  | .tstat d a => Sys2Proof.Machine.execTstat d a s
  | .tgen d a => Sys2Proof.Machine.execTgen d a s
  | .pform d a b => Sys2Proof.Machine.execPform d a b s
  | .pmarg d a b => Sys2Proof.Machine.execPmarg d a b s
  | .balance d a b => Sys2Proof.Machine.execBalance d a b s
  | .pextract d a b => Sys2Proof.Machine.execPextract d a b s
  | .pcost d a b => Sys2Proof.Machine.execPcost d a b s
  | .pstat d a b => Sys2Proof.Machine.execPstat d a b s
  | .mzdecl d a => Sys2Proof.Machine.execMzdecl d a s
  | .mzpost a b => Sys2Proof.Machine.execMzpost a b s
  | .mztake d a b => Sys2Proof.Machine.execMztake d a b s
  | .mzdonePass a b => Sys2Proof.Machine.execMzdonePass a b s
  | .mzdoneDrop a b => Sys2Proof.Machine.execMzdoneDrop a b s
  | .mzeff d a b => Sys2Proof.Machine.execMzeff d a b s
  | .mzsink d a => Sys2Proof.Machine.execMzsink d a s
  | .mzstat d a b => Sys2Proof.Machine.execMzstat d a b s
  | .lcreate d a b => Sys2Proof.Machine.execLcreate d a b s
  | .lcreateM d a b => Sys2Proof.Machine.execLcreateM d a b s
  | .lopen d a => Sys2Proof.Machine.execLopen d a s
  | .lhand d a b => Sys2Proof.Machine.execLhand d a b s
  | .ldrop d a => Sys2Proof.Machine.execLdrop d a s
  | .linfo d a => Sys2Proof.Machine.execLinfo d a s
  | .launch d a b => Sys2Proof.Machine.execLaunch d a b s
  | .signal d a b => Sys2Proof.Machine.execSignal d a b s
  | .cont a b => Sys2Proof.Machine.execCont a b s
  | .take d a => Sys2Proof.Machine.execTake d a s
  | .idemBegin a => Sys2Proof.Machine.execIdemBegin a s
  | .idemEnd => Sys2Proof.Machine.execIdemEnd s
  | .afor d a b => Sys2Proof.Machine.execAfor d a b s
  | .aend => Sys2Proof.Machine.execAend s
  | .aload d a b => Sys2Proof.Machine.execAload d a b s
  | .abr a => Sys2Proof.Machine.execAbr a s
  | .ahalt => Sys2Proof.Machine.execAhalt s
  | .trap c => Sys2Proof.Machine.execTrap c s
  | .bkpt c => Sys2Proof.Machine.execBkpt c s
  | .cread d a n => Sys2Proof.Machine.execCread d a n s
  | .cwrite d a n => Sys2Proof.Machine.execCwrite d a n s
  | .traprd d a n => Sys2Proof.Machine.execTraprd d a n s
  | .trapwr d a n => Sys2Proof.Machine.execTrapwr d a n s
  | .haltwg d a n => Sys2Proof.Machine.execHaltwg d a n s
  | .resume d a n => Sys2Proof.Machine.execResume d a n s
  | .kill d a n => Sys2Proof.Machine.execKill d a n s
  | .tlbinvWrite part v => Sys2Proof.Machine.execTlbinvWrite part v s
  | .resetWrite part => Sys2Proof.Machine.execResetWrite part s
  | .runRelease id => Sys2Proof.Machine.execRunRelease id s
  | .issueGroupSelect q => Sys2Proof.Machine.execIssueGroupSelect q s
  | .yieldReady w t => Sys2Proof.Machine.execYieldReady w t s
  | .trapEntry w t => Sys2Proof.Machine.execTrapEntry w t s
  | .loadReturn id fill bad => Sys2Proof.Machine.execLoadReturn id fill bad s
  | .storePerform id bad => Sys2Proof.Machine.execStorePerform id bad s
  | .waitTableSpill core => Sys2Proof.Machine.execWaitTableSpill core s
  | .waitTableFill core => Sys2Proof.Machine.execWaitTableFill core s
  | .pageWalkComplete id => Sys2Proof.Machine.execPageWalkComplete id s
  | .promotionRequest core line => Sys2Proof.Machine.execPromotionRequest core line s
  | .pmemgrowService w t high writes => Sys2Proof.Machine.execPmemgrowService w t high writes s
  | .streamerChannelStart core => Sys2Proof.Machine.execStreamerChannelStart core s
  | .streamerByteReport id bad => Sys2Proof.Machine.execStreamerByteReport id bad s
  | .copyComplete id => Sys2Proof.Machine.execCopyComplete id s
  | .accessGroupIssue q w lset => Sys2Proof.Machine.execAccessGroupIssue q w lset s
  | .aloadReturn id bad => Sys2Proof.Machine.execAloadReturn id bad s
  | .tileOpStart id => Sys2Proof.Machine.execTileOpStart id s
  | .matrixPassEnd id bad => Sys2Proof.Machine.execMatrixPassEnd id bad s
  | .tileOpComplete id bad => Sys2Proof.Machine.execTileOpComplete id bad s
  | .tgenComplete id bad => Sys2Proof.Machine.execTgenComplete id bad s
  | .balanceSweep id => Sys2Proof.Machine.execBalanceSweep id s
  | .mazeHeldReroute clus set => Sys2Proof.Machine.execMazeHeldReroute clus set s
  | .mazeRecordComplete clus set => Sys2Proof.Machine.execMazeRecordComplete clus set s
  | .lodgeMoveStart part name => Sys2Proof.Machine.execLodgeMoveStart part name s
  | .lodgeMoveComplete part name => Sys2Proof.Machine.execLodgeMoveComplete part name s
  | .lodgeRebuild part name => Sys2Proof.Machine.execLodgeRebuild part name s
  | .lodgeMirrorCopy part name => Sys2Proof.Machine.execLodgeMirrorCopy part name s
  | .patienceExpiry l w => Sys2Proof.Machine.execPatienceExpiry l w s
  | .leaseEnd q => Sys2Proof.Machine.execLeaseEnd q s
  | .coreLoss cores => Sys2Proof.Machine.execCoreLoss cores s
  | .queueHeadActivate part q => Sys2Proof.Machine.execQueueHeadActivate part q s
  | .workgroupPlace clus quad => Sys2Proof.Machine.execWorkgroupPlace clus quad s
  | .quadrantReclaim q => Sys2Proof.Machine.execQuadrantReclaim q s
  | .launchComplete l => Sys2Proof.Machine.execLaunchComplete l s
  | .preempt w => Sys2Proof.Machine.execPreempt w s
  | .preemptSave w => Sys2Proof.Machine.execPreemptSave w s
  | .restore w quad => Sys2Proof.Machine.execRestore w quad s
  | .ttSlotStart part => Sys2Proof.Machine.execTtSlotStart part s
  | .ttSlotSkip part => Sys2Proof.Machine.execTtSlotSkip part s
  | .contRecordReady l r => Sys2Proof.Machine.execContRecordReady l r s
  | .genQuarantineRelease part g => Sys2Proof.Machine.execGenQuarantineRelease part g s
  | .watchdogFire w => Sys2Proof.Machine.execWatchdogFire w s
  | .watchdogGraceExpiry w => Sys2Proof.Machine.execWatchdogGraceExpiry w s
  | .strike core => Sys2Proof.Machine.execStrike core s
  | .patrolScrub line found => Sys2Proof.Machine.execPatrolScrub line found s
  | .flitReceive port flit => Sys2Proof.Machine.execFlitReceive port flit s
  | .ackReturn port => Sys2Proof.Machine.execAckReturn port s
  | .laneFailure port lane => Sys2Proof.Machine.execLaneFailure port lane s
  | .linkRetrainDone port peerAck => Sys2Proof.Machine.execLinkRetrainDone port peerAck s
  | .flitExpire port seq => Sys2Proof.Machine.execFlitExpire port seq s
  | .peerRequest req => Sys2Proof.Machine.execPeerRequest req s
  | .peerLaunch req => Sys2Proof.Machine.execPeerLaunch req s
  | .remoteResponse id status data => Sys2Proof.Machine.execRemoteResponse id status data s
  | .remoteTimeout id => Sys2Proof.Machine.execRemoteTimeout id s
  | .reductionResult id status contribs => Sys2Proof.Machine.execReductionResult id status contribs s
  | .reductionTimeout id => Sys2Proof.Machine.execReductionTimeout id s
  | .scaleOutFrameReceive port frame => Sys2Proof.Machine.execScaleOutFrameReceive port frame s
  | .scaleOutResend port => Sys2Proof.Machine.execScaleOutResend port s
  | .hostCxlMemAccess part write addr data => Sys2Proof.Machine.execHostCxlMemAccess part write addr data s
  | .bar2ApertureAccess part write addr data => Sys2Proof.Machine.execBar2ApertureAccess part write addr data s
  | .doorbell part q v => Sys2Proof.Machine.execDoorbell part q v s
  | .partitionDefine part lim => Sys2Proof.Machine.execPartitionDefine part lim s
  | .partitionChange part lim => Sys2Proof.Machine.execPartitionChange part lim s
  | .partitionTeardown part => Sys2Proof.Machine.execPartitionTeardown part s
  | .hbmReassign part base size => Sys2Proof.Machine.execHbmReassign part base size s
  | .peerAclWrite idx e => Sys2Proof.Machine.execPeerAclWrite idx e s
  | .reductionGroupDefine part g members timeout => Sys2Proof.Machine.execReductionGroupDefine part g members timeout s
  | .linkRestore port => Sys2Proof.Machine.execLinkRestore port s
  | .powerCapSet watts => Sys2Proof.Machine.execPowerCapSet watts s
  | .meterRingName base size => Sys2Proof.Machine.execMeterRingName base size s
  | .attestationQuote nonce => Sys2Proof.Machine.execAttestationQuote nonce s
  | .checkpointHeaderSign header => Sys2Proof.Machine.execCheckpointHeaderSign header s
  | .meterBlockClose => Sys2Proof.Machine.execMeterBlockClose s
  | .powerCapAdjust mhz => Sys2Proof.Machine.execPowerCapAdjust mhz s
  | .thermalThrottle hot => Sys2Proof.Machine.execThermalThrottle hot s
  | .thermalTrip => Sys2Proof.Machine.execThermalTrip s
  | .s1Entry => Sys2Proof.Machine.execS1Entry s
  | .s1Exit => Sys2Proof.Machine.execS1Exit s
  | .moduleBoot stage measure good => Sys2Proof.Machine.execModuleBoot stage measure good s
  | .dieReset die => Sys2Proof.Machine.execDieReset die s
  | .postcopyPagePull part va good writes => Sys2Proof.Machine.execPostcopyPagePull part va good writes s
  | .hostResetRequest part => Sys2Proof.Machine.execHostResetRequest part s
  | .passHoldRelease id => Sys2Proof.Machine.execPassHoldRelease id s
  | .l1Writeback core line => Sys2Proof.Machine.execL1Writeback core line s
  | .memoryChannelRetire chan => Sys2Proof.Machine.execMemoryChannelRetire chan s
  | .s3Exit => Sys2Proof.Machine.execS3Exit s
  | .hostCxlCacheSnoop line data => Sys2Proof.Machine.execHostCxlCacheSnoop line data s

end Sys2Proof.Machine
end

