-- ==== Sys2Proof/Machine/Step.lean ====
section
/-! DEFINITION. One step of the module, and a state in which a given instruction is the next. -/

namespace Sys2Proof.Machine

/-- One step: what the schedule settles next takes place, or what autoTurn finds; then what units do unasked. -/
noncomputable def step (s : State) : Host.Outcome State Fault Refusal :=
  finished (match s.sched with
    | [] => s.autoTurn exec
    | .issue q :: l => ({ s with sched := l } : State).issue exec q false
    | .access q :: l => ({ s with sched := l } : State).issue exec q true
    | .event i :: l => exec i { s with sched := l, cur := none }
    | .tick n :: l => .next (({ s with sched := l } : State).passTime n)
    | .slice k hold :: l => .next (({ s with sched := l } : State).sliceTurn k hold))

/-- The partition of the state in which a given instruction is the next. -/
def fetchPart (s : State) : Part :=
  { s.part 0 with defined := true, lim := { min := 1, urgent := 0, max := 1, home := [0], hbmBase := 0, hbmSize := 65536,
                                            hbmBw := 0, canopy := 65536, linkBw := 0 } }

/-- Its workgroup: number 0, on quadrant 0. -/
def fetchWg : Wg :=
  { id := 0, part := 0, launch := 0, wgid := 0, ensid := 0, wgens := 0, nwgens := 1, quad := 0, nthr := 32, allot := 128,
    rm := .rne, supv := true, persist := true, idemok := true, exec := 0, access := 0, pfirst := 0, plen := 32, off := 0,
    scratch := 65536, qbytes := 4096, staging := 4096, accBase := 0, accLen := 65536, sideBase := 0, sideLen := 4096,
    canBase := 0, canLen := 65536, tiles := List.replicate 16 {}, oldTiles := [], qcs := List.replicate 8 {}, args := [],
    pbase := 0, pres := 0, hwm := 0, opens := [], idem := none, limit := 0, timer := 0, fired := false, grace := none,
    placedAt := 0, order := 0, started := true, here := true, saved := false, preempting := false, discarded := false,
    ended := false, oq := [], bq := [] }

/-- A register state whose registers all hold 0, tagged n32, in supervisor mode. -/
def fetchArch : Arch :=
  { pc := 0, regs := { cells := (List.range 128).map fun r => (r, { val := regN32 0 }), base := 0, kbase := 256 }, preds := 0,
    ix := 0, fflags := 0, rm := .rne, rstack := [], xcount := 0, alone := 0, sup := true, depth := 0, frame := none,
    lpad := none, skips := [] }

/-- A thread of that workgroup. -/
def fetchThread (acc : Bool) (st : TStatus) : Thread :=
  { arch := fetchArch, status := st, loads := 0, stores := 0, copies := 0, tiles := 0, busy := [], run := Run.start fetchArch,
    seq := 0, deferred := none, defSeq := none, acq := [],
    acc := if acc then some { loops := [], skip := 0, halted := false, fault := none, out := [] } else none, stop := none,
    acqDrop := false, post := .woken }

/-- The state with an instruction where step fetches its next: at address 0 of HBM, which the page at address 0 maps, in
thread 0 of workgroup 0, or its access thread for an instruction of the access engine (MAJ 0x36). The other threads of the
workgroup have exited. -/
def State.withFetchWord (s : State) (_nbits w : Nat) : State :=
  let acc := w % 2 == 1 && wordMaj w == 0x36
  let exited := (List.range 31).map fun i => ((({ wg := 0, tid := i + 1 } : TRef).key), fetchThread false .exited)
  let first : List (Nat × Thread) :=
    if acc then [(0, fetchThread false .halted), (1, fetchThread true .running)] else [(0, fetchThread false .running)]
  let g : Group := { todo := [{ wg := 0, tid := 0, acc := acc }], done := [], waitX := [] }
  { s with
    threads := first ++ exited,
    wgs := [(0, { fetchWg with access := if acc then 0x100 else 0 })],
    quads := [(0, { active := if acc then none else some g, acc := if acc then some g else none, part := some 0, home := some 0 })],
    parts := aput 0 (fetchPart s) s.parts,
    mem := Memory.writeN s.mem (kHbm 0) (natLe 4 w),
    tlb := [{ core := 0, part := 0, gen := (s.part 0).gen, base := 0, size := 65536, pa := 0, tgt := 0, mod := 0, r := true,
              w := true, x := true, sup := false }],
    nextId := max s.nextId 1,
    fresh := max s.fresh 512,
    sched := [if acc then .access 0 else .issue 0],
    cur := some { wg := 0, tid := 0, acc := acc } }

end Sys2Proof.Machine
end

