-- ==== Sys2Proof/Safety.lean ====
section
/-! DEFINITION. What counts as a safe step, the invariant of the module's memory, and the terms in which statements speak
of a thread that is issuing. -/

namespace Sys2Proof

open Machine

/-- A step that goes on. -/
def Safe (x : Result) : Prop := ∃ s, x = .next s

/-- The memory of a state has its canonical form. -/
def MemOk (s : State) : Prop := Memory.wf s.mem

/-- Thread r of workgroup g, with the record t, is issuing, and an instruction that reads the registers rd and writes wr
reaches its own meaning: its run holds no committing instruction (R50), no loop is passed over (R195), a guard that holds
over it is true (R123), its registers lie in the allotment (R30) and have no write outstanding (R115), and none that it
reads is poisoned (R141). -/
structure Ready (s : State) (r : TRef) (t : Thread) (g : Wg) (rd wr : List Nat) : Prop where
  cur : s.cur = some r
  thread : s.thread r = some t
  wg : s.wg r.wg = some g
  noCommit : t.run.cmark = none
  noLoop : t.skipping = false
  guard : ∀ x, t.run.guard = some x → x.cond = true
  bound : ∀ x ∈ rd ++ wr, x < allotOf r g
  free : ∀ x ∈ rd ++ wr, x ∉ t.busy
  clean : ∀ x ∈ rd, (t.arch.regs.get x).poison = none

/-- Thread r of workgroup g, with the record t, is issuing, and an instruction that ends its run and reads the registers
rd reaches its own meaning: no guarded range is open (R51), and its registers are as in Ready. -/
structure Ending (s : State) (r : TRef) (t : Thread) (g : Wg) (rd : List Nat) : Prop where
  cur : s.cur = some r
  thread : s.thread r = some t
  wg : s.wg r.wg = some g
  guard : t.run.guard = none
  bound : ∀ x ∈ rd, x < allotOf r g
  free : ∀ x ∈ rd, x ∉ t.busy
  clean : ∀ x ∈ rd, (t.arch.regs.get x).poison = none

/-- The state in which thread r, whose record was t, has the register state a and is past an instruction of n bytes: the
PC is n bytes on, and its run has one instruction more. Everything else is as in s. -/
def passed (s : State) (r : TRef) (t : Thread) (a : Arch) (n : Nat) : State := s.setThread r (({ t with arch := a } : Thread).pass n)

/-- The state in which thread r has taken the fault c at the instruction it is issuing. -/
def faulted (s : State) (r : TRef) (t : Thread) (c : Code) : State := s.takeFault r (plainFault c) t.run.count

/-- The instruction i, n bytes long, leaves the value v in register d and raises the flags fl, and does nothing else. -/
def Gives (i : Instr) (s : State) (r : TRef) (t : Thread) (d : Nat) (v : RegVal) (fl : FFlags) (n : Nat) : Prop :=
  exec i s = .next (passed s r t ((t.arch.setReg d v).raise fl) n)

/-- The instruction i leaves the values lo and hi in the pair d, with no flag, and does nothing else. -/
def GivesPair (i : Instr) (s : State) (r : TRef) (t : Thread) (d : Nat) (lo hi : RegVal) : Prop :=
  exec i s = .next (passed s r t ((t.arch.setReg d lo).setReg (d + 1) hi) 4)

/-- The instruction i leaves b in predicate d, where d is not 7, raises the flags fl, and does nothing else. -/
def GivesPred (i : Instr) (s : State) (r : TRef) (t : Thread) (d : Nat) (b : Bool) (fl : FFlags) : Prop :=
  exec i s = .next (passed s r t ((t.arch.setPred d b).raise fl) 4)

/-- A lane instruction (R80): a 16-bit form, or a MAJ of R84 (0x00 to 0x18 but SREAD's 0x0F, and 0x1A). -/
def Instr.isLane (i : Instr) : Bool :=
  match encUnit i with
  | some _ => true
  | none => match encFields i with
    | some (m, _, _, _, _) => (decide (m ≤ 0x18) && m != 0x0F) || m == 0x1A
    | none => false

/-- The present run of the execute thread r, with the record t, holds no claim and no beacon, nothing asks it to stop, its core's L1
has room for what it writes (R12, R328), no other thread's SC fence has come between its own and what it read (R145), and the numbers
that its commit takes are no pending store's. -/
structure SteadyRun (s : State) (r : TRef) (t : Thread) : Prop where
  exec : r.acc = false
  thread : s.thread r = some t
  claims : t.run.claims = []
  beacon : t.run.beacon = false
  stop : t.stop = none
  acc : t.acc = none
  room : s.l1Waits r t = false
  steady : s.spoiled r t.seq = false
  fresh : ∀ p ∈ s.stores, p.run ≠ s.nextId ∧ p.id < s.nextId

/-- Such a run has buffered no memory effect, holds no committing instruction, and has made no read before an SC fence of its own. -/
structure PlainRun (s : State) (r : TRef) (t : Thread) : Prop extends SteadyRun s r t where
  commit : t.run.commit = none
  buf : t.run.buf = []
  early : s.readsEarly r t.seq = false

/-- Thread r is issuing, as in Ready, an instruction of an execute slice that counts n times in the class c, and its count has
room (R117). -/
structure Accessing (s : State) (r : TRef) (t : Thread) (g : Wg) (rd wr : List Nat) (c : Cls) (n : Nat := 1) : Prop extends
    Ready s r t g rd wr where
  exec : r.acc = false
  room : t.full c n = false

/-- The state in which thread r, whose record was t, has issued the load x of this module's memory (R117, R163): it is on
its way and counts, its registers are outstanding, what is not plain holds the accesses after it, and the thread is past an
instruction of 4 bytes. -/
def loading (s : State) (r : TRef) (t : Thread) (x : PLoad) : State :=
  ({ s with nextId := s.nextId + 1, loads := s.loads ++ [x] } : State).setThread r
    (({ t with loads := t.loads + 1, busy := x.dests.map (·.reg) ++ t.busy
               acq := if x.kind = .plain then t.acq else x.id :: t.acq } : Thread).pass 4)

/-- The state in which the run of thread r has buffered the effect o of the address a, to follow the reads in l, and the thread
is past an instruction of 4 bytes (R118). -/
def buffering (s : State) (r : TRef) (t : Thread) (o : BufOp) (l : List Nat) (a : DWord) : State :=
  s.setThread r (({ t with run := { t.run with buf := t.run.buf ++ [{ op := o, after := l, addr := a }] } } : Thread).pass 4)

/-- The state in which the run of thread r holds the committing instruction c, which acts when the run commits (R50, R118),
and the thread is past an instruction of 4 bytes. -/
def captured (s : State) (r : TRef) (t : Thread) (c : Cmd) : State :=
  let kept : Cmd := { c with pc := t.arch.pc, after := s.cmdAfter r t c }
  s.setThread r (({ t with run := { t.run with commit := some kept, cmark := some t.run.count } } : Thread).pass 4)

/-- The committing instruction i is kept as the command c, and does nothing else before its run commits. -/
def Captures (i : Instr) (s : State) (r : TRef) (t : Thread) (c : Cmd) : Prop := exec i s = .next (captured s r t c)

end Sys2Proof
end

