-- ==== Sys2Proof/Certificates/Slice0/Obligations.lean ====
section
/-! DEFINITION. The statements about the machine that are to be proved. -/

section

open Sys2Proof Sys2Proof.Machine

/-- R85, add, sub, mul, mulhi, min, max, div and rem, and the 16-bit forms (R27), which are these with D = A: for i32
and n32 operands of one kind, the value and the tag of D, with no flag; div and rem follow R71. R87 to R89, the
immediate groups: the immediate is sign-extended and A's tag kept; rsari rounds under the rounding mode, sets NX where
the result is not exact and adds n to the scale; lui leaves I · 2^14 tagged i32. -/
def Obligations.IntegerArithmetic : Prop :=
  (∀ (s : State) (r : TRef) (t : Thread) (g : Wg) (d a b : Nat), Ready s r t g [a, b] [d] →
    let x := t.arch.reg a
    let y := t.arch.reg b
    (x.kind = 1 ∨ x.kind = 2) → y.kind = x.kind →
    (y.scale = x.scale →
      Gives (.add d a b) s r t d { bits := x.bits + y.bits, tag := x.tag } 0 4 ∧
      (d = a → Gives (.add16 d b) s r t d { bits := x.bits + y.bits, tag := x.tag } 0 2) ∧
      Gives (.sub d a b) s r t d { bits := x.bits - y.bits, tag := x.tag } 0 4 ∧
      (d = a → Gives (.sub16 d b) s r t d { bits := x.bits - y.bits, tag := x.tag } 0 2) ∧
      Gives (.min d a b) s r t d { bits := if x.int ≤ y.int then x.bits else y.bits, tag := x.tag } 0 4 ∧
      (d = a → Gives (.min16 d b) s r t d { bits := if x.int ≤ y.int then x.bits else y.bits, tag := x.tag } 0 2) ∧
      Gives (.max d a b) s r t d { bits := if x.int ≤ y.int then y.bits else x.bits, tag := x.tag } 0 4 ∧
      (d = a → Gives (.max16 d b) s r t d { bits := if x.int ≤ y.int then y.bits else x.bits, tag := x.tag } 0 2) ∧
      Gives (.rem d a b) s r t d { bits := if x.kind = 1 then x.bits.srem y.bits else x.bits % y.bits, tag := x.tag } 0 4) ∧
    (∀ p, makeTag x.kind 0 (x.scale + y.scale) = .ok p →
      Gives (.mul d a b) s r t d { bits := x.bits * y.bits, tag := p } 0 4 ∧
      (d = a → Gives (.mul16 d b) s r t d { bits := x.bits * y.bits, tag := p } 0 2)) ∧
    (∀ p, makeTag x.kind 0 (x.scale + y.scale + 32) = .ok p →
      Gives (.mulhi d a b) s r t d { bits := BitVec.ofInt 32 (x.int * y.int / 2 ^ 32), tag := p } 0 4) ∧
    (∀ p, makeTag x.kind 0 (x.scale - y.scale) = .ok p →
      Gives (.div d a b) s r t d
        { bits := if y.bits = 0 then 0xFFFFFFFF else if x.kind = 1 then x.bits.sdiv y.bits else x.bits / y.bits
          tag := p } 0 4)) ∧
  (∀ (s : State) (r : TRef) (t : Thread) (g : Wg) (d a n imm : Nat) (z : Int), Ready s r t g [a] [d] →
    let x := t.arch.reg a
    let m := BitVec.ofInt 32 z
    let same := fun (w : Word) (i : Instr) => Gives i s r t d { bits := w, tag := x.tag } 0 4
    (x.kind = 1 ∨ x.kind = 2 → same (x.bits + m) (.addi d a z) ∧ same (x.bits * m) (.muli d a z)) ∧
    same (x.bits &&& m) (.andi d a z) ∧ same (x.bits ||| m) (.ori d a z) ∧ same (x.bits ^^^ m) (.xori d a z) ∧
    (n < 32 →
      same (BitVec.ofNat 32 (x.bits.toNat * 2 ^ n)) (.shli d a n) ∧
      same (BitVec.ofNat 32 (x.bits.toNat / 2 ^ n)) (.shri d a n) ∧
      same (BitVec.ofInt 32 (x.bits.toInt / 2 ^ n)) (.sari d a n) ∧
      (x.kind = 1 ∨ x.kind = 2 → ∀ p, makeTag x.kind 0 (x.scale + n) = .ok p →
        Gives (.rsari d a n) s r t d
          { bits := BitVec.ofInt 32 (roundShift t.arch.rm x.int n).1, tag := p }
          (if (roundShift t.arch.rm x.int n).2 then fNX else 0) 4)) ∧
    Gives (.lui d imm) s r t d { bits := BitVec.ofNat 32 (imm * 2 ^ 14), tag := tagI32 } 0 4)

/-- R85, the bit operations, shifts and mov, and their 16-bit forms (R27): they accept every kind, keep A's tag (mov
B's) and shift by n = b[7:0], a count of 32 or more leaving 0, or copies of the top bit for sar. R86, not, clz, popc,
brev, abs, neg, gettag and settag. -/
def Obligations.BitAndOneOperandOperations : Prop :=
  (∀ (s : State) (r : TRef) (t : Thread) (g : Wg) (d a b : Nat), Ready s r t g [a, b] [d] →
    let x := t.arch.reg a
    let y := t.arch.reg b
    let n := y.bits.toNat % 256
    let out := fun (w : Word) (i j : Instr) =>
      Gives i s r t d { bits := w, tag := x.tag } 0 4 ∧ (d = a → Gives j s r t d { bits := w, tag := x.tag } 0 2)
    out (x.bits &&& y.bits) (.and d a b) (.and16 d b) ∧
    out (x.bits ||| y.bits) (.or d a b) (.or16 d b) ∧
    out (x.bits ^^^ y.bits) (.xor d a b) (.xor16 d b) ∧
    Gives (.andn d a b) s r t d { bits := x.bits &&& ~~~y.bits, tag := x.tag } 0 4 ∧
    out (if 32 ≤ n then 0 else BitVec.ofNat 32 (x.bits.toNat * 2 ^ n)) (.shl d a b) (.shl16 d b) ∧
    out (if 32 ≤ n then 0 else BitVec.ofNat 32 (x.bits.toNat / 2 ^ n)) (.shr d a b) (.shr16 d b) ∧
    out (BitVec.ofInt 32 (x.bits.toInt / 2 ^ n)) (.sar d a b) (.sar16 d b) ∧
    (a = b → Gives (.mov d b) s r t d y 0 4) ∧ (a = b → Gives (.mov16 d b) s r t d y 0 2)) ∧
  (∀ (s : State) (r : TRef) (t : Thread) (g : Wg) (d a b : Nat),
    let x := t.arch.reg a
    let y := t.arch.reg b
    (Ready s r t g [a] [d] →
      Gives (.not d a) s r t d { bits := ~~~x.bits, tag := x.tag } 0 4 ∧
      (∃ c, c ≤ 32 ∧ (∀ i, 32 ≤ c + i → x.bits.getLsbD i = false) ∧ (c < 32 → x.bits.getLsbD (31 - c) = true) ∧
        Gives (.clz d a) s r t d (regNat c) 0 4) ∧
      Gives (.popc d a) s r t d (regNat ((List.range 32).filter fun i => x.bits.getLsbD i).length) 0 4 ∧
      (∃ w : Word, (∀ i, i < 32 → w.getLsbD i = x.bits.getLsbD (31 - i)) ∧
        Gives (.brev d a) s r t d { bits := w, tag := x.tag } 0 4) ∧
      (x.kind = 1 →
        Gives (.abs d a) s r t d { bits := if x.bits.getLsbD 31 then -x.bits else x.bits, tag := x.tag } 0 4 ∧
        Gives (.neg d a) s r t d { bits := -x.bits, tag := x.tag } 0 4) ∧
      Gives (.gettag d a) s r t d (regN32 (x.tag.setWidth 32)) 0 4) ∧
    (Ready s r t g [a, b] [d] →
      (validTag (y.bits.toNat % 65536) = true →
        Gives (.settag d a b) s r t d { bits := x.bits, tag := y.bits.setWidth 16 } 0 4) ∧
      (validTag (y.bits.toNat % 65536) = false → exec (.settag d a b) s = .next (faulted s r t .tag))))

/-- R86, bfx and bfi, bit by bit: LEN and POS are fields of the control word, and field bits above 31 do not exist.
R90 and R91, arithmetic on pairs: any kinds, the result tagged lo64 and hi64 but for mov64, which moves both tags. The
index of adr and the count of a shift are one register. -/
def Obligations.BitFieldsAndPairs : Prop :=
  (∀ (s : State) (r : TRef) (t : Thread) (g : Wg) (d a b : Nat),
    let x := t.arch.reg a
    let y := t.arch.reg b
    let pos := fun (c : Word) => c.toNat % 32
    let hi := fun (c : Word) => min (c.toNat % 32 + c.toNat / 32 % 32 + 1) 32 - 1
    (Ready s r t g [a, b] [d] → ∃ w : Word, (∀ i, i < 32 → w.getLsbD i =
        (if pos y.bits + i ≤ hi y.bits then x.bits.getLsbD (pos y.bits + i)
         else y.bits.getLsbD 10 && x.bits.getLsbD (hi y.bits))) ∧
      Gives (.bfx d a b) s r t d { bits := w, tag := if y.bits.getLsbD 10 then tagI32 else tagN32 } 0 4) ∧
    (Ready s r t g [a, b, b + 1] [d] → ∃ w : Word, (∀ i, i < 32 → w.getLsbD i =
        (if pos (t.arch.reg (b + 1)).bits ≤ i ∧ i ≤ hi (t.arch.reg (b + 1)).bits
         then y.bits.getLsbD (i - pos (t.arch.reg (b + 1)).bits) else x.bits.getLsbD i)) ∧
      Gives (.bfi d a b) s r t d { bits := w, tag := x.tag } 0 4)) ∧
  (∀ (s : State) (r : TRef) (t : Thread) (g : Wg) (d a b sh : Nat) (z : Int),
    let x := t.arch.pair a
    let y := t.arch.pair b
    let i := (t.arch.reg b).bits
    let n := i.toNat % 256
    let out := fun (v : DWord) (k : Instr) =>
      GivesPair k s r t d { bits := v.setWidth 32, tag := tagLo64 } { bits := (v >>> 32).setWidth 32, tag := tagHi64 }
    (Ready s r t g [a, a + 1, b] [d, d + 1] →
      out (x + BitVec.ofNat 64 (i.toNat * 2 ^ sh)) (.adr d a b sh) ∧
      out (x + BitVec.ofInt 64 (i.toInt * 2 ^ sh)) (.adrS d a b sh) ∧
      out (if 64 ≤ n then 0 else BitVec.ofNat 64 (x.toNat * 2 ^ n)) (.shl64 d a b) ∧
      out (if 64 ≤ n then 0 else BitVec.ofNat 64 (x.toNat / 2 ^ n)) (.shr64 d a b) ∧
      out (BitVec.ofInt 64 (x.toInt / 2 ^ n)) (.sar64 d a b)) ∧
    (Ready s r t g [a, a + 1, b, b + 1] [d, d + 1] →
      out (x + y) (.add64 d a b) ∧ out (x - y) (.sub64 d a b) ∧
      out (x &&& y) (.and64 d a b) ∧ out (x ||| y) (.or64 d a b) ∧ out (x ^^^ y) (.xor64 d a b)) ∧
    (Ready s r t g [a, a + 1] [d, d + 1] →
      GivesPair (.mov64 d a) s r t d (t.arch.reg a) (t.arch.reg (a + 1)) ∧
      out (x + BitVec.ofInt 64 z) (.xaddi d a z)))

/-- R71: division rounds toward zero, by zero gives all ones and the dividend, and the most negative value over −1
gives itself and 0; div and rem never trap and set no flag. -/
def Obligations.DivisionCorners : Prop :=
  ∀ (s : State) (r : TRef) (t : Thread) (g : Wg) (d a b : Nat), Ready s r t g [a, b] [d] →
    let x := t.arch.reg a
    let y := t.arch.reg b
    (x.kind = 1 ∨ x.kind = 2) → y.kind = x.kind → y.scale = x.scale →
    ∃ q m : Word,
      Gives (.div d a b) s r t d { bits := q, tag := kTag x.kind } 0 4 ∧
      Gives (.rem d a b) s r t d { bits := m, tag := x.tag } 0 4 ∧
      (y.bits = 0 → q = 0xFFFFFFFF ∧ m = x.bits) ∧
      (y.bits ≠ 0 → x.kind = 2 → q.toNat = x.bits.toNat / y.bits.toNat ∧ m.toNat = x.bits.toNat % y.bits.toNat) ∧
      (x.kind = 1 → x.bits = 0x80000000 → y.bits = 0xFFFFFFFF → q = 0x80000000 ∧ m = 0) ∧
      (y.bits ≠ 0 → x.kind = 1 → ¬(x.bits = 0x80000000 ∧ y.bits = 0xFFFFFFFF) →
        x.bits.toInt = q.toInt * y.bits.toInt + m.toInt ∧ m.toInt.natAbs < y.bits.toInt.natAbs ∧
        (m ≠ 0 → (m.toInt < 0 ↔ x.bits.toInt < 0)))

/-- R92, CMP: the relation on integers of one kind and scale, on f32 values with NV for an ordering that meets a NaN,
and on pairs, with the encodings, the operands that raise TAG, and a write to p7 ignored; only execute slices hold it
(R37). R93, CMPI: the condition and the immediate in the word, and the immediate sign-extended to 32 bits and read
under a's kind. -/
def Obligations.Compares : Prop :=
  (∀ (s : State) (r : TRef) (t : Thread) (g : Wg) (d a b : Nat), r.acc = false →
    let x := t.arch.reg a
    let y := t.arch.reg b
    let u := f32Val x
    let v := f32Val y
    let nan := u.isNan || v.isNan
    let out := fun (i : Instr) (c : Bool) (fl : FFlags) => GivesPred i s r t d c fl
    let six := [Instr.cmpEq d a b, .cmpNe d a b, .cmpLt d a b, .cmpLe d a b, .cmpGt d a b, .cmpGe d a b]
    (∀ c, t.arch.setPred 7 c = t.arch) ∧
    (∀ p ∈ six.zipIdx, encFields p.1 = some (0x0C, d, a, b, p.2)) ∧
    encFields (.cmpUnord d a b) = some (0x0C, d, a, b, 6) ∧ encFields (.ptest d a b) = some (0x0C, d, a, b, 7) ∧
    encFields (.cmp64Eq d a b) = some (0x0C, d, a, b, 8) ∧ encFields (.cmp64Ne d a b) = some (0x0C, d, a, b, 9) ∧
    encFields (.cmp64Lt d a b) = some (0x0C, d, a, b, 10) ∧ encFields (.cmp64Ltn d a b) = some (0x0C, d, a, b, 11) ∧
    (Ready s r t g [a, b] [] →
      (¬((x.kind = 1 ∨ x.kind = 2 ∨ x.kind = 7) ∧ y.kind = x.kind ∧ y.scale = x.scale) →
        ∀ i ∈ six, exec i s = .next (faulted s r t .tag)) ∧
      (¬(x.kind = 7 ∧ y.kind = 7) → exec (.cmpUnord d a b) s = .next (faulted s r t .tag)) ∧
      (x.kind = 1 ∨ x.kind = 2 → y.kind = x.kind → y.scale = x.scale →
        out (.cmpEq d a b) (decide (x.bits = y.bits)) 0 ∧ out (.cmpNe d a b) (decide (x.bits ≠ y.bits)) 0 ∧
        out (.cmpLt d a b) (decide (x.int < y.int)) 0 ∧ out (.cmpLe d a b) (decide (x.int ≤ y.int)) 0 ∧
        out (.cmpGt d a b) (decide (y.int < x.int)) 0 ∧ out (.cmpGe d a b) (decide (y.int ≤ x.int)) 0) ∧
      (x.kind = 7 → y.kind = 7 → y.scale = x.scale →
        (nan = true →
          out (.cmpEq d a b) false 0 ∧ out (.cmpNe d a b) true 0 ∧ out (.cmpLt d a b) false fNV ∧
          out (.cmpLe d a b) false fNV ∧ out (.cmpGt d a b) false fNV ∧ out (.cmpGe d a b) false fNV) ∧
        (nan = false →
          out (.cmpEq d a b) (decide (cmpNum u v = 0)) 0 ∧ out (.cmpNe d a b) (decide (cmpNum u v ≠ 0)) 0 ∧
          out (.cmpLt d a b) (decide (cmpNum u v < 0)) 0 ∧ out (.cmpLe d a b) (decide (cmpNum u v ≤ 0)) 0 ∧
          out (.cmpGt d a b) (decide (0 < cmpNum u v)) 0 ∧ out (.cmpGe d a b) (decide (0 ≤ cmpNum u v)) 0)) ∧
      (x.kind = 7 → y.kind = 7 → out (.cmpUnord d a b) nan 0) ∧
      out (.ptest d a b) (decide (x.bits &&& y.bits ≠ 0)) 0) ∧
    (Ready s r t g [a, a + 1, b, b + 1] [] →
      let p := t.arch.pair a
      let q := t.arch.pair b
      out (.cmp64Eq d a b) (decide (p = q)) 0 ∧ out (.cmp64Ne d a b) (decide (p ≠ q)) 0 ∧
      out (.cmp64Lt d a b) (decide (p.toInt < q.toInt)) 0 ∧ out (.cmp64Ltn d a b) (decide (p.toNat < q.toNat)) 0)) ∧
  (∀ (s : State) (r : TRef) (t : Thread) (g : Wg) (d a : Nat) (z : Int), r.acc = false → Ready s r t g [a] [] →
    let x := t.arch.reg a
    let m : Int := if x.kind = 1 then (BitVec.ofInt 32 z).toInt else ((BitVec.ofInt 32 z).toNat : Int)
    let six := [Instr.cmpiEq d a z, .cmpiNe d a z, .cmpiLt d a z, .cmpiLe d a z, .cmpiGt d a z, .cmpiGe d a z]
    (∀ p ∈ six.zipIdx, encFields p.1 = some (0x0D, d, a, (z % 256).toNat % 128, 2 * p.2 + (z % 256).toNat / 128)) ∧
    (∀ p ∈ six, p.wellFormed = true → -128 ≤ z ∧ z ≤ 127) ∧
    (x.kind = 1 ∨ x.kind = 2 →
      GivesPred (.cmpiEq d a z) s r t d (decide (x.int = m)) 0 ∧ GivesPred (.cmpiNe d a z) s r t d (decide (x.int ≠ m)) 0 ∧
      GivesPred (.cmpiLt d a z) s r t d (decide (x.int < m)) 0 ∧ GivesPred (.cmpiLe d a z) s r t d (decide (x.int ≤ m)) 0 ∧
      GivesPred (.cmpiGt d a z) s r t d (decide (m < x.int)) 0 ∧ GivesPred (.cmpiGe d a z) s r t d (decide (m ≤ x.int)) 0) ∧
    (x.kind ≠ 1 → x.kind ≠ 2 →
      exec (.cmpiEq d a z) s = .next (faulted s r t .tag) ∧ exec (.cmpiNe d a z) s = .next (faulted s r t .tag) ∧
      exec (.cmpiLt d a z) s = .next (faulted s r t .tag) ∧ exec (.cmpiLe d a z) s = .next (faulted s r t .tag) ∧
      exec (.cmpiGt d a z) s = .next (faulted s r t .tag) ∧ exec (.cmpiGe d a z) s = .next (faulted s r t .tag)))

/-- R94, the SEL group, with its encodings: sel gives the value and the tag of the register chosen, the p forms act on
predicates, ptov gives 1 or 0 tagged n32, and vtop tells whether a register is not 0. What a write to a predicate
leaves (R32, R110): p7 reads 1 and a write to it changes nothing; a write to another one changes that one alone. -/
def Obligations.SelectAndPredicates : Prop :=
  (∀ (s : State) (r : TRef) (t : Thread) (g : Wg) (d n a b : Nat), r.acc = false →
    let p := fun k => t.arch.pred k
    (n < 8 → encFields (.sel d n a b) = some (0x0E, d, a, b, n)) ∧
    encFields (.pand d a b) = some (0x0E, d, a, b, 8) ∧ encFields (.por d a b) = some (0x0E, d, a, b, 9) ∧
    encFields (.pxor d a b) = some (0x0E, d, a, b, 10) ∧ encFields (.pandn d a b) = some (0x0E, d, a, b, 11) ∧
    encFields (.pnot d a) = some (0x0E, d, a, 0, 12) ∧ encFields (.ptov d a) = some (0x0E, d, a, 0, 13) ∧
    encFields (.vtop d a) = some (0x0E, d, a, 0, 14) ∧
    (Ready s r t g [a, b] [d] →
      Gives (.sel d n a b) s r t d (if p n then t.arch.reg a else t.arch.reg b) 0 4 ∧
      Gives (.sel d 7 a b) s r t d (t.arch.reg a) 0 4) ∧
    (Ready s r t g [] [] →
      GivesPred (.pand d a b) s r t d (p a && p b) 0 ∧ GivesPred (.por d a b) s r t d (p a || p b) 0 ∧
      GivesPred (.pxor d a b) s r t d (p a != p b) 0 ∧ GivesPred (.pandn d a b) s r t d (p a && !p b) 0 ∧
      GivesPred (.pnot d a) s r t d (!p a) 0) ∧
    (Ready s r t g [] [d] → Gives (.ptov d a) s r t d (regN32 (if p a then 1 else 0)) 0 4) ∧
    (Ready s r t g [a] [] → GivesPred (.vtop d a) s r t d (decide ((t.arch.reg a).bits ≠ 0)) 0)) ∧
  (∀ (q : Arch) (p k : Nat) (b : Bool),
    q.pred 7 = true ∧ q.setPred 7 b = q ∧ (p < 7 → (q.setPred p b).pred p = b) ∧
    (k ≠ p → (q.setPred p b).pred k = q.pred k) ∧ (q.setPred p b).regs = q.regs ∧ (q.setPred p b).fflags = q.fflags ∧
    (q.setPred p b).pc = q.pc)

/-- R95 and R96, FALU and FFMA and the 16-bit forms (R27), on f32 operands in an execute slice: the exact result of
IEEE 754 rounded once under the rounding mode, with its flags; fmin and fmax, and the forms on bits, set none. R97,
HALU on f16x2 or bf16x2 operands of one kind: each element by itself, the flags of both. -/
def Obligations.FloatingArithmetic : Prop :=
  (∀ (s : State) (r : TRef) (t : Thread) (g : Wg) (d a b : Nat), r.acc = false →
    let rm := t.arch.rm
    let x := f32Val (t.arch.reg a)
    let y := f32Val (t.arch.reg b)
    let z := f32Val (t.arch.reg d)
    let wx := (t.arch.reg a).bits
    let wy := (t.arch.reg b).bits
    let f := fun (i : Instr) (v : Sys2Proof.Num × FFlags) (n : Nat) =>
      Gives i s r t d { bits := BitVec.ofNat 32 (roundIeee v.1 f32 rm).1, tag := tagF32 } (v.2 ||| (roundIeee v.1 f32 rm).2) n
    let w := fun (i : Instr) (v : Word) (n : Nat) => Gives i s r t d { bits := v, tag := tagF32 } 0 n
    (Ready s r t g [a, b] [d] → (t.arch.reg a).kind = 7 → (t.arch.reg b).kind = 7 →
      f (.fadd d a b) (addFl rm x y) 4 ∧ (d = a → f (.fadd16 d b) (addFl rm x y) 2) ∧
      f (.fsub d a b) (addFl rm x y.neg) 4 ∧ (d = a → f (.fsub16 d b) (addFl rm x y.neg) 2) ∧
      f (.fmul d a b) (mulFl x y) 4 ∧ (d = a → f (.fmul16 d b) (mulFl x y) 2) ∧
      f (.fdiv d a b) (divNum x y) 4 ∧
      w (.fmin d a b) (BitVec.ofNat 32 (exactCode (minNum x y) f32)) 4 ∧
      w (.fmax d a b) (BitVec.ofNat 32 (exactCode (maxNum x y) f32)) 4 ∧
      (d = a → w (.fmax16 d b) (BitVec.ofNat 32 (exactCode (maxNum x y) f32)) 2) ∧
      w (.fcsgn d a b) ((wx &&& 0x7FFFFFFF) ||| (wy &&& 0x80000000)) 4) ∧
    (Ready s r t g [a] [d] → (t.arch.reg a).kind = 7 →
      w (.fabs d a) (wx &&& 0x7FFFFFFF) 4 ∧ w (.fneg d a) (wx ^^^ 0x80000000) 4 ∧
      w (.ffloor d a) (BitVec.ofNat 32 (roundIntegral x f32 .rdn).1) 4 ∧
      w (.fceil d a) (BitVec.ofNat 32 (roundIntegral x f32 .rup).1) 4 ∧
      w (.ftrunc d a) (BitVec.ofNat 32 (roundIntegral x f32 .rtz).1) 4 ∧
      Gives (.frint d a) s r t d { bits := BitVec.ofNat 32 (roundIntegral x f32 rm).1, tag := tagF32 }
        (if (roundIntegral x f32 rm).2 then fNX else 0) 4) ∧
    (Ready s r t g [d, a, b] [d] → (t.arch.reg d).kind = 7 → (t.arch.reg a).kind = 7 → (t.arch.reg b).kind = 7 →
      f (.ffma d a b) (fmaFl rm x y z) 4 ∧ f (.ffms d a b) (fmaFl rm x y z.neg) 4 ∧
      f (.fnma d a b) (fmaFl rm x.neg y z) 4 ∧ f (.fnms d a b) (fmaFl rm x.neg y z.neg) 4)) ∧
  (∀ (s : State) (r : TRef) (t : Thread) (g : Wg) (d a b : Nat), r.acc = false →
    let rm := t.arch.rm
    let x := t.arch.reg a
    let y := t.arch.reg b
    let z := t.arch.reg d
    let f := if x.kind = 8 then f16 else bf16
    let out := fun (i : Instr) (e : Nat → Sys2Proof.Num × FFlags) =>
      ∃ w fl, Gives i s r t d { bits := w, tag := x.tag } fl 4 ∧
        (∀ k, k < 2 → elemBits w 2 k = (roundIeee (e k).1 f rm).1 % 65536) ∧
        fl = (e 0).2 ||| (e 1).2 ||| (roundIeee (e 0).1 f rm).2 ||| (roundIeee (e 1).1 f rm).2
    let same := fun (i : Instr) (e : Nat → Sys2Proof.Num) =>
      ∃ w, Gives i s r t d { bits := w, tag := x.tag } 0 4 ∧ ∀ k, k < 2 → elemBits w 2 k = exactCode (e k) f % 65536
    (x.kind = 8 ∨ x.kind = 9) →
    (Ready s r t g [a, b] [d] → y.kind = x.kind →
      out (.hadd d a b) (fun k => addFl rm (halfVal f x k) (halfVal f y k)) ∧
      out (.hsub d a b) (fun k => addFl rm (halfVal f x k) (halfVal f y k).neg) ∧
      out (.hmul d a b) (fun k => mulFl (halfVal f x k) (halfVal f y k)) ∧
      same (.hmin d a b) (fun k => minNum (halfVal f x k) (halfVal f y k)) ∧
      same (.hmax d a b) (fun k => maxNum (halfVal f x k) (halfVal f y k))) ∧
    (Ready s r t g [d, a, b] [d] → y.kind = x.kind → z.kind = x.kind →
      out (.hfma d a b) (fun k => fmaFl rm (halfVal f x k) (halfVal f y k) (halfVal f z k))) ∧
    (Ready s r t g [a] [d] →
      Gives (.hneg d a) s r t d { bits := x.bits ^^^ 0x80008000, tag := x.tag } 0 4 ∧
      Gives (.habs d a) s r t d { bits := x.bits &&& 0x7FFF7FFF, tag := x.tag } 0 4))

/-- R98, PALU on packed integers: each element's value modulo its width, or clamped with SAT, and the scale rule of
each form. R99, the dot products: the exact sum, modulo 2^32, clamped with SAT, or rounded once to f32. -/
def Obligations.PackedIntegersAndDotProducts : Prop :=
  (∀ (s : State) (r : TRef) (t : Thread) (g : Wg) (d a b : Nat), r.acc = false →
    let x := t.arch.reg a
    let y := t.arch.reg b
    let k := x.kind
    let width := 32 / nElem k
    let n := y.bits.toNat % 256
    let ex := fun i => intElem x.bits k i
    let ey := fun i => intElem y.bits k i
    let ux := fun i => elemBits x.bits (nElem k) i
    let out := fun (j : Instr) (tag : Half) (fl : FFlags) (e : Nat → Int) =>
      ∃ w, Gives j s r t d { bits := w, tag := tag } fl 4 ∧
        ∀ i, i < nElem k → elemBits w (nElem k) i = (e i % 2 ^ width).toNat
    let sat := fun (z : Int) => max (elemRange k).1 (min (elemRange k).2 z)
    let satFl := fun (e : Nat → Int) => if ∃ i ∈ List.range (nElem k), e i ≠ sat (e i) then fSAT else (0 : FFlags)
    let clamped := fun (j : Instr) (e : Nat → Int) => out j x.tag (satFl e) (fun i => sat (e i))
    3 ≤ k → k ≤ 6 →
    (Ready s r t g [a, b] [d] →
      (y.kind = k → y.scale = x.scale →
        out (.padd d a b) x.tag 0 (fun i => ex i + ey i) ∧ clamped (.paddSat d a b) (fun i => ex i + ey i) ∧
        out (.psub d a b) x.tag 0 (fun i => ex i - ey i) ∧ clamped (.psubSat d a b) (fun i => ex i - ey i) ∧
        out (.pmin d a b) x.tag 0 (fun i => min (ex i) (ey i)) ∧ out (.pmax d a b) x.tag 0 (fun i => max (ex i) (ey i)) ∧
        out (.pavg d a b) x.tag 0 (fun i => (ex i + ey i + 1) / 2)) ∧
      (∀ p, y.kind = k → makeTag k 0 (x.scale + y.scale) = .ok p → out (.pmul d a b) p 0 (fun i => ex i * ey i)) ∧
      out (.pshl d a b) x.tag 0 (fun i => ex i * 2 ^ n) ∧
      out (.psar d a b) x.tag 0 (fun i => (if 2 ^ (width - 1) ≤ ux i then (ux i : Int) - 2 ^ width else ux i) / 2 ^ n) ∧
      out (.pshr d a b) x.tag 0 (fun i => (ux i : Int) / 2 ^ n) ∧
      (∀ p, makeTag k 0 (x.scale + n) = .ok p →
        out (.prsar d a b) p (if ∃ i ∈ List.range (nElem k), (roundShift t.arch.rm (ex i) n).2 = true then fNX else 0)
          (fun i => (roundShift t.arch.rm (ex i) n).1))) ∧
    (Ready s r t g [a] [d] → clamped (.pabs d a) (fun i => (ex i).natAbs))) ∧
  (∀ (s : State) (r : TRef) (t : Thread) (g : Wg) (d a b : Nat), r.acc = false → Ready s r t g [d, a, b] [d] →
    let z := t.arch.reg d
    let x := t.arch.reg a
    let y := t.arch.reg b
    let sum := z.int + ((List.range (nElem x.kind)).map fun i => intElem x.bits x.kind i * intElem y.bits y.kind i).sum
    (3 ≤ x.kind → x.kind ≤ 6 → 3 ≤ y.kind → y.kind ≤ 6 → nElem y.kind = nElem x.kind → z.kind = 1 →
      z.scale = x.scale + y.scale →
      Gives (.dmac d a b) s r t d { bits := BitVec.ofInt 32 sum, tag := z.tag } 0 4 ∧
      Gives (.dmacSat d a b) s r t d { bits := BitVec.ofInt 32 (max (-2 ^ 31) (min (2 ^ 31 - 1) sum)), tag := z.tag }
        (if -2 ^ 31 ≤ sum ∧ sum ≤ 2 ^ 31 - 1 then 0 else fSAT) 4) ∧
    (((x.kind = 8 ∨ x.kind = 9) ∧ (y.kind = 8 ∨ y.kind = 9)) ∨ (10 ≤ x.kind ∧ x.kind ≤ 13 ∧ 10 ≤ y.kind ∧ y.kind ≤ 13) →
      z.kind = 7 →
      let prods := (List.range (nElem x.kind)).map fun i => mulNum (valElem x.bits x.tag i) (valElem y.bits y.tag i)
      let v := sumNum t.arch.rm (f32Val z :: prods.map Prod.fst)
      Gives (.fdmac d a b) s r t d { bits := BitVec.ofNat 32 (roundTo v.1 f32 t.arch.rm .ovf).1, tag := z.tag }
        ((roundTo v.1 f32 t.arch.rm .ovf).2 ||| (if v.2 || prods.any Prod.snd then fNV else 0)) 4))

/-- R100 and R101, the special functions of an f32: every form completes on every f32, with an f32 in D and the PC past it;
the special inputs of R100's table and the test points of R101's give the values and the flags that the tables state; and
every other result is the function's value rounded once under the rounding mode, tanh one of the two neighbours. -/
def Obligations.SpecialFunctions : Prop :=
  ∀ (s : State) (r : TRef) (t : Thread) (g : Wg) (d a : Nat), r.acc = false → Ready s r t g [a] [d] →
    (t.arch.reg a).kind = 7 →
    let c := (t.arch.reg a).bits
    let mag := c.toNat % 2 ^ 31
    let neg := c.getLsbD 31
    let signed := fun (w : Word) => if neg then w ||| 0x80000000 else w
    let after := fun (w : Word) (fl : FFlags) =>
      Host.Outcome.next (passed s r t ((t.arch.setReg d { bits := w, tag := tagF32 }).raise fl) 4)
    let all := [Instr.exp2 d a, .exp d a, .log2 d a, .log d a, .rcp d a, .rsq d a, .sqrt d a, .sin d a, .cos d a, .tanh d a,
      .sigm d a]
    ((∃ w fl, exec (.exp2 d a) s = after w fl) ∧ (∃ w fl, exec (.exp d a) s = after w fl) ∧
      (∃ w fl, exec (.log2 d a) s = after w fl) ∧ (∃ w fl, exec (.log d a) s = after w fl) ∧
      (∃ w fl, exec (.rcp d a) s = after w fl) ∧ (∃ w fl, exec (.rsq d a) s = after w fl) ∧
      (∃ w fl, exec (.sqrt d a) s = after w fl) ∧ (∃ w fl, exec (.sin d a) s = after w fl) ∧
      (∃ w fl, exec (.cos d a) s = after w fl) ∧ (∃ w fl, exec (.tanh d a) s = after w fl) ∧
      (∃ w fl, exec (.sigm d a) s = after w fl)) ∧
    (0x7F800000 < mag → ∀ i ∈ all, exec i s = after 0x7FC00000 0) ∧
    (mag = 0x7F800000 →
      (neg = false → ∀ i ∈ [Instr.exp2 d a, .exp d a, .log2 d a, .log d a, .sqrt d a], exec i s = after 0x7F800000 0) ∧
      (neg = true → exec (.exp2 d a) s = after 0 0 ∧ exec (.exp d a) s = after 0 0 ∧ exec (.sigm d a) s = after 0 0) ∧
      (neg = false → exec (.rsq d a) s = after 0 0 ∧ exec (.sigm d a) s = after 0x3F800000 0) ∧
      exec (.rcp d a) s = after (signed 0) 0 ∧ exec (.sin d a) s = after 0x7FC00000 fNV ∧
      exec (.cos d a) s = after 0x7FC00000 fNV ∧ exec (.tanh d a) s = after (signed 0x3F800000) 0) ∧
    (neg = true → 0 < mag → mag ≤ 0x7F800000 →
      ∀ i ∈ [Instr.log2 d a, .log d a, .rsq d a, .sqrt d a], exec i s = after 0x7FC00000 fNV) ∧
    (mag = 0 →
      exec (.exp2 d a) s = after 0x3F800000 0 ∧ exec (.exp d a) s = after 0x3F800000 0 ∧
      exec (.log2 d a) s = after 0xFF800000 fDZ ∧ exec (.log d a) s = after 0xFF800000 fDZ ∧
      exec (.rcp d a) s = after (signed 0x7F800000) fDZ ∧ exec (.rsq d a) s = after (signed 0x7F800000) fDZ ∧
      exec (.sqrt d a) s = after c 0 ∧ exec (.sin d a) s = after c 0 ∧ exec (.cos d a) s = after 0x3F800000 0 ∧
      exec (.tanh d a) s = after c 0 ∧ exec (.sigm d a) s = after 0x3F000000 0) ∧
    (∀ n : Int, -126 ≤ n → n ≤ 127 →
      let code := (roundIeee (.fin (decide (n < 0)) n.natAbs 0) f32 .rne).1
      let pow := ((n + 127) * 2 ^ 23).toNat
      (c.toNat = code → exec (.exp2 d a) s = after (BitVec.ofNat 32 pow) 0) ∧
      (c.toNat = pow → exec (.log2 d a) s = after (BitVec.ofNat 32 code) 0)) ∧
    (c = 0x3F800000 → exec (.log d a) s = after 0 0) ∧
    (0 < mag → mag ≤ 0x39800000 → exec (.tanh d a) s = after c (if mag < 0x800000 then fNX ||| fUF else fNX)) ∧
    (0x41200000 ≤ mag → mag < 0x7F800000 → exec (.tanh d a) s = after (signed 0x3F800000) fNX) ∧
    let x := f32Val (t.arch.reg a)
    let out := fun (i : Instr) (v : SfuVal) =>
      Gives i s r t d { bits := BitVec.ofNat 32 (roundIeee v.1 f32 t.arch.rm).1, tag := tagF32 }
        (v.2 ||| (roundIeee v.1 f32 t.arch.rm).2) 4
    out (.exp2 d a) (sfuExp2 x) ∧ out (.exp d a) (sfuExp x) ∧ out (.log2 d a) (sfuLog2 x) ∧ out (.log d a) (sfuLog x) ∧
    out (.rcp d a) (sfuRcp x) ∧ out (.rsq d a) (sfuRsq x) ∧ out (.sqrt d a) (sfuSqrt x) ∧ out (.sin d a) (sfuSin x) ∧
    out (.cos d a) (sfuCos x) ∧ out (.sigm d a) (sfuSigm x) ∧
    (let c := sfuTanh (t.arch.reg a).bits.toNat Config.tanhUp
     Gives (.tanh d a) s r t d { bits := BitVec.ofNat 32 c.1, tag := tagF32 } c.2 4)

/-- R102 and R103, CVT and TAG: cvt places the converted elements as SEL says, with zeros elsewhere, and a fault of
its tags or of SEL is TAG; retag and scadd change the tag alone. R104, PACK: which bits of A and B stand where in D,
and D's tag. -/
def Obligations.ConversionsTagsAndPacking : Prop :=
  (∀ (s : State) (r : TRef) (t : Thread) (g : Wg) (d a b m o : Nat) (z : Int), r.acc = false →
    let x := t.arch.reg a
    let y := t.arch.reg b
    let tag : Half := y.bits.setWidth 16
    let sel := y.bits.toNat / 2 ^ 16 % 4
    let ns := nElem x.kind
    let nt := nElem (tKind tag)
    let n := min ns nt
    let fits := validTag tag.toNat = true ∧ kindPlain x.kind = false ∧ kindPlain (tKind tag) = false ∧ sel < max ns nt / n
    let mode := (rmOfCode m).getD t.arch.rm
    let clamp : Ovf := if o = 0 then .sat else .ovf
    let one := fun j => cvtElem (valElem x.bits x.tag (if nt ≤ ns then sel * n + j else j)) tag mode clamp
    let place := fun j => if nt ≤ ns then j else sel * n + j
    (Ready s r t g [a, b] [d] →
      (fits → ∃ w fl, Gives (.cvt d a b m o) s r t d { bits := w, tag := tag } fl 4 ∧
        (∀ j, j < n → elemBits w nt (place j) = (one j).1 % 2 ^ (32 / nt)) ∧
        (∀ i, i < nt → (∀ j, j < n → place j ≠ i) → elemBits w nt i = 0) ∧
        fl = ((List.range n).map fun j => (one j).2).foldr (· ||| ·) 0) ∧
      (¬fits → exec (.cvt d a b m o) s = .next (faulted s r t .tag))) ∧
    (Ready s r t g [d] [d] →
      Gives (.retag d m) s r t d { bits := (t.arch.reg d).bits, tag := BitVec.ofNat 16 m } 0 4 ∧
      (∀ p, ((1 ≤ (t.arch.reg d).kind ∧ (t.arch.reg d).kind ≤ 6) ∨ (10 ≤ (t.arch.reg d).kind ∧ (t.arch.reg d).kind ≤ 13)) →
        makeTag (t.arch.reg d).kind (t.arch.reg d).prec ((t.arch.reg d).scale + z) = .ok p →
        Gives (.scadd d z) s r t d { bits := (t.arch.reg d).bits, tag := p } 0 4))) ∧
  (∀ (s : State) (r : TRef) (t : Thread) (g : Wg) (d a b : Nat), r.acc = false →
    let x := t.arch.reg a
    let y := t.arch.reg b
    let byte := fun (w : Word) (i : Nat) => w.toNat / 2 ^ (8 * i) % 256
    let half := fun (w : Word) (i : Nat) => w.toNat / 2 ^ (16 * i) % 65536
    let both := if x.tag = y.tag then x.tag else tagRaw
    let as := fun (k : Nat) => BitVec.ofNat 16 (mkTag k 0 x.scale)
    let ext := fun (i : Instr) (u width ks kn : Nat) =>
      Gives i s r t d
        { bits := if x.kind = ks ∧ 2 ^ (width - 1) ≤ u then BitVec.ofInt 32 ((u : Int) - 2 ^ width) else BitVec.ofNat 32 u
          tag := if x.kind = ks then as 1 else if x.kind = kn then as 2 else tagRaw } 0 4
    (Ready s r t g [a, b] [d] →
      Gives (.pklo d a b) s r t d { bits := BitVec.ofNat 32 (half x.bits 0 + 65536 * half y.bits 0), tag := both } 0 4 ∧
      Gives (.pkhi d a b) s r t d { bits := BitVec.ofNat 32 (half x.bits 1 + 65536 * half y.bits 1), tag := both } 0 4 ∧
      Gives (.pkbl d a b) s r t d
        { bits := BitVec.ofNat 32 (byte x.bits 0 + 2 ^ 8 * byte x.bits 2 + 2 ^ 16 * byte y.bits 0 + 2 ^ 24 * byte y.bits 2)
          tag := if x.tag = y.tag ∧ x.kind = 3 then as 5 else if x.tag = y.tag ∧ x.kind = 4 then as 6 else tagRaw } 0 4 ∧
      ext (.xtb d a b) (byte x.bits (y.bits.toNat % 4)) 8 5 6) ∧
    (Ready s r t g [a] [d] → ext (.xtlo d a) (half x.bits 0) 16 3 4 ∧ ext (.xthi d a) (half x.bits 1) 16 3 4))

/-- R105, MOVX: the register that ix names, REGBOUND at or above the workgroup's allotment, before the poison of that register (the
model's choice, DESIGN CHOICE, log entry 96), an interlock while that register is outstanding, the instructions on ix itself, and the
encodings. R134, SREAD: each special register's value, tagged n32, or lo64 and hi64 for the wide ones; an access thread's rounding
mode is its execute thread's, and so are its flags (R193), with those that its own rsari has raised beside them (the model's choice,
DESIGN CHOICE, log entry 94). -/
def Obligations.IndirectMovesAndSpecialRegisters : Prop :=
  (∀ (s : State) (r : TRef) (t : Thread) (g : Wg) (d : Nat), r.acc = false →
    let i := t.arch.ix.toNat
    let h := (t.arch.reg d).bits.setWidth 16
    encFields (.vmovfrom d) = some (0x1A, d, 0, 0, 0) ∧ encFields (.vmovto d) = some (0x1A, 0, d, 0, 1) ∧
    encFields (.setix d) = some (0x1A, 0, d, 0, 2) ∧ encFields (.getix d) = some (0x1A, d, 0, 0, 3) ∧
    encFields (.addix d) = some (0x1A, 0, d, 0, 4) ∧
    (Ready s r t g [] [d] →
      (i < g.allot → i ∉ t.busy → (t.arch.regs.get i).poison = none →
        exec (.vmovfrom d) s = .next (passed s r t (t.arch.setReg d (t.arch.reg i)) 4)) ∧
      (g.allot ≤ i → exec (.vmovfrom d) s = .next (faulted s r t .regbound)) ∧
      (i < g.allot → i ∈ t.busy → exec (.vmovfrom d) s = .next (s.stallRun r t)) ∧
      (∀ f, i < g.allot → i ∉ t.busy → (t.arch.regs.get i).poison = some f →
        exec (.vmovfrom d) s = .next (s.takeFault r f t.run.count)) ∧
      exec (.getix d) s = .next (passed s r t (t.arch.setReg d (regN32 (t.arch.ix.setWidth 32))) 4)) ∧
    (Ready s r t g [d] [] →
      (i < g.allot → i ∉ t.busy → exec (.vmovto d) s = .next (passed s r t (t.arch.setReg i (t.arch.reg d)) 4)) ∧
      (g.allot ≤ i → exec (.vmovto d) s = .next (faulted s r t .regbound)) ∧
      (i < g.allot → i ∈ t.busy → exec (.vmovto d) s = .next (s.stallRun r t)) ∧
      exec (.setix d) s = .next (passed s r t { t.arch with ix := h } 4) ∧
      exec (.addix d) s = .next (passed s r t { t.arch with ix := t.arch.ix + h } 4))) ∧
  (∀ (s : State) (r : TRef) (t : Thread) (g : Wg) (d : Nat),
    (Ready s r t g [] [d] →
      let gives := fun (n v : Nat) => Gives (.sread d n) s r t d (regNat v) 0 4
      gives 0x00 r.tid ∧ gives 0x01 (r.tid % 32) ∧ gives 0x02 (r.tid / 32) ∧ gives 0x03 g.nthr ∧ gives 0x04 g.wgid ∧
      gives 0x05 g.ensid ∧ gives 0x06 g.wgens ∧ gives 0x07 g.nwgens ∧ gives 0x08 (g.quad / 4) ∧ gives 0x09 (g.quad % 4) ∧
      gives 0x0A (g.quad / 4 / 8) ∧ gives 0x0B g.part ∧ gives 0x0C (15 * 2 ^ 19 + g.off) ∧
      ∀ e, (r.acc = false ∧ e = t) ∨ (r.acc = true ∧ s.thread { r with acc := false } = some e) →
        gives 0x0D (e.arch.fflags ||| t.arch.fflags).toNat ∧ gives 0x0E (rmCode e.arch.rm)) ∧
    (Ready s r t g [] [d, d + 1] →
      let pair := fun (n : Nat) (v : DWord) => GivesPair (.sread d n) s r t d
        { bits := v.setWidth 32, tag := tagLo64 } { bits := (v >>> 32).setWidth 32, tag := tagHi64 }
      pair 0x20 (BitVec.ofNat 64 s.clock) ∧ ∀ n, 0x10 ≤ n → n ≤ 0x1F → pair n (g.args.getD (n - 0x10) 0)))

/-- R82 and R64: a value instruction whose operands are of kinds it does not accept, or of different kinds, takes TAG.
-/
def Obligations.TagFaults : Prop :=
  ∀ (s : State) (r : TRef) (t : Thread) (g : Wg) (d a b n : Nat) (z : Int),
    let x := t.arch.reg a
    let y := t.arch.reg b
    let tag := fun (l : List Instr) => ∀ i ∈ l, exec i s = .next (faulted s r t .tag)
    (Ready s r t g [a, b] [d] →
      (¬((x.kind = 1 ∨ x.kind = 2) ∧ y.kind = x.kind) →
        tag [.add d a b, .sub d a b, .mul d a b, .mulhi d a b, .min d a b, .max d a b, .div d a b, .rem d a b]) ∧
      (y.scale ≠ x.scale → tag [.add d a b, .sub d a b, .min d a b, .max d a b, .rem d a b]) ∧
      (r.acc = false →
        (x.kind ≠ 7 ∨ y.kind ≠ 7 →
          tag [.fadd d a b, .fsub d a b, .fmul d a b, .fdiv d a b, .fmin d a b, .fmax d a b, .fcsgn d a b]) ∧
        (¬((x.kind = 8 ∨ x.kind = 9) ∧ y.kind = x.kind) →
          tag [.hadd d a b, .hsub d a b, .hmul d a b, .hmin d a b, .hmax d a b]) ∧
        (¬(3 ≤ x.kind ∧ x.kind ≤ 6 ∧ y.kind = x.kind) →
          tag [.padd d a b, .paddSat d a b, .psub d a b, .psubSat d a b, .pmul d a b, .pmin d a b, .pmax d a b, .pavg d a b]) ∧
        (¬(3 ≤ x.kind ∧ x.kind ≤ 6) → tag [.pshl d a b, .psar d a b, .pshr d a b, .prsar d a b]))) ∧
    (Ready s r t g [a] [d] →
      (x.kind ≠ 1 → tag [.abs d a, .neg d a]) ∧
      (x.kind ≠ 1 → x.kind ≠ 2 → tag [.addi d a z, .muli d a z, .rsari d a n]) ∧
      (r.acc = false →
        (x.kind ≠ 7 → tag [.fabs d a, .fneg d a, .ffloor d a, .fceil d a, .ftrunc d a, .frint d a, .exp2 d a, .exp d a,
          .log2 d a, .log d a, .rcp d a, .rsq d a, .sqrt d a, .sin d a, .cos d a, .tanh d a, .sigm d a]) ∧
        (x.kind ≠ 8 → x.kind ≠ 9 → tag [.hneg d a, .habs d a]) ∧
        (¬(3 ≤ x.kind ∧ x.kind ≤ 6) → tag [.pabs d a]))) ∧
    (r.acc = false → Ready s r t g [a, b] [] →
      ¬((x.kind = 1 ∨ x.kind = 2 ∨ x.kind = 7) ∧ y.kind = x.kind ∧ y.scale = x.scale) →
      tag [.cmpEq d a b, .cmpNe d a b, .cmpLt d a b, .cmpLe d a b, .cmpGt d a b, .cmpGe d a b])

/-- R80: a lane instruction changes its own thread and nothing else, unless it stalls, which counts one interlock and lets the
loads of the run that follow an SC fence of its own be made before that fence (the model's reading, DEDUCED, log entry 61), or takes
a fault. -/
def Obligations.LaneInstructionsActAlone : Prop :=
  ∀ (i : Instr) (s : State) (r : TRef) (t : Thread) (g : Wg), i.isLane = true →
    s.cur = some r → s.thread r = some t → s.wg r.wg = some g →
    (∃ u, exec i s = .next (s.setThread r u)) ∨ exec i s = .next (s.stallRun r t) ∨ ∃ f k, exec i s = .next (s.takeFault r f k)

/-- R115 and R117: an instruction one of whose registers has a write outstanding, or whose class has 15 operations
outstanding, stalls: it issues nothing and raises no fault, and the interlock counter counts each attempt (the model's reading,
DEDUCED, log entry 14). The stores that its run has buffered take up room in their class (DEDUCED, log entry 72), and the loads of
its own run that follow an SC fence of that run may be made before that fence (DEDUCED, log entry 61). R141: an instruction
that reads a poisoned register takes the fault that the mark stands for; one that only writes the register clears the
mark. -/
def Obligations.OutstandingAndPoisonedRegisters : Prop :=
  (∀ (s : State) (r : TRef) (t : Thread) (g : Wg) (u : Use) (body : TRef → Thread → Wg → State → State),
    s.cur = some r → s.thread r = some t → s.wg r.wg = some g → t.run.cmark = none → t.run.guard = none →
    t.skipping = false → u.allowed r.acc = true → (u.priv = true → t.arch.sup = true) →
    (∀ x ∈ u.reads ++ u.writes ++ u.names, x < allotOf r g) →
    ((∃ x ∈ u.reads ++ u.writes, x ∈ t.busy) ∨ (u.cls = .loads ∧ t.loads = 15) ∨ (u.cls = .copies ∧ t.copies = 15) ∨
      (u.cls = .tiles ∧ t.tiles = 15) ∨ (u.cls = .stores ∧ t.stores + t.run.buffered = 15)) → 1 ≤ u.counts →
    ∃ s', s.lane u body = .next s' ∧ s' = s.stallRun r t ∧ s'.threads = s.threads ∧ s'.mem = s.mem ∧
      s'.loads.map (·.id) = s.loads.map (·.id) ∧
      (s'.quad (s.quadOf r)).interlocks = (s.quad (s.quadOf r)).interlocks + 1) ∧
  (∀ (s : State) (r : TRef) (t : Thread) (g : Wg) (u : Use) (body : TRef → Thread → Wg → State → State) (x : Nat) (f : FaultInfo),
    s.cur = some r → s.thread r = some t → s.wg r.wg = some g → t.run.cmark = none → t.run.guard = none →
    t.skipping = false → u.allowed r.acc = true → (u.priv = true → t.arch.sup = true) →
    (∀ y ∈ u.reads ++ u.writes ++ u.names, y < allotOf r g) → (∀ y ∈ u.reads ++ u.writes, y ∉ t.busy) →
    t.full u.cls u.counts = false →
    (u.reads = [x] → (t.arch.regs.get x).poison = some f → s.lane u body = .next (s.takeFault r f t.run.count)) ∧
    (u.reads = [] → u.ends = false → u.guards = false → s.lane u body = .next (body r t g s)) ∧
    ∀ v, ((t.arch.setReg x v).regs.get x).poison = none)

/-- R47, R37, R30, R310: the checks of an instruction in their order: ILLEGAL in a slice that may not contain it, PRIV
for a privileged form in user mode, REGBOUND for a register outside the allotment. R310: CREAD, CWRITE, TRAPRD,
TRAPWR, HALTWG, RESUME and KILL take PRIV in user mode. -/
def Obligations.EncodingChecksAndPrivilege : Prop :=
  (∀ (s : State) (r : TRef) (t : Thread) (g : Wg) (u : Use) (body : TRef → Thread → Wg → State → State),
    s.cur = some r → s.thread r = some t → s.wg r.wg = some g → t.run.cmark = none →
    (u.allowed r.acc = false → s.lane u body = .next (faulted s r t .illegal)) ∧
    (u.allowed r.acc = true → u.priv = true → t.arch.sup = false → s.lane u body = .next (faulted s r t .priv)) ∧
    (u.allowed r.acc = true → (u.priv = true → t.arch.sup = true) →
      (∃ x ∈ u.reads ++ u.writes ++ u.names, allotOf r g ≤ x) → s.lane u body = .next (faulted s r t .regbound))) ∧
  (∀ (s : State) (r : TRef) (t : Thread) (g : Wg) (d a n : Nat),
    s.cur = some r → s.thread r = some t → s.wg r.wg = some g → t.run.cmark = none → r.acc = false → t.arch.sup = false →
    ∀ i ∈ [Instr.cread d a n, .cwrite d a n, .traprd d a n, .trapwr d a n, .haltwg d a n, .resume d a n, .kill d a n],
      exec i s = .next (faulted s r t .priv))

/-- R123 and R82: under a false guard an instruction writes nothing, checks no tag and sets no flag: the thread passes
it over; a guarded range that ends the run takes RUNFORM at the guard. -/
def Obligations.FalseGuard : Prop :=
  ∀ (s : State) (r : TRef) (t : Thread) (g : Wg) (u : Use) (body : TRef → Thread → Wg → State → State) (gs : GuardState),
    s.cur = some r → s.thread r = some t → s.wg r.wg = some g → t.run.cmark = none → t.run.guard = some gs →
    t.skipping = false → u.allowed r.acc = true → (u.priv = true → t.arch.sup = true) →
    (∀ x ∈ u.reads ++ u.writes ++ u.names, x < allotOf r g) →
    (gs.cond = false → u.ends = false → u.guards = false →
      ∃ s' t', s.lane u body = .next s' ∧ s' = s.setThread r t' ∧ t'.arch.pc = t.arch.pc + BitVec.ofNat 64 u.size ∧
        t'.arch.regs = t.arch.regs ∧ t'.arch.preds = t.arch.preds ∧ t'.arch.fflags = t.arch.fflags ∧
        t'.run.commit = t.run.commit ∧ t'.run.buf = t.run.buf ∧
        (gs.left ≤ 1 → t'.run.guard = none) ∧ (1 < gs.left → t'.run.guard = some { gs with left := gs.left - 1 })) ∧
    (u.ends = true → s.lane u body = .next (s.takeFault r (plainFault .runform) gs.at'))

/-- R50: after a committing instruction only a terminator may follow; anything else takes RUNFORM at the committing
instruction, the instructions that end a run of an access thread alone among them (R49). -/
def Obligations.OnlyTerminatorsAfterCommitting : Prop :=
  ∀ (s : State) (r : TRef) (t : Thread) (g : Wg) (u : Use) (body : TRef → Thread → Wg → State → State) (k : Nat),
    s.cur = some r → s.thread r = some t → s.wg r.wg = some g → t.run.cmark = some k →
    (u.ends = false ∨ (u.slice = .access ∧ r.acc = false)) → s.lane u body = .next (s.takeFault r (plainFault .runform) k)

/-- R51, R123, R126, R309: nop and lpad only pass; beacon marks its run; guard samples its condition once, and takes
RUNFORM where its range would end the run or hold a guard; code of another module in its range, and in the target of an
indirect transfer, is asked for first. The terminators of a run end it with the PC, the status and the return stack that
R25, R111, R113, R121, R124, R126 to R128 and R135 give: a call with eight return addresses in the quadrant spills the oldest to the
address that R157 gives, or parks where that page is not mapped; brt reads its entry as a fetch (R125). The number of a thread's
spill slot is the model's choice (DESIGN CHOICE, log entry 27). -/
def Obligations.ControlFlow : Prop :=
  (∀ (s : State) (r : TRef) (t : Thread) (g : Wg) (p inv n label : Nat), r.acc = false → Ready s r t g [] [] →
    exec .nop s = .next (passed s r t t.arch 4) ∧ exec (.lpad label) s = .next (passed s r t t.arch 4) ∧
    exec .beacon s = .next (s.setThread r (({ t with run := { t.run with beacon := true } } : Thread).pass 4)) ∧
    (∀ x, t.run.guard = none → s.rangeFar r (t.arch.pc + 4) (min n (23 - t.run.count)) = some x →
      exec (.guard p inv n) s = .next (s.startWalk r x .fetch)) ∧
    (t.run.guard = none → s.rangeFar r (t.arch.pc + 4) (min n (23 - t.run.count)) = none →
      s.rangeBroken r (t.arch.pc + 4) (min n (23 - t.run.count)) = false →
      exec (.guard p inv n) s = .next (s.setThread r { t with
        arch := { t.arch with pc := t.arch.pc + 4 }
        run := { t.run with count := t.run.count + 1,
                            guard := some { left := n, cond := t.arch.pred p != (inv == 1), at' := t.run.count } } })) ∧
    (t.run.guard = none → s.rangeFar r (t.arch.pc + 4) (min n (23 - t.run.count)) = none →
      s.rangeBroken r (t.arch.pc + 4) (min n (23 - t.run.count)) = true →
      exec (.guard p inv n) s = .next (faulted s r t .runform))) ∧
  (∀ (s : State) (r : TRef) (t : Thread) (g : Wg) (off : Int) (inv p a l st c k av aw label : Nat), r.acc = false →
    let pc := t.arch.pc
    let next := pc + 4
    let go := fun (q : DWord) (v : Nat) => s.endRun r t g (fun x => { x with pc := q }) id (.ready 0 v)
    let holds : Bool := t.arch.pred p != (inv == 1)
    let slot := fun (z : State) =>
      (z.part g.part).spillbase + BitVec.ofNat 64 (0x440000 * g.quad + 8192 * g.slotOf r + 8 * (t.arch.rstack.length - 8))
    let spills := fun (z : State) => decide (t.arch.rstack.length < 8) || (z.engineAt g.part true .store (slot z)).isOk
    (Ending s r t g [] →
      exec (.br off inv p) s = .next (go (if holds then pc + BitVec.ofInt 64 (2 * off) else next) 0) ∧
      (holds = false → exec (.call off inv p) s = .next (go next 0)) ∧
      (holds = true → t.arch.rstack.length = 1024 → exec (.call off inv p) s = .next (faulted s r t .cfi)) ∧
      (holds = true → t.arch.rstack.length < 1024 →
        (spills s = true → exec (.call off inv p) s = .next (s.endRun r t g
          (fun x => { x with rstack := (x.pc + 4) :: x.rstack, pc := pc + BitVec.ofInt 64 (2 * off), lpad := none })
          id (.ready 0 0))) ∧
        (spills s = false → exec (.call off inv p) s = .next (s.parkSpill r t g) ∧
          ∀ u, (s.postMissing g.part (slot s) 1).thread r = some u →
            (s.parkSpill r t g).thread r = some { u with status := .parked .spill })) ∧
      (t.arch.rstack = [] → exec .ret s = .next (faulted s r t .cfi)) ∧
      (∀ x rest, t.arch.rstack = x :: rest → x.getLsbD 0 = true →
        exec .ret s = .next (s.takeFault r (faultAt .align x .fetch false) t.run.count)) ∧
      (∀ x rest, t.arch.rstack = x :: rest → x.getLsbD 0 = false →
        exec .ret s = .next (s.endRun r t g (fun y => { y with pc := x, rstack := rest }) id (.ready 0 0))) ∧
      exec .reform s = .next (go next 0) ∧
      exec .yield s = .next (s.endRun r t g (fun x => { x with pc := x.pc + 4 }) id .yielded) ∧
      exec .exit s = .next (s.endRun r t g (fun x => { x with pc := x.pc + 4 }) id .exited)) ∧
    (Ending s r t g [a] →
      exec (.reformK a) s = .next (go next ((t.arch.reg a).bits.toNat % 65536)) ∧
      (k ≤ (t.arch.reg a).bits.toNat → exec (.brt a k) s = .next (faulted s r t .brtrange)) ∧
      (∀ s1 s2 lo hi, (t.arch.reg a).bits.toNat < k →
        s.fetchUnit r (next + BitVec.ofNat 64 (4 * (t.arch.reg a).bits.toNat)) = .ok lo s1 →
        s1.fetchUnit r (next + BitVec.ofNat 64 (4 * (t.arch.reg a).bits.toNat) + 2) = .ok hi s2 →
        exec (.brt a k) s = .next (s2.endRun r t g
          (fun x => { x with pc := pc + BitVec.ofInt 64 (2 * (hi ++ lo).toInt) }) id (.ready 0 0))) ∧
      (∀ e, (t.arch.reg a).bits.toNat < k → e = next + BitVec.ofNat 64 (4 * (t.arch.reg a).bits.toNat) →
        (∀ f, s.fetchUnit r e = .fault f → exec (.brt a k) s = .next (s.takeFault r { f with addr := e } t.run.count)) ∧
        (s.fetchUnit r e = .miss → exec (.brt a k) s = .next (s.startWalk r e .fetch)) ∧
        (∀ lo s1, s.fetchUnit r e = .ok lo s1 →
          (∀ f, s1.fetchUnit r (e + 2) = .fault f →
            exec (.brt a k) s = .next (s1.takeFault r { f with addr := e } t.run.count)) ∧
          (∀ l, s1.fetchUnit r (e + 2) = .miss → s1.engineAt g.part t.arch.sup .fetch (e + 2) = .ok l →
            exec (.brt a k) s = .next (s1.startWalk r (e + 2) .fetch)) ∧
          (∀ c, s1.fetchUnit r (e + 2) = .miss → s1.engineAt g.part t.arch.sup .fetch (e + 2) = .error c →
            exec (.brt a k) s = .next (s1.takeFault r (faultAt c e .fetch false) t.run.count))))) ∧
    let calls := fun (i : Instr) (z : State) (l : Option Nat) =>
      (t.arch.rstack.length = 1024 → exec i s = .next (faulted z r t .cfi)) ∧
      (t.arch.rstack.length < 1024 → spills z = true → exec i s = .next (z.endRun r t g
        (fun x => { x with rstack := (x.pc + 4) :: x.rstack, pc := t.arch.pair a, lpad := l }) id (.ready 0 0))) ∧
      (t.arch.rstack.length < 1024 → spills z = false → exec i s = .next (z.parkSpill r t g))
    (Ending s r t g [a, a + 1] →
      ((t.arch.pair a).getLsbD 0 = true →
        exec (.jmpi a label) s = .next (s.takeFault r (faultAt .align (t.arch.pair a) .fetch false) t.run.count) ∧
        exec (.calli a label) s = .next (s.takeFault r (faultAt .align (t.arch.pair a) .fetch false) t.run.count)) ∧
      ((t.arch.pair a).getLsbD 0 = false → t.arch.sup = true →
        exec (.jmpi a 0x7FF) s =
          .next (s.endRun r t g (fun x => { x with pc := t.arch.pair a, lpad := none }) id (.ready 0 0)) ∧
        calls (.calli a 0x7FF) s none) ∧
      ((t.arch.pair a).getLsbD 0 = false → ¬(t.arch.sup = true ∧ label = 0x7FF) → s.unitFar r (t.arch.pair a) = true →
        exec (.jmpi a label) s = .next (s.startWalk r (t.arch.pair a) .fetch) ∧
        exec (.calli a label) s = .next (s.startWalk r (t.arch.pair a) .fetch)) ∧
      ((t.arch.pair a).getLsbD 0 = false → ¬(t.arch.sup = true ∧ label = 0x7FF) → s.unitFar r (t.arch.pair a) = false →
        ((s.lookUnit r (t.arch.pair a)).1.getD 0).getLsbD 0 = true → s.unitFar r (t.arch.pair a + 2) = true →
        exec (.jmpi a label) s = .next (s.startWalk r (t.arch.pair a + 2) .fetch) ∧
        exec (.calli a label) s = .next (s.startWalk r (t.arch.pair a + 2) .fetch)) ∧
      (∀ s1, (t.arch.pair a).getLsbD 0 = false → ¬(t.arch.sup = true ∧ label = 0x7FF) → s.unitFar r (t.arch.pair a) = false →
        s.unitFar r (t.arch.pair a + 2) = false →
        (s.labelAt r (t.arch.pair a) label = (.ok, s1) → exec (.jmpi a label) s =
          .next (s1.endRun r t g (fun x => { x with pc := t.arch.pair a, lpad := none }) id (.ready 0 0))) ∧
        (s.labelAt r (t.arch.pair a) label = (.ok, s1) → calls (.calli a label) s1 none) ∧
        (s.labelAt r (t.arch.pair a) label = (.unread, s1) → exec (.jmpi a label) s =
          .next (s1.endRun r t g (fun x => { x with pc := t.arch.pair a, lpad := some label }) id (.ready 0 0)) ∧
          calls (.calli a label) s1 (some label)) ∧
        (s.labelAt r (t.arch.pair a) label = (.bad, s1) →
          exec (.jmpi a label) s = .next (faulted s1 r t .cfi) ∧ exec (.calli a label) s = .next (faulted s1 r t .cfi)))) ∧
    (Ending s r t g [] → (av = 1 → aw < allotOf r g) →
      exec (.wait l st c k av aw) s = .next (s.endRun r t g (fun x => { x with pc := x.pc + 4 }) id
        (.trailer l st c k (if av = 1 then some aw else none)))))

/-- R118, R112, R113, R328: a run that buffered nothing commits with its terminator: its thread is at the place the
terminator gives, at the start of a run whose temporaries are undefined, ready in the next cycle under its key value; the run is
held for 320 cycles with the state at its start; memory and the other threads are as they were. The stores, fences and cache forms
that a run has buffered, czero among them, are its thread's pending stores from its commit on, in their order, with the run's release
cycle, and all but the fences count; those that leave the core touch no memory then, and a store to the own core's scratchpad or L1
that nothing holds back is performed at once. A run with a committing instruction stalls or parks where that has to wait, takes its
fault, or else commits: the queue instructions, idem and the tile instructions act then, an atomic or a SYNC within the core does if
nothing holds it, and any other command is held for its release. -/
def Obligations.RunsCommit : Prop :=
  (∀ (s : State) (r : TRef) (t : Thread) (g : Wg) (next : Arch → Arch) (v : Nat), s.cur = some r → PlainRun s r t →
    let s' := s.endRun r t g next id (.ready 0 v)
    let a := next { t.arch with regs := t.arch.regs.newRun s.fresh, xcount := 0, alone := 0 }
    (∃ t', s'.thread r = some t' ∧ t'.arch = a ∧ t'.status = .ready (s.clock + 1) v ∧ t'.seq = t.seq + 1 ∧
      t'.run = Run.start a) ∧
    s'.mem = s.mem ∧ (∀ q : TRef, q.key ≠ r.key → s'.thread q = s.thread q) ∧
    ∃ h ∈ s'.held, h.who = r ∧ h.seq = t.seq ∧ h.rel = s.clock + 320 ∧ h.snap = t.run.snap ∧ h.cmd = none) ∧
  (∀ (s : State) (r : TRef) (t : Thread) (g : Wg) (next : Arch → Arch) (v : Nat), s.cur = some r → SteadyRun s r t →
    t.run.commit = none →
    let core := s.coreOf r
    let s' := s.endRun r t g next id (.ready 0 v)
    (∃ (mid : State) (h : HeldRun) (ps : List PStore) (u : Thread),
      mid.stores = s.stores ++ ps ∧ ps.map (·.op) = t.run.buf.map (·.op) ∧ ps.map (·.loads) = t.run.buf.map (·.after) ∧
      ps.map (·.addr) = t.run.buf.map (·.addr) ∧ ps.Pairwise (·.id < ·.id) ∧
      (∀ p ∈ ps, p.who = r ∧ p.run = s.nextId ∧ p.core = core ∧ p.seq = t.seq ∧ p.rel = s.clock + 320 ∧ p.remote = none ∧
        p.monitor = false) ∧
      mid.mem = s.mem ∧ mid.full = s.full ∧ mid.l1 = s.l1 ∧ mid.thread r = some u ∧ u.stores = t.stores + t.run.buffered ∧
      h.id = s.nextId ∧ h.who = r ∧ s' = (mid.performLocal h).goOn r (.ready 0 v) ∧
      ((∀ o ∈ t.run.buf, o.op.inCore core = false) → s'.stores = s.stores ++ ps ∧ s'.mem = s.mem)) ∧
    (∀ k bs a, t.run.buf = [{ op := .store (.key k) bs .keep none, after := [], addr := a }] →
      (BufOp.store (.key k) bs .keep none).inCore core = true → s.still r k bs.length = true → t.wgRel = none →
      (∀ p ∈ s.stores, p.who ≠ r ∧ p.monitor = false) → s.waiters = [] → s.claims = [] → s.held = [] → MemOk s →
      s'.stores = s.stores ∧
      (isScratch k = true → ∀ i b, bs[i]? = some b → s'.mem.read (k + i) = b) ∧
      (isScratch k = false → s'.mem = s.mem ∧ ∀ i b, bs[i]? = some b → alook (l1Key core (k + i)) s'.l1 =
        some { val := b, dirty := true, rel := s.clock + 320, due := s.us + 20 }))) ∧
  ∀ (s : State) (r : TRef) (t : Thread) (g : Wg) (next : Arch → Arch) (post : TStatus) (c : Cmd), SteadyRun s r t →
    t.run.commit = some c →
    let c' := s.withBlock t c
    let s' := s.endRun r t g next id post
    (s.commitWaits r g c' = true → s' = s.interlock r) ∧
    (s.commitWaits r g c' = false → s.oqWaits r g c' = true → s' = s.oqPark r t c') ∧
    (s.commitWaits r g c' = false → s.oqWaits r g c' = false →
      (∀ f, s.commitFault r g c' post = some f → s' = s.takeFault r f (t.run.cmark.getD 0)) ∧
      (s.commitFault r g c' post = none → ∃ (mid : State) (h : HeldRun) (u : Thread) (b : Bool),
        let kept : Cmd := { c' with fenced := b }
        let go := fun (z : State) => if kept.redirects r && post != .exited then
            z.modThread r fun x => { x with status := .awaiting s.nextId, post := post }
          else z.goOn r post
        h.id = s.nextId ∧ h.who = r ∧ h.seq = t.seq ∧ h.core = s.coreOf r ∧ h.rel = s.clock + 320 ∧
        (∃ x ∈ mid.held, x.id = s.nextId ∧ x.who = r ∧ x.seq = t.seq ∧ x.rel = h.rel) ∧ mid.thread r = some u ∧ (∀ x ∈ c.dests, x ∈ u.busy) ∧ (t.run.buf = [] → mid.mem = s.mem ∧ mid.stores = s.stores) ∧
        (c.op.isQueue = true → s' = go (mid.actQueue h kept)) ∧
        (c.op = .idemBegin ∨ c.op = .idemEnd → s' = go (mid.actIdem h kept)) ∧
        (c.op.onTiles = true → s' = go (mid.commitTile h kept)) ∧
        (c.op.isQueue = false → c.op ≠ .idemBegin → c.op ≠ .idemEnd → c.op.onTiles = false →
          (mid.cmdLocal h kept = true → (mid.actMemory h kept).1 = true → s' = go (mid.actMemory h kept).2) ∧
          (mid.cmdLocal h kept = true → (mid.actMemory h kept).1 = false →
            s' = go ((mid.actMemory h kept).2.setHeldCmd s.nextId kept)) ∧
          (mid.cmdLocal h kept = false → s' = go (mid.setHeldCmd s.nextId kept)))))

/-- R112, R127 and R135: what becomes of a thread whose run, having buffered nothing, ends with wait or yield. A wait
whose counts hold, and with STORES 0 whose fences are performed (R393), makes the thread ready in the next cycle,
another leaves it waiting; a yielding thread records the threads that were ready. -/
def Obligations.WaitAndYield : Prop :=
  ∀ (s : State) (r : TRef) (t : Thread) (g : Wg) (l st c k : Nat) (aw : Option Nat), s.cur = some r → PlainRun s r t →
    s.wg r.wg = some g →
    let next := fun (x : Arch) => { x with pc := x.pc + 4 }
    let waits := s.endRun r t g next id (.trailer l st c k aw)
    let yields := s.endRun r t g next id .yielded
    let met := t.loads ≤ l ∧ t.stores ≤ st ∧ t.copies ≤ c ∧ t.tiles ≤ k ∧ (∀ v, aw = some v → v ∉ t.busy) ∧
      (st = 0 → s.fencing r = false)
    (met → (waits.thread r).map (·.status) = some (.ready (s.clock + 1) 0)) ∧
    (¬met → (waits.thread r).map (·.status) = some (.trailer l st c k aw)) ∧
    (yields.thread r).map (·.status) = some .yielded ∧
    (∃ y ∈ (yields.quad (s.quadOf r)).yields, y.who = r ∧ y.recorded = (s.quad (s.quadOf r)).readyThreads s.clock) ∧
    waits.mem = s.mem ∧ yields.mem = s.mem

/-- R159, the checks of a generic access in their order: ALIGN whatever else holds, then XLATE or PROT of a scratchpad
address, XLATE of one that is not canonical, a walk where the core's TLB has no entry (R321), PROT where the page does
not grant the access (R320), and SCOPE (R163), whose frame names no address. -/
def Obligations.AccessChecks : Prop :=
  ∀ (s : State) (r : TRef) (t : Thread) (g : Wg) (a : DWord) (size : Nat) (k : Access) (sc : Option Scope) (p : Bool),
    s.thread r = some t → s.wg r.wg = some g →
    let at' := s.reach r a size k sc p
    let scr := inScratchRange a
    (a.toNat % size ≠ 0 → at' = .fault (faultAt .align a k scr)) ∧
    (a.toNat % size = 0 → scr = true →
      (scratchKey (coreOfQuad g.quad) (a.setWidth 32) = none → at' = .fault (faultAt .xlate a k true)) ∧
      (∀ x, g.saved = false → scratchKey (coreOfQuad g.quad) (a.setWidth 32) = some x →
        (s.mayScratch g x size = true → at' = .ok (.key x)) ∧
        (s.mayScratch g x size = false → at' = .fault (faultAt .prot a k true)))) ∧
    (a.toNat % size = 0 → scr = false →
      (isCanonical a = false → at' = .fault (faultAt .xlate a k false)) ∧
      (isCanonical a = true → s.tlbFind (s.coreOf r) g.part a = none → at' = .miss) ∧
      (∀ e, isCanonical a = true → s.tlbFind (s.coreOf r) g.part a = some e →
        (e.trans.grants t.arch.sup k = false → at' = .fault (faultAt .prot a k false)) ∧
        (∀ l, s.checkPage g.part t.arch.sup k e.trans a = .ok l →
          (s.scopeOk l sc p = true → at' = .ok l) ∧
          (s.scopeOk l sc p = false → at' = .fault (faultAt .scope 0 k false)))))

/-- R160, R163 and R150: LD and LDA through a generic address, X(b) plus the offset in units of the size. Where the
access translates to a place of this module, exactly one load of these bytes is on its way, after an SC fence that its run has
buffered (R145) and after the thread's waiting pops (R192); a place of another module
is asked for; a fault is taken at the instruction, and a missing translation is walked for. R161: ldt loads Z words,
16 for Z = 0, into consecutive registers, each with the tag in v[A][15:0]; TAG for a tag that is not valid, and ALIGN
where the words do not lie in one page. -/
def Obligations.GlobalLoads : Prop :=
  (∀ (s : State) (r : TRef) (t : Thread) (g : Wg) (d b : Nat) (off : Int) (sc : Scope), s.mustWait r t = false →
    let one := fun (i : Instr) (ds : List Dest) (size : Nat) (k : ReadKind) (sc : Option Scope) =>
      Accessing s r t g [b, b + 1] (ds.map (·.reg)) .loads →
      let a := t.arch.pair b + BitVec.ofInt 64 (off * size)
      let k' := if k = .promote ∧ inScratchRange a = true then .acquire .dv else k
      let at' := s.reach r a size .load sc (k' == .promote)
      (∀ x, at' = .ok (.key x) → exec i s = .next (loading s r t
        { id := s.nextId, who := r, seq := t.seq, core := s.coreOf r, loc := .key x, len := size, kind := k', dests := ds,
          fwd := s.ownBytes r (.key x) size, value := none, addr := a, remote := none, order := t.run.scFenced,
          after := s.popsOf r })) ∧
      (∀ m pa, at' = .ok (.remote m pa) →
        exec i s = .next ((s.issueLoad r (.remote m pa) size k' ds none a).pass r 4)) ∧
      (∀ f, at' = .fault f → exec i s = .next (s.takeFault r f t.run.count)) ∧
      (at' = .miss → exec i s = .next (s.startWalk r a .load))
    one (.ldRaw d b off) (dest1 d tagRaw 4 false) 4 .plain none ∧
    one (.ldI32 d b off) (dest1 d tagI32 4 false) 4 .plain none ∧
    one (.ldN32 d b off) (dest1 d tagN32 4 false) 4 .plain none ∧
    one (.ldF32 d b off) (dest1 d tagF32 4 false) 4 .plain none ∧
    one (.ld64 d b off) (dest64 d) 8 .plain none ∧
    one (.ldI8 d b off) (dest1 d tagI32 1 true) 1 .plain none ∧
    one (.ldN8 d b off) (dest1 d tagN32 1 false) 1 .plain none ∧
    one (.ldI16 d b off) (dest1 d tagI32 2 true) 2 .plain none ∧
    one (.ldN16 d b off) (dest1 d tagN32 2 false) 2 .plain none ∧
    one (.lda32 d b off sc) (dest1 d tagN32 4 false) 4 (.acquire sc) (some sc) ∧
    one (.lda64 d b off sc) (dest64 d) 8 (.acquire sc) (some sc) ∧
    one (.ldaP d b off) (dest1 d tagN32 4 false) 4 .promote (some .dv) ∧
    one (.ldaP64 d b off) (dest64 d) 8 .promote (some .dv)) ∧
  (∀ (s : State) (r : TRef) (t : Thread) (g : Wg) (d b a z : Nat), s.mustWait r t = false →
    let n := if z = 0 then 16 else z
    Accessing s r t g [b, b + 1, a] ((List.range n).map fun i => d + i) .loads →
    let tag : Half := (t.arch.reg a).bits.setWidth 16
    let x := t.arch.pair b
    let at' := s.reachLen r x 4 (4 * n) .load none false
    (validTag tag.toNat = false → exec (.ldt d b a z) s = .next (faulted s r t .tag)) ∧
    (validTag tag.toNat = true →
      (s.onePage r x n = false → exec (.ldt d b a z) s = .next (s.takeFault r (faultAt .align x .load false) t.run.count)) ∧
      (s.onePage r x n = true →
        (∀ k, at' = .ok (.key k) → exec (.ldt d b a z) s = .next (loading s r t
          { id := s.nextId, who := r, seq := t.seq, core := s.coreOf r, loc := .key k, len := 4 * n, kind := .plain,
            dests := (List.range n).map fun i => ({ reg := d + i, tag := tag, off := 4 * i, len := 4 } : Dest)
            fwd := s.ownBytes r (.key k) (4 * n), value := none, addr := x, remote := none, order := t.run.scFenced,
            after := s.popsOf r })) ∧
        (∀ m pa, at' = .ok (.remote m pa) → exec (.ldt d b a z) s = .next ((s.issueLoad r (.remote m pa) (4 * n) .plain
          ((List.range n).map fun i => ({ reg := d + i, tag := tag, off := 4 * i, len := 4 } : Dest)) none x).pass r 4)) ∧
        (∀ f, at' = .fault f → exec (.ldt d b a z) s = .next (s.takeFault r f t.run.count)) ∧
        (at' = .miss → exec (.ldt d b a z) s = .next (s.startWalk r x .load)))))

/-- R162 and R155: LDS. A plain read is a load on its way. lds.wf and lds.wfe take the word's value in the step that
finds it full, lds.se whatever its bit, each only where no other thread has claimed the word, no atomic or SYNC of an
earlier run of its own has yet to act on it (R147) and no pop of its own waits (R192), an uncorrectable word by a load that reads it
and fails (R141); lds.wfe and lds.se claim it; else the thread parks with its registers outstanding and its PC at the instruction
(R158), where the wait table has room, and stalls where it has none (R157). That lds.se parks at a claim as lds.wf does is the model's
choice (DESIGN CHOICE, log entry 97). After an SC fence of its own run it is made as soon as nothing else holds that fence back, and
stalls until then (the model's reading, DEDUCED, log entry 61). -/
def Obligations.ScratchpadLoads : Prop :=
  ∀ (s : State) (r : TRef) (t : Thread) (g : Wg) (d a : Nat) (off : Int), s.mustWait r t = false →
    let w := (t.arch.reg a).bits + BitVec.ofInt 32 (off * 4)
    let va : DWord := w.setWidth 64
    let load := fun (k size : Nat) (ds : List Dest) (v : Option (List Byte)) => (
      { id := s.nextId, who := r, seq := t.seq, core := s.coreOf r, loc := .key k, len := size, kind := .plain, dests := ds,
        fwd := s.ownBytes r (.key k) size, value := v, addr := va, remote := none, order := v.isNone && t.run.scFenced,
        after := if v.isNone then s.popsOf r else [] } : PLoad)
    let word := dest1 d tagN32 4 false
    let plain := fun (i : Instr) (ds : List Dest) (size : Nat) =>
      Accessing s r t g [a] (ds.map (·.reg)) .loads →
      (∀ k, s.reachScratch r w size .load = .ok (.key k) → exec i s = .next (loading s r t (load k size ds none))) ∧
      (∀ f, s.reachScratch r w size .load = .fault f → exec i s = .next (s.takeFault r f t.run.count))
    plain (.lds d a off) word 4 ∧ plain (.lds64 d a off) (dest64 d) 8 ∧
    plain (.lds8 d a off) (dest1 d tagN32 1 false) 1 ∧ plain (.lds16 d a off) (dest1 d tagN32 2 false) 2 ∧
    (Accessing s r t g [a] [d] .loads →
      (∀ f, s.reachScratch r w 4 .load = .fault f →
        exec (.ldsWf d a off) s = .next (s.takeFault r f t.run.count) ∧
        exec (.ldsWfe d a off) s = .next (s.takeFault r f t.run.count) ∧
        exec (.ldsSe d a off) s = .next (s.takeFault r f t.run.count)) ∧
      (∀ k, s.reachScratch r w 4 .load = .ok (.key k) →
        let z := if t.run.scFenced then s.readEarly r t else s
        let free := !(s.claimed k (some r)) && !(s.cmdAt r t.seq (.key k) 4) && (s.popsOf r).isEmpty
        let room := s.monitorRoom (s.coreOf r) 1
        let x := load k 4 word (if s.wordBad r (.key k) (s.coreOf r) false then none else some (s.bankWord r (.key k) (s.coreOf r)))
        let claim := fun (y : State) => { y with claims := s.claims ++ [(wordKey k, r)] }
        let keep : Thread := { t with run := { t.run with claims := t.run.claims ++ [wordKey k] } }
        (t.run.scFenced = true → s.earlyMay r t = false → ∀ i ∈ [Instr.ldsWf d a off, .ldsWfe d a off, .ldsSe d a off],
          exec i s = .next (s.stallRun r t)) ∧
        ((t.run.scFenced = true → s.earlyMay r t = true) →
          (free = true → s.isFull k = true →
            exec (.ldsWf d a off) s = .next (loading z r t x) ∧ exec (.ldsWfe d a off) s = .next (claim (loading z r keep x))) ∧
          (free = true → exec (.ldsSe d a off) s = .next (claim (loading z r keep x))) ∧
          ((free && s.isFull k) = false →
            (room = true → exec (.ldsWf d a off) s = .next (z.parkWord r (.key k) (.ldsFull false) d va) ∧
              exec (.ldsWfe d a off) s = .next (z.parkWord r (.key k) (.ldsFull true) d va)) ∧
            (room = false → exec (.ldsWf d a off) s = .next (z.stallRun r t) ∧
              exec (.ldsWfe d a off) s = .next (z.stallRun r t))) ∧
          (free = false → (room = true → exec (.ldsSe d a off) s = .next (z.parkWord r (.key k) .ldsSe d va)) ∧
            (room = false → exec (.ldsSe d a off) s = .next (z.stallRun r t))))))

/-- R118, R160, R162 and R163: ST, STS and STL buffer the low bytes of their register or pair for the place that their
address names, and touch no memory before their run commits; a release follows every read of its thread before it,
another store the acquires before it and the earlier reads of its bytes, and each the thread's waiting pops (R192). sts.wef stalls
where the wait table has no room for the entry that it may need (R157). -/
def Obligations.Stores : Prop :=
  ∀ (s : State) (r : TRef) (t : Thread) (g : Wg) (d b : Nat) (off : Int) (sc : Scope),
    let bytes := fun n => if n = 8 then natLe 8 (t.arch.pair d).toNat else natLe n (t.arch.reg d).bits.toNat
    let regs := fun n => if n = 8 then [d, d + 1] else [d]
    let pops := s.popsOf r
    let before := fun (l : Loc) (n : Nat) => pops ++ (t.acq ++ s.ownReadsAt r l (bytes n).length)
    let gen := fun (i : Instr) (n : Nat) (rel : Option Scope) =>
      Accessing s r t g ([b, b + 1] ++ regs n) [] .stores →
      let a := t.arch.pair b + BitVec.ofInt 64 (off * n)
      (∀ l, s.reach r a n .store rel false = .ok l →
        exec i s = .next (buffering s r t (.store l (bytes n) .keep rel) (if rel.isSome then pops ++ s.ownReads r else before l n) a)) ∧
      (∀ f, s.reach r a n .store rel false = .fault f → exec i s = .next (s.takeFault r f t.run.count)) ∧
      (s.reach r a n .store rel false = .miss → exec i s = .next (s.startWalk r a .store))
    let scr := fun (i : Instr) (n : Nat) (f : FullOp) =>
      Accessing s r t g ([b] ++ regs n) [] .stores →
      let w := (t.arch.reg b).bits + BitVec.ofInt 32 (off * 4)
      (∀ l, s.reachScratch r w n .store = .ok l →
        (f = .waitEmpty → s.monitorRoom (s.coreOf r) 1 = true) →
        exec i s = .next (buffering s r t (.store l (bytes n) f none) (before l n) (w.setWidth 64))) ∧
      (∀ l, s.reachScratch r w n .store = .ok l → f = .waitEmpty → s.monitorRoom (s.coreOf r) 1 = false →
        exec i s = .next (s.stallRun r t)) ∧
      (∀ e, s.reachScratch r w n .store = .fault e → exec i s = .next (s.takeFault r e t.run.count))
    gen (.st8 d b off) 1 none ∧ gen (.st16 d b off) 2 none ∧ gen (.st32 d b off) 4 none ∧ gen (.st64 d b off) 8 none ∧
    gen (.stl32 d b off sc) 4 (some sc) ∧ gen (.stl64 d b off sc) 8 (some sc) ∧
    scr (.sts d b off) 4 .keep ∧ scr (.stsWef d b off) 4 .waitEmpty ∧ scr (.stsSf d b off) 4 .setFull ∧
    scr (.stsSe d b off) 4 .setEmpty ∧ scr (.sts64 d b off) 8 .keep ∧ scr (.sts8 d b off) 1 .keep ∧
    scr (.sts16 d b off) 2 .keep

/-- R165 and R166: a fence acts as an acquire at once, where reads are on their way by holding the accesses after it
until they return, and as a release with the stores of its run; the CACHE forms that change what another agent sees
are buffered as stores of their line; the others fault never: pref.l2 has the home slice hold the line, pref.l1 has the
core's L1 hold every byte of it that is not uncorrectable, and cevict changes nothing. R167 and R158: WAITA. Where
its word already satisfies it, no other thread has claimed the word and no pop of its own waits (R192), its value is on its way to D
as an acquire at the scope, and waita.full leaves the full/empty bit as it is; else the thread parks with its PC at the instruction,
its registers outstanding, and its memory untouched, or stalls where the wait table has no room (R157). Beyond WG scope a word of HBM
is looked at in its home slice, where the core's own dirty bytes of its line go first (for CL the model's choice, DESIGN CHOICE, log
entry 15); SCOPE below sy for a word of another module (R338; DEDUCED, log entry 54). After an SC fence of its own run it is made as
soon as nothing else holds that fence back (DEDUCED, log entry 61). -/
def Obligations.FencesAndWaits : Prop :=
  (∀ (s : State) (r : TRef) (t : Thread) (g : Wg) (b : Nat) (off : Int) (sc : Scope),
    let mine := s.ownReads r
    let pops := s.popsOf r
    let line := (t.arch.pair b + BitVec.ofInt 64 (off * 128)) &&& ~~~(127 : DWord)
    let rel := fun (z : State) (u : Thread) (k : FenceKind) => buffering z r u (.fence k sc) (pops ++ mine) 0
    let held : Thread := { t with acq := mine, acqDrop := t.acqDrop || sc.wide }
    (r.acc = false → Ready s r t g [] [] →
      exec (.fenceRel sc) s = .next (rel s t .rel) ∧
      (mine = [] →
        exec (.fenceAcq sc) s = .next (passed (s.acquire (s.coreOf r) sc) r t t.arch 4) ∧
        exec (.fenceAr sc) s = .next (rel (s.acquire (s.coreOf r) sc) t .ar) ∧
        exec (.fenceSc sc) s = .next (rel (s.acquire (s.coreOf r) sc) t .sc)) ∧
      (mine ≠ [] →
        exec (.fenceAcq sc) s = .next (s.setThread r (held.pass 4)) ∧
        exec (.fenceAr sc) s = .next (rel s held .ar) ∧ exec (.fenceSc sc) s = .next (rel s held .sc))) ∧
    (r.acc = false → Ready s r t g [b, b + 1] [] →
      exec (.cevict b off) s = .next (passed s r t t.arch 4) ∧
      (∃ s', exec (.prefL2 b off) s = .next (passed s' r t t.arch 4) ∧ s' = { s with l2 := s'.l2 } ∧
        (inScratchRange line = true → s' = s) ∧
        ∀ k, inScratchRange line = false → s.engineAt (s.partOf r) t.arch.sup .load line = .ok (.key k) → k < 2 ^ 60 →
          s'.sliceHas k = true) ∧
      ∃ s', exec (.prefL1 b off) s = .next (passed s' r t t.arch 4) ∧ s' = { s with l1 := s'.l1, l2 := s'.l2 } ∧
        (∀ k c, alook k s.l1 = some c → alook k s'.l1 = some c) ∧
        ∀ k, inScratchRange line = false → s.engineAt (s.partOf r) t.arch.sup .load line = .ok (.key k) → ∀ j, j < 128 →
          s.isPoisoned (k + j) = false → (alook (l1Key (s.coreOf r) (k + j)) s'.l1).isSome = true) ∧
    (Accessing s r t g [b, b + 1] [] .stores → inScratchRange line = true → ∀ i ∈ [Instr.cwb b off, .cinv b off, .cwbinv b off,
      .czero b off], exec i s = .next (passed s r t t.arch 4)) ∧
    (Accessing s r t g [b, b + 1] [] .stores → inScratchRange line = false →
      (∀ l, s.reach r line 1 .load none false = .ok l →
        exec (.cwb b off) s = .next (buffering s r t (.cache .cwb l) (pops ++ t.acq) line) ∧
        exec (.cinv b off) s = .next (buffering s r t (.cache .cinv l) (pops ++ t.acq) line) ∧
        exec (.cwbinv b off) s = .next (buffering s r t (.cache .cwbinv l) (pops ++ t.acq) line)) ∧
      (∀ l, s.reach r line 1 .store none false = .ok l →
        exec (.czero b off) s =
          .next (buffering s r t (.store l (List.replicate 128 0) .keep none) (pops ++ (t.acq ++ s.ownReadsAt r l 128)) line)) ∧
      (∀ f, s.reach r line 1 .load none false = .fault f → ∀ i ∈ [Instr.cwb b off, .cinv b off, .cwbinv b off],
        exec i s = .next (s.takeFault r f t.run.count)) ∧
      (∀ f, s.reach r line 1 .store none false = .fault f →
        exec (.czero b off) s = .next (s.takeFault r f t.run.count)))) ∧
  (∀ (s : State) (r : TRef) (t : Thread) (g : Wg) (d b off k : Nat) (sc : Scope), s.mustWait r t = false →
    let core := s.coreOf r
    let y := if t.run.scFenced then s.readEarly r t else s
    let z := y.bareWord core sc (.key k)
    let may := t.run.scFenced = true → s.earlyMay r t = true
    let late := t.run.scFenced = true ∧ s.earlyMay r t = false
    let one := fun (i : Instr) (a : DWord) (q : WaiterKind) (met : Bool) =>
      let v := if z.wordBad r (.key k) core (widePlace sc (.key k)) then none
        else some (z.wordFor r (.key k) core (widePlace sc (.key k)))
      let now := met && !(z.claimed k (some r)) && !(z.cmdAt r t.seq (.key k) 4) && (z.popsOf r).isEmpty
      (late → exec i s = .next (s.stallRun r t)) ∧ (may → (now = true → exec i s = .next (loading z r t
        { id := z.nextId, who := r, seq := t.seq, core := z.coreOf r, loc := .key k, len := 4, kind := .acquire sc,
          dests := dest1 d tagN32 4 false, fwd := z.ownBytes r (.key k) 4, value := v, addr := a, remote := none,
          order := v.isNone && t.run.scFenced })) ∧
      (now = false → z.monitorRoom core 1 = true →
        exec i s = .next (z.parkWord r (.key k) q d a) ∧ (z.parkWord r (.key k) q d a).mem = z.mem ∧
        (z.parkWord r (.key k) q d a).full = z.full ∧ (z.parkWord r (.key k) q d a).thread r =
          some { t with status := .parked (.word z.nextId), loads := t.loads + 1, busy := d :: t.busy }) ∧
      (now = false → z.monitorRoom core 1 = false → exec i s = .next (z.interlock r)))
    let eq := z.wordTest r (.key k) core sc fun x => x == (t.arch.reg d).bits
    let chg := z.wordTest r (.key k) core sc fun x => x != (t.arch.reg d).bits
    (sc = .wg ∨ isScratch k = true → z = y) ∧
    (s.dirtyOf core (some (lineKey k)) = [] → z.mem = s.mem) ∧
    (∀ v, z.wordBad r (.key k) core (widePlace sc (.key k)) = false → z.wordTest r (.key k) core sc v = true →
      v (BitVec.ofNat 32 (leNat (z.wordFor r (.key k) core (widePlace sc (.key k))))) = true) ∧
    let a := t.arch.pair b + BitVec.ofInt 64 (off * 4)
    let w := (t.arch.reg b).bits + BitVec.ofInt 32 (off * 4)
    (Accessing s r t g [b, b + 1, d] [d] .loads → ∀ f, s.reach r a 4 .load none false = .fault f ∨
        ((∃ m pa, s.reach r a 4 .load none false = .ok (.remote m pa)) ∧ sc ≠ .sy ∧ f = faultAt .scope 0 .load false) →
      exec (.waitaEqGlobal d b off sc) s = .next (s.takeFault r f t.run.count) ∧
      exec (.waitaChgGlobal d b off sc) s = .next (s.takeFault r f t.run.count)) ∧
    (Accessing s r t g [b, b + 1, d] [d] .loads → s.reach r a 4 .load none false = .ok (.key k) → z.thread r = some t →
      one (.waitaEqGlobal d b off sc) a (.waitaEq sc (t.arch.reg d).bits) eq ∧
      one (.waitaChgGlobal d b off sc) a (.waitaChg sc (t.arch.reg d).bits) chg) ∧
    (s.reachScratch r w 4 .load = .ok (.key k) → isScratch k = true →
      (Accessing s r t g [b] [d] .loads → one (.waitaFull d b off sc) (w.setWidth 64) (.waitaFull sc) (s.isFull k)) ∧
      (Accessing s r t g [b, d] [d] .loads →
        one (.waitaEqScratch d b off sc) (w.setWidth 64) (.waitaEq sc (t.arch.reg d).bits) eq ∧
        one (.waitaChgScratch d b off sc) (w.setWidth 64) (.waitaChg sc (t.arch.reg d).bits) chg)))

/-- R118, R159 and R164: an atomic checks its address when issued, keeps its operands for the commit of its run, and
changes neither memory nor a register before. -/
def Obligations.AtomicsWhenIssued : Prop :=
  ∀ (s : State) (r : TRef) (t : Thread) (g : Wg) (sc : Scope) (d b v : Nat),
    let x := fun n => (t.arch.reg (v + n)).bits
    let a := t.arch.pair b
    let one := fun (i : Instr) (o : AtomOp) (size n : Nat) (ds : List Nat) =>
      Accessing s r t g ([b, b + 1] ++ (List.range n).map fun j => v + j) ds .loads →
      (∀ l, s.reach r a size .atomic (some sc) false = .ok l → Captures i s r t
        { op := .atom o sc, d := d, words := (List.range n).map x, loc := some l, addr := a, dests := ds, cls := .loads }) ∧
      (∀ f, s.reach r a size .atomic (some sc) false = .fault f → exec i s = .next (s.takeFault r f t.run.count)) ∧
      (s.reach r a size .atomic (some sc) false = .miss → exec i s = .next (s.startWalk r a .atomic))
    one (.atomAdd sc d b v) .add 4 1 [d] ∧ one (.atomAddb sc d b v) .addb 4 2 [d] ∧ one (.atomMin sc d b v) .min 4 1 [d] ∧
    one (.atomMax sc d b v) .max 4 1 [d] ∧ one (.atomMinn sc d b v) .minn 4 1 [d] ∧ one (.atomMaxn sc d b v) .maxn 4 1 [d] ∧
    one (.atomAnd sc d b v) .and 4 1 [d] ∧ one (.atomOr sc d b v) .or 4 1 [d] ∧ one (.atomXor sc d b v) .xor 4 1 [d] ∧
    one (.atomSwap sc d b v) .swap 4 1 [d] ∧ one (.atomCas sc d b v) .cas 4 2 [d] ∧
    one (.atomMaxsi sc d b v) .maxsi 4 1 [d] ∧ one (.atomFadd sc d b v) .fadd 4 1 [d] ∧
    one (.atomAdd64 sc d b v) .add64 8 2 [d, d + 1] ∧ one (.atomSwap64 sc d b v) .swap64 8 2 [d, d + 1] ∧
    one (.atomCas64 sc d b v) .cas64 8 4 [d, d + 1]

/-- R178 to R180 and R185, when issued: COPY takes PRODUCER in a thread outside its workgroup's producers, then the
checks of its block, and captures the command; the SYNC forms take QUEUE for a count of arrivals that is 0 or 2^23 or
more. R189 to R191 and R194, when issued: the QUEUE instructions take QUEUE where their queue is not initialised or an
eight-byte element has an odd register, TAG where a pop names no valid tag, before QUEUE (the model's choice, DESIGN CHOICE, log
entry 65), QINIT PROT for storage outside the scratchpad of its ensemble (R190), and else are kept for the commit. Those that may need
an entry of the wait table stall where it has no room (R157), and the trying forms until the acquires before them have returned. -/
def Obligations.EnginesWhenIssued : Prop :=
  (∀ (s : State) (r : TRef) (t : Thread) (g : Wg) (d a b : Nat),
    let w := (t.arch.reg a).bits
    let n := (t.arch.reg b).bits
    let copy := fun (i : Instr) (kind : Nat) =>
      (r.tid < g.pfirst ∨ g.pfirst + g.plen ≤ r.tid → exec i s = .next (faulted s r t .producer)) ∧
      (g.pfirst ≤ r.tid → r.tid < g.pfirst + g.plen →
        (∀ f, s.blockAt r w 64 64 .blockRead = .error f → exec i s = .next (s.takeFault r f t.run.count)) ∧
        (∀ k, s.blockAt r w 64 64 .blockRead = .ok k → (∃ h ∈ s.ensemble g, h.holds k 64 = true) → Captures i s r t
          { op := .copy kind, d := d, words := if t.arch.sup then [1] else [], loc := some (.key k), addr := w.setWidth 64,
            dests := [d], cls := .copies }) ∧
        (∀ k, s.blockAt r w 64 64 .blockRead = .ok k → (∀ h ∈ s.ensemble g, h.holds k 64 = false) →
          exec i s = .next (s.takeFault r (faultAt .prot (w.setWidth 64) .blockRead true) t.run.count)))
    let room := s.monitorRoom (s.coreOf r) 1
    let sync := fun (i : Instr) (op : CmdOp) (v : List Word) (ranged : Bool) =>
      (∀ f, s.blockAt r w 8 16 .atomic = .error f → exec i s = .next (s.takeFault r f t.run.count)) ∧
      (∀ k, s.blockAt r w 8 16 .atomic = .ok k →
        (ranged = true → n.toNat = 0 ∨ 2 ^ 23 ≤ n.toNat → exec i s = .next (faulted s r t .queue)) ∧
        (ranged = false ∨ (n.toNat ≠ 0 ∧ n.toNat < 2 ^ 23) →
          (room = true ∨ op = .rvinit → Captures i s r t
            { op := op, d := d, words := v, loc := some (.key k), dests := [d], cls := .loads }) ∧
          (room = false → op ≠ .rvinit → exec i s = .next (s.stallRun r t))))
    (Accessing s r t g [a] [d] .copies →
      copy (.copyG2s d a) 0 ∧ copy (.copyS2g d a) 1 ∧ copy (.copyG2g d a) 2 ∧ copy (.copyG2c d a) 3 ∧ copy (.copyS2c d a) 4 ∧
      copy (.copyMeta d a) 5 ∧ copy (.copyScale d a) 6 ∧ copy (.copyRemote d a) 7 ∧ copy (.copyReduce d a) 8 ∧
      copy (.copyGather d a) 9 ∧ copy (.copyScatter d a) 10) ∧
    (Accessing s r t g [a, b] [d] .loads →
      sync (.rvinit d a b) .rvinit [n] true ∧ sync (.arriven d a b) .arriven [n] true ∧
      sync (.expect d a b) .expect [n] false ∧ sync (.pledge d a b) .pledge [n] false) ∧
    (Accessing s r t g [a] [d] .loads → sync (.arrive d a) .arrive [] false ∧ sync (.rvleave d a) .rvleave [] false)) ∧
  (∀ (s : State) (r : TRef) (t : Thread) (g : Wg) (pr d q a : Nat),
    let x := t.arch.pair a
    let ld := x.toNat / 2 ^ 32 % 16
    let base : Word := x.setWidth 32
    let elem := if x.getLsbD 36 then 8 else 4
    let c := g.qc q
    let w := (t.arch.reg a).bits
    let wide := fun (x : Nat) => if (c.es && !g.isOq q && x % 2 == 0) = true then [x, x + 1] else [x]
    let push := fun (i : Instr) (op : CmdOp) (p : Nat) (tr : Bool) =>
      (c.v = false ∨ (c.es = true ∧ a % 2 = 1) → exec i s = .next (faulted s r t .queue)) ∧
      (c.v = true → (c.es = true → a % 2 = 0) → s.monitorRoom (s.coreOf r) 1 = true → (tr = true → t.acq = []) → Captures i s r t
        { op := op, d := d, p := q, words := [w, (t.arch.reg (a + 1)).bits, BitVec.ofNat 32 p], dests := [d], cls := .stores }) ∧
      (c.v = true → (c.es = true → a % 2 = 0) → s.monitorRoom (s.coreOf r) 1 = false ∨ (tr = true ∧ t.acq ≠ []) →
        exec i s = .next (s.stallRun r t))
    let pop := fun (i : Instr) (op : CmdOp) (p : Nat) (tr : Bool) =>
      (validTag (w.toNat % 65536) = false → exec i s = .next (faulted s r t .tag)) ∧
      (validTag (w.toNat % 65536) = true → g.isOq q = false → c.v = false ∨ (c.es = true ∧ d % 2 = 1) →
        exec i s = .next (faulted s r t .queue)) ∧
      (validTag (w.toNat % 65536) = true →
        (g.isOq q = false ∧ c.v = true ∧ (c.es = true → d % 2 = 0)) ∨ (g.isOq q = true ∧ s.oqFault r q = none) →
        (s.monitorRoom (s.coreOf r) 1 = true → (tr = true → t.acq = []) → Captures i s r t
          { op := op, d := d, p := q, words := [w, 0, BitVec.ofNat 32 p], dests := wide d, cls := .loads }) ∧
        (s.monitorRoom (s.coreOf r) 1 = false ∨ (tr = true ∧ t.acq ≠ []) → exec i s = .next (s.stallRun r t))) ∧
      (∀ f, validTag (w.toNat % 65536) = true → g.isOq q = true → s.oqFault r q = some f →
        exec i s = .next (s.takeFault r f t.run.count))
    (Accessing s r t g [a, a + 1] [d] .none →
      (∀ f, s.blockAt r base elem (2 ^ min ld 12 * elem) .store = .error f →
        exec (.qinit d q a) s = .next (s.takeFault r f t.run.count)) ∧
      (∀ k, s.blockAt r base elem (2 ^ min ld 12 * elem) .store = .ok k →
        (∀ h ∈ s.ensemble g, h.holds k (2 ^ min ld 12 * elem) = false) →
        exec (.qinit d q a) s = .next (s.takeFault r (faultAt .prot (base.setWidth 64) .store true) t.run.count)) ∧
      (∀ k, s.blockAt r base elem (2 ^ min ld 12 * elem) .store = .ok k →
        (∃ h ∈ s.ensemble g, h.holds k (2 ^ min ld 12 * elem) = true) →
        (2 ^ 37 ≤ x.toNat ∨ 12 < ld ∨ g.isOq q = true → exec (.qinit d q a) s = .next (faulted s r t .queue)) ∧
        (x.toNat < 2 ^ 37 → ld ≤ 12 → g.isOq q = false → Captures (.qinit d q a) s r t
          { op := .qinit, d := d, p := q, words := [base, (x >>> 32).setWidth 32], loc := some (.key k), dests := [d] }))) ∧
    (Accessing s r t g [] [d] .none →
      (g.isOq q = true ∨ c.v = true → Captures (.qlen d q) s r t { op := .qlen, d := d, p := q, dests := [d] }) ∧
      (g.isOq q = false → c.v = false → exec (.qlen d q) s = .next (faulted s r t .queue))) ∧
    (Accessing s r t g (wide a) [d] .stores → g.isOq q = false →
      push (.qpush d q a) .qpush 7 false ∧ push (.qtrypush pr d q a) .qtrypush pr true) ∧
    (Accessing s r t g [a] [d] .stores → g.isOq q = true →
      exec (.qpush d q a) s = .next (faulted s r t .queue) ∧ exec (.qtrypush pr d q a) s = .next (faulted s r t .queue)) ∧
    (Accessing s r t g [a] (wide d) .loads → pop (.qpop d q a) .qpop 7 false ∧ pop (.qtrypop pr d q a) .qtrypop pr true))

/-- R208 to R217, R219, R221 and R225 to R236, when issued: REGBOUND for a tile that the workgroup does not have, the
alignment of the memory that TLD and TST name, the place of a block, and else the command is kept for the commit; where its operand
words alone are refused, or it is a TZERO, the fault that its checks give is taken at the instruction itself (R52). -/
def Obligations.ArrayWhenIssued : Prop :=
  ∀ (s : State) (r : TRef) (t : Thread) (g : Wg) (d a b : Nat),
    let n := g.tiles.length
    let va := (t.arch.reg a).bits
    let vb := (t.arch.reg b).bits
    let vc := (t.arch.reg (b + 1)).bits
    let xa := t.arch.pair a
    let kept := fun (i : Instr) (c : Cmd) =>
      let early := if c.refused || c.op == .tzero then (s.tileFault r g c []).orElse fun _ => s.planFault g c else none
      (∀ f, early = some f → exec i s = .next (s.takeFault r f t.run.count)) ∧ (early = none → Captures i s r t c)
    let op := fun (i : Instr) (tiles rd wr : List Nat) (c : Cmd) =>
      Accessing s r t g rd wr .tiles →
      ((∃ x ∈ tiles, n ≤ x) → exec i s = .next (faulted s r t .regbound)) ∧
      ((∀ x ∈ tiles, x < n) → kept i { c with dests := wr, cls := .tiles })
    let blk := fun (i : Instr) (tiles wr : List Nat) (c : Cmd) =>
      Accessing s r t g [a] wr .tiles →
      ((∃ x ∈ tiles, n ≤ x) → exec i s = .next (faulted s r t .regbound)) ∧
      ((∀ x ∈ tiles, x < n) →
        (∀ f, s.blockAt r va 64 64 .blockRead = .error f → exec i s = .next (s.takeFault r f t.run.count)) ∧
        (∀ k, s.blockAt r va 64 64 .blockRead = .ok k → (∃ h ∈ s.ensemble g, h.holds k 64 = true) → Captures i s r t
          { c with dests := wr, cls := .tiles, loc := some (.key k), addr := va.setWidth 64 }) ∧
        (∀ k, s.blockAt r va 64 64 .blockRead = .ok k → (∀ h ∈ s.ensemble g, h.holds k 64 = false) →
          exec i s = .next (s.takeFault r (faultAt .prot (va.setWidth 64) .blockRead true) t.run.count)))
    let mem := fun (i : Instr) (k : Access) (c : Cmd) =>
      Accessing s r t g [a, a + 1, b, b + 1] [] .tiles →
      let e := fmtSize vc.toNat
      (n ≤ d → exec i s = .next (faulted s r t .regbound)) ∧
      (d < n → xa.toNat % e ≠ 0 ∨ vb.toNat % e ≠ 0 →
        exec i s = .next (s.takeFault r (faultAt .align xa k (inScratchRange xa)) t.run.count)) ∧
      (d < n → xa.toNat % e = 0 → vb.toNat % e = 0 → kept i { c with cls := .tiles })
    blk (.mma d a) [d] [] { op := .mma, d := d } ∧
    blk (.tgen d a) [] [d] { op := .tgen, d := d, words := [if t.arch.sup then 1 else 0] } ∧
    mem (.tld d a b) .load { op := .tld, d := d, addr := xa, words := [vb, vc] } ∧
    mem (.tst d a b) .store { op := .tst, d := d, addr := xa, words := [vb, vc] } ∧
    op (.tzero d a) [d] [a, a + 1] [] { op := .tzero, d := d, addr := xa } ∧
    op (.tcvt d a b) [d, a] [b] [] { op := .tcvt, d := d, p := a, words := [vb] } ∧
    op (.tget d a b) [a] [b] [d] { op := .tget, d := d, p := a, words := [vb] } ∧
    op (.tset d a b) [d] [a, b] [] { op := .tset, d := d, words := [va, vb, (t.arch.reg a).tag.setWidth 32] } ∧
    op (.tredr d a b) [d, a] [b] [] { op := .tredr, d := d, p := a, words := [vb] } ∧
    op (.tredc d a b) [d, a] [b] [] { op := .tredc, d := d, p := a, words := [vb] } ∧
    op (.tstat d a) [a] [] [d] { op := .tstat, d := d, p := a } ∧
    op (.pform d a b) [d, a] [b, b + 1] [] { op := .pform, d := d, p := a, words := [vb, vc, (t.arch.reg b).tag.setWidth 32] } ∧
    (va.toNat % 4 = 0 → op (.pmarg d a b) [d] [a, b] [] { op := .pmarg, d := d, words := [va, vb] }) ∧
    (va.toNat % 4 ≠ 0 → Accessing s r t g [a, b] [] .tiles → d < n → exec (.pmarg d a b) s =
      .next (s.takeFault r (faultAt .align (va.setWidth 64) .load true) t.run.count)) ∧
    op (.balance d a b) [a] [b, b + 1] [d] { op := .balance, d := d, p := a, words := [vb, vc] } ∧
    op (.pextract d a b) [d, a] [b] [] { op := .pextract, d := d, p := a, words := [vb] } ∧
    op (.pcost d a b) [a, b] [] [d] { op := .pcost, d := d, p := a, words := [BitVec.ofNat 32 b] } ∧
    op (.pstat d a b) [a] [b] [d] { op := .pstat, d := d, p := a, words := [vb] }

/-- R252, R253 and R268 to R270, when issued: the MAZE forms check their record and what depends on their operands and their set alone
(R52), MZTAKE and MZSINK stall where the wait table has no room (R157), the LODGE forms check their size or target word, and each is
kept for the release of its run. R295 to R300, R307 and R310 to R313, when issued: the TASK, SYS and
PRIV instructions check their operands, LAUNCH the place of its packet, CONT the address it waits on, and each is kept
for the release of its run; the PRIV ones in supervisor mode, with the register that the table of R310 gives no index ignored. A
LODGE instruction counts each register that it writes (R268). -/
def Obligations.MazeLodgeAndSystemWhenIssued : Prop :=
  (∀ (s : State) (r : TRef) (t : Thread) (g : Wg) (d a b : Nat),
    let va := (t.arch.reg a).bits
    let vb := (t.arch.reg b).bits
    let vc := (t.arch.reg (b + 1)).bits
    let xd := t.arch.pair d
    let kept := fun (i : Instr) (c : Cmd) =>
      (∀ f, s.mazeOwnFault g c = some f → exec i s = .next (s.takeFault r f t.run.count)) ∧
      (s.mazeOwnFault g c = none → Captures i s r t c)
    let rec' := fun (i : Instr) (rd : List Nat) (w : Word) (c : Cmd) =>
      Accessing s r t g rd [] .stores →
      (w.toNat % 64 ≠ 0 → exec i s = .next (s.takeFault r (faultAt .align (w.setWidth 64) .store true) t.run.count)) ∧
      (w.toNat % 64 = 0 →
        (∀ f, s.recordAt g w = .error f → exec i s = .next (s.takeFault r f t.run.count)) ∧
        (∀ k, s.recordAt g w = .ok k → kept i { c with cls := .stores, loc := some (.key k) }))
    let lodge := fun (i : Instr) (op : CmdOp) (rd wr : List Nat) (bad : Bool) =>
      Accessing s r t g rd wr .loads wr.length →
      (bad = true → exec i s = .next (s.takeFault r (lodgeCode 7) t.run.count)) ∧
      (bad = false → Captures i s r t
        { op := op, d := d, words := rd.map fun x => (t.arch.reg x).bits, dests := wr, cls := .loads })
    let room := s.monitorRoom (s.coreOf r) 1
    let loads := fun (i : Instr) (rd : List Nat) (c : Cmd) =>
      Accessing s r t g rd [d] .loads →
      (room = false → c.op ≠ .mzstat → exec i s = .next (s.stallRun r t)) ∧
      (room = true ∨ c.op = .mzstat → kept i { c with d := d, dests := [d], cls := .loads })
    (Accessing s r t g [a] [d] .loads →
      (∀ f, s.blockAt r va 64 64 .blockRead = .error f → exec (.mzdecl d a) s = .next (s.takeFault r f t.run.count)) ∧
      (∀ k, s.blockAt r va 64 64 .blockRead = .ok k → Captures (.mzdecl d a) s r t
        { op := .mzdecl, d := d, loc := some (.key k), addr := va.setWidth 64, dests := [d], cls := .loads })) ∧
    (vb ≠ 0 → rec' (.mzpost a b) [a, b, b + 1] vb { op := .mzpost, words := [va, vb, vc] }) ∧
    (vb = 0 → Accessing s r t g [a, b, b + 1] [] .stores →
      kept (.mzpost a b) { op := .mzpost, words := [va, vb, vc], cls := .stores }) ∧
    rec' (.mzdonePass a b) [a, b] vb { op := .mzdonePass, words := [va, vb] } ∧
    rec' (.mzdoneDrop a b) [a, b] vb { op := .mzdoneDrop, words := [va, vb] } ∧
    (xd.toNat % 4 = 0 → isCanonical xd = true →
      rec' (.mzeff d a b) [d, d + 1, a, b, b + 1] va { op := .mzeff, addr := xd, words := [vb, vc, va] }) ∧
    (Accessing s r t g [d, d + 1, a, b, b + 1] [] .stores → va.toNat % 64 = 0 →
      (xd.toNat % 4 ≠ 0 →
        exec (.mzeff d a b) s = .next (s.takeFault r (faultAt .align xd .atomic (inScratchRange xd)) t.run.count)) ∧
      (xd.toNat % 4 = 0 → isCanonical xd = false →
        exec (.mzeff d a b) s = .next (s.takeFault r (faultAt .xlate xd .atomic false) t.run.count))) ∧
    loads (.mztake d a b) [a, b] { op := .mztake, words := [va, vb] } ∧
    loads (.mzsink d a) [a] { op := .mzsink, words := [va] } ∧
    loads (.mzstat d a b) [a, b] { op := .mzstat, words := [va, vb] } ∧
    lodge (.lcreate d a b) .lcreate [a, a + 1, b] [d, d + 1] (decide (vb = 0 ∨ 64 < vb.toNat)) ∧
    lodge (.lcreateM d a b) .lcreateM [a, a + 1, b] [d, d + 1] (decide (vb = 0 ∨ 64 < vb.toNat)) ∧
    lodge (.lopen d a) .lopen [a, a + 1] [d, d + 1] false ∧
    lodge (.lhand d a b) .lhand [a, b] [d, d + 1] (decide (191 < vb.toNat)) ∧
    lodge (.ldrop d a) .ldrop [a] [d] false ∧ lodge (.linfo d a) .linfo [a, a + 1] [d, d + 1] false) ∧
  (∀ (s : State) (r : TRef) (t : Thread) (g : Wg) (d a b n : Nat),
    let va := (t.arch.reg a).bits
    let vb := (t.arch.reg b).bits
    let vc := (t.arch.reg (b + 1)).bits
    let vd := (t.arch.reg d).bits
    let xa := t.arch.pair a
    let cont := fun (l : Option Loc) => ({ op := .cont, words := [vb, vc], addr := xa, loc := l } : Cmd)
    let may : Bool := g.persist && (match s.launchOf r with
      | some l => l.pkt.tasks != 0
      | none => false)
    (Accessing s r t g [a, b] [d] .loads →
      (∀ f, s.blockAt r va 128 128 .blockRead = .error f → exec (.launch d a b) s = .next (s.takeFault r f t.run.count)) ∧
      (∀ k, s.blockAt r va 128 128 .blockRead = .ok k → s.mayScratch g k 128 = true →
        (15 < vb.toNat → exec (.launch d a b) s = .next (faulted s r t .queue)) ∧
        (vb.toNat ≤ 15 → Captures (.launch d a b) s r t
          { op := .launch, d := d, words := [vb], loc := some (.key k), dests := [d], cls := .loads })) ∧
      (2 ^ 18 ≤ va.toNat ∨ va.toNat / 2 ^ 16 % 4 = 3 → exec (.signal d a b) s = .next (faulted s r t .queue)) ∧
      (va.toNat < 3 * 2 ^ 16 → Captures (.signal d a b) s r t
        { op := .signal, d := d, words := [va, vb], dests := [d], cls := .loads })) ∧
    (Accessing s r t g [a, a + 1, b, b + 1] [] .none →
      (vc.toNat < 2 →
        (∀ f, s.reach r xa 4 .load none false = .fault f → exec (.cont a b) s = .next (s.takeFault r f t.run.count)) ∧
        (s.reach r xa 4 .load none false = .miss → exec (.cont a b) s = .next (s.startWalk r xa .load)) ∧
        (∀ l, s.reach r xa 4 .load none false = .ok l →
          (may = true → Captures (.cont a b) s r t (cont (some l))) ∧
          (may = false → exec (.cont a b) s = .next (faulted s r t .queue)))) ∧
      (vc.toNat = 2 →
        (may = true → Captures (.cont a b) s r t (cont none)) ∧
        (may = false → exec (.cont a b) s = .next (faulted s r t .queue))) ∧
      (3 ≤ vc.toNat → 2 ≤ vc.toNat % 4 → exec (.cont a b) s = .next (faulted s r t .queue))) ∧
    (Accessing s r t g [a] [] .none →
      (va.getLsbD 1 = true → t.arch.sup = false → exec (.take d a) s = .next (faulted s r t .priv)) ∧
      (va.toNat < 4 → (va.getLsbD 1 = true → t.arch.sup = true) → (va.getLsbD 1 = false → g.persist = true) →
        Captures (.take d a) s r t { op := .take, d := d, words := [va] }) ∧
      ((va.getLsbD 1 = true → t.arch.sup = true) → 4 ≤ va.toNat ∨ (va.getLsbD 1 = false ∧ g.persist = false) →
        exec (.take d a) s = .next (faulted s r t .queue))) ∧
    (Accessing s r t g [a, a + 1] [] .none →
      (g.idemok = false → Captures (.idemBegin a) s r t { op := .idemBegin, addr := xa }) ∧
      (g.idemok = true → xa.getLsbD 0 = true →
        exec (.idemBegin a) s = .next (s.takeFault r (faultAt .align xa .fetch false) t.run.count)) ∧
      (∀ lo hi s1 s2, g.idemok = true → xa.getLsbD 0 = false → s.fetchUnit r xa = .ok lo s1 →
        s.fetchUnit r (xa + 2) = .ok hi s2 →
        (isLpad lo.toNat hi.toNat 0 = true → Captures (.idemBegin a) s r t { op := .idemBegin, addr := xa }) ∧
        (isLpad lo.toNat hi.toNat 0 = false → exec (.idemBegin a) s = .next (faulted s r t .cfi)))) ∧
    (Accessing s r t g [] [] .none →
      Captures .idemEnd s r t { op := .idemEnd } ∧ Captures (.trap n) s r t { op := .trap n } ∧
      Captures (.bkpt n) s r t { op := .bkpt n }) ∧
    (t.arch.sup = true →
      (Accessing s r t g (if n = 0x03 ∨ n = 0x1E then [a] else []) [d] .loads →
        Captures (.cread d a n) s r t { op := .cread n, d := d, words := [va], dests := [d], cls := .loads }) ∧
      (Accessing s r t g (if n = 0x03 ∨ n = 0x1E then [a, d] else [d]) [] (if n = 0x1D then .stores else .none) →
        Captures (.cwrite d a n) s r t { op := .cwrite n, words := [va, vd], cls := if n = 0x1D then .stores else .none }) ∧
      (Accessing s r t g [] [d] .loads → Captures (.haltwg d a n) s r t { op := .haltwg, d := d, dests := [d], cls := .loads }) ∧
      (Accessing s r t g [a] [d] .loads →
        Captures (.traprd d a n) s r t { op := .traprd n, d := d, words := [va], dests := [d], cls := .loads } ∧
        Captures (.resume d a n) s r t { op := .resume, d := d, words := [va], dests := [d], cls := .loads } ∧
        Captures (.kill d a n) s r t { op := .kill, d := d, words := [va], dests := [d], cls := .loads }) ∧
      (Accessing s r t g [a, d] [] .none → Captures (.trapwr d a n) s r t { op := .trapwr n, words := [va, vd] })))

/-- R129 and R133: a cross-lane instruction whose mask leaves out its thread's own lane takes LANESET, and so does one
whose mask differs from that of an open meeting of its lane set at the same PC which includes the lane. R130: a thread
that arrives at a meeting whose other members have not all arrived or exited is held there, with its PC at the
instruction and nothing else of it changed; the one that arrives last completes the meeting, in which every live member executes the
instruction once, together (R129): each has its result, is past the instruction, and goes on; nothing else changes. A member whose
guard kept it from the instruction counts as exited (R123). -/
def Obligations.LaneSetsAndArrivals : Prop :=
  (∀ (s : State) (r : TRef) (t : Thread) (g : Wg) (d a b : Nat), r.acc = false →
    let mask := (t.arch.reg b).bits
    let lane := r.tid % 32
    let bad := mask.getLsbD lane = false ∨ (t.arch.alone ≤ t.arch.xcount ∧ ∃ m ∈ s.openMeetings r.wg,
      m.lset = r.tid / 32 ∧ m.pc = t.arch.pc ∧ m.mask ≠ mask ∧ m.mask.getLsbD lane = true)
    bad →
    (Ready s r t g [a, b, b + 1] [d] → ∀ i ∈ [Instr.lpick d a b, .slideup d a b, .slidedn d a b],
      exec i s = .next (faulted s r t .laneset)) ∧
    (Ready s r t g [a, b] [d] → ∀ i ∈ [Instr.ballot d a b, .voteAny d a b, .voteAll d a b, .voteEq d a b, .lredAdd d a b,
      .lredMin d a b, .lredMax d a b, .lredAnd d a b, .lredOr d a b, .lredXor d a b, .lscanInc d a b, .lscanExc d a b],
      exec i s = .next (faulted s r t .laneset)) ∧
    (Ready s r t g [b] [] → exec (.lsync b) s = .next (faulted s r t .laneset) ∧
      exec (.elect d b) s = .next (faulted s r t .laneset))) ∧
  (∀ (s : State) (r : TRef) (t : Thread) (g : Wg) (d a b : Nat), r.acc = false →
    let mask := (t.arch.reg b).bits
    let own := r.tid % 32
    let at' := fun (lane : Nat) => ({ wg := r.wg, tid := r.tid / 32 * 32 + lane } : TRef)
    let m : Meeting := { wg := r.wg, lset := r.tid / 32, pc := t.arch.pc, mask := mask }
    let counts := fun (u : Thread) => u.status = .exited ∨ t.arch.pc ∈ u.arch.skips
    mask.getLsbD own = true → t.arch.alone ≤ t.arch.xcount →
    (∀ x ∈ s.openMeetings r.wg, x.lset = m.lset → x.pc = m.pc → x.mask.getLsbD own = true → x.mask = mask) →
    let form := fun (i : Instr) (x : XUse) =>
      let s0 := s.setThread r { t with status := .held mask x }
      let live := s0.liveMembers m
      ((∃ lane u, lane < 32 ∧ lane ≠ own ∧ mask.getLsbD lane = true ∧ s.thread (at' lane) = some u ∧ ¬counts u ∧
          (u.arch.pc = t.arch.pc → ∀ y, u.status ≠ .held mask y)) → exec i s = .next s0) ∧
      ((∀ lane u, lane < 32 → lane ≠ own → mask.getLsbD lane = true → s.thread (at' lane) = some u →
          counts u ∨ (u.arch.pc = t.arch.pc ∧ ∃ y, u.status = .held mask y)) →
        t.arch.pc ∉ t.arch.skips → meetOk live = live → ∀ rm, (live.head?.bind fun y => s.thread y.who).map (·.arch.rm) = some rm →
        (∀ lane, lane ∈ live.map (·.lane) ↔ lane < 32 ∧ mask.getLsbD lane = true ∧ (lane = own ∨
          ∃ u y, s.thread (at' lane) = some u ∧ u.arch.pc = t.arch.pc ∧ t.arch.pc ∉ u.arch.skips ∧ u.status = .held mask y)) ∧
        ∃ s', exec i s = .next s' ∧ s'.mem = s.mem ∧ (s'.thread r).map (·.status) = some .running ∧
          (∀ y ∈ live, ∃ u u', s.thread y.who = some u ∧ s'.thread y.who = some u' ∧
            y.a = u.arch.reg y.x.a ∧ y.fill = (u.arch.reg (y.x.b + 1)).bits ∧
            u'.arch = { (u.arch.unskip t.arch.pc).meet mask rm live y with
              xcount := u.arch.xcount + 1, pc := u.arch.pc + 4 } ∧
            (u'.status = .running ∨ u'.status = .woken) ∧ u'.run.count = u.run.count + 1) ∧
          ∀ q : TRef, (∀ lane, lane < 32 → mask.getLsbD lane = true → q.key ≠ (at' lane).key) → s'.thread q = s.thread q)
    let xlane := fun (i : Instr) (op : XOp) => form i { op := op, d := d, a := a, b := b }
    (Ready s r t g [a, b, b + 1] [d] → xlane (.lpick d a b) .lpick ∧ xlane (.slideup d a b) .slideup ∧
      xlane (.slidedn d a b) .slidedn) ∧
    (Ready s r t g [a, b] [d] → xlane (.ballot d a b) .ballot ∧ xlane (.voteAny d a b) .voteAny ∧
      xlane (.voteAll d a b) .voteAll ∧ xlane (.voteEq d a b) .voteEq ∧ xlane (.lredAdd d a b) .lredAdd ∧
      xlane (.lredMin d a b) .lredMin ∧ xlane (.lredMax d a b) .lredMax ∧ xlane (.lredAnd d a b) .lredAnd ∧
      xlane (.lredOr d a b) .lredOr ∧ xlane (.lredXor d a b) .lredXor ∧ xlane (.lscanInc d a b) .lscanInc ∧
      xlane (.lscanExc d a b) .lscanExc) ∧
    (Ready s r t g [b] [] → form (.lsync b) { op := .lsync, d := 0, a := b, b := b } ∧
      form (.elect d b) { op := .elect, d := d, a := b, b := b }))

/-- R129, R130, R132 and R133, a thread alone in its mask: the instruction completes at once with the values that its
row gives for one member, and changes no memory and no other thread. R132 and R133, what a completed meeting gives each of its live
members l, in ascending lane: the votes, reductions, scans, picks and slides over their values of A, the slides reading 0 for a lane
of the mask that has no live member, lsync nothing, and elect the predicate that only the lowest has true. -/
def Obligations.CrossLaneAlone : Prop :=
  (∀ (s : State) (r : TRef) (t : Thread) (g : Wg) (d a b : Nat), r.acc = false →
    let x := t.arch.reg a
    let fill := (t.arch.reg (b + 1)).bits
    let lane := r.tid % 32
    let n := nElem x.kind
    let num := x.kind = 1 ∨ x.kind = 2
    (t.arch.reg b).bits = BitVec.twoPow 32 lane → t.arch.alone ≤ t.arch.xcount → s.openMeetings r.wg = [] →
    let clear := fun (q : Arch) => Nat.repeat (fun (y : Arch) => y.unskip t.arch.pc) (t.arch.skips.count t.arch.pc + 1) q
    let ends := fun (i : Instr) (f : Arch → Arch) => ∃ s' t', exec i s = .next s' ∧ s'.thread r = some t' ∧
      t' = ({ t with
        status := .running
        arch := { f (clear t.arch) with xcount := t.arch.xcount + 1 }
        run := { t.run with snap := clear t.run.snap } } : Thread).pass 4 ∧
      s'.mem = s.mem ∧ ∀ q : TRef, q.key ≠ r.key → s'.thread q = s.thread q
    let gives := fun (i : Instr) (v : RegVal) (fl : FFlags) => ends i fun q => (q.setReg d v).raise fl
    let own := fun (i : Instr) (w : Word) => gives i { bits := w, tag := x.tag } 0
    (Ready s r t g [a, b, b + 1] [d] →
      gives (.lpick d a b) x 0 ∧
      own (.slideup d a b) ((x.bits <<< (32 / n)) ||| (fill >>> (32 - 32 / n))) ∧
      own (.slidedn d a b) ((x.bits >>> (32 / n)) ||| (fill <<< (32 - 32 / n)))) ∧
    (Ready s r t g [a, b] [d] →
      gives (.ballot d a b) (regNat (if x.bits = 0 then 0 else 2 ^ lane)) 0 ∧
      gives (.voteAny d a b) (regNat (if x.bits = 0 then 0 else 1)) 0 ∧
      gives (.voteAll d a b) (regNat (if x.bits = 0 then 0 else 1)) 0 ∧ gives (.voteEq d a b) (regNat 1) 0 ∧
      own (.lredAnd d a b) x.bits ∧ own (.lredOr d a b) x.bits ∧ own (.lredXor d a b) x.bits ∧
      (num → own (.lredAdd d a b) x.bits ∧ own (.lredMin d a b) x.bits ∧ own (.lredMax d a b) x.bits ∧
        own (.lscanInc d a b) x.bits) ∧
      (x.kind = 7 →
        (let v := xSum t.arch.rm 7 [x.bits]
         gives (.lredAdd d a b) { bits := v.1, tag := x.tag } v.2 ∧ gives (.lscanInc d a b) { bits := v.1, tag := x.tag } v.2) ∧
        own (.lredMin d a b) (BitVec.ofNat 32 (exactCode (f32.decode x.bits.toNat) f32)) ∧
        own (.lredMax d a b) (BitVec.ofNat 32 (exactCode (f32.decode x.bits.toNat) f32))) ∧
      (num ∨ x.kind = 7 → own (.lscanExc d a b) 0)) ∧
    (Ready s r t g [b] [] → ends (.lsync b) id ∧ ends (.elect d b) fun q => q.setPred d true)) ∧
  ∀ (l : List Member) (mask : Word) (rm : Rm) (y : Member) (q : Arch) (d a b : Nat),
    (l.map (·.lane)).Pairwise (· < ·) → (∀ z ∈ l, z.lane < 32 ∧ mask.getLsbD z.lane = true) → y ∈ l →
    let gives := fun (op : XOp) (p : RegVal → Prop) => (∀ z ∈ l, z.x = { op := op, d := d, a := a, b := b }) →
      let q' := q.meet mask rm l y
      p (q'.reg d) ∧ (∀ n, n ≠ d → q'.regs.get n = q.regs.get n) ∧ q'.preds = q.preds ∧ q'.pc = q.pc
    let same := ∀ z ∈ l, z.a.tag = y.a.tag
    let tagged := fun (v : RegVal) => (same → v.tag = y.a.tag) ∧ (¬same → v.tag = tagRaw)
    let below := fun (k : Nat) => mask.getLsbD k = true ∧ k < y.lane ∧ ∀ j, k < j → j < y.lane → mask.getLsbD j = false
    let above := fun (k : Nat) => k < 32 ∧ mask.getLsbD k = true ∧ y.lane < k ∧ ∀ j, y.lane < j → j < k → mask.getLsbD j = false
    let n := nElem y.a.kind
    let sum := fun (ws : List Word) => (ws.map (·.toNat)).sum % 2 ^ 32
    let fsum := fun (ws : List Word) =>
      BitVec.ofNat 32 (roundTo (sumNum rm (ws.map fun w => f32.decode w.toNat)).1 f32 rm .ovf).1
    gives .ballot (fun v => v.tag = tagN32 ∧ ∀ i, i < 32 → (v.bits.getLsbD i = true ↔ ∃ z ∈ l, z.lane = i ∧ z.a.bits ≠ 0)) ∧
    gives .voteAny (fun v => v = regNat (if ∃ z ∈ l, z.a.bits ≠ 0 then 1 else 0)) ∧
    gives .voteAll (fun v => v = regNat (if ∀ z ∈ l, z.a.bits ≠ 0 then 1 else 0)) ∧
    gives .voteEq (fun v => v = regNat (if ∀ z ∈ l, z.a.bits = y.a.bits then 1 else 0)) ∧
    gives .lredAnd (fun v => tagged v ∧ ∀ i, i < 32 → (v.bits.getLsbD i = true ↔ ∀ z ∈ l, z.a.bits.getLsbD i = true)) ∧
    gives .lredOr (fun v => tagged v ∧ ∀ i, i < 32 → (v.bits.getLsbD i = true ↔ ∃ z ∈ l, z.a.bits.getLsbD i = true)) ∧
    gives .lredXor (fun v => tagged v ∧ ∀ i, i < 32 →
      v.bits.getLsbD i = ((l.filter fun z => z.a.bits.getLsbD i).length % 2 == 1)) ∧
    gives .lpick (fun v => (∀ z ∈ l, z.lane = y.fill.toNat % 32 → v = z.a) ∧
      ((∀ z ∈ l, z.lane ≠ y.fill.toNat % 32) → v = y.a)) ∧
    (same → (y.a.kind = 1 ∨ y.a.kind = 2) →
      let num := fun (w : Word) => if y.a.kind = 1 then w.toInt else (w.toNat : Int)
      gives .lredAdd (fun v => v.tag = y.a.tag ∧ v.bits.toNat = sum (l.map (·.a.bits))) ∧
      gives .lredMin (fun v => v.tag = y.a.tag ∧ (∃ z ∈ l, v.bits = z.a.bits) ∧ ∀ z ∈ l, num v.bits ≤ num z.a.bits) ∧
      gives .lredMax (fun v => v.tag = y.a.tag ∧ (∃ z ∈ l, v.bits = z.a.bits) ∧ ∀ z ∈ l, num z.a.bits ≤ num v.bits) ∧
      gives .lscanInc (fun v => v.tag = y.a.tag ∧
        v.bits.toNat = sum ((l.filter fun z => decide (z.lane ≤ y.lane)).map (·.a.bits))) ∧
      gives .lscanExc (fun v => v.tag = y.a.tag ∧
        v.bits.toNat = sum ((l.filter fun z => decide (z.lane < y.lane)).map (·.a.bits)))) ∧
    (same → y.a.kind = 7 →
      let code := fun (f : Sys2Proof.Num → Sys2Proof.Num → Sys2Proof.Num) => match l with
        | [] => 0
        | z :: rest => BitVec.ofNat 32
            (exactCode (rest.foldl (fun acc w => f acc (f32.decode w.a.bits.toNat)) (f32.decode z.a.bits.toNat)) f32)
      gives .lredAdd (fun v => v = { bits := fsum (l.map (·.a.bits)), tag := y.a.tag }) ∧
      gives .lredMin (fun v => v = { bits := code minNum, tag := y.a.tag }) ∧
      gives .lredMax (fun v => v = { bits := code maxNum, tag := y.a.tag }) ∧
      gives .lscanInc (fun v => v = { bits := fsum ((l.filter fun z => decide (z.lane ≤ y.lane)).map (·.a.bits)), tag := y.a.tag }) ∧
      gives .lscanExc (fun v => v.tag = y.a.tag ∧ ((∀ z ∈ l, y.lane ≤ z.lane) → v.bits = 0) ∧
        ((∃ z ∈ l, z.lane < y.lane) → v.bits = fsum ((l.filter fun z => decide (z.lane < y.lane)).map (·.a.bits))))) ∧
    ((∀ z ∈ l, z.a.kind = y.a.kind) →
      gives .slideup (fun v => v.tag = y.a.tag ∧
        (∀ e, 0 < e → e < n → elemBits v.bits n e = elemBits y.a.bits n (e - 1)) ∧
        (∀ k, below k → (∀ z ∈ l, z.lane = k → elemBits v.bits n 0 = elemBits z.a.bits n (n - 1)) ∧
          ((∀ z ∈ l, z.lane ≠ k) → elemBits v.bits n 0 = 0)) ∧
        ((∀ k, ¬below k) → elemBits v.bits n 0 = elemBits y.fill n (n - 1))) ∧
      gives .slidedn (fun v => v.tag = y.a.tag ∧
        (∀ e, e + 1 < n → elemBits v.bits n e = elemBits y.a.bits n (e + 1)) ∧
        (∀ k, above k → (∀ z ∈ l, z.lane = k → elemBits v.bits n (n - 1) = elemBits z.a.bits n 0) ∧
          ((∀ z ∈ l, z.lane ≠ k) → elemBits v.bits n (n - 1) = 0)) ∧
        ((∀ k, ¬above k) → elemBits v.bits n (n - 1) = elemBits y.fill n 0))) ∧
    ((∀ z ∈ l, z.x = { op := .lsync, d := d, a := a, b := b }) → q.meet mask rm l y = q) ∧
    ((∀ z ∈ l, z.x = { op := .elect, d := d, a := a, b := b }) →
      q.meet mask rm l y = q.setPred d (decide (∀ z ∈ l, y.lane ≤ z.lane)))

/-- R195, in an access slice: afor and aend end their run and keep the loop stack, with QUEUE for a fifth loop and for
an aend without a loop; aload, which counts in no class (the model's reading, DEDUCED, log entry 23), and abr send to their queues,
and stall where no room is left, where the run's entries sent so far are published (DESIGN CHOICE, log entry 66); ahalt ends the
thread. R121 and R194: brq takes the oldest bit of its thread's branch queue and goes by it; with none it takes QUEUE where
the access thread has halted, and else waits with its run open and its PC at the instruction (DEDUCED, log entry 34). -/
def Obligations.AccessEngineAndBranchQueues : Prop :=
  (∀ (s : State) (r : TRef) (t : Thread) (g : Wg) (x : AccState) (d a b : Nat),
    r.acc = true → t.acc = some x →
    let next := t.arch.pc + 4
    let trips := (t.arch.reg a).bits.toNat
    let pa := t.arch.pair a
    let words := if b = 1 then 2 else 1
    let on := fun (q : Arch) => { q with pc := next }
    (0 < x.skip →
      (Ending s r t g [a, b] → d < 32 → d ∉ t.busy →
        exec (.afor d a b) s = .next (s.endRun r t g on (fun y => { y with skip := y.skip + 1 }) (.ready 0 0))) ∧
      (Ending s r t g [] →
        exec .aend s = .next (s.endRun r t g on (fun y => { y with skip := y.skip - 1 }) (.ready 0 0)) ∧
        exec .ahalt s = .next (s.endRun r t g on id (.ready 0 0))) ∧
      (s.cur = some r → s.thread r = some t → s.wg r.wg = some g → t.run.cmark = none → a + 1 < 32 →
        exec (.abr a) s = .next (passed s r t t.arch 4) ∧ exec (.aload d a b) s = .next (passed s r t t.arch 4))) ∧
    (x.skip = 0 → Ending s r t g [a, b] → d < 32 → d ∉ t.busy →
      (4 ≤ x.loops.length → exec (.afor d a b) s = .next (faulted s r t .queue)) ∧
      (x.loops.length < 4 →
        (trips ≠ 0 → exec (.afor d a b) s = .next (s.endRun r t g (fun q => { q.setReg d (regN32 0) with pc := next })
          (fun y => { y with loops := { start := next, trips := trips, stride := (t.arch.reg b).bits, reg := d } :: y.loops })
          (.ready 0 0))) ∧
        (trips = 0 → exec (.afor d a b) s = .next (s.endRun r t g (fun q => { q.setReg d (regN32 0) with pc := next })
          (fun y => { y with skip := 1 }) (.ready 0 0))))) ∧
    (x.skip = 0 → Ending s r t g [] →
      (x.loops = [] → exec .aend s = .next (faulted s r t .queue)) ∧
      (∀ l rest, x.loops = l :: rest →
        let step := fun (q : Arch) => q.setReg l.reg (regN32 ((q.reg l.reg).bits + l.stride))
        (1 < l.trips → exec .aend s = .next (s.endRun r t g (fun q => { step q with pc := l.start })
          (fun y => { y with loops := { l with trips := l.trips - 1 } :: rest }) (.ready 0 0))) ∧
        (l.trips ≤ 1 → exec .aend s = .next (s.endRun r t g (fun q => { step q with pc := next })
          (fun y => { y with loops := rest }) (.ready 0 0)))) ∧
      exec .ahalt s = .next (s.endRun r t g (fun q => { q with pc := q.pc + 4 }) (fun y => { y with halted := true })
        .exited)) ∧
    (Ready s r t g [a] [] →
      (32 < s.accFill r 4 + x.sent 4 + 1 → exec (.abr a) s = .next (s.accStall r 4)) ∧
      (s.accFill r 4 + x.sent 4 + 1 ≤ 32 → exec (.abr a) s = .next (s.setThread r (({ t with
        acc := some { x with out := x.out ++ [(4, some (if (t.arch.reg a).bits = 0 then 0 else 1), 0)] } } : Thread).pass 4)))) ∧
    (Ready s r t g [a, a + 1] [] → d < 4 →
      (16 < s.accFill r d + x.sent d + words → exec (.aload d a b) s = .next (s.accStall r d)) ∧
      (s.accFill r d + x.sent d + words ≤ 16 →
        (∀ k, s.reach r pa (4 * words) .load none false = .ok (.key k) → exec (.aload d a b) s = .next
          (({ s with
            nextId := s.nextId + 1
            loads := s.loads ++ [{ id := s.nextId, who := r, seq := t.seq, core := s.coreOf r, loc := .key k, len := 4 * words,
                                   kind := .plain, dests := [], fwd := [], value := none, addr := pa, remote := none }] }
            : State).setThread r (({ t with
              acc := some { x with out := x.out ++ List.replicate words (d, none, s.nextId) } } : Thread).pass 4))) ∧
        (∀ f, s.reach r pa (4 * words) .load none false = .fault f →
          exec (.aload d a b) s = .next (s.takeFault r f t.run.count)) ∧
        (∀ m y, s.reach r pa (4 * words) .load none false = .ok (.remote m y) → exec (.aload d a b) s = .next
          (((s.issueAload r t (.remote m y) (4 * words) pa).2.accSend r (List.replicate words (d, none, s.nextId))).pass r 4)) ∧
        (s.reach r pa (4 * words) .load none false = .miss → exec (.aload d a b) s = .next (s.startWalk r pa .load))))) ∧
  (∀ (s : State) (r : TRef) (t : Thread) (g : Wg) (off : Int) (inv : Nat), Ending s r t g [] → PlainRun s r t →
    (∀ b rest, alook r.tid g.bq = some (b :: rest) →
      let goal := if b = true ↔ inv = 0 then t.arch.pc + BitVec.ofInt 64 (2 * off) else t.arch.pc + 4
      ∃ s' t' g', exec (.brq off inv) s = .next s' ∧ s'.thread r = some t' ∧ t'.arch.pc = goal ∧
        t'.status = .ready (s.clock + 1) 0 ∧ t'.seq = t.seq + 1 ∧ s'.wg r.wg = some g' ∧ alook r.tid g'.bq = some rest ∧
        s'.mem = s.mem) ∧
    ((alook r.tid g.bq).getD [] = [] →
      (∀ f, s.bqFault r = some f → exec (.brq off inv) s = .next (s.takeFault r f t.run.count)) ∧
      (s.bqFault r = none → ∃ s', exec (.brq off inv) s = .next s' ∧
        s'.thread r = some { t with status := .parked .brq } ∧ s'.mem = s.mem)))

/-- R117, R59 and R141: a plain load that returns to a running thread writes its bytes to its registers, low byte
first, with the tag of its destination, sign-extended where it asks for that; the load counts no more, its registers
are outstanding no more, and no memory and no other thread changes. Uncorrectable data mark the registers poisoned
instead. -/
def Obligations.LoadsReturn : Prop :=
  ∀ (s : State) (id : Nat) (l : PLoad) (t : Thread) (k : Nat),
    s.loads.find? (fun x => x.id == id && !x.who.acc && x.remote.isNone) = some l → l.loc = .key k → l.kind = .plain →
    s.thread l.who = some t → t.status = .running → t.acqDrop = false → t.arch.frame = none → s.waiters = [] →
    s.loadGone l = false → s.loadWaits l = false →
    let bs := (s.loadBytes l).1
    (l.value = none → l.fwd = [] → (∀ i, i < l.len → isScratch (k + i) = true) →
      s.loadBytes l = (s.mem.readN k l.len, false)) ∧
    (l.value = none → l.fwd = [] → (∀ i, i < l.len → isScratch (k + i) = false ∧ alook (l1Key l.core (k + i)) s.l1 = none) →
      bs = s.mem.readN k l.len) ∧
    ∃ s' t', exec (.loadReturn id false false) s = .next s' ∧ s'.thread l.who = some t' ∧
      t'.loads = t.loads - 1 ∧ t'.busy = l.dests.foldl (fun b d => b.erase d.reg) t.busy ∧ t'.arch.pc = t.arch.pc ∧
      t'.arch.preds = t.arch.preds ∧ t'.status = .running ∧
      (∀ x, (∀ d ∈ l.dests, d.reg ≠ x) → t'.arch.regs.get x = t.arch.regs.get x) ∧
      ((s.loadBytes l).2 = false →
        (∀ d tag n, l.dests = dest1 d tag n false → t'.arch.regs.get d =
          { val := { bits := BitVec.ofNat 32 (leNat (bs.take n)), tag := tag } }) ∧
        (∀ d tag, l.dests = dest1 d tag 1 true → bs.length = 1 →
          (t'.arch.reg d).bits = (BitVec.ofNat 8 (leNat bs)).signExtend 32 ∧ (t'.arch.reg d).tag = tag) ∧
        (∀ d tag, l.dests = dest1 d tag 2 true → bs.length = 2 →
          (t'.arch.reg d).bits = (BitVec.ofNat 16 (leNat bs)).signExtend 32 ∧ (t'.arch.reg d).tag = tag) ∧
        (∀ d, l.dests = dest64 d → bs.length = 8 → t'.arch.pair d = BitVec.ofNat 64 (leNat bs) ∧
          (t'.arch.reg d).tag = tagLo64 ∧ (t'.arch.reg (d + 1)).tag = tagHi64)) ∧
      ((s.loadBytes l).2 = true → ∀ d ∈ l.dests, ∃ f, (t'.arch.regs.get d.reg).poison = some f ∧ f.code = .uncorr) ∧
      s'.mem = s.mem ∧ s'.loads = s.loads.filter (fun x => x.id != l.id) ∧
      ∀ q : TRef, q.key ≠ l.who.key → s'.thread q = s.thread q

/-- R117, R155, R162 and R152: a store to scratchpad that is performed writes its bytes and no other byte, and sets
its word full or empty as its form says; one to a global address at WG scope leaves its bytes dirty in its core's L1, to be at
home by the microsecond that its commit has set, and memory as it is; a release at DV or SY scope puts its bytes into memory, and so
does one at CL scope (the model's choice, DESIGN CHOICE, log entry 15). The store is pending no more; one that is a release of WG scope
has its note sent first (R150), for which there is room.
R166: once cwbinv is performed, no home slice holds its line, and the backing memory has what the slice had. -/
def Obligations.StoresPerform : Prop :=
  (∀ (s : State) (id : Nat) (p : PStore) (k : Nat),
    s.stores.find? (fun x => x.id == id && x.remote.isNone) = some p → p.op = .cache .cwbinv (.key k) → s.storeReady p = true →
    asorted s.l2 → (∀ b ∈ s.back, s.sliceHas b.1 = true) → s.waiters = [] → (∀ q ∈ s.stores, q.monitor = false) →
    ∃ s', exec (.storePerform id false) s = .next s' ∧ s'.stores = s.stores.filter (fun x => x.id != p.id) ∧
      s'.sliceHas k = false ∧ ∀ x, lineKey x = lineKey k → s'.backByte x = s'.mem.read x) ∧
  ∀ (s : State) (id : Nat) (p : PStore) (k : Nat) (bs : List Byte) (f : FullOp) (rel : Option Scope),
    s.stores.find? (fun x => x.id == id && x.remote.isNone) = some p → p.op = .store (.key k) bs f rel →
    s.storeReady p = true → s.storeGone p = false → MemOk s → s.waiters = [] → (∀ q ∈ s.stores, q.monitor = false) → s.lodges = [] →
    (∀ x, p.noted = some x → s.noteRoom p.core x = true) →
    ∃ s', exec (.storePerform id false) s = .next s' ∧ s'.stores = s.stores.filter (fun x => x.id != p.id) ∧
      (isScratch k = true → rel = none →
        (∀ i b, bs[i]? = some b → s'.mem.read (k + i) = b) ∧
        (∀ a, (a < k ∨ k + bs.length ≤ a) → s'.mem.read a = s.mem.read a) ∧
        (f = .keep → s'.full = s.full) ∧ (f = .setEmpty → s'.isFull k = false) ∧
        (f = .setFull ∨ f = .waitEmpty → s'.isFull k = true)) ∧
      (isScratch k = false → rel = none →
        s'.mem = s.mem ∧
        ∀ i b, bs[i]? = some b → alook (l1Key p.core (k + i)) s'.l1 = some { val := b, dirty := true, rel := p.rel, due := p.due }) ∧
      (∀ x, p.noted = some x → ∃ n ∈ s'.notes, n.line = lineKey x ∧ n.core = p.core) ∧
      (isScratch k = false → ∀ sc, rel = some sc → sc.wide = true →
        ∀ i b, bs[i]? = some b → s'.mem.read (k + i) = b)

/-- R148, R153 and R164: an atomic reads its word, writes the new value its operation gives, where it gives one, and hands the old
value to D with its tag; no other byte changes. On a scratchpad word it does so in one step at the bank; on HBM at WG scope in its
core's L1, where the new bytes are dirty until they go home; at DV and SY in one step at the home slice, where what the core itself
holds of the line goes first; at CL at the cluster's unit, which reads in one step and writes in a later one, with no other atomic of
that unit to these bytes between. On an uncorrectable word memory stays as it is and D is poisoned (R141). -/
def Obligations.AtomicsAct : Prop :=
  ∀ (s : State) (h : HeldRun) (c : Cmd) (sc : Scope) (t : Thread) (k : Nat),
    c.loc = some (.key k) → s.thread h.who = some t → t.status = .running → t.arch.frame = none →
    s.waiters = [] → (∀ q ∈ s.stores, q.monitor = false) → MemOk s →
    let clean := fun n => ∀ i, i < n → s.isPoisoned (k + i) = false
    let word := fun (l : List Byte) => (BitVec.ofNat 32 (leNat l) : Word)
    let pair := fun (l : List Byte) => (BitVec.ofNat 64 (leNat l) : DWord)
    let x := fun n => c.words.getD n 0
    let v := x 0
    let sort := fun (w : Word) => ((w.extractLsb' 16 16).toInt, -((w.extractLsb' 0 16).toNat : Int))
    let new := fun (o : AtomOp) (l : List Byte) => let m := word l; let m2 := pair l; match o with
      | .add => natLe 4 (m + v).toNat
      | .addb => natLe 4 (if m.toInt + v.toInt ≤ (x 1).toInt then m + v else m).toNat
      | .min => natLe 4 (if v.toInt < m.toInt then v else m).toNat
      | .max => natLe 4 (if m.toInt < v.toInt then v else m).toNat
      | .minn => natLe 4 (if v.toNat < m.toNat then v else m).toNat
      | .maxn => natLe 4 (if m.toNat < v.toNat then v else m).toNat
      | .and => natLe 4 (m &&& v).toNat
      | .or => natLe 4 (m ||| v).toNat
      | .xor => natLe 4 (m ^^^ v).toNat
      | .swap => natLe 4 v.toNat
      | .cas => natLe 4 (if m = v then x 1 else m).toNat
      | .maxsi => natLe 4 (if (sort m).1 < (sort v).1 ∨ ((sort m).1 = (sort v).1 ∧ (sort m).2 < (sort v).2) then v else m).toNat
      | .fadd => natLe 4 (roundIeee (sumNum .rne [f32.decode m.toNat, f32.decode v.toNat]).1 f32 .rne).1
      | .add64 => natLe 8 (m2 + (x 1 ++ x 0)).toNat
      | .swap64 => natLe 8 (x 1 ++ x 0).toNat
      | .cas64 => natLe 8 (if m2 = x 1 ++ x 0 then x 3 ++ x 2 else m2).toNat
    let n := fun (o : AtomOp) => if o = .add64 ∨ o = .swap64 ∨ o = .cas64 then 8 else 4
    let tag := fun (o : AtomOp) => if o = .add ∨ o = .addb ∨ o = .min ∨ o = .max then tagI32 else if o = .fadd then tagF32 else tagN32
    let told := fun (o : AtomOp) (l : List Byte) (s' : State) => ∃ t', s'.thread h.who = some t' ∧ t'.loads = t.loads - 1 ∧
      (n o = 4 → t'.arch.reg c.d = { bits := word l, tag := tag o } ∧ t'.busy = t.busy.erase c.d) ∧
      (n o = 8 → t'.arch.pair c.d = pair l ∧ (t'.arch.reg c.d).tag = tagLo64 ∧ (t'.arch.reg (c.d + 1)).tag = tagHi64)
    ∀ o : AtomOp,
      (isScratch k = true →
        (¬clean (n o) → let s' := s.actAtom h c o sc
          s'.mem = s.mem ∧ ∃ t' f, s'.thread h.who = some t' ∧ (t'.arch.regs.get c.d).poison = some f ∧ f.code = .uncorr ∧
            (t.deferred = none → ∃ e, t'.deferred = some e ∧ e.code = .uncorr)) ∧
        (clean (n o) → let old := s.mem.readN k (n o); let s' := s.actAtom h c o sc
          s'.mem.readN k (n o) = new o old ∧ (∀ a, (a < k ∨ k + n o ≤ a) → s'.mem.read a = s.mem.read a) ∧ told o old s')) ∧
      (isScratch k = false → k + 8 ≤ 2 ^ 61 → asorted s.l1 → clean (n o) →
        (sc = .wg → let old := (List.range (n o)).map fun i => (s.seen h.core false (k + i)).1; let s' := s.actAtom h c o sc
          s'.mem = s.mem ∧ told o old s' ∧
          (t.acqDrop = false → (List.range (n o)).map (fun i => (s'.seen h.core false (k + i)).1) = new o old ∧
            (new o old ≠ old → ∀ i, i < n o → ∃ b, alook (l1Key h.core (k + i)) s'.l1 =
              some { val := b, dirty := true, rel := h.rel, due := h.due }))) ∧
        (lineKey (k + n o - 1) = lineKey k → s.freshL1 h.core (some (lineKey k)) = false → ∀ old z, s.rmwOld h.core k (n o) = (old, z) →
          (∀ i, i < n o → old[i]? = some (match alook (l1Key h.core (k + i)) s.l1 with
            | some e => if e.dirty then e.val else s.mem.read (k + i)
            | none => s.mem.read (k + i))) ∧ z.mem.readN k (n o) = old ∧
          (sc = .dv ∨ sc = .sy → let s' := s.actAtom h c o sc
            s'.mem.readN k (n o) = new o old ∧ (∀ a, lineKey a ≠ lineKey k → s'.mem.read a = s.mem.read a) ∧ told o old s') ∧
          (sc = .cl → let site := clusOfCore h.core
            unitSite h.core (.key k) sc = some site ∧
            (s.rmws.find? (fun y => y.run == some h.id) = none →
              (s.siteBusy site k (n o) = true → s.actUnit h c o sc site k = (false, s)) ∧
              (s.siteBusy site k (n o) = false → s.actUnit h c o sc site k = (false, { z with rmws := z.rmws ++
                [{ site := site, key := k, old := old, run := some h.id, req := none, begun := z.clock }] }))))) ∧
        (sc = .cl → ∀ y site, s.rmws.find? (fun y => y.run == some h.id) = some y → y.old.length = n o →
          let s' := (s.actUnit h c o sc site k).2
          (s.actUnit h c o sc site k).1 = true ∧ (∀ e ∈ s'.rmws, e.run ≠ some h.id) ∧ told o y.old s' ∧
          (new o y.old ≠ y.old → s'.mem.readN k (n o) = new o y.old) ∧
          ∀ a, (a < k ∨ k + n o ≤ a) → s'.mem.read a = s.mem.read a))

/-- R181, R182 and R185: a request at a rendezvous word on which none is held takes its arrivals, as many as are left, and its
bytes; where that leaves neither arrivals nor bytes the phase flips, the word is reloaded from its initial value, and its words become
full. A request that finds no arrival left is held, and so is what is left of one that finds too few, until the flip after it; one
that has been taken whole answers with the phase word as it was before. The SYNC forms are such requests: arrive one arrival, arriven
n, expect n bytes, pledge one arrival and n bytes, rvleave one arrival, with the initial value's arrivals one lower; rvinit sets the
word and its initial value. R190 to R192, the QUEUE instructions on a queue in scratchpad when they act: qinit sets the control word
and empties the slots; a push or a pop takes the next slot in order at once where it is free or full, and waits at it otherwise; a try
fails where it would have to wait, and changes neither queue nor memory; qlen answers TAIL − HEAD. -/
def Obligations.RendezvousArrivals : Prop :=
  (∀ (s : State) (k da : Nat) (db : Int) (who : RvWho), MemOk s → s.waiters = [] → (∀ q ∈ s.stores, q.monitor = false) →
    (∀ h ∈ s.rvHolds, h.key ≠ k) →
    let w := s.rvRead k
    let i := s.rvRead (k + 8)
    let n := min da w.arrivals
    let b := (((w.bytes : Int) + db) % 2 ^ 40).toNat
    let s' := s.evaluate none k da db who
    (w.arrivals = 0 → 0 < da → s'.mem = s.mem ∧ { key := k, da := da, db := db, who := who, id := s.nextId } ∈ s'.rvHolds) ∧
    (0 < w.arrivals ∨ da = 0 →
      (w.arrivals - n ≠ 0 ∨ b ≠ 0 → s'.rvRead k = { w with arrivals := w.arrivals - n, bytes := b } ∧ s'.rvRead (k + 8) = i ∧
        (k ∉ s.rvOpen → s'.isFull k = false ∧ s'.isFull (k + 4) = false)) ∧
      (w.arrivals - n = 0 → b = 0 → s'.rvRead k = { i with phase := !w.phase } ∧ s'.rvRead (k + 8) = { i with phase := !w.phase } ∧
        s'.isFull k = true ∧ s'.isFull (k + 4) = true) ∧
      (n < da → { key := k, da := da - n, db := 0, who := who, id := s.nextId } ∈ s'.rvHolds) ∧
      (n = da → ∀ r seq d u, who = some (r, seq, d) → s.thread r = some u → u.status = .running → u.arch.frame = none →
        ∃ u', s'.thread r = some u' ∧ u'.arch.reg d = regN32 (s.phaseWord k) ∧ u'.loads = u.loads - 1)) ∧
    ∀ a, (a < k ∨ k + 16 ≤ a) → s'.mem.read a = s.mem.read a) ∧
  (∀ (s : State) (h : HeldRun) (c : Cmd) (k : Nat) (t : Thread), c.loc = some (.key k) → s.thread h.who = some t →
    t.status = .running → t.arch.frame = none → MemOk s → s.waiters = [] → (∀ q ∈ s.stores, q.monitor = false) →
    let who : RvWho := some (h.who, h.seq, c.d)
    let n := c.words.getD 0 0
    let z := (s.mirrorFor h.who).releaseAt h.core (s.rvScope h.who k)
    let s' := s.actSync h c none
    (c.op = .rvinit → n.toNat < 2 ^ 23 → s'.rvRead k = { phase := false, arrivals := n.toNat, bytes := 0 } ∧
      s'.rvRead (k + 8) = { phase := false, arrivals := n.toNat, bytes := 0 } ∧ (∀ x ∈ s'.rvHolds, x.key ≠ k) ∧ k ∉ s'.rvOpen ∧
      (∀ j ∈ [k, k + 4, k + 8, k + 12], s'.isFull j = false) ∧
      (∀ a, (a < k ∨ k + 16 ≤ a) → s'.mem.read a = s.mem.read a) ∧
      ∃ t', s'.thread h.who = some t' ∧ t'.arch.reg c.d = regN32 (s.phaseWord k) ∧ t'.loads = t.loads - 1) ∧
    (s.syncBad k = false →
      (c.op = .arrive → s' = z.evaluate none k 1 0 who) ∧ (c.op = .arriven → s' = z.evaluate none k n.toNat 0 who) ∧
      (c.op = .expect → s' = s.evaluate none k 0 n.toInt who) ∧ (c.op = .pledge → s' = z.evaluate none k 1 n.toInt who) ∧
      (c.op = .rvleave → MemOk z → ∃ y : State, s' = y.evaluate none k 1 0 who ∧ y.rvRead k = z.rvRead k ∧
        y.rvRead (k + 8) = { z.rvRead (k + 8) with
          arrivals := if (z.rvRead (k + 8)).arrivals = 1 then 1 else ((z.rvRead (k + 8)).arrivals + (2 ^ 23 - 1)) % 2 ^ 23 })) ∧
    (s.syncBad k = true → c.op.isSync = true → c.op ≠ .rvinit → s'.mem = s.mem ∧ ∃ t' f, s'.thread h.who = some t' ∧
      (t'.arch.regs.get c.d).poison = some f ∧ f.code = .uncorr)) ∧
  ∀ (s : State) (h : HeldRun) (c : Cmd) (t : Thread) (g : Wg), s.wg h.who.wg = some g → g.isOq c.p = false →
    c.p < g.qcs.length → s.thread h.who = some t → t.status = .running → t.arch.frame = none → MemOk s → s.waiters = [] → s.stores = [] →
    s.loads = [] → s.held = [] → s.rvHolds = [] → s.fab.remotes = [] → s.claims = [] → c.after = [] →
    let q := g.qc c.p
    let elem := if q.es then 8 else 4
    let x := c.words.getD 0 0
    let data := if q.es then natLe 4 x.toNat ++ natLe 4 (c.words.getD 1 0).toNat else natLe 4 x.toNat
    let tag : Half := x.setWidth 16
    let pr := (c.words.getD 2 0).toNat
    let kt := q.base + q.tail.toNat % 2 ^ q.ld * elem
    let kh := q.base + q.head.toNat % 2 ^ q.ld * elem
    let here := fun (k : Nat) => isScratch k = true ∧ scratchCore k = h.core ∧ g.holds k 4 = true ∧ s.still h.who k 4 = true
    let s' := s.actQueue h c
    let is := fun (y : QCtl) => (s'.wg h.who.wg).map (·.qc c.p) = some y
    let pred := fun (b : Bool) => pr < 7 → ∃ t', s'.thread h.who = some t' ∧ t'.arch.pred pr = b
    let pushed := here kt → s.isFull kt = false → s'.mem.readN kt elem = data ∧ s'.isFull kt = true ∧ is { q with tail := q.tail + 1 } ∧
      (∀ a, (a < kt ∨ kt + elem ≤ a) → s'.mem.read a = s.mem.read a) ∧
      ∃ t', s'.thread h.who = some t' ∧ t'.arch.reg c.d = regNat (q.tail.toNat % 2 ^ q.ld) ∧ t'.stores = t.stores - 1
    let popped := here kh → s.isFull kh = true → s.poisonedIn kh elem = false → s'.mem = s.mem ∧ s'.isFull kh = false ∧
      is { q with head := q.head + 1 } ∧ ∃ t', s'.thread h.who = some t' ∧ t'.loads = t.loads - 1 ∧
      (q.es = false → t'.arch.reg c.d = { bits := BitVec.ofNat 32 (leNat (s.mem.readN kh 4)), tag := tag }) ∧
      (q.es = true → t'.arch.reg c.d = { bits := BitVec.ofNat 32 (leNat (s.mem.readN kh 4)), tag := if tKind tag = 14 then tagLo64 else tag } ∧
        t'.arch.reg (c.d + 1) = { bits := BitVec.ofNat 32 (leNat (s.mem.readN (kh + 4) 4)), tag := if tKind tag = 14 then tagHi64 else tag })
    (c.op = .qpush → pushed ∧ (here kt → s.isFull kt = true → s'.mem = s.mem ∧ is { q with tail := q.tail + 1 } ∧
      ∃ w, s'.waiters = [w] ∧ w.who = h.who ∧ w.key = kt ∧ w.kind = .push data)) ∧
    (c.op = .qtrypush → (s.isFull kt = false → pushed ∧ (here kt → pred true)) ∧
      (s.isFull kt = true → s'.mem = s.mem ∧ is q ∧ s'.waiters = [] ∧ pred false ∧
        ∃ t', s'.thread h.who = some t' ∧ t'.arch.reg c.d = regN32 0xFFFFFFFF ∧ t'.stores = t.stores - 1)) ∧
    (c.op = .qpop → popped ∧ (here kh → s.isFull kh = false → s'.mem = s.mem ∧ is { q with head := q.head + 1 } ∧
      ∃ w, s'.waiters = [w] ∧ w.who = h.who ∧ w.key = kh ∧ w.kind = .pop elem ∧ w.dests.map (·.reg) = if q.es then [c.d, c.d + 1] else [c.d])) ∧
    (c.op = .qtrypop → (s.isFull kh = true → popped ∧ (here kh → s.poisonedIn kh elem = false → pred true)) ∧
      (s.isFull kh = false → s'.mem = s.mem ∧ is q ∧ s'.waiters = [] ∧ pred false ∧
        ∃ t', s'.thread h.who = some t' ∧ t'.arch.regs = t.arch.regs ∧ t'.loads = t.loads - 1)) ∧
    (c.op = .qlen → s'.mem = s.mem ∧ is q ∧ ∃ t', s'.thread h.who = some t' ∧
      t'.arch.reg c.d = { bits := q.tail - q.head, tag := tagI32 }) ∧
    (c.op = .qinit → ∀ k, c.loc = some (.key k) → let hi := (c.words.getD 1 0).toNat; let es := hi / 16 % 2 == 1
      is { v := true, base := k, ld := hi % 16, es := es, head := 0, tail := 0 } ∧ s'.mem = s.mem ∧
      (∀ i, i < 2 ^ (hi % 16) * (if es then 2 else 1) → scratchCore (k + 4 * i) = h.core → s'.isFull (k + 4 * i) = false) ∧
      ∃ t', s'.thread h.who = some t' ∧ t'.arch.reg c.d = regNat (2 ^ (hi % 16)))

/-- R304 to R306: taking a fault. At depth 0 the run is discarded and the thread enters the supervisor's handler: its
frame has the state of its run's start and the fault, it is at depth 1, in supervisor mode, at TVEC, ready under key
0, with the cause, the PC, the address and the detail in v0, x2, x4 and v6; memory and the other threads are as they
were. In the handler itself it kills the workgroup, whose launch will end with KILLED, and an entry of the event log
says so. A run that read before an SC fence of its own between which and its reads another thread's fence has come is executed again
instead (R145; the model's choice: log entry 61). R312 and R313: the return from a fault. The thread has the PC, the registers, the predicates, the index, the
flags, the rounding mode, the return stack and the mode of its frame, at depth 0, and is ready under key 0. TRAP_ENTRY
(R304) takes the fault that a ready thread has to take at its run's start. -/
def Obligations.FaultsAndReturns : Prop :=
  (∀ (s : State) (r : TRef) (t : Thread) (g : Wg) (f : FaultInfo) (foff : Nat),
    s.thread r = some t → s.wg r.wg = some g → r.acc = false → f.code ≠ .pmemgrow →
    (s.spoiled r t.seq = true → s.takeFault r f foff = s.redoRun r) ∧
    (s.spoiled r t.seq = false →
    let s' := s.takeFault r f foff
    let q := t.run.snap
    (t.arch.depth = 0 →
      ∃ t' fr, s'.thread r = some t' ∧ t'.arch.frame = some fr ∧ t'.arch.depth = 1 ∧ t'.arch.sup = true ∧
        t'.arch.pc = (s.part g.part).tvec ∧ t'.status = .ready (if s.cur = some r then s.clock + 1 else s.clock) 0 ∧ t'.run = Run.start t'.arch ∧
        t'.arch.xcount = 0 ∧ t'.deferred = none ∧
        fr.fault = some f ∧ fr.foff = foff ∧ fr.pc = q.pc ∧ fr.regs = q.regs ∧ fr.preds = q.preds ∧ fr.ix = q.ix ∧
        fr.fflags = q.fflags ∧ fr.rm = q.rm ∧ fr.sup = q.sup ∧ fr.rstack = q.rstack ∧
        fr.xcount = max t.arch.xcount t.arch.alone ∧
        (10 ≤ g.allot → t'.arch.reg 0 = regN32 f.cause ∧ t'.arch.pair 4 = q.pc ∧ t'.arch.pair 8 = f.addr ∧
          t'.arch.reg 6 = regN32 f.info) ∧
        s'.mem = s.mem ∧ ∀ x : TRef, x.key ≠ r.key → s'.thread x = s.thread x) ∧
    (t.arch.depth ≠ 0 → asorted s.threads →
      (∀ x ∈ s'.threads, x.1 / 1024 = r.wg → x.2.status = .exited) ∧
      (∀ l, s.launch g.launch = some l → ∃ l', s'.launch g.launch = some l' ∧ l'.killed = true) ∧
      ∃ e ∈ s'.sys.events, e.code = 2 ∧ e.part = g.part))) ∧
  (∀ (s : State) (r : TRef) (t : Thread) (f : Frame) (e : FaultInfo) (at' v : Nat), s.thread r = some t →
    (t.arch.frame = some f → asorted f.regs.cells →
      let s' := s.returnFromTrap r
      ∃ t', s'.thread r = some t' ∧ t'.arch.pc = f.pc ∧ (∀ x, isTemp x = false → t'.arch.regs.get x = f.regs.get x) ∧
        t'.arch.preds = f.preds ∧ t'.arch.ix = f.ix ∧ t'.arch.fflags = f.fflags ∧ t'.arch.rm = f.rm ∧ t'.arch.sup = f.sup ∧
        t'.arch.rstack = f.rstack ∧ t'.arch.depth = 0 ∧ t'.status = .ready (if s.cur = some r then s.clock + 1 else s.clock) 0 ∧
        s'.mem = s.mem) ∧
    (r.acc = false → t.deferred = some e → t.status = .ready at' v →
      exec (.trapEntry r.wg r.tid) s = .next ((s.setThread r { t with deferred := none, defSeq := none }).takeFault r e 0)) ∧
    (r.acc = false → (∃ g, s.wg r.wg = some g) → t.deferred = some e → t.status = .ready at' v → t.arch.depth = 0 →
      s.spoiled r t.seq = false → e.code ≠ .pmemgrow → ∃ s' t' fr, exec (.trapEntry r.wg r.tid) s = .next s' ∧ s'.thread r = some t' ∧
        t'.arch.frame = some fr ∧ fr.fault = some e ∧ t'.arch.depth = 1 ∧ t'.arch.sup = true))

/-- R118, R307 and R328: RUN_RELEASE. Before its release cycle, and while an earlier run of its thread still holds a command,
nothing happens. At it a run without a committing instruction is held no more, and nothing else changes; where it was its thread's
last, the thread has ended for good (R128). A held command then acts, and with it done the run is let go: an atomic or a SYNC once
nothing holds it, a copy and TGEN join their queues, and the MAZE, LODGE, TASK and privileged instructions act, each where it need
not wait for what is before it. One whose committing instruction is trap gives its thread the fault that it
takes at the start of its next run, and sends it where its terminator said. -/
def Obligations.ReleaseOfRuns : Prop :=
  ∀ (s : State) (id : Nat) (h : HeldRun), s.held.find? (fun h => h.id == id) = some h →
    (s.clock < h.rel → exec (.runRelease id) s = .next s) ∧
    ((∃ x ∈ s.held, x.who = h.who ∧ x.id < id ∧ x.cmd ≠ none) → exec (.runRelease id) s = .next s) ∧
    (h.rel ≤ s.clock → (∀ x ∈ s.held, x.who = h.who → x.id < id → x.cmd = none) →
      (h.cmd = none → exec (.runRelease id) s = .next (s.letGo h)) ∧
      (∀ c, h.cmd = some c → (s.heldMay h c = false ∨ s.heldBehind h c = true) → exec (.runRelease id) s = .next s) ∧
      (∀ c, h.cmd = some c → s.heldMay h c = true → s.heldBehind h c = false →
        let acted := fun (z : State) => exec (.runRelease id) s = .next (z.letGo h)
        let kept := fun (z : State) => exec (.runRelease id) s = .next z
        let tried := fun (x : Bool × State) => (x.1 = true → acted x.2) ∧ (x.1 = false → kept x.2)
        (∀ k, c.loc = some (.key k) → c.op.span ≠ 0 → s.still h.who k c.op.span = false → acted (s.refuseCmd h c)) ∧
        (s.cmdGone h c = false →
          (∀ o sc l, c.op = .atom o sc → c.loc = some l →
            (s.atomReady h.who id c l o.size = false → kept s) ∧
            (s.atomReady h.who id c l o.size = true →
              (unitSite h.core l sc = none → acted ((s.noteAtom h.core c).actAtom h c o sc)) ∧
              (∀ site k, l = .key k → unitSite h.core l sc = some site →
                tried ((s.noteAtom h.core c).actUnit h c o sc site k)))) ∧
          (∀ k, c.op.isSync = true → c.loc = some (.key k) →
            (s.syncReady h k c = false → kept s) ∧
            (s.syncReady h k c = true → acted ((s.actSync h c none).readDone h.who h.core id)))) ∧
        (∀ kind, c.op = .copy kind → acted (s.enqueueCopy h c kind)) ∧
        (c.op = .tgen → acted (s.enqueueTgen h c)) ∧
        (c.op ∈ [.mzdecl, .mzpost, .mztake, .mzdonePass, .mzdoneDrop, .mzeff, .mzsink, .mzstat] → acted (s.actMaze h c)) ∧
        (c.op.isLodge = true → acted (s.actLodge h c)) ∧
        (c.op ∈ [.launch, .signal, .cont, .take] → tried (s.actTask h c)) ∧
        (c.op.isCreg = true → (s.settled h = false → kept s) ∧ (s.settled h = true → tried (s.actPriv h c))) ∧
        ((∃ n, c.op = .trap n ∨ c.op = .bkpt n ∨ c.op = .traprd n ∨ c.op = .trapwr n) ∨ c.op ∈ [.haltwg, .resume, .kill] →
          tried (s.actPriv h c))) ∧
      ∀ t, s.waiters = [] → s.openMeetings h.who.wg = [] → s.cur = none → s.thread h.who = some t → h.who.tid < 512 →
        h.who.acc = false →
        (h.cmd = none → h.exits = false → t.status = .running → ∃ s', exec (.runRelease id) s = .next s' ∧
          s'.held = s.held.filter (fun x => x.id != id) ∧ s'.threads = s.threads ∧ s'.mem = s.mem ∧ s'.stores = s.stores) ∧
        (h.cmd = none → h.exits = true → t.status = .exited →
          (∃ r u, s.thread r = some u ∧ r.wg = h.who.wg ∧ r.tid < 512 ∧ r.acc = false ∧ u.status ≠ .exited) →
          ∃ s' t', exec (.runRelease id) s = .next s' ∧ s'.held = s.held.filter (fun x => x.id != id) ∧
            s'.thread h.who = some t' ∧ t'.status = .exited ∧ t'.loads = 0 ∧ t'.busy = [] ∧ (∀ l ∈ s'.loads, l.who ≠ h.who) ∧
            s'.mem = s.mem ∧ s'.stores = s.stores) ∧
        (∀ c n at' v, h.cmd = some c → h.exits = false → c.op = .trap n → t.status = .awaiting id → t.post = .ready at' v →
          t.stop = none → t.deferred = none → ∃ s' t', exec (.runRelease id) s = .next s' ∧ s'.thread h.who = some t' ∧
            t'.deferred = some { code := .trapi, arg := n, addr := c.pc } ∧ t'.status = .ready s.clock v ∧
            s'.held = s.held.filter (fun x => x.id != id) ∧ s'.mem = s.mem))

/-- R24, R47, R49 and R115: a step that issues for a quadrant runs, for the next thread of its group, exec of the
instruction that the bytes at the thread's PC decode to, and then settles the group; bytes that decode to none are an
ILLEGAL instruction, and a 25th instruction in a run is RUNFORM at its last one. A group of several threads of which one would
have to stall at the beginning of a slot issues nothing in it (that this is judged there and for all its threads at once is the
model's reading: log entry 73). Settling leaves a thread that stalls where it is and ends the slot; one that has issued goes on in
the next slot, one that is held at a meeting leaves the slot to the others, and the slot ends with its last thread. While the clock
is gated nothing issues (R388). What follows every step is finished. A step that the schedule gives to a unit or to the
environment runs exec of it; one in which a home slice takes a line in or lets one go does that; and one in which time passes
only passes time (the schedule is the model's own: log entry 1). -/
def Obligations.StepRunsTheDecodedInstruction : Prop :=
  (∀ (s : State) (q : Nat) (acc : Bool) (r : TRef) (rs : List TRef) (gr : Group) (l : List Turn) (t : Thread),
    s.sched = (if acc then Turn.access q else .issue q) :: l →
    let s0 : State := { s with sched := l }
    let s1 := if acc then s0 else s0.passTo (s0.quad q).slot
    let settle := fun (x : Result) => finished (match x with
      | .next s' => .next (s'.settleGroup q acc r (t.seq, t.run.count))
      | y => y)
    (s0.quad q).group acc = some gr → gr.todo = r :: rs → s1.thread r = some t →
    (s.sys.power.gated = true → step s = finished (.next s0)) ∧
    (rs = [] ∨ gr.done ≠ [] → s1.groupStalls exec q gr = false) ∧
    (s.sys.power.gated = false →
    (s1.groupStalls exec q gr = true → step s = finished (.next (s1.stallGroup exec q acc gr.todo))) ∧
    (s1.groupStalls exec q gr = false → 24 ≤ t.run.count → step s = settle (.next (s1.takeFault r (plainFault .runform) 23))) ∧
    (s1.groupStalls exec q gr = false → t.run.count < 24 → (t.run.count = 0 → t.deferred = none ∧ t.arch.lpad = none) →
      (∀ bs s2 i n, s1.fetchAt r t.arch.pc = .ok bs s2 → decodeBytes bs = .ok (i, n) →
        step s = settle (exec i { s2 with cur := some r })) ∧
      (∀ bs s2 e, s1.fetchAt r t.arch.pc = .ok bs s2 → decodeBytes bs = .error e → t.run.cmark = none →
        step s = settle (.next (s2.takeFault r (plainFault .illegal) t.run.count))) ∧
      (∀ f, s1.fetchAt r t.arch.pc = .fault f → step s = settle (.next (s1.takeFault r f t.run.count))) ∧
      (∀ a, s1.fetchAt r t.arch.pc = .miss a → step s = settle (.next (s1.startWalk r a .fetch)))))) ∧
  (∀ (s : State) (q : Nat) (r : TRef) (rs : List TRef) (gr : Group) (t : Thread) (before : Nat × Nat),
    (s.quad q).active = some gr → gr.todo = r :: rs → r ∉ rs → r ∉ gr.done → r ∉ gr.waitX → s.thread r = some t →
    t.arch.skips = [] →
    let x := (s.settleGroup q false r before).quad q
    (t.status = .running → (t.seq, t.run.count) = before → x.active = some gr ∧ x.slot = s.clock + 1) ∧
    (t.status = .running → (t.seq, t.run.count) ≠ before →
      (rs ≠ [] → x.active = some { todo := rs, done := gr.done ++ [r], waitX := gr.waitX } ∧ x.slot = (s.quad q).slot) ∧
      (rs = [] → x.active = some { todo := byTid (gr.done ++ [r]), done := [], waitX := [] } ∧ x.slot = s.clock + 1)) ∧
    (∀ m k, t.status = .held m k → rs ≠ [] →
      x.active = some { todo := rs, done := gr.done, waitX := gr.waitX ++ [r] } ∧ x.slot = (s.quad q).slot)) ∧
  (∀ (s : State) (i : Instr) (n : Nat) (l : List Turn),
    (s.sched = .event i :: l → step s = finished (exec i { s with sched := l, cur := none })) ∧
    (∀ k hold, s.sched = .slice k hold :: l → step s = .next (({ s with sched := l } : State).sliceTurn k hold).finish) ∧
    (s.sched = .tick n :: l → step s = .next (({ s with sched := l } : State).passTime n).finish ∧
      (s.sys.power.gated = false → (({ s with sched := l } : State).passTime n).clock = s.clock + n)))

/-- R24, R320 and R393: a fetch of a unit finds XLATE outside canonical memory, PROT where its page does not let the
thread execute it, UNCORR where its data are poisoned, and else, where its core keeps no older copy of it, the two
bytes of its home slice, the lower one first. A unit of another module of its domain is fetched from there (R338) and then kept; one
of another domain is SCOPE (R337). -/
def Obligations.FetchesReadMemory : Prop :=
  ∀ (s : State) (r : TRef) (t : Thread) (g : Wg) (a : DWord), s.thread r = some t → s.wg r.wg = some g →
    (inScratchRange a = true ∨ isCanonical a = false → s.fetchUnit r a = .fault (faultAt .xlate a .fetch false)) ∧
    (inScratchRange a = false → isCanonical a = true →
      (s.tlbFind (s.coreOf r) g.part a = none → s.fetchUnit r a = .miss) ∧
      (∀ e, s.tlbFind (s.coreOf r) g.part a = some e →
        (e.trans.grants t.arch.sup .fetch = false → s.fetchUnit r a = .fault (faultAt .prot a .fetch false)) ∧
        (∀ k, s.checkPage g.part t.arch.sup .fetch e.trans a = .ok (.key k) →
          (s.isPoisoned k = true → s.fetchUnit r a = .fault (faultAt .uncorr a .fetch false)) ∧
          (s.isPoisoned k = false → alook (l1Key (s.coreOf r) k) s.fetched = none → ∃ s' u, s.fetchUnit r a = .ok u s' ∧
            u.toNat = (s.mem.read k).toNat + 256 * (s.mem.read (k + 1)).toNat ∧ s' = { s with fetched := s'.fetched })) ∧
        ∀ m pa, s.checkPage g.part t.arch.sup .fetch e.trans a = .ok (.remote m pa) →
          (pa / 2 ^ 44 ≠ s.fab.domain → s.fetchFar r a = none ∧ s.fetchUnit r a = .fault (faultAt .scope 0 .fetch false)) ∧
          (pa / 2 ^ 44 = s.fab.domain → s.fetchFar r a = some (m, pa) ∧
          (alook (l1Key (s.coreOf r) (kFar m pa)) s.fetched = none → s.fetchUnit r a = .miss) ∧
          ∀ u, alook (l1Key (s.coreOf r) (kFar m pa)) s.fetched = some u → s.fetchUnit r a = .ok u s)))

/-- The worked encodings of 03_encodings.md and 06_lane_instructions.md (R26 to R46): the words decode to what they
stand for; copy.g2s v17, v10 is 0x0002_88DD, as its fields say, and the word 0x0002_885D of its row names v16 (log
entry 4). -/
def Obligations.WorkedEncodings : Prop :=
  decodeTableWord 16 0x1CDC = some (.fmul16 6 7) ∧ decodeTableWord 16 0x20D8 = some (.fadd16 6 8) ∧
  decodeTableWord 32 0x00E1BC23 = some (.ffma 120 6 7) ∧ decodeTableWord 32 0xFFE74E89 = some (.ori 29 29 (-1)) ∧
  decodeTableWord 32 0x30410341 = some (.ldF32 6 4 2) ∧ decodeTableWord 32 0x20028647 = some (.ldsWfe 12 10 0) ∧
  decodeTableWord 32 0x000288DD = some (.copyG2s 17 10) ∧ decodeTableWord 32 0x00075DBD = some (.elect 3 29) ∧
  decodeTableWord 32 0x0000003D = some .nop ∧ decodeTableWord 32 0x440000BF = some (.wait 1 0 0 0 1 8) ∧
  decodeTableWord 32 0x0000003F = some (.wait 0 0 0 0 0 0) ∧ decodeTableWord 32 0x11220A29 = some (.dmacSat 20 8 9) ∧
  decodeTableWord 32 0xC1E50A8D = some (.rsari 21 20 15) ∧ decodeTableWord 32 0x13C54B2D = some (.cvt 22 21 30 1 0) ∧
  decodeTableWord 32 0x10E18427 = some (.paddSat 8 6 7) ∧ decodeTableWord 32 0x3C40C32F = some (.retag 6 0xF103) ∧
  decodeTableWord 32 0x0002409B = some (.cmpiEq 1 9 0) ∧ decodeTableWord 32 0x00000591 = some (.lui 11 0) ∧
  decodeTableWord 32 0x20C10813 = some (.adr 16 4 6 2) ∧ decodeTableWord 32 0xC1003C01 = some (.mov 120 8) ∧
  decodeTableWord 32 0x0002885D = some (.copyG2s 16 10) ∧ decodeTableWord 16 0 = some (.mov16 0 0)

/-- R24 to R46: every well-formed instruction with an encoding has bytes, two or four of them, and its bytes decode to
it, with every operand at every value that its encoding admits. -/
def Obligations.DecodeOfEncode : Prop :=
  ∀ i : Instr, i.wellFormed = true → i.encoded = true →
    ∃ bs, encode i = some bs ∧ bs.length = i.size ∧ (i.size = 2 ∨ i.size = 4) ∧
      ∀ rest, decodeBytes (bs ++ rest) = .ok (i, i.size)

/-- Every step keeps the canonical form of the module's memory: equal memories are equal data (the form is the
model's: log entry 2). -/
def Obligations.StepsKeepMemoryCanonical : Prop :=
  ∀ s s' : State, MemOk s → step s = .next s' → MemOk s'

/-- R378 and R387: after reset no partition is defined, no thread exists and nothing is on its way, every byte of
memory reads 0 and every full/empty bit is empty; the memory has its canonical form. That every byte reads 0, and not those of a
defined partition alone, is the model's choice (log entry 2), as are the reset values the manual does not give (log entry 9). -/
def Obligations.AfterReset : Prop :=
  (∀ a, State.reset.mem.read a = 0) ∧ MemOk State.reset ∧ (∀ k, State.reset.isFull k = false) ∧
  (∀ p, (State.reset.part p).defined = false) ∧ (∀ r, State.reset.thread r = none) ∧ State.reset.launches = [] ∧
  State.reset.loads = [] ∧ State.reset.stores = [] ∧ State.reset.copies = [] ∧ State.reset.tileOps = [] ∧
  State.reset.held = [] ∧ State.reset.clock = 0

/-- R152 and R150, L1_WRITEBACK and PROMOTION_REQUEST: the dirty bytes of the line named, and on a promotion those of
every line of the core that the line's note names, are home, as far as they may leave the core (R328); every byte of
memory that no dirty byte covers is as it was, and the L1 holds the same bytes, those of the line clean. R157,
WAIT_TABLE_SPILL and WAIT_TABLE_FILL: a table of 4,096 entries sends the one that has waited longest to the thread's
place in the spill area (the number of its thread slot is the model's choice: log entry 27), or event 9 is posted where that is not mapped; the oldest spilled entry comes back where one is
free, and a sole spilled entry whose condition holds comes back at once. R331, PATROL_SCRUB: an uncorrectable codeword
of HBM is poisoned, R330: a corrected one is counted, and without one nothing changes. R321, PAGE_WALK_COMPLETE: a walk
that one of the die's walkers is at and that finds its leaf fills the TLB of its thread's core, and the thread, at the
instruction as it stood, joins a resumption group; one that finds none gives it the fault of R140 or XLATE, and one that
meets an uncorrectable entry UNCORR. R140, PMEMGROW_SERVICE: the thread that asked for growth is ready at its run's
start, and the high-water mark of its workgroup lies above the byte it asked for. -/
def Obligations.MemoryUnits : Prop :=
  (∀ (s : State) (core line : Nat), MemOk s → asorted s.l1 → s.waiters = [] → (∀ q ∈ s.stores, q.monitor = false) →
    let home := fun (s' : State) (k : Nat) (c : L1Cell) =>
      s'.mem.read k = c.val ∧ alook (l1Key core k) s'.l1 = some { c with dirty := false }
    let leaves := fun (k : Nat) (c : L1Cell) =>
      alook (l1Key core k) s.l1 = some c ∧ k < 2 ^ 70 ∧ c.dirty = true ∧ c.rel ≤ s.clock
    let others := fun (s' : State) => (∀ k, (∀ c, ¬ leaves k c) → s'.mem.read k = s.mem.read k) ∧
      ∀ j, (alook j s'.l1).map (·.val) = (alook j s.l1).map (·.val)
    (∃ s', exec (.l1Writeback core line) s = .next s' ∧ (∀ k c, leaves k c → lineKey k = lineKey line → home s' k c) ∧
      (∀ k, lineKey k ≠ lineKey line → s'.mem.read k = s.mem.read k) ∧ others s') ∧
    ((s.notes.any fun n => n.core == core && n.line == lineKey line) = true →
      ∃ s', exec (.promotionRequest core line) s = .next s' ∧ (∀ k c, leaves k c → home s' k c) ∧ others s') ∧
    ((∀ n ∈ s.notes, n.core = core → n.line ≠ lineKey line) → exec (.promotionRequest core line) s = .next s)) ∧
  (∀ (s : State) (core : Nat),
    let es := (s.tableOf core).filter fun e => !e.spilled
    let out := (s.tableOf core).filter (·.spilled)
    (es.length < 4096 → exec (.waitTableSpill core) s = .next s) ∧
    (4096 ≤ es.length → ∃ e ∈ es, (∀ x ∈ es, e.age ≤ x.age) ∧
      (∀ l, s.engineAt (s.partOf e.who) true .store (s.tableSpillAt e) = .ok l →
        exec (.waitTableSpill core) s = .next (s.setSpilled e.id true)) ∧
      (∀ c, s.engineAt (s.partOf e.who) true .store (s.tableSpillAt e) = .error c →
        exec (.waitTableSpill core) s = .next (s.postMissing (s.partOf e.who) (s.tableSpillAt e) 0))) ∧
    (out = [] → exec (.waitTableFill core) s = .next s) ∧
    (out ≠ [] → (∀ e ∈ out, s.spilledReady e = false) → ∃ e ∈ out, (∀ x ∈ out, e.age ≤ x.age) ∧
      (es.length < 4096 → exec (.waitTableFill core) s = .next (s.setSpilled e.id false)) ∧
      (4096 ≤ es.length → exec (.waitTableFill core) s = .next s)) ∧
    (∀ e, out = [e] → s.spilledReady e = true →
      exec (.waitTableFill core) s = .next ((s.setSpilled e.id false).monitorAll (s.entryKey e.id))) ∧
    ∀ line i, exec (.patrolScrub line []) s = .next s ∧
      (∀ p x, s.parts = [(p, x)] → x.defined = true → i < 4 → x.lim.hbmBase ≤ lineKey line + 32 * i →
        lineKey line + 32 * i < x.lim.hbmBase + x.lim.hbmSize → ∃ s', exec (.patrolScrub line [(i, true)]) s = .next s' ∧
          (s'.part p).eccce = x.eccce + 1 ∧ s'.mem = s.mem ∧ s'.poisoned = s.poisoned) ∧
      (i < 4 → lineKey line + 32 * i < hbmBytes → s.poisoned.contains (codeword (lineKey line + 32 * i)) = false →
        (∀ x ∈ s.parts, x.2.defined = false) → ∃ s', exec (.patrolScrub line [(i, false)]) s = .next s' ∧
          (∀ c, c ∈ s'.poisoned ↔ c ∈ s.poisoned ∨ c = codeword (lineKey line + 32 * i)) ∧ s'.mem = s.mem ∧
          s'.threads = s.threads)) ∧
  (∀ (s : State) (r : TRef) (t : Thread) (g : Wg) (a : DWord), s.thread r = some t → s.wg r.wg = some g → r.acc = false →
    (∀ (w : Walk) (k : Access), s.walks.find? (fun x => x.id == w.id) = some w → w.who = [(r, a, k)] →
      t.status = .parked (.walk w.id) →
      ((∀ x ∈ s.walking (w.core / 96), x.id ≠ w.id) → exec (.pageWalkComplete w.id) s = .next s) ∧
      (w ∈ s.walking (w.core / 96) → s.walkBad g.part a = true → exec (.pageWalkComplete w.id) s =
        .next (({ s with walks := s.walks.filter (fun y => y.id != w.id) } : State).takeFault r
          (faultAt .uncorr a k false) t.run.count)) ∧
      (∀ x, w ∈ s.walking (w.core / 96) → s.walkBad g.part a = false → s.walkVa g.part a = some x →
        ∃ s', exec (.pageWalkComplete w.id) s = .next s' ∧
        s'.walks = s.walks.filter (fun y => y.id != w.id) ∧ s'.thread r = some { t with status := .woken } ∧
        (∃ e ∈ s'.tlb, e.core = s.coreOf r ∧ e.part = g.part ∧ e.gen = (s.part g.part).gen ∧ e.trans = x) ∧
        s'.mem = s.mem ∧ ∃ h ∈ (s'.quad (s.quadOf r)).resume, r ∈ h.2) ∧
      (w ∈ s.walking (w.core / 96) → s.walkBad g.part a = false → s.walkVa g.part a = none →
        exec (.pageWalkComplete w.id) s =
        .next (({ s with walks := s.walks.filter (fun y => y.id != w.id) } : State).takeFault r
          (faultAt (s.unmapped g a) a k false) t.run.count))) ∧
    (∀ (high : DWord), t.status = .parked (.pmemgrow a) → s.cur = none → s.waiters = [] → (∀ q ∈ s.stores, q.monitor = false) →
      high.toNat % 65536 = 0 → g.hwm.toNat ≤ high.toNat → a.toNat < high.toNat → high.toNat ≤ g.pbase.toNat + g.pres →
      (∀ i, g.hwm.toNat + 65536 * i < high.toNat →
        (s.walkVa g.part (BitVec.ofNat 64 (g.hwm.toNat + 65536 * i))).isSome = true) →
      ∃ s' t' g', exec (.pmemgrowService r.wg r.tid high []) s = .next s' ∧ s'.thread r = some t' ∧ s'.wg r.wg = some g' ∧
        g'.hwm = high ∧ t' = { t with status := .ready s.clock 0 }))

/-- R114, ISSUE_GROUP_SELECT: an idle quadrant whose clock runs issues the oldest resumption group whose workgroups may issue, else the
bin that SelectBin gives; the threads of it are running, and the others and memory are as they were. R127,
YIELD_READY: a thread whose recorded threads are gone is ready. R193 and R194: ACCESS_GROUP_ISSUE takes the one ready
access thread of a lane set; ALOAD_RETURN gives the places that a read took in its queue the words it read. -/
def Obligations.GroupsAndAccessThreads : Prop :=
  (∀ (s : State) (q : Nat), (s.quad q).active = none →
    (s.clock < (s.quad q).slot ∨ s.sys.power.gated = true → exec (.issueGroupSelect q) s = .next s) ∧
    let bins := (s.quad q).bins.filter fun b => s.mayIssue b.2.key.1 && !b.2.members.isEmpty
    let issued := fun (rs : List TRef) => ∃ s', exec (.issueGroupSelect q) s = .next s' ∧
      (s'.quad q).active = some { todo := byTid rs, done := [], waitX := [] } ∧ s'.mem = s.mem ∧
      (∀ r ∈ rs, ∀ t, s.thread r = some t → s'.thread r = some { t with status := .running }) ∧
      ∀ r : TRef, (∀ x ∈ rs, x.key ≠ r.key) → s'.thread r = s.thread r
    (∀ x, (s.quad q).slot ≤ s.clock → s.sys.power.gated = false → (s.quad q).resume.find? (fun g => g.2.all fun r => s.mayIssue r.wg) = some x →
      issued x.2) ∧
    ((s.quad q).slot ≤ s.clock → s.sys.power.gated = false → (s.quad q).resume.find? (fun g => g.2.all fun r => s.mayIssue r.wg) = none →
      (bins = [] → exec (.issueGroupSelect q) s = .next s) ∧
      ∀ b, selectBin s.clock (s.quad q).age bins = some b → issued (b.2.members.map (·.1))) ∧
    ∀ (r : TRef) (t : Thread) (g : Wg) (y : Yield), s.wg r.wg = some g → g.quad = q → g.preempting = false →
      s.thread r = some t → r.acc = false → s.cur = none → (s.quad q).yields.find? (fun y => y.who == r) = some y → y.recorded = [] →
      ∃ s', exec (.yieldReady r.wg r.tid) s = .next s' ∧ s'.thread r = some { t with status := .ready s.clock 0 } ∧
        (∀ z ∈ (s'.quad q).yields, z.who ≠ r) ∧ s'.mem = s.mem) ∧
  (∀ (s : State) (r : TRef) (t : Thread) (g : Wg), s.wg r.wg = some g → s.thread r = some t → r.acc = true → r.tid < 512 →
    ((s.quad g.quad).acc = none → g.saved = false → g.preempting = false → g.started = true →
      (∃ at' v, t.status = .ready at' v) →
      asorted s.threads → (∀ x ∈ s.threadsOf r.wg, x.1.acc = true → x.1.tid / 32 = r.tid / 32 → x.1 ≠ r →
        x.2.status ≠ .woken ∧ ∀ at' v, x.2.status ≠ .ready at' v) →
      ∃ s', exec (.accessGroupIssue g.quad r.wg (r.tid / 32)) s = .next s' ∧
        s'.thread r = some { t with status := .running } ∧
        (s'.quad g.quad).acc = some { todo := [r], done := [], waitX := [] } ∧ s'.mem = s.mem) ∧
    (∀ (id k q : Nat) (l : PLoad), s.loads.find? (fun l => l.id == id && l.who.acc) = some l → l.who = r →
      l.loc = .key k → l.len = 4 → (s.loadBytes l).2 = false → l.id = id → q < 4 → s.loadGone l = false → s.loadWaits l = false →
      alook (oqKey r.tid q) g.oq = some [(none, id)] →
      (∀ p < 4, p ≠ q → alook (oqKey r.tid p) g.oq = none) →
      ∃ s' g', exec (.aloadReturn id false) s = .next s' ∧ s'.wg r.wg = some g' ∧
        alook (oqKey r.tid q) g'.oq = some [(some (BitVec.ofNat 32 (leNat ((s.loadBytes l).1.take 4))), id)] ∧
        s'.loads = s.loads.filter (fun x => x.id != id) ∧ s'.mem = s.mem))

/-- R168 and R177: a free channel takes a core's oldest queued command, waits there for words that are claimed, asks for what it
reads in other modules (R338), and once that is there reads its sources, and settles what it will write; one that was aborted in
the queue will write nothing and has CODE 6, and a REDUCE sends its contribution. That all sources are read and all writes settled
in one step is the model's choice (log entry 17), and so, as read from the manual, are the requests that go to other modules (log
entry 89). With REL 1 the last write follows all others and comes after what the core has written is home (R151, R180); a write to
another module goes out as one request to its own place (R343). The last write of a command that succeeds in scratchpad puts its bytes there, saturates with
CODE 7, and where it lacks blocks gives the command its code; bytes whose data are found uncorrectable are not written,
their block is lost and CODE is 3, but not where a byte of a row with an exponent of its own is out (R176). A command
without writes, without a completion word and not a release hands its status word to D, and its thread's copies count
falls. -/
def Obligations.CommandsRun : Prop :=
  ∀ (s : State) (c : Copy) (t : Thread) (g : Wg), s.wg c.who.wg = some g → s.thread c.who = some t →
    s.waiters = [] → (∀ q ∈ s.stores, q.monitor = false) → MemOk s →
    (s.nextCopy c.core = none → exec (.streamerChannelStart c.core) s = .next s) ∧
    (s.nextCopy c.core = some c → c.channel = false → 8 ≤ s.channelsHeld c.core →
      exec (.streamerChannelStart c.core) s = .next s) ∧
    (s.nextCopy c.core = some c → c.channel = true ∨ s.channelsHeld c.core < 8 → s.copyWaits c = true →
      exec (.streamerChannelStart c.core) s = .next (s.modCopy c.id fun y => { y with channel := true })) ∧
    (s.nextCopy c.core = some c → c.channel = true ∨ s.channelsHeld c.core < 8 → s.copyWaits c = false →
      let s1 := if c.blk.acq && !c.aborted then s.acquire c.core (scopeOfCode c.blk.scope) else s
      let x := s1.copyPieces g c
      let s2 := x.2.dropFar c.id
      let ws := s2.copyWrites g c x.1
      (c.aborted = false → s1.copyFar g c ≠ [] → exec (.streamerChannelStart c.core) s =
        .next ((s1.askFar c.id c.part (s1.copyFar g c)).modCopy c.id fun y => { y with channel := true })) ∧
      (c.aborted = false → s1.copyFar g c = [] → c.kind ≠ 8 → exec (.streamerChannelStart c.core) s =
        .next (s2.modCopy c.id fun y =>
          { y with started := true, writes := ws, ports := s2.copyPorts ws, dests := copyDests ws })) ∧
      (c.aborted = false → s1.copyFar g c = [] → c.kind = 8 → exec (.streamerChannelStart c.core) s = .next (s2.startReduce c x.1)) ∧
      (c.aborted = true → exec (.streamerChannelStart c.core) s =
        .next (s2.modCopy c.id fun y => { y with started := true, code := 6, lost := ws.flatMap (·.all) }))) ∧
    (s.copies.find? (fun x => x.id == c.id) = some c → c.started = true →
      (∀ w, c.writes = [w] → c.rvKey = none → s.claims = [] →
        (∀ key : CopyByte → Nat, (∀ b ∈ w.bytes, b.loc = .key (key b) ∧ isScratch (key b) = true ∧
            s.still c.who (key b) 1 = true) → (w.bytes.map key).Nodup →
          let sat := w.bytes.any fun b => b.sat
          let c' := { c with writes := [], rowsOut := if c.blk.rowwise = true then (c.rowsOut ++ w.bytes.map fun b => b.row).dedup else c.rowsOut
                             code := if sat = true ∧ c.code = 0 then 7 else c.code }
          (c.blk.rel = true → w.bytes ≠ [] → c.sentWrites ≠ [] → exec (.streamerByteReport c.id false) s = .next s) ∧
          (c.blk.rel = false ∨ c.sentWrites = [] →
          ∃ s', exec (.streamerByteReport c.id false) s = .next s' ∧ (∀ b ∈ w.bytes, s'.mem.read (key b) = b.val) ∧
            (c.blk.rel = false → ∀ a, (∀ b ∈ w.bytes, key b ≠ a) → s'.mem.read a = s.mem.read a) ∧
            (c.blk.rel = true → w.bytes ≠ [] → (scopeOfCode c.blk.scope).wide = true → asorted s.l1 →
              ∀ k e, alook (l1Key c.core k) s.l1 = some e → k < 2 ^ 70 → isScratch k = false → e.dirty = true → e.rel ≤ s.clock →
                s'.mem.read k = e.val) ∧
            s'.copies.find? (fun x => x.id == c.id) = some (match w.fail with
              | none => c'
              | some code => c'.failed code w.short))) ∧
        (∀ m pa, w.bytes ≠ [] → c.blk.rel = false → (∀ (i : Nat) (b : CopyByte), w.bytes[i]? = some b → b.loc = .remote m (pa + i)) →
          ∃ s' x, exec (.streamerByteReport c.id false) s = .next s' ∧ x ∈ s'.fab.remotes ∧ x.purpose = .copy c.id w.id ∧ x.mod = m ∧
            x.paddr = pa ∧ x.body = w.bytes.map (·.val) ∧ x.type = c.flitType pa w.bytes.length ∧ s'.mem = s.mem ∧
            ∃ c', s'.copies.find? (fun y => y.id == c.id) = some c' ∧ c'.writes = [] ∧ c'.sentWrites = c.sentWrites ++ [w]) ∧
        (∀ b, w.bytes = [b] → b.src = none → (c.blk.rowwise = true → b.row ∉ c.rowsOut) → (∀ k, b.loc = .key k → isScratch k = true) →
          ∃ s' c', exec (.streamerByteReport c.id true) s = .next s' ∧ s'.mem = s.mem ∧
            s'.copies.find? (fun x => x.id == c.id) = some c' ∧ b.blk ∈ c'.lost ∧ c'.writes.flatMap (fun x => x.bytes) = [] ∧
            c'.code = if c.code = 0 ∨ c.code = 7 then 3 else c.code) ∧
        (w.bytes ≠ [] → c.blk.rowwise = true → (∀ b ∈ w.bytes, b.row ∈ c.rowsOut) →
          exec (.streamerByteReport c.id true) s = exec (.streamerByteReport c.id false) s)) ∧
      (c.writes = [] → c.sentWrites = [] → c.reducing = false → c.comp = 0 → c.blk.rel = false → c.blk.cp = false →
        t.status = .running → t.arch.frame = none →
        ∃ s' t', exec (.copyComplete c.id) s = .next s' ∧ s'.thread c.who = some t' ∧ t'.copies = t.copies - 1 ∧
          t'.arch.reg c.d = regN32 c.status ∧ t'.busy = t.busy.erase c.d ∧ (∀ x ∈ s'.copies, x.id ≠ c.id) ∧
          s'.mem = s.mem))

/-- R200, R202, R209 and R328, tile operations: one that may start is running, with an acquire of an MMA that asks for
one; the end of a pass writes its results, keeps what they replace for 320 cycles and takes the operation to its next
pass, and waits for claimed words (R155; the reading of log entry 52); the hold ends; an MMA makes one arrival at its rendezvous
word, after its release, and is done, or waits where none is left there (R208, R209); a TST converts each element of its tile and
writes it at the place that its commit settled for row·STRIDE and column (R213; in row order, all at once: log entries 18 and 67), and
uncorrectable data, those marked in scratchpad among them, stop an operation (R210); and TZERO completes with its tile's bytes zero, nothing else
of memory changed, and its thread's tiles count one less. R229, BALANCE_SWEEP: a sweep that gives potentials writes
them, counts and judges its error, as a pass of R328; one that meets a NaN ends the solve with NAN. R219 and R220,
TGEN_COMPLETE: the generator writes its descriptors and offsets, then CURSOR 0 and COUNT, then its status, COUNT·256
with its CODE (the groups of its writes are the model's choice: log entry 19); for one expert the descriptors and the number of them are those of the loop of R219 over its count, with
CODE 8 where the queue or a FIRST was too small. -/
def Obligations.ArrayRuns : Prop :=
  (∀ (s : State) (o : TileOp) (g : Wg), s.tileOps.find? (fun x => x.id == o.id) = some o → s.wg o.wg = some g →
    let op := o.cmd.op
    let go := s.modTileOp o.id fun x => { x with phase := .running }
    let b := MmaBlock.parse o.cmd.block
    (s.tileMayStart o = false → exec (.tileOpStart o.id) s = .next s) ∧
    (s.tileMayStart o = true →
      (op = .mma → exec (.tileOpStart o.id) s = .next (if b.acq then go.acquire o.core (scopeOfCode b.scope) else go)) ∧
      (op = .balance → exec (.tileOpStart o.id) s = .next (go.balanceStart g o)) ∧
      (op ≠ .mma → op ≠ .balance → exec (.tileOpStart o.id) s = .next go)) ∧
    (o.phase = .running → o.pass < o.passes → s.tileClaimed g o = true →
      ∀ bad, exec (.matrixPassEnd o.id bad) s = .next s) ∧
    (o.phase = .running → o.pass < o.passes → s.tileClaimed g o = false →
      exec (.matrixPassEnd o.id true) s = .next (s.tileUncorr g o) ∧
      let out := if op = .mma then s.mmaPass g o else if op = .pform then s.formPass g o
        else if op = .pmarg then (s.margPass g o, 0) else s.extractPass g o
      (s.passBad g o = true → exec (.matrixPassEnd o.id false) s = .next (s.tileUncorr g o)) ∧
      (s.passBad g o = false → s.heldBytes g.quad = 0 → ∃ s', exec (.matrixPassEnd o.id false) s = .next s' ∧ s'.mem = putBytes s.mem out.1 ∧
        s'.tileOps.find? (fun x => x.id == o.id) = some { o with pass := o.pass + 1 } ∧
        ∃ h ∈ s'.passHolds, h.was = o ∧ h.rel = s.clock + 320 ∧
          h.old = out.1.map fun b => (b.1, s.mem.read b.1)) ∧
      (s.passBad g o = false → s.heldBytes g.quad ≠ 0 → 81920 < s.heldBytes g.quad + out.1.length → exec (.matrixPassEnd o.id false) s = .next s)) ∧
    (∀ h, s.passHolds.find? (fun x => x.id == h.id) = some h →
      (h.rel ≤ s.clock → exec (.passHoldRelease h.id) s = .next { s with passHolds := s.passHolds.filter fun x => x.id != h.id }) ∧
      (s.clock < h.rel → exec (.passHoldRelease h.id) s = .next s)) ∧
    (∀ t, s.thread o.who = some t → t.status = .running → s.tileDone o = true → s.claims = [] → op = .tzero → o.cmd.dests = [] → MemOk s →
      ∃ s' t', exec (.tileOpComplete o.id false) s = .next s' ∧
        (∀ i < o.td.bytes, s'.mem.read (g.accKey o.td.abase + i) = 0) ∧
        (∀ a, (a < g.accKey o.td.abase ∨ g.accKey o.td.abase + o.td.bytes ≤ a) → s'.mem.read a = s.mem.read a) ∧
        s'.thread o.who = some t' ∧ t'.tiles = t.tiles - 1 ∧ s'.tileOps = s.tileOps.filter (fun x => x.id != o.id)) ∧
    (s.tileDone o = true → s.claims = [] →
      (op = .mma → exec (.tileOpComplete o.id false) s = .next (s.endMma g o)) ∧
      (op = .tst → exec (.tileOpComplete o.id false) s = .next (s.endTst g o)) ∧
      (∀ t, s.thread o.who = some t → t.status = .running → o.cmd.dests = [] → MemOk s → s.waiters = [] →
        (∀ q ∈ s.stores, q.monitor = false) → asorted s.l1 →
        let gone := fun (s' : State) => s'.tileOps = s.tileOps.filter (fun x => x.id != o.id) ∧
          ∃ t', s'.thread o.who = some t' ∧ t'.tiles = t.tiles - 1
        (∀ k, op = .mma → o.arrival = none → b.rv = true → s.scratchAt g b.rvaddr 16 = .ok k → 2 ^ 61 ≤ k →
          (∀ h ∈ s.rvHolds, h.key ≠ k) →
          let w := s.rvRead k
          let i := s.rvRead (k + 8)
          ∃ s', exec (.tileOpComplete o.id false) s = .next s' ∧
            (w.arrivals = 0 → s'.rvRead k = w ∧ ∃ h ∈ s'.rvHolds, h.key = k ∧ h.da = 1 ∧ h.db = 0 ∧ h.who = none ∧
              s'.tileOps.find? (fun x => x.id == o.id) = some { o with arrival := some h.id }) ∧
            (w.arrivals ≠ 0 → gone s') ∧
            (1 < w.arrivals ∨ (w.arrivals = 1 ∧ w.bytes % 2 ^ 40 ≠ 0) →
              s'.rvRead k = { w with arrivals := w.arrivals - 1, bytes := w.bytes % 2 ^ 40 } ∧ s'.rvRead (k + 8) = i) ∧
            (w.arrivals = 1 → w.bytes % 2 ^ 40 = 0 → s'.rvRead k = { i with phase := !w.phase } ∧
              s'.rvRead (k + 8) = { i with phase := !w.phase } ∧ s'.isFull k = true ∧ s'.isFull (k + 4) = true) ∧
            (b.rel = true → (scopeOfCode b.scope).wide = true → ∀ j e, alook (l1Key o.core j) s.l1 = some e → j < 2 ^ 61 →
              e.dirty = true → e.rel ≤ s.clock → s'.mem.read j = e.val)) ∧
        (∀ key : Nat → Nat, op = .tst → o.phase ≠ .finishing → o.stores = [] →
          let f := o.cmd.words.getD 1 0
          let n := fmtSize f.toNat
          let at' := fun (ij : Nat × Nat) => o.cmd.addr + BitVec.ofNat 64 (ij.1 * (o.cmd.words.getD 0 0).toNat + ij.2 * n)
          (∀ i ij, o.td.indices[i]? = some ij → s.tilePlace g o .store i (at' ij) = .ok (.key (key i))) →
          (∀ i i', i < i' → i' < o.td.indices.length → key i + n ≤ key i' ∨ key i' + n ≤ key i) →
          (∀ i d, i < o.td.indices.length → d < n → isScratch (key i + d) = true ∨ key i + d < 2 ^ 61) →
          ∃ s', exec (.tileOpComplete o.id false) s = .next s' ∧ gone s' ∧
            (∀ i ij, o.td.indices[i]? = some ij → s'.mem.readN (key i) n =
              natLe n (fmtEncode (f.setWidth 16) (s.tileVal g o.td ij.1 ij.2) (ctlRm f.toNat 16) (ovfOf (f.getLsbD 19))).1) ∧
            ∀ a, (∀ i, i < o.td.indices.length → a < key i ∨ key i + n ≤ a) → s'.mem.read a = s.mem.read a)) ∧
      (o.phase = .running → o.arrival = none → op ≠ .tzero →
        exec (.tileOpComplete o.id true) s = .next ((s.tldPoison g o).tileUncorr g o)))) ∧
  (∀ (s : State), (∀ (o : TileOp) (g : Wg), s.tileOps.find? (fun x => x.id == o.id) = some o → s.wg o.wg = some g →
      o.cmd.op = .balance → o.phase = .running → o.plan.stopped = false → g.saved = false →
      (s.arrayBusy g.quad o = true → exec (.balanceSweep o.id) s = .next s) ∧
      (s.arrayBusy g.quad o = false →
      let r := planSweep (s.planData g o.ta) o.ta.rows o.ta.cols
      (r.1 = none → ∃ s' o', exec (.balanceSweep o.id) s = .next s' ∧ s'.mem = s.mem ∧
        s'.tileOps.find? (fun x => x.id == o.id) = some o' ∧ o'.plan.nan = true ∧ o'.plan.stopped = true ∧
        o'.plan.k = o.plan.k) ∧
      (∀ f h, r.1 = some (f, h) → ∃ s' o', exec (.balanceSweep o.id) s = .next s' ∧
        s'.mem = putBytes s.mem (accBytes g (o.ta.fOff 0) (wordBytes (f ++ h))) ∧
        s'.tileOps.find? (fun x => x.id == o.id) = some o' ∧
        o'.plan = ({ o.plan with k := o.plan.k + 1, infeas := o.plan.infeas || r.2 } : PlanRun).judge
          { s.planData g o.ta with f := f, g := h } o.ta.rows o.ta.cols (o.cmd.words.getD 1 0).toNat
          ((o.cmd.words.getD 0 0).toNat % 2 ^ 12)))) ∧
    ∀ (x : TGen) (g : Wg), s.tgens.find? (fun y => y.id == x.id) = some x → (∀ y ∈ s.tgens, y.id = x.id → y = x) → s.wg x.who.wg = some g → x.stage = 0 →
      x.waits = [] → s.claims = [] → x.aborted = false →
      let b := GenBlk.parse x.block
      (s.farMissing x.id (s.genFar g x) ≠ [] → ∀ bad, exec (.tgenComplete x.id bad) s = .next (s.askFar x.id x.part (s.genFar g x))) ∧
      (s.farMissing x.id (s.genFar g x) = [] → b.acq = false → b.rel = false → b.cp = false →
      let s0 := (s.takeFresh).2
      (∀ (n code : Nat) (s1 s2 : State), s0.genRun g x b none = (n, code, s1) → s1.wg x.who.wg = some g →
        s1.claims = [] → s1.tgens = s.tgens →
        let y := { x with stage := 2, count := n, code := code }
        (((s1.dropFar x.id).modTgen x.id fun _ => { y with stage := 1 }).modTgen x.id fun _ => y).unitWrites g { y with stage := 1 }
          [(b.qaddr + 4, natLe 4 0), (b.qaddr, natLe 4 n)] = (true, s2) →
        s2.wg x.who.wg = some g → s2.claims = [] → s2.tgens.find? (fun y => y.id == x.id) = some y →
        (∀ z ∈ s2.tgens, z.id = x.id → z = y) →
        ∃ s3 : State, s3 = (s2.modTgen x.id fun _ => { y with stage := 3 }) ∧ exec (.tgenComplete x.id false) s =
          .next (({ (s3.dropClean x.core none).dropClean (s3.coreOf x.who) none with
            tgens := s3.tgens.filter fun y => y.id != x.id } : State).arrive x.who x.seq
            [(x.d, { val := regNat (n * 256 + code) })] .tiles)) ∧
      ∀ (c : Nat) (s1 s2 : State), b.e = 1 → b.oaddr = 0 → s0.genCount g x b false 0 = (.ok c, s1) →
        let out := genLoop b [c]
        s1.unitWrites g x (out.descs.zipIdx.map fun d => (b.qaddr + BitVec.ofNat 64 (8 + 8 * d.2), natLe 8 d.1)) = (true, s2) →
        s0.genRun g x b none = (min out.n b.qcap, if out.stopped = true ∨ b.qcap < out.n then 8 else 0, s2)))

/-- R246 and R247: the held records of a set that is not paused are routed again, oldest first, once none of their words is claimed
(the reading of log entry 52); the oldest complete
record without effects is pushed to the sink when the sink has room, with the set's count of those sunk one more; one
whose bytes have left the set's ensemble leaves the set (R378; the reading of log entry 53).
R261, R262, R266 and R267, lodges: a pending placement move is cancelled where every waiter has room on the lodge's core; another
whose lodge is quiet reserves its new pages and slot and
the lodge is MOVING; when it ends the pages' bytes are at their new place and the old ones read zero, with the next
GEN and LIVE; a lodge of at most 64 KiB in REBUILD takes its bytes from its mirror; written pages are copied to the
mirror; and the expired patience of a waiter arranges a move. -/
def Obligations.MazeAndLodgesRun : Prop :=
  (∀ (s : State) (clus num : Nat) (m : MazeSet), s.maze clus num = some m →
    (s.mazePaused m = true → exec (.mazeHeldReroute clus num) s = .next s) ∧
    (m.completing = [] → exec (.mazeRecordComplete clus num) s = .next s) ∧
    (∀ r rest, m.completing = r :: rest → s.mazeOwns m r.key 64 = true → s.mazePaused m = true ∨ s.mazeRoom m m.sink = false ∨
      s.mazeClaimed m [r] = true → exec (.mazeRecordComplete clus num) s = .next s) ∧
    (∀ r rest, m.completing = r :: rest → s.mazeOwns m r.key 64 = false → exec (.mazeRecordComplete clus num) s =
      .next (s.modMaze clus num fun x => { x with completing := rest, todo := none })) ∧
    (s.mazeClaimed m m.heldRecs = true → exec (.mazeHeldReroute clus num) s = .next s) ∧
    (s.mazePaused m = false → s.claims = [] →
      (m.heldRecs = [] → exec (.mazeHeldReroute clus num) s =
        .next ((s.modMaze clus num fun x => { x with heldRecs := [] }).mazeServe clus num)) ∧
      (∀ r, m.heldRecs = [r] → exec (.mazeHeldReroute clus num) s =
        .next (((s.modMaze clus num fun x => { x with heldRecs := [] }).mazeRoute clus num r).mazeServe clus num)) ∧
      (∀ r rest, m.completing = r :: rest → s.mazeOwns m r.key 64 = true → s.mazeRoom m m.sink = true → m.todo.getD (s.effectOrder m r.key) = [] →
        exec (.mazeRecordComplete clus num) s =
          .next (((((s.releaseAt m.core (scopeOfCode m.scope)).modMaze clus num fun x =>
            { x with completing := rest, sunk := x.sunk + 1, todo := none }).mazePush clus num 16 r).mazeServe clus num))))) ∧
  (∀ (s : State) (l : Lodge), MemOk s → (∀ x ∈ s.lodges, x.id = l.id → x = l) → l ∈ s.lodges →
    s.lodgeWaits = [] →
    (s.lodges = [l] → s.mayCancel l = true → exec (.lodgeMoveStart l.part l.name) s =
      .next (s.modLodge l.id fun x => { x with st := .live, pend := .none })) ∧
    (∀ core off slot, (∀ x ∈ s.lodges, s.mayCancel x = false) →
      s.lodges.find? (fun x => x.part == l.part && x.name == l.name && x.pend.target.isSome) = some l →
      l.pend = .place core → l.running = none → s.lodgeQuiet l none = true → s.lodgeRun l.part core l.pages false = some off →
      s.lodgeSlot core = some slot → exec (.lodgeMoveStart l.part l.name) s =
        .next ((s.modLodge l.id fun x => { x with st := .moving, running := some (core, off, slot) }).refuseWaits l.key l.bytes)) ∧
    (∀ core off slot, s.lodges.find? (fun x => x.part == l.part && x.name == l.name && x.running.isSome) = some l →
      l.pend = .place core → l.running = some (core, off, slot) →
      (l.key + l.bytes ≤ kScratch core off ∨ kScratch core off + l.bytes ≤ l.key) →
      ∃ s' l', exec (.lodgeMoveComplete l.part l.name) s = .next s' ∧ l' ∈ s'.lodges ∧ l'.id = l.id ∧ l'.st = .live ∧
        l'.core = core ∧ l'.off = off ∧ l'.slot = slot ∧ l'.gen = s.nextGen core slot l.gen ∧ l'.running = none ∧
        (∀ i < l.bytes, s'.mem.read (kScratch core off + i) = s.mem.read (l.key + i)) ∧
        (∀ i < l.bytes, s'.mem.read (l.key + i) = 0) ∧
        ∀ a, (a < l.key ∨ l.key + l.bytes ≤ a) → (a < kScratch core off ∨ kScratch core off + l.bytes ≤ a) →
          s'.mem.read a = s.mem.read a) ∧
    (∀ core off slot i k, s.lodge l.part l.name = some l → l.st = .rebuild → l.bytes ≤ 65536 → l.mirror = some i →
      (∃ rest, s.mirrorParts l.part i = some (k :: rest)) → s.refuge l false = some core →
      s.lodgeRun l.part core l.pages false = some off → s.lodgeSlot core = some slot →
      (k + l.bytes ≤ kScratch core off ∨ kScratch core off + l.bytes ≤ k) →
      ∃ s' l', exec (.lodgeRebuild l.part l.name) s = .next s' ∧ l' ∈ s'.lodges ∧ l'.id = l.id ∧ l'.st = .live ∧
        l'.core = core ∧ l'.gen = s.nextGen core slot l.gen ∧
        ∀ i < l.bytes, s'.mem.read (kScratch core off + i) = s.mem.read (k + i)) ∧
    (s.lodge l.part l.name = some l → l.placed = true →
      (∀ s', s.mirrorCopy l = some s' → exec (.lodgeMirrorCopy l.part l.name) s = .next s') ∧
      (∀ i, l.mirror = some i → s.mirrorCopy l = none → exec (.lodgeMirrorCopy l.part l.name) s =
        .next (s.postMissing l.part ((s.part l.part).mirbase + BitVec.ofNat 64 (i * 2 ^ 18)) 2))) ∧
    (∀ (w pat : Nat) (x : Launch) (a : AffWait), s.launch x.id = some x → s.waitOf x.id w = some a →
      s.governing x w = some (l, pat) → a.expired = false → pat ≠ 2 ^ 32 - 1 → a.since + pat ≤ s.clock →
      exec (.patienceExpiry x.id w) s = .next (({ s with affWaits := s.affWaits.map fun y =>
        if y = a then { a with expired := true } else y } : State).arrangeMove { a with expired := true })))

/-- R273 and R275, QUEUE_HEAD_ACTIVATE: a pending head whose waits are met becomes active, its STATUS says so and READ
advances; without one the packet at READ is captured, and one that says BADPACKET is rejected with CODE 1. R278,
LAUNCH_COMPLETE: a launch without a completion signal and without records whose workgroups have ended leaves with
STATE 2 and CODE 0 in its STATUS. R292, CONT_RECORD_READY: a waiting record whose condition holds becomes ready; one that waits for a signal has it where an
evaluation of R277 has found it. A replay that could not be made before is made first (R394). R355,
DOORBELL: a value among the claimed slots becomes WRITE; another is counted. -/
def Obligations.QueuesAndRecords : Prop :=
  ∀ (s : State) (p q : Nat) (b : QBlock), (s.part p).defined = true → (s.part p).suspended = false →
    (s.part p).resetWait = false → q < 16 → s.queueAt p q = some b → s.waiters = [] → (∀ x ∈ s.stores, x.monitor = false) →
    (∀ slots, alook q (s.part p).replayDue = some slots → exec (.queueHeadActivate p q) s = .next (s.replayQueue p q slots)) ∧
    (∀ (l : Launch) (s1 s2 : State), (s.launchesOf p q).find? (fun x => !x.active) = some l → s.launch l.id = some l →
      alook q (s.part p).replayDue = none → (∀ x ∈ (s.part p).pubs, x.1 ≠ q) → l.part = p → l.queue = q → l.active = false → l.met = true → l.pkt.serial = false →
      s.setStatus p l.slotVa (statusWord 1 0) = some s1 → s1.setQWord p q 0x14 (b.read + 1) = some s2 →
      exec (.queueHeadActivate p q) s = .next (s2.modLaunch l.id fun x => { x with active := true })) ∧
    ((s.launchesOf p q).find? (fun x => !x.active) = none → alook q (s.part p).replays = none →
      alook q (s.part p).replayDue = none → (∀ x ∈ (s.part p).pubs, x.1 ≠ q) →
      (b.en = false ∨ b.read = b.write → exec (.queueHeadActivate p q) s = .next s) ∧
      (b.en = true → b.read ≠ b.write → ∀ x, s.agentRead p (b.slotVa b.read) 128 = some x →
        let s0 := s.modPart p fun y => { y with replays := adel q y.replays }
        exec (.queueHeadActivate p q) s = .next (s0.capture' p q b x) ∧
        ((Packet.parse x).bad = true → s0.capture' p q b x = s0.reject p q b (Packet.parse x) 1))) ∧
    (∀ (l : Nat) (x : Launch) (k : Nat), s.launch l = some x → x.id = l → x.part = p → x.queue = q → s.launchDone x = true →
      asorted s.launches → (∀ y ∈ s.launches, y.2.part = p → y.2.queue = q → y.1 = l) → MemOk s → s.l1 = [] →
      x.killed = false → x.pkt.tasks = 0 → x.pkt.cv = false → (s.part p).rcbase = 0 →
      s.agentAt p .store (x.slotVa + 0x7C) = some k →
      ∃ s', exec (.launchComplete l) s = .next s' ∧ s'.launch l = none ∧
        s'.mem.readN k 4 = natLe 4 (2 * 2 ^ 30) ∧ ∀ a, (a < k ∨ k + 4 ≤ a) → s'.mem.read a = s.mem.read a) ∧
    (∀ (x : Launch) (r : Nat) (bs : List Byte), s.launch x.id = some x → r < x.recSlots →
      s.agentRead x.part (recAddr x.pkt.tasks r) 128 = some bs →
      let k := TaskRec.parse bs
      (k.state ≠ 1 → exec (.contRecordReady x.id r) s = .next s) ∧
      (k.state = 1 → s.recHolds x r k = false → (k.wkind ≠ 2 → ∀ m pa, alook r x.conts ≠ some (.remote m pa)) →
        exec (.contRecordReady x.id r) s = .next s) ∧
      (k.wkind = 2 → (s.recHolds x r k = true ↔ r ∈ x.sigMet)) ∧
      ∀ s1, k.state = 1 → s.recHolds x r k = true → s.setRecState x.part x.pkt.tasks r 2 = some s1 →
        exec (.contRecordReady x.id r) s = .next (s1.modLaunch x.id fun y => { y with ready := y.ready ++ [r], sigMet := y.sigMet.filter (· != r) })) ∧
    (∀ (v : Word), s.launches = [] → (s.part p).pubs = [] →
      (∀ s1, (v - b.write).toNat ≤ (b.resv - b.write).toNat → s.setQWord p q 0x10 v = some s1 →
        exec (.doorbell p q v) s = .next s1) ∧
      ((b.resv - b.write).toNat < (v - b.write).toNat → ∃ s', exec (.doorbell p q v) s = .next s' ∧
        alook p s'.fab.doorbellIgnored = some ((alook p s.fab.doorbellIgnored).getD 0 + 1) ∧ s'.mem = s.mem))

/-- R280 and R281, WORKGROUP_PLACE: a cluster places the lowest reserved workgroup that is not placed, and its turn of
the cycle is taken; without one the first partition in turn reserves its next ensemble where it fits, and waits begin
where none does; a cluster places none while the clock stands still or when its turn of the cycle is taken. R282 and
R285, PREEMPT and PREEMPT_SAVE: the workgroup that R282 names is being pre-empted, and one that is an ensemble of its
own and has drained is saved, discarded where it is in an IDEM region then (R288), or event 9 tells of a page of its image that cannot be written (R394). R287, RESTORE: a
saved workgroup that fits a quadrant, a borrowed one where it fits none of its partition's (R284), and whose governing lodge's core has no seat for it but there (R264), takes part
there again; one that was discarded is among the candidates instead (R288). -/
def Obligations.PlacingAndPreempting : Prop :=
  ∀ (s : State) (w : Nat) (g : Wg), s.wg w = some g → g.id = w →
    (∀ clus quad, clus < 24 → s.sys.power.gated = false →
      (∀ p, alook clus s.turns = some (p, s.clock + 1) → exec (.workgroupPlace clus quad) s = .next s) ∧
      ((∀ p, alook clus s.turns ≠ some (p, s.clock + 1)) →
        (s.midPlacing clus = some g → ∃ s' g', exec (.workgroupPlace clus quad) s = .next s' ∧ s'.wg w = some g' ∧
          g'.here = true ∧ g'.placedAt = s.us ∧ alook clus s'.turns = some (g.part, s.clock + 1) ∧ s'.clock = s.clock) ∧
        (s.midPlacing clus = none →
          let z := s.cancelMoves
          let ps := (z.turnOrder clus).filter fun p => (z.part p).defined && !(z.part p).suspended && !(z.part p).resetWait
          let s0 := forEach (fun (y : State) p => if (y.candidates p).isEmpty = true then y else y.seekQueues p) z ps
          ((∀ p ∈ ps, s0.placeable p clus quad = none) →
            exec (.workgroupPlace clus quad) s = .next ((s0.startWaits clus).retryMoves clus)) ∧
          ∀ p rest l s1, ps = p :: rest → s0.placeable p clus quad = some (l, s1) → s1.launch l.id = some l →
            ∃ s' l', exec (.workgroupPlace clus quad) s = .next s' ∧ s'.launch l.id = some l' ∧
              l'.nextEns = l.advance.nextEns ∧ l'.redo = l.advance.redo))) ∧
    (∀ prio, s.wants g.part = some prio → s.victim g.part prio = some g → g.ended = false →
      (∀ x ∈ s.ensemble g, x.id = w → x = g) →
      ∃ s' g', exec (.preempt w) s = .next s' ∧ s'.wg w = some g' ∧ g'.preempting = true) ∧
    (s.ensemble g = [g] → g.preempting = true → g.saved = false → s.drainedFor g = true →
      let lost := fun (y : Wg) => if g.inIdem = true then none else s.saveLost g.part y.img y.imgLen
      ((∀ y, (s.saveEns g [g]).wg w = some y → lost y = none) → ∃ s' g', exec (.preemptSave w) s = .next s' ∧
        s'.wg w = some g' ∧ g'.saved = true ∧ g'.quad = g.quad ∧ g'.discarded = g.inIdem) ∧
      ∀ y a, (s.saveEns g [g]).wg w = some y → lost y = some a → exec (.preemptSave w) s = .next (s.postMissing g.part a 2)) ∧
    ((∃ x ∈ s.ensemble g, s.drainedFor x = false) → exec (.preemptSave w) s = .next s) ∧
    (∀ quad, s.ensemble g = [g] → g.saved = true → g.discarded = true → exec (.restore w quad) s = .next s) ∧
    (∀ quad, s.ensemble g = [g] → g.saved = true → g.discarded = false → s.sys.power.gated = false →
      let loans := s.loansFor g (quad / 32)
      s.fitsAgain g loans quad = true → quad < 768 → s.mazesFit g.launch g.ensid (quad / 32) = true → s.preferred g [] loans quad = true →
      (s.part g.part).suspended = false → (s.part g.part).resetWait = false →
      ∃ s' g', exec (.restore w quad) s = .next s' ∧ s'.wg w = some g' ∧ g'.saved = false ∧ g'.quad = quad ∧
        g'.preempting = false ∧ g'.off = g.off ∧ g'.placedAt = s.us ∧ (quad ∈ loans → (s'.quad quad).part = some g.part))

/-- R284 and R265, QUADRANT_RECLAIM and LEASE_END: a home partition whose workgroup would fit takes its lent quadrant
back; a borrowed quadrant that has been reclaimed and holds no workgroup and no lodge returns to its home at the end of its lease, and the
workgroups on another are evicted. R294, TT_SLOT_START and TT_SLOT_SKIP: a slot that has ended gives way to the next
entry, whose packet is submitted; a slot that ends with its submission deferred is skipped, with event code 4 in the
meter log, once its packet's STATUS could be written (R394). -/
def Obligations.LoansAndTables : Prop :=
  ∀ (s : State) (q p : Nat),
    (∀ h, (s.quad q).home = some h →
      (s.reclaims h = some q → s.wouldFit h q = true → ∃ s', exec (.quadrantReclaim q) s = .next s' ∧
        (s'.quad q).reclaim = some s.us) ∧
      (s.reclaims h ≠ some q ∨ s.wouldFit h q = false → exec (.quadrantReclaim q) s = .next s)) ∧
    ((s.quad q).reclaim = none → exec (.leaseEnd q) s = .next s) ∧
    (∀ since, (s.quad q).part = some p → (s.quad q).home ≠ some p → (s.quad q).reclaim = some since → s.lodgesOn q = [] →
      (s.wgsOn q = [] → ∃ s', exec (.leaseEnd q) s = .next s' ∧ (s'.quad q).part = (s.quad q).home ∧
        (s'.quad q).reclaim = none ∧ s'.mem = s.mem) ∧
      ∃ s', exec (.leaseEnd q) s = .next s' ∧ ∀ g ∈ s.wgsOn q, s.wg g.id = some g → g.ended = false →
        ∃ g', s'.wg g.id = some g' ∧ g'.preempting = true) ∧
    ((s.quad q).part = none → exec (.leaseEnd q) s = .next s) ∧
    let x := s.part p
    x.defined = true → x.ttOn = true → x.suspended = false → x.resetWait = false →
      (∀ e, x.tt.deferred = false → x.tt.ends ≤ s.us → s.ttEntry p x.tt.entry = some e →
        let s1 := s.modPart p fun y => { y with tt := { y.tt with
          entry := (x.tt.entry + 1) % 256, ends := (if x.tt.ends = 0 then s.us else x.tt.ends) + e.slot } }
        (e.en = false → exec (.ttSlotStart p) s = .next s1) ∧
        (∀ s2, e.en = true → s1.ttSubmit p e = .ok s2 → exec (.ttSlotStart p) s = .next s2) ∧
        ∀ a, e.en = true → s1.ttSubmit p e = .error a → exec (.ttSlotStart p) s =
          .next ((s1.modPart p fun y => { y with tt := { y.tt with deferred := true } }).postMissing p a 2)) ∧
      (x.tt.deferred = false → s.us < x.tt.ends → exec (.ttSlotStart p) s = .next s) ∧
      (x.tt.deferred = true → x.tt.ends ≤ s.us →
        (s.ttEntry p x.tt.present = none → exec (.ttSlotSkip p) s = .next (s.postMissing p (x.ttAddr x.tt.present) 2)) ∧
        ∀ y, s.ttEntry p x.tt.present = some y →
          let told := s.agentWrite p (y.pkt + 0x7C) (natLe 4 (statusWord 3 7).toNat)
          (told = none → exec (.ttSlotSkip p) s = .next (s.postMissing p (y.pkt + 0x7C) 2)) ∧
          (told ≠ none → ∃ s', exec (.ttSlotSkip p) s = .next s' ∧
            (s'.part p).tt.deferred = false ∧ ∃ e ∈ s'.sys.events, e.code = 4 ∧ e.part = p)) ∧
      (x.tt.deferred = false → exec (.ttSlotSkip p) s = .next s)

/-- R323 and R289, RESET_WRITE and HOST_RESET_REQUEST: a reset gives a partition the next values of G and of its epoch,
and none of its launches, workgroups and threads is left; the meter log has event code 10. One whose next G is blocked
waits. R293: the loss of a die posts event 5 and resets the partition where one alone holds a quadrant there. R289: a
value of G that was blocked 4 ms ago, and of which no agent holds a transaction, is free. R316 and R317: the watchdog of
a workgroup fires once, and the end of its grace period resets its partition. -/
def Obligations.ResetsAndWatchdogs : Prop :=
  ∀ (s : State) (p : Nat), (s.part p).defined = true → s.waiters = [] → (∀ x ∈ s.stores, x.monitor = false) →
    (∀ i ∈ [Instr.resetWrite p, .hostResetRequest p],
      (s.nextBlocked p = true → exec i s = .next (s.modPart p fun x => { x with resetWait := true })) ∧
      (s.nextBlocked p = false → ∃ s', exec i s = .next s' ∧ (s'.part p).gen = ((s.part p).gen + 1) % 1024 ∧
        (s'.part p).epoch = ((s.part p).epoch + 1) % 2 ^ 32 ∧ (∀ l ∈ s'.launches, l.2.part ≠ p) ∧
        (∀ g ∈ s'.wgs, g.2.part ≠ p) ∧ (∀ x ∈ s'.threads, ∀ g, (x.1 / 1024, g) ∈ s.wgs → g.part ≠ p) ∧
        ∃ e ∈ s'.sys.events, e.code = 10 ∧ e.part = p)) ∧
    (∀ die, (s.parts.filter fun x => x.2.defined && (s.held' x.1).any fun q => q / 384 == die) = [(p, s.part p)] →
      exec (.dieReset die) s = .next ((s.postEvent p 5 [BitVec.ofNat 32 die]).resetPart p)) ∧
    (∀ g b, s.genBlocks.find? (fun x => x.part == p && x.gen == g) = some b →
      let used := (∃ w ∈ s.walks, w.part = p ∧ w.gen = g) ∨ ∃ x ∈ s.fab.remotes, x.part = p ∧ x.gen = g
      (s.us < b.since + 4000 ∨ used → exec (.genQuarantineRelease p g) s = .next s) ∧
      (b.since + 4000 ≤ s.us → ¬ used → (s.part p).gen ≠ g → (s.part p).resetWait = false →
        exec (.genQuarantineRelease p g) s =
          .next { s with genBlocks := s.genBlocks.filter fun x => !(x.part == p && x.gen == g) })) ∧
    ∀ w g, s.wg w = some g → g.part = p →
      (g.due = false → exec (.watchdogFire w) s = .next s) ∧
      (g.due = true → ∃ s' g', exec (.watchdogFire w) s = .next s' ∧ s'.wg w = some g' ∧ g'.fired = true ∧
        g'.grace = some s.us ∧ g'.due = false) ∧
      (∀ t, g.grace = some t → g.ended = false → t + (s.creg p 0x19).toNat ≤ s.us →
        exec (.watchdogGraceExpiry w) s = .next (s.resetPart p)) ∧
      (∀ t, g.grace = some t → s.us < t + (s.creg p 0x19).toNat → exec (.watchdogGraceExpiry w) s = .next s)

/-- R327 and R329: a strike is counted; the 65th of a core within a millisecond loses the core, and fewer discard what
is not released in its zone: a running thread is ready at the start of its run. Cores that are lost, one or those of a
cluster at once, are so for good, with their quadrants. R290: a channel that is retired scales minima that no longer
fit. R322: TLBINV drops the translations that it names and no others. -/
def Obligations.StrikesAndLosses : Prop :=
  ∀ (s : State) (core : Nat), core < 192 →
    let log := (s.strikeLog.filter fun x => decide (s.us < x.2 + 1000)) ++ [(core, s.us)]
    let s1 : State := { s with strikes := aput core ((alook core s.strikes).getD 0 + 1) s.strikes, strikeLog := log }
    (64 < (log.filter fun x => x.1 == core).length → exec (.strike core) s = .next (s1.loseCores [core])) ∧
    ((log.filter fun x => x.1 == core).length ≤ 64 → exec (.strike core) s = .next (s1.replayZone core)) ∧
    (∀ (r : TRef) (t : Thread) (g : Wg), (log.filter fun x => x.1 == core).length ≤ 64 → r.acc = false → r.tid < 512 →
      s.threads = [(r.key, t)] → s.wgs = [(r.wg, g)] → g.quad / 4 = core → t.status = .running → t.stop = none → s.cur = none →
      s.held = [] → s.passHolds = [] → s.undo = [] → s.loads = [] → s.waiters = [] → s.stores = [] → s.tileOps = [] →
      s.rvHolds = [] → t.run.mates = [] →
      ∃ s' t', exec (.strike core) s = .next s' ∧ s'.thread r = some t' ∧ t'.arch.pc = t.run.snap.pc ∧
        t'.arch.preds = t.run.snap.preds ∧ t'.status = .ready s.clock 0 ∧ t'.run.buf = [] ∧ s'.mem = s.mem ∧
        alook core s'.strikes = some ((alook core s.strikes).getD 0 + 1)) ∧
    (∀ cs : List Nat, (∀ c ∈ cs, c ∈ s.lostCores ∨ 192 ≤ c) → exec (.coreLoss cs) s = .next s) ∧
    (∀ cs : List Nat, cs ≠ [] → (∀ c ∈ cs, c < 192 ∧ c ∉ s.lostCores) → s.wgs = [] → s.lodges = [] →
      ∃ s', exec (.coreLoss cs) s = .next s' ∧
        (∀ c ∈ cs, c ∈ s'.lostCores ∧ ∀ i < 4, (s'.quad (c * 4 + i)).lostCore = true)) ∧
    (∀ chan, chan < 256 → chan ∉ s.retiredChannels →
      let left := 256 - (s.retiredChannels.length + 1)
      let s2 : State := { s with retiredChannels := s.retiredChannels ++ [chan] }
      let sum := fun (f : PartLimits → Nat) => (s.definedParts.map fun p => f (s.part p).lim).sum
      (sum (·.hbmSize) ≤ left * (hbmBytes / 256) → sum (·.hbmBw) ≤ left * 102400000000 →
        exec (.memoryChannelRetire chan) s = .next s2) ∧
      ∀ (p : Nat) (x : Part), s.parts = [(p, x)] → x.defined = true → x.evqBase = 0 →
        left * (hbmBytes / 256) < x.lim.hbmSize → ∃ s', exec (.memoryChannelRetire chan) s = .next s' ∧
          (s'.part p).lim.hbmSize = max 1 (x.lim.hbmSize * (left * (hbmBytes / 256)) / x.lim.hbmSize) ∧
          s'.retiredChannels = s.retiredChannels ++ [chan]) ∧
    ∀ (p : Nat) (v : Word),
      let a := (s.creg p 0x1C).toNat % 2 ^ 25 * 2 ^ 32 + v.toNat / 2 ^ 16 * 2 ^ 16
      ∃ s', exec (.tlbinvWrite p v) s = .next s' ∧ s'.threads = s.threads ∧ s'.mem = s.mem ∧
        ∀ e, e ∈ s'.tlb ↔ e ∈ s.tlb ∧ ¬ (e.part = p ∧ (v.getLsbD 0 = true ∨ (e.base ≤ a ∧ a < e.base + e.size)))

/-- R332 to R336, ports: an idle flit with its CRC returns its ACK, and the flits that it covers are held no more; a
flit whose CRC does not hold is dropped; a flit with the expected SEQ is accepted, and one with another SEQ is not. Link
control begins and ends a retrain that the other end has begun (R333); a mask with a lane that has failed here is not
taken, and the port trains once more without that lane (log entry 86). An ACK is returned for the flits accepted; the
failure of a lane in use leaves the port retraining to the first width without it, or down; the end of a retrain starts
a replay; a port is restored to its full width; a flit that is 1 ms old is dropped. -/
def Obligations.PortsAndFlits : Prop :=
  ∀ (s : State) (n : Nat), n < 12 →
    let p := s.port n
    (∀ bs : List Byte, p.down = false →
      let f := Flit.parse bs
      (crcHolds bs = false → exec (.flitReceive n bs) s = .next (s.modPort n fun p => p.dropOne s.fab.modId s.us)) ∧
      (crcHolds bs = true → f.type = 0 → p.waiting = [] →
        exec (.flitReceive n bs) s = .next (s.modPort n fun p => p.acked f.ack)) ∧
      (crcHolds bs = true → f.type ≠ 0 → f.seq ≠ p.expect →
        exec (.flitReceive n bs) s = .next (s.modPort n fun p => p.dropOne s.fab.modId s.us)) ∧
      (crcHolds bs = true → 0 < f.type → f.type < 11 → f.seq = p.expect → p.waiting = [] →
        exec (.flitReceive n bs) s = .next ((s.modPort n fun p => ({ p with
          expect := (p.expect + 1) % 65536, nakSent := false, unacked := p.unacked + 1 } : Port).acked f.ack).takeFlit (portSite n) none f)) ∧
      (crcHolds bs = true → f.type = 11 → f.seq = p.expect → p.waiting = [] → ∃ s', exec (.flitReceive n bs) s = .next s' ∧
        ((f.body.getD 0 0).toNat = 1 → (s'.port n).retraining = true ∧ (p.retraining = false → (s'.port n).asked = true)) ∧
        let w := leNat ((f.body.drop 2).take 2)
        ((f.body.getD 0 0).toNat = 2 → p.retraining = true → p.asked = true →
          ((∀ l ∈ p.failed, w / 2 ^ l % 2 = 0) → (s'.port n).retraining = false ∧ (s'.port n).mask = w) ∧
          ∀ l ∈ p.failed, w / 2 ^ l % 2 = 1 → ∀ m, widthFor p.failed = some m →
            (s'.port n).retraining = true ∧ (s'.port n).asked = false ∧ (s'.port n).mask = m))) ∧
    (∀ bs, p.down = true → exec (.flitReceive n bs) s = .next s) ∧
    (p.unacked ≠ 0 → p.retraining = false → exec (.ackReturn n) s = .next (s.modPort n fun p => { p with unacked := 0 })) ∧
    (p.unacked = 0 → exec (.ackReturn n) s = .next s) ∧
    (∀ lane, lane < 16 → lane ∉ p.failed → p.down = false → p.mask / 2 ^ lane % 2 = 1 →
      (∀ m, widthFor (insNat lane p.failed) = some m → ∃ s', exec (.laneFailure n lane) s = .next s' ∧
        (s'.port n).mask = m ∧ (s'.port n).retraining = true ∧ (s'.port n).down = false ∧
        ∀ l, l ∈ (s'.port n).failed ↔ l = lane ∨ l ∈ p.failed) ∧
      (widthFor (insNat lane p.failed) = none → s.fab.remotes = [] → ∃ s', exec (.laneFailure n lane) s = .next s' ∧
        (s'.port n).down = true ∧ (s'.port n).held = [])) ∧
    (∀ a, p.retraining = true → p.asked = true → exec (.linkRetrainDone n a) s = .next s) ∧
    (∀ a, p.retraining = true → p.asked = false → p.waiting = [] → (∀ x ∈ s.parts, x.2.defined = false) →
      ∃ s' x, exec (.linkRetrainDone n a) s = .next s' ∧ (s'.port n).retraining = false ∧
        (s'.port n).held = (p.acked a).held ++ [x] ∧ x.2.2.type = 11 ∧ x.2.2.body = [2, 0] ++ natLe 2 p.mask ∧
        (s'.port n).replay = (p.acked a).held.head?.map (·.1)) ∧
    (∀ q, q.defined = true → q.evqBase = 0 → s.parts = [(0, q)] → p.retraining = true → p.asked = false → ∃ s',
      exec (.linkRetrainDone n 0) s = .next s' ∧ alook 3 (s'.part 0).missed = some ((alook 3 q.missed).getD 0 + 1)) ∧
    (∃ s', exec (.linkRestore n) s = .next s' ∧ (s'.port n).failed = [] ∧ (s'.port n).mask = 0xFFFF ∧
      (s'.port n).down = false ∧ (s'.port n).retraining = true ∧
      (p.retraining = true ∨ p.down = true → (s'.port n).held = p.held) ∧
      (p.retraining = false → p.down = false → ∃ x, (s'.port n).held = p.held ++ [x] ∧ x.2.2.type = 11 ∧ x.2.2.body = [1])) ∧
    ∀ seq t f, (seq, t, f) ∈ p.held → t + 1000 ≤ s.us → ∃ s', exec (.flitExpire n seq) s = .next s' ∧
      ∀ x, x ∈ (s'.port n).held ↔ x ∈ p.held ∧ ¬ (x.1 = seq ∧ x.2.1 + 1000 ≤ s.us)

/-- R338, R340 and R342, requests of peers that are not stale: one that the access-control list permits is performed and
answered; a read answers the bytes, a write changes them, an atomic begins at its port (R153), and a launch enters its
packet in the queue of its window, or event 9 tells of a structure that cannot be reached (R394); one that is not
permitted, or whose queue is not enabled or is full, changes nothing, is answered with a denial, and enters the meter log
with event code 3. A module in S3 performs none. The port of an answer is log entry 35, the body of a request, and what
generation and epoch of a peer the module has learned, log entry 36, a launch by a write and its answer log entry 40, and an
atomic under way at its port log entry 76. R339, responses: the
data of a load that another module answers in time reach its register; a failed load leaves it poisoned, with REMOTE,
and so does one that 2 ms leave without a response; a response that comes later changes nothing. R340, PEER_ACL_WRITE:
the entry is the one given. -/
def Obligations.PeersAndResponses : Prop :=
  (∀ (s : State) (r : PeerReq) (n : Nat), s.portFor r.srcMod = some n → (s.port n).may = true → (s.port n).waiting = [] →
    MemOk s → s.waiters = [] → (∀ x ∈ s.stores, x.monitor = false) → s.rmws = [] → s.sys.power ≠ .s3 →
    let known := alook (peerKey none r.srcMod r.srcPart) s.fab.peers
    let k := kHbm (r.paddr % 2 ^ 44)
    let answers := fun (s' : State) (type len : Nat) (body : List Byte) => ∃ x, (s'.port n).held = (s.port n).held ++ [x] ∧
      x.2.2.type = type ∧ x.2.2.len = len ∧ x.2.2.body = body ∧ x.2.2.dstMod = r.srcMod ∧ x.2.2.dstPart = r.srcPart ∧
      x.2.2.tid = r.tid ∧ x.2.2.gen = r.gen ∧ x.2.2.epoch = r.epoch
    (∀ g, known = some (g, r.epoch) → g ≠ r.gen → exec (.peerRequest r) s = .next s) ∧
    (known = none ∨ known = some (r.gen, r.epoch) →
      (s.peerMay r = none → ∃ s', exec (.peerRequest r) s = .next s' ∧ s'.mem = s.mem ∧
        answers s' (r.kind + 1) (if r.kind = 1 ∨ r.kind = 5 then 0 else 1) [1] ∧
        ∃ e ∈ s'.sys.events, e.code = 3 ∧ e.part = (s.dstPart r).getD 255) ∧
      (∀ p, s.peerMay r = some p → r.kind = 1 → (∀ i < r.len, s.isPoisoned (k + i) = false) → ∃ s',
        exec (.peerRequest r) s = .next s' ∧ s'.mem = s.mem ∧ answers s' 2 r.len (s.mem.readN k r.len)) ∧
      (∀ p, s.peerMay r = some p → r.kind = 3 → isWindow r.paddr = false → ∃ s',
        exec (.peerRequest r) s = .next s' ∧ answers s' 4 1 [0] ∧ (∀ i b, r.data[i]? = some b → s'.mem.read (k + i) = b) ∧
        ∀ a, (a < k ∨ k + r.data.length ≤ a) → s'.mem.read a = s.mem.read a) ∧
      (∀ p o, s.peerMay r = some p → r.kind = 5 → peerAtom r = some o → (∀ i < o.size, s.isPoisoned (k + i) = false) → s.l1 = [] →
        ∃ s' x, exec (.peerRequest r) s = .next s' ∧ s'.mem = s.mem ∧ s'.rmws = [x] ∧ x.key = k ∧
          x.old = s.mem.readN k o.size ∧ x.req = some (none, r) ∧ (s'.port n).held = (s.port n).held)) ∧
    (isWindow r.paddr = false → exec (.peerLaunch r) s = .next s) ∧
    (∀ p w s1, known = some (r.gen, r.epoch) → s.peerMay r = some p → peerWhat r = some PeerKind.launch →
      s.submit p (r.paddr / 0x80 % 16) r.data = .ok (w, s1) → w.toNat < 2 ^ 30 → s1.fab = s.fab → ∃ s',
        exec (.peerLaunch r) s = .next s' ∧ s'.mem = s1.mem ∧ answers s' (r.kind + 1) 1 [0]) ∧
    (∀ p w s1, known = some (r.gen, r.epoch) → s.peerMay r = some p → peerWhat r = some PeerKind.launch →
      s.submit p (r.paddr / 0x80 % 16) r.data = .ok (w, s1) → 2 ^ 30 ≤ w.toNat → ∃ s',
        exec (.peerLaunch r) s = .next s' ∧ s'.mem = s.mem ∧ answers s' (r.kind + 1) 1 [1] ∧
        ∃ e ∈ s'.sys.events, e.code = 3 ∧ e.part = (s.dstPart r).getD 255) ∧
    ∀ p a, known = some (r.gen, r.epoch) → s.peerMay r = some p → peerWhat r = some PeerKind.launch →
      s.submit p (r.paddr / 0x80 % 16) r.data = .error a → exec (.peerLaunch r) s = .next (s.postMissing p a 2)) ∧
  (∀ (s : State) (r : PeerReq), s.rmws = [] → s.sys.power = .s3 → exec (.peerRequest r) s = .next s ∧
    exec (.peerLaunch r) s = .next s) ∧
  (∀ (s : State) (x : Remote) (l : PLoad) (t : Thread) (d : Nat) (tag : Half) (n : Nat),
    s.fab.remotes.find? (fun y => y.id == x.id) = some x → x.purpose = .load l.id →
    s.loads.find? (fun y => y.id == l.id) = some l → l.who.acc = false → l.kind = .plain → l.fwd = [] →
    l.dests = dest1 d tag n false → s.thread l.who = some t → t.status = .running → t.acqDrop = false →
    t.arch.frame = none → s.waiters = [] → (∀ p ∈ s.stores, p.monitor = false) →
    let ended := fun (s' : State) (t' : Thread) => s'.thread l.who = some t' ∧ t'.loads = t.loads - 1 ∧
      t'.busy = t.busy.erase d ∧ (∀ y ∈ s'.fab.remotes, y.id ≠ x.id) ∧ (∀ y ∈ s'.loads, y.id ≠ l.id) ∧ s'.mem = s.mem
    let marked := fun (t' : Thread) (c : Code) => ∃ f, (t'.arch.regs.get d).poison = some f ∧ f.code = c ∧ f.addr = l.addr
    (s.us < x.deadline →
      (∀ data : List Byte, data.length = l.len → n ≤ l.len → ∃ s' t', exec (.remoteResponse x.id 0 data) s = .next s' ∧
        ended s' t' ∧ t'.arch.regs.get d = { val := { bits := BitVec.ofNat 32 (leNat (data.take n)), tag := tag } }) ∧
      (∃ s' t', exec (.remoteResponse x.id 1 []) s = .next s' ∧ ended s' t' ∧ marked t' .remote) ∧
      (∃ s' t', exec (.remoteResponse x.id 2 []) s = .next s' ∧ ended s' t' ∧ marked t' .uncorr) ∧
      ((s.portFor x.mod).isSome = true → exec (.remoteTimeout x.id) s = .next s)) ∧
    (x.deadline ≤ s.us → (∀ st data, exec (.remoteResponse x.id st data) s = .next s) ∧
      ∃ s' t', exec (.remoteTimeout x.id) s = .next s' ∧ ended s' t' ∧ marked t' .remote) ∧
    ∀ i e, i < 512 → ∃ s', exec (.peerAclWrite i e) s = .next s' ∧ alook i s'.fab.acl = some e ∧ s'.mem = s.mem ∧
      ∀ j, j ≠ i → alook j s'.fab.acl = alook j s.fab.acl)

/-- R346 to R350, reductions: a group has the members and the timeout given, 100 ms for 0; a round whose contributions
are all there gives the command its writes, each element the sum, maximum or minimum of R348; a failed round has CODE 5,
a denied one 2 with event code 3 in the meter log, and one past its timeout 4; where a member has contributed twice to a
round, both its commands fail. What REDUCTION_RESULT carries is log entry 39, and whose request a result is log entry 88. R352, frames: a reserved field that is not 0 is counted, and a flit of a
TYPE that is undefined (R333), a frame out of order changes only what its FACK covers, one in order is accepted, and a
frame without a FACK for 100 µs is sent again (log entry 42), and a FACK not told yet goes out with it (log entry 108). -/
def Obligations.ReductionsAndFrames : Prop :=
  ∀ (s : State),
    (∀ p g m t, (s.part p).defined = true → g < 256 → 2 ≤ m.length → m.length ≤ 9216 → ∃ s',
      exec (.reductionGroupDefine p g m t) s = .next s' ∧
      s'.fab.groups.find? (fun y => y.part == p && y.group == g) =
        some { part := p, group := g, members := m, timeout := if t = 0 then 100000 else t }) ∧
    (∀ (x : RedRound) (c : Copy) (w : Wg) (g : RedGroup), s.fab.rounds = [x] → x.copy = c.id →
      s.copies.find? (fun y => y.id == c.id) = some c → s.wg c.who.wg = some w →
      s.fab.groups.find? (fun y => y.part == x.part && y.group == x.group) = some g → x.waiting = false →
      let ended := fun (i : Instr) (c' : Copy) => ∃ s', exec i s = .next s' ∧ s'.fab.rounds = [] ∧ s'.mem = s.mem ∧
        s'.copies.find? (fun y => y.id == c.id) = some c'
      ended (.reductionResult c.id 1 []) (c.redFail 5) ∧ ended (.reductionResult c.id 2 []) (c.redFail 2) ∧
      (s.us < x.deadline → exec (.reductionTimeout c.id) s = .next s) ∧
      (x.deadline ≤ s.us → ended (.reductionTimeout c.id) (c.redFail 4)) ∧
      ∀ (ls : List (List Nat)), ls.length + 1 = g.members.length → (∀ l ∈ ls, l.length = c.data.length) →
        let piece := fun (d : Nat × Nat) =>
          let v := redElem c.blk (d.1 :: ls.map fun l => l.getD d.2 0)
          ({ dst := .far (addOff c.blk.xaddr ((d.2 * c.blk.esize : Nat) : Int)), data := .ok (natLe c.blk.esize v.1), row := 0,
             sat := v.2 &&& fSAT != 0, src := none } : Piece)
        (∀ m, s.redDenied x.part g = some m → ended (.reductionResult c.id 0 ls) (c.redFail 2) ∧
          ∀ s', exec (.reductionResult c.id 0 ls) s = .next s' → ∃ e ∈ s'.sys.events, e.code = 3 ∧ e.part = x.part) ∧
        (s.redDenied x.part g = none → ended (.reductionResult c.id 0 ls) { c with writes := s.copyWrites w c (c.data.zipIdx.map piece), reducing := false })) ∧
    (∀ (x y : RedRound) (c d : Copy) (w : Wg) (g : RedGroup), s.fab.rounds = [x, y] → x.copy = c.id → y.copy = d.id → c.id ≠ d.id →
      s.copies = [c, d] → s.wg c.who.wg = some w → s.fab.groups.find? (fun z => z.part == x.part && z.group == x.group) = some g →
      x.waiting = false → y.waiting = false → y.part = x.part → y.group = x.group → y.round = x.round →
      ∀ st ls, ∃ s', exec (.reductionResult c.id st ls) s = .next s' ∧ s'.fab.rounds = [] ∧ s'.mem = s.mem ∧
        s'.copies = [c.redFail 5, d.redFail 5]) ∧
    (∀ (n : Nat) (b : List Byte), n < 2 →
      let h := Prefix.parse b
      let f := Flit.parse (b.drop 16)
      let y := (s.pairFor h.srcDom f.srcMod).acked h.fack
      (h.bad = true → ∃ s', exec (.scaleOutFrameReceive n b) s = .next s' ∧
        alook n s'.fab.etherErrors = some ((alook n s.fab.etherErrors).getD 0 + 1) ∧ s'.fab.pairs = s.fab.pairs) ∧
      (h.bad = false → h.dstDom ≠ s.fab.domain ∨ crcHolds (b.drop 16) = false → exec (.scaleOutFrameReceive n b) s = .next s) ∧
      (h.bad = false → h.dstDom = s.fab.domain → crcHolds (b.drop 16) = true →
        (h.aonly = true ∨ h.fseq ≠ y.expect → exec (.scaleOutFrameReceive n b) s = .next (s.setPair y)) ∧
        (h.aonly = false → h.fseq = y.expect → f.type = 3 ∨ f.type = 4 ∨ f.type = 9 ∨ f.type = 10 →
          exec (.scaleOutFrameReceive n b) s =
            .next ((s.setPair { y with expect := (y.expect + 1) % 65536 }).takeFlit (portSite (12 + n)) (some h.srcDom) f)) ∧
        (h.aonly = false → h.fseq = y.expect → 12 ≤ f.type → ∃ s', exec (.scaleOutFrameReceive n b) s = .next s' ∧
          alook n s'.fab.etherErrors = some ((alook n s.fab.etherErrors).getD 0 + 1) ∧ s'.mem = s.mem))) ∧
    ∀ (x : ScalePair), s.fab.pairs = [x] → ∃ s' x', exec (.scaleOutResend x.port) s = .next s' ∧ s'.fab.pairs = [x'] ∧
      x'.held.map (·.1) = x.held.map (·.1) ∧ (∀ e ∈ x'.held, s.us < e.2.1 + 100) ∧ x'.fseq = x.fseq ∧ x'.expect = x.expect ∧
      x'.told = x.fack

/-- R353 and R354, host accesses of a partition's HBM range: through BAR2 they read and write the backing memory, and a line
that a home slice holds keeps what the slice has (R166); a line that leaves its slice is in both as the slice had it where it
was written there, and else as the backing memory has it (log entry 93);
through CXL.mem a read finds a dirty byte of an L1 cache home first. A host that takes back a line of its memory has
it no longer held, with the bytes given. In S3 neither does anything (R388). R386: a page that is pulled is mapped and
event 1 posted; a failed pull changes no memory but for its event (log entry 47). R378: a range that is reassigned reads
zero. R283 and R376 to R378, partitions: one whose limits are permitted is defined from boot stage 3 on, with the next two
keys and a range of HBM that reads zero; a change gives it its new limits; a teardown leaves it undefined without keys,
workgroups, launches and lodges, with its HBM and a save area of one page reading zero (log entry 46 says when a range is
zeroed). Event codes 7 and 8 of the meter log say so. -/
def Obligations.HostAndPartitions : Prop :=
  (∀ (s : State) (p a k : Nat) (bs : List Byte), MemOk s → asorted s.l1 → s.waiters = [] → (∀ q ∈ s.stores, q.monitor = false) →
    let stored := fun (s' : State) => (∀ i b, bs[i]? = some b → s'.mem.read (k + i) = b)
    (s.hdmRange p a bs.length = none →
      ∀ w, exec (.bar2ApertureAccess p w a bs) s = .next s ∧ exec (.hostCxlMemAccess p w a bs) s = .next s) ∧
    (s.hdmRange p a bs.length = some k →
      k = (s.part p).lim.hbmBase + a ∧
      (∃ s', exec (.bar2ApertureAccess p false a bs) s = .next s' ∧
        s' = { s with sys := { s.sys with answer := s'.sys.answer } } ∧ s'.sys.answer.length = bs.length ∧
        ∀ i v, i < bs.length → ((alook (k + i) s.back = some v → s'.sys.answer[i]? = some v) ∧
          (alook (k + i) s.back = none → s'.sys.answer[i]? = some (s.mem.read (k + i))))) ∧
      (∃ s', exec (.bar2ApertureAccess p true a bs) s = .next s' ∧ s'.l1 = s.l1 ∧ s'.l2 = s.l2 ∧
        (∀ i b, bs[i]? = some b →
          (s.sliceHas (k + i) = true → s'.backByte (k + i) = b ∧ s'.mem.read (k + i) = s.mem.read (k + i)) ∧
          (s.sliceHas (k + i) = false → s'.mem.read (k + i) = b)) ∧
        ∀ x, (x < k ∨ k + bs.length ≤ x) → s'.mem.read x = s.mem.read x ∧ s'.backByte x = s.backByte x) ∧
      (s.l1 = [] → s.sys.power ≠ .s3 → ∃ s', exec (.hostCxlMemAccess p false a bs) s = .next s' ∧ s'.sys.answer = s.mem.readN k bs.length ∧
        s'.mem = s.mem) ∧
      (∀ c core, bs.length = 1 → k < 2 ^ 70 → s.l1 = [(l1Key core k, c)] → c.dirty = true → c.rel ≤ s.clock → s.sys.power ≠ .s3 →
        ∃ s', exec (.hostCxlMemAccess p false a bs) s = .next s' ∧ s'.sys.answer = [c.val] ∧ s'.mem.read k = c.val) ∧
      (s.sys.power ≠ .s3 → ∃ s', exec (.hostCxlMemAccess p true a bs) s = .next s' ∧ stored s')) ∧
    (∀ d, asorted s.l2 → asorted s.back → alook (lineKey k) s.l2 = some d →
      let z := s.dropLine k false
      z.sliceHas k = false ∧ ∀ x,
        (lineKey x = lineKey k → z.backByte x = z.mem.read x ∧ z.mem.read x = if d = true then s.mem.read x else s.backByte x) ∧
        (lineKey x ≠ lineKey k → z.backByte x = s.backByte x ∧ z.mem.read x = s.mem.read x)) ∧
    (s.sys.power = .s3 → ∀ w line, exec (.hostCxlMemAccess p w a bs) s = .next s ∧ exec (.hostCxlCacheSnoop line bs) s = .next s) ∧
    (bs.length = 128 → s.sys.power ≠ .s3 → ∀ line, ∃ s', exec (.hostCxlCacheSnoop line bs) s = .next s' ∧
      (∀ d, (lineKey (kHost line), d) ∉ s'.sys.hostLines) ∧
      ∀ i b, bs[i]? = some b → s'.mem.read (lineKey (kHost line) + i) = b) ∧
    ((s.part p).defined = true → (s.part p).evqBase = 0 →
      (∀ va, ∃ s', exec (.postcopyPagePull p va false []) s = .next s' ∧ s'.mem = s.mem ∧
        alook 8 (s'.part p).missed = some ((alook 8 (s.part p).missed).getD 0 + 1)) ∧
      (∀ va e v, e % 8 = 0 → (s.part p).lim.hbmBase ≤ e → e + 8 ≤ (s.part p).lim.hbmBase + (s.part p).lim.hbmSize →
        ∃ s', exec (.postcopyPagePull p va true [(e, v)]) s = .next s' ∧ s'.mem.readN e 8 = natLe 8 v.toNat ∧
          alook 1 (s'.part p).missed = some ((alook 1 (s.part p).missed).getD 0 + 1)) ∧
      ∀ b n, b + n ≤ hbmBytes → s.definedParts = [p] → ∃ s', exec (.hbmReassign p b n) s = .next s' ∧
        (s'.part p).lim.hbmBase = b ∧ (s'.part p).lim.hbmSize = n ∧
        (∀ i < n, s'.mem.read (b + i) = 0 ∧ s'.backByte (b + i) = 0) ∧
        ∀ x, (x < b ∨ b + n ≤ x) → s'.mem.read x = s.mem.read x)) ∧
  (∀ (s : State) (p : Nat) (l : PartLimits), MemOk s →
    let zeroed := fun (s' : State) (b n : Nat) => ∀ i < n, s'.mem.read (b + i) = 0 ∧ s'.backByte (b + i) = 0
    (s.limitsOk p l = true → p < 20 → (s.part p).defined = false → 3 ≤ s.sys.stage → ∃ s', exec (.partitionDefine p l) s = .next s' ∧
      (s'.part p).defined = true ∧ (s'.part p).lim = l ∧ s'.sys.status = some true ∧ (s'.part p).kh = s.sys.keys + 1 ∧ (s'.part p).kc = s.sys.keys + 2 ∧
      s'.sys.keys = s.sys.keys + 2 ∧ (s'.part p).gen = (s.part p).gen ∧ s'.sys.stage = 4 ∧ zeroed s' l.hbmBase l.hbmSize ∧
      (∀ q ∈ l.home, (s'.quad q).home = some p) ∧ (∃ e ∈ s'.sys.events, e.code = 7 ∧ e.part = p) ∧
      ∀ x, (x < l.hbmBase ∨ l.hbmBase + l.hbmSize ≤ x) → s'.mem.read x = s.mem.read x) ∧
    (s.limitsOk p l = false ∨ s.sys.stage < 3 ∨ (s.part p).defined = true → exec (.partitionDefine p l) s = .next (s.mailed false)) ∧
    ((s.part p).defined = false → exec (.partitionChange p l) s = .next (s.mailed false) ∧
      exec (.partitionTeardown p) s = .next (s.mailed false)) ∧
    ((s.part p).defined = true →
      (s.limitsOk p l = true → ∃ s', exec (.partitionChange p l) s = .next s' ∧ (s'.part p).lim = l ∧ (s'.part p).suspended = false ∧
        (∀ q ∈ l.home, (s'.quad q).home = some p) ∧
        ∀ i, l.hbmBase ≤ i → i < l.hbmBase + l.hbmSize → (i < (s.part p).lim.hbmBase ∨
          (s.part p).lim.hbmBase + (s.part p).lim.hbmSize ≤ i) → s'.mem.read i = 0 ∧ s'.backByte i = 0) ∧
      (s.nextBlocked p = true → exec (.partitionTeardown p) s = .next s) ∧
      (s.nextBlocked p = false → ∃ s', exec (.partitionTeardown p) s = .next s' ∧ (s'.part p).defined = false ∧
        (s'.part p).kh = 0 ∧ (s'.part p).kc = 0 ∧ (∀ x ∈ s'.lodges, x.part ≠ p) ∧ (∀ x ∈ s'.launches, x.2.part ≠ p) ∧
        (∀ x ∈ s'.wgs, x.2.part ≠ p) ∧ zeroed s' (s.part p).lim.hbmBase (s.part p).lim.hbmSize ∧
        (∃ e ∈ s'.sys.events, e.code = 8 ∧ e.part = p) ∧
        ∀ k, s.lodges = [] → 0 < ((s.discardWork p).part p).saveTop → ((s.discardWork p).part p).saveTop ≤ 4096 →
          (s.discardWork p).agentAt p .store ((s.discardWork p).part p).savebase = some k → ∀ i < 4096, s'.mem.read (k + i) = 0)))

/-- R23, R375, R379, R384, R385, R387 and R388, the custody processor and the power controller: a boot stage is done
after the one before it, where it is good, and stage 2 sets the clock to 2,100 MHz; a cap is set; the clock moves by
steps of 100 MHz between runs, and down on heat; a trip resets every partition and leaves the dies in S3, and they
leave it with stages 2 and 3 to follow; S1 is entered when no workgroup has been placed for 10 ms. Quotes and headers
are signed over what R375 and R385 name, and a meter block is closed after ten seconds, which the meter capability then
gives from its ring. What lies between runs, and the clock in S1 and S3, is log entry 43; how the partition table is
serialised and how blocks follow one another log entry 44; where a signature stands log entry 49; and that a trip writes the
lines of the slices back log entry 93. -/
def Obligations.CustodyAndPower : Prop :=
  ∀ (s : State) (n m : Nat) (bs : List Byte),
    (n = s.sys.stage + 1 → n < 4 → s.sys.power ≠ .s3 → (n = 2 → s.betweenRuns = true) → ∀ good, ∃ s', exec (.moduleBoot n bs good) s = .next s' ∧
      s'.sys.measures = s.sys.measures ++ [sha384 bs] ∧ s'.sys.failed = (if good = true then none else some n) ∧ s'.sys.stage = (if good = true then n else s.sys.stage) ∧
      (good = true → n = 2 → s'.freq = (if s.sys.hot = true then s.freq else 2100) ∧ s'.fab.domain = Config.domain % 64 ∧ s'.fab.modId = Config.moduleId % 9216 ∧
        (s.freq ≠ s'.freq → ∃ e ∈ s'.sys.events, e.code = 1 ∧ e.part = 255)) ∧ s'.mem = s.mem) ∧
    (n = 2 → s.betweenRuns = false → ∀ good, exec (.moduleBoot n bs good) s = .next s) ∧
    (n ≠ s.sys.stage + 1 → ∀ good, exec (.moduleBoot n bs good) s = .next s) ∧
    (∃ s', exec (.powerCapSet n) s = .next s' ∧ s'.sys.cap = min n 3200 ∧
      (s.sys.power = .p0 ∨ s.sys.power = .p1 → s'.sys.power = if n < 3200 then .p1 else .p0) ∧ s'.freq = s.freq) ∧
    (n = s.freq + 100 ∨ n + 100 = s.freq → 100 ≤ n → n ≤ 2100 → s.betweenRuns = true → s.sys.power.gated = false →
      s.sys.hot = false ∨ n < s.freq →
      ∃ s', exec (.powerCapAdjust n) s = .next s' ∧ s'.freq = n ∧ s'.clock = s.clock ∧
        ∃ e ∈ s'.sys.events, e.code = 1 ∧ e.part = 255) ∧
    ((n ≠ s.freq + 100 ∧ n + 100 ≠ s.freq) ∨ 2100 < n ∨ s.betweenRuns = false → exec (.powerCapAdjust n) s = .next s) ∧
    ((∃ s', exec (.thermalThrottle true) s = .next s' ∧ s'.sys.hot = true ∧
        s'.freq = if 100 < s.freq ∧ s.betweenRuns = true then s.freq - 100 else s.freq) ∧
      ∃ s', exec (.thermalThrottle false) s = .next s' ∧ s'.sys.hot = false ∧ s'.freq = s.freq) ∧
    (s.definedParts = [] → ∃ s', exec .thermalTrip s = .next s' ∧ s'.sys.power = .s3 ∧ s'.l1 = [] ∧ s'.tlb = [] ∧
      (s.back = [] → s'.mem = s.mem) ∧ (asorted s.l2 → s'.l2 = []) ∧ ∃ e ∈ s'.sys.events, e.code = 9 ∧ e.part = 255) ∧
    (s.sys.power = .s3 → ∃ s', exec .s3Exit s = .next s' ∧ s'.sys.stage = 1 ∧ s'.sys.power.gated = false) ∧
    (s.sys.power ≠ .s3 → exec .s3Exit s = .next s) ∧
    (s.sys.power.gated = false → s.anyPlaced = false → s.sys.idleSince + 10000 ≤ s.us →
      ∃ s', exec .s1Entry s = .next s' ∧ s'.sys.power = .s1) ∧
    (s.anyPlaced = true ∨ s.us < s.sys.idleSince + 10000 → exec .s1Entry s = .next s) ∧
    (s.sys.power = .s1 → ∃ s', exec .s1Exit s = .next s' ∧ s'.sys.power.gated = false) ∧
    (bs.length = 48 → ∃ s', exec (.attestationQuote bs) s = .next s' ∧
      s'.sys.quotes = s.sys.quotes ++ [signed (s.sys.measures.flatten ++ s.partTable ++ bs)]) ∧
    (bs.length ≠ 48 → exec (.attestationQuote bs) s = .next s) ∧
    (0x50 ≤ bs.length → leNat (bs.take 8) ≠ commitMagic ∨ bs.length < 0x60 → ∃ s' h, exec (.checkpointHeaderSign bs) s = .next s' ∧ s'.sys.headers = s.sys.headers ++ [h] ∧
      h.take 0x50 = bs.take 0x50 ∧ (h.drop 0x50).take 96 = (signed (bs.take 0x50) ++ List.replicate 96 0).take 96 ∧
      h.length = 256) ∧
    (0x60 ≤ bs.length → leNat (bs.take 8) = 0x4B434D54 → ∃ s' h, exec (.checkpointHeaderSign bs) s = .next s' ∧
      s'.sys.headers = s.sys.headers ++ [h] ∧ h.take 0x60 = bs.take 0x60 ∧
      h.drop 0x60 = (signed (bs.take 0x60) ++ List.replicate 96 0).take 96 ∧ h.length = 192) ∧
    (∃ s', exec (.meterRingName n m) s = .next s' ∧ s'.sys.ringBase = n ∧ s'.sys.ringSize = m ∧ s'.sys.ringPos = 0 ∧
      s'.sys.status = some true) ∧
    (s.us < s.sys.tstart + 10000000 → exec .meterBlockClose s = .next s) ∧
    (s.sys.tstart + 10000000 ≤ s.us → ∃ s', exec .meterBlockClose s = .next s' ∧ s'.sys.blockSeq = s.sys.blockSeq + 1 ∧
      let b := (s.meterRecords).2.meterBlock (s.meterRecords).1
      s'.sys.tstart = s.us ∧ s'.sys.events = [] ∧ s'.sys.prev = sha384 b ∧
      (MemOk s → s.waiters = [] → (∀ q ∈ s.stores, q.monitor = false) → b.length ≤ s.sys.ringSize → 3 ≤ s.sys.stage →
        ∀ i v, b[i]? = some v → s'.ringByte true ((s.sys.ringPos + i) % s.sys.ringSize) = some v))

/-- R382 and R383: from boot stage 3 on the capability chain of a function begins at 0x1000 of BAR0. Each entry has the
header of R382, with its length in the 32-bit word at +16, and NEXT is a multiple of 16 beyond the entry, or 0 at the end:
the chain has no cycle. The physical function announces the IDs 1 to 4, and a virtual one 1 and 4. What an entry holds
behind its length lies where the model puts it, as its VERSION is the model's (log entry 82). -/
def Obligations.CapabilityChain : Prop :=
  ∀ (s : State) (ph : Bool),
    let has := fun (a : Nat) (l : List Byte) => ∀ i b, l[i]? = some b → s.bar0 ph (a + i) = some b
    let entry := fun (a id next len : Nat) => a % 16 = 0 ∧ len < 2 ^ 32 ∧ next < 2 ^ 32 ∧ (next ≠ 0 → a + len ≤ next) ∧ 20 ≤ len ∧
      has a (natLe 2 id ++ natLe 2 capVersion ++ natLe 4 next ++ natLe 8 0 ++ natLe 4 len)
    (s.sys.stage < 3 → ∀ a, s.bar0 ph a = none) ∧
    (3 ≤ s.sys.stage →
      (if ph = true then ∃ a b c k l m n, entry 0x1000 1 a k ∧ entry a 2 b l ∧ entry b 3 c m ∧ entry c 4 0 n ∧ a ≠ 0 ∧ b ≠ 0 ∧ c ≠ 0 ∧
          has (a + 24) (natLe 8 s.sys.ringBase ++ natLe 8 s.sys.ringSize ++ natLe 8 (s.sys.blockSeq + (2 ^ 64 - 1))) ∧
          ∀ i, s.bar0 ph (c + n + i) = none
        else ∃ a k n, entry 0x1000 1 a k ∧ entry a 4 0 n ∧ a ≠ 0 ∧ ∀ i, s.bar0 ph (a + n + i) = none) ∧
      has (0x1000 + 24) (natLe 4 s.fab.domain ++ natLe 4 s.fab.modId ++ (Config.serial ++ List.replicate 16 0).take 16))

end
end

