-- ==== Sys2Proof/Laws/Store.lean ====
section
/-! SUPPORT. What the maps of the state and memory do: an entry put is found and no other changes, a byte written is read
back and no other changes, and every operation on memory keeps the canonical form. -/

namespace Sys2Proof

/-! ### Maps -/

@[simp] theorem alook_nil {α : Type} (k : Nat) : alook k ([] : List (Nat × α)) = none := rfl

@[simp] theorem alook_aput_self {α : Type} (k : Nat) (v : α) (l : List (Nat × α)) : alook k (aput k v l) = some v := by
  induction l with
  | nil => simp [aput, alook]
  | cons c l ih =>
    obtain ⟨j, w⟩ := c
    simp only [aput]
    split
    · simp [alook]
    · split
      · simp [alook]
      · have : ¬ j = k := by omega
        have : ¬ k < j := by omega
        simp [alook, *]

theorem alook_aput_of_ne {α : Type} {k i : Nat} (v : α) (l : List (Nat × α)) (h : i ≠ k) :
    alook i (aput k v l) = alook i l := by
  induction l with
  | nil => simp only [aput, alook]; split <;> simp_all
  | cons c l ih =>
    obtain ⟨j, w⟩ := c
    simp only [aput]
    split
    · have : ¬ k = i := fun e => h e.symm
      simp only [alook, this, if_false]
      split
      · split
        · omega
        · split
          · rfl
          · omega
      · rfl
    · split
      · subst_vars
        have : ¬ j = i := fun e => h e.symm
        simp [alook, this]
      · simp only [alook, ih]

@[simp] theorem aput_aput {α : Type} (k : Nat) (v w : α) (l : List (Nat × α)) : aput k v (aput k w l) = aput k v l := by
  induction l with
  | nil => simp [aput]
  | cons c l ih =>
    obtain ⟨j, x⟩ := c
    simp only [aput]
    split
    · simp [aput]
    · split
      · simp [aput]
      · simp [aput, *]

/-- An entry put is the new one or an old one. -/
theorem mem_aput {α : Type} {k : Nat} {v : α} {l : List (Nat × α)} {c : Nat × α} (h : c ∈ aput k v l) :
    c = (k, v) ∨ c ∈ l := by
  induction l with
  | nil => simpa [aput] using h
  | cons d l ih =>
    obtain ⟨j, w⟩ := d
    simp only [aput] at h
    split at h
    · simpa using h
    · split at h
      · simp only [List.mem_cons] at h ⊢
        tauto
      · simp only [List.mem_cons] at h ⊢
        obtain h | h := h
        · exact .inr (.inl h)
        · have := ih h
          tauto

theorem mem_adel {α : Type} {k : Nat} {l : List (Nat × α)} {c : Nat × α} (h : c ∈ adel k l) : c ∈ l := by
  induction l with
  | nil => simp [adel] at h
  | cons d l ih =>
    obtain ⟨j, w⟩ := d
    simp only [adel] at h
    split at h
    · exact h
    · split at h
      · exact List.mem_cons_of_mem _ h
      · simp only [List.mem_cons] at h ⊢
        obtain h | h := h
        · exact .inl h
        · exact .inr (ih h)

theorem asorted_aput {α : Type} (k : Nat) (v : α) {l : List (Nat × α)} (h : asorted l) : asorted (aput k v l) := by
  induction l with
  | nil => simp [aput, asorted]
  | cons c l ih =>
    obtain ⟨j, w⟩ := c
    simp only [asorted, List.pairwise_cons] at h
    obtain ⟨h1, h2⟩ := h
    simp only [aput]
    split
    · rename_i hk
      simp only [asorted, List.pairwise_cons, List.mem_cons]
      refine ⟨?_, h1, h2⟩
      rintro x (rfl | hx)
      · exact hk
      · exact lt_trans hk (h1 x hx)
    · split
      · subst_vars
        exact List.pairwise_cons.2 ⟨h1, h2⟩
      · simp only [asorted, List.pairwise_cons]
        refine ⟨?_, ih h2⟩
        intro x hx
        obtain rfl | hx := mem_aput hx
        · simp only; omega
        · exact h1 x hx

theorem asorted_adel {α : Type} (k : Nat) {l : List (Nat × α)} (h : asorted l) : asorted (adel k l) := by
  induction l with
  | nil => simp [adel, asorted]
  | cons c l ih =>
    obtain ⟨j, w⟩ := c
    have h' := h
    simp only [asorted, List.pairwise_cons] at h
    obtain ⟨h1, h2⟩ := h
    simp only [adel]
    split
    · exact h'
    · split
      · exact h2
      · simp only [asorted, List.pairwise_cons]
        exact ⟨fun x hx => h1 x (mem_adel hx), ih h2⟩

theorem alook_none_of_lt {α : Type} {k : Nat} {l : List (Nat × α)} (h : ∀ c ∈ l, k < c.1) : alook k l = none := by
  cases l with
  | nil => rfl
  | cons c l =>
    obtain ⟨j, w⟩ := c
    have := h (j, w) (by simp)
    simp only at this
    have : ¬ j = k := by omega
    simp [alook, *]

theorem alook_adel_self {α : Type} (k : Nat) {l : List (Nat × α)} (h : asorted l) : alook k (adel k l) = none := by
  induction l with
  | nil => rfl
  | cons c l ih =>
    obtain ⟨j, w⟩ := c
    simp only [asorted, List.pairwise_cons] at h
    obtain ⟨h1, h2⟩ := h
    simp only [adel]
    split
    · rename_i hk
      have : ¬ j = k := by omega
      simp [alook, this, hk]
    · split
      · subst_vars
        exact alook_none_of_lt h1
      · have : ¬ j = k := by omega
        have : ¬ k < j := by omega
        simp [alook, ih h2, *]

theorem alook_adel_of_ne {α : Type} {k i : Nat} {l : List (Nat × α)} (h : asorted l) (hi : i ≠ k) :
    alook i (adel k l) = alook i l := by
  induction l with
  | nil => rfl
  | cons c l ih =>
    obtain ⟨j, w⟩ := c
    simp only [asorted, List.pairwise_cons] at h
    obtain ⟨h1, h2⟩ := h
    simp only [adel]
    split
    · rfl
    · split
      · rename_i hkj
        have : ¬ j = i := by omega
        simp only [alook, this, if_false]
        split
        · rename_i hij
          exact alook_none_of_lt fun c hc => lt_trans hij (h1 c hc)
        · rfl
      · simp only [alook, ih h2]

/-! ### Memory -/

theorem Memory.wf_nil : Memory.wf [] := ⟨List.Pairwise.nil, by simp⟩

theorem Memory.wf_write {m : Memory} (a : Nat) (b : Byte) (h : Memory.wf m) : Memory.wf (Memory.write m a b) := by
  unfold Memory.write
  split
  · exact ⟨asorted_adel a h.1, fun c hc => h.2 c (mem_adel hc)⟩
  · refine ⟨asorted_aput a b h.1, fun c hc => ?_⟩
    obtain rfl | hc := mem_aput hc
    · assumption
    · exact h.2 c hc

theorem Memory.wf_filter {m : Memory} (p : Host.Cell → Bool) (h : Memory.wf m) : Memory.wf (m.filter p) :=
  ⟨h.1.filter p, fun c hc => h.2 c (List.mem_of_mem_filter hc)⟩

theorem Memory.wf_zero {m : Memory} (a n : Nat) (h : Memory.wf m) : Memory.wf (Memory.zero m a n) := Memory.wf_filter _ h

theorem Memory.wf_writeN {m : Memory} (a : Nat) (l : List Byte) (h : Memory.wf m) : Memory.wf (Memory.writeN m a l) := by
  induction l generalizing m a with
  | nil => exact h
  | cons b l ih => exact ih (a + 1) (Memory.wf_write a b h)

/-- A fold of writes keeps the canonical form. -/
theorem Memory.wf_foldl {α : Type} (f : Memory → α → Memory) (hf : ∀ m x, Memory.wf m → Memory.wf (f m x)) (l : List α)
    {m : Memory} (h : Memory.wf m) : Memory.wf (l.foldl f m) := by
  induction l generalizing m with
  | nil => exact h
  | cons x l ih => exact ih (hf m x h)

theorem Machine.wf_putBytes {m : Memory} (bs : List (Nat × Byte)) (h : Memory.wf m) : Memory.wf (Machine.putBytes m bs) :=
  Memory.wf_foldl _ (fun _ x hm => Memory.wf_write x.1 x.2 hm) bs h

theorem Machine.wf_copyRange {m : Memory} (src dst n : Nat) (h : Memory.wf m) :
    Memory.wf (Machine.Memory.copyRange m src dst n) :=
  Memory.wf_foldl _ (fun _ x hm => Memory.wf_write _ x.2 hm) _ (Memory.wf_zero dst n h)

/-- A byte written is read back. -/
theorem Memory.read_write_self {m : Memory} (a : Nat) (b : Byte) (h : Memory.wf m) :
    Memory.read (Memory.write m a b) a = b := by
  unfold Memory.read Memory.write
  split
  · simp [alook_adel_self a h.1, *]
  · simp

/-- A byte written changes no other. -/
theorem Memory.read_write_of_ne {m : Memory} {a i : Nat} (b : Byte) (h : Memory.wf m) (hi : i ≠ a) :
    Memory.read (Memory.write m a b) i = Memory.read m i := by
  unfold Memory.read Memory.write
  split
  · rw [alook_adel_of_ne h.1 hi]
  · rw [alook_aput_of_ne _ _ hi]

/-- Bytes written at keys that leave out i change nothing there. -/
theorem Memory.read_writeN_of_ne {m : Memory} (a : Nat) (l : List Byte) {i : Nat} (h : Memory.wf m)
    (hi : i < a ∨ a + l.length ≤ i) : Memory.read (Memory.writeN m a l) i = Memory.read m i := by
  induction l generalizing m a with
  | nil => rfl
  | cons b l ih =>
    simp only [List.length_cons] at hi
    show Memory.read (Memory.writeN (Memory.write m a b) (a + 1) l) i = _
    rw [ih (a + 1) (Memory.wf_write a b h) (by omega), Memory.read_write_of_ne b h (by omega)]

/-- Bytes written at keys are what those keys then read. -/
theorem Memory.read_writeN_self {m : Memory} (a : Nat) (l : List Byte) {i : Nat} {b : Byte} (h : Memory.wf m)
    (hb : l[i]? = some b) : Memory.read (Memory.writeN m a l) (a + i) = b := by
  induction l generalizing m a i with
  | nil => simp at hb
  | cons c l ih =>
    show Memory.read (Memory.writeN (Memory.write m a c) (a + 1) l) (a + i) = b
    cases i with
    | zero =>
      simp only [List.getElem?_cons_zero, Option.some.injEq] at hb
      rw [Memory.read_writeN_of_ne (a + 1) l (Memory.wf_write a c h) (by omega), Nat.add_zero, Memory.read_write_self a c h, hb]
    | succ i =>
      simp only [List.getElem?_cons_succ] at hb
      have := ih (a + 1) (Memory.wf_write a c h) hb
      rwa [show a + (i + 1) = a + 1 + i by omega]

/-- Little-endian bytes: as many as asked for, and the number they stand for. -/
@[simp] theorem length_natLe (n v : Nat) : (natLe n v).length = n := by
  induction n generalizing v with
  | zero => rfl
  | succ n ih => simp [natLe, ih]

theorem leNat_natLe (n v : Nat) : leNat (natLe n v) = v % 256 ^ n := by
  induction n generalizing v with
  | zero => simp [natLe, leNat, Nat.mod_one]
  | succ n ih =>
    simp only [natLe, leNat, ih, BitVec.toNat_ofNat]
    rw [Nat.pow_succ 256, Nat.mul_comm (256 ^ n) 256, Nat.mod_mul]

theorem leNat_lt (l : List Byte) : leNat l < 256 ^ l.length := by
  induction l with
  | nil => simp [leNat]
  | cons b l ih =>
    have := b.isLt
    simp only [leNat, List.length_cons, Nat.pow_succ]
    omega

theorem Machine.read_putBytes_of_notMem {m : Memory} (bs : List (Nat × Byte)) {i : Nat} (h : Memory.wf m)
    (hi : ∀ b ∈ bs, b.1 ≠ i) : Memory.read (Machine.putBytes m bs) i = Memory.read m i := by
  induction bs generalizing m with
  | nil => rfl
  | cons b bs ih =>
    show Memory.read (Machine.putBytes (Memory.write m b.1 b.2) bs) i = _
    rw [ih (Memory.wf_write _ _ h) fun c hc => hi c (by simp [hc]),
      Memory.read_write_of_ne _ h fun e => hi b (by simp) e.symm]

end Sys2Proof
end

