-- ==== Sys2Proof/Laws/State.lean ====
section
/-! SUPPORT. What each named update of the state leaves of each field, and what a thread, a workgroup or a quadrant is
after one. -/

namespace Sys2Proof.Machine

/-! ### State.setThread -/

@[simp] theorem State.setThread_wgs (s : State) (r : TRef) (t : Thread) : (s.setThread r t).wgs = s.wgs := rfl
@[simp] theorem State.setThread_quads (s : State) (r : TRef) (t : Thread) : (s.setThread r t).quads = s.quads := rfl
@[simp] theorem State.setThread_launches (s : State) (r : TRef) (t : Thread) : (s.setThread r t).launches = s.launches := rfl
@[simp] theorem State.setThread_affWaits (s : State) (r : TRef) (t : Thread) : (s.setThread r t).affWaits = s.affWaits := rfl
@[simp] theorem State.setThread_parts (s : State) (r : TRef) (t : Thread) : (s.setThread r t).parts = s.parts := rfl
@[simp] theorem State.setThread_mem (s : State) (r : TRef) (t : Thread) : (s.setThread r t).mem = s.mem := rfl
@[simp] theorem State.setThread_full (s : State) (r : TRef) (t : Thread) : (s.setThread r t).full = s.full := rfl
@[simp] theorem State.setThread_claims (s : State) (r : TRef) (t : Thread) : (s.setThread r t).claims = s.claims := rfl
@[simp] theorem State.setThread_l1 (s : State) (r : TRef) (t : Thread) : (s.setThread r t).l1 = s.l1 := rfl
@[simp] theorem State.setThread_l2 (s : State) (r : TRef) (t : Thread) : (s.setThread r t).l2 = s.l2 := rfl
@[simp] theorem State.setThread_back (s : State) (r : TRef) (t : Thread) : (s.setThread r t).back = s.back := rfl
@[simp] theorem State.setThread_canGens (s : State) (r : TRef) (t : Thread) : (s.setThread r t).canGens = s.canGens := rfl
@[simp] theorem State.setThread_canRanges (s : State) (r : TRef) (t : Thread) : (s.setThread r t).canRanges = s.canRanges := rfl
@[simp] theorem State.setThread_hbmMoved (s : State) (r : TRef) (t : Thread) : (s.setThread r t).hbmMoved = s.hbmMoved := rfl
@[simp] theorem State.setThread_canMoved (s : State) (r : TRef) (t : Thread) : (s.setThread r t).canMoved = s.canMoved := rfl
@[simp] theorem State.setThread_fetched (s : State) (r : TRef) (t : Thread) : (s.setThread r t).fetched = s.fetched := rfl
@[simp] theorem State.setThread_notes (s : State) (r : TRef) (t : Thread) : (s.setThread r t).notes = s.notes := rfl
@[simp] theorem State.setThread_poisoned (s : State) (r : TRef) (t : Thread) : (s.setThread r t).poisoned = s.poisoned := rfl
@[simp] theorem State.setThread_tlb (s : State) (r : TRef) (t : Thread) : (s.setThread r t).tlb = s.tlb := rfl
@[simp] theorem State.setThread_walks (s : State) (r : TRef) (t : Thread) : (s.setThread r t).walks = s.walks := rfl
@[simp] theorem State.setThread_loads (s : State) (r : TRef) (t : Thread) : (s.setThread r t).loads = s.loads := rfl
@[simp] theorem State.setThread_stores (s : State) (r : TRef) (t : Thread) : (s.setThread r t).stores = s.stores := rfl
@[simp] theorem State.setThread_waiters (s : State) (r : TRef) (t : Thread) : (s.setThread r t).waiters = s.waiters := rfl
@[simp] theorem State.setThread_scReads (s : State) (r : TRef) (t : Thread) : (s.setThread r t).scReads = s.scReads := rfl
@[simp] theorem State.setThread_held (s : State) (r : TRef) (t : Thread) : (s.setThread r t).held = s.held := rfl
@[simp] theorem State.setThread_undo (s : State) (r : TRef) (t : Thread) : (s.setThread r t).undo = s.undo := rfl
@[simp] theorem State.setThread_copies (s : State) (r : TRef) (t : Thread) : (s.setThread r t).copies = s.copies := rfl
@[simp] theorem State.setThread_tileOps (s : State) (r : TRef) (t : Thread) : (s.setThread r t).tileOps = s.tileOps := rfl
@[simp] theorem State.setThread_passHolds (s : State) (r : TRef) (t : Thread) : (s.setThread r t).passHolds = s.passHolds := rfl
@[simp] theorem State.setThread_tgens (s : State) (r : TRef) (t : Thread) : (s.setThread r t).tgens = s.tgens := rfl
@[simp] theorem State.setThread_rvHolds (s : State) (r : TRef) (t : Thread) : (s.setThread r t).rvHolds = s.rvHolds := rfl
@[simp] theorem State.setThread_rvOpen (s : State) (r : TRef) (t : Thread) : (s.setThread r t).rvOpen = s.rvOpen := rfl
@[simp] theorem State.setThread_mazes (s : State) (r : TRef) (t : Thread) : (s.setThread r t).mazes = s.mazes := rfl
@[simp] theorem State.setThread_lodges (s : State) (r : TRef) (t : Thread) : (s.setThread r t).lodges = s.lodges := rfl
@[simp] theorem State.setThread_lodgeWaits (s : State) (r : TRef) (t : Thread) : (s.setThread r t).lodgeWaits = s.lodgeWaits := rfl
@[simp] theorem State.setThread_slotGens (s : State) (r : TRef) (t : Thread) : (s.setThread r t).slotGens = s.slotGens := rfl
@[simp] theorem State.setThread_genBlocks (s : State) (r : TRef) (t : Thread) : (s.setThread r t).genBlocks = s.genBlocks := rfl
@[simp] theorem State.setThread_strikes (s : State) (r : TRef) (t : Thread) : (s.setThread r t).strikes = s.strikes := rfl
@[simp] theorem State.setThread_strikeLog (s : State) (r : TRef) (t : Thread) : (s.setThread r t).strikeLog = s.strikeLog := rfl
@[simp] theorem State.setThread_lostCores (s : State) (r : TRef) (t : Thread) : (s.setThread r t).lostCores = s.lostCores := rfl
@[simp] theorem State.setThread_turns (s : State) (r : TRef) (t : Thread) : (s.setThread r t).turns = s.turns := rfl
@[simp] theorem State.setThread_retiredChannels (s : State) (r : TRef) (t : Thread) : (s.setThread r t).retiredChannels = s.retiredChannels := rfl
@[simp] theorem State.setThread_rmws (s : State) (r : TRef) (t : Thread) : (s.setThread r t).rmws = s.rmws := rfl
@[simp] theorem State.setThread_fab (s : State) (r : TRef) (t : Thread) : (s.setThread r t).fab = s.fab := rfl
@[simp] theorem State.setThread_sys (s : State) (r : TRef) (t : Thread) : (s.setThread r t).sys = s.sys := rfl
@[simp] theorem State.setThread_clock (s : State) (r : TRef) (t : Thread) : (s.setThread r t).clock = s.clock := rfl
@[simp] theorem State.setThread_us (s : State) (r : TRef) (t : Thread) : (s.setThread r t).us = s.us := rfl
@[simp] theorem State.setThread_usub (s : State) (r : TRef) (t : Thread) : (s.setThread r t).usub = s.usub := rfl
@[simp] theorem State.setThread_freq (s : State) (r : TRef) (t : Thread) : (s.setThread r t).freq = s.freq := rfl
@[simp] theorem State.setThread_nextId (s : State) (r : TRef) (t : Thread) : (s.setThread r t).nextId = s.nextId := rfl
@[simp] theorem State.setThread_fresh (s : State) (r : TRef) (t : Thread) : (s.setThread r t).fresh = s.fresh := rfl
@[simp] theorem State.setThread_sched (s : State) (r : TRef) (t : Thread) : (s.setThread r t).sched = s.sched := rfl
@[simp] theorem State.setThread_cur (s : State) (r : TRef) (t : Thread) : (s.setThread r t).cur = s.cur := rfl

/-! ### State.modThread -/

@[simp] theorem State.modThread_wgs (s : State) (r : TRef) (f : Thread → Thread) : (s.modThread r f).wgs = s.wgs := by
  unfold State.modThread; split <;> rfl
@[simp] theorem State.modThread_quads (s : State) (r : TRef) (f : Thread → Thread) : (s.modThread r f).quads = s.quads := by
  unfold State.modThread; split <;> rfl
@[simp] theorem State.modThread_launches (s : State) (r : TRef) (f : Thread → Thread) : (s.modThread r f).launches = s.launches := by
  unfold State.modThread; split <;> rfl
@[simp] theorem State.modThread_affWaits (s : State) (r : TRef) (f : Thread → Thread) : (s.modThread r f).affWaits = s.affWaits := by
  unfold State.modThread; split <;> rfl
@[simp] theorem State.modThread_parts (s : State) (r : TRef) (f : Thread → Thread) : (s.modThread r f).parts = s.parts := by
  unfold State.modThread; split <;> rfl
@[simp] theorem State.modThread_mem (s : State) (r : TRef) (f : Thread → Thread) : (s.modThread r f).mem = s.mem := by
  unfold State.modThread; split <;> rfl
@[simp] theorem State.modThread_full (s : State) (r : TRef) (f : Thread → Thread) : (s.modThread r f).full = s.full := by
  unfold State.modThread; split <;> rfl
@[simp] theorem State.modThread_claims (s : State) (r : TRef) (f : Thread → Thread) : (s.modThread r f).claims = s.claims := by
  unfold State.modThread; split <;> rfl
@[simp] theorem State.modThread_l1 (s : State) (r : TRef) (f : Thread → Thread) : (s.modThread r f).l1 = s.l1 := by
  unfold State.modThread; split <;> rfl
@[simp] theorem State.modThread_l2 (s : State) (r : TRef) (f : Thread → Thread) : (s.modThread r f).l2 = s.l2 := by
  unfold State.modThread; split <;> rfl
@[simp] theorem State.modThread_back (s : State) (r : TRef) (f : Thread → Thread) : (s.modThread r f).back = s.back := by
  unfold State.modThread; split <;> rfl
@[simp] theorem State.modThread_canGens (s : State) (r : TRef) (f : Thread → Thread) : (s.modThread r f).canGens = s.canGens := by
  unfold State.modThread; split <;> rfl
@[simp] theorem State.modThread_canRanges (s : State) (r : TRef) (f : Thread → Thread) : (s.modThread r f).canRanges = s.canRanges := by
  unfold State.modThread; split <;> rfl
@[simp] theorem State.modThread_hbmMoved (s : State) (r : TRef) (f : Thread → Thread) : (s.modThread r f).hbmMoved = s.hbmMoved := by
  unfold State.modThread; split <;> rfl
@[simp] theorem State.modThread_canMoved (s : State) (r : TRef) (f : Thread → Thread) : (s.modThread r f).canMoved = s.canMoved := by
  unfold State.modThread; split <;> rfl
@[simp] theorem State.modThread_fetched (s : State) (r : TRef) (f : Thread → Thread) : (s.modThread r f).fetched = s.fetched := by
  unfold State.modThread; split <;> rfl
@[simp] theorem State.modThread_notes (s : State) (r : TRef) (f : Thread → Thread) : (s.modThread r f).notes = s.notes := by
  unfold State.modThread; split <;> rfl
@[simp] theorem State.modThread_poisoned (s : State) (r : TRef) (f : Thread → Thread) : (s.modThread r f).poisoned = s.poisoned := by
  unfold State.modThread; split <;> rfl
@[simp] theorem State.modThread_tlb (s : State) (r : TRef) (f : Thread → Thread) : (s.modThread r f).tlb = s.tlb := by
  unfold State.modThread; split <;> rfl
@[simp] theorem State.modThread_walks (s : State) (r : TRef) (f : Thread → Thread) : (s.modThread r f).walks = s.walks := by
  unfold State.modThread; split <;> rfl
@[simp] theorem State.modThread_loads (s : State) (r : TRef) (f : Thread → Thread) : (s.modThread r f).loads = s.loads := by
  unfold State.modThread; split <;> rfl
@[simp] theorem State.modThread_stores (s : State) (r : TRef) (f : Thread → Thread) : (s.modThread r f).stores = s.stores := by
  unfold State.modThread; split <;> rfl
@[simp] theorem State.modThread_waiters (s : State) (r : TRef) (f : Thread → Thread) : (s.modThread r f).waiters = s.waiters := by
  unfold State.modThread; split <;> rfl
@[simp] theorem State.modThread_scReads (s : State) (r : TRef) (f : Thread → Thread) : (s.modThread r f).scReads = s.scReads := by
  unfold State.modThread; split <;> rfl
@[simp] theorem State.modThread_held (s : State) (r : TRef) (f : Thread → Thread) : (s.modThread r f).held = s.held := by
  unfold State.modThread; split <;> rfl
@[simp] theorem State.modThread_undo (s : State) (r : TRef) (f : Thread → Thread) : (s.modThread r f).undo = s.undo := by
  unfold State.modThread; split <;> rfl
@[simp] theorem State.modThread_copies (s : State) (r : TRef) (f : Thread → Thread) : (s.modThread r f).copies = s.copies := by
  unfold State.modThread; split <;> rfl
@[simp] theorem State.modThread_tileOps (s : State) (r : TRef) (f : Thread → Thread) : (s.modThread r f).tileOps = s.tileOps := by
  unfold State.modThread; split <;> rfl
@[simp] theorem State.modThread_passHolds (s : State) (r : TRef) (f : Thread → Thread) : (s.modThread r f).passHolds = s.passHolds := by
  unfold State.modThread; split <;> rfl
@[simp] theorem State.modThread_tgens (s : State) (r : TRef) (f : Thread → Thread) : (s.modThread r f).tgens = s.tgens := by
  unfold State.modThread; split <;> rfl
@[simp] theorem State.modThread_rvHolds (s : State) (r : TRef) (f : Thread → Thread) : (s.modThread r f).rvHolds = s.rvHolds := by
  unfold State.modThread; split <;> rfl
@[simp] theorem State.modThread_rvOpen (s : State) (r : TRef) (f : Thread → Thread) : (s.modThread r f).rvOpen = s.rvOpen := by
  unfold State.modThread; split <;> rfl
@[simp] theorem State.modThread_mazes (s : State) (r : TRef) (f : Thread → Thread) : (s.modThread r f).mazes = s.mazes := by
  unfold State.modThread; split <;> rfl
@[simp] theorem State.modThread_lodges (s : State) (r : TRef) (f : Thread → Thread) : (s.modThread r f).lodges = s.lodges := by
  unfold State.modThread; split <;> rfl
@[simp] theorem State.modThread_lodgeWaits (s : State) (r : TRef) (f : Thread → Thread) : (s.modThread r f).lodgeWaits = s.lodgeWaits := by
  unfold State.modThread; split <;> rfl
@[simp] theorem State.modThread_slotGens (s : State) (r : TRef) (f : Thread → Thread) : (s.modThread r f).slotGens = s.slotGens := by
  unfold State.modThread; split <;> rfl
@[simp] theorem State.modThread_genBlocks (s : State) (r : TRef) (f : Thread → Thread) : (s.modThread r f).genBlocks = s.genBlocks := by
  unfold State.modThread; split <;> rfl
@[simp] theorem State.modThread_strikes (s : State) (r : TRef) (f : Thread → Thread) : (s.modThread r f).strikes = s.strikes := by
  unfold State.modThread; split <;> rfl
@[simp] theorem State.modThread_strikeLog (s : State) (r : TRef) (f : Thread → Thread) : (s.modThread r f).strikeLog = s.strikeLog := by
  unfold State.modThread; split <;> rfl
@[simp] theorem State.modThread_lostCores (s : State) (r : TRef) (f : Thread → Thread) : (s.modThread r f).lostCores = s.lostCores := by
  unfold State.modThread; split <;> rfl
@[simp] theorem State.modThread_turns (s : State) (r : TRef) (f : Thread → Thread) : (s.modThread r f).turns = s.turns := by
  unfold State.modThread; split <;> rfl
@[simp] theorem State.modThread_retiredChannels (s : State) (r : TRef) (f : Thread → Thread) : (s.modThread r f).retiredChannels = s.retiredChannels := by
  unfold State.modThread; split <;> rfl
@[simp] theorem State.modThread_rmws (s : State) (r : TRef) (f : Thread → Thread) : (s.modThread r f).rmws = s.rmws := by
  unfold State.modThread; split <;> rfl
@[simp] theorem State.modThread_fab (s : State) (r : TRef) (f : Thread → Thread) : (s.modThread r f).fab = s.fab := by
  unfold State.modThread; split <;> rfl
@[simp] theorem State.modThread_sys (s : State) (r : TRef) (f : Thread → Thread) : (s.modThread r f).sys = s.sys := by
  unfold State.modThread; split <;> rfl
@[simp] theorem State.modThread_clock (s : State) (r : TRef) (f : Thread → Thread) : (s.modThread r f).clock = s.clock := by
  unfold State.modThread; split <;> rfl
@[simp] theorem State.modThread_us (s : State) (r : TRef) (f : Thread → Thread) : (s.modThread r f).us = s.us := by
  unfold State.modThread; split <;> rfl
@[simp] theorem State.modThread_usub (s : State) (r : TRef) (f : Thread → Thread) : (s.modThread r f).usub = s.usub := by
  unfold State.modThread; split <;> rfl
@[simp] theorem State.modThread_freq (s : State) (r : TRef) (f : Thread → Thread) : (s.modThread r f).freq = s.freq := by
  unfold State.modThread; split <;> rfl
@[simp] theorem State.modThread_nextId (s : State) (r : TRef) (f : Thread → Thread) : (s.modThread r f).nextId = s.nextId := by
  unfold State.modThread; split <;> rfl
@[simp] theorem State.modThread_fresh (s : State) (r : TRef) (f : Thread → Thread) : (s.modThread r f).fresh = s.fresh := by
  unfold State.modThread; split <;> rfl
@[simp] theorem State.modThread_sched (s : State) (r : TRef) (f : Thread → Thread) : (s.modThread r f).sched = s.sched := by
  unfold State.modThread; split <;> rfl
@[simp] theorem State.modThread_cur (s : State) (r : TRef) (f : Thread → Thread) : (s.modThread r f).cur = s.cur := by
  unfold State.modThread; split <;> rfl

/-! ### State.modArch -/

@[simp] theorem State.modArch_wgs (s : State) (r : TRef) (f : Arch → Arch) : (s.modArch r f).wgs = s.wgs := State.modThread_wgs ..
@[simp] theorem State.modArch_quads (s : State) (r : TRef) (f : Arch → Arch) : (s.modArch r f).quads = s.quads := State.modThread_quads ..
@[simp] theorem State.modArch_launches (s : State) (r : TRef) (f : Arch → Arch) : (s.modArch r f).launches = s.launches := State.modThread_launches ..
@[simp] theorem State.modArch_affWaits (s : State) (r : TRef) (f : Arch → Arch) : (s.modArch r f).affWaits = s.affWaits := State.modThread_affWaits ..
@[simp] theorem State.modArch_parts (s : State) (r : TRef) (f : Arch → Arch) : (s.modArch r f).parts = s.parts := State.modThread_parts ..
@[simp] theorem State.modArch_mem (s : State) (r : TRef) (f : Arch → Arch) : (s.modArch r f).mem = s.mem := State.modThread_mem ..
@[simp] theorem State.modArch_full (s : State) (r : TRef) (f : Arch → Arch) : (s.modArch r f).full = s.full := State.modThread_full ..
@[simp] theorem State.modArch_claims (s : State) (r : TRef) (f : Arch → Arch) : (s.modArch r f).claims = s.claims := State.modThread_claims ..
@[simp] theorem State.modArch_l1 (s : State) (r : TRef) (f : Arch → Arch) : (s.modArch r f).l1 = s.l1 := State.modThread_l1 ..
@[simp] theorem State.modArch_l2 (s : State) (r : TRef) (f : Arch → Arch) : (s.modArch r f).l2 = s.l2 := State.modThread_l2 ..
@[simp] theorem State.modArch_back (s : State) (r : TRef) (f : Arch → Arch) : (s.modArch r f).back = s.back := State.modThread_back ..
@[simp] theorem State.modArch_canGens (s : State) (r : TRef) (f : Arch → Arch) : (s.modArch r f).canGens = s.canGens := State.modThread_canGens ..
@[simp] theorem State.modArch_canRanges (s : State) (r : TRef) (f : Arch → Arch) : (s.modArch r f).canRanges = s.canRanges := State.modThread_canRanges ..
@[simp] theorem State.modArch_hbmMoved (s : State) (r : TRef) (f : Arch → Arch) : (s.modArch r f).hbmMoved = s.hbmMoved := State.modThread_hbmMoved ..
@[simp] theorem State.modArch_canMoved (s : State) (r : TRef) (f : Arch → Arch) : (s.modArch r f).canMoved = s.canMoved := State.modThread_canMoved ..
@[simp] theorem State.modArch_fetched (s : State) (r : TRef) (f : Arch → Arch) : (s.modArch r f).fetched = s.fetched := State.modThread_fetched ..
@[simp] theorem State.modArch_notes (s : State) (r : TRef) (f : Arch → Arch) : (s.modArch r f).notes = s.notes := State.modThread_notes ..
@[simp] theorem State.modArch_poisoned (s : State) (r : TRef) (f : Arch → Arch) : (s.modArch r f).poisoned = s.poisoned := State.modThread_poisoned ..
@[simp] theorem State.modArch_tlb (s : State) (r : TRef) (f : Arch → Arch) : (s.modArch r f).tlb = s.tlb := State.modThread_tlb ..
@[simp] theorem State.modArch_walks (s : State) (r : TRef) (f : Arch → Arch) : (s.modArch r f).walks = s.walks := State.modThread_walks ..
@[simp] theorem State.modArch_loads (s : State) (r : TRef) (f : Arch → Arch) : (s.modArch r f).loads = s.loads := State.modThread_loads ..
@[simp] theorem State.modArch_stores (s : State) (r : TRef) (f : Arch → Arch) : (s.modArch r f).stores = s.stores := State.modThread_stores ..
@[simp] theorem State.modArch_waiters (s : State) (r : TRef) (f : Arch → Arch) : (s.modArch r f).waiters = s.waiters := State.modThread_waiters ..
@[simp] theorem State.modArch_scReads (s : State) (r : TRef) (f : Arch → Arch) : (s.modArch r f).scReads = s.scReads := State.modThread_scReads ..
@[simp] theorem State.modArch_held (s : State) (r : TRef) (f : Arch → Arch) : (s.modArch r f).held = s.held := State.modThread_held ..
@[simp] theorem State.modArch_undo (s : State) (r : TRef) (f : Arch → Arch) : (s.modArch r f).undo = s.undo := State.modThread_undo ..
@[simp] theorem State.modArch_copies (s : State) (r : TRef) (f : Arch → Arch) : (s.modArch r f).copies = s.copies := State.modThread_copies ..
@[simp] theorem State.modArch_tileOps (s : State) (r : TRef) (f : Arch → Arch) : (s.modArch r f).tileOps = s.tileOps := State.modThread_tileOps ..
@[simp] theorem State.modArch_passHolds (s : State) (r : TRef) (f : Arch → Arch) : (s.modArch r f).passHolds = s.passHolds := State.modThread_passHolds ..
@[simp] theorem State.modArch_tgens (s : State) (r : TRef) (f : Arch → Arch) : (s.modArch r f).tgens = s.tgens := State.modThread_tgens ..
@[simp] theorem State.modArch_rvHolds (s : State) (r : TRef) (f : Arch → Arch) : (s.modArch r f).rvHolds = s.rvHolds := State.modThread_rvHolds ..
@[simp] theorem State.modArch_rvOpen (s : State) (r : TRef) (f : Arch → Arch) : (s.modArch r f).rvOpen = s.rvOpen := State.modThread_rvOpen ..
@[simp] theorem State.modArch_mazes (s : State) (r : TRef) (f : Arch → Arch) : (s.modArch r f).mazes = s.mazes := State.modThread_mazes ..
@[simp] theorem State.modArch_lodges (s : State) (r : TRef) (f : Arch → Arch) : (s.modArch r f).lodges = s.lodges := State.modThread_lodges ..
@[simp] theorem State.modArch_lodgeWaits (s : State) (r : TRef) (f : Arch → Arch) : (s.modArch r f).lodgeWaits = s.lodgeWaits := State.modThread_lodgeWaits ..
@[simp] theorem State.modArch_slotGens (s : State) (r : TRef) (f : Arch → Arch) : (s.modArch r f).slotGens = s.slotGens := State.modThread_slotGens ..
@[simp] theorem State.modArch_genBlocks (s : State) (r : TRef) (f : Arch → Arch) : (s.modArch r f).genBlocks = s.genBlocks := State.modThread_genBlocks ..
@[simp] theorem State.modArch_strikes (s : State) (r : TRef) (f : Arch → Arch) : (s.modArch r f).strikes = s.strikes := State.modThread_strikes ..
@[simp] theorem State.modArch_strikeLog (s : State) (r : TRef) (f : Arch → Arch) : (s.modArch r f).strikeLog = s.strikeLog := State.modThread_strikeLog ..
@[simp] theorem State.modArch_lostCores (s : State) (r : TRef) (f : Arch → Arch) : (s.modArch r f).lostCores = s.lostCores := State.modThread_lostCores ..
@[simp] theorem State.modArch_turns (s : State) (r : TRef) (f : Arch → Arch) : (s.modArch r f).turns = s.turns := State.modThread_turns ..
@[simp] theorem State.modArch_retiredChannels (s : State) (r : TRef) (f : Arch → Arch) : (s.modArch r f).retiredChannels = s.retiredChannels := State.modThread_retiredChannels ..
@[simp] theorem State.modArch_rmws (s : State) (r : TRef) (f : Arch → Arch) : (s.modArch r f).rmws = s.rmws := State.modThread_rmws ..
@[simp] theorem State.modArch_fab (s : State) (r : TRef) (f : Arch → Arch) : (s.modArch r f).fab = s.fab := State.modThread_fab ..
@[simp] theorem State.modArch_sys (s : State) (r : TRef) (f : Arch → Arch) : (s.modArch r f).sys = s.sys := State.modThread_sys ..
@[simp] theorem State.modArch_clock (s : State) (r : TRef) (f : Arch → Arch) : (s.modArch r f).clock = s.clock := State.modThread_clock ..
@[simp] theorem State.modArch_us (s : State) (r : TRef) (f : Arch → Arch) : (s.modArch r f).us = s.us := State.modThread_us ..
@[simp] theorem State.modArch_usub (s : State) (r : TRef) (f : Arch → Arch) : (s.modArch r f).usub = s.usub := State.modThread_usub ..
@[simp] theorem State.modArch_freq (s : State) (r : TRef) (f : Arch → Arch) : (s.modArch r f).freq = s.freq := State.modThread_freq ..
@[simp] theorem State.modArch_nextId (s : State) (r : TRef) (f : Arch → Arch) : (s.modArch r f).nextId = s.nextId := State.modThread_nextId ..
@[simp] theorem State.modArch_fresh (s : State) (r : TRef) (f : Arch → Arch) : (s.modArch r f).fresh = s.fresh := State.modThread_fresh ..
@[simp] theorem State.modArch_sched (s : State) (r : TRef) (f : Arch → Arch) : (s.modArch r f).sched = s.sched := State.modThread_sched ..
@[simp] theorem State.modArch_cur (s : State) (r : TRef) (f : Arch → Arch) : (s.modArch r f).cur = s.cur := State.modThread_cur ..

/-! ### State.modRun -/

@[simp] theorem State.modRun_wgs (s : State) (r : TRef) (f : Run → Run) : (s.modRun r f).wgs = s.wgs := State.modThread_wgs ..
@[simp] theorem State.modRun_quads (s : State) (r : TRef) (f : Run → Run) : (s.modRun r f).quads = s.quads := State.modThread_quads ..
@[simp] theorem State.modRun_launches (s : State) (r : TRef) (f : Run → Run) : (s.modRun r f).launches = s.launches := State.modThread_launches ..
@[simp] theorem State.modRun_affWaits (s : State) (r : TRef) (f : Run → Run) : (s.modRun r f).affWaits = s.affWaits := State.modThread_affWaits ..
@[simp] theorem State.modRun_parts (s : State) (r : TRef) (f : Run → Run) : (s.modRun r f).parts = s.parts := State.modThread_parts ..
@[simp] theorem State.modRun_mem (s : State) (r : TRef) (f : Run → Run) : (s.modRun r f).mem = s.mem := State.modThread_mem ..
@[simp] theorem State.modRun_full (s : State) (r : TRef) (f : Run → Run) : (s.modRun r f).full = s.full := State.modThread_full ..
@[simp] theorem State.modRun_claims (s : State) (r : TRef) (f : Run → Run) : (s.modRun r f).claims = s.claims := State.modThread_claims ..
@[simp] theorem State.modRun_l1 (s : State) (r : TRef) (f : Run → Run) : (s.modRun r f).l1 = s.l1 := State.modThread_l1 ..
@[simp] theorem State.modRun_l2 (s : State) (r : TRef) (f : Run → Run) : (s.modRun r f).l2 = s.l2 := State.modThread_l2 ..
@[simp] theorem State.modRun_back (s : State) (r : TRef) (f : Run → Run) : (s.modRun r f).back = s.back := State.modThread_back ..
@[simp] theorem State.modRun_canGens (s : State) (r : TRef) (f : Run → Run) : (s.modRun r f).canGens = s.canGens := State.modThread_canGens ..
@[simp] theorem State.modRun_canRanges (s : State) (r : TRef) (f : Run → Run) : (s.modRun r f).canRanges = s.canRanges := State.modThread_canRanges ..
@[simp] theorem State.modRun_hbmMoved (s : State) (r : TRef) (f : Run → Run) : (s.modRun r f).hbmMoved = s.hbmMoved := State.modThread_hbmMoved ..
@[simp] theorem State.modRun_canMoved (s : State) (r : TRef) (f : Run → Run) : (s.modRun r f).canMoved = s.canMoved := State.modThread_canMoved ..
@[simp] theorem State.modRun_fetched (s : State) (r : TRef) (f : Run → Run) : (s.modRun r f).fetched = s.fetched := State.modThread_fetched ..
@[simp] theorem State.modRun_notes (s : State) (r : TRef) (f : Run → Run) : (s.modRun r f).notes = s.notes := State.modThread_notes ..
@[simp] theorem State.modRun_poisoned (s : State) (r : TRef) (f : Run → Run) : (s.modRun r f).poisoned = s.poisoned := State.modThread_poisoned ..
@[simp] theorem State.modRun_tlb (s : State) (r : TRef) (f : Run → Run) : (s.modRun r f).tlb = s.tlb := State.modThread_tlb ..
@[simp] theorem State.modRun_walks (s : State) (r : TRef) (f : Run → Run) : (s.modRun r f).walks = s.walks := State.modThread_walks ..
@[simp] theorem State.modRun_loads (s : State) (r : TRef) (f : Run → Run) : (s.modRun r f).loads = s.loads := State.modThread_loads ..
@[simp] theorem State.modRun_stores (s : State) (r : TRef) (f : Run → Run) : (s.modRun r f).stores = s.stores := State.modThread_stores ..
@[simp] theorem State.modRun_waiters (s : State) (r : TRef) (f : Run → Run) : (s.modRun r f).waiters = s.waiters := State.modThread_waiters ..
@[simp] theorem State.modRun_scReads (s : State) (r : TRef) (f : Run → Run) : (s.modRun r f).scReads = s.scReads := State.modThread_scReads ..
@[simp] theorem State.modRun_held (s : State) (r : TRef) (f : Run → Run) : (s.modRun r f).held = s.held := State.modThread_held ..
@[simp] theorem State.modRun_undo (s : State) (r : TRef) (f : Run → Run) : (s.modRun r f).undo = s.undo := State.modThread_undo ..
@[simp] theorem State.modRun_copies (s : State) (r : TRef) (f : Run → Run) : (s.modRun r f).copies = s.copies := State.modThread_copies ..
@[simp] theorem State.modRun_tileOps (s : State) (r : TRef) (f : Run → Run) : (s.modRun r f).tileOps = s.tileOps := State.modThread_tileOps ..
@[simp] theorem State.modRun_passHolds (s : State) (r : TRef) (f : Run → Run) : (s.modRun r f).passHolds = s.passHolds := State.modThread_passHolds ..
@[simp] theorem State.modRun_tgens (s : State) (r : TRef) (f : Run → Run) : (s.modRun r f).tgens = s.tgens := State.modThread_tgens ..
@[simp] theorem State.modRun_rvHolds (s : State) (r : TRef) (f : Run → Run) : (s.modRun r f).rvHolds = s.rvHolds := State.modThread_rvHolds ..
@[simp] theorem State.modRun_rvOpen (s : State) (r : TRef) (f : Run → Run) : (s.modRun r f).rvOpen = s.rvOpen := State.modThread_rvOpen ..
@[simp] theorem State.modRun_mazes (s : State) (r : TRef) (f : Run → Run) : (s.modRun r f).mazes = s.mazes := State.modThread_mazes ..
@[simp] theorem State.modRun_lodges (s : State) (r : TRef) (f : Run → Run) : (s.modRun r f).lodges = s.lodges := State.modThread_lodges ..
@[simp] theorem State.modRun_lodgeWaits (s : State) (r : TRef) (f : Run → Run) : (s.modRun r f).lodgeWaits = s.lodgeWaits := State.modThread_lodgeWaits ..
@[simp] theorem State.modRun_slotGens (s : State) (r : TRef) (f : Run → Run) : (s.modRun r f).slotGens = s.slotGens := State.modThread_slotGens ..
@[simp] theorem State.modRun_genBlocks (s : State) (r : TRef) (f : Run → Run) : (s.modRun r f).genBlocks = s.genBlocks := State.modThread_genBlocks ..
@[simp] theorem State.modRun_strikes (s : State) (r : TRef) (f : Run → Run) : (s.modRun r f).strikes = s.strikes := State.modThread_strikes ..
@[simp] theorem State.modRun_strikeLog (s : State) (r : TRef) (f : Run → Run) : (s.modRun r f).strikeLog = s.strikeLog := State.modThread_strikeLog ..
@[simp] theorem State.modRun_lostCores (s : State) (r : TRef) (f : Run → Run) : (s.modRun r f).lostCores = s.lostCores := State.modThread_lostCores ..
@[simp] theorem State.modRun_turns (s : State) (r : TRef) (f : Run → Run) : (s.modRun r f).turns = s.turns := State.modThread_turns ..
@[simp] theorem State.modRun_retiredChannels (s : State) (r : TRef) (f : Run → Run) : (s.modRun r f).retiredChannels = s.retiredChannels := State.modThread_retiredChannels ..
@[simp] theorem State.modRun_rmws (s : State) (r : TRef) (f : Run → Run) : (s.modRun r f).rmws = s.rmws := State.modThread_rmws ..
@[simp] theorem State.modRun_fab (s : State) (r : TRef) (f : Run → Run) : (s.modRun r f).fab = s.fab := State.modThread_fab ..
@[simp] theorem State.modRun_sys (s : State) (r : TRef) (f : Run → Run) : (s.modRun r f).sys = s.sys := State.modThread_sys ..
@[simp] theorem State.modRun_clock (s : State) (r : TRef) (f : Run → Run) : (s.modRun r f).clock = s.clock := State.modThread_clock ..
@[simp] theorem State.modRun_us (s : State) (r : TRef) (f : Run → Run) : (s.modRun r f).us = s.us := State.modThread_us ..
@[simp] theorem State.modRun_usub (s : State) (r : TRef) (f : Run → Run) : (s.modRun r f).usub = s.usub := State.modThread_usub ..
@[simp] theorem State.modRun_freq (s : State) (r : TRef) (f : Run → Run) : (s.modRun r f).freq = s.freq := State.modThread_freq ..
@[simp] theorem State.modRun_nextId (s : State) (r : TRef) (f : Run → Run) : (s.modRun r f).nextId = s.nextId := State.modThread_nextId ..
@[simp] theorem State.modRun_fresh (s : State) (r : TRef) (f : Run → Run) : (s.modRun r f).fresh = s.fresh := State.modThread_fresh ..
@[simp] theorem State.modRun_sched (s : State) (r : TRef) (f : Run → Run) : (s.modRun r f).sched = s.sched := State.modThread_sched ..
@[simp] theorem State.modRun_cur (s : State) (r : TRef) (f : Run → Run) : (s.modRun r f).cur = s.cur := State.modThread_cur ..

/-! ### State.pass -/

@[simp] theorem State.pass_wgs (s : State) (r : TRef) (n : Nat) : (s.pass r n).wgs = s.wgs := State.modThread_wgs ..
@[simp] theorem State.pass_quads (s : State) (r : TRef) (n : Nat) : (s.pass r n).quads = s.quads := State.modThread_quads ..
@[simp] theorem State.pass_launches (s : State) (r : TRef) (n : Nat) : (s.pass r n).launches = s.launches := State.modThread_launches ..
@[simp] theorem State.pass_affWaits (s : State) (r : TRef) (n : Nat) : (s.pass r n).affWaits = s.affWaits := State.modThread_affWaits ..
@[simp] theorem State.pass_parts (s : State) (r : TRef) (n : Nat) : (s.pass r n).parts = s.parts := State.modThread_parts ..
@[simp] theorem State.pass_mem (s : State) (r : TRef) (n : Nat) : (s.pass r n).mem = s.mem := State.modThread_mem ..
@[simp] theorem State.pass_full (s : State) (r : TRef) (n : Nat) : (s.pass r n).full = s.full := State.modThread_full ..
@[simp] theorem State.pass_claims (s : State) (r : TRef) (n : Nat) : (s.pass r n).claims = s.claims := State.modThread_claims ..
@[simp] theorem State.pass_l1 (s : State) (r : TRef) (n : Nat) : (s.pass r n).l1 = s.l1 := State.modThread_l1 ..
@[simp] theorem State.pass_l2 (s : State) (r : TRef) (n : Nat) : (s.pass r n).l2 = s.l2 := State.modThread_l2 ..
@[simp] theorem State.pass_back (s : State) (r : TRef) (n : Nat) : (s.pass r n).back = s.back := State.modThread_back ..
@[simp] theorem State.pass_canGens (s : State) (r : TRef) (n : Nat) : (s.pass r n).canGens = s.canGens := State.modThread_canGens ..
@[simp] theorem State.pass_canRanges (s : State) (r : TRef) (n : Nat) : (s.pass r n).canRanges = s.canRanges := State.modThread_canRanges ..
@[simp] theorem State.pass_hbmMoved (s : State) (r : TRef) (n : Nat) : (s.pass r n).hbmMoved = s.hbmMoved := State.modThread_hbmMoved ..
@[simp] theorem State.pass_canMoved (s : State) (r : TRef) (n : Nat) : (s.pass r n).canMoved = s.canMoved := State.modThread_canMoved ..
@[simp] theorem State.pass_fetched (s : State) (r : TRef) (n : Nat) : (s.pass r n).fetched = s.fetched := State.modThread_fetched ..
@[simp] theorem State.pass_notes (s : State) (r : TRef) (n : Nat) : (s.pass r n).notes = s.notes := State.modThread_notes ..
@[simp] theorem State.pass_poisoned (s : State) (r : TRef) (n : Nat) : (s.pass r n).poisoned = s.poisoned := State.modThread_poisoned ..
@[simp] theorem State.pass_tlb (s : State) (r : TRef) (n : Nat) : (s.pass r n).tlb = s.tlb := State.modThread_tlb ..
@[simp] theorem State.pass_walks (s : State) (r : TRef) (n : Nat) : (s.pass r n).walks = s.walks := State.modThread_walks ..
@[simp] theorem State.pass_loads (s : State) (r : TRef) (n : Nat) : (s.pass r n).loads = s.loads := State.modThread_loads ..
@[simp] theorem State.pass_stores (s : State) (r : TRef) (n : Nat) : (s.pass r n).stores = s.stores := State.modThread_stores ..
@[simp] theorem State.pass_waiters (s : State) (r : TRef) (n : Nat) : (s.pass r n).waiters = s.waiters := State.modThread_waiters ..
@[simp] theorem State.pass_scReads (s : State) (r : TRef) (n : Nat) : (s.pass r n).scReads = s.scReads := State.modThread_scReads ..
@[simp] theorem State.pass_held (s : State) (r : TRef) (n : Nat) : (s.pass r n).held = s.held := State.modThread_held ..
@[simp] theorem State.pass_undo (s : State) (r : TRef) (n : Nat) : (s.pass r n).undo = s.undo := State.modThread_undo ..
@[simp] theorem State.pass_copies (s : State) (r : TRef) (n : Nat) : (s.pass r n).copies = s.copies := State.modThread_copies ..
@[simp] theorem State.pass_tileOps (s : State) (r : TRef) (n : Nat) : (s.pass r n).tileOps = s.tileOps := State.modThread_tileOps ..
@[simp] theorem State.pass_passHolds (s : State) (r : TRef) (n : Nat) : (s.pass r n).passHolds = s.passHolds := State.modThread_passHolds ..
@[simp] theorem State.pass_tgens (s : State) (r : TRef) (n : Nat) : (s.pass r n).tgens = s.tgens := State.modThread_tgens ..
@[simp] theorem State.pass_rvHolds (s : State) (r : TRef) (n : Nat) : (s.pass r n).rvHolds = s.rvHolds := State.modThread_rvHolds ..
@[simp] theorem State.pass_rvOpen (s : State) (r : TRef) (n : Nat) : (s.pass r n).rvOpen = s.rvOpen := State.modThread_rvOpen ..
@[simp] theorem State.pass_mazes (s : State) (r : TRef) (n : Nat) : (s.pass r n).mazes = s.mazes := State.modThread_mazes ..
@[simp] theorem State.pass_lodges (s : State) (r : TRef) (n : Nat) : (s.pass r n).lodges = s.lodges := State.modThread_lodges ..
@[simp] theorem State.pass_lodgeWaits (s : State) (r : TRef) (n : Nat) : (s.pass r n).lodgeWaits = s.lodgeWaits := State.modThread_lodgeWaits ..
@[simp] theorem State.pass_slotGens (s : State) (r : TRef) (n : Nat) : (s.pass r n).slotGens = s.slotGens := State.modThread_slotGens ..
@[simp] theorem State.pass_genBlocks (s : State) (r : TRef) (n : Nat) : (s.pass r n).genBlocks = s.genBlocks := State.modThread_genBlocks ..
@[simp] theorem State.pass_strikes (s : State) (r : TRef) (n : Nat) : (s.pass r n).strikes = s.strikes := State.modThread_strikes ..
@[simp] theorem State.pass_strikeLog (s : State) (r : TRef) (n : Nat) : (s.pass r n).strikeLog = s.strikeLog := State.modThread_strikeLog ..
@[simp] theorem State.pass_lostCores (s : State) (r : TRef) (n : Nat) : (s.pass r n).lostCores = s.lostCores := State.modThread_lostCores ..
@[simp] theorem State.pass_turns (s : State) (r : TRef) (n : Nat) : (s.pass r n).turns = s.turns := State.modThread_turns ..
@[simp] theorem State.pass_retiredChannels (s : State) (r : TRef) (n : Nat) : (s.pass r n).retiredChannels = s.retiredChannels := State.modThread_retiredChannels ..
@[simp] theorem State.pass_rmws (s : State) (r : TRef) (n : Nat) : (s.pass r n).rmws = s.rmws := State.modThread_rmws ..
@[simp] theorem State.pass_fab (s : State) (r : TRef) (n : Nat) : (s.pass r n).fab = s.fab := State.modThread_fab ..
@[simp] theorem State.pass_sys (s : State) (r : TRef) (n : Nat) : (s.pass r n).sys = s.sys := State.modThread_sys ..
@[simp] theorem State.pass_clock (s : State) (r : TRef) (n : Nat) : (s.pass r n).clock = s.clock := State.modThread_clock ..
@[simp] theorem State.pass_us (s : State) (r : TRef) (n : Nat) : (s.pass r n).us = s.us := State.modThread_us ..
@[simp] theorem State.pass_usub (s : State) (r : TRef) (n : Nat) : (s.pass r n).usub = s.usub := State.modThread_usub ..
@[simp] theorem State.pass_freq (s : State) (r : TRef) (n : Nat) : (s.pass r n).freq = s.freq := State.modThread_freq ..
@[simp] theorem State.pass_nextId (s : State) (r : TRef) (n : Nat) : (s.pass r n).nextId = s.nextId := State.modThread_nextId ..
@[simp] theorem State.pass_fresh (s : State) (r : TRef) (n : Nat) : (s.pass r n).fresh = s.fresh := State.modThread_fresh ..
@[simp] theorem State.pass_sched (s : State) (r : TRef) (n : Nat) : (s.pass r n).sched = s.sched := State.modThread_sched ..
@[simp] theorem State.pass_cur (s : State) (r : TRef) (n : Nat) : (s.pass r n).cur = s.cur := State.modThread_cur ..

/-! ### State.setQuad -/

@[simp] theorem State.setQuad_threads (s : State) (q : Nat) (x : Quad) : (s.setQuad q x).threads = s.threads := rfl
@[simp] theorem State.setQuad_wgs (s : State) (q : Nat) (x : Quad) : (s.setQuad q x).wgs = s.wgs := rfl
@[simp] theorem State.setQuad_launches (s : State) (q : Nat) (x : Quad) : (s.setQuad q x).launches = s.launches := rfl
@[simp] theorem State.setQuad_affWaits (s : State) (q : Nat) (x : Quad) : (s.setQuad q x).affWaits = s.affWaits := rfl
@[simp] theorem State.setQuad_parts (s : State) (q : Nat) (x : Quad) : (s.setQuad q x).parts = s.parts := rfl
@[simp] theorem State.setQuad_mem (s : State) (q : Nat) (x : Quad) : (s.setQuad q x).mem = s.mem := rfl
@[simp] theorem State.setQuad_full (s : State) (q : Nat) (x : Quad) : (s.setQuad q x).full = s.full := rfl
@[simp] theorem State.setQuad_claims (s : State) (q : Nat) (x : Quad) : (s.setQuad q x).claims = s.claims := rfl
@[simp] theorem State.setQuad_l1 (s : State) (q : Nat) (x : Quad) : (s.setQuad q x).l1 = s.l1 := rfl
@[simp] theorem State.setQuad_l2 (s : State) (q : Nat) (x : Quad) : (s.setQuad q x).l2 = s.l2 := rfl
@[simp] theorem State.setQuad_back (s : State) (q : Nat) (x : Quad) : (s.setQuad q x).back = s.back := rfl
@[simp] theorem State.setQuad_canGens (s : State) (q : Nat) (x : Quad) : (s.setQuad q x).canGens = s.canGens := rfl
@[simp] theorem State.setQuad_canRanges (s : State) (q : Nat) (x : Quad) : (s.setQuad q x).canRanges = s.canRanges := rfl
@[simp] theorem State.setQuad_hbmMoved (s : State) (q : Nat) (x : Quad) : (s.setQuad q x).hbmMoved = s.hbmMoved := rfl
@[simp] theorem State.setQuad_canMoved (s : State) (q : Nat) (x : Quad) : (s.setQuad q x).canMoved = s.canMoved := rfl
@[simp] theorem State.setQuad_fetched (s : State) (q : Nat) (x : Quad) : (s.setQuad q x).fetched = s.fetched := rfl
@[simp] theorem State.setQuad_notes (s : State) (q : Nat) (x : Quad) : (s.setQuad q x).notes = s.notes := rfl
@[simp] theorem State.setQuad_poisoned (s : State) (q : Nat) (x : Quad) : (s.setQuad q x).poisoned = s.poisoned := rfl
@[simp] theorem State.setQuad_tlb (s : State) (q : Nat) (x : Quad) : (s.setQuad q x).tlb = s.tlb := rfl
@[simp] theorem State.setQuad_walks (s : State) (q : Nat) (x : Quad) : (s.setQuad q x).walks = s.walks := rfl
@[simp] theorem State.setQuad_loads (s : State) (q : Nat) (x : Quad) : (s.setQuad q x).loads = s.loads := rfl
@[simp] theorem State.setQuad_stores (s : State) (q : Nat) (x : Quad) : (s.setQuad q x).stores = s.stores := rfl
@[simp] theorem State.setQuad_waiters (s : State) (q : Nat) (x : Quad) : (s.setQuad q x).waiters = s.waiters := rfl
@[simp] theorem State.setQuad_scReads (s : State) (q : Nat) (x : Quad) : (s.setQuad q x).scReads = s.scReads := rfl
@[simp] theorem State.setQuad_held (s : State) (q : Nat) (x : Quad) : (s.setQuad q x).held = s.held := rfl
@[simp] theorem State.setQuad_undo (s : State) (q : Nat) (x : Quad) : (s.setQuad q x).undo = s.undo := rfl
@[simp] theorem State.setQuad_copies (s : State) (q : Nat) (x : Quad) : (s.setQuad q x).copies = s.copies := rfl
@[simp] theorem State.setQuad_tileOps (s : State) (q : Nat) (x : Quad) : (s.setQuad q x).tileOps = s.tileOps := rfl
@[simp] theorem State.setQuad_passHolds (s : State) (q : Nat) (x : Quad) : (s.setQuad q x).passHolds = s.passHolds := rfl
@[simp] theorem State.setQuad_tgens (s : State) (q : Nat) (x : Quad) : (s.setQuad q x).tgens = s.tgens := rfl
@[simp] theorem State.setQuad_rvHolds (s : State) (q : Nat) (x : Quad) : (s.setQuad q x).rvHolds = s.rvHolds := rfl
@[simp] theorem State.setQuad_rvOpen (s : State) (q : Nat) (x : Quad) : (s.setQuad q x).rvOpen = s.rvOpen := rfl
@[simp] theorem State.setQuad_mazes (s : State) (q : Nat) (x : Quad) : (s.setQuad q x).mazes = s.mazes := rfl
@[simp] theorem State.setQuad_lodges (s : State) (q : Nat) (x : Quad) : (s.setQuad q x).lodges = s.lodges := rfl
@[simp] theorem State.setQuad_lodgeWaits (s : State) (q : Nat) (x : Quad) : (s.setQuad q x).lodgeWaits = s.lodgeWaits := rfl
@[simp] theorem State.setQuad_slotGens (s : State) (q : Nat) (x : Quad) : (s.setQuad q x).slotGens = s.slotGens := rfl
@[simp] theorem State.setQuad_genBlocks (s : State) (q : Nat) (x : Quad) : (s.setQuad q x).genBlocks = s.genBlocks := rfl
@[simp] theorem State.setQuad_strikes (s : State) (q : Nat) (x : Quad) : (s.setQuad q x).strikes = s.strikes := rfl
@[simp] theorem State.setQuad_strikeLog (s : State) (q : Nat) (x : Quad) : (s.setQuad q x).strikeLog = s.strikeLog := rfl
@[simp] theorem State.setQuad_lostCores (s : State) (q : Nat) (x : Quad) : (s.setQuad q x).lostCores = s.lostCores := rfl
@[simp] theorem State.setQuad_turns (s : State) (q : Nat) (x : Quad) : (s.setQuad q x).turns = s.turns := rfl
@[simp] theorem State.setQuad_retiredChannels (s : State) (q : Nat) (x : Quad) : (s.setQuad q x).retiredChannels = s.retiredChannels := rfl
@[simp] theorem State.setQuad_rmws (s : State) (q : Nat) (x : Quad) : (s.setQuad q x).rmws = s.rmws := rfl
@[simp] theorem State.setQuad_fab (s : State) (q : Nat) (x : Quad) : (s.setQuad q x).fab = s.fab := rfl
@[simp] theorem State.setQuad_sys (s : State) (q : Nat) (x : Quad) : (s.setQuad q x).sys = s.sys := rfl
@[simp] theorem State.setQuad_clock (s : State) (q : Nat) (x : Quad) : (s.setQuad q x).clock = s.clock := rfl
@[simp] theorem State.setQuad_us (s : State) (q : Nat) (x : Quad) : (s.setQuad q x).us = s.us := rfl
@[simp] theorem State.setQuad_usub (s : State) (q : Nat) (x : Quad) : (s.setQuad q x).usub = s.usub := rfl
@[simp] theorem State.setQuad_freq (s : State) (q : Nat) (x : Quad) : (s.setQuad q x).freq = s.freq := rfl
@[simp] theorem State.setQuad_nextId (s : State) (q : Nat) (x : Quad) : (s.setQuad q x).nextId = s.nextId := rfl
@[simp] theorem State.setQuad_fresh (s : State) (q : Nat) (x : Quad) : (s.setQuad q x).fresh = s.fresh := rfl
@[simp] theorem State.setQuad_sched (s : State) (q : Nat) (x : Quad) : (s.setQuad q x).sched = s.sched := rfl
@[simp] theorem State.setQuad_cur (s : State) (q : Nat) (x : Quad) : (s.setQuad q x).cur = s.cur := rfl

/-! ### State.modQuad -/

@[simp] theorem State.modQuad_threads (s : State) (q : Nat) (f : Quad → Quad) : (s.modQuad q f).threads = s.threads := rfl
@[simp] theorem State.modQuad_wgs (s : State) (q : Nat) (f : Quad → Quad) : (s.modQuad q f).wgs = s.wgs := rfl
@[simp] theorem State.modQuad_launches (s : State) (q : Nat) (f : Quad → Quad) : (s.modQuad q f).launches = s.launches := rfl
@[simp] theorem State.modQuad_affWaits (s : State) (q : Nat) (f : Quad → Quad) : (s.modQuad q f).affWaits = s.affWaits := rfl
@[simp] theorem State.modQuad_parts (s : State) (q : Nat) (f : Quad → Quad) : (s.modQuad q f).parts = s.parts := rfl
@[simp] theorem State.modQuad_mem (s : State) (q : Nat) (f : Quad → Quad) : (s.modQuad q f).mem = s.mem := rfl
@[simp] theorem State.modQuad_full (s : State) (q : Nat) (f : Quad → Quad) : (s.modQuad q f).full = s.full := rfl
@[simp] theorem State.modQuad_claims (s : State) (q : Nat) (f : Quad → Quad) : (s.modQuad q f).claims = s.claims := rfl
@[simp] theorem State.modQuad_l1 (s : State) (q : Nat) (f : Quad → Quad) : (s.modQuad q f).l1 = s.l1 := rfl
@[simp] theorem State.modQuad_l2 (s : State) (q : Nat) (f : Quad → Quad) : (s.modQuad q f).l2 = s.l2 := rfl
@[simp] theorem State.modQuad_back (s : State) (q : Nat) (f : Quad → Quad) : (s.modQuad q f).back = s.back := rfl
@[simp] theorem State.modQuad_canGens (s : State) (q : Nat) (f : Quad → Quad) : (s.modQuad q f).canGens = s.canGens := rfl
@[simp] theorem State.modQuad_canRanges (s : State) (q : Nat) (f : Quad → Quad) : (s.modQuad q f).canRanges = s.canRanges := rfl
@[simp] theorem State.modQuad_hbmMoved (s : State) (q : Nat) (f : Quad → Quad) : (s.modQuad q f).hbmMoved = s.hbmMoved := rfl
@[simp] theorem State.modQuad_canMoved (s : State) (q : Nat) (f : Quad → Quad) : (s.modQuad q f).canMoved = s.canMoved := rfl
@[simp] theorem State.modQuad_fetched (s : State) (q : Nat) (f : Quad → Quad) : (s.modQuad q f).fetched = s.fetched := rfl
@[simp] theorem State.modQuad_notes (s : State) (q : Nat) (f : Quad → Quad) : (s.modQuad q f).notes = s.notes := rfl
@[simp] theorem State.modQuad_poisoned (s : State) (q : Nat) (f : Quad → Quad) : (s.modQuad q f).poisoned = s.poisoned := rfl
@[simp] theorem State.modQuad_tlb (s : State) (q : Nat) (f : Quad → Quad) : (s.modQuad q f).tlb = s.tlb := rfl
@[simp] theorem State.modQuad_walks (s : State) (q : Nat) (f : Quad → Quad) : (s.modQuad q f).walks = s.walks := rfl
@[simp] theorem State.modQuad_loads (s : State) (q : Nat) (f : Quad → Quad) : (s.modQuad q f).loads = s.loads := rfl
@[simp] theorem State.modQuad_stores (s : State) (q : Nat) (f : Quad → Quad) : (s.modQuad q f).stores = s.stores := rfl
@[simp] theorem State.modQuad_waiters (s : State) (q : Nat) (f : Quad → Quad) : (s.modQuad q f).waiters = s.waiters := rfl
@[simp] theorem State.modQuad_scReads (s : State) (q : Nat) (f : Quad → Quad) : (s.modQuad q f).scReads = s.scReads := rfl
@[simp] theorem State.modQuad_held (s : State) (q : Nat) (f : Quad → Quad) : (s.modQuad q f).held = s.held := rfl
@[simp] theorem State.modQuad_undo (s : State) (q : Nat) (f : Quad → Quad) : (s.modQuad q f).undo = s.undo := rfl
@[simp] theorem State.modQuad_copies (s : State) (q : Nat) (f : Quad → Quad) : (s.modQuad q f).copies = s.copies := rfl
@[simp] theorem State.modQuad_tileOps (s : State) (q : Nat) (f : Quad → Quad) : (s.modQuad q f).tileOps = s.tileOps := rfl
@[simp] theorem State.modQuad_passHolds (s : State) (q : Nat) (f : Quad → Quad) : (s.modQuad q f).passHolds = s.passHolds := rfl
@[simp] theorem State.modQuad_tgens (s : State) (q : Nat) (f : Quad → Quad) : (s.modQuad q f).tgens = s.tgens := rfl
@[simp] theorem State.modQuad_rvHolds (s : State) (q : Nat) (f : Quad → Quad) : (s.modQuad q f).rvHolds = s.rvHolds := rfl
@[simp] theorem State.modQuad_rvOpen (s : State) (q : Nat) (f : Quad → Quad) : (s.modQuad q f).rvOpen = s.rvOpen := rfl
@[simp] theorem State.modQuad_mazes (s : State) (q : Nat) (f : Quad → Quad) : (s.modQuad q f).mazes = s.mazes := rfl
@[simp] theorem State.modQuad_lodges (s : State) (q : Nat) (f : Quad → Quad) : (s.modQuad q f).lodges = s.lodges := rfl
@[simp] theorem State.modQuad_lodgeWaits (s : State) (q : Nat) (f : Quad → Quad) : (s.modQuad q f).lodgeWaits = s.lodgeWaits := rfl
@[simp] theorem State.modQuad_slotGens (s : State) (q : Nat) (f : Quad → Quad) : (s.modQuad q f).slotGens = s.slotGens := rfl
@[simp] theorem State.modQuad_genBlocks (s : State) (q : Nat) (f : Quad → Quad) : (s.modQuad q f).genBlocks = s.genBlocks := rfl
@[simp] theorem State.modQuad_strikes (s : State) (q : Nat) (f : Quad → Quad) : (s.modQuad q f).strikes = s.strikes := rfl
@[simp] theorem State.modQuad_strikeLog (s : State) (q : Nat) (f : Quad → Quad) : (s.modQuad q f).strikeLog = s.strikeLog := rfl
@[simp] theorem State.modQuad_lostCores (s : State) (q : Nat) (f : Quad → Quad) : (s.modQuad q f).lostCores = s.lostCores := rfl
@[simp] theorem State.modQuad_turns (s : State) (q : Nat) (f : Quad → Quad) : (s.modQuad q f).turns = s.turns := rfl
@[simp] theorem State.modQuad_retiredChannels (s : State) (q : Nat) (f : Quad → Quad) : (s.modQuad q f).retiredChannels = s.retiredChannels := rfl
@[simp] theorem State.modQuad_rmws (s : State) (q : Nat) (f : Quad → Quad) : (s.modQuad q f).rmws = s.rmws := rfl
@[simp] theorem State.modQuad_fab (s : State) (q : Nat) (f : Quad → Quad) : (s.modQuad q f).fab = s.fab := rfl
@[simp] theorem State.modQuad_sys (s : State) (q : Nat) (f : Quad → Quad) : (s.modQuad q f).sys = s.sys := rfl
@[simp] theorem State.modQuad_clock (s : State) (q : Nat) (f : Quad → Quad) : (s.modQuad q f).clock = s.clock := rfl
@[simp] theorem State.modQuad_us (s : State) (q : Nat) (f : Quad → Quad) : (s.modQuad q f).us = s.us := rfl
@[simp] theorem State.modQuad_usub (s : State) (q : Nat) (f : Quad → Quad) : (s.modQuad q f).usub = s.usub := rfl
@[simp] theorem State.modQuad_freq (s : State) (q : Nat) (f : Quad → Quad) : (s.modQuad q f).freq = s.freq := rfl
@[simp] theorem State.modQuad_nextId (s : State) (q : Nat) (f : Quad → Quad) : (s.modQuad q f).nextId = s.nextId := rfl
@[simp] theorem State.modQuad_fresh (s : State) (q : Nat) (f : Quad → Quad) : (s.modQuad q f).fresh = s.fresh := rfl
@[simp] theorem State.modQuad_sched (s : State) (q : Nat) (f : Quad → Quad) : (s.modQuad q f).sched = s.sched := rfl
@[simp] theorem State.modQuad_cur (s : State) (q : Nat) (f : Quad → Quad) : (s.modQuad q f).cur = s.cur := rfl

/-! ### State.interlock -/

@[simp] theorem State.interlock_threads (s : State) (r : TRef) : (s.interlock r).threads = s.threads := rfl
@[simp] theorem State.interlock_wgs (s : State) (r : TRef) : (s.interlock r).wgs = s.wgs := rfl
@[simp] theorem State.interlock_launches (s : State) (r : TRef) : (s.interlock r).launches = s.launches := rfl
@[simp] theorem State.interlock_affWaits (s : State) (r : TRef) : (s.interlock r).affWaits = s.affWaits := rfl
@[simp] theorem State.interlock_parts (s : State) (r : TRef) : (s.interlock r).parts = s.parts := rfl
@[simp] theorem State.interlock_mem (s : State) (r : TRef) : (s.interlock r).mem = s.mem := rfl
@[simp] theorem State.interlock_full (s : State) (r : TRef) : (s.interlock r).full = s.full := rfl
@[simp] theorem State.interlock_claims (s : State) (r : TRef) : (s.interlock r).claims = s.claims := rfl
@[simp] theorem State.interlock_l1 (s : State) (r : TRef) : (s.interlock r).l1 = s.l1 := rfl
@[simp] theorem State.interlock_l2 (s : State) (r : TRef) : (s.interlock r).l2 = s.l2 := rfl
@[simp] theorem State.interlock_back (s : State) (r : TRef) : (s.interlock r).back = s.back := rfl
@[simp] theorem State.interlock_canGens (s : State) (r : TRef) : (s.interlock r).canGens = s.canGens := rfl
@[simp] theorem State.interlock_canRanges (s : State) (r : TRef) : (s.interlock r).canRanges = s.canRanges := rfl
@[simp] theorem State.interlock_hbmMoved (s : State) (r : TRef) : (s.interlock r).hbmMoved = s.hbmMoved := rfl
@[simp] theorem State.interlock_canMoved (s : State) (r : TRef) : (s.interlock r).canMoved = s.canMoved := rfl
@[simp] theorem State.interlock_fetched (s : State) (r : TRef) : (s.interlock r).fetched = s.fetched := rfl
@[simp] theorem State.interlock_notes (s : State) (r : TRef) : (s.interlock r).notes = s.notes := rfl
@[simp] theorem State.interlock_poisoned (s : State) (r : TRef) : (s.interlock r).poisoned = s.poisoned := rfl
@[simp] theorem State.interlock_tlb (s : State) (r : TRef) : (s.interlock r).tlb = s.tlb := rfl
@[simp] theorem State.interlock_walks (s : State) (r : TRef) : (s.interlock r).walks = s.walks := rfl
@[simp] theorem State.interlock_loads (s : State) (r : TRef) : (s.interlock r).loads = s.loads := rfl
@[simp] theorem State.interlock_stores (s : State) (r : TRef) : (s.interlock r).stores = s.stores := rfl
@[simp] theorem State.interlock_waiters (s : State) (r : TRef) : (s.interlock r).waiters = s.waiters := rfl
@[simp] theorem State.interlock_scReads (s : State) (r : TRef) : (s.interlock r).scReads = s.scReads := rfl
@[simp] theorem State.interlock_held (s : State) (r : TRef) : (s.interlock r).held = s.held := rfl
@[simp] theorem State.interlock_undo (s : State) (r : TRef) : (s.interlock r).undo = s.undo := rfl
@[simp] theorem State.interlock_copies (s : State) (r : TRef) : (s.interlock r).copies = s.copies := rfl
@[simp] theorem State.interlock_tileOps (s : State) (r : TRef) : (s.interlock r).tileOps = s.tileOps := rfl
@[simp] theorem State.interlock_passHolds (s : State) (r : TRef) : (s.interlock r).passHolds = s.passHolds := rfl
@[simp] theorem State.interlock_tgens (s : State) (r : TRef) : (s.interlock r).tgens = s.tgens := rfl
@[simp] theorem State.interlock_rvHolds (s : State) (r : TRef) : (s.interlock r).rvHolds = s.rvHolds := rfl
@[simp] theorem State.interlock_rvOpen (s : State) (r : TRef) : (s.interlock r).rvOpen = s.rvOpen := rfl
@[simp] theorem State.interlock_mazes (s : State) (r : TRef) : (s.interlock r).mazes = s.mazes := rfl
@[simp] theorem State.interlock_lodges (s : State) (r : TRef) : (s.interlock r).lodges = s.lodges := rfl
@[simp] theorem State.interlock_lodgeWaits (s : State) (r : TRef) : (s.interlock r).lodgeWaits = s.lodgeWaits := rfl
@[simp] theorem State.interlock_slotGens (s : State) (r : TRef) : (s.interlock r).slotGens = s.slotGens := rfl
@[simp] theorem State.interlock_genBlocks (s : State) (r : TRef) : (s.interlock r).genBlocks = s.genBlocks := rfl
@[simp] theorem State.interlock_strikes (s : State) (r : TRef) : (s.interlock r).strikes = s.strikes := rfl
@[simp] theorem State.interlock_strikeLog (s : State) (r : TRef) : (s.interlock r).strikeLog = s.strikeLog := rfl
@[simp] theorem State.interlock_lostCores (s : State) (r : TRef) : (s.interlock r).lostCores = s.lostCores := rfl
@[simp] theorem State.interlock_turns (s : State) (r : TRef) : (s.interlock r).turns = s.turns := rfl
@[simp] theorem State.interlock_retiredChannels (s : State) (r : TRef) : (s.interlock r).retiredChannels = s.retiredChannels := rfl
@[simp] theorem State.interlock_rmws (s : State) (r : TRef) : (s.interlock r).rmws = s.rmws := rfl
@[simp] theorem State.interlock_fab (s : State) (r : TRef) : (s.interlock r).fab = s.fab := rfl
@[simp] theorem State.interlock_sys (s : State) (r : TRef) : (s.interlock r).sys = s.sys := rfl
@[simp] theorem State.interlock_clock (s : State) (r : TRef) : (s.interlock r).clock = s.clock := rfl
@[simp] theorem State.interlock_us (s : State) (r : TRef) : (s.interlock r).us = s.us := rfl
@[simp] theorem State.interlock_usub (s : State) (r : TRef) : (s.interlock r).usub = s.usub := rfl
@[simp] theorem State.interlock_freq (s : State) (r : TRef) : (s.interlock r).freq = s.freq := rfl
@[simp] theorem State.interlock_nextId (s : State) (r : TRef) : (s.interlock r).nextId = s.nextId := rfl
@[simp] theorem State.interlock_fresh (s : State) (r : TRef) : (s.interlock r).fresh = s.fresh := rfl
@[simp] theorem State.interlock_sched (s : State) (r : TRef) : (s.interlock r).sched = s.sched := rfl
@[simp] theorem State.interlock_cur (s : State) (r : TRef) : (s.interlock r).cur = s.cur := rfl

/-! ### State.modWg -/

@[simp] theorem State.modWg_threads (s : State) (w : Nat) (f : Wg → Wg) : (s.modWg w f).threads = s.threads := by
  unfold State.modWg; split <;> rfl
@[simp] theorem State.modWg_quads (s : State) (w : Nat) (f : Wg → Wg) : (s.modWg w f).quads = s.quads := by
  unfold State.modWg; split <;> rfl
@[simp] theorem State.modWg_launches (s : State) (w : Nat) (f : Wg → Wg) : (s.modWg w f).launches = s.launches := by
  unfold State.modWg; split <;> rfl
@[simp] theorem State.modWg_affWaits (s : State) (w : Nat) (f : Wg → Wg) : (s.modWg w f).affWaits = s.affWaits := by
  unfold State.modWg; split <;> rfl
@[simp] theorem State.modWg_parts (s : State) (w : Nat) (f : Wg → Wg) : (s.modWg w f).parts = s.parts := by
  unfold State.modWg; split <;> rfl
@[simp] theorem State.modWg_mem (s : State) (w : Nat) (f : Wg → Wg) : (s.modWg w f).mem = s.mem := by
  unfold State.modWg; split <;> rfl
@[simp] theorem State.modWg_full (s : State) (w : Nat) (f : Wg → Wg) : (s.modWg w f).full = s.full := by
  unfold State.modWg; split <;> rfl
@[simp] theorem State.modWg_claims (s : State) (w : Nat) (f : Wg → Wg) : (s.modWg w f).claims = s.claims := by
  unfold State.modWg; split <;> rfl
@[simp] theorem State.modWg_l1 (s : State) (w : Nat) (f : Wg → Wg) : (s.modWg w f).l1 = s.l1 := by
  unfold State.modWg; split <;> rfl
@[simp] theorem State.modWg_l2 (s : State) (w : Nat) (f : Wg → Wg) : (s.modWg w f).l2 = s.l2 := by
  unfold State.modWg; split <;> rfl
@[simp] theorem State.modWg_back (s : State) (w : Nat) (f : Wg → Wg) : (s.modWg w f).back = s.back := by
  unfold State.modWg; split <;> rfl
@[simp] theorem State.modWg_canGens (s : State) (w : Nat) (f : Wg → Wg) : (s.modWg w f).canGens = s.canGens := by
  unfold State.modWg; split <;> rfl
@[simp] theorem State.modWg_canRanges (s : State) (w : Nat) (f : Wg → Wg) : (s.modWg w f).canRanges = s.canRanges := by
  unfold State.modWg; split <;> rfl
@[simp] theorem State.modWg_hbmMoved (s : State) (w : Nat) (f : Wg → Wg) : (s.modWg w f).hbmMoved = s.hbmMoved := by
  unfold State.modWg; split <;> rfl
@[simp] theorem State.modWg_canMoved (s : State) (w : Nat) (f : Wg → Wg) : (s.modWg w f).canMoved = s.canMoved := by
  unfold State.modWg; split <;> rfl
@[simp] theorem State.modWg_fetched (s : State) (w : Nat) (f : Wg → Wg) : (s.modWg w f).fetched = s.fetched := by
  unfold State.modWg; split <;> rfl
@[simp] theorem State.modWg_notes (s : State) (w : Nat) (f : Wg → Wg) : (s.modWg w f).notes = s.notes := by
  unfold State.modWg; split <;> rfl
@[simp] theorem State.modWg_poisoned (s : State) (w : Nat) (f : Wg → Wg) : (s.modWg w f).poisoned = s.poisoned := by
  unfold State.modWg; split <;> rfl
@[simp] theorem State.modWg_tlb (s : State) (w : Nat) (f : Wg → Wg) : (s.modWg w f).tlb = s.tlb := by
  unfold State.modWg; split <;> rfl
@[simp] theorem State.modWg_walks (s : State) (w : Nat) (f : Wg → Wg) : (s.modWg w f).walks = s.walks := by
  unfold State.modWg; split <;> rfl
@[simp] theorem State.modWg_loads (s : State) (w : Nat) (f : Wg → Wg) : (s.modWg w f).loads = s.loads := by
  unfold State.modWg; split <;> rfl
@[simp] theorem State.modWg_stores (s : State) (w : Nat) (f : Wg → Wg) : (s.modWg w f).stores = s.stores := by
  unfold State.modWg; split <;> rfl
@[simp] theorem State.modWg_waiters (s : State) (w : Nat) (f : Wg → Wg) : (s.modWg w f).waiters = s.waiters := by
  unfold State.modWg; split <;> rfl
@[simp] theorem State.modWg_scReads (s : State) (w : Nat) (f : Wg → Wg) : (s.modWg w f).scReads = s.scReads := by
  unfold State.modWg; split <;> rfl
@[simp] theorem State.modWg_held (s : State) (w : Nat) (f : Wg → Wg) : (s.modWg w f).held = s.held := by
  unfold State.modWg; split <;> rfl
@[simp] theorem State.modWg_undo (s : State) (w : Nat) (f : Wg → Wg) : (s.modWg w f).undo = s.undo := by
  unfold State.modWg; split <;> rfl
@[simp] theorem State.modWg_copies (s : State) (w : Nat) (f : Wg → Wg) : (s.modWg w f).copies = s.copies := by
  unfold State.modWg; split <;> rfl
@[simp] theorem State.modWg_tileOps (s : State) (w : Nat) (f : Wg → Wg) : (s.modWg w f).tileOps = s.tileOps := by
  unfold State.modWg; split <;> rfl
@[simp] theorem State.modWg_passHolds (s : State) (w : Nat) (f : Wg → Wg) : (s.modWg w f).passHolds = s.passHolds := by
  unfold State.modWg; split <;> rfl
@[simp] theorem State.modWg_tgens (s : State) (w : Nat) (f : Wg → Wg) : (s.modWg w f).tgens = s.tgens := by
  unfold State.modWg; split <;> rfl
@[simp] theorem State.modWg_rvHolds (s : State) (w : Nat) (f : Wg → Wg) : (s.modWg w f).rvHolds = s.rvHolds := by
  unfold State.modWg; split <;> rfl
@[simp] theorem State.modWg_rvOpen (s : State) (w : Nat) (f : Wg → Wg) : (s.modWg w f).rvOpen = s.rvOpen := by
  unfold State.modWg; split <;> rfl
@[simp] theorem State.modWg_mazes (s : State) (w : Nat) (f : Wg → Wg) : (s.modWg w f).mazes = s.mazes := by
  unfold State.modWg; split <;> rfl
@[simp] theorem State.modWg_lodges (s : State) (w : Nat) (f : Wg → Wg) : (s.modWg w f).lodges = s.lodges := by
  unfold State.modWg; split <;> rfl
@[simp] theorem State.modWg_lodgeWaits (s : State) (w : Nat) (f : Wg → Wg) : (s.modWg w f).lodgeWaits = s.lodgeWaits := by
  unfold State.modWg; split <;> rfl
@[simp] theorem State.modWg_slotGens (s : State) (w : Nat) (f : Wg → Wg) : (s.modWg w f).slotGens = s.slotGens := by
  unfold State.modWg; split <;> rfl
@[simp] theorem State.modWg_genBlocks (s : State) (w : Nat) (f : Wg → Wg) : (s.modWg w f).genBlocks = s.genBlocks := by
  unfold State.modWg; split <;> rfl
@[simp] theorem State.modWg_strikes (s : State) (w : Nat) (f : Wg → Wg) : (s.modWg w f).strikes = s.strikes := by
  unfold State.modWg; split <;> rfl
@[simp] theorem State.modWg_strikeLog (s : State) (w : Nat) (f : Wg → Wg) : (s.modWg w f).strikeLog = s.strikeLog := by
  unfold State.modWg; split <;> rfl
@[simp] theorem State.modWg_lostCores (s : State) (w : Nat) (f : Wg → Wg) : (s.modWg w f).lostCores = s.lostCores := by
  unfold State.modWg; split <;> rfl
@[simp] theorem State.modWg_turns (s : State) (w : Nat) (f : Wg → Wg) : (s.modWg w f).turns = s.turns := by
  unfold State.modWg; split <;> rfl
@[simp] theorem State.modWg_retiredChannels (s : State) (w : Nat) (f : Wg → Wg) : (s.modWg w f).retiredChannels = s.retiredChannels := by
  unfold State.modWg; split <;> rfl
@[simp] theorem State.modWg_rmws (s : State) (w : Nat) (f : Wg → Wg) : (s.modWg w f).rmws = s.rmws := by
  unfold State.modWg; split <;> rfl
@[simp] theorem State.modWg_fab (s : State) (w : Nat) (f : Wg → Wg) : (s.modWg w f).fab = s.fab := by
  unfold State.modWg; split <;> rfl
@[simp] theorem State.modWg_sys (s : State) (w : Nat) (f : Wg → Wg) : (s.modWg w f).sys = s.sys := by
  unfold State.modWg; split <;> rfl
@[simp] theorem State.modWg_clock (s : State) (w : Nat) (f : Wg → Wg) : (s.modWg w f).clock = s.clock := by
  unfold State.modWg; split <;> rfl
@[simp] theorem State.modWg_us (s : State) (w : Nat) (f : Wg → Wg) : (s.modWg w f).us = s.us := by
  unfold State.modWg; split <;> rfl
@[simp] theorem State.modWg_usub (s : State) (w : Nat) (f : Wg → Wg) : (s.modWg w f).usub = s.usub := by
  unfold State.modWg; split <;> rfl
@[simp] theorem State.modWg_freq (s : State) (w : Nat) (f : Wg → Wg) : (s.modWg w f).freq = s.freq := by
  unfold State.modWg; split <;> rfl
@[simp] theorem State.modWg_nextId (s : State) (w : Nat) (f : Wg → Wg) : (s.modWg w f).nextId = s.nextId := by
  unfold State.modWg; split <;> rfl
@[simp] theorem State.modWg_fresh (s : State) (w : Nat) (f : Wg → Wg) : (s.modWg w f).fresh = s.fresh := by
  unfold State.modWg; split <;> rfl
@[simp] theorem State.modWg_sched (s : State) (w : Nat) (f : Wg → Wg) : (s.modWg w f).sched = s.sched := by
  unfold State.modWg; split <;> rfl
@[simp] theorem State.modWg_cur (s : State) (w : Nat) (f : Wg → Wg) : (s.modWg w f).cur = s.cur := by
  unfold State.modWg; split <;> rfl

/-! ### State.modPart -/

@[simp] theorem State.modPart_threads (s : State) (p : Nat) (f : Part → Part) : (s.modPart p f).threads = s.threads := rfl
@[simp] theorem State.modPart_wgs (s : State) (p : Nat) (f : Part → Part) : (s.modPart p f).wgs = s.wgs := rfl
@[simp] theorem State.modPart_quads (s : State) (p : Nat) (f : Part → Part) : (s.modPart p f).quads = s.quads := rfl
@[simp] theorem State.modPart_launches (s : State) (p : Nat) (f : Part → Part) : (s.modPart p f).launches = s.launches := rfl
@[simp] theorem State.modPart_affWaits (s : State) (p : Nat) (f : Part → Part) : (s.modPart p f).affWaits = s.affWaits := rfl
@[simp] theorem State.modPart_mem (s : State) (p : Nat) (f : Part → Part) : (s.modPart p f).mem = s.mem := rfl
@[simp] theorem State.modPart_full (s : State) (p : Nat) (f : Part → Part) : (s.modPart p f).full = s.full := rfl
@[simp] theorem State.modPart_claims (s : State) (p : Nat) (f : Part → Part) : (s.modPart p f).claims = s.claims := rfl
@[simp] theorem State.modPart_l1 (s : State) (p : Nat) (f : Part → Part) : (s.modPart p f).l1 = s.l1 := rfl
@[simp] theorem State.modPart_l2 (s : State) (p : Nat) (f : Part → Part) : (s.modPart p f).l2 = s.l2 := rfl
@[simp] theorem State.modPart_back (s : State) (p : Nat) (f : Part → Part) : (s.modPart p f).back = s.back := rfl
@[simp] theorem State.modPart_canGens (s : State) (p : Nat) (f : Part → Part) : (s.modPart p f).canGens = s.canGens := rfl
@[simp] theorem State.modPart_canRanges (s : State) (p : Nat) (f : Part → Part) : (s.modPart p f).canRanges = s.canRanges := rfl
@[simp] theorem State.modPart_hbmMoved (s : State) (p : Nat) (f : Part → Part) : (s.modPart p f).hbmMoved = s.hbmMoved := rfl
@[simp] theorem State.modPart_canMoved (s : State) (p : Nat) (f : Part → Part) : (s.modPart p f).canMoved = s.canMoved := rfl
@[simp] theorem State.modPart_fetched (s : State) (p : Nat) (f : Part → Part) : (s.modPart p f).fetched = s.fetched := rfl
@[simp] theorem State.modPart_notes (s : State) (p : Nat) (f : Part → Part) : (s.modPart p f).notes = s.notes := rfl
@[simp] theorem State.modPart_poisoned (s : State) (p : Nat) (f : Part → Part) : (s.modPart p f).poisoned = s.poisoned := rfl
@[simp] theorem State.modPart_tlb (s : State) (p : Nat) (f : Part → Part) : (s.modPart p f).tlb = s.tlb := rfl
@[simp] theorem State.modPart_walks (s : State) (p : Nat) (f : Part → Part) : (s.modPart p f).walks = s.walks := rfl
@[simp] theorem State.modPart_loads (s : State) (p : Nat) (f : Part → Part) : (s.modPart p f).loads = s.loads := rfl
@[simp] theorem State.modPart_stores (s : State) (p : Nat) (f : Part → Part) : (s.modPart p f).stores = s.stores := rfl
@[simp] theorem State.modPart_waiters (s : State) (p : Nat) (f : Part → Part) : (s.modPart p f).waiters = s.waiters := rfl
@[simp] theorem State.modPart_scReads (s : State) (p : Nat) (f : Part → Part) : (s.modPart p f).scReads = s.scReads := rfl
@[simp] theorem State.modPart_held (s : State) (p : Nat) (f : Part → Part) : (s.modPart p f).held = s.held := rfl
@[simp] theorem State.modPart_undo (s : State) (p : Nat) (f : Part → Part) : (s.modPart p f).undo = s.undo := rfl
@[simp] theorem State.modPart_copies (s : State) (p : Nat) (f : Part → Part) : (s.modPart p f).copies = s.copies := rfl
@[simp] theorem State.modPart_tileOps (s : State) (p : Nat) (f : Part → Part) : (s.modPart p f).tileOps = s.tileOps := rfl
@[simp] theorem State.modPart_passHolds (s : State) (p : Nat) (f : Part → Part) : (s.modPart p f).passHolds = s.passHolds := rfl
@[simp] theorem State.modPart_tgens (s : State) (p : Nat) (f : Part → Part) : (s.modPart p f).tgens = s.tgens := rfl
@[simp] theorem State.modPart_rvHolds (s : State) (p : Nat) (f : Part → Part) : (s.modPart p f).rvHolds = s.rvHolds := rfl
@[simp] theorem State.modPart_rvOpen (s : State) (p : Nat) (f : Part → Part) : (s.modPart p f).rvOpen = s.rvOpen := rfl
@[simp] theorem State.modPart_mazes (s : State) (p : Nat) (f : Part → Part) : (s.modPart p f).mazes = s.mazes := rfl
@[simp] theorem State.modPart_lodges (s : State) (p : Nat) (f : Part → Part) : (s.modPart p f).lodges = s.lodges := rfl
@[simp] theorem State.modPart_lodgeWaits (s : State) (p : Nat) (f : Part → Part) : (s.modPart p f).lodgeWaits = s.lodgeWaits := rfl
@[simp] theorem State.modPart_slotGens (s : State) (p : Nat) (f : Part → Part) : (s.modPart p f).slotGens = s.slotGens := rfl
@[simp] theorem State.modPart_genBlocks (s : State) (p : Nat) (f : Part → Part) : (s.modPart p f).genBlocks = s.genBlocks := rfl
@[simp] theorem State.modPart_strikes (s : State) (p : Nat) (f : Part → Part) : (s.modPart p f).strikes = s.strikes := rfl
@[simp] theorem State.modPart_strikeLog (s : State) (p : Nat) (f : Part → Part) : (s.modPart p f).strikeLog = s.strikeLog := rfl
@[simp] theorem State.modPart_lostCores (s : State) (p : Nat) (f : Part → Part) : (s.modPart p f).lostCores = s.lostCores := rfl
@[simp] theorem State.modPart_turns (s : State) (p : Nat) (f : Part → Part) : (s.modPart p f).turns = s.turns := rfl
@[simp] theorem State.modPart_retiredChannels (s : State) (p : Nat) (f : Part → Part) : (s.modPart p f).retiredChannels = s.retiredChannels := rfl
@[simp] theorem State.modPart_rmws (s : State) (p : Nat) (f : Part → Part) : (s.modPart p f).rmws = s.rmws := rfl
@[simp] theorem State.modPart_fab (s : State) (p : Nat) (f : Part → Part) : (s.modPart p f).fab = s.fab := rfl
@[simp] theorem State.modPart_sys (s : State) (p : Nat) (f : Part → Part) : (s.modPart p f).sys = s.sys := rfl
@[simp] theorem State.modPart_clock (s : State) (p : Nat) (f : Part → Part) : (s.modPart p f).clock = s.clock := rfl
@[simp] theorem State.modPart_us (s : State) (p : Nat) (f : Part → Part) : (s.modPart p f).us = s.us := rfl
@[simp] theorem State.modPart_usub (s : State) (p : Nat) (f : Part → Part) : (s.modPart p f).usub = s.usub := rfl
@[simp] theorem State.modPart_freq (s : State) (p : Nat) (f : Part → Part) : (s.modPart p f).freq = s.freq := rfl
@[simp] theorem State.modPart_nextId (s : State) (p : Nat) (f : Part → Part) : (s.modPart p f).nextId = s.nextId := rfl
@[simp] theorem State.modPart_fresh (s : State) (p : Nat) (f : Part → Part) : (s.modPart p f).fresh = s.fresh := rfl
@[simp] theorem State.modPart_sched (s : State) (p : Nat) (f : Part → Part) : (s.modPart p f).sched = s.sched := rfl
@[simp] theorem State.modPart_cur (s : State) (p : Nat) (f : Part → Part) : (s.modPart p f).cur = s.cur := rfl

/-! ### State.modLaunch -/

@[simp] theorem State.modLaunch_threads (s : State) (l : Nat) (f : Launch → Launch) : (s.modLaunch l f).threads = s.threads := by
  unfold State.modLaunch; split <;> rfl
@[simp] theorem State.modLaunch_wgs (s : State) (l : Nat) (f : Launch → Launch) : (s.modLaunch l f).wgs = s.wgs := by
  unfold State.modLaunch; split <;> rfl
@[simp] theorem State.modLaunch_quads (s : State) (l : Nat) (f : Launch → Launch) : (s.modLaunch l f).quads = s.quads := by
  unfold State.modLaunch; split <;> rfl
@[simp] theorem State.modLaunch_affWaits (s : State) (l : Nat) (f : Launch → Launch) : (s.modLaunch l f).affWaits = s.affWaits := by
  unfold State.modLaunch; split <;> rfl
@[simp] theorem State.modLaunch_parts (s : State) (l : Nat) (f : Launch → Launch) : (s.modLaunch l f).parts = s.parts := by
  unfold State.modLaunch; split <;> rfl
@[simp] theorem State.modLaunch_mem (s : State) (l : Nat) (f : Launch → Launch) : (s.modLaunch l f).mem = s.mem := by
  unfold State.modLaunch; split <;> rfl
@[simp] theorem State.modLaunch_full (s : State) (l : Nat) (f : Launch → Launch) : (s.modLaunch l f).full = s.full := by
  unfold State.modLaunch; split <;> rfl
@[simp] theorem State.modLaunch_claims (s : State) (l : Nat) (f : Launch → Launch) : (s.modLaunch l f).claims = s.claims := by
  unfold State.modLaunch; split <;> rfl
@[simp] theorem State.modLaunch_l1 (s : State) (l : Nat) (f : Launch → Launch) : (s.modLaunch l f).l1 = s.l1 := by
  unfold State.modLaunch; split <;> rfl
@[simp] theorem State.modLaunch_l2 (s : State) (l : Nat) (f : Launch → Launch) : (s.modLaunch l f).l2 = s.l2 := by
  unfold State.modLaunch; split <;> rfl
@[simp] theorem State.modLaunch_back (s : State) (l : Nat) (f : Launch → Launch) : (s.modLaunch l f).back = s.back := by
  unfold State.modLaunch; split <;> rfl
@[simp] theorem State.modLaunch_canGens (s : State) (l : Nat) (f : Launch → Launch) : (s.modLaunch l f).canGens = s.canGens := by
  unfold State.modLaunch; split <;> rfl
@[simp] theorem State.modLaunch_canRanges (s : State) (l : Nat) (f : Launch → Launch) : (s.modLaunch l f).canRanges = s.canRanges := by
  unfold State.modLaunch; split <;> rfl
@[simp] theorem State.modLaunch_hbmMoved (s : State) (l : Nat) (f : Launch → Launch) : (s.modLaunch l f).hbmMoved = s.hbmMoved := by
  unfold State.modLaunch; split <;> rfl
@[simp] theorem State.modLaunch_canMoved (s : State) (l : Nat) (f : Launch → Launch) : (s.modLaunch l f).canMoved = s.canMoved := by
  unfold State.modLaunch; split <;> rfl
@[simp] theorem State.modLaunch_fetched (s : State) (l : Nat) (f : Launch → Launch) : (s.modLaunch l f).fetched = s.fetched := by
  unfold State.modLaunch; split <;> rfl
@[simp] theorem State.modLaunch_notes (s : State) (l : Nat) (f : Launch → Launch) : (s.modLaunch l f).notes = s.notes := by
  unfold State.modLaunch; split <;> rfl
@[simp] theorem State.modLaunch_poisoned (s : State) (l : Nat) (f : Launch → Launch) : (s.modLaunch l f).poisoned = s.poisoned := by
  unfold State.modLaunch; split <;> rfl
@[simp] theorem State.modLaunch_tlb (s : State) (l : Nat) (f : Launch → Launch) : (s.modLaunch l f).tlb = s.tlb := by
  unfold State.modLaunch; split <;> rfl
@[simp] theorem State.modLaunch_walks (s : State) (l : Nat) (f : Launch → Launch) : (s.modLaunch l f).walks = s.walks := by
  unfold State.modLaunch; split <;> rfl
@[simp] theorem State.modLaunch_loads (s : State) (l : Nat) (f : Launch → Launch) : (s.modLaunch l f).loads = s.loads := by
  unfold State.modLaunch; split <;> rfl
@[simp] theorem State.modLaunch_stores (s : State) (l : Nat) (f : Launch → Launch) : (s.modLaunch l f).stores = s.stores := by
  unfold State.modLaunch; split <;> rfl
@[simp] theorem State.modLaunch_waiters (s : State) (l : Nat) (f : Launch → Launch) : (s.modLaunch l f).waiters = s.waiters := by
  unfold State.modLaunch; split <;> rfl
@[simp] theorem State.modLaunch_scReads (s : State) (l : Nat) (f : Launch → Launch) : (s.modLaunch l f).scReads = s.scReads := by
  unfold State.modLaunch; split <;> rfl
@[simp] theorem State.modLaunch_held (s : State) (l : Nat) (f : Launch → Launch) : (s.modLaunch l f).held = s.held := by
  unfold State.modLaunch; split <;> rfl
@[simp] theorem State.modLaunch_undo (s : State) (l : Nat) (f : Launch → Launch) : (s.modLaunch l f).undo = s.undo := by
  unfold State.modLaunch; split <;> rfl
@[simp] theorem State.modLaunch_copies (s : State) (l : Nat) (f : Launch → Launch) : (s.modLaunch l f).copies = s.copies := by
  unfold State.modLaunch; split <;> rfl
@[simp] theorem State.modLaunch_tileOps (s : State) (l : Nat) (f : Launch → Launch) : (s.modLaunch l f).tileOps = s.tileOps := by
  unfold State.modLaunch; split <;> rfl
@[simp] theorem State.modLaunch_passHolds (s : State) (l : Nat) (f : Launch → Launch) : (s.modLaunch l f).passHolds = s.passHolds := by
  unfold State.modLaunch; split <;> rfl
@[simp] theorem State.modLaunch_tgens (s : State) (l : Nat) (f : Launch → Launch) : (s.modLaunch l f).tgens = s.tgens := by
  unfold State.modLaunch; split <;> rfl
@[simp] theorem State.modLaunch_rvHolds (s : State) (l : Nat) (f : Launch → Launch) : (s.modLaunch l f).rvHolds = s.rvHolds := by
  unfold State.modLaunch; split <;> rfl
@[simp] theorem State.modLaunch_rvOpen (s : State) (l : Nat) (f : Launch → Launch) : (s.modLaunch l f).rvOpen = s.rvOpen := by
  unfold State.modLaunch; split <;> rfl
@[simp] theorem State.modLaunch_mazes (s : State) (l : Nat) (f : Launch → Launch) : (s.modLaunch l f).mazes = s.mazes := by
  unfold State.modLaunch; split <;> rfl
@[simp] theorem State.modLaunch_lodges (s : State) (l : Nat) (f : Launch → Launch) : (s.modLaunch l f).lodges = s.lodges := by
  unfold State.modLaunch; split <;> rfl
@[simp] theorem State.modLaunch_lodgeWaits (s : State) (l : Nat) (f : Launch → Launch) : (s.modLaunch l f).lodgeWaits = s.lodgeWaits := by
  unfold State.modLaunch; split <;> rfl
@[simp] theorem State.modLaunch_slotGens (s : State) (l : Nat) (f : Launch → Launch) : (s.modLaunch l f).slotGens = s.slotGens := by
  unfold State.modLaunch; split <;> rfl
@[simp] theorem State.modLaunch_genBlocks (s : State) (l : Nat) (f : Launch → Launch) : (s.modLaunch l f).genBlocks = s.genBlocks := by
  unfold State.modLaunch; split <;> rfl
@[simp] theorem State.modLaunch_strikes (s : State) (l : Nat) (f : Launch → Launch) : (s.modLaunch l f).strikes = s.strikes := by
  unfold State.modLaunch; split <;> rfl
@[simp] theorem State.modLaunch_strikeLog (s : State) (l : Nat) (f : Launch → Launch) : (s.modLaunch l f).strikeLog = s.strikeLog := by
  unfold State.modLaunch; split <;> rfl
@[simp] theorem State.modLaunch_lostCores (s : State) (l : Nat) (f : Launch → Launch) : (s.modLaunch l f).lostCores = s.lostCores := by
  unfold State.modLaunch; split <;> rfl
@[simp] theorem State.modLaunch_turns (s : State) (l : Nat) (f : Launch → Launch) : (s.modLaunch l f).turns = s.turns := by
  unfold State.modLaunch; split <;> rfl
@[simp] theorem State.modLaunch_retiredChannels (s : State) (l : Nat) (f : Launch → Launch) : (s.modLaunch l f).retiredChannels = s.retiredChannels := by
  unfold State.modLaunch; split <;> rfl
@[simp] theorem State.modLaunch_rmws (s : State) (l : Nat) (f : Launch → Launch) : (s.modLaunch l f).rmws = s.rmws := by
  unfold State.modLaunch; split <;> rfl
@[simp] theorem State.modLaunch_fab (s : State) (l : Nat) (f : Launch → Launch) : (s.modLaunch l f).fab = s.fab := by
  unfold State.modLaunch; split <;> rfl
@[simp] theorem State.modLaunch_sys (s : State) (l : Nat) (f : Launch → Launch) : (s.modLaunch l f).sys = s.sys := by
  unfold State.modLaunch; split <;> rfl
@[simp] theorem State.modLaunch_clock (s : State) (l : Nat) (f : Launch → Launch) : (s.modLaunch l f).clock = s.clock := by
  unfold State.modLaunch; split <;> rfl
@[simp] theorem State.modLaunch_us (s : State) (l : Nat) (f : Launch → Launch) : (s.modLaunch l f).us = s.us := by
  unfold State.modLaunch; split <;> rfl
@[simp] theorem State.modLaunch_usub (s : State) (l : Nat) (f : Launch → Launch) : (s.modLaunch l f).usub = s.usub := by
  unfold State.modLaunch; split <;> rfl
@[simp] theorem State.modLaunch_freq (s : State) (l : Nat) (f : Launch → Launch) : (s.modLaunch l f).freq = s.freq := by
  unfold State.modLaunch; split <;> rfl
@[simp] theorem State.modLaunch_nextId (s : State) (l : Nat) (f : Launch → Launch) : (s.modLaunch l f).nextId = s.nextId := by
  unfold State.modLaunch; split <;> rfl
@[simp] theorem State.modLaunch_fresh (s : State) (l : Nat) (f : Launch → Launch) : (s.modLaunch l f).fresh = s.fresh := by
  unfold State.modLaunch; split <;> rfl
@[simp] theorem State.modLaunch_sched (s : State) (l : Nat) (f : Launch → Launch) : (s.modLaunch l f).sched = s.sched := by
  unfold State.modLaunch; split <;> rfl
@[simp] theorem State.modLaunch_cur (s : State) (l : Nat) (f : Launch → Launch) : (s.modLaunch l f).cur = s.cur := by
  unfold State.modLaunch; split <;> rfl

/-! ### Threads, workgroups and quadrants after an update -/

/-- Threads have keys of their own. -/
theorem TRef.key_injective {r q : TRef} (hr : r.tid < 512) (hq : q.tid < 512) (h : r.key = q.key) : r = q := by
  obtain ⟨w, t, a⟩ := r
  obtain ⟨w', t', a'⟩ := q
  simp only [TRef.key] at h hr hq
  cases a <;> cases a' <;> simp at h ⊢ <;> omega

@[simp] theorem State.thread_setThread (s : State) (r : TRef) (t : Thread) : (s.setThread r t).thread r = some t := by
  simp [State.thread, State.setThread]

theorem State.thread_setThread_of_ne (s : State) {r q : TRef} (t : Thread) (h : q.key ≠ r.key) :
    (s.setThread r t).thread q = s.thread q := by
  simp [State.thread, State.setThread, alook_aput_of_ne _ _ h]

@[simp] theorem State.setThread_setThread (s : State) (r : TRef) (t u : Thread) :
    (s.setThread r u).setThread r t = s.setThread r t := by
  simp [State.setThread]

theorem State.modThread_of_some {s : State} {r : TRef} {t : Thread} (h : s.thread r = some t) (f : Thread → Thread) :
    s.modThread r f = s.setThread r (f t) := by
  simp [State.modThread, h]

theorem State.modThread_of_none {s : State} {r : TRef} (h : s.thread r = none) (f : Thread → Thread) :
    s.modThread r f = s := by
  simp [State.modThread, h]

@[simp] theorem State.modThread_setThread (s : State) (r : TRef) (t : Thread) (f : Thread → Thread) :
    (s.setThread r t).modThread r f = s.setThread r (f t) := by
  simp [State.modThread]

theorem State.thread_modThread (s : State) (r : TRef) (f : Thread → Thread) :
    (s.modThread r f).thread r = (s.thread r).map f := by
  unfold State.modThread
  split <;> simp_all

theorem State.thread_modThread_of_ne (s : State) {r q : TRef} (f : Thread → Thread) (h : q.key ≠ r.key) :
    (s.modThread r f).thread q = s.thread q := by
  unfold State.modThread
  split
  · exact s.thread_setThread_of_ne _ h
  · rfl

@[simp] theorem State.thread_setQuad (s : State) (q : Nat) (x : Quad) (r : TRef) : (s.setQuad q x).thread r = s.thread r := rfl
@[simp] theorem State.thread_modQuad (s : State) (q : Nat) (f : Quad → Quad) (r : TRef) :
    (s.modQuad q f).thread r = s.thread r := rfl
@[simp] theorem State.wg_setThread (s : State) (r : TRef) (t : Thread) (w : Nat) : (s.setThread r t).wg w = s.wg w := rfl
@[simp] theorem State.wg_modThread (s : State) (r : TRef) (f : Thread → Thread) (w : Nat) :
    (s.modThread r f).wg w = s.wg w := by
  simp [State.wg]
@[simp] theorem State.wg_modQuad (s : State) (q : Nat) (f : Quad → Quad) (w : Nat) : (s.modQuad q f).wg w = s.wg w := rfl
@[simp] theorem State.quadOf_setThread (s : State) (r q : TRef) (t : Thread) : (s.setThread r t).quadOf q = s.quadOf q := rfl
@[simp] theorem State.quadOf_modThread (s : State) (r q : TRef) (f : Thread → Thread) :
    (s.modThread r f).quadOf q = s.quadOf q := by
  simp [State.quadOf]
@[simp] theorem State.quadOf_modQuad (s : State) (n : Nat) (f : Quad → Quad) (q : TRef) :
    (s.modQuad n f).quadOf q = s.quadOf q := rfl

@[simp] theorem State.quad_modQuad (s : State) (q : Nat) (f : Quad → Quad) : (s.modQuad q f).quad q = f (s.quad q) := by
  simp [State.quad, State.modQuad, State.setQuad]

theorem State.quad_modQuad_of_ne (s : State) {q p : Nat} (f : Quad → Quad) (h : p ≠ q) :
    (s.modQuad q f).quad p = s.quad p := by
  simp [State.quad, State.modQuad, State.setQuad, alook_aput_of_ne _ _ h]

/-! ### Registers -/

@[simp] theorem RegFile.get_set (f : RegFile) (r : Nat) (c : Reg) : (f.set r c).get r = c := by
  simp [RegFile.get, RegFile.set]

theorem RegFile.get_set_of_ne (f : RegFile) {r q : Nat} (c : Reg) (h : q ≠ r) : (f.set r c).get q = f.get q := by
  simp [RegFile.get, RegFile.set, alook_aput_of_ne _ _ h]

@[simp] theorem Arch.reg_setReg (a : Arch) (r : Nat) (v : RegVal) : (a.setReg r v).reg r = v := by
  simp [Arch.reg, Arch.setReg]

theorem Arch.reg_setReg_of_ne (a : Arch) {r q : Nat} (v : RegVal) (h : q ≠ r) : (a.setReg r v).reg q = a.reg q := by
  simp [Arch.reg, Arch.setReg, RegFile.get_set_of_ne _ _ h]

theorem Arch.pair_setPair (a : Arch) (r : Nat) (v : DWord) : (a.setPair r (split64 v)).pair r = v := by
  have h : r ≠ r + 1 := by omega
  simp only [Arch.setPair, Arch.pair, Arch.reg_setReg, Arch.reg_setReg_of_ne _ _ h, pair64, split64]
  ext i hi
  simp only [BitVec.getElem_append, BitVec.getElem_setWidth, BitVec.getLsbD_ushiftRight]
  split
  · exact BitVec.getLsbD_eq_getElem hi
  · have : 32 + (i - 32) = i := by omega
    simp only [this]
    exact BitVec.getLsbD_eq_getElem hi

@[simp] theorem Arch.pred_seven (a : Arch) : a.pred 7 = true := by simp [Arch.pred]
@[simp] theorem Arch.setPred_seven (a : Arch) (b : Bool) : a.setPred 7 b = a := by simp [Arch.setPred]

end Sys2Proof.Machine
end

