-- ==== Sys2Proof/Laws/Lane.lean ====
section
/-! SUPPORT. What the shared shapes of instructions do for a thread that is issuing: lane, laneArch and the forms over it,
committing instructions, and the checks that come before a meaning. -/

namespace Sys2Proof.Machine

variable {s : State} {r : TRef} {t : Thread} {g : Wg} {u : Use} {body : TRef → Thread → Wg → State → State}

theorem Use.encFault_none (hs : u.allowed r.acc = true) (hp : u.priv = true → t.arch.sup = true)
    (hb : ∀ x ∈ u.regs ++ u.names, x < allotOf r g) : u.encFault r t g = none := by
  unfold Use.encFault
  have : ((u.regs ++ u.names).all fun x => decide (x < allotOf r g)) = true := by
    rw [List.all_eq_true]; simpa only [decide_eq_true_eq] using hb
  cases h : u.priv <;> simp_all

theorem Arch.poisonOf_none {a : Arch} {l : List Nat} (h : ∀ x ∈ l, (a.regs.get x).poison = none) :
    a.poisonOf l = none := by
  simpa [Arch.poisonOf, List.findSome?_eq_none_iff] using h

/-- An instruction whose registers are free and clean and whose class has room has its own meaning. -/
theorem State.act_of_free (hf : ∀ x ∈ u.regs, x ∉ t.busy) (hc : t.full u.cls u.counts = false)
    (hp : ∀ x ∈ u.reads, (t.arch.regs.get x).poison = none) : s.act u body r t g = body r t g s := by
  have : u.regs.any (fun x => t.busy.contains x) = false := by simpa using hf
  simp only [State.act, this, hc, Bool.or_self, Bool.false_eq_true, if_false, Arch.poisonOf_none hp]

/-- An instruction within a run has its own meaning. -/
theorem State.lane_of_ready (h : Ready s r t g u.reads u.writes) (hs : u.allowed r.acc = true)
    (hp : u.priv = true → t.arch.sup = true) (hn : ∀ x ∈ u.names, x < allotOf r g) (he : u.ends = false)
    (hg : u.guards = false) (hc : t.full u.cls u.counts = false) : s.lane u body = .next (body r t g s) := by
  have henc : u.encFault r t g = none := Use.encFault_none hs hp fun x hx => by
    rw [List.mem_append] at hx
    exact hx.elim (h.bound x) (hn x)
  have hact : s.act u body r t g = body r t g s := State.act_of_free h.free hc h.clean
  have hguard := h.guard
  have hends : u.endsFor r.acc = false := by simp [Use.endsFor, he]
  simp only [State.lane, h.cur, h.thread, h.wg, he, hends, h.noCommit, henc, h.noLoop, Bool.false_and]
  cases hgs : t.run.guard with
  | none => simp [hact]
  | some gs => simp [hact, hg, hguard gs hgs]

/-- An instruction that ends its run has its own meaning, whether or not the run holds a committing instruction. -/
theorem State.lane_of_ending (h : Ending s r t g u.reads) (hw : u.writes = []) (hs : u.allowed r.acc = true)
    (hp : u.priv = true → t.arch.sup = true) (hn : ∀ x ∈ u.names, x < allotOf r g) (he : u.ends = true)
    (hc : t.full u.cls u.counts = false) : s.lane u body = .next (body r t g s) := by
  have henc : u.encFault r t g = none := Use.encFault_none hs hp fun x hx => by
    rw [List.mem_append] at hx
    refine hx.elim (fun hx => h.bound x ?_) (hn x)
    simpa [Use.regs, hw] using hx
  have hact : s.act u body r t g = body r t g s :=
    State.act_of_free (fun x hx => h.free x (by simpa [Use.regs, hw] using hx)) hc h.clean
  have hends : u.endsFor r.acc = true := by
    cases hsl : u.slice <;> simp_all [Use.endsFor, Use.allowed]
  simp [State.lane, h.cur, h.thread, h.wg, he, hends, henc, h.guard, hact]

/-! ### Lane instructions (R80 to R82) -/

theorem State.laneArch_of_ok {f : Thread → Wg → Except Code Arch} {a : Arch} (h : Ready s r t g u.reads u.writes)
    (hs : u.allowed r.acc = true) (hp : u.priv = false) (hn : u.names = []) (he : u.ends = false) (hg : u.guards = false)
    (hc : u.cls = .none) (hf : f t g = .ok a) : s.laneArch u f = .next (passed s r t a u.size) := by
  have hl : t.full u.cls u.counts = false := by simp [hc, Thread.full]
  rw [State.laneArch, State.lane_of_ready h hs (by simp [hp]) (by simp [hn]) he hg hl]
  simp [hf, passed, State.pass, State.modThread_of_some h.thread]

theorem State.laneArch_of_error {f : Thread → Wg → Except Code Arch} {c : Code} (h : Ready s r t g u.reads u.writes)
    (hs : u.allowed r.acc = true) (hp : u.priv = false) (hn : u.names = []) (he : u.ends = false) (hg : u.guards = false)
    (hc : u.cls = .none) (hf : f t g = .error c) : s.laneArch u f = .next (faulted s r t c) := by
  have hl : t.full u.cls u.counts = false := by simp [hc, Thread.full]
  rw [State.laneArch, State.lane_of_ready h hs (by simp [hp]) (by simp [hn]) he hg hl]
  simp [hf, faulted]


@[simp] theorem Arch.raise_zero (a : Arch) : a.raise 0#6 = a := by simp [Arch.raise]

section forms

variable (hp : u.priv = false) (hn : u.names = []) (he : u.ends = false) (hg : u.guards = false) (hc : u.cls = .none)
include hp hn he hg hc

theorem laneV_of_ok {d : Nat} {f : Arch → LaneVal} {v : RegVal} {fl : FFlags} (h : Ready s r t g u.reads [d])
    (hs : u.allowed r.acc = true) (hf : f t.arch = .ok (v, fl)) :
    laneV u d f s = .next (passed s r t ((t.arch.setReg d v).raise fl) u.size) :=
  State.laneArch_of_ok (u := { u with writes := [d] }) h hs hp hn he hg hc (by simp [hf, Arch.putVal, Except.map])

theorem laneV_of_error {d : Nat} {f : Arch → LaneVal} {c : Code} (h : Ready s r t g u.reads [d])
    (hs : u.allowed r.acc = true) (hf : f t.arch = .error c) : laneV u d f s = .next (faulted s r t c) :=
  State.laneArch_of_error (u := { u with writes := [d] }) h hs hp hn he hg hc (by simp [hf, Except.map])

theorem laneX_of_ok {d : Nat} {f : Arch → LanePair} {lo hi : RegVal} (h : Ready s r t g u.reads [d, d + 1])
    (hs : u.allowed r.acc = true) (hf : f t.arch = .ok (lo, hi)) :
    laneX u d f s = .next (passed s r t ((t.arch.setReg d lo).setReg (d + 1) hi) u.size) :=
  State.laneArch_of_ok (u := { u with writes := [d, d + 1] }) h hs hp hn he hg hc
    (by simp [hf, Arch.setPair, Except.map])

theorem laneP_of_ok {d : Nat} {f : Arch → LanePred} {b : Bool} {fl : FFlags} (hw : u.writes = [])
    (h : Ready s r t g u.reads []) (hs : u.allowed r.acc = true) (hf : f t.arch = .ok (b, fl)) :
    laneP u d f s = .next (passed s r t ((t.arch.setPred d b).raise fl) u.size) :=
  State.laneArch_of_ok (by rw [hw]; exact h) hs hp hn he hg hc (by simp [hf, Except.map])

theorem laneP_of_error {d : Nat} {f : Arch → LanePred} {c : Code} (hw : u.writes = [])
    (h : Ready s r t g u.reads []) (hs : u.allowed r.acc = true) (hf : f t.arch = .error c) :
    laneP u d f s = .next (faulted s r t c) :=
  State.laneArch_of_error (by rw [hw]; exact h) hs hp hn he hg hc (by simp [hf, Except.map])

end forms

theorem lanePP_of_ready {d : Nat} {f : Arch → Bool} (h : Ready s r t g [] []) (ha : r.acc = false) :
    lanePP d f s = .next (passed s r t (t.arch.setPred d (f t.arch)) 4) :=
  State.laneArch_of_ok (u := {}) h (by simp [Use.allowed, ha]) rfl rfl rfl rfl rfl rfl

end Sys2Proof.Machine
end

