-- ==== Sys2Proof/Laws/Access.lean ====
section
/-! SUPPORT. What the shapes of memory instructions and of committing instructions do for a thread that is issuing: lane
under Accessing, a load issued, an effect buffered, a command captured. -/

namespace Sys2Proof.Machine

variable {s : State} {r : TRef} {t : Thread} {g : Wg} {u : Use} {body : TRef → Thread → Wg → State → State}

/-- An instruction of an execute slice has its own meaning. -/
theorem State.lane_of_accessing (h : Accessing s r t g u.reads u.writes u.cls u.counts) (hs : u.slice = .exec) (hn : u.names = [])
    (hp : u.priv = true → t.arch.sup = true) (he : u.ends = false) (hg : u.guards = false) :
    s.lane u body = .next (body r t g s) := by
  refine State.lane_of_ready h.toReady ?_ hp (by simp [hn]) he hg h.room
  simp [Use.allowed, hs, h.exec]

theorem State.pass_eq (h : s.thread r = some t) (n : Nat) : s.pass r n = s.setThread r (t.pass n) := by
  simp [State.pass, State.modThread, h]

/-- A load of this module's memory as one update (R117). -/
theorem State.issueLoad_key (h : s.thread r = some t) (k len : Nat) (kind : ReadKind) (ds : List Dest) (v : Option (List Byte))
    (a : DWord) : (s.issueLoad r (.key k) len kind ds v a).pass r 4 = loading s r t
      { id := s.nextId, who := r, seq := t.seq, core := s.coreOf r, loc := .key k, len := len, kind := kind, dests := ds,
        fwd := s.ownBytes r (.key k) len, value := v, addr := a, remote := none, order := v.isNone && t.run.scFenced
        after := if v.isNone then s.popsOf r else [] } := by
  have h' : alook r.key s.threads = some t := h
  simp [State.issueLoad, State.takeId, State.sendLoad, State.thread, h', State.modThread, State.pass, loading, State.setThread, State.coreOf,
    State.quadOf, State.wg, State.ownBytes, State.ownOps, State.popsOf]

/-- An effect buffered as one update (R118). -/
theorem State.buffer_eq (h : s.thread r = some t) (o : BufOp) (a : DWord) : (s.buffer r o a).pass r 4 = buffering s r t o
    (s.popsOf r ++ match o with
      | .store _ _ _ (some _) => s.ownReads r
      | .store l bs _ none => t.acq ++ s.ownReadsAt r l bs.length
      | .fence _ _ => s.ownReads r
      | .cache _ _ => t.acq) a := by
  have h' : alook r.key s.threads = some t := h
  rcases o with ⟨_, _, _, _ | _⟩ | _ | _ <;>
    simp [State.buffer, State.modThread, State.pass, State.thread, h', buffering, State.setThread]

/-- A committing instruction kept as one update (R50, R118). -/
theorem State.capture_ok (h : s.thread r = some t) (hu : u.size = 4) (c : Cmd) : s.capture r u (.ok c) = captured s r t c := by
  have h' : alook r.key s.threads = some t := h
  simp [State.capture, State.modThread, State.pass, State.thread, h', captured, State.setThread, hu]

/-- A committing instruction whose capture finds a command. -/
theorem commitForm_of_ok {f : TRef → Thread → Wg → State → Cap} {c : Cmd} (h : Accessing s r t g u.reads u.writes u.cls u.counts)
    (hs : u.slice = .exec) (hn : u.names = []) (hp : u.priv = true → t.arch.sup = true) (he : u.ends = false)
    (hg : u.guards = false) (hu : u.size = 4) (hf : f r t g s = .ok c) : commitForm u f s = .next (captured s r t c) := by
  rw [commitForm, State.lane_of_accessing (u := { u with commits := true }) h hs hn hp he hg, hf,
    State.capture_ok h.thread hu]

/-- A committing instruction whose capture faults. -/
theorem commitForm_of_fault {f : TRef → Thread → Wg → State → Cap} {e : FaultInfo}
    (h : Accessing s r t g u.reads u.writes u.cls u.counts) (hs : u.slice = .exec) (hn : u.names = [])
    (hp : u.priv = true → t.arch.sup = true) (he : u.ends = false) (hg : u.guards = false) (hf : f r t g s = .fault e) :
    commitForm u f s = .next (s.takeFault r e t.run.count) := by
  rw [commitForm, State.lane_of_accessing (u := { u with commits := true }) h hs hn hp he hg, hf]
  simp [State.capture, h.thread]

end Sys2Proof.Machine
end

