-- ==== Sys2Proof/Laws/Exec.lean ====
section
/-! SUPPORT. One lemma for each arm of exec, so that no proof has to unfold the whole of it. -/

namespace Sys2Proof.Machine

@[simp] theorem exec_mov16 (d : Nat) (b : Nat) (s : State) : exec (.mov16 d b) s = execMov16 d b s := rfl
@[simp] theorem exec_add16 (d : Nat) (b : Nat) (s : State) : exec (.add16 d b) s = execAdd16 d b s := rfl
@[simp] theorem exec_sub16 (d : Nat) (b : Nat) (s : State) : exec (.sub16 d b) s = execSub16 d b s := rfl
@[simp] theorem exec_mul16 (d : Nat) (b : Nat) (s : State) : exec (.mul16 d b) s = execMul16 d b s := rfl
@[simp] theorem exec_and16 (d : Nat) (b : Nat) (s : State) : exec (.and16 d b) s = execAnd16 d b s := rfl
@[simp] theorem exec_or16 (d : Nat) (b : Nat) (s : State) : exec (.or16 d b) s = execOr16 d b s := rfl
@[simp] theorem exec_xor16 (d : Nat) (b : Nat) (s : State) : exec (.xor16 d b) s = execXor16 d b s := rfl
@[simp] theorem exec_shl16 (d : Nat) (b : Nat) (s : State) : exec (.shl16 d b) s = execShl16 d b s := rfl
@[simp] theorem exec_shr16 (d : Nat) (b : Nat) (s : State) : exec (.shr16 d b) s = execShr16 d b s := rfl
@[simp] theorem exec_sar16 (d : Nat) (b : Nat) (s : State) : exec (.sar16 d b) s = execSar16 d b s := rfl
@[simp] theorem exec_min16 (d : Nat) (b : Nat) (s : State) : exec (.min16 d b) s = execMin16 d b s := rfl
@[simp] theorem exec_max16 (d : Nat) (b : Nat) (s : State) : exec (.max16 d b) s = execMax16 d b s := rfl
@[simp] theorem exec_fadd16 (d : Nat) (b : Nat) (s : State) : exec (.fadd16 d b) s = execFadd16 d b s := rfl
@[simp] theorem exec_fsub16 (d : Nat) (b : Nat) (s : State) : exec (.fsub16 d b) s = execFsub16 d b s := rfl
@[simp] theorem exec_fmul16 (d : Nat) (b : Nat) (s : State) : exec (.fmul16 d b) s = execFmul16 d b s := rfl
@[simp] theorem exec_fmax16 (d : Nat) (b : Nat) (s : State) : exec (.fmax16 d b) s = execFmax16 d b s := rfl
@[simp] theorem exec_add (d : Nat) (a : Nat) (b : Nat) (s : State) : exec (.add d a b) s = execAdd d a b s := rfl
@[simp] theorem exec_sub (d : Nat) (a : Nat) (b : Nat) (s : State) : exec (.sub d a b) s = execSub d a b s := rfl
@[simp] theorem exec_mul (d : Nat) (a : Nat) (b : Nat) (s : State) : exec (.mul d a b) s = execMul d a b s := rfl
@[simp] theorem exec_mulhi (d : Nat) (a : Nat) (b : Nat) (s : State) : exec (.mulhi d a b) s = execMulhi d a b s := rfl
@[simp] theorem exec_and (d : Nat) (a : Nat) (b : Nat) (s : State) : exec (.and d a b) s = execAnd d a b s := rfl
@[simp] theorem exec_or (d : Nat) (a : Nat) (b : Nat) (s : State) : exec (.or d a b) s = execOr d a b s := rfl
@[simp] theorem exec_xor (d : Nat) (a : Nat) (b : Nat) (s : State) : exec (.xor d a b) s = execXor d a b s := rfl
@[simp] theorem exec_shl (d : Nat) (a : Nat) (b : Nat) (s : State) : exec (.shl d a b) s = execShl d a b s := rfl
@[simp] theorem exec_shr (d : Nat) (a : Nat) (b : Nat) (s : State) : exec (.shr d a b) s = execShr d a b s := rfl
@[simp] theorem exec_sar (d : Nat) (a : Nat) (b : Nat) (s : State) : exec (.sar d a b) s = execSar d a b s := rfl
@[simp] theorem exec_min (d : Nat) (a : Nat) (b : Nat) (s : State) : exec (.min d a b) s = execMin d a b s := rfl
@[simp] theorem exec_max (d : Nat) (a : Nat) (b : Nat) (s : State) : exec (.max d a b) s = execMax d a b s := rfl
@[simp] theorem exec_mov (d : Nat) (b : Nat) (s : State) : exec (.mov d b) s = execMov d b s := rfl
@[simp] theorem exec_div (d : Nat) (a : Nat) (b : Nat) (s : State) : exec (.div d a b) s = execDiv d a b s := rfl
@[simp] theorem exec_rem (d : Nat) (a : Nat) (b : Nat) (s : State) : exec (.rem d a b) s = execRem d a b s := rfl
@[simp] theorem exec_andn (d : Nat) (a : Nat) (b : Nat) (s : State) : exec (.andn d a b) s = execAndn d a b s := rfl
@[simp] theorem exec_not (d : Nat) (a : Nat) (s : State) : exec (.not d a) s = execNot d a s := rfl
@[simp] theorem exec_clz (d : Nat) (a : Nat) (s : State) : exec (.clz d a) s = execClz d a s := rfl
@[simp] theorem exec_popc (d : Nat) (a : Nat) (s : State) : exec (.popc d a) s = execPopc d a s := rfl
@[simp] theorem exec_brev (d : Nat) (a : Nat) (s : State) : exec (.brev d a) s = execBrev d a s := rfl
@[simp] theorem exec_abs (d : Nat) (a : Nat) (s : State) : exec (.abs d a) s = execAbs d a s := rfl
@[simp] theorem exec_neg (d : Nat) (a : Nat) (s : State) : exec (.neg d a) s = execNeg d a s := rfl
@[simp] theorem exec_bfx (d : Nat) (a : Nat) (b : Nat) (s : State) : exec (.bfx d a b) s = execBfx d a b s := rfl
@[simp] theorem exec_bfi (d : Nat) (a : Nat) (b : Nat) (s : State) : exec (.bfi d a b) s = execBfi d a b s := rfl
@[simp] theorem exec_gettag (d : Nat) (a : Nat) (s : State) : exec (.gettag d a) s = execGettag d a s := rfl
@[simp] theorem exec_settag (d : Nat) (a : Nat) (b : Nat) (s : State) : exec (.settag d a b) s = execSettag d a b s := rfl
@[simp] theorem exec_addi (d : Nat) (a : Nat) (imm : Int) (s : State) : exec (.addi d a imm) s = execAddi d a imm s := rfl
@[simp] theorem exec_andi (d : Nat) (a : Nat) (imm : Int) (s : State) : exec (.andi d a imm) s = execAndi d a imm s := rfl
@[simp] theorem exec_ori (d : Nat) (a : Nat) (imm : Int) (s : State) : exec (.ori d a imm) s = execOri d a imm s := rfl
@[simp] theorem exec_xori (d : Nat) (a : Nat) (imm : Int) (s : State) : exec (.xori d a imm) s = execXori d a imm s := rfl
@[simp] theorem exec_muli (d : Nat) (a : Nat) (imm : Int) (s : State) : exec (.muli d a imm) s = execMuli d a imm s := rfl
@[simp] theorem exec_shli (d : Nat) (a : Nat) (n : Nat) (s : State) : exec (.shli d a n) s = execShli d a n s := rfl
@[simp] theorem exec_shri (d : Nat) (a : Nat) (n : Nat) (s : State) : exec (.shri d a n) s = execShri d a n s := rfl
@[simp] theorem exec_sari (d : Nat) (a : Nat) (n : Nat) (s : State) : exec (.sari d a n) s = execSari d a n s := rfl
@[simp] theorem exec_rsari (d : Nat) (a : Nat) (n : Nat) (s : State) : exec (.rsari d a n) s = execRsari d a n s := rfl
@[simp] theorem exec_lui (d : Nat) (imm : Nat) (s : State) : exec (.lui d imm) s = execLui d imm s := rfl
@[simp] theorem exec_adr (d : Nat) (a : Nat) (b : Nat) (sh : Nat) (s : State) : exec (.adr d a b sh) s = execAdr d a b sh s := rfl
@[simp] theorem exec_adrS (d : Nat) (a : Nat) (b : Nat) (sh : Nat) (s : State) : exec (.adrS d a b sh) s = execAdrS d a b sh s := rfl
@[simp] theorem exec_add64 (d : Nat) (a : Nat) (b : Nat) (s : State) : exec (.add64 d a b) s = execAdd64 d a b s := rfl
@[simp] theorem exec_sub64 (d : Nat) (a : Nat) (b : Nat) (s : State) : exec (.sub64 d a b) s = execSub64 d a b s := rfl
@[simp] theorem exec_and64 (d : Nat) (a : Nat) (b : Nat) (s : State) : exec (.and64 d a b) s = execAnd64 d a b s := rfl
@[simp] theorem exec_or64 (d : Nat) (a : Nat) (b : Nat) (s : State) : exec (.or64 d a b) s = execOr64 d a b s := rfl
@[simp] theorem exec_xor64 (d : Nat) (a : Nat) (b : Nat) (s : State) : exec (.xor64 d a b) s = execXor64 d a b s := rfl
@[simp] theorem exec_shl64 (d : Nat) (a : Nat) (b : Nat) (s : State) : exec (.shl64 d a b) s = execShl64 d a b s := rfl
@[simp] theorem exec_shr64 (d : Nat) (a : Nat) (b : Nat) (s : State) : exec (.shr64 d a b) s = execShr64 d a b s := rfl
@[simp] theorem exec_sar64 (d : Nat) (a : Nat) (b : Nat) (s : State) : exec (.sar64 d a b) s = execSar64 d a b s := rfl
@[simp] theorem exec_mov64 (d : Nat) (b : Nat) (s : State) : exec (.mov64 d b) s = execMov64 d b s := rfl
@[simp] theorem exec_xaddi (d : Nat) (a : Nat) (imm : Int) (s : State) : exec (.xaddi d a imm) s = execXaddi d a imm s := rfl
@[simp] theorem exec_cmpEq (d : Nat) (a : Nat) (b : Nat) (s : State) : exec (.cmpEq d a b) s = execCmpEq d a b s := rfl
@[simp] theorem exec_cmpNe (d : Nat) (a : Nat) (b : Nat) (s : State) : exec (.cmpNe d a b) s = execCmpNe d a b s := rfl
@[simp] theorem exec_cmpLt (d : Nat) (a : Nat) (b : Nat) (s : State) : exec (.cmpLt d a b) s = execCmpLt d a b s := rfl
@[simp] theorem exec_cmpLe (d : Nat) (a : Nat) (b : Nat) (s : State) : exec (.cmpLe d a b) s = execCmpLe d a b s := rfl
@[simp] theorem exec_cmpGt (d : Nat) (a : Nat) (b : Nat) (s : State) : exec (.cmpGt d a b) s = execCmpGt d a b s := rfl
@[simp] theorem exec_cmpGe (d : Nat) (a : Nat) (b : Nat) (s : State) : exec (.cmpGe d a b) s = execCmpGe d a b s := rfl
@[simp] theorem exec_cmpUnord (d : Nat) (a : Nat) (b : Nat) (s : State) : exec (.cmpUnord d a b) s = execCmpUnord d a b s := rfl
@[simp] theorem exec_ptest (d : Nat) (a : Nat) (b : Nat) (s : State) : exec (.ptest d a b) s = execPtest d a b s := rfl
@[simp] theorem exec_cmp64Eq (d : Nat) (a : Nat) (b : Nat) (s : State) : exec (.cmp64Eq d a b) s = execCmp64Eq d a b s := rfl
@[simp] theorem exec_cmp64Ne (d : Nat) (a : Nat) (b : Nat) (s : State) : exec (.cmp64Ne d a b) s = execCmp64Ne d a b s := rfl
@[simp] theorem exec_cmp64Lt (d : Nat) (a : Nat) (b : Nat) (s : State) : exec (.cmp64Lt d a b) s = execCmp64Lt d a b s := rfl
@[simp] theorem exec_cmp64Ltn (d : Nat) (a : Nat) (b : Nat) (s : State) : exec (.cmp64Ltn d a b) s = execCmp64Ltn d a b s := rfl
@[simp] theorem exec_cmpiEq (d : Nat) (a : Nat) (imm : Int) (s : State) : exec (.cmpiEq d a imm) s = execCmpiEq d a imm s := rfl
@[simp] theorem exec_cmpiNe (d : Nat) (a : Nat) (imm : Int) (s : State) : exec (.cmpiNe d a imm) s = execCmpiNe d a imm s := rfl
@[simp] theorem exec_cmpiLt (d : Nat) (a : Nat) (imm : Int) (s : State) : exec (.cmpiLt d a imm) s = execCmpiLt d a imm s := rfl
@[simp] theorem exec_cmpiLe (d : Nat) (a : Nat) (imm : Int) (s : State) : exec (.cmpiLe d a imm) s = execCmpiLe d a imm s := rfl
@[simp] theorem exec_cmpiGt (d : Nat) (a : Nat) (imm : Int) (s : State) : exec (.cmpiGt d a imm) s = execCmpiGt d a imm s := rfl
@[simp] theorem exec_cmpiGe (d : Nat) (a : Nat) (imm : Int) (s : State) : exec (.cmpiGe d a imm) s = execCmpiGe d a imm s := rfl
@[simp] theorem exec_sel (d : Nat) (n : Nat) (a : Nat) (b : Nat) (s : State) : exec (.sel d n a b) s = execSel d n a b s := rfl
@[simp] theorem exec_pand (d : Nat) (a : Nat) (b : Nat) (s : State) : exec (.pand d a b) s = execPand d a b s := rfl
@[simp] theorem exec_por (d : Nat) (a : Nat) (b : Nat) (s : State) : exec (.por d a b) s = execPor d a b s := rfl
@[simp] theorem exec_pxor (d : Nat) (a : Nat) (b : Nat) (s : State) : exec (.pxor d a b) s = execPxor d a b s := rfl
@[simp] theorem exec_pandn (d : Nat) (a : Nat) (b : Nat) (s : State) : exec (.pandn d a b) s = execPandn d a b s := rfl
@[simp] theorem exec_pnot (d : Nat) (a : Nat) (s : State) : exec (.pnot d a) s = execPnot d a s := rfl
@[simp] theorem exec_ptov (d : Nat) (a : Nat) (s : State) : exec (.ptov d a) s = execPtov d a s := rfl
@[simp] theorem exec_vtop (d : Nat) (a : Nat) (s : State) : exec (.vtop d a) s = execVtop d a s := rfl
@[simp] theorem exec_sread (d : Nat) (n : Nat) (s : State) : exec (.sread d n) s = execSread d n s := rfl
@[simp] theorem exec_fadd (d : Nat) (a : Nat) (b : Nat) (s : State) : exec (.fadd d a b) s = execFadd d a b s := rfl
@[simp] theorem exec_fsub (d : Nat) (a : Nat) (b : Nat) (s : State) : exec (.fsub d a b) s = execFsub d a b s := rfl
@[simp] theorem exec_fmul (d : Nat) (a : Nat) (b : Nat) (s : State) : exec (.fmul d a b) s = execFmul d a b s := rfl
@[simp] theorem exec_fdiv (d : Nat) (a : Nat) (b : Nat) (s : State) : exec (.fdiv d a b) s = execFdiv d a b s := rfl
@[simp] theorem exec_fmin (d : Nat) (a : Nat) (b : Nat) (s : State) : exec (.fmin d a b) s = execFmin d a b s := rfl
@[simp] theorem exec_fmax (d : Nat) (a : Nat) (b : Nat) (s : State) : exec (.fmax d a b) s = execFmax d a b s := rfl
@[simp] theorem exec_fabs (d : Nat) (a : Nat) (s : State) : exec (.fabs d a) s = execFabs d a s := rfl
@[simp] theorem exec_fneg (d : Nat) (a : Nat) (s : State) : exec (.fneg d a) s = execFneg d a s := rfl
@[simp] theorem exec_fcsgn (d : Nat) (a : Nat) (b : Nat) (s : State) : exec (.fcsgn d a b) s = execFcsgn d a b s := rfl
@[simp] theorem exec_ffloor (d : Nat) (a : Nat) (s : State) : exec (.ffloor d a) s = execFfloor d a s := rfl
@[simp] theorem exec_fceil (d : Nat) (a : Nat) (s : State) : exec (.fceil d a) s = execFceil d a s := rfl
@[simp] theorem exec_ftrunc (d : Nat) (a : Nat) (s : State) : exec (.ftrunc d a) s = execFtrunc d a s := rfl
@[simp] theorem exec_frint (d : Nat) (a : Nat) (s : State) : exec (.frint d a) s = execFrint d a s := rfl
@[simp] theorem exec_ffma (d : Nat) (a : Nat) (b : Nat) (s : State) : exec (.ffma d a b) s = execFfma d a b s := rfl
@[simp] theorem exec_ffms (d : Nat) (a : Nat) (b : Nat) (s : State) : exec (.ffms d a b) s = execFfms d a b s := rfl
@[simp] theorem exec_fnma (d : Nat) (a : Nat) (b : Nat) (s : State) : exec (.fnma d a b) s = execFnma d a b s := rfl
@[simp] theorem exec_fnms (d : Nat) (a : Nat) (b : Nat) (s : State) : exec (.fnms d a b) s = execFnms d a b s := rfl
@[simp] theorem exec_hadd (d : Nat) (a : Nat) (b : Nat) (s : State) : exec (.hadd d a b) s = execHadd d a b s := rfl
@[simp] theorem exec_hsub (d : Nat) (a : Nat) (b : Nat) (s : State) : exec (.hsub d a b) s = execHsub d a b s := rfl
@[simp] theorem exec_hmul (d : Nat) (a : Nat) (b : Nat) (s : State) : exec (.hmul d a b) s = execHmul d a b s := rfl
@[simp] theorem exec_hfma (d : Nat) (a : Nat) (b : Nat) (s : State) : exec (.hfma d a b) s = execHfma d a b s := rfl
@[simp] theorem exec_hmin (d : Nat) (a : Nat) (b : Nat) (s : State) : exec (.hmin d a b) s = execHmin d a b s := rfl
@[simp] theorem exec_hmax (d : Nat) (a : Nat) (b : Nat) (s : State) : exec (.hmax d a b) s = execHmax d a b s := rfl
@[simp] theorem exec_hneg (d : Nat) (a : Nat) (s : State) : exec (.hneg d a) s = execHneg d a s := rfl
@[simp] theorem exec_habs (d : Nat) (a : Nat) (s : State) : exec (.habs d a) s = execHabs d a s := rfl
@[simp] theorem exec_padd (d : Nat) (a : Nat) (b : Nat) (s : State) : exec (.padd d a b) s = execPadd d a b s := rfl
@[simp] theorem exec_paddSat (d : Nat) (a : Nat) (b : Nat) (s : State) : exec (.paddSat d a b) s = execPaddSat d a b s := rfl
@[simp] theorem exec_psub (d : Nat) (a : Nat) (b : Nat) (s : State) : exec (.psub d a b) s = execPsub d a b s := rfl
@[simp] theorem exec_psubSat (d : Nat) (a : Nat) (b : Nat) (s : State) : exec (.psubSat d a b) s = execPsubSat d a b s := rfl
@[simp] theorem exec_pmul (d : Nat) (a : Nat) (b : Nat) (s : State) : exec (.pmul d a b) s = execPmul d a b s := rfl
@[simp] theorem exec_pmin (d : Nat) (a : Nat) (b : Nat) (s : State) : exec (.pmin d a b) s = execPmin d a b s := rfl
@[simp] theorem exec_pmax (d : Nat) (a : Nat) (b : Nat) (s : State) : exec (.pmax d a b) s = execPmax d a b s := rfl
@[simp] theorem exec_pabs (d : Nat) (a : Nat) (s : State) : exec (.pabs d a) s = execPabs d a s := rfl
@[simp] theorem exec_pavg (d : Nat) (a : Nat) (b : Nat) (s : State) : exec (.pavg d a b) s = execPavg d a b s := rfl
@[simp] theorem exec_pshl (d : Nat) (a : Nat) (b : Nat) (s : State) : exec (.pshl d a b) s = execPshl d a b s := rfl
@[simp] theorem exec_psar (d : Nat) (a : Nat) (b : Nat) (s : State) : exec (.psar d a b) s = execPsar d a b s := rfl
@[simp] theorem exec_pshr (d : Nat) (a : Nat) (b : Nat) (s : State) : exec (.pshr d a b) s = execPshr d a b s := rfl
@[simp] theorem exec_prsar (d : Nat) (a : Nat) (b : Nat) (s : State) : exec (.prsar d a b) s = execPrsar d a b s := rfl
@[simp] theorem exec_dmac (d : Nat) (a : Nat) (b : Nat) (s : State) : exec (.dmac d a b) s = execDmac d a b s := rfl
@[simp] theorem exec_dmacSat (d : Nat) (a : Nat) (b : Nat) (s : State) : exec (.dmacSat d a b) s = execDmacSat d a b s := rfl
@[simp] theorem exec_fdmac (d : Nat) (a : Nat) (b : Nat) (s : State) : exec (.fdmac d a b) s = execFdmac d a b s := rfl
@[simp] theorem exec_exp2 (d : Nat) (a : Nat) (s : State) : exec (.exp2 d a) s = execExp2 d a s := rfl
@[simp] theorem exec_log2 (d : Nat) (a : Nat) (s : State) : exec (.log2 d a) s = execLog2 d a s := rfl
@[simp] theorem exec_rcp (d : Nat) (a : Nat) (s : State) : exec (.rcp d a) s = execRcp d a s := rfl
@[simp] theorem exec_rsq (d : Nat) (a : Nat) (s : State) : exec (.rsq d a) s = execRsq d a s := rfl
@[simp] theorem exec_sqrt (d : Nat) (a : Nat) (s : State) : exec (.sqrt d a) s = execSqrt d a s := rfl
@[simp] theorem exec_sin (d : Nat) (a : Nat) (s : State) : exec (.sin d a) s = execSin d a s := rfl
@[simp] theorem exec_cos (d : Nat) (a : Nat) (s : State) : exec (.cos d a) s = execCos d a s := rfl
@[simp] theorem exec_tanh (d : Nat) (a : Nat) (s : State) : exec (.tanh d a) s = execTanh d a s := rfl
@[simp] theorem exec_exp (d : Nat) (a : Nat) (s : State) : exec (.exp d a) s = execExp d a s := rfl
@[simp] theorem exec_log (d : Nat) (a : Nat) (s : State) : exec (.log d a) s = execLog d a s := rfl
@[simp] theorem exec_sigm (d : Nat) (a : Nat) (s : State) : exec (.sigm d a) s = execSigm d a s := rfl
@[simp] theorem exec_cvt (d : Nat) (a : Nat) (b : Nat) (m : Nat) (o : Nat) (s : State) : exec (.cvt d a b m o) s = execCvt d a b m o s := rfl
@[simp] theorem exec_retag (d : Nat) (t : Nat) (s : State) : exec (.retag d t) s = execRetag d t s := rfl
@[simp] theorem exec_scadd (d : Nat) (imm : Int) (s : State) : exec (.scadd d imm) s = execScadd d imm s := rfl
@[simp] theorem exec_pklo (d : Nat) (a : Nat) (b : Nat) (s : State) : exec (.pklo d a b) s = execPklo d a b s := rfl
@[simp] theorem exec_pkhi (d : Nat) (a : Nat) (b : Nat) (s : State) : exec (.pkhi d a b) s = execPkhi d a b s := rfl
@[simp] theorem exec_pkbl (d : Nat) (a : Nat) (b : Nat) (s : State) : exec (.pkbl d a b) s = execPkbl d a b s := rfl
@[simp] theorem exec_xtlo (d : Nat) (a : Nat) (s : State) : exec (.xtlo d a) s = execXtlo d a s := rfl
@[simp] theorem exec_xthi (d : Nat) (a : Nat) (s : State) : exec (.xthi d a) s = execXthi d a s := rfl
@[simp] theorem exec_xtb (d : Nat) (a : Nat) (b : Nat) (s : State) : exec (.xtb d a b) s = execXtb d a b s := rfl
@[simp] theorem exec_lpick (d : Nat) (a : Nat) (b : Nat) (s : State) : exec (.lpick d a b) s = execLpick d a b s := rfl
@[simp] theorem exec_slideup (d : Nat) (a : Nat) (b : Nat) (s : State) : exec (.slideup d a b) s = execSlideup d a b s := rfl
@[simp] theorem exec_slidedn (d : Nat) (a : Nat) (b : Nat) (s : State) : exec (.slidedn d a b) s = execSlidedn d a b s := rfl
@[simp] theorem exec_ballot (d : Nat) (a : Nat) (b : Nat) (s : State) : exec (.ballot d a b) s = execBallot d a b s := rfl
@[simp] theorem exec_voteAny (d : Nat) (a : Nat) (b : Nat) (s : State) : exec (.voteAny d a b) s = execVoteAny d a b s := rfl
@[simp] theorem exec_voteAll (d : Nat) (a : Nat) (b : Nat) (s : State) : exec (.voteAll d a b) s = execVoteAll d a b s := rfl
@[simp] theorem exec_voteEq (d : Nat) (a : Nat) (b : Nat) (s : State) : exec (.voteEq d a b) s = execVoteEq d a b s := rfl
@[simp] theorem exec_lredAdd (d : Nat) (a : Nat) (b : Nat) (s : State) : exec (.lredAdd d a b) s = execLredAdd d a b s := rfl
@[simp] theorem exec_lredMin (d : Nat) (a : Nat) (b : Nat) (s : State) : exec (.lredMin d a b) s = execLredMin d a b s := rfl
@[simp] theorem exec_lredMax (d : Nat) (a : Nat) (b : Nat) (s : State) : exec (.lredMax d a b) s = execLredMax d a b s := rfl
@[simp] theorem exec_lredAnd (d : Nat) (a : Nat) (b : Nat) (s : State) : exec (.lredAnd d a b) s = execLredAnd d a b s := rfl
@[simp] theorem exec_lredOr (d : Nat) (a : Nat) (b : Nat) (s : State) : exec (.lredOr d a b) s = execLredOr d a b s := rfl
@[simp] theorem exec_lredXor (d : Nat) (a : Nat) (b : Nat) (s : State) : exec (.lredXor d a b) s = execLredXor d a b s := rfl
@[simp] theorem exec_lscanInc (d : Nat) (a : Nat) (b : Nat) (s : State) : exec (.lscanInc d a b) s = execLscanInc d a b s := rfl
@[simp] theorem exec_lscanExc (d : Nat) (a : Nat) (b : Nat) (s : State) : exec (.lscanExc d a b) s = execLscanExc d a b s := rfl
@[simp] theorem exec_vmovfrom (d : Nat) (s : State) : exec (.vmovfrom d) s = execVmovfrom d s := rfl
@[simp] theorem exec_vmovto (a : Nat) (s : State) : exec (.vmovto a) s = execVmovto a s := rfl
@[simp] theorem exec_setix (a : Nat) (s : State) : exec (.setix a) s = execSetix a s := rfl
@[simp] theorem exec_getix (d : Nat) (s : State) : exec (.getix d) s = execGetix d s := rfl
@[simp] theorem exec_addix (a : Nat) (s : State) : exec (.addix a) s = execAddix a s := rfl
@[simp] theorem exec_guard (p : Nat) (inv : Nat) (n : Nat) (s : State) : exec (.guard p inv n) s = execGuard p inv n s := rfl
@[simp] theorem exec_br (off : Int) (inv : Nat) (p : Nat) (s : State) : exec (.br off inv p) s = execBr off inv p s := rfl
@[simp] theorem exec_call (off : Int) (inv : Nat) (p : Nat) (s : State) : exec (.call off inv p) s = execCall off inv p s := rfl
@[simp] theorem exec_brq (off : Int) (inv : Nat) (s : State) : exec (.brq off inv) s = execBrq off inv s := rfl
@[simp] theorem exec_jmpi (a : Nat) (imm : Nat) (s : State) : exec (.jmpi a imm) s = execJmpi a imm s := rfl
@[simp] theorem exec_calli (a : Nat) (imm : Nat) (s : State) : exec (.calli a imm) s = execCalli a imm s := rfl
@[simp] theorem exec_ret (s : State) : exec (.ret) s = execRet s := rfl
@[simp] theorem exec_brt (a : Nat) (imm : Nat) (s : State) : exec (.brt a imm) s = execBrt a imm s := rfl
@[simp] theorem exec_nop (s : State) : exec (.nop) s = execNop s := rfl
@[simp] theorem exec_reform (s : State) : exec (.reform) s = execReform s := rfl
@[simp] theorem exec_reformK (a : Nat) (s : State) : exec (.reformK a) s = execReformK a s := rfl
@[simp] theorem exec_yield (s : State) : exec (.yield) s = execYield s := rfl
@[simp] theorem exec_lpad (imm : Nat) (s : State) : exec (.lpad imm) s = execLpad imm s := rfl
@[simp] theorem exec_exit (s : State) : exec (.exit) s = execExit s := rfl
@[simp] theorem exec_lsync (a : Nat) (s : State) : exec (.lsync a) s = execLsync a s := rfl
@[simp] theorem exec_elect (p : Nat) (a : Nat) (s : State) : exec (.elect p a) s = execElect p a s := rfl
@[simp] theorem exec_beacon (s : State) : exec (.beacon) s = execBeacon s := rfl
@[simp] theorem exec_wait (l : Nat) (st : Nat) (c : Nat) (t : Nat) (av : Nat) (aw : Nat) (s : State) : exec (.wait l st c t av aw) s = execWait l st c t av aw s := rfl
@[simp] theorem exec_ldRaw (d : Nat) (b : Nat) (off : Int) (s : State) : exec (.ldRaw d b off) s = execLdRaw d b off s := rfl
@[simp] theorem exec_ldI32 (d : Nat) (b : Nat) (off : Int) (s : State) : exec (.ldI32 d b off) s = execLdI32 d b off s := rfl
@[simp] theorem exec_ldN32 (d : Nat) (b : Nat) (off : Int) (s : State) : exec (.ldN32 d b off) s = execLdN32 d b off s := rfl
@[simp] theorem exec_ldF32 (d : Nat) (b : Nat) (off : Int) (s : State) : exec (.ldF32 d b off) s = execLdF32 d b off s := rfl
@[simp] theorem exec_ld64 (d : Nat) (b : Nat) (off : Int) (s : State) : exec (.ld64 d b off) s = execLd64 d b off s := rfl
@[simp] theorem exec_ldI8 (d : Nat) (b : Nat) (off : Int) (s : State) : exec (.ldI8 d b off) s = execLdI8 d b off s := rfl
@[simp] theorem exec_ldN8 (d : Nat) (b : Nat) (off : Int) (s : State) : exec (.ldN8 d b off) s = execLdN8 d b off s := rfl
@[simp] theorem exec_ldI16 (d : Nat) (b : Nat) (off : Int) (s : State) : exec (.ldI16 d b off) s = execLdI16 d b off s := rfl
@[simp] theorem exec_ldN16 (d : Nat) (b : Nat) (off : Int) (s : State) : exec (.ldN16 d b off) s = execLdN16 d b off s := rfl
@[simp] theorem exec_st8 (d : Nat) (b : Nat) (off : Int) (s : State) : exec (.st8 d b off) s = execSt8 d b off s := rfl
@[simp] theorem exec_st16 (d : Nat) (b : Nat) (off : Int) (s : State) : exec (.st16 d b off) s = execSt16 d b off s := rfl
@[simp] theorem exec_st32 (d : Nat) (b : Nat) (off : Int) (s : State) : exec (.st32 d b off) s = execSt32 d b off s := rfl
@[simp] theorem exec_st64 (d : Nat) (b : Nat) (off : Int) (s : State) : exec (.st64 d b off) s = execSt64 d b off s := rfl
@[simp] theorem exec_ldt (d : Nat) (b : Nat) (a : Nat) (z : Nat) (s : State) : exec (.ldt d b a z) s = execLdt d b a z s := rfl
@[simp] theorem exec_lds (d : Nat) (a : Nat) (off : Int) (s : State) : exec (.lds d a off) s = execLds d a off s := rfl
@[simp] theorem exec_ldsWf (d : Nat) (a : Nat) (off : Int) (s : State) : exec (.ldsWf d a off) s = execLdsWf d a off s := rfl
@[simp] theorem exec_ldsWfe (d : Nat) (a : Nat) (off : Int) (s : State) : exec (.ldsWfe d a off) s = execLdsWfe d a off s := rfl
@[simp] theorem exec_ldsSe (d : Nat) (a : Nat) (off : Int) (s : State) : exec (.ldsSe d a off) s = execLdsSe d a off s := rfl
@[simp] theorem exec_lds64 (d : Nat) (a : Nat) (off : Int) (s : State) : exec (.lds64 d a off) s = execLds64 d a off s := rfl
@[simp] theorem exec_lds8 (d : Nat) (a : Nat) (off : Int) (s : State) : exec (.lds8 d a off) s = execLds8 d a off s := rfl
@[simp] theorem exec_lds16 (d : Nat) (a : Nat) (off : Int) (s : State) : exec (.lds16 d a off) s = execLds16 d a off s := rfl
@[simp] theorem exec_sts (d : Nat) (a : Nat) (off : Int) (s : State) : exec (.sts d a off) s = execSts d a off s := rfl
@[simp] theorem exec_stsWef (d : Nat) (a : Nat) (off : Int) (s : State) : exec (.stsWef d a off) s = execStsWef d a off s := rfl
@[simp] theorem exec_stsSf (d : Nat) (a : Nat) (off : Int) (s : State) : exec (.stsSf d a off) s = execStsSf d a off s := rfl
@[simp] theorem exec_stsSe (d : Nat) (a : Nat) (off : Int) (s : State) : exec (.stsSe d a off) s = execStsSe d a off s := rfl
@[simp] theorem exec_sts64 (d : Nat) (a : Nat) (off : Int) (s : State) : exec (.sts64 d a off) s = execSts64 d a off s := rfl
@[simp] theorem exec_sts8 (d : Nat) (a : Nat) (off : Int) (s : State) : exec (.sts8 d a off) s = execSts8 d a off s := rfl
@[simp] theorem exec_sts16 (d : Nat) (a : Nat) (off : Int) (s : State) : exec (.sts16 d a off) s = execSts16 d a off s := rfl
@[simp] theorem exec_lda32 (d : Nat) (b : Nat) (off : Int) (sc : Scope) (s : State) : exec (.lda32 d b off sc) s = execLda32 d b off sc s := rfl
@[simp] theorem exec_lda64 (d : Nat) (b : Nat) (off : Int) (sc : Scope) (s : State) : exec (.lda64 d b off sc) s = execLda64 d b off sc s := rfl
@[simp] theorem exec_ldaP (d : Nat) (b : Nat) (off : Int) (s : State) : exec (.ldaP d b off) s = execLdaP d b off s := rfl
@[simp] theorem exec_ldaP64 (d : Nat) (b : Nat) (off : Int) (s : State) : exec (.ldaP64 d b off) s = execLdaP64 d b off s := rfl
@[simp] theorem exec_stl32 (d : Nat) (b : Nat) (off : Int) (sc : Scope) (s : State) : exec (.stl32 d b off sc) s = execStl32 d b off sc s := rfl
@[simp] theorem exec_stl64 (d : Nat) (b : Nat) (off : Int) (sc : Scope) (s : State) : exec (.stl64 d b off sc) s = execStl64 d b off sc s := rfl
@[simp] theorem exec_atomAdd (sc : Scope) (d : Nat) (b : Nat) (v : Nat) (s : State) : exec (.atomAdd sc d b v) s = execAtomAdd sc d b v s := rfl
@[simp] theorem exec_atomAddb (sc : Scope) (d : Nat) (b : Nat) (v : Nat) (s : State) : exec (.atomAddb sc d b v) s = execAtomAddb sc d b v s := rfl
@[simp] theorem exec_atomMin (sc : Scope) (d : Nat) (b : Nat) (v : Nat) (s : State) : exec (.atomMin sc d b v) s = execAtomMin sc d b v s := rfl
@[simp] theorem exec_atomMax (sc : Scope) (d : Nat) (b : Nat) (v : Nat) (s : State) : exec (.atomMax sc d b v) s = execAtomMax sc d b v s := rfl
@[simp] theorem exec_atomMinn (sc : Scope) (d : Nat) (b : Nat) (v : Nat) (s : State) : exec (.atomMinn sc d b v) s = execAtomMinn sc d b v s := rfl
@[simp] theorem exec_atomMaxn (sc : Scope) (d : Nat) (b : Nat) (v : Nat) (s : State) : exec (.atomMaxn sc d b v) s = execAtomMaxn sc d b v s := rfl
@[simp] theorem exec_atomAnd (sc : Scope) (d : Nat) (b : Nat) (v : Nat) (s : State) : exec (.atomAnd sc d b v) s = execAtomAnd sc d b v s := rfl
@[simp] theorem exec_atomOr (sc : Scope) (d : Nat) (b : Nat) (v : Nat) (s : State) : exec (.atomOr sc d b v) s = execAtomOr sc d b v s := rfl
@[simp] theorem exec_atomXor (sc : Scope) (d : Nat) (b : Nat) (v : Nat) (s : State) : exec (.atomXor sc d b v) s = execAtomXor sc d b v s := rfl
@[simp] theorem exec_atomSwap (sc : Scope) (d : Nat) (b : Nat) (v : Nat) (s : State) : exec (.atomSwap sc d b v) s = execAtomSwap sc d b v s := rfl
@[simp] theorem exec_atomCas (sc : Scope) (d : Nat) (b : Nat) (v : Nat) (s : State) : exec (.atomCas sc d b v) s = execAtomCas sc d b v s := rfl
@[simp] theorem exec_atomMaxsi (sc : Scope) (d : Nat) (b : Nat) (v : Nat) (s : State) : exec (.atomMaxsi sc d b v) s = execAtomMaxsi sc d b v s := rfl
@[simp] theorem exec_atomFadd (sc : Scope) (d : Nat) (b : Nat) (v : Nat) (s : State) : exec (.atomFadd sc d b v) s = execAtomFadd sc d b v s := rfl
@[simp] theorem exec_atomAdd64 (sc : Scope) (d : Nat) (b : Nat) (v : Nat) (s : State) : exec (.atomAdd64 sc d b v) s = execAtomAdd64 sc d b v s := rfl
@[simp] theorem exec_atomSwap64 (sc : Scope) (d : Nat) (b : Nat) (v : Nat) (s : State) : exec (.atomSwap64 sc d b v) s = execAtomSwap64 sc d b v s := rfl
@[simp] theorem exec_atomCas64 (sc : Scope) (d : Nat) (b : Nat) (v : Nat) (s : State) : exec (.atomCas64 sc d b v) s = execAtomCas64 sc d b v s := rfl
@[simp] theorem exec_fenceAcq (sc : Scope) (s : State) : exec (.fenceAcq sc) s = execFenceAcq sc s := rfl
@[simp] theorem exec_fenceRel (sc : Scope) (s : State) : exec (.fenceRel sc) s = execFenceRel sc s := rfl
@[simp] theorem exec_fenceAr (sc : Scope) (s : State) : exec (.fenceAr sc) s = execFenceAr sc s := rfl
@[simp] theorem exec_fenceSc (sc : Scope) (s : State) : exec (.fenceSc sc) s = execFenceSc sc s := rfl
@[simp] theorem exec_prefL2 (b : Nat) (off : Int) (s : State) : exec (.prefL2 b off) s = execPrefL2 b off s := rfl
@[simp] theorem exec_prefL1 (b : Nat) (off : Int) (s : State) : exec (.prefL1 b off) s = execPrefL1 b off s := rfl
@[simp] theorem exec_cwb (b : Nat) (off : Int) (s : State) : exec (.cwb b off) s = execCwb b off s := rfl
@[simp] theorem exec_cinv (b : Nat) (off : Int) (s : State) : exec (.cinv b off) s = execCinv b off s := rfl
@[simp] theorem exec_cwbinv (b : Nat) (off : Int) (s : State) : exec (.cwbinv b off) s = execCwbinv b off s := rfl
@[simp] theorem exec_czero (b : Nat) (off : Int) (s : State) : exec (.czero b off) s = execCzero b off s := rfl
@[simp] theorem exec_cevict (b : Nat) (off : Int) (s : State) : exec (.cevict b off) s = execCevict b off s := rfl
@[simp] theorem exec_waitaEqGlobal (d : Nat) (b : Nat) (off : Nat) (sc : Scope) (s : State) : exec (.waitaEqGlobal d b off sc) s = execWaitaEqGlobal d b off sc s := rfl
@[simp] theorem exec_waitaChgGlobal (d : Nat) (b : Nat) (off : Nat) (sc : Scope) (s : State) : exec (.waitaChgGlobal d b off sc) s = execWaitaChgGlobal d b off sc s := rfl
@[simp] theorem exec_waitaFull (d : Nat) (b : Nat) (off : Nat) (sc : Scope) (s : State) : exec (.waitaFull d b off sc) s = execWaitaFull d b off sc s := rfl
@[simp] theorem exec_waitaEqScratch (d : Nat) (b : Nat) (off : Nat) (sc : Scope) (s : State) : exec (.waitaEqScratch d b off sc) s = execWaitaEqScratch d b off sc s := rfl
@[simp] theorem exec_waitaChgScratch (d : Nat) (b : Nat) (off : Nat) (sc : Scope) (s : State) : exec (.waitaChgScratch d b off sc) s = execWaitaChgScratch d b off sc s := rfl
@[simp] theorem exec_copyG2s (d : Nat) (a : Nat) (s : State) : exec (.copyG2s d a) s = execCopyG2s d a s := rfl
@[simp] theorem exec_copyS2g (d : Nat) (a : Nat) (s : State) : exec (.copyS2g d a) s = execCopyS2g d a s := rfl
@[simp] theorem exec_copyG2g (d : Nat) (a : Nat) (s : State) : exec (.copyG2g d a) s = execCopyG2g d a s := rfl
@[simp] theorem exec_copyG2c (d : Nat) (a : Nat) (s : State) : exec (.copyG2c d a) s = execCopyG2c d a s := rfl
@[simp] theorem exec_copyS2c (d : Nat) (a : Nat) (s : State) : exec (.copyS2c d a) s = execCopyS2c d a s := rfl
@[simp] theorem exec_copyMeta (d : Nat) (a : Nat) (s : State) : exec (.copyMeta d a) s = execCopyMeta d a s := rfl
@[simp] theorem exec_copyScale (d : Nat) (a : Nat) (s : State) : exec (.copyScale d a) s = execCopyScale d a s := rfl
@[simp] theorem exec_copyRemote (d : Nat) (a : Nat) (s : State) : exec (.copyRemote d a) s = execCopyRemote d a s := rfl
@[simp] theorem exec_copyReduce (d : Nat) (a : Nat) (s : State) : exec (.copyReduce d a) s = execCopyReduce d a s := rfl
@[simp] theorem exec_copyGather (d : Nat) (a : Nat) (s : State) : exec (.copyGather d a) s = execCopyGather d a s := rfl
@[simp] theorem exec_copyScatter (d : Nat) (a : Nat) (s : State) : exec (.copyScatter d a) s = execCopyScatter d a s := rfl
@[simp] theorem exec_qinit (d : Nat) (q : Nat) (a : Nat) (s : State) : exec (.qinit d q a) s = execQinit d q a s := rfl
@[simp] theorem exec_qpush (d : Nat) (q : Nat) (a : Nat) (s : State) : exec (.qpush d q a) s = execQpush d q a s := rfl
@[simp] theorem exec_qpop (d : Nat) (q : Nat) (a : Nat) (s : State) : exec (.qpop d q a) s = execQpop d q a s := rfl
@[simp] theorem exec_qtrypush (r : Nat) (d : Nat) (q : Nat) (a : Nat) (s : State) : exec (.qtrypush r d q a) s = execQtrypush r d q a s := rfl
@[simp] theorem exec_qtrypop (r : Nat) (d : Nat) (q : Nat) (a : Nat) (s : State) : exec (.qtrypop r d q a) s = execQtrypop r d q a s := rfl
@[simp] theorem exec_qlen (d : Nat) (q : Nat) (s : State) : exec (.qlen d q) s = execQlen d q s := rfl
@[simp] theorem exec_rvinit (d : Nat) (a : Nat) (b : Nat) (s : State) : exec (.rvinit d a b) s = execRvinit d a b s := rfl
@[simp] theorem exec_arrive (d : Nat) (a : Nat) (s : State) : exec (.arrive d a) s = execArrive d a s := rfl
@[simp] theorem exec_arriven (d : Nat) (a : Nat) (b : Nat) (s : State) : exec (.arriven d a b) s = execArriven d a b s := rfl
@[simp] theorem exec_expect (d : Nat) (a : Nat) (b : Nat) (s : State) : exec (.expect d a b) s = execExpect d a b s := rfl
@[simp] theorem exec_pledge (d : Nat) (a : Nat) (b : Nat) (s : State) : exec (.pledge d a b) s = execPledge d a b s := rfl
@[simp] theorem exec_rvleave (d : Nat) (a : Nat) (s : State) : exec (.rvleave d a) s = execRvleave d a s := rfl
@[simp] theorem exec_mma (d : Nat) (a : Nat) (s : State) : exec (.mma d a) s = execMma d a s := rfl
@[simp] theorem exec_tld (d : Nat) (a : Nat) (b : Nat) (s : State) : exec (.tld d a b) s = execTld d a b s := rfl
@[simp] theorem exec_tst (d : Nat) (a : Nat) (b : Nat) (s : State) : exec (.tst d a b) s = execTst d a b s := rfl
@[simp] theorem exec_tzero (d : Nat) (a : Nat) (s : State) : exec (.tzero d a) s = execTzero d a s := rfl
@[simp] theorem exec_tcvt (d : Nat) (a : Nat) (b : Nat) (s : State) : exec (.tcvt d a b) s = execTcvt d a b s := rfl
@[simp] theorem exec_tget (d : Nat) (a : Nat) (b : Nat) (s : State) : exec (.tget d a b) s = execTget d a b s := rfl
@[simp] theorem exec_tset (d : Nat) (a : Nat) (b : Nat) (s : State) : exec (.tset d a b) s = execTset d a b s := rfl
@[simp] theorem exec_tredr (d : Nat) (a : Nat) (b : Nat) (s : State) : exec (.tredr d a b) s = execTredr d a b s := rfl
@[simp] theorem exec_tredc (d : Nat) (a : Nat) (b : Nat) (s : State) : exec (.tredc d a b) s = execTredc d a b s := rfl
@[simp] theorem exec_tstat (d : Nat) (a : Nat) (s : State) : exec (.tstat d a) s = execTstat d a s := rfl
@[simp] theorem exec_tgen (d : Nat) (a : Nat) (s : State) : exec (.tgen d a) s = execTgen d a s := rfl
@[simp] theorem exec_pform (d : Nat) (a : Nat) (b : Nat) (s : State) : exec (.pform d a b) s = execPform d a b s := rfl
@[simp] theorem exec_pmarg (d : Nat) (a : Nat) (b : Nat) (s : State) : exec (.pmarg d a b) s = execPmarg d a b s := rfl
@[simp] theorem exec_balance (d : Nat) (a : Nat) (b : Nat) (s : State) : exec (.balance d a b) s = execBalance d a b s := rfl
@[simp] theorem exec_pextract (d : Nat) (a : Nat) (b : Nat) (s : State) : exec (.pextract d a b) s = execPextract d a b s := rfl
@[simp] theorem exec_pcost (d : Nat) (a : Nat) (b : Nat) (s : State) : exec (.pcost d a b) s = execPcost d a b s := rfl
@[simp] theorem exec_pstat (d : Nat) (a : Nat) (b : Nat) (s : State) : exec (.pstat d a b) s = execPstat d a b s := rfl
@[simp] theorem exec_mzdecl (d : Nat) (a : Nat) (s : State) : exec (.mzdecl d a) s = execMzdecl d a s := rfl
@[simp] theorem exec_mzpost (a : Nat) (b : Nat) (s : State) : exec (.mzpost a b) s = execMzpost a b s := rfl
@[simp] theorem exec_mztake (d : Nat) (a : Nat) (b : Nat) (s : State) : exec (.mztake d a b) s = execMztake d a b s := rfl
@[simp] theorem exec_mzdonePass (a : Nat) (b : Nat) (s : State) : exec (.mzdonePass a b) s = execMzdonePass a b s := rfl
@[simp] theorem exec_mzdoneDrop (a : Nat) (b : Nat) (s : State) : exec (.mzdoneDrop a b) s = execMzdoneDrop a b s := rfl
@[simp] theorem exec_mzeff (d : Nat) (a : Nat) (b : Nat) (s : State) : exec (.mzeff d a b) s = execMzeff d a b s := rfl
@[simp] theorem exec_mzsink (d : Nat) (a : Nat) (s : State) : exec (.mzsink d a) s = execMzsink d a s := rfl
@[simp] theorem exec_mzstat (d : Nat) (a : Nat) (b : Nat) (s : State) : exec (.mzstat d a b) s = execMzstat d a b s := rfl
@[simp] theorem exec_lcreate (d : Nat) (a : Nat) (b : Nat) (s : State) : exec (.lcreate d a b) s = execLcreate d a b s := rfl
@[simp] theorem exec_lcreateM (d : Nat) (a : Nat) (b : Nat) (s : State) : exec (.lcreateM d a b) s = execLcreateM d a b s := rfl
@[simp] theorem exec_lopen (d : Nat) (a : Nat) (s : State) : exec (.lopen d a) s = execLopen d a s := rfl
@[simp] theorem exec_lhand (d : Nat) (a : Nat) (b : Nat) (s : State) : exec (.lhand d a b) s = execLhand d a b s := rfl
@[simp] theorem exec_ldrop (d : Nat) (a : Nat) (s : State) : exec (.ldrop d a) s = execLdrop d a s := rfl
@[simp] theorem exec_linfo (d : Nat) (a : Nat) (s : State) : exec (.linfo d a) s = execLinfo d a s := rfl
@[simp] theorem exec_launch (d : Nat) (a : Nat) (b : Nat) (s : State) : exec (.launch d a b) s = execLaunch d a b s := rfl
@[simp] theorem exec_signal (d : Nat) (a : Nat) (b : Nat) (s : State) : exec (.signal d a b) s = execSignal d a b s := rfl
@[simp] theorem exec_cont (a : Nat) (b : Nat) (s : State) : exec (.cont a b) s = execCont a b s := rfl
@[simp] theorem exec_take (d : Nat) (a : Nat) (s : State) : exec (.take d a) s = execTake d a s := rfl
@[simp] theorem exec_idemBegin (a : Nat) (s : State) : exec (.idemBegin a) s = execIdemBegin a s := rfl
@[simp] theorem exec_idemEnd (s : State) : exec (.idemEnd) s = execIdemEnd s := rfl
@[simp] theorem exec_afor (d : Nat) (a : Nat) (b : Nat) (s : State) : exec (.afor d a b) s = execAfor d a b s := rfl
@[simp] theorem exec_aend (s : State) : exec (.aend) s = execAend s := rfl
@[simp] theorem exec_aload (d : Nat) (a : Nat) (b : Nat) (s : State) : exec (.aload d a b) s = execAload d a b s := rfl
@[simp] theorem exec_abr (a : Nat) (s : State) : exec (.abr a) s = execAbr a s := rfl
@[simp] theorem exec_ahalt (s : State) : exec (.ahalt) s = execAhalt s := rfl
@[simp] theorem exec_trap (c : Nat) (s : State) : exec (.trap c) s = execTrap c s := rfl
@[simp] theorem exec_bkpt (c : Nat) (s : State) : exec (.bkpt c) s = execBkpt c s := rfl
@[simp] theorem exec_cread (d : Nat) (a : Nat) (n : Nat) (s : State) : exec (.cread d a n) s = execCread d a n s := rfl
@[simp] theorem exec_cwrite (d : Nat) (a : Nat) (n : Nat) (s : State) : exec (.cwrite d a n) s = execCwrite d a n s := rfl
@[simp] theorem exec_traprd (d : Nat) (a : Nat) (n : Nat) (s : State) : exec (.traprd d a n) s = execTraprd d a n s := rfl
@[simp] theorem exec_trapwr (d : Nat) (a : Nat) (n : Nat) (s : State) : exec (.trapwr d a n) s = execTrapwr d a n s := rfl
@[simp] theorem exec_haltwg (d : Nat) (a : Nat) (n : Nat) (s : State) : exec (.haltwg d a n) s = execHaltwg d a n s := rfl
@[simp] theorem exec_resume (d : Nat) (a : Nat) (n : Nat) (s : State) : exec (.resume d a n) s = execResume d a n s := rfl
@[simp] theorem exec_kill (d : Nat) (a : Nat) (n : Nat) (s : State) : exec (.kill d a n) s = execKill d a n s := rfl
@[simp] theorem exec_tlbinvWrite (part : Nat) (v : Word) (s : State) : exec (.tlbinvWrite part v) s = execTlbinvWrite part v s := rfl
@[simp] theorem exec_resetWrite (part : Nat) (s : State) : exec (.resetWrite part) s = execResetWrite part s := rfl
@[simp] theorem exec_runRelease (id : Nat) (s : State) : exec (.runRelease id) s = execRunRelease id s := rfl
@[simp] theorem exec_issueGroupSelect (q : Nat) (s : State) : exec (.issueGroupSelect q) s = execIssueGroupSelect q s := rfl
@[simp] theorem exec_yieldReady (w : Nat) (t : Nat) (s : State) : exec (.yieldReady w t) s = execYieldReady w t s := rfl
@[simp] theorem exec_trapEntry (w : Nat) (t : Nat) (s : State) : exec (.trapEntry w t) s = execTrapEntry w t s := rfl
@[simp] theorem exec_loadReturn (id : Nat) (fill : Bool) (bad : Bool) (s : State) : exec (.loadReturn id fill bad) s = execLoadReturn id fill bad s := rfl
@[simp] theorem exec_storePerform (id : Nat) (bad : Bool) (s : State) : exec (.storePerform id bad) s = execStorePerform id bad s := rfl
@[simp] theorem exec_waitTableSpill (core : Nat) (s : State) : exec (.waitTableSpill core) s = execWaitTableSpill core s := rfl
@[simp] theorem exec_waitTableFill (core : Nat) (s : State) : exec (.waitTableFill core) s = execWaitTableFill core s := rfl
@[simp] theorem exec_pageWalkComplete (id : Nat) (s : State) : exec (.pageWalkComplete id) s = execPageWalkComplete id s := rfl
@[simp] theorem exec_promotionRequest (core : Nat) (line : Nat) (s : State) : exec (.promotionRequest core line) s = execPromotionRequest core line s := rfl
@[simp] theorem exec_pmemgrowService (w : Nat) (t : Nat) (high : DWord) (writes : List (Nat × DWord)) (s : State) : exec (.pmemgrowService w t high writes) s = execPmemgrowService w t high writes s := rfl
@[simp] theorem exec_streamerChannelStart (core : Nat) (s : State) : exec (.streamerChannelStart core) s = execStreamerChannelStart core s := rfl
@[simp] theorem exec_streamerByteReport (id : Nat) (bad : Bool) (s : State) : exec (.streamerByteReport id bad) s = execStreamerByteReport id bad s := rfl
@[simp] theorem exec_copyComplete (id : Nat) (s : State) : exec (.copyComplete id) s = execCopyComplete id s := rfl
@[simp] theorem exec_accessGroupIssue (q : Nat) (w : Nat) (lset : Nat) (s : State) : exec (.accessGroupIssue q w lset) s = execAccessGroupIssue q w lset s := rfl
@[simp] theorem exec_aloadReturn (id : Nat) (bad : Bool) (s : State) : exec (.aloadReturn id bad) s = execAloadReturn id bad s := rfl
@[simp] theorem exec_tileOpStart (id : Nat) (s : State) : exec (.tileOpStart id) s = execTileOpStart id s := rfl
@[simp] theorem exec_matrixPassEnd (id : Nat) (bad : Bool) (s : State) : exec (.matrixPassEnd id bad) s = execMatrixPassEnd id bad s := rfl
@[simp] theorem exec_tileOpComplete (id : Nat) (bad : Bool) (s : State) : exec (.tileOpComplete id bad) s = execTileOpComplete id bad s := rfl
@[simp] theorem exec_tgenComplete (id : Nat) (bad : Bool) (s : State) : exec (.tgenComplete id bad) s = execTgenComplete id bad s := rfl
@[simp] theorem exec_balanceSweep (id : Nat) (s : State) : exec (.balanceSweep id) s = execBalanceSweep id s := rfl
@[simp] theorem exec_mazeHeldReroute (clus : Nat) (set : Nat) (s : State) : exec (.mazeHeldReroute clus set) s = execMazeHeldReroute clus set s := rfl
@[simp] theorem exec_mazeRecordComplete (clus : Nat) (set : Nat) (s : State) : exec (.mazeRecordComplete clus set) s = execMazeRecordComplete clus set s := rfl
@[simp] theorem exec_lodgeMoveStart (part : Nat) (name : DWord) (s : State) : exec (.lodgeMoveStart part name) s = execLodgeMoveStart part name s := rfl
@[simp] theorem exec_lodgeMoveComplete (part : Nat) (name : DWord) (s : State) : exec (.lodgeMoveComplete part name) s = execLodgeMoveComplete part name s := rfl
@[simp] theorem exec_lodgeRebuild (part : Nat) (name : DWord) (s : State) : exec (.lodgeRebuild part name) s = execLodgeRebuild part name s := rfl
@[simp] theorem exec_lodgeMirrorCopy (part : Nat) (name : DWord) (s : State) : exec (.lodgeMirrorCopy part name) s = execLodgeMirrorCopy part name s := rfl
@[simp] theorem exec_patienceExpiry (l : Nat) (w : Nat) (s : State) : exec (.patienceExpiry l w) s = execPatienceExpiry l w s := rfl
@[simp] theorem exec_leaseEnd (q : Nat) (s : State) : exec (.leaseEnd q) s = execLeaseEnd q s := rfl
@[simp] theorem exec_coreLoss (cores : List Nat) (s : State) : exec (.coreLoss cores) s = execCoreLoss cores s := rfl
@[simp] theorem exec_queueHeadActivate (part : Nat) (q : Nat) (s : State) : exec (.queueHeadActivate part q) s = execQueueHeadActivate part q s := rfl
@[simp] theorem exec_workgroupPlace (clus : Nat) (quad : Nat) (s : State) : exec (.workgroupPlace clus quad) s = execWorkgroupPlace clus quad s := rfl
@[simp] theorem exec_quadrantReclaim (q : Nat) (s : State) : exec (.quadrantReclaim q) s = execQuadrantReclaim q s := rfl
@[simp] theorem exec_launchComplete (l : Nat) (s : State) : exec (.launchComplete l) s = execLaunchComplete l s := rfl
@[simp] theorem exec_preempt (w : Nat) (s : State) : exec (.preempt w) s = execPreempt w s := rfl
@[simp] theorem exec_preemptSave (w : Nat) (s : State) : exec (.preemptSave w) s = execPreemptSave w s := rfl
@[simp] theorem exec_restore (w : Nat) (quad : Nat) (s : State) : exec (.restore w quad) s = execRestore w quad s := rfl
@[simp] theorem exec_ttSlotStart (part : Nat) (s : State) : exec (.ttSlotStart part) s = execTtSlotStart part s := rfl
@[simp] theorem exec_ttSlotSkip (part : Nat) (s : State) : exec (.ttSlotSkip part) s = execTtSlotSkip part s := rfl
@[simp] theorem exec_contRecordReady (l : Nat) (r : Nat) (s : State) : exec (.contRecordReady l r) s = execContRecordReady l r s := rfl
@[simp] theorem exec_genQuarantineRelease (part : Nat) (g : Nat) (s : State) : exec (.genQuarantineRelease part g) s = execGenQuarantineRelease part g s := rfl
@[simp] theorem exec_watchdogFire (w : Nat) (s : State) : exec (.watchdogFire w) s = execWatchdogFire w s := rfl
@[simp] theorem exec_watchdogGraceExpiry (w : Nat) (s : State) : exec (.watchdogGraceExpiry w) s = execWatchdogGraceExpiry w s := rfl
@[simp] theorem exec_strike (core : Nat) (s : State) : exec (.strike core) s = execStrike core s := rfl
@[simp] theorem exec_patrolScrub (line : Nat) (found : List (Nat × Bool)) (s : State) : exec (.patrolScrub line found) s = execPatrolScrub line found s := rfl
@[simp] theorem exec_flitReceive (port : Nat) (flit : List Byte) (s : State) : exec (.flitReceive port flit) s = execFlitReceive port flit s := rfl
@[simp] theorem exec_ackReturn (port : Nat) (s : State) : exec (.ackReturn port) s = execAckReturn port s := rfl
@[simp] theorem exec_laneFailure (port : Nat) (lane : Nat) (s : State) : exec (.laneFailure port lane) s = execLaneFailure port lane s := rfl
@[simp] theorem exec_linkRetrainDone (port : Nat) (peerAck : Nat) (s : State) : exec (.linkRetrainDone port peerAck) s = execLinkRetrainDone port peerAck s := rfl
@[simp] theorem exec_flitExpire (port : Nat) (seq : Nat) (s : State) : exec (.flitExpire port seq) s = execFlitExpire port seq s := rfl
@[simp] theorem exec_peerRequest (req : PeerReq) (s : State) : exec (.peerRequest req) s = execPeerRequest req s := rfl
@[simp] theorem exec_peerLaunch (req : PeerReq) (s : State) : exec (.peerLaunch req) s = execPeerLaunch req s := rfl
@[simp] theorem exec_remoteResponse (id : Nat) (status : Nat) (data : List Byte) (s : State) : exec (.remoteResponse id status data) s = execRemoteResponse id status data s := rfl
@[simp] theorem exec_remoteTimeout (id : Nat) (s : State) : exec (.remoteTimeout id) s = execRemoteTimeout id s := rfl
@[simp] theorem exec_reductionResult (id : Nat) (status : Nat) (contribs : List (List Nat)) (s : State) : exec (.reductionResult id status contribs) s = execReductionResult id status contribs s := rfl
@[simp] theorem exec_reductionTimeout (id : Nat) (s : State) : exec (.reductionTimeout id) s = execReductionTimeout id s := rfl
@[simp] theorem exec_scaleOutFrameReceive (port : Nat) (frame : List Byte) (s : State) : exec (.scaleOutFrameReceive port frame) s = execScaleOutFrameReceive port frame s := rfl
@[simp] theorem exec_scaleOutResend (port : Nat) (s : State) : exec (.scaleOutResend port) s = execScaleOutResend port s := rfl
@[simp] theorem exec_hostCxlMemAccess (part : Nat) (write : Bool) (addr : Nat) (data : List Byte) (s : State) : exec (.hostCxlMemAccess part write addr data) s = execHostCxlMemAccess part write addr data s := rfl
@[simp] theorem exec_bar2ApertureAccess (part : Nat) (write : Bool) (addr : Nat) (data : List Byte) (s : State) : exec (.bar2ApertureAccess part write addr data) s = execBar2ApertureAccess part write addr data s := rfl
@[simp] theorem exec_doorbell (part : Nat) (q : Nat) (v : Word) (s : State) : exec (.doorbell part q v) s = execDoorbell part q v s := rfl
@[simp] theorem exec_partitionDefine (part : Nat) (lim : PartLimits) (s : State) : exec (.partitionDefine part lim) s = execPartitionDefine part lim s := rfl
@[simp] theorem exec_partitionChange (part : Nat) (lim : PartLimits) (s : State) : exec (.partitionChange part lim) s = execPartitionChange part lim s := rfl
@[simp] theorem exec_partitionTeardown (part : Nat) (s : State) : exec (.partitionTeardown part) s = execPartitionTeardown part s := rfl
@[simp] theorem exec_hbmReassign (part : Nat) (base : Nat) (size : Nat) (s : State) : exec (.hbmReassign part base size) s = execHbmReassign part base size s := rfl
@[simp] theorem exec_peerAclWrite (idx : Nat) (e : AclEntry) (s : State) : exec (.peerAclWrite idx e) s = execPeerAclWrite idx e s := rfl
@[simp] theorem exec_reductionGroupDefine (part : Nat) (g : Nat) (members : List (Nat × Nat)) (timeout : Nat) (s : State) : exec (.reductionGroupDefine part g members timeout) s = execReductionGroupDefine part g members timeout s := rfl
@[simp] theorem exec_linkRestore (port : Nat) (s : State) : exec (.linkRestore port) s = execLinkRestore port s := rfl
@[simp] theorem exec_powerCapSet (watts : Nat) (s : State) : exec (.powerCapSet watts) s = execPowerCapSet watts s := rfl
@[simp] theorem exec_meterRingName (base : Nat) (size : Nat) (s : State) : exec (.meterRingName base size) s = execMeterRingName base size s := rfl
@[simp] theorem exec_attestationQuote (nonce : List Byte) (s : State) : exec (.attestationQuote nonce) s = execAttestationQuote nonce s := rfl
@[simp] theorem exec_checkpointHeaderSign (header : List Byte) (s : State) : exec (.checkpointHeaderSign header) s = execCheckpointHeaderSign header s := rfl
@[simp] theorem exec_meterBlockClose (s : State) : exec (.meterBlockClose) s = execMeterBlockClose s := rfl
@[simp] theorem exec_powerCapAdjust (mhz : Nat) (s : State) : exec (.powerCapAdjust mhz) s = execPowerCapAdjust mhz s := rfl
@[simp] theorem exec_thermalThrottle (hot : Bool) (s : State) : exec (.thermalThrottle hot) s = execThermalThrottle hot s := rfl
@[simp] theorem exec_thermalTrip (s : State) : exec (.thermalTrip) s = execThermalTrip s := rfl
@[simp] theorem exec_s1Entry (s : State) : exec (.s1Entry) s = execS1Entry s := rfl
@[simp] theorem exec_s1Exit (s : State) : exec (.s1Exit) s = execS1Exit s := rfl
@[simp] theorem exec_moduleBoot (stage : Nat) (measure : List Byte) (good : Bool) (s : State) : exec (.moduleBoot stage measure good) s = execModuleBoot stage measure good s := rfl
@[simp] theorem exec_dieReset (die : Nat) (s : State) : exec (.dieReset die) s = execDieReset die s := rfl
@[simp] theorem exec_postcopyPagePull (part : Nat) (va : DWord) (good : Bool) (writes : List (Nat × DWord)) (s : State) : exec (.postcopyPagePull part va good writes) s = execPostcopyPagePull part va good writes s := rfl
@[simp] theorem exec_hostResetRequest (part : Nat) (s : State) : exec (.hostResetRequest part) s = execHostResetRequest part s := rfl
@[simp] theorem exec_passHoldRelease (id : Nat) (s : State) : exec (.passHoldRelease id) s = execPassHoldRelease id s := rfl
@[simp] theorem exec_l1Writeback (core : Nat) (line : Nat) (s : State) : exec (.l1Writeback core line) s = execL1Writeback core line s := rfl
@[simp] theorem exec_memoryChannelRetire (chan : Nat) (s : State) : exec (.memoryChannelRetire chan) s = execMemoryChannelRetire chan s := rfl
@[simp] theorem exec_s3Exit (s : State) : exec (.s3Exit) s = execS3Exit s := rfl
@[simp] theorem exec_hostCxlCacheSnoop (line : Nat) (data : List Byte) (s : State) : exec (.hostCxlCacheSnoop line data) s = execHostCxlCacheSnoop line data s := rfl

end Sys2Proof.Machine
end

