-- ==== Sys2Proof/Laws/Link.lean ====
section
/-! SUPPORT. Flits: their lengths, and that the bytes of a flit carry their CRC (22_fabric_host.md R332). -/

namespace Sys2Proof.Machine

theorem Flit.length_covered (f : Flit) : f.covered.length = 280 := by
  simp only [Flit.covered, List.length_append, length_natLe, List.length_take, List.length_replicate]
  omega

theorem Flit.length_bytes (f : Flit) : f.bytes.length = 288 := by
  simp [Flit.bytes, f.length_covered]

/-- The CRC of a flit's bytes holds. -/
theorem crcHolds_bytes (f : Flit) : crcHolds f.bytes = true := by
  have h : f.bytes.take 280 = f.covered := by simp [Flit.bytes, ← f.length_covered]
  have h2 : f.bytes.drop 280 = natLe 8 (crc64 f.covered).toNat := by simp [Flit.bytes, ← f.length_covered]
  have h3 := (crc64 f.covered).isLt
  simp only [crcHolds, f.length_bytes, h, h2, List.take_of_length_le (Nat.le_of_eq (length_natLe 8 _)), leNat_natLe]
  simp [Nat.mod_eq_of_lt h3]

end Sys2Proof.Machine
end

