-- ==== Sys2Proof/Laws/Memory.lean ====
section
/-! SUPPORT. What writes at home do where no thread waits on a word (08_memory.md R156), and what the home slices' lines do to
memory and backing memory (R15, R166). -/

namespace Sys2Proof.Machine

/-- No thread waits on a word: no waiter is there, and no pending store waits for its word. -/
def State.Idle (s : State) : Prop := s.waiters = [] ∧ ∀ q ∈ s.stores, q.monitor = false

theorem State.monitorStep_idle {s : State} (h : s.Idle) (k : Nat) : s.monitorStep k = none := by
  have hp : (s.stores.filter fun p => p.onWord k && s.wefReady p) = [] := by
    rw [List.filter_eq_nil_iff]
    intro p hp
    simp [State.wefReady, h.2 p hp]
  simp [State.monitorStep, h.1, hp]

theorem State.monitor_idle {s : State} (h : s.Idle) (n k : Nat) : s.monitor n k = s := by
  cases n with
  | zero => rfl
  | succ n => simp [State.monitor, State.monitorStep_idle h]

/-- Evaluating words on which no thread waits changes nothing. -/
theorem State.monitorAll_idle {s : State} (h : s.Idle) (ks : List Nat) : s.monitorAll ks = s := by
  unfold State.monitorAll
  generalize (ks.map wordKey).dedup = l
  have hg : ∀ l : List Nat, l.foldl (fun s k => s.monitor (s.waiters.length + s.stores.length + 1) k) s = s := fun l => by
    induction l with
    | nil => rfl
    | cons k l ih => rw [List.foldl_cons, State.monitor_idle h, ih]
  exact hg l

theorem State.idle_homeWrite {s : State} (h : s.Idle) (bs : List (Nat × Byte)) : (s.homeWrite bs).Idle := h

/-- A write at home that no thread waits for does nothing but write. -/
theorem State.homeStore_idle {s : State} (h : s.Idle) (bs : List (Nat × Byte)) : s.homeStore bs = s.homeWrite bs :=
  State.monitorAll_idle (State.idle_homeWrite h bs) _

@[simp] theorem State.homeWrite_mem (s : State) (bs : List (Nat × Byte)) : (s.homeWrite bs).mem = putBytes s.mem bs := rfl
@[simp] theorem State.homeWrite_threads (s : State) (bs : List (Nat × Byte)) : (s.homeWrite bs).threads = s.threads := rfl
@[simp] theorem State.homeWrite_l1 (s : State) (bs : List (Nat × Byte)) : (s.homeWrite bs).l1 = s.l1 := rfl

theorem bytesAt_cons (k : Nat) (b : Byte) (l : List Byte) : bytesAt k (b :: l) = (k, b) :: bytesAt (k + 1) l := by
  simp only [bytesAt, List.zipIdx_cons, List.map_cons, Nat.add_zero, List.cons.injEq, true_and, Nat.zero_add]
  rw [List.zipIdx_succ, List.map_map]
  refine List.map_congr_left fun x _ => ?_
  simp only [Function.comp, Prod.mk.injEq, and_true]
  omega

/-- Bytes put at consecutive keys are written from the first one up. -/
theorem putBytes_bytesAt (m : Memory) (k : Nat) (l : List Byte) : putBytes m (bytesAt k l) = Memory.writeN m k l := by
  induction l generalizing m k with
  | nil => rfl
  | cons b l ih =>
    rw [bytesAt_cons]
    exact ih _ _

/-! ### Lines of home slices -/

@[simp] theorem State.takeLine_mem (s : State) (k : Nat) : (s.takeLine k).mem = s.mem := by
  unfold State.takeLine; split <;> rfl

@[simp] theorem State.takeLine_back (s : State) (k : Nat) : (s.takeLine k).back = s.back := by
  unfold State.takeLine; split <;> rfl

@[simp] theorem State.sliceWrite_mem (s : State) (ks : List Nat) : (s.sliceWrite ks).mem = s.mem := rfl

/-- A line taken in is held. -/
theorem State.sliceHas_takeLine (s : State) {k : Nat} (h : isHbm k = true) : (s.takeLine k).sliceHas k = true := by
  unfold State.takeLine
  split
  · simp [State.sliceHas]
  · next hn => simpa [h] using hn

/-- A line that leaves its slice is held no more. -/
theorem State.sliceHas_dropLine {s : State} (k : Nat) (w : Bool) (h : asorted s.l2) : (s.dropLine k w).sliceHas k = false := by
  unfold State.dropLine
  split
  · next hn => simp [State.sliceHas, hn]
  · simp [State.sliceHas, alook_adel_self _ h]

/-- A line written back changes no byte that an agent of the module reads. -/
theorem State.dropLine_mem_of_write (s : State) (k : Nat) : (s.dropLine k true).mem = s.mem := by
  unfold State.dropLine
  split
  · rfl
  · simp

theorem State.wf_dropLine {s : State} (k : Nat) (w : Bool) (h : Memory.wf s.mem) : Memory.wf (s.dropLine k w).mem := by
  unfold State.dropLine
  split
  · exact h
  · dsimp only
    split
    · exact h
    · exact wf_putBytes _ h

theorem State.wf_copyHome {s : State} (src dst n : Nat) (h : Memory.wf s.mem) : Memory.wf (s.copyHome src dst n).mem :=
  wf_copyRange src dst n h

theorem State.wf_homeWrite {s : State} (bs : List (Nat × Byte)) (h : Memory.wf s.mem) : Memory.wf (s.homeWrite bs).mem :=
  wf_putBytes bs h

end Sys2Proof.Machine
end

