-- ==== Sys2Proof/Laws/Run.lean ====
section
/-! SUPPORT. What the end of a run does where the run has buffered nothing: commitRun in a few updates. -/

namespace Sys2Proof.Machine

variable {s : State} {r : TRef} {t : Thread} {g : Wg}

theorem aux_forEach_nil {α : Type} (f : State → α → State) (s : State) : forEach f s [] = s := rfl

/-- A pending store's run is not the number the next commit takes: nothing of the new run is performed at its commit. -/
theorem State.performLocal_of_fresh {h : HeldRun} (hf : ∀ p ∈ s.stores, p.run ≠ h.id) : s.performLocal h = s := by
  have : (s.stores.filter fun p => p.run == h.id) = [] := by
    rw [List.filter_eq_nil_iff]
    intro p hp
    simpa using hf p hp
  simp [State.performLocal, this, forEach]

/-- A run that has read before no SC fence of its own gives none its place at its commit (R145). -/
theorem State.scCommit_of_early {seq : Nat} (h : s.readsEarly r seq = false) (z : State) (hz : z.scReads = s.scReads) (id : Nat) :
    z.scCommit r seq id = z := by
  have : (z.scReads.find? fun e => e.who = r && e.seq == seq && e.run.isNone) = none := by
    rw [hz, List.find?_eq_none]
    simpa [State.readsEarly] using h
  simp [State.scCommit, this]

/-- The state after the run of a PlainRun thread has committed, before its thread goes on. -/
def committed (s : State) (r : TRef) (t : Thread) (next : Arch → Arch) (exits : Bool) : State :=
  let a := next { t.arch with regs := t.arch.regs.newRun s.fresh, xcount := 0, alone := 0 }
  { s with
    nextId := s.nextId + 1, fresh := s.fresh + 256, claims := s.claims.filter fun c => c.2 != r,
    held := s.held ++ [{ id := s.nextId, who := r, seq := t.seq, core := s.coreOf r, snap := t.run.snap,
                         rel := s.clock + 320, cmd := none, mates := t.run.mates, met := t.arch.xcount, acc := none,
                         due := s.us + 20, exits := exits }],
    threads := aput r.key { t with arch := a, seq := t.seq + 1, run := Run.start a, acc := none } s.threads }

/-- A run that has buffered nothing commits in one update, and its thread goes on (R118). -/
theorem State.endRun_of_plain (h : PlainRun s r t) (next : Arch → Arch) (acc : AccState → AccState) (post : TStatus) :
    s.endRun r t g next acc post = (committed s r t next (post == .exited)).goOn r post := by
  have ht : alook r.key s.threads = some t := h.thread
  simp only [State.endRun, h.steady, h.room, h.commit, State.scCommit_of_early h.early, State.commitRun, State.takeId, State.takeFresh, h.acc, Option.map_none, h.claims, h.buf,
    h.beacon, State.commitClaims, List.foldl_nil, State.dropClaims, Option.getD_none, State.sendOut, State.monitorAll,
    List.map_nil, List.dedup_nil, Bool.false_and, Bool.false_eq_true, if_false]
  rw [State.performLocal_of_fresh]
  · simp [committed, State.modThread, State.thread, ht, State.setThread, State.coreOf, State.quadOf, State.wg]
  · intro p hp
    exact (h.fresh p (by simpa [State.modThread, State.thread, ht, State.setThread] using hp)).1

@[simp] theorem thread_committed (s : State) (r : TRef) (t : Thread) (next : Arch → Arch) (e : Bool) :
    (committed s r t next e).thread r =
      some { t with arch := next { t.arch with regs := t.arch.regs.newRun s.fresh, xcount := 0, alone := 0 }
                    seq := t.seq + 1
                    run := Run.start (next { t.arch with regs := t.arch.regs.newRun s.fresh, xcount := 0, alone := 0 })
                    acc := none } := by
  simp [committed, State.thread]

/-- Making a thread ready gives it its status, and changes no other thread and no memory (R113). -/
theorem State.makeReady_mem (s : State) (r : TRef) (v : Nat) : (s.makeReady r v).mem = s.mem := by
  unfold State.makeReady
  dsimp only
  split <;> simp

theorem State.thread_makeReady (s : State) (r : TRef) (v : Nat) (q : TRef) :
    (s.makeReady r v).thread q = (s.modThread r fun t => { t with status := .ready (s.readyTime r) v }).thread q := by
  unfold State.makeReady
  dsimp only
  split
  · rfl
  · simp

@[simp] theorem State.makeReady_held (s : State) (r : TRef) (v : Nat) : (s.makeReady r v).held = s.held := by
  unfold State.makeReady
  dsimp only
  split <;> simp

end Sys2Proof.Machine
end

