-- ==== Sys2Proof/Tests/Slice0.lean ====
section
/-! SUPPORT. Tests: words of the manual's encodings, ill-formed instructions, single steps on a small state, and for every
statement a state and operands that meet its hypotheses. -/

namespace Sys2Proof.Tests

open Machine

/-! ## A small state -/

/-- Thread 0 of workgroup 0. -/
def r0 : TRef := { wg := 0, tid := 0 }

/-- Its register state: the registers listed, and undefined ones; supervisor mode. -/
def archOf (l : List (Nat × RegVal)) : Arch :=
  { fetchArch with regs := { cells := l.map fun x => (x.1, { val := x.2 }), base := 0, kbase := 256 } }

/-- Thread 0 with these registers. -/
def thr (l : List (Nat × RegVal)) : Thread :=
  { fetchThread false .running with arch := archOf l, run := Run.start (archOf l) }

/-- The only workgroup. Its scratchpad is offsets 0 to 65,535 of core 0. -/
def wg0 : Wg := { fetchWg with access := 0 }

/-- One thread, issuing; a page of 64 KiB of HBM at address 0. -/
def st (l : List (Nat × RegVal)) : State :=
  { State.reset with
    threads := [(0, thr l)], wgs := [(0, wg0)], cur := some r0, nextId := 1, fresh := 512,
    quads := [(0, { active := some { todo := [], done := [], waitX := [] }, part := some 0, home := some 0 })],
    parts := [(0, fetchPart State.reset)],
    tlb := [{ core := 0, part := 0, gen := 0, base := 0, size := 65536, pa := 0, tgt := 0, mod := 0, r := true, w := true,
              x := true, sup := false }] }

def i32 (w : Word) : RegVal := { bits := w, tag := tagI32 }
def n32 (w : Word) : RegVal := { bits := w, tag := tagN32 }
def fl32 (w : Word) : RegVal := { bits := w, tag := tagF32 }
def tagged (w : Word) (t : Half) : RegVal := { bits := w, tag := t }

/-- Thread 0 after an instruction. -/
noncomputable def after (i : Instr) (s : State) : Option Thread :=
  match exec i s with
  | .next s' => s'.thread r0
  | _ => none

/-- Register d, its tag and the flags after an instruction. -/
noncomputable def regAfter (i : Instr) (s : State) (d : Nat) : Option (Word × Half × Nat) :=
  (after i s).map fun t => ((t.arch.reg d).bits, (t.arch.reg d).tag, t.arch.fflags.toNat)

/-- Predicate d and the flags after an instruction. -/
noncomputable def predAfter (i : Instr) (s : State) (d : Nat) : Option (Bool × Nat) :=
  (after i s).map fun t => (t.arch.pred d, t.arch.fflags.toNat)

/-- The cause of the fault that an instruction gave thread 0. -/
noncomputable def faultAfter (i : Instr) (s : State) : Option Code :=
  (after i s).bind fun t => t.arch.frame.bind fun f => f.fault.map (·.code)

/-! ## Lane instructions (06_lane_instructions.md); the expected values are worked by hand from its tables -/

/-- "A Q15 narrowing, encoded". -/
theorem test_dmac_q15 : regAfter (.dmacSat 20 8 9)
    (st [(8, tagged 0x60004000 0xF103), (9, tagged 0x70007000 0xF103), (20, tagged 0 0xE201)]) 20 =
    some (0x46000000, 0xE201, 0) := by decide
theorem test_rsari_q15 : regAfter (.rsari 21 20 15) (st [(20, tagged 0x46000000 0xE201)]) 21 =
    some (0x8C00, 0xF101, 0) := by decide
theorem test_cvt_q15 : regAfter (.cvt 22 21 30 1 0) (st [(21, tagged 0x8C00 0xF101), (30, n32 0xF103)]) 22 =
    some (0x7FFF, 0xF103, 32) := by decide

/-- "Rounding into binary8" and "SAT against OVF": 9/32 into signed P = 3, 60,000 into unsigned P = 4. -/
theorem test_cvt_binary8 : regAfter (.cvt 3 5 6 1 0) (st [(5, fl32 0x3E900000), (6, n32 0x003A)]) 3 = some (0x38, 0x3A, 16) ∧
    regAfter (.cvt 3 5 6 2 0) (st [(5, fl32 0x3E900000), (6, n32 0x1003A)]) 3 = some (0x3900, 0x3A, 16) := by decide
theorem test_cvt_overflow : regAfter (.cvt 3 5 6 1 0) (st [(5, fl32 0x476A6000), (6, n32 0x004C)]) 3 = some (0xFE, 0x4C, 48) ∧
    regAfter (.cvt 3 5 6 1 1) (st [(5, fl32 0x476A6000), (6, n32 0x004C)]) 3 = some (0xFF, 0x4C, 20) := by decide

theorem test_add_wraps : regAfter (.add 3 5 6) (st [(5, i32 0x7FFFFFFF), (6, i32 1)]) 3 = some (0x80000000, tagI32, 0) := by
  decide
theorem test_add_checks_tags : faultAfter (.add 3 5 6) (st [(5, i32 1), (6, n32 1)]) = some .tag ∧
    faultAfter (.add 3 5 6) (st [(5, i32 1), (6, tagged 1 0x0101)]) = some .tag := by decide
theorem test_add16_reads_d : regAfter (.add16 5 6) (st [(5, i32 40), (6, i32 2)]) 5 = some (42, tagI32, 0) := by decide
theorem test_sub_wraps : regAfter (.sub 3 5 6) (st [(5, n32 0), (6, n32 1)]) 3 = some (0xFFFFFFFF, tagN32, 0) := by decide
theorem test_mul_adds_scales : regAfter (.mul 3 5 6) (st [(5, tagged 3 0xF101), (6, tagged 0xFFFFFFFE 0xF101)]) 3 =
    some (0xFFFFFFFA, 0xE201, 0) := by decide
theorem test_mulhi_signs : regAfter (.mulhi 3 5 6) (st [(5, i32 0x80000000), (6, i32 2)]) 3 = some (0xFFFFFFFF, 0x2001, 0) ∧
    regAfter (.mulhi 3 5 6) (st [(5, n32 0x80000000), (6, n32 2)]) 3 = some (1, 0x2002, 0) := by decide
theorem test_bitwise : regAfter (.and 3 5 6) (st [(5, i32 0xC), (6, fl32 0xA)]) 3 = some (8, tagI32, 0) ∧
    regAfter (.or 3 5 6) (st [(5, i32 0xC), (6, fl32 0xA)]) 3 = some (0xE, tagI32, 0) ∧
    regAfter (.xor 3 5 6) (st [(5, i32 0xC), (6, fl32 0xA)]) 3 = some (6, tagI32, 0) ∧
    regAfter (.andn 3 5 6) (st [(5, i32 0xC), (6, fl32 0xA)]) 3 = some (4, tagI32, 0) := by decide
theorem test_long_shifts : regAfter (.shl 3 5 6) (st [(5, n32 1), (6, n32 0x120)]) 3 = some (0, tagN32, 0) ∧
    regAfter (.shr 3 5 6) (st [(5, n32 0x80000000), (6, n32 31)]) 3 = some (1, tagN32, 0) ∧
    regAfter (.sar 3 5 6) (st [(5, i32 0x80000000), (6, n32 255)]) 3 = some (0xFFFFFFFF, tagI32, 0) := by decide
theorem test_min_max_signs : regAfter (.min 3 5 6) (st [(5, i32 0xFFFFFFFF), (6, i32 1)]) 3 = some (0xFFFFFFFF, tagI32, 0) ∧
    regAfter (.min 3 5 6) (st [(5, n32 0xFFFFFFFF), (6, n32 1)]) 3 = some (1, tagN32, 0) ∧
    regAfter (.max 3 5 6) (st [(5, i32 0xFFFFFFFF), (6, i32 1)]) 3 = some (1, tagI32, 0) := by decide
theorem test_mov_takes_tag : regAfter (.mov 3 6) (st [(6, fl32 7)]) 3 = some (7, tagF32, 0) := by decide
theorem test_div_toward_zero : regAfter (.div 3 5 6) (st [(5, i32 0xFFFFFFF9), (6, i32 2)]) 3 = some (0xFFFFFFFD, tagI32, 0) ∧
    regAfter (.rem 3 5 6) (st [(5, i32 0xFFFFFFF9), (6, i32 2)]) 3 = some (0xFFFFFFFF, tagI32, 0) := by decide
theorem test_div_corners : regAfter (.div 3 5 6) (st [(5, i32 9), (6, i32 0)]) 3 = some (0xFFFFFFFF, tagI32, 0) ∧
    regAfter (.rem 3 5 6) (st [(5, i32 9), (6, i32 0)]) 3 = some (9, tagI32, 0) ∧
    regAfter (.div 3 5 6) (st [(5, i32 0x80000000), (6, i32 0xFFFFFFFF)]) 3 = some (0x80000000, tagI32, 0) := by decide

theorem test_counts : regAfter (.clz 3 5) (st [(5, i32 0)]) 3 = some (32, tagN32, 0) ∧
    regAfter (.popc 3 5) (st [(5, i32 0xFFFFFFFF)]) 3 = some (32, tagN32, 0) := by decide
theorem test_one_operand : regAfter (.not 3 5) (st [(5, i32 0)]) 3 = some (0xFFFFFFFF, tagI32, 0) ∧
    regAfter (.abs 3 5) (st [(5, i32 0x80000000)]) 3 = some (0x80000000, tagI32, 0) ∧
    regAfter (.neg 3 5) (st [(5, i32 1)]) 3 = some (0xFFFFFFFF, tagI32, 0) := by decide
theorem test_brev : regAfter (.brev 3 5) (st [(5, i32 1)]) 3 = some (0x80000000, tagI32, 0) := by
  set_option maxRecDepth 4000 in decide
theorem test_bfx_sign : regAfter (.bfx 3 5 6) (st [(5, n32 0xFA0), (6, n32 0x4E4)]) 3 = some (0xFFFFFFFA, tagI32, 0) := by decide
theorem test_bfi_top : regAfter (.bfi 3 5 6) (st [(5, n32 1), (6, n32 0xFFFF), (7, n32 0xFC)]) 3 =
    some (0xF0000001, tagN32, 0) := by decide
theorem test_tags : regAfter (.gettag 3 5) (st [(5, tagged 9 0xF103)]) 3 = some (0xF103, tagN32, 0) ∧
    regAfter (.settag 3 5 6) (st [(5, i32 9), (6, n32 0xF103)]) 3 = some (9, 0xF103, 0) ∧
    faultAfter (.settag 3 5 6) (st [(5, i32 9), (6, n32 0x0080)]) = some .tag := by decide

theorem test_immediates : regAfter (.addi 3 5 (-1)) (st [(5, n32 0)]) 3 = some (0xFFFFFFFF, tagN32, 0) ∧
    regAfter (.andi 3 5 (-2)) (st [(5, n32 7)]) 3 = some (6, tagN32, 0) ∧
    regAfter (.ori 3 5 (-1)) (st [(5, fl32 0)]) 3 = some (0xFFFFFFFF, tagF32, 0) ∧
    regAfter (.xori 3 5 1023) (st [(5, i32 0)]) 3 = some (0x3FF, tagI32, 0) ∧
    regAfter (.muli 3 5 (-3)) (st [(5, tagged 5 0xF101)]) 3 = some (0xFFFFFFF1, 0xF101, 0) := by decide
theorem test_shift_immediates : regAfter (.shli 3 5 31) (st [(5, i32 3)]) 3 = some (0x80000000, tagI32, 0) ∧
    regAfter (.shri 3 5 31) (st [(5, i32 0x80000000)]) 3 = some (1, tagI32, 0) ∧
    regAfter (.sari 3 5 31) (st [(5, i32 0x80000000)]) 3 = some (0xFFFFFFFF, tagI32, 0) := by decide
theorem test_rsari_rounds : regAfter (.rsari 3 5 1) (st [(5, i32 0xFFFFFFFD)]) 3 = some (0xFFFFFFFE, 0x0101, 16) := by decide
theorem test_lui : regAfter (.lui 3 0x3FFFF) (st []) 3 = some (0xFFFFC000, tagI32, 0) := by decide
theorem test_adr : regAfter (.adr 8 4 6 2) (st [(4, n32 0), (5, n32 1), (6, n32 0xFFFFFFFF)]) 9 = some (4, tagHi64, 0) ∧
    regAfter (.adr 8 4 6 2) (st [(4, n32 0), (5, n32 1), (6, n32 0xFFFFFFFF)]) 8 = some (0xFFFFFFFC, tagLo64, 0) ∧
    regAfter (.adrS 8 4 6 2) (st [(4, n32 0), (5, n32 1), (6, n32 0xFFFFFFFF)]) 9 = some (0, tagHi64, 0) := by decide
theorem test_pair_carries : regAfter (.add64 8 4 6) (st [(4, n32 0xFFFFFFFF), (5, n32 0), (6, n32 1), (7, n32 0)]) 9 =
    some (1, tagHi64, 0) ∧
    regAfter (.sub64 8 4 6) (st [(4, n32 0), (5, n32 1), (6, n32 1), (7, n32 0)]) 8 = some (0xFFFFFFFF, tagLo64, 0) ∧
    regAfter (.xaddi 8 4 (-1)) (st [(4, n32 0), (5, n32 1)]) 9 = some (0, tagHi64, 0) := by decide
theorem test_pair_bits : regAfter (.and64 8 4 6) (st [(4, n32 0), (5, n32 0xC), (6, n32 0), (7, n32 0xA)]) 9 =
    some (8, tagHi64, 0) ∧
    regAfter (.or64 8 4 6) (st [(4, n32 0), (5, n32 0xC), (6, n32 0), (7, n32 0xA)]) 9 = some (0xE, tagHi64, 0) ∧
    regAfter (.xor64 8 4 6) (st [(4, n32 0), (5, n32 0xC), (6, n32 0), (7, n32 0xA)]) 9 = some (6, tagHi64, 0) := by decide
theorem test_pair_shifts : regAfter (.shl64 8 4 6) (st [(4, n32 1), (5, n32 0), (6, n32 33)]) 9 = some (2, tagHi64, 0) ∧
    regAfter (.shr64 8 4 6) (st [(4, n32 0), (5, n32 2), (6, n32 33)]) 8 = some (1, tagLo64, 0) ∧
    regAfter (.sar64 8 4 6) (st [(4, n32 0), (5, n32 0x80000000), (6, n32 64)]) 9 = some (0xFFFFFFFF, tagHi64, 0) ∧
    regAfter (.mov64 8 4) (st [(4, fl32 1), (5, i32 2)]) 9 = some (2, tagI32, 0) := by decide

theorem test_cmp_signs : predAfter (.cmpLt 1 5 6) (st [(5, i32 0xFFFFFFFF), (6, i32 1)]) 1 = some (true, 0) ∧
    predAfter (.cmpLt 1 5 6) (st [(5, n32 0xFFFFFFFF), (6, n32 1)]) 1 = some (false, 0) ∧
    predAfter (.cmpGe 1 5 6) (st [(5, n32 0xFFFFFFFF), (6, n32 1)]) 1 = some (true, 0) := by decide
theorem test_cmp_nan : predAfter (.cmpLe 1 5 6) (st [(5, fl32 0x7FC00000), (6, fl32 0)]) 1 = some (false, 1) ∧
    predAfter (.cmpNe 1 5 6) (st [(5, fl32 0x7FC00000), (6, fl32 0)]) 1 = some (true, 0) ∧
    predAfter (.cmpGt 1 5 6) (st [(5, fl32 0x7FC00000), (6, fl32 0)]) 1 = some (false, 1) ∧
    predAfter (.cmpUnord 1 5 6) (st [(5, fl32 0x7FC00000), (6, fl32 0)]) 1 = some (true, 0) := by decide
theorem test_cmp_zeros : predAfter (.cmpEq 1 5 6) (st [(5, fl32 0x80000000), (6, fl32 0)]) 1 = some (true, 0) := by decide
theorem test_ptest : predAfter (.ptest 1 5 6) (st [(5, i32 6), (6, fl32 2)]) 1 = some (true, 0) := by decide
theorem test_cmp64 : predAfter (.cmp64Lt 1 4 6) (st [(4, n32 0), (5, n32 0x80000000), (6, n32 0), (7, n32 0)]) 1 =
    some (true, 0) ∧
    predAfter (.cmp64Ltn 1 4 6) (st [(4, n32 0), (5, n32 0x80000000), (6, n32 0), (7, n32 0)]) 1 = some (false, 0) ∧
    predAfter (.cmp64Eq 1 4 6) (st [(4, n32 3), (5, n32 0), (6, n32 3), (7, n32 1)]) 1 = some (false, 0) ∧
    predAfter (.cmp64Ne 1 4 6) (st [(4, n32 3), (5, n32 0), (6, n32 3), (7, n32 1)]) 1 = some (true, 0) := by decide
theorem test_cmpi_n32 : predAfter (.cmpiEq 1 5 (-1)) (st [(5, n32 0xFFFFFFFF)]) 1 = some (true, 0) ∧
    predAfter (.cmpiLt 1 5 (-1)) (st [(5, n32 0)]) 1 = some (true, 0) ∧
    predAfter (.cmpiGt 1 5 (-1)) (st [(5, i32 0)]) 1 = some (true, 0) := by decide
theorem test_p7 : predAfter (.cmpiEq 7 5 0) (st [(5, n32 1)]) 7 = some (true, 0) := by decide
theorem test_predicates : predAfter (.pand 1 7 2) (st []) 1 = some (false, 0) ∧
    predAfter (.por 1 7 2) (st []) 1 = some (true, 0) ∧ predAfter (.pxor 1 7 7) (st []) 1 = some (false, 0) ∧
    predAfter (.pandn 1 7 2) (st []) 1 = some (true, 0) ∧ predAfter (.pnot 1 2) (st []) 1 = some (true, 0) ∧
    predAfter (.vtop 1 5) (st [(5, fl32 0x80000000)]) 1 = some (true, 0) := by decide
theorem test_sel : regAfter (.sel 3 2 5 6) (st [(5, i32 1), (6, fl32 2)]) 3 = some (2, tagF32, 0) ∧
    regAfter (.sel 3 7 5 6) (st [(5, i32 1), (6, fl32 2)]) 3 = some (1, tagI32, 0) ∧
    regAfter (.ptov 3 7) (st []) 3 = some (1, tagN32, 0) := by decide

theorem test_fadd_rounds : regAfter (.fadd 3 5 6) (st [(5, fl32 0x3F800000), (6, fl32 0x33800000)]) 3 =
    some (0x3F800000, tagF32, 16) := by decide
theorem test_fsub_zero : regAfter (.fsub 3 5 6) (st [(5, fl32 0x3F800000), (6, fl32 0x3F800000)]) 3 = some (0, tagF32, 0) := by
  decide
theorem test_fmul : regAfter (.fmul 3 5 6) (st [(5, fl32 0x40000000), (6, fl32 0xC0400000)]) 3 = some (0xC0C00000, tagF32, 0) := by
  decide
theorem test_fdiv : regAfter (.fdiv 3 5 6) (st [(5, fl32 0x3F800000), (6, fl32 0x80000000)]) 3 = some (0xFF800000, tagF32, 2) ∧
    regAfter (.fdiv 3 5 6) (st [(5, fl32 0), (6, fl32 0)]) 3 = some (0x7FC00000, tagF32, 1) := by decide
theorem test_fmin_nan : regAfter (.fmin 3 5 6) (st [(5, fl32 0x7FC00000), (6, fl32 0x3F800000)]) 3 =
    some (0x3F800000, tagF32, 0) ∧
    regAfter (.fmax 3 5 6) (st [(5, fl32 0x40000000), (6, fl32 0x3F800000)]) 3 = some (0x40000000, tagF32, 0) := by decide
theorem test_fsigns : regAfter (.fabs 3 5) (st [(5, fl32 0xFFC00001)]) 3 = some (0x7FC00001, tagF32, 0) ∧
    regAfter (.fneg 3 5) (st [(5, fl32 0)]) 3 = some (0x80000000, tagF32, 0) ∧
    regAfter (.fcsgn 3 5 6) (st [(5, fl32 0x3F800000), (6, fl32 0x80000000)]) 3 = some (0xBF800000, tagF32, 0) := by decide
theorem test_fround : regAfter (.fceil 3 5) (st [(5, fl32 0xBF000000)]) 3 = some (0x80000000, tagF32, 0) ∧
    regAfter (.ffloor 3 5) (st [(5, fl32 0xBF000000)]) 3 = some (0xBF800000, tagF32, 0) ∧
    regAfter (.ftrunc 3 5) (st [(5, fl32 0x40200000)]) 3 = some (0x40000000, tagF32, 0) ∧
    regAfter (.frint 3 5) (st [(5, fl32 0x40200000)]) 3 = some (0x40000000, tagF32, 16) := by decide
theorem test_ffma : regAfter (.ffma 3 5 6) (st [(3, fl32 0x3F800000), (5, fl32 0x40000000), (6, fl32 0x40400000)]) 3 =
    some (0x40E00000, tagF32, 0) ∧
    regAfter (.ffms 3 5 6) (st [(3, fl32 0x3F800000), (5, fl32 0x40000000), (6, fl32 0x40400000)]) 3 =
    some (0x40A00000, tagF32, 0) ∧
    regAfter (.fnma 3 5 6) (st [(3, fl32 0x3F800000), (5, fl32 0x40000000), (6, fl32 0x40400000)]) 3 =
    some (0xC0A00000, tagF32, 0) ∧
    regAfter (.fnms 3 5 6) (st [(3, fl32 0x3F800000), (5, fl32 0x40000000), (6, fl32 0x40400000)]) 3 =
    some (0xC0E00000, tagF32, 0) := by decide
theorem test_ffma_invalid : regAfter (.ffma 3 5 6) (st [(3, fl32 0x7FC00000), (5, fl32 0), (6, fl32 0x7F800000)]) 3 =
    some (0x7FC00000, tagF32, 1) := by decide
theorem test_half : regAfter (.hadd 3 5 6) (st [(5, tagged 0x3C00BC00 8), (6, tagged 0x3C003C00 8)]) 3 =
    some (0x40000000, 8, 0) ∧
    regAfter (.hsub 3 5 6) (st [(5, tagged 0x3F803F80 9), (6, tagged 0x3F800000 9)]) 3 = some (0x00003F80, 9, 0) ∧
    regAfter (.hmul 3 5 6) (st [(5, tagged 0x40003C00 8), (6, tagged 0x40003C00 8)]) 3 = some (0x44003C00, 8, 0) := by decide
theorem test_half_fma : regAfter (.hfma 3 5 6) (st [(3, tagged 0x3C000000 8), (5, tagged 0x40003C00 8), (6, tagged 0x40003C00 8)])
    3 = some (0x45003C00, 8, 0) ∧
    regAfter (.hmin 3 5 6) (st [(5, tagged 0x40007E00 8), (6, tagged 0x3C003C00 8)]) 3 = some (0x3C003C00, 8, 0) ∧
    regAfter (.hneg 3 5) (st [(5, tagged 0x7E003C00 8)]) 3 = some (0xFE00BC00, 8, 0) ∧
    regAfter (.habs 3 5) (st [(5, tagged 0xFE00BC00 8)]) 3 = some (0x7E003C00, 8, 0) := by decide

theorem test_packed_sat : regAfter (.paddSat 3 5 6) (st [(5, tagged 0x7F80007F 5), (6, tagged 0x01FF0001 5)]) 3 =
    some (0x7F80007F, 5, 32) ∧
    regAfter (.padd 3 5 6) (st [(5, tagged 0x7F80007F 5), (6, tagged 0x01FF0001 5)]) 3 = some (0x807F0080, 5, 0) ∧
    regAfter (.psubSat 3 5 6) (st [(5, tagged 0x00010000 4), (6, tagged 0x00000001 4)]) 3 = some (0x00010000, 4, 32) := by decide
theorem test_packed_mul : regAfter (.pmul 3 5 6) (st [(5, tagged 0x00030100 0xF103), (6, tagged 0xFFFE0100 0xF103)]) 3 =
    some (0xFFFA0000, 0xE203, 0) ∧
    regAfter (.pavg 3 5 6) (st [(5, tagged 0xFF000001 6), (6, tagged 0xFE000002 6)]) 3 = some (0xFF000002, 6, 0) ∧
    regAfter (.pmin 3 5 6) (st [(5, tagged 0x80000001 3), (6, tagged 0x00000000 3)]) 3 = some (0x80000000, 3, 0) := by decide
theorem test_packed_abs : regAfter (.pabs 3 5) (st [(5, tagged 0x80FF017F 5)]) 3 = some (0x7F01017F, 5, 32) := by decide
theorem test_packed_shifts : regAfter (.pshl 3 5 6) (st [(5, tagged 0x01010101 6), (6, i32 8)]) 3 = some (0, 6, 0) ∧
    regAfter (.psar 3 5 6) (st [(5, tagged 0x80007FFF 3), (6, i32 16)]) 3 = some (0xFFFF0000, 3, 0) ∧
    regAfter (.pshr 3 5 6) (st [(5, tagged 0x8000FFFF 4), (6, i32 15)]) 3 = some (0x00010001, 4, 0) ∧
    regAfter (.prsar 3 5 6) (st [(5, tagged 0x0003FFFD 3), (6, i32 1)]) 3 = some (0x0002FFFE, 0x0103, 16) := by decide
theorem test_dmac_wraps : regAfter (.dmac 3 5 6) (st [(3, i32 0x7FFFFFFF), (5, tagged 0x00000001 3), (6, tagged 0x00000001 3)]) 3 =
    some (0x80000000, tagI32, 0) ∧
    regAfter (.dmacSat 3 5 6) (st [(3, i32 0x7FFFFFFF), (5, tagged 0x00000001 3), (6, tagged 0x00000001 3)]) 3 =
    some (0x7FFFFFFF, tagI32, 32) := by decide
theorem test_fdmac : regAfter (.fdmac 3 5 6) (st [(3, fl32 0x3F800000), (5, tagged 0x3C004000 8), (6, tagged 0x3C004000 8)]) 3 =
    some (0x40C00000, tagF32, 0) := by decide

theorem test_exp2 : regAfter (.exp2 3 5) (st [(5, fl32 0x40400000)]) 3 = some (0x41000000, tagF32, 0) := by
  set_option exponentiation.threshold 1000 in decide
theorem test_log2 : regAfter (.log2 3 5) (st [(5, fl32 0x41000000)]) 3 = some (0x40400000, tagF32, 0) := by decide
theorem test_exp : regAfter (.exp 3 5) (st [(5, fl32 0xFF800000)]) 3 = some (0, tagF32, 0) := by decide
theorem test_sigm : regAfter (.sigm 3 5) (st [(5, fl32 0xFF800000)]) 3 = some (0, tagF32, 0) := by decide
theorem test_sfu_special : regAfter (.rcp 3 5) (st [(5, fl32 0x80000000)]) 3 = some (0xFF800000, tagF32, 2) ∧
    regAfter (.rsq 3 5) (st [(5, fl32 0x7F800000)]) 3 = some (0, tagF32, 0) ∧
    regAfter (.sqrt 3 5) (st [(5, fl32 0xBF800000)]) 3 = some (0x7FC00000, tagF32, 1) ∧
    regAfter (.log 3 5) (st [(5, fl32 0)]) 3 = some (0xFF800000, tagF32, 2) ∧
    regAfter (.sin 3 5) (st [(5, fl32 0x7F800000)]) 3 = some (0x7FC00000, tagF32, 1) ∧
    regAfter (.cos 3 5) (st [(5, fl32 0)]) 3 = some (0x3F800000, tagF32, 0) := by decide
/-- The test points of R101. -/
theorem test_tanh : regAfter (.tanh 3 5) (st [(5, fl32 0xC1800000)]) 3 = some (0xBF800000, tagF32, 16) ∧
    regAfter (.tanh 3 5) (st [(5, fl32 0x39800000)]) 3 = some (0x39800000, tagF32, 16) ∧
    regAfter (.tanh 3 5) (st [(5, fl32 1)]) 3 = some (1, tagF32, 24) := by decide
theorem test_retag : regAfter (.retag 3 0xF103) (st [(3, fl32 7)]) 3 = some (7, 0xF103, 0) ∧
    regAfter (.scadd 3 (-15)) (st [(3, i32 7)]) 3 = some (7, 0xF101, 0) ∧
    faultAfter (.scadd 3 1) (st [(3, fl32 7)]) = some .tag := by decide
theorem test_pack : regAfter (.pklo 3 5 6) (st [(5, tagged 0x11112222 3), (6, tagged 0x33334444 3)]) 3 = some (0x44442222, 3, 0) ∧
    regAfter (.pkhi 3 5 6) (st [(5, tagged 0x11112222 3), (6, tagged 0x33334444 4)]) 3 = some (0x33331111, 0, 0) ∧
    regAfter (.pkbl 3 5 6) (st [(5, tagged 0x00110022 0xF103), (6, tagged 0x00330044 0xF103)]) 3 =
    some (0x33441122, 0xF105, 0) := by decide
theorem test_extend : regAfter (.xtlo 3 5) (st [(5, tagged 0x00008000 0xF103)]) 3 = some (0xFFFF8000, 0xF101, 0) ∧
    regAfter (.xthi 3 5) (st [(5, tagged 0x80000000 0xF104)]) 3 = some (0x8000, 0xF102, 0) ∧
    regAfter (.xtb 3 5 6) (st [(5, tagged 0x80000000 5), (6, n32 7)]) 3 = some (0xFFFFFF80, tagI32, 0) := by decide
theorem test_ix : (after (.setix 5) (st [(5, n32 0x12345)])).map (·.arch.ix) = some 0x2345 ∧
    (after (.addix 5) (st [(5, n32 0xFFFF)])).map (·.arch.ix) = some 0xFFFF ∧
    regAfter (.getix 3) (st []) 3 = some (0, tagN32, 0) := by decide
theorem test_move_by_ix : regAfter (.vmovfrom 3) (st [(0, fl32 9)]) 3 = some (9, tagF32, 0) ∧
    regAfter (.vmovto 5) (st [(5, fl32 9)]) 0 = some (9, tagF32, 0) := by decide
theorem test_sread : regAfter (.sread 3 0x03) (st []) 3 = some (32, tagN32, 0) ∧
    regAfter (.sread 3 0x0C) (st []) 3 = some (0x780000, tagN32, 0) := by decide
/-! ## Decoding and well-formedness (03_encodings.md) -/

/-- "Worked encodings": one word of each format. -/
theorem test_decode_u16 : decodeTableWord 16 0x1CDC = some (.fmul16 6 7) := by decide
theorem test_decode_a3 : decodeTableWord 32 0x00E1BC23 = some (.ffma 120 6 7) := by decide
theorem test_decode_ai : decodeTableWord 32 0xFFE74E89 = some (.ori 29 29 (-1)) := by decide
theorem test_decode_mm : decodeTableWord 32 0x30410341 = some (.ldF32 6 4 2) := by decide
theorem test_decode_ms : decodeTableWord 32 0x20028647 = some (.ldsWfe 12 10 0) := by decide
theorem test_decode_fl : decodeTableWord 32 0x00075DBD = some (.elect 3 29) := by decide
theorem test_decode_wt : decodeTableWord 32 0x440000BF = some (.wait 1 0 0 0 1 8) := by decide
/-- R29: D 17, A 10, MAJ 0x2E. The word that the manual prints for it, 0x0002_885D, has D 16. -/
theorem test_decode_copy : decodeTableWord 32 0x000288DD = some (.copyG2s 17 10) := by decide

/-- R32, R31, R29: a p field with a bit above the predicate, an odd register in a pair field, an unassigned MAJ. -/
theorem test_reserved_words : decodeTableWord 32 0x00000419 = none ∧ decodeTableWord 32 0x20C10893 = none ∧
    decodeTableWord 32 0x0000007F = none := by decide

/-- One ill-formed term for each check. -/
theorem test_ill_formed : ∀ i ∈ [Instr.add16 32 0, .add16 0 64, .add 128 0 0, .add 0 128 0, .add 0 0 128, .bfi 0 0 127,
    .addi 0 0 (-1025), .addi 0 0 1024, .shli 0 0 32, .lui 0 262144, .adr 1 0 0 0, .adr 0 1 0 0, .adr 0 0 0 4, .add64 0 0 1,
    .cmpEq 8 0 0, .cmpiEq 0 0 (-129), .cmpiEq 0 0 128, .sel 0 8 0 0, .pand 0 8 0, .pand 0 0 8, .sread 1 0x20, .sread 0 0x21,
    .cvt 0 0 0 6 0, .cvt 0 0 0 0 2, .retag 0 0x80, .retag 0 65537, .guard 8 0 1, .guard 0 2 1, .guard 0 0 0, .guard 0 0 9,
    .br (-131073) 0 0, .br 131072 0 0, .jmpi 0 2048, .brt 0 0, .wait 16 0 0 0 0 0, .wait 0 16 0 0 0 0, .wait 0 0 16 0 0 0,
    .wait 0 0 0 16 0 0, .wait 0 0 0 0 2 0, .wait 0 0 0 0 1 128, .wait 0 0 0 0 0 1, .ldI32 0 0 (-65), .ldI32 0 0 64, .ldt 0 0 0 16,
    .ldt 113 0 0 0, .lda32 0 0 (-33) .wg, .lda32 0 0 32 .wg, .atomAdd .wg 0 0 128, .atomCas .wg 0 0 127, .atomAdd64 .wg 0 0 1,
    .atomCas64 .wg 0 0 126, .qinit 0 8 0, .qtrypop 8 0 0 0, .mma 16 0, .tcvt 0 16 0, .pcost 0 0 16, .lcreate 127 0 0,
    .aload 4 0 0, .aload 0 0 2, .trap 1024, .cread 0 0 256], i.wellFormed = false := by decide

/-- Their neighbours at the ends of the ranges are well-formed. -/
theorem test_well_formed : ∀ i ∈ [Instr.add16 31 63, .add 127 127 127, .bfi 0 0 126, .addi 0 0 (-1024), .addi 0 0 1023,
    .shli 0 0 31, .lui 0 262143, .adr 126 126 0 3, .cmpEq 7 0 0, .cmpiEq 0 0 (-128), .cmpiEq 0 0 127, .sel 0 7 0 0,
    .sread 1 0x0E, .sread 0 0x20, .cvt 0 0 0 5 1, .retag 0 0xF103, .guard 7 1 8, .br (-131072) 0 7, .jmpi 0 2047, .brt 0 1,
    .wait 15 15 15 15 1 127, .ldt 112 0 0 0, .ldt 127 0 0 1, .lda32 0 0 (-32) .sy, .atomCas .wg 0 0 126,
    .atomCas64 .wg 0 0 124, .qtrypop 7 0 7 0, .mma 15 0, .aload 3 0 1, .cread 0 0 255], i.wellFormed = true := by decide

/-! ## Witnesses: states and operands that meet the hypotheses of the statements -/

theorem st_cur (l : List (Nat × RegVal)) : (st l).cur = some r0 := rfl
theorem st_thread (l : List (Nat × RegVal)) : (st l).thread r0 = some (thr l) := by simp [State.thread, st, r0, TRef.key, alook]
theorem st_wg (l : List (Nat × RegVal)) : (st l).wg r0.wg = some wg0 := by simp [State.wg, st, r0, alook]

theorem ready (l : List (Nat × RegVal)) (rd wr : List Nat) (h : ∀ x ∈ rd ++ wr, x < 128)
    (hc : ∀ x ∈ rd, ((archOf l).regs.get x).poison = none) : Ready (st l) r0 (thr l) wg0 rd wr where
  cur := st_cur l
  thread := st_thread l
  wg := st_wg l
  noCommit := rfl
  noLoop := rfl
  guard := by intro x hx; cases hx
  bound := fun x hx => h x hx
  free := by intro x _ hx; cases hx
  clean := hc

theorem ending (l : List (Nat × RegVal)) (rd : List Nat) (h : ∀ x ∈ rd, x < 128)
    (hc : ∀ x ∈ rd, ((archOf l).regs.get x).poison = none) : Ending (st l) r0 (thr l) wg0 rd where
  cur := st_cur l
  thread := st_thread l
  wg := st_wg l
  guard := rfl
  bound := fun x hx => h x hx
  free := by intro x _ hx; cases hx
  clean := hc

theorem accessing (l : List (Nat × RegVal)) (rd wr : List Nat) (c : Cls) (h : ∀ x ∈ rd ++ wr, x < 128)
    (hc : ∀ x ∈ rd, ((archOf l).regs.get x).poison = none) : Accessing (st l) r0 (thr l) wg0 rd wr c where
  toReady := ready l rd wr h hc
  exec := rfl
  room := by cases c <;> rfl

theorem thread_of {s : State} {t : Thread} (h : s.threads = [(0, t)]) : s.thread r0 = some t := by
  simp [State.thread, h, r0, TRef.key, alook]
theorem wg_of {s : State} {g : Wg} (h : s.wgs = [(0, g)]) : s.wg 0 = some g := by simp [State.wg, h, alook]

theorem ready_of {s : State} {t : Thread} {g : Wg} {rd wr : List Nat} (hc : s.cur = some r0) (ht : s.threads = [(0, t)])
    (hw : s.wgs = [(0, g)]) (hm : t.run.cmark = none) (hl : t.skipping = false) (hg : t.run.guard = none)
    (hb : ∀ x ∈ rd ++ wr, x < allotOf r0 g) (hf : ∀ x ∈ rd ++ wr, x ∉ t.busy)
    (hp : ∀ x ∈ rd, (t.arch.regs.get x).poison = none) : Ready s r0 t g rd wr :=
  ⟨hc, thread_of ht, wg_of hw, hm, hl, by simp [hg], hb, hf, hp⟩

theorem accessing_of {s : State} {t : Thread} {g : Wg} {rd wr : List Nat} {c : Cls} (h : Ready s r0 t g rd wr)
    (hr : t.full c 1 = false) : Accessing s r0 t g rd wr c := ⟨h, rfl, hr⟩

theorem ending_of {s : State} {t : Thread} {g : Wg} {rd : List Nat} (hc : s.cur = some r0) (ht : s.threads = [(0, t)])
    (hw : s.wgs = [(0, g)]) (hg : t.run.guard = none)
    (hb : ∀ x ∈ rd, x < allotOf r0 g) (hf : ∀ x ∈ rd, x ∉ t.busy)
    (hp : ∀ x ∈ rd, (t.arch.regs.get x).poison = none) : Ending s r0 t g rd :=
  ⟨hc, thread_of ht, wg_of hw, hg, hb, hf, hp⟩

theorem witness_IntegerArithmetic : ∃ s r t g d a b, Ready s r t g [a, b] [d] ∧ (t.arch.reg a).kind = 1 ∧
    (t.arch.reg b).kind = 1 ∧ (t.arch.reg b).scale = (t.arch.reg a).scale ∧ d = a ∧ (t.arch.reg a).bits = 0x80000000 ∧
    (t.arch.reg b).bits = 0xFFFFFFFF ∧ makeTag 1 0 ((t.arch.reg a).scale + (t.arch.reg b).scale) = .ok tagI32 ∧
    makeTag 1 0 ((t.arch.reg a).scale + (t.arch.reg b).scale + 32) = .ok 0x2001 ∧
    makeTag 1 0 ((t.arch.reg a).scale - (t.arch.reg b).scale) = .ok tagI32 :=
  ⟨st [(5, i32 0x80000000), (6, i32 0xFFFFFFFF)], r0, thr [(5, i32 0x80000000), (6, i32 0xFFFFFFFF)], wg0, 5, 5, 6,
    ready _ _ _ (by decide) (by decide), by decide, by decide, by decide, rfl, rfl, rfl, rfl, rfl, rfl⟩

theorem witness_IntegerArithmetic_scales : ∃ s r t g d a b, Ready s r t g [a, b] [d] ∧ (t.arch.reg a).kind = 2 ∧
    (t.arch.reg b).kind = 2 ∧ makeTag 2 0 ((t.arch.reg a).scale + (t.arch.reg b).scale) = .ok 0xE202 ∧ r.acc = false :=
  ⟨st [(5, tagged 3 0xF102), (6, tagged 4 0xF102)], r0, thr [(5, tagged 3 0xF102), (6, tagged 4 0xF102)], wg0, 3, 5, 6,
    ready _ _ _ (by decide) (by decide), by decide, by decide, rfl, rfl⟩

theorem witness_IntegerArithmetic_immediates : ∃ s r t g d a, ∃ n : Nat, Ready s r t g [a] [d] ∧ (t.arch.reg a).kind = 1 ∧
    n < 32 ∧ makeTag 1 0 ((t.arch.reg a).scale + n) = .ok 0x1001 :=
  ⟨st [(5, tagged 3 0xF101)], r0, thr [(5, tagged 3 0xF101)], wg0, 3, 5, 31, ready _ _ _ (by decide) (by decide), by decide,
    by decide, rfl⟩

theorem witness_BitAndOneOperandOperations : ∃ s r t g d a b, Ready s r t g [a, b] [d] ∧ Ready s r t g [a] [d] ∧ d = a ∧
    (t.arch.reg a).kind = 1 ∧ validTag ((t.arch.reg b).bits.toNat % 65536) = true ∧ ∃ c, Ready s r t g [a, c] [d] ∧
    validTag ((t.arch.reg c).bits.toNat % 65536) = false :=
  ⟨st [(5, i32 7), (6, n32 0xF103), (7, n32 0x80)], r0, thr [(5, i32 7), (6, n32 0xF103), (7, n32 0x80)], wg0, 5, 5, 6,
    ready _ _ _ (by decide) (by decide), ready _ _ _ (by decide) (by decide), rfl, by decide, by decide, 7,
    ready _ _ _ (by decide) (by decide), by decide⟩

theorem witness_BitFieldsAndPairs : ∃ s r t g d a b, Ready s r t g [a, b, b + 1] [d] ∧ Ready s r t g [a, a + 1, b] [d, d + 1] ∧
    Ready s r t g [a, a + 1, b, b + 1] [d, d + 1] :=
  ⟨st [(126, n32 1), (127, n32 2)], r0, thr [(126, n32 1), (127, n32 2)], wg0, 126, 126, 4, ready _ _ _ (by decide) (by decide),
    ready _ _ _ (by decide) (by decide), ready _ _ _ (by decide) (by decide)⟩

theorem witness_DivisionCorners : ∃ s r t g d a b c, Ready s r t g [a, b] [d] ∧ (t.arch.reg a).kind = 2 ∧
    (t.arch.reg b).kind = 2 ∧ (t.arch.reg b).scale = (t.arch.reg a).scale ∧ (t.arch.reg b).bits = 0 ∧ Ready s r t g [a, c] [d] ∧
    (t.arch.reg c).kind = 2 ∧ (t.arch.reg c).scale = (t.arch.reg a).scale ∧ (t.arch.reg c).bits ≠ 0 :=
  ⟨st [(5, n32 9), (6, n32 0), (7, n32 1)], r0, thr [(5, n32 9), (6, n32 0), (7, n32 1)], wg0, 3, 5, 6, 7,
    ready _ _ _ (by decide) (by decide), by decide, by decide, by decide, rfl, ready _ _ _ (by decide) (by decide), by decide,
    by decide, by decide⟩

theorem witness_DivisionCorners_signed : ∃ s r t g d a b, Ready s r t g [a, b] [d] ∧ (t.arch.reg a).kind = 1 ∧
    (t.arch.reg b).kind = 1 ∧ (t.arch.reg b).scale = (t.arch.reg a).scale ∧ (t.arch.reg b).bits ≠ 0 ∧
    (t.arch.reg a).bits = 0x80000000 ∧ (t.arch.reg b).bits = 1 :=
  ⟨st [(5, i32 0x80000000), (6, i32 1)], r0, thr [(5, i32 0x80000000), (6, i32 1)], wg0, 3, 5, 6,
    ready _ _ _ (by decide) (by decide), by decide, by decide, by decide, by decide, rfl, rfl⟩

theorem witness_Compares : ∃ s r t g a b x y z, Ready s r t g [a, b] [] ∧ r.acc = false ∧ (t.arch.reg a).kind = 7 ∧
    (t.arch.reg b).kind = 7 ∧ (f32Val (t.arch.reg a)).isNan = true ∧ Ready s r t g [x, y] [] ∧ (t.arch.reg x).kind = 1 ∧
    (t.arch.reg y).kind = 1 ∧ (t.arch.reg y).scale = (t.arch.reg x).scale ∧ Ready s r t g [b, z] [] ∧
    (f32Val (t.arch.reg b)).isNan = false ∧ (f32Val (t.arch.reg z)).isNan = false ∧ Ready s r t g [a, x] [] ∧
    (t.arch.reg x).kind ≠ (t.arch.reg a).kind ∧ Ready s r t g [x] [] ∧ Ready s r t g [a, a + 1, x, x + 1] [] :=
  let l := [(4, fl32 0x7FC00000), (5, fl32 0), (6, i32 1), (7, i32 0xFFFFFFFF), (8, fl32 0x80000000)]
  ⟨st l, r0, thr l, wg0, 4, 5, 6, 7, 8, ready _ _ _ (by decide) (by decide), rfl, by decide, by decide, by decide,
    ready _ _ _ (by decide) (by decide), by decide, by decide, by decide, ready _ _ _ (by decide) (by decide), by decide,
    by decide, ready _ _ _ (by decide) (by decide), by decide, ready _ _ _ (by decide) (by decide),
    ready _ _ _ (by decide) (by decide)⟩

theorem witness_SelectAndPredicates : ∃ s r t g d a b, r.acc = false ∧ Ready s r t g [a, b] [d] ∧ Ready s r t g [] [] ∧
    Ready s r t g [] [d] ∧ Ready s r t g [a] [] :=
  ⟨st [(5, i32 1), (6, fl32 0)], r0, thr [(5, i32 1), (6, fl32 0)], wg0, 3, 5, 6, rfl, ready _ _ _ (by decide) (by decide),
    ready _ _ _ (by decide) (by decide), ready _ _ _ (by decide) (by decide), ready _ _ _ (by decide) (by decide)⟩

theorem witness_FloatingArithmetic : ∃ s r t g d a b, r.acc = false ∧ Ready s r t g [a, b] [d] ∧ Ready s r t g [a] [d] ∧
    Ready s r t g [d, a, b] [d] ∧ (t.arch.reg a).kind = 7 ∧ (t.arch.reg b).kind = 7 ∧ (t.arch.reg d).kind = 7 ∧ d = a :=
  ⟨st [(5, fl32 1), (6, fl32 0)], r0, thr [(5, fl32 1), (6, fl32 0)], wg0, 5, 5, 6, rfl, ready _ _ _ (by decide) (by decide),
    ready _ _ _ (by decide) (by decide), ready _ _ _ (by decide) (by decide), by decide, by decide, by decide, rfl⟩

theorem witness_FloatingArithmetic_halves : ∃ s r t g d a b, r.acc = false ∧ Ready s r t g [a, b] [d] ∧ Ready s r t g [a] [d] ∧
    Ready s r t g [d, a, b] [d] ∧ (t.arch.reg a).kind = 9 ∧ (t.arch.reg b).kind = 9 ∧ (t.arch.reg d).kind = 9 :=
  ⟨st [(5, tagged 1 9), (6, tagged 2 9)], r0, thr [(5, tagged 1 9), (6, tagged 2 9)], wg0, 5, 5, 6, rfl,
    ready _ _ _ (by decide) (by decide), ready _ _ _ (by decide) (by decide), ready _ _ _ (by decide) (by decide), by decide,
    by decide, by decide⟩

theorem witness_PackedIntegersAndDotProducts : ∃ s r t g d a b, r.acc = false ∧ Ready s r t g [a, b] [d] ∧ Ready s r t g [a] [d] ∧
    3 ≤ (t.arch.reg a).kind ∧ (t.arch.reg a).kind ≤ 6 ∧ (t.arch.reg b).kind = (t.arch.reg a).kind ∧
    (t.arch.reg b).scale = (t.arch.reg a).scale ∧ makeTag (t.arch.reg a).kind 0 ((t.arch.reg a).scale + (t.arch.reg b).scale) =
    .ok 0xE203 ∧ makeTag (t.arch.reg a).kind 0 ((t.arch.reg a).scale + (2 : Nat)) = .ok 0xF303 ∧ (t.arch.reg b).bits = 2 ∧
    Ready s r t g [d, a, b] [d] ∧ (t.arch.reg d).kind = 1 ∧ (t.arch.reg d).scale = (t.arch.reg a).scale + (t.arch.reg b).scale :=
  let l := [(5, tagged 1 0xF103), (6, tagged 2 0xF103), (7, tagged 0 0xE201)]
  ⟨st l, r0, thr l, wg0, 7, 5, 6, rfl, ready _ _ _ (by decide) (by decide), ready _ _ _ (by decide) (by decide), by decide,
    by decide, by decide, by decide, by decide, by decide, rfl, ready _ _ _ (by decide) (by decide), by decide, by decide⟩

theorem witness_PackedIntegersAndDotProducts_floating : ∃ s r t g d a b c, r.acc = false ∧ Ready s r t g [d, a, b] [d] ∧
    (t.arch.reg a).kind = 8 ∧ (t.arch.reg b).kind = 9 ∧ (t.arch.reg d).kind = 7 ∧ Ready s r t g [d, c, c] [d] ∧
    (t.arch.reg c).kind = 13 :=
  let l := [(5, tagged 1 8), (6, tagged 2 9), (7, fl32 0), (8, tagged 3 0x1D)]
  ⟨st l, r0, thr l, wg0, 7, 5, 6, 8, rfl, ready _ _ _ (by decide) (by decide), by decide, by decide, by decide,
    ready _ _ _ (by decide) (by decide), by decide⟩

theorem witness_SpecialFunctions : ∃ s r t g d a, r.acc = false ∧ Ready s r t g [a] [d] ∧ (t.arch.reg a).kind = 7 :=
  ⟨st [(5, fl32 1)], r0, thr [(5, fl32 1)], wg0, 3, 5, rfl, ready _ _ _ (by decide) (by decide), by decide⟩

theorem witness_ConversionsTagsAndPacking : ∃ s r t g d a b c, r.acc = false ∧ Ready s r t g [a, b] [d] ∧
    validTag ((t.arch.reg b).bits.setWidth 16 : Half).toNat = true ∧ kindPlain (t.arch.reg a).kind = false ∧
    (t.arch.reg b).bits.toNat / 2 ^ 16 % 4 = 1 ∧ Ready s r t g [a, c] [d] ∧ validTag ((t.arch.reg c).bits.setWidth 16 : Half).toNat =
    false ∧ Ready s r t g [d] [d] ∧ (t.arch.reg d).kind = 10 ∧ makeTag 10 (t.arch.reg d).prec ((t.arch.reg d).scale + (1 : Nat)) =
    .ok 0x013A ∧ Ready s r t g [a] [d] :=
  let l := [(3, tagged 0x38 0x3A), (5, fl32 1), (6, n32 0x1F103), (7, n32 0x80)]
  ⟨st l, r0, thr l, wg0, 3, 5, 6, 7, rfl, ready _ _ _ (by decide) (by decide), by decide, by decide, by decide,
    ready _ _ _ (by decide) (by decide), by decide, ready _ _ _ (by decide) (by decide), by decide, by decide,
    ready _ _ _ (by decide) (by decide)⟩

theorem witness_IndirectMovesAndSpecialRegisters : ∃ s r t g d, Ready s r t g [] [d] ∧ Ready s r t g [d] [] ∧
    t.arch.ix.toNat < g.allot ∧ t.arch.ix.toNat ∉ t.busy ∧ (t.arch.regs.get t.arch.ix.toNat).poison = none ∧
    Ready s r t g [] [d, d + 1] :=
  ⟨st [(0, i32 1)], r0, thr [(0, i32 1)], wg0, 4, ready _ _ _ (by decide) (by decide), ready _ _ _ (by decide) (by decide), by decide,
    by decide, by decide, ready _ _ _ (by decide) (by decide)⟩

/-- The same thread with another record. -/
def stT (t : Thread) : State := { st [] with threads := [(0, t)] }

theorem stT_thread (t : Thread) : (stT t).thread r0 = some t := by simp [State.thread, stT, r0, TRef.key, alook]
theorem stT_wg (t : Thread) : (stT t).wg r0.wg = some wg0 := by simp [State.wg, stT, st, r0, alook]

/-- ix at the allotment, and ix naming an outstanding register. -/
theorem witness_IndirectMovesAndSpecialRegisters_limits : ∃ s r t g d s' r' t' g' d', Ready s r t g [d] [] ∧
    g.allot ≤ t.arch.ix.toNat ∧ Ready s' r' t' g' [d'] [] ∧ t'.arch.ix.toNat < g'.allot ∧ t'.arch.ix.toNat ∈ t'.busy :=
  let u : Thread := { thr [] with arch := { archOf [] with ix := 128 } }
  let v : Thread := { thr [] with arch := { archOf [] with ix := 127 }, busy := [127] }
  ⟨stT u, r0, u, wg0, 3, stT v, r0, v, wg0, 4,
    ⟨rfl, stT_thread u, stT_wg u, rfl, rfl, (by intro x hx; cases hx), by decide, by decide, by decide⟩, by decide,
    ⟨rfl, stT_thread v, stT_wg v, rfl, rfl, (by intro x hx; cases hx), by decide, by decide, by decide⟩, by decide, by decide⟩

theorem witness_TagFaults : ∃ s r t g d a b c, Ready s r t g [a, b] [d] ∧ (t.arch.reg a).kind ≠ 1 ∧ (t.arch.reg a).kind ≠ 2 ∧
    (t.arch.reg b).kind ≠ 7 ∧ r.acc = false ∧ Ready s r t g [b, c] [d] ∧ (t.arch.reg c).scale ≠ (t.arch.reg b).scale ∧
    ¬(3 ≤ (t.arch.reg a).kind ∧ (t.arch.reg a).kind ≤ 6) ∧ Ready s r t g [a] [d] ∧ Ready s r t g [b] [d] ∧
    Ready s r t g [a, b] [] :=
  let l := [(5, fl32 1), (6, i32 1), (7, tagged 1 0x0101)]
  ⟨st l, r0, thr l, wg0, 3, 5, 6, 7, ready _ _ _ (by decide) (by decide), by decide, by decide, by decide, rfl,
    ready _ _ _ (by decide) (by decide), by decide, by decide, ready _ _ _ (by decide) (by decide),
    ready _ _ _ (by decide) (by decide), ready _ _ _ (by decide) (by decide)⟩

theorem witness_LaneInstructionsActAlone : ∃ (i : Instr) (s : State) (r : TRef) (t : Thread) (g : Wg), i.isLane = true ∧
    s.cur = some r ∧ s.thread r = some t ∧ s.wg r.wg = some g :=
  ⟨.add 3 5 6, st [], r0, thr [], wg0, by decide, st_cur _, st_thread _, st_wg _⟩

/-- A record with an outstanding register and a full class. -/
theorem witness_OutstandingAndPoisonedRegisters : ∃ (s : State) (r : TRef) (t : Thread) (g : Wg) (u : Use), s.cur = some r ∧
    s.thread r = some t ∧ s.wg r.wg = some g ∧ t.run.cmark = none ∧ t.run.guard = none ∧ t.skipping = false ∧
    u.allowed r.acc = true ∧ (u.priv = true → t.arch.sup = true) ∧ (∀ x ∈ u.reads ++ u.writes ++ u.names, x < allotOf r g) ∧
    (∃ x ∈ u.reads ++ u.writes, x ∈ t.busy) ∧ u.cls = .loads ∧ 1 ≤ u.counts ∧ t.loads = 15 ∧ t.copies = 15 ∧ t.tiles = 15 ∧ t.stores = 15 :=
  let t : Thread := { thr [] with busy := [5], loads := 15, stores := 15, copies := 15, tiles := 15 }
  ⟨stT t, r0, t, wg0, { reads := [5], writes := [3], cls := .loads }, rfl, stT_thread t, stT_wg t, rfl, rfl, rfl, rfl,
    (by intro h; cases h), by decide, ⟨5, by decide, by decide⟩, rfl, by decide⟩

theorem witness_OutstandingAndPoisonedRegisters_poison : ∃ (s : State) (r : TRef) (t : Thread) (g : Wg) (u : Use) (x : Nat)
    (f : FaultInfo), s.cur = some r ∧ s.thread r = some t ∧ s.wg r.wg = some g ∧ t.run.cmark = none ∧ t.run.guard = none ∧
    t.skipping = false ∧ u.allowed r.acc = true ∧ (u.priv = true → t.arch.sup = true) ∧
    (∀ y ∈ u.reads ++ u.writes ++ u.names, y < allotOf r g) ∧ (∀ y ∈ u.reads ++ u.writes, y ∉ t.busy) ∧
    t.full u.cls u.counts = false ∧ u.reads = [x] ∧ (t.arch.regs.get x).poison = some f :=
  let t : Thread := { thr [] with arch := { archOf [] with
    regs := { cells := [(5, { val := i32 0, poison := some (plainFault .uncorr) })], base := 0, kbase := 0 } } }
  ⟨stT t, r0, t, wg0, { reads := [5], writes := [3] }, 5, plainFault .uncorr, rfl, stT_thread t, stT_wg t, rfl, rfl, rfl, rfl,
    (by intro h; cases h), by decide, by decide, rfl, rfl, rfl⟩

theorem witness_EncodingChecksAndPrivilege : ∃ (s : State) (r : TRef) (t : Thread) (g : Wg), s.cur = some r ∧
    s.thread r = some t ∧ s.wg r.wg = some g ∧ t.run.cmark = none ∧ r.acc = false ∧ t.arch.sup = false ∧
    (({ slice := .access } : Use).allowed r.acc = false) ∧ (({ priv := true } : Use).allowed r.acc = true) ∧
    (∃ x ∈ ({ reads := [128] } : Use).reads, allotOf r g ≤ x) :=
  let t : Thread := { thr [] with arch := { archOf [] with sup := false } }
  ⟨stT t, r0, t, wg0, rfl, stT_thread t, stT_wg t, rfl, rfl, rfl, rfl, rfl, ⟨128, by decide, by decide⟩⟩

theorem witness_FalseGuard : ∃ (s : State) (r : TRef) (t : Thread) (g : Wg) (gs : GuardState), s.cur = some r ∧
    s.thread r = some t ∧ s.wg r.wg = some g ∧ t.run.cmark = none ∧ t.run.guard = some gs ∧ t.skipping = false ∧
    gs.cond = false ∧ gs.left = 2 :=
  let t : Thread := { thr [] with run := { Run.start (archOf []) with guard := some { left := 2, cond := false, at' := 0 } } }
  ⟨stT t, r0, t, wg0, { left := 2, cond := false, at' := 0 }, rfl, stT_thread t, stT_wg t, rfl, rfl, rfl, rfl, rfl⟩

theorem witness_OnlyTerminatorsAfterCommitting : ∃ (s : State) (r : TRef) (t : Thread) (g : Wg) (k : Nat), s.cur = some r ∧
    s.thread r = some t ∧ s.wg r.wg = some g ∧ t.run.cmark = some k ∧ ({} : Use).ends = false :=
  let t : Thread := { thr [] with run := { Run.start (archOf []) with cmark := some 3 } }
  ⟨stT t, r0, t, wg0, 3, rfl, stT_thread t, stT_wg t, rfl, rfl⟩
/-- A checked access that faults. -/
def faults (x : Reach) : Bool :=
  match x with
  | .fault _ => true
  | _ => false

theorem faults_ex {x : Reach} (h : faults x = true) : ∃ f, x = .fault f := by
  cases x with
  | fault f => exact ⟨f, rfl⟩
  | ok l => cases h
  | miss => cases h

/-- A run that has only begun, with no store pending and no early read, is a plain one. -/
theorem plain_of {s : State} {r : TRef} {t : Thread} {a : Arch} (hr : r.acc = false) (ht : s.thread r = some t) (hu : t.run = Run.start a)
    (hs : t.stop = none) (ha : t.acc = none) (he : s.scReads = []) (hp : s.stores = []) : PlainRun s r t :=
  { exec := hr, thread := ht, claims := by rw [hu]; rfl, beacon := by rw [hu]; rfl, stop := hs, acc := ha,
    room := by simp [State.l1Waits, hu, Run.start], steady := by simp [State.spoiled, he],
    fresh := by simp [hp], commit := by rw [hu]; rfl, buf := by rw [hu]; rfl, early := by simp [State.readsEarly, he] }

theorem plain_st (l : List (Nat × RegVal)) : PlainRun (st l) r0 (thr l) := plain_of rfl (st_thread l) rfl rfl rfl rfl rfl

/-- A state with bytes in memory. -/
def stM (l : List (Nat × RegVal)) (m : Memory) : State := { st l with mem := m }

theorem witness_ControlFlow : ∃ (s s' : State) (r : TRef) (t : Thread) (g : Wg), r.acc = false ∧ Ready s r t g [] [] ∧
    t.run.guard = none ∧ (s.rangeFar r (t.arch.pc + 4) (min 8 (23 - t.run.count)) = none ∧
      s.rangeBroken r (t.arch.pc + 4) (min 8 (23 - t.run.count)) = false) ∧ Ready s' r t g [] [] ∧
    (s'.rangeFar r (t.arch.pc + 4) (min 1 (23 - t.run.count)) = none ∧
      s'.rangeBroken r (t.arch.pc + 4) (min 1 (23 - t.run.count)) = true) ∧ Ending s r t g [] ∧ t.arch.pred 0 = false ∧ t.arch.pred 7 = true ∧
    t.arch.rstack = [] :=
  ⟨st [], stM [] [(4, 0x3D), (5, 0x14)], r0, thr [], wg0, rfl, ready _ _ _ (by decide) (by decide), rfl, by decide,
    ready_of rfl rfl rfl rfl rfl rfl (by decide) (by decide) (by decide), by decide, ending _ _ (by decide) (by decide), by decide,
    by decide, rfl⟩

/-- A page table in HBM at 0x1000: one page of 1 GiB at address 0 of HBM, readable, writable and executable. -/
def pageTable : Memory := [(0x1000, 1), (0x1001, 0x20), (0x2000, 1), (0x2001, 0x30), (0x3000, 0x1F)]

/-- A page table whose page of 1 GiB lies in module 7. -/
def farTable : Memory := [(0x1000, 1), (0x1001, 0x20), (0x2000, 1), (0x2001, 0x30), (0x3000, 0x9F), (0x3006, 0x1C)]

/-- A partition that has its page table at 0x1000 and 1 GiB of HBM; the other structures' registers are given. -/
def part0 (regs : List (Nat × Word)) : Part :=
  { fetchPart State.reset with
    cregs := regs.foldl (fun m x => aput x.1 x.2 m) [(0x10, 0x1000)]
    lim := { min := 1, urgent := 0, max := 1, home := [0], hbmBase := 0, hbmSize := 2 ^ 30, hbmBw := 0, canopy := 65536, linkBw := 0 } }

/-- A page of another module, as the TLB of core 0 holds it. -/
def farEntry : TlbEntry :=
  { core := 0, part := 0, gen := 0, base := 0, size := 65536, pa := 0, tgt := 2, mod := 7, r := true, w := true, x := true, sup := false }

/-- Code of another module: a GUARD's range, and the target of an indirect transfer. -/
theorem witness_ControlFlow_far : ∃ (s : State) (r : TRef) (t : Thread) (g : Wg) (n a : Nat) (x : DWord), r.acc = false ∧
    Ready s r t g [] [] ∧ t.run.guard = none ∧ s.rangeFar r (t.arch.pc + 4) (min n (23 - t.run.count)) = some x ∧
    Ending s r t g [a, a + 1] ∧ (t.arch.pair a).getLsbD 0 = false ∧ t.arch.sup = false ∧ s.unitFar r (t.arch.pair a) = true :=
  let l := [(4, n32 8), (5, n32 0)]
  let t : Thread := { thr l with arch := { archOf l with sup := false } }
  ⟨{ stT t with tlb := [farEntry], parts := [(0, part0 [])], mem := farTable }, r0, t, wg0, 8, 4, 4, rfl,
    ready_of rfl rfl rfl rfl rfl rfl (by decide) (by decide) (by decide), rfl, by decide,
    ending_of rfl rfl rfl rfl (by decide) (by decide) (by decide), by decide, rfl, by decide⟩

theorem witness_ControlFlow_returns : ∃ (s s' : State) (r : TRef) (t t' : Thread) (g : Wg), r.acc = false ∧ Ending s r t g [] ∧
    t.arch.rstack = [6] ∧ (6 : DWord).getLsbD 0 = false ∧ t.arch.rstack.length < 8 ∧ Ending s' r t' g [] ∧
    t'.arch.rstack.length = 1024 ∧ t'.arch.pred 7 = true :=
  let t : Thread := { thr [] with arch := { archOf [] with rstack := [6] } }
  let u : Thread := { thr [] with arch := { archOf [] with rstack := List.replicate 1024 6 } }
  ⟨stT t, stT u, r0, t, u, wg0, rfl, ending_of rfl rfl rfl rfl (by decide) (by decide) (by decide), rfl, by decide, by decide,
    ending_of rfl rfl rfl rfl (by decide) (by decide) (by decide), List.length_replicate, by decide⟩

/-- A branch table whose word 0 is +8, below its bound and at it. -/
theorem witness_ControlFlow_table : ∃ (s : State) (r : TRef) (t : Thread) (g : Wg) (a : Nat), Ending s r t g [a] ∧
    (t.arch.reg a).bits = 0 ∧ (∃ lo s1, s.fetchUnit r (t.arch.pc + 4) = .ok lo s1 ∧
      ∃ hi s2, s1.fetchUnit r (t.arch.pc + 4 + 2) = .ok hi s2) :=
  ⟨stM [(5, n32 0)] [(4, 8)], r0, thr [(5, n32 0)], wg0, 5, ending_of rfl rfl rfl rfl (by decide) (by decide) (by decide), rfl,
    _, _, by rfl, _, _, by rfl⟩

/-- Indirect transfers in user mode: to a landing pad with label 1, to one that is not there, and to an odd address. -/
theorem witness_ControlFlow_indirect : ∃ (s : State) (r : TRef) (t : Thread) (g : Wg) (a b c d : Nat), Ending s r t g [a, a + 1] ∧
    (t.arch.pair a).getLsbD 0 = false ∧ t.arch.sup = false ∧ (s.labelAt r (t.arch.pair a) 1).1 = .ok ∧
    Ending s r t g [b, b + 1] ∧ (t.arch.pair b).getLsbD 0 = false ∧ (s.labelAt r (t.arch.pair b) 1).1 = .bad ∧
    Ending s r t g [c, c + 1] ∧ (t.arch.pair c).getLsbD 0 = true ∧ Ending s r t g [d, d + 1] ∧
    (t.arch.pair d).getLsbD 0 = false ∧ (s.labelAt r (t.arch.pair d) 1).1 = .unread ∧
    (∀ x ∈ [a, b, d], s.unitFar r (t.arch.pair x) = false ∧ s.unitFar r (t.arch.pair x + 2) = false) ∧ t.arch.rstack.length < 8 :=
  let l := [(4, n32 8), (5, n32 0), (6, n32 16), (7, n32 0), (8, n32 1), (9, n32 0), (10, n32 0), (11, n32 1)]
  let t : Thread := { thr l with arch := { archOf l with sup := false } }
  ⟨{ stT t with mem := [(8, 0x3D), (9, 0x10), (10, 0x20)] }, r0, t, wg0, 4, 6, 8, 10,
    ending_of rfl rfl rfl rfl (by decide) (by decide) (by decide), by decide, rfl, by decide,
    ending_of rfl rfl rfl rfl (by decide) (by decide) (by decide), by decide, by decide,
    ending_of rfl rfl rfl rfl (by decide) (by decide) (by decide), by decide,
    ending_of rfl rfl rfl rfl (by decide) (by decide) (by decide), by decide⟩

theorem witness_RunsCommit : ∃ s r t, s.cur = some r ∧ PlainRun s r t := ⟨st [], r0, thr [], rfl, plain_st []⟩

theorem witness_WaitAndYield : ∃ (s s' : State) (r : TRef) (t t' : Thread) (g : Wg), s.cur = some r ∧ PlainRun s r t ∧
    s.wg r.wg = some g ∧ t.loads ≤ 0 ∧ s.fencing r = false ∧ s'.cur = some r ∧ PlainRun s' r t' ∧ s'.wg r.wg = some g ∧ ¬ t'.loads ≤ 14 :=
  let u : Thread := { thr [] with loads := 15 }
  ⟨st [], stT u, r0, thr [], u, wg0, rfl, plain_st [], st_wg [], by decide, by decide, rfl,
    plain_of rfl (stT_thread u) rfl rfl rfl rfl rfl, stT_wg u, by decide⟩

/-- An address that is misaligned, scratchpad addresses within and without, one that is not canonical, one without a
translation, and one that may be read. -/
theorem witness_AccessChecks : ∃ (s : State) (r : TRef) (t : Thread) (g : Wg), s.thread r = some t ∧ s.wg r.wg = some g ∧
    (1 : DWord).toNat % 4 ≠ 0 ∧ inScratchRange 0xFFFFFF0000780000 = true ∧ g.saved = false ∧
    scratchKey (coreOfQuad g.quad) (0x780000 : Word) = some (kScratch 0 0) ∧ s.mayScratch g (kScratch 0 0) 4 = true ∧
    scratchKey (coreOfQuad g.quad) (0x7FFFF0 : Word) = some (kScratch 0 0x7FFF0) ∧
    s.mayScratch g (kScratch 0 0x7FFF0) 4 = false ∧ scratchKey (coreOfQuad g.quad) (0x800000 : Word) = none ∧
    isCanonical 0x0100000000000000 = false ∧ isCanonical 0x10000 = true ∧ s.tlbFind (s.coreOf r) g.part 0x10000 = none ∧
    ∃ e, s.tlbFind (s.coreOf r) g.part 8 = some e ∧ e.trans.grants t.arch.sup .load = true ∧
      s.checkPage g.part t.arch.sup .load e.trans 8 = .ok (.key 8) ∧ s.scopeOk (.key 8) (some .dv) false = true :=
  ⟨st [], r0, thr [], wg0, st_thread [], st_wg [], by decide, rfl, rfl, by decide, by decide, rfl, by decide, by decide,
    rfl, rfl, by decide, _, rfl, by decide, by decide, by decide⟩

/-- A page that may only be read, and a promotion of a scratchpad word, which no scope of R163 permits. -/
theorem witness_AccessChecks_prot : ∃ (s : State) (r : TRef) (t : Thread) (g : Wg) (e : TlbEntry), s.thread r = some t ∧
    s.wg r.wg = some g ∧ s.tlbFind (s.coreOf r) g.part 8 = some e ∧ e.trans.grants t.arch.sup .store = false :=
  let e : TlbEntry := { core := 0, part := 0, gen := 0, base := 0, size := 65536, pa := 0, tgt := 0, mod := 0, r := true,
                        w := false, x := false, sup := false }
  ⟨{ st [] with tlb := [e] }, r0, thr [], wg0, e, thread_of rfl, wg_of rfl, by decide, by decide⟩

/-- Loads: from a page, from a page without translation, and outside canonical memory; ldt with a tag that is valid and one
that is not. -/
theorem witness_GlobalLoads : ∃ (s : State) (r : TRef) (t : Thread) (g : Wg) (a b c d : Nat), s.mustWait r t = false ∧
    Accessing s r t g [a, a + 1] [3] .loads ∧ s.reach r (t.arch.pair a + BitVec.ofInt 64 (2 * 4)) 4 .load none false = .ok (.key 24) ∧
    Accessing s r t g [b, b + 1] [3] .loads ∧ s.reach r (t.arch.pair b + BitVec.ofInt 64 (0 * 4)) 4 .load none false = .miss ∧
    Accessing s r t g [c, c + 1] [3] .loads ∧
    (∃ f, s.reach r (t.arch.pair c + BitVec.ofInt 64 (0 * 4)) 4 .load none false = .fault f) ∧
    Accessing s r t g [a, a + 1, d] ((List.range 16).map fun i => 100 + i) .loads ∧
    validTag ((t.arch.reg d).bits.setWidth 16 : Half).toNat = true ∧ s.onePage r (t.arch.pair a) 16 = true ∧
    s.reachLen r (t.arch.pair a) 4 64 .load none false = .ok (.key 16) ∧
    Accessing s r t g [a, a + 1, d + 1] ((List.range 16).map fun i => 100 + i) .loads ∧
    validTag ((t.arch.reg (d + 1)).bits.setWidth 16 : Half).toNat = false :=
  let l := [(4, n32 16), (5, n32 0), (6, n32 0x10000), (7, n32 0), (8, n32 0), (9, n32 0x01000000), (10, n32 0xF103), (11, n32 0x80)]
  ⟨st l, r0, thr l, wg0, 4, 6, 8, 10, rfl, accessing _ _ _ _ (by decide) (by decide), by decide,
    accessing _ _ _ _ (by decide) (by decide), by decide, accessing _ _ _ _ (by decide) (by decide), faults_ex (by decide),
    accessing _ _ _ _ (by decide) (by decide), by decide, by decide, by decide, accessing _ _ _ _ (by decide) (by decide),
    by decide⟩

/-- A page of another module. -/
theorem witness_GlobalLoads_remote : ∃ (s : State) (r : TRef) (t : Thread) (g : Wg) (a m p : Nat), s.mustWait r t = false ∧
    Accessing s r t g [a, a + 1] [3] .loads ∧
    s.reach r (t.arch.pair a + BitVec.ofInt 64 (0 * 4)) 4 .load none false = .ok (.remote m p) :=
  let e : TlbEntry := { core := 0, part := 0, gen := 0, base := 0, size := 65536, pa := 0, tgt := 2, mod := 7, r := true,
                        w := true, x := false, sup := false }
  let l := [(4, n32 16), (5, n32 0)]
  ⟨{ st l with tlb := [e] }, r0, thr l, wg0, 4, 7, 16, rfl, accessing_of (ready_of rfl rfl rfl rfl rfl rfl (by decide) (by decide)
    (by decide)) rfl, by decide⟩

/-- A scratchpad word that is full, that is empty, that another thread has claimed; an address without a word. -/
theorem witness_ScratchpadLoads : ∃ (s s' s'' : State) (r : TRef) (t : Thread) (g : Wg) (a k : Nat), s.mustWait r t = false ∧
    Accessing s r t g [a] [3] .loads ∧ s.reachScratch r ((t.arch.reg a).bits + BitVec.ofInt 32 (0 * 4)) 4 .load = .ok (.key k) ∧
    s.claimed k (some r) = false ∧ s.isFull k = false ∧ s.monitorRoom (s.coreOf r) 1 = true ∧
    Accessing s' r t g [a] [3] .loads ∧ s'.claimed k (some r) = false ∧ s'.isFull k = true ∧ s'.cmdAt r t.seq (.key k) 4 = false ∧
    Accessing s'' r t g [a] [3] .loads ∧ s''.claimed k (some r) = true ∧ s''.monitorRoom (s''.coreOf r) 1 = true ∧
    (∃ f, s.reachScratch r ((t.arch.reg a).bits + BitVec.ofInt 32 (0x800000 * 4)) 4 .load = .fault f) :=
  let l := [(5, n32 0x780010)]
  ⟨st l, { st l with full := [kScratch 0 16] }, { st l with claims := [(kScratch 0 16, { wg := 0, tid := 1 })] }, r0, thr l, wg0, 5,
    kScratch 0 16, rfl, accessing _ _ _ _ (by decide) (by decide), by decide, by decide, by decide, by decide,
    accessing_of (ready_of rfl rfl rfl rfl rfl rfl (by decide) (by decide) (by decide)) rfl, by decide, by decide, by decide,
    accessing_of (ready_of rfl rfl rfl rfl rfl rfl (by decide) (by decide) (by decide)) rfl, by decide, by decide, faults_ex (by decide)⟩

/-- A word on which an atomic of an earlier run of the thread has yet to act. -/
theorem witness_ScratchpadLoads_order : ∃ (s : State) (r : TRef) (t : Thread) (g : Wg) (a k : Nat), s.mustWait r t = false ∧
    Accessing s r t g [a] [3] .loads ∧ s.reachScratch r ((t.arch.reg a).bits + BitVec.ofInt 32 (0 * 4)) 4 .load = .ok (.key k) ∧
    s.cmdAt r t.seq (.key k) 4 = true ∧ s.monitorRoom (s.coreOf r) 1 = true :=
  let t : Thread := { thr [(5, n32 0x780010)] with seq := 1 }
  let c : Cmd := { op := .atom .add .wg, words := [1], loc := some (.key (kScratch 0 16)), cls := .loads }
  let h : HeldRun := { id := 4, who := r0, seq := 0, core := 0, snap := archOf [], rel := 320, cmd := some c, mates := [], met := 0,
                       acc := none }
  ⟨{ stT t with held := [h] }, r0, t, wg0, 5, kScratch 0 16, by decide,
    accessing_of (ready_of rfl rfl rfl rfl rfl rfl (by decide) (by decide) (by decide)) rfl, by decide, by decide, by decide⟩

theorem witness_Stores : ∃ (s : State) (r : TRef) (t : Thread) (g : Wg) (a b c : Nat), Accessing s r t g [a, a + 1, b] [] .stores ∧
    s.reach r (t.arch.pair a + BitVec.ofInt 64 (0 * 4)) 4 .store none false = .ok (.key 16) ∧
    s.reach r (t.arch.pair a + BitVec.ofInt 64 (0 * 4)) 4 .store (some .dv) false = .ok (.key 16) ∧
    s.reach r (t.arch.pair a + BitVec.ofInt 64 (0x10000 * 4)) 4 .store none false = .miss ∧
    (∃ f, s.reach r (t.arch.pair a + BitVec.ofInt 64 (0x40000000000000 * 4)) 4 .store none false = .fault f) ∧
    Accessing s r t g [c, b] [] .stores ∧
    s.reachScratch r ((t.arch.reg c).bits + BitVec.ofInt 32 (0 * 4)) 4 .store = .ok (.key (kScratch 0 16)) ∧
    (∃ f, s.reachScratch r ((t.arch.reg c).bits + BitVec.ofInt 32 (0x800000 * 4)) 4 .store = .fault f) :=
  let l := [(4, n32 16), (5, n32 0), (6, n32 9), (8, n32 0x780010)]
  ⟨st l, r0, thr l, wg0, 4, 6, 8, accessing _ _ _ _ (by decide) (by decide), by decide, by decide, by decide, faults_ex (by decide),
    accessing _ _ _ _ (by decide) (by decide), by decide, faults_ex (by decide)⟩

/-- A load of another thread's state: one plain load of thread 0 on its way. -/
def load0 : PLoad :=
  { id := 0, who := r0, seq := 0, core := 0, loc := .key (kScratch 0 16), len := 4, kind := .plain, dests := dest1 3 tagI32 4 false,
    fwd := [], value := none, addr := 0, remote := none }

theorem witness_FencesAndWaits : ∃ (s s' : State) (r : TRef) (t : Thread) (g : Wg) (b c : Nat), r.acc = false ∧
    Ready s r t g [] [] ∧ s.ownReads r = [] ∧ Ready s' r t g [] [] ∧ s'.ownReads r ≠ [] ∧ Ready s r t g [b, b + 1] [] ∧ Accessing s r t g [b, b + 1] [] .stores ∧
    inScratchRange ((t.arch.pair b + BitVec.ofInt 64 (0 * 128)) &&& ~~~(127 : DWord)) = false ∧
    s.reach r ((t.arch.pair b + BitVec.ofInt 64 (0 * 128)) &&& ~~~(127 : DWord)) 1 .store none false = .ok (.key 0) ∧
    Accessing s r t g [c, c + 1] [] .stores ∧
    inScratchRange ((t.arch.pair c + BitVec.ofInt 64 (0 * 128)) &&& ~~~(127 : DWord)) = true :=
  let l := [(4, n32 16), (5, n32 0), (6, n32 0x780000), (7, n32 0xFFFFFF00)]
  ⟨st l, { st l with loads := [load0] }, r0, thr l, wg0, 4, 6, rfl, ready _ _ _ (by decide) (by decide), by decide,
    ready_of rfl rfl rfl rfl rfl rfl (by decide) (by decide) (by decide), by decide, ready _ _ _ (by decide) (by decide),
    accessing _ _ _ _ (by decide) (by decide), by decide, by decide, accessing _ _ _ _ (by decide) (by decide), by decide⟩

/-- A word that satisfies waita.eq and not waita.chg, a scratchpad word that is free and one that another thread has claimed,
and a word of another module. -/
theorem witness_FencesAndWaits_words : ∃ (s s1 s2 : State) (r : TRef) (t : Thread) (g : Wg) (b c k : Nat), s.mustWait r t = false ∧
    Accessing s r t g [b, b + 1, 3] [3] .loads ∧
    s.reach r (t.arch.pair b + BitVec.ofInt 64 ((2 : Nat) * 4)) 4 .load none false = .ok (.key 24) ∧
    s.claimed 24 (some r) = false ∧ s.cmdAt r t.seq (.key 24) 4 = false ∧ s.bareWord (s.coreOf r) .dv (.key 24) = s ∧
    s.wordBad r (.key 24) (s.coreOf r) true = false ∧ s.dirtyOf (s.coreOf r) (some (lineKey 24)) = [] ∧
    (BitVec.ofNat 32 (leNat (s.wordFor r (.key 24) (s.coreOf r) true)) == (t.arch.reg 3).bits) = true ∧
    (BitVec.ofNat 32 (leNat (s.wordFor r (.key 24) (s.coreOf r) true)) != (t.arch.reg 3).bits) = false ∧
    s.monitorRoom (s.coreOf r) 1 = true ∧ Accessing s r t g [c] [3] .loads ∧ Accessing s r t g [c, 3] [3] .loads ∧
    s.reachScratch r ((t.arch.reg c).bits + BitVec.ofInt 32 ((0 : Nat) * 4)) 4 .load = .ok (.key k) ∧ isScratch k = true ∧
    s.claimed k (some r) = false ∧ s1.claimed k (some r) = true ∧ Accessing s1 r t g [c, 3] [3] .loads ∧
    s1.mustWait r t = false ∧ s1.reachScratch r ((t.arch.reg c).bits + BitVec.ofInt 32 ((0 : Nat) * 4)) 4 .load = .ok (.key k) ∧
    s2.mustWait r t = false ∧ Accessing s2 r t g [b, b + 1, 3] [3] .loads ∧
    s2.reach r (t.arch.pair b + BitVec.ofInt 64 ((2 : Nat) * 4)) 4 .load none false = .ok (.remote 7 24) :=
  let l := [(3, n32 0), (4, n32 16), (5, n32 0), (6, n32 0x780010)]
  let e : TlbEntry := { core := 0, part := 0, gen := 0, base := 0, size := 65536, pa := 0, tgt := 2, mod := 7, r := true,
                        w := true, x := false, sup := false }
  ⟨st l, { st l with claims := [(kScratch 0 16, { wg := 0, tid := 1 })] }, { st l with tlb := [e] }, r0, thr l, wg0, 4, 6, kScratch 0 16,
    rfl, accessing _ _ _ _ (by decide) (by decide), by decide, by decide, by decide, rfl, by decide, rfl, by decide, by decide,
    by decide, accessing _ _ _ _ (by decide) (by decide), accessing _ _ _ _ (by decide) (by decide), by decide, by decide, by decide,
    by decide, accessing_of (ready_of rfl rfl rfl rfl rfl rfl (by decide) (by decide) (by decide)) rfl, rfl, by decide, rfl,
    accessing_of (ready_of rfl rfl rfl rfl rfl rfl (by decide) (by decide) (by decide)) rfl, by decide⟩

theorem witness_AtomicsWhenIssued : ∃ (s : State) (r : TRef) (t : Thread) (g : Wg) (b v : Nat),
    Accessing s r t g ([b, b + 1] ++ (List.range 4).map fun j => v + j) [8, 9] .loads ∧
    s.reach r (t.arch.pair b) 8 .atomic (some .dv) false = .ok (.key 16) ∧
    (∃ f, s.reach r (t.arch.pair b) 32 .atomic (some .dv) false = .fault f) :=
  let l := [(4, n32 16), (5, n32 0)]
  ⟨st l, r0, thr l, wg0, 4, 20, accessing _ _ _ _ (by decide) (by decide), by decide, faults_ex (by decide)⟩
/-- A fetch of a unit that succeeds, its unit and the state after it. -/
def fetchOk (x : Fetched) : Bool :=
  match x with
  | .ok _ _ => true
  | _ => false
def fetchUnitOf (x : Fetched) : Half :=
  match x with
  | .ok u _ => u
  | _ => 0
def fetchStateOf (x : Fetched) : State :=
  match x with
  | .ok _ s => s
  | _ => State.reset

theorem fetched_eq (x : Fetched) (h : fetchOk x = true) : x = .ok (fetchUnitOf x) (fetchStateOf x) := by
  cases x with
  | ok u s => rfl
  | fault f => cases h
  | miss => cases h

/-- Another workgroup in the place of the first. -/
def stW (l : List (Nat × RegVal)) (g : Wg) : State := { st l with wgs := [(0, g)] }

theorem access_w (l : List (Nat × RegVal)) (g : Wg) (rd wr : List Nat) (c : Cls) (h : ∀ x ∈ rd ++ wr, x < allotOf r0 g)
    (hc : ∀ x ∈ rd, ((archOf l).regs.get x).poison = none) : Accessing (stW l g) r0 (thr l) g rd wr c :=
  accessing_of (ready_of rfl rfl rfl rfl rfl rfl h (by intro x _ hx; cases hx) hc) (by cases c <;> rfl)

/-- Blocks: one in the workgroup's scratchpad, one misaligned; the producers with and without thread 0; a count of arrivals
in its range and at its bound. -/
theorem witness_EnginesWhenIssued : ∃ (s s' : State) (r : TRef) (t : Thread) (g g' : Wg) (a b c d : Nat),
    Accessing s r t g [a] [3] .copies ∧ g.pfirst ≤ r.tid ∧ r.tid < g.pfirst + g.plen ∧
    s.blockAt r (t.arch.reg a).bits 64 64 .blockRead = .ok (kScratch 0 64) ∧
    (∃ h ∈ s.ensemble g, h.holds (kScratch 0 64) 64 = true) ∧ Accessing s r t g [b] [3] .copies ∧
    s.blockAt r (t.arch.reg b).bits 64 64 .blockRead = .error (faultAt .align ((t.arch.reg b).bits.setWidth 64) .blockRead true) ∧
    Accessing s' r t g' [a] [3] .copies ∧ g'.pfirst + g'.plen ≤ r.tid ∧ Accessing s r t g [a, c] [3] .loads ∧
    s.blockAt r (t.arch.reg a).bits 8 16 .atomic = .ok (kScratch 0 64) ∧ (t.arch.reg c).bits.toNat = 2 ^ 23 ∧
    Accessing s r t g [a, d] [3] .loads ∧ (t.arch.reg d).bits.toNat = 2 ^ 23 - 1 ∧ Accessing s r t g [a] [3] .loads :=
  let l := [(5, n32 0x780040), (6, n32 0x780001), (7, n32 0x800000), (8, n32 0x7FFFFF)]
  ⟨stW l wg0, stW l { wg0 with plen := 0 }, r0, thr l, wg0, { wg0 with plen := 0 }, 5, 6, 7, 8,
    access_w _ _ _ _ _ (by decide) (by decide), by decide, by decide, by decide, ⟨wg0, by decide, by decide⟩,
    access_w _ _ _ _ _ (by decide) (by decide), by decide, access_w _ _ _ _ _ (by decide) (by decide), by decide,
    access_w _ _ _ _ _ (by decide) (by decide), by decide, by decide, access_w _ _ _ _ _ (by decide) (by decide), by decide,
    access_w _ _ _ _ _ (by decide) (by decide)⟩

/-- A block in an open lodge, outside the workgroup's scratchpad. -/
def lodge1 : Lodge :=
  { id := 1, part := 0, name := 5, pages := 1, st := .live, core := 0, off := 0x40000, slot := 0, gen := 1, mirror := none,
    named := true, pend := .none, running := none, dirty := false }

theorem witness_EnginesWhenIssued_lodge : ∃ (s : State) (r : TRef) (t : Thread) (g : Wg) (a k : Nat),
    Accessing s r t g [a] [3] .copies ∧ Accessing s r t g [a] [] .tiles ∧ g.pfirst ≤ r.tid ∧ r.tid < g.pfirst + g.plen ∧
    s.blockAt r (t.arch.reg a).bits 64 64 .blockRead = .ok k ∧ ∀ h ∈ s.ensemble g, h.holds k 64 = false :=
  let l := [(5, n32 0x7C0000)]
  let g := { wg0 with opens := [1] }
  ⟨{ stW l g with lodges := [lodge1] }, r0, thr l, g, 5, kScratch 0 0x40000,
    accessing_of (ready_of rfl rfl rfl rfl rfl rfl (by decide) (by decide) (by decide)) rfl,
    accessing_of (ready_of rfl rfl rfl rfl rfl rfl (by decide) (by decide) (by decide)) rfl, by decide, by decide, by decide,
    by decide⟩

/-- Queues: qc0 initialised with elements of four bytes, qc1 not initialised; an operand queue with an entry and one
without whose thread has no access thread. -/
theorem witness_EnginesWhenIssued_queues : ∃ (s s' : State) (r : TRef) (t : Thread) (g g' : Wg) (a b : Nat),
    Accessing s r t g [a, a + 1] [3] .none ∧
    s.blockAt r ((t.arch.pair a).setWidth 32) 4 (2 ^ min ((t.arch.pair a).toNat / 2 ^ 32 % 16) 12 * 4) .store = .ok (kScratch 0 64) ∧
    (t.arch.pair a).toNat < 2 ^ 37 ∧ (t.arch.pair a).toNat / 2 ^ 32 % 16 = 2 ∧ g.isOq 0 = false ∧ (g.qc 0).v = true ∧
    (g.qc 0).es = false ∧ (g.qc 1).v = false ∧ Accessing s r t g [] [3] .none ∧ Accessing s r t g [b] [3] .stores ∧
    s.monitorRoom (s.coreOf r) 1 = true ∧ t.acq = [] ∧ Accessing s r t g [b] [3] .loads ∧
    validTag ((t.arch.reg b).bits.toNat % 65536) = true ∧ Accessing s' r t g' [b] [3] .loads ∧ g'.isOq 4 = true ∧
    s'.oqFault r 4 = none ∧ s'.oqFault r 5 = some (plainFault .queue) ∧ Accessing s' r t g' [b] [3] .stores :=
  let l := [(4, n32 0x780040), (5, n32 2), (6, n32 0x2)]
  let g := { wg0 with qcs := { v := true, base := kScratch 0 64, ld := 2 } :: List.replicate 7 {} }
  let g' := { wg0 with access := 0x100, oq := [(oqKey 0 0, [(some 5, 0)])] }
  ⟨stW l g, stW l g', r0, thr l, g, g', 4, 6, access_w _ _ _ _ _ (by decide) (by decide), by decide, by decide, by decide,
    by decide, rfl, rfl, rfl, access_w _ _ _ _ _ (by decide) (by decide), access_w _ _ _ _ _ (by decide) (by decide), by decide, rfl,
    access_w _ _ _ _ _ (by decide) (by decide), by decide, access_w _ _ _ _ _ (by decide) (by decide), by decide, by decide,
    by decide, access_w _ _ _ _ _ (by decide) (by decide)⟩

theorem witness_ArrayWhenIssued : ∃ (s : State) (r : TRef) (t : Thread) (g : Wg) (a b c : Nat), g.tiles.length = 16 ∧
    Accessing s r t g [a] [] .tiles ∧ s.blockAt r (t.arch.reg a).bits 64 64 .blockRead = .ok (kScratch 0 64) ∧
    (∃ h ∈ s.ensemble g, h.holds (kScratch 0 64) 64 = true) ∧ Accessing s r t g [b, b + 1, c, c + 1] [] .tiles ∧
    (t.arch.pair b).toNat % fmtSize (t.arch.reg (c + 1)).bits.toNat = 0 ∧
    (t.arch.reg c).bits.toNat % fmtSize (t.arch.reg (c + 1)).bits.toNat = 0 ∧
    Accessing s r t g [b + 1, b + 2, c, c + 1] [] .tiles ∧
    (t.arch.pair (b + 1)).toNat % fmtSize (t.arch.reg (c + 1)).bits.toNat ≠ 0 ∧ Accessing s r t g [b, c] [8] .tiles ∧
    (t.arch.reg b).bits.toNat % 4 = 0 ∧ (t.arch.reg (b + 1)).bits.toNat % 4 ≠ 0 :=
  let l := [(4, n32 0x780040), (6, n32 16), (7, n32 1), (8, n32 0), (10, n32 16), (11, n32 7)]
  ⟨stW l wg0, r0, thr l, wg0, 4, 6, 10, rfl, access_w _ _ _ _ _ (by decide) (by decide), by decide, ⟨wg0, by decide, by decide⟩,
    access_w _ _ _ _ _ (by decide) (by decide), by decide, by decide, access_w _ _ _ _ _ (by decide) (by decide), by decide,
    access_w _ _ _ _ _ (by decide) (by decide), by decide, by decide⟩

theorem witness_MazeLodgeAndSystemWhenIssued : ∃ (s : State) (r : TRef) (t : Thread) (g : Wg) (a b c d : Nat),
    Accessing s r t g [a] [3] .loads ∧ s.blockAt r (t.arch.reg a).bits 64 64 .blockRead = .ok (kScratch 0 64) ∧
    Accessing s r t g [d, a] [] .stores ∧ s.recordAt g (t.arch.reg a).bits = .ok (kScratch 0 64) ∧ (t.arch.reg a).bits ≠ 0 ∧
    Accessing s r t g [a, b, b + 1] [] .stores ∧ (t.arch.reg b).bits = 0 ∧
    Accessing s r t g [c, c + 1, a, b, b + 1] [] .stores ∧ (t.arch.pair c).toNat % 4 = 0 ∧ isCanonical (t.arch.pair c) = true ∧
    Accessing s r t g [c, c + 1, d] [8, 9] .loads ∧ (t.arch.reg d).bits.toNat = 64 ∧
    ¬ ((t.arch.reg d).bits = 0 ∨ 64 < (t.arch.reg d).bits.toNat) ∧ Accessing s r t g [c, c + 1, d] [8, 9] .loads 2 ∧
    Accessing s r t g [d] [8] .loads 1 :=
  let l := [(4, n32 0x780040), (6, n32 0), (7, n32 0), (10, n32 16), (11, n32 0), (12, n32 64)]
  ⟨stW l wg0, r0, thr l, wg0, 4, 6, 10, 12, access_w _ _ _ _ _ (by decide) (by decide), by decide,
    access_w _ _ _ _ _ (by decide) (by decide), by decide, by decide, access_w _ _ _ _ _ (by decide) (by decide), by decide,
    access_w _ _ _ _ _ (by decide) (by decide), by decide, by decide, access_w _ _ _ _ _ (by decide) (by decide), by decide, by decide,
    ⟨ready_of rfl rfl rfl rfl rfl rfl (by decide) (by decide) (by decide), rfl, by decide⟩, access_w _ _ _ _ _ (by decide) (by decide)⟩

/-- A launch, for a persistent workgroup with a task area. -/
def launch0 : Launch :=
  { id := 0, part := 0, queue := 0, slot := 0, slotVa := 0, prio := 0, pkt := { Packet.parse (List.replicate 128 0) with tasks := 4096 },
    args := [], aff := [], active := true, met := true, nextEns := 1, ended := 0, killed := false, leftover := false, ready := [],
    arrived := 0 }

theorem witness_MazeLodgeAndSystemWhenIssued_tasks : ∃ (s : State) (r : TRef) (t : Thread) (g : Wg) (a b c d e : Nat),
    Accessing s r t g [a, b] [3] .loads ∧ s.blockAt r (t.arch.reg a).bits 128 128 .blockRead = .ok (kScratch 0 128) ∧
    s.mayScratch g (kScratch 0 128) 128 = true ∧ (t.arch.reg b).bits.toNat = 15 ∧ (t.arch.reg c).bits.toNat < 3 * 2 ^ 16 ∧
    Accessing s r t g [c, b] [3] .loads ∧ Accessing s r t g [c, c + 1, d, d + 1] [] .none ∧ (t.arch.reg (d + 1)).bits.toNat < 2 ∧
    s.reach r (t.arch.pair c) 4 .load none false = .ok (.key 16) ∧ g.persist = true ∧
    (s.launchOf r).map (fun l => l.pkt.tasks != 0) = some true ∧ Accessing s r t g [c, c + 1, e, e + 1] [] .none ∧
    (t.arch.reg (e + 1)).bits.toNat = 2 ∧ Accessing s r t g [e + 1] [] .none ∧ (t.arch.reg (e + 1)).bits.getLsbD 1 = true ∧
    t.arch.sup = true ∧ (t.arch.reg (e + 1)).bits.toNat < 4 ∧ Accessing s r t g [c, c + 1] [] .none ∧ g.idemok = true ∧
    (t.arch.pair c).getLsbD 0 = false ∧ (∃ lo s1, s.fetchUnit r (t.arch.pair c) = .ok lo s1 ∧ ∃ hi s2,
      s1.fetchUnit r (t.arch.pair c + 2) = .ok hi s2 ∧ isLpad lo.toNat hi.toNat 0 = true) ∧ a < allotOf r g ∧
    Accessing s r t g [] [] .none ∧ Accessing s r t g [a] [3] .loads ∧ Accessing s r t g [a, 3] [] .none :=
  let l := [(3, n32 0), (4, n32 0x780080), (5, n32 15), (6, n32 16), (7, n32 0), (8, n32 0), (9, n32 1), (10, n32 0), (11, n32 2)]
  ⟨{ stW l wg0 with launches := [(0, launch0)], mem := [(16, 0x3D), (17, 0x10)] }, r0, thr l, wg0, 4, 5, 6, 8, 10,
    accessing_of (ready_of rfl rfl rfl rfl rfl rfl (by decide) (by decide) (by decide)) rfl, by decide, by decide, by decide,
    by decide, accessing_of (ready_of rfl rfl rfl rfl rfl rfl (by decide) (by decide) (by decide)) rfl,
    accessing_of (ready_of rfl rfl rfl rfl rfl rfl (by decide) (by decide) (by decide)) rfl, by decide, by decide, rfl, by decide,
    accessing_of (ready_of rfl rfl rfl rfl rfl rfl (by decide) (by decide) (by decide)) rfl, by decide,
    accessing_of (ready_of rfl rfl rfl rfl rfl rfl (by decide) (by decide) (by decide)) rfl, by decide, rfl, by decide,
    accessing_of (ready_of rfl rfl rfl rfl rfl rfl (by decide) (by decide) (by decide)) rfl, rfl, by decide,
    ⟨_, _, fetched_eq _ (by decide), _, _, fetched_eq _ (by decide), by decide⟩, by decide,
    accessing_of (ready_of rfl rfl rfl rfl rfl rfl (by decide) (by decide) (by decide)) rfl,
    accessing_of (ready_of rfl rfl rfl rfl rfl rfl (by decide) (by decide) (by decide)) rfl,
    accessing_of (ready_of rfl rfl rfl rfl rfl rfl (by decide) (by decide) (by decide)) rfl⟩

/-- Two running threads, of which the mask names the second. -/
theorem witness_LaneSetsAndArrivals : ∃ (s : State) (r : TRef) (t : Thread) (g : Wg) (a b c : Nat), r.acc = false ∧
    Ready s r t g [a, b, b + 1] [3] ∧ Ready s r t g [a, b] [3] ∧ Ready s r t g [b] [] ∧
    (t.arch.reg b).bits.getLsbD (r.tid % 32) = false ∧ Ready s r t g [a, c] [3] ∧
    (t.arch.reg c).bits.getLsbD (r.tid % 32) = true ∧ t.arch.alone ≤ t.arch.xcount ∧ s.openMeetings r.wg = [] ∧
    t.arch.skips = [] ∧ (t.arch.reg c).bits.getLsbD 1 = true ∧
    ∃ u, s.thread { wg := r.wg, tid := r.tid / 32 * 32 + 1 } = some u ∧ u.status = .running ∧ u.arch.skips = [] :=
  let l := [(5, i32 1), (6, n32 2), (7, n32 3)]
  let s : State := { st l with threads := [(0, thr l), (2, thr [])] }
  have h : s.thread r0 = some (thr l) := by simp [s, State.thread, r0, TRef.key, alook]
  have h1 : s.thread { wg := 0, tid := 1 } = some (thr []) := by simp [s, State.thread, TRef.key, alook]
  ⟨s, r0, thr l, wg0, 5, 6, 7, rfl, ⟨rfl, h, wg_of rfl, rfl, rfl, (by intro x hx; cases hx), by decide, by decide, by decide⟩,
    ⟨rfl, h, wg_of rfl, rfl, rfl, (by intro x hx; cases hx), by decide, by decide, by decide⟩,
    ⟨rfl, h, wg_of rfl, rfl, rfl, (by intro x hx; cases hx), by decide, by decide, by decide⟩, by decide,
    ⟨rfl, h, wg_of rfl, rfl, rfl, (by intro x hx; cases hx), by decide, by decide, by decide⟩, by decide, by decide, by decide, rfl,
    by decide, _, h1, rfl, rfl⟩

theorem witness_CrossLaneAlone : ∃ (s : State) (r : TRef) (t : Thread) (g : Wg) (a b c : Nat), r.acc = false ∧
    (t.arch.reg b).bits = BitVec.twoPow 32 (r.tid % 32) ∧ t.arch.alone ≤ t.arch.xcount ∧ s.openMeetings r.wg = [] ∧
    Ready s r t g [a, b, b + 1] [3] ∧ Ready s r t g [a, b] [3] ∧ (t.arch.reg a).kind = 1 ∧ Ready s r t g [c, b] [3] ∧
    (t.arch.reg c).kind = 7 ∧ Ready s r t g [b] [] :=
  let l := [(5, i32 1), (6, n32 1), (7, n32 3), (8, fl32 0x3F800000)]
  ⟨st l, r0, thr l, wg0, 5, 6, 8, rfl, by decide, by decide, by decide, ready _ _ _ (by decide) (by decide),
    ready _ _ _ (by decide) (by decide), by decide, ready _ _ _ (by decide) (by decide), by decide,
    ready _ _ _ (by decide) (by decide)⟩

/-- The access thread of thread 0. -/
def ra : TRef := { wg := 0, tid := 0, acc := true }

/-- Access thread 0 with these registers and these loops. -/
def thrA (l : List (Nat × RegVal)) (x : AccState) : Thread := { thr l with acc := some x }

def stA (l : List (Nat × RegVal)) (x : AccState) (g : Wg) : State :=
  { st [] with threads := [(1, thrA l x)], wgs := [(0, g)], cur := some ra }

theorem stA_thread (l : List (Nat × RegVal)) (x : AccState) (g : Wg) : (stA l x g).thread ra = some (thrA l x) := by
  simp [State.thread, stA, ra, TRef.key, alook]
theorem stA_wg (l : List (Nat × RegVal)) (x : AccState) (g : Wg) : (stA l x g).wg ra.wg = some g := by
  simp [State.wg, stA, ra, alook]

theorem endingA (l : List (Nat × RegVal)) (x : AccState) (rd : List Nat) (h : ∀ y ∈ rd, y < 32)
    (hc : ∀ y ∈ rd, ((archOf l).regs.get y).poison = none) : Ending (stA l x wg0) ra (thrA l x) wg0 rd :=
  ⟨rfl, stA_thread l x wg0, stA_wg l x wg0, rfl, h, (by intro y _ hy; cases hy), hc⟩

def acc0 : AccState := { loops := [], skip := 0, halted := false, fault := none, out := [] }

/-- Access threads that pass over a loop, that have no loop, four loops, and a last trip. -/
theorem witness_AccessEngineAndBranchQueues : ∃ (s s1 s4 : State) (r : TRef) (t t1 t4 : Thread) (g : Wg) (x x1 x4 : AccState)
    (a b : Nat), r.acc = true ∧ t.acc = some x ∧ 0 < x.skip ∧ Ending s r t g [a, b] ∧ Ending s r t g [] ∧ t1.acc = some x1 ∧
    x1.skip = 0 ∧ x1.loops = [] ∧ Ending s1 r t1 g [a, b] ∧ Ending s1 r t1 g [] ∧ (t1.arch.reg a).bits.toNat = 0 ∧
    t4.acc = some x4 ∧ x4.skip = 0 ∧ x4.loops.length = 4 ∧ Ending s4 r t4 g [a, b] ∧ Ending s4 r t4 g [] ∧
    (t4.arch.reg a).bits.toNat ≠ 0 ∧ 3 ∉ t.busy :=
  let lp : Loop := { start := 0, trips := 1, stride := 4, reg := 3 }
  let x := { acc0 with skip := 1 }
  let y := { acc0 with loops := [lp, { lp with trips := 2 }, lp, lp] }
  ⟨stA [(5, n32 0), (6, n32 1)] x wg0, stA [(5, n32 0), (6, n32 1)] acc0 wg0, stA [(5, n32 2), (6, n32 1)] y wg0, ra,
    thrA [(5, n32 0), (6, n32 1)] x, thrA [(5, n32 0), (6, n32 1)] acc0, thrA [(5, n32 2), (6, n32 1)] y, wg0, x, acc0, y, 5, 6,
    rfl, rfl, by decide, endingA _ _ _ (by decide) (by decide), endingA _ _ _ (by decide) (by decide), rfl, rfl, rfl,
    endingA _ _ _ (by decide) (by decide), endingA _ _ _ (by decide) (by decide), by decide, rfl, rfl, rfl,
    endingA _ _ _ (by decide) (by decide), endingA _ _ _ (by decide) (by decide), by decide, by decide⟩

/-- aload and abr with room and without. -/
theorem witness_AccessEngineAndBranchQueues_sends : ∃ (s s' : State) (r : TRef) (t : Thread) (g g' : Wg) (x : AccState) (a : Nat),
    r.acc = true ∧ t.acc = some x ∧ x.skip = 0 ∧ Ready s r t g [a, a + 1] [] ∧ Ready s r t g [a] [] ∧
    s.accFill r 4 + x.sent 4 + 1 ≤ 32 ∧ s.accFill r 0 + x.sent 0 + 2 ≤ 16 ∧
    s.reach r (t.arch.pair a) 8 .load none false = .ok (.key 16) ∧ Ready s' r t g' [a, a + 1] [] ∧ Ready s' r t g' [a] [] ∧
    16 < s'.accFill r 0 + x.sent 0 + 2 ∧ 32 < s'.accFill r 4 + x.sent 4 + 1 :=
  let l := [(4, n32 16), (5, n32 0)]
  let g := { wg0 with oq := [(oqKey 0 0, List.replicate 15 (some 0, 0))], bq := [(0, List.replicate 32 true)] }
  ⟨stA l acc0 wg0, stA l acc0 g, ra, thrA l acc0, wg0, g, acc0, 4, rfl, rfl, rfl,
    ⟨rfl, stA_thread l acc0 wg0, stA_wg l acc0 wg0, rfl, rfl, (by intro x hx; cases hx), by decide, by decide, by decide⟩,
    ⟨rfl, stA_thread l acc0 wg0, stA_wg l acc0 wg0, rfl, rfl, (by intro x hx; cases hx), by decide, by decide, by decide⟩, by decide,
    by decide, by decide,
    ⟨rfl, stA_thread l acc0 g, stA_wg l acc0 g, rfl, rfl, (by intro x hx; cases hx), by decide, by decide, by decide⟩,
    ⟨rfl, stA_thread l acc0 g, stA_wg l acc0 g, rfl, rfl, (by intro x hx; cases hx), by decide, by decide, by decide⟩, by decide,
    by decide⟩

/-- brq with a bit, with none and an access thread that goes on, and with none and no access thread. -/
theorem witness_AccessEngineAndBranchQueues_brq : ∃ (s s1 s2 : State) (r : TRef) (t : Thread) (g g' : Wg), Ending s r t g [] ∧
    PlainRun s r t ∧ alook r.tid g.bq = some [true, false] ∧ Ending s1 r t g' [] ∧ PlainRun s1 r t ∧
    (alook r.tid g'.bq).getD [] = [] ∧ s1.bqFault r = some (plainFault .queue) ∧ Ending s2 r t g' [] ∧ PlainRun s2 r t ∧
    s2.bqFault r = none :=
  let g := { wg0 with bq := [(0, [true, false])] }
  let s2 : State := { st [] with threads := [(0, thr []), (1, thrA [] acc0)] }
  have h : s2.thread r0 = some (thr []) := by simp [s2, State.thread, r0, TRef.key, alook]
  ⟨stW [] g, st [], s2, r0, thr [], g, wg0, ending_of rfl rfl rfl rfl (by decide) (by decide) (by decide),
    plain_of rfl (thread_of rfl) rfl rfl rfl rfl rfl, by decide, ending _ _ (by decide) (by decide),
    plain_st [], by decide, by decide, ⟨rfl, h, wg_of rfl, rfl, by decide, by decide, by decide⟩,
    plain_of rfl h rfl rfl rfl rfl rfl, by decide⟩

/-! ## Events: states that meet the hypotheses -/

/-- A plain load of thread 0 of n bytes at k, number id, to these registers. -/
def pload (id k n : Nat) (ds : List Dest) : PLoad :=
  { id := id, who := r0, seq := 0, core := 0, loc := .key k, len := n, kind := .plain, dests := ds, fwd := [], value := none,
    addr := 0, remote := none }

/-- Loads of four, one, two and eight bytes of scratchpad and of HBM, the last two of poisoned data. -/
theorem witness_LoadsReturn : ∃ (s : State) (t : Thread) (l1 l2 l3 l4 l5 l6 : PLoad),
    (∀ l ∈ [l1, l2, l3, l4, l5, l6], s.loads.find? (fun x => x.id == l.id && !x.who.acc && x.remote.isNone) = some l ∧
      l.kind = .plain ∧ s.thread l.who = some t ∧ l.value = none ∧ l.fwd = [] ∧ s.loadGone l = false ∧ s.loadWaits l = false) ∧
    t.status = .running ∧ t.acqDrop = false ∧
    t.arch.frame = none ∧ s.waiters = [] ∧ l1.loc = .key (kScratch 0 64) ∧ (∀ i < 4, isScratch (kScratch 0 64 + i) = true) ∧
    l5.loc = .key 16 ∧ (∀ i < 4, isScratch (16 + i) = false ∧ alook (l1Key l5.core (16 + i)) s.l1 = none) ∧
    l1.dests = dest1 3 tagN32 4 false ∧ (s.loadBytes l1).2 = false ∧ l2.dests = dest1 3 tagI32 1 true ∧
    (s.loadBytes l2).1.length = 1 ∧ (s.loadBytes l2).2 = false ∧ l3.dests = dest1 3 tagI32 2 true ∧
    (s.loadBytes l3).1.length = 2 ∧ (s.loadBytes l3).2 = false ∧ l4.dests = dest64 8 ∧ (s.loadBytes l4).1.length = 8 ∧
    (s.loadBytes l4).2 = false ∧ (s.loadBytes l6).2 = true :=
  let k := kScratch 0 64
  let ls := [pload 0 k 4 (dest1 3 tagN32 4 false), pload 1 k 1 (dest1 3 tagI32 1 true), pload 2 k 2 (dest1 3 tagI32 2 true),
             pload 3 k 8 (dest64 8), pload 4 16 4 (dest1 3 tagN32 4 false), pload 5 64 4 (dest1 3 tagN32 4 false)]
  ⟨{ st [] with loads := ls, mem := [(kScratch 0 65, 0xFE)], poisoned := [64] }, thr [], pload 0 k 4 (dest1 3 tagN32 4 false),
    pload 1 k 1 (dest1 3 tagI32 1 true), pload 2 k 2 (dest1 3 tagI32 2 true), pload 3 k 8 (dest64 8),
    pload 4 16 4 (dest1 3 tagN32 4 false), pload 5 64 4 (dest1 3 tagN32 4 false), by decide⟩

/-- A pending store of thread 0. -/
def pstore (id k : Nat) (f : FullOp) (rel : Option Scope) : PStore :=
  { id := id, who := r0, run := 0, core := 0, op := .store (.key k) [1, 2] f rel, rel := 0, loads := [], counted := true,
    monitor := false, age := 0, spilled := false, remote := none }

/-- Stores to scratchpad with each effect on the full/empty bit, to HBM, and a release of DV scope. -/
theorem witness_StoresPerform : ∃ (s s' : State) (ps : List PStore) (p : PStore), Memory.wf s.mem ∧ s.waiters = [] ∧ s.lodges = [] ∧
    (∀ q ∈ s.stores, q.monitor = false) ∧
    (∀ p ∈ ps, s.stores.find? (fun x => x.id == p.id && x.remote.isNone) = some p ∧ s.storeReady p = true ∧ s.storeGone p = false) ∧
    ps.map (·.op) = [.store (.key (kScratch 0 64)) [1, 2] .keep none, .store (.key (kScratch 0 68)) [1, 2] .setEmpty none,
      .store (.key (kScratch 0 72)) [1, 2] .setFull none, .store (.key (kScratch 0 76)) [1, 2] .waitEmpty none,
      .store (.key 16) [1, 2] .keep none] ∧
    isScratch (kScratch 0 64) = true ∧ isScratch 16 = false ∧ Memory.wf s'.mem ∧ s'.waiters = [] ∧ s'.lodges = [] ∧
    (∀ q ∈ s'.stores, q.monitor = false) ∧ s'.stores.find? (fun x => x.id == p.id && x.remote.isNone) = some p ∧
    s'.storeReady p = true ∧ s'.storeGone p = false ∧ p.op = .store (.key 32) [1, 2] .keep (some .dv) ∧ isScratch 32 = false ∧ Scope.dv.wide = true :=
  let ps := [pstore 0 (kScratch 0 64) .keep none, pstore 1 (kScratch 0 68) .setEmpty none, pstore 2 (kScratch 0 72) .setFull none,
             pstore 3 (kScratch 0 76) .waitEmpty none, pstore 4 16 .keep none]
  ⟨{ st [] with stores := ps, full := [kScratch 0 68] }, { st [] with stores := [pstore 5 32 .keep (some .dv)] }, ps,
    pstore 5 32 .keep (some .dv), by decide⟩

/-- A cwbinv that may be performed, of a line that its home slice holds written, and of one that none holds. -/
theorem witness_StoresPerform_lines : ∃ (s s1 : State) (p : PStore), asorted s.l2 ∧ asorted s1.l2 ∧ s.sliceHas 16 = true ∧
    s.back = [(17, 5)] ∧ s1.sliceHas 16 = false ∧ p.op = .cache .cwbinv (.key 16) ∧
    ∀ x ∈ [s, s1], x.stores.find? (fun y => y.id == p.id && y.remote.isNone) = some p ∧ x.storeReady p = true ∧
      (∀ b ∈ x.back, x.sliceHas b.1 = true) ∧ x.waiters = [] ∧ ∀ q ∈ x.stores, q.monitor = false :=
  let p : PStore := { pstore 6 16 .keep none with op := .cache .cwbinv (.key 16) }
  ⟨{ st [] with stores := [p], l2 := [(0, true)], back := [(17, 5)] }, { st [] with stores := [p] }, p, by simp [asorted],
    by simp [asorted, st, State.reset], by decide⟩

/-- What a performed cwbinv leaves of a line: the home slice lets it go, and the backing memory has its byte (R166). -/
theorem test_cwbinv : (match exec (.storePerform 6 false) { st [] with
      stores := [{ pstore 6 16 .keep none with op := .cache .cwbinv (.key 16) }], l2 := [(0, true)], back := [(17, 5)], mem := [(17, 9)] } with
    | .next s => some (s.sliceHas 16, s.backByte 17, s.mem.read 17)
    | _ => none) = some (false, 9, 9) := by decide

/-- A released run with a committing instruction. -/
def heldRun (c : Option Cmd) : HeldRun :=
  { id := 4, who := r0, seq := 0, core := 0, snap := archOf [], rel := 0, cmd := c, mates := [], met := 0, acc := none }

theorem witness_AtomicsAct : ∃ (s : State) (h : HeldRun) (c : Cmd) (t : Thread) (k : Nat), c.loc = some (.key k) ∧
    isScratch k = true ∧ s.thread h.who = some t ∧ t.status = .running ∧ t.arch.frame = none ∧ s.waiters = [] ∧
    (∀ q ∈ s.stores, q.monitor = false) ∧ Memory.wf s.mem ∧ (∀ i < 8, s.isPoisoned (k + i) = false) ∧ t.deferred = none ∧
    ∃ i < 4, ({ s with poisoned := [codeword k] } : State).isPoisoned (k + i) = true :=
  let c : Cmd := { op := .atom .add .dv, d := 3, words := [1, 2, 3, 4], loc := some (.key (kScratch 0 64)), dests := [3],
                   cls := .loads }
  ⟨st [], heldRun (some c), c, thr [], kScratch 0 64, by decide⟩

/-- Rendezvous words with two arrivals, with a last arrival and no bytes, and with none. -/
theorem witness_RendezvousArrivals : ∃ (s : State) (k1 k2 k3 : Nat), Memory.wf s.mem ∧ s.waiters = [] ∧
    (∀ q ∈ s.stores, q.monitor = false) ∧ (∀ k ∈ [k1, k2, k3], ∀ h ∈ s.rvHolds, h.key ≠ k) ∧ (s.rvRead k1).arrivals = 2 ∧
    (s.rvRead k2).arrivals = 1 ∧ (s.rvRead k2).bytes = 0 ∧ (s.rvRead k3).arrivals = 0 :=
  let w := fun (n : Nat) => bytesAt (kScratch 0 n) (natLe 8 (RvWord.toNat { phase := false, arrivals := n / 64, bytes := 0 }))
  ⟨{ st [] with mem := Memory.writeN (Memory.writeN [] (kScratch 0 64) ((w 64).map (·.2))) (kScratch 0 128) ((w 128).map (·.2)) },
    kScratch 0 128, kScratch 0 64, kScratch 0 192, by decide⟩


/-- A frame with a fault. -/
def frame0 : Frame :=
  { fault := some (plainFault .illegal), pc := 64, foff := 1, regs := (archOf [(3, n32 7)]).regs, preds := 5, ix := 2, fflags := 0,
    rm := .rne, xcount := 0, sup := false, rstack := [], lpad := none, fseq := 0 }

def thrTrap : Thread := { thr [] with arch := { archOf [] with depth := 1, frame := some frame0 } }

/-- A thread outside a handler and one in a handler; a frame to return to. -/
theorem witness_FaultsAndReturns : ∃ (s s' : State) (r : TRef) (t t' : Thread) (g : Wg) (f : FaultInfo) (fr : Frame) (l : Launch),
    s.thread r = some t ∧ s.wg r.wg = some g ∧ r.acc = false ∧ f.code ≠ .pmemgrow ∧ t.arch.depth = 0 ∧ 10 ≤ g.allot ∧
    s'.thread r = some t' ∧ s'.wg r.wg = some g ∧ t'.arch.depth ≠ 0 ∧ asorted s'.threads ∧ s'.launch g.launch = some l ∧
    t'.arch.frame = some fr ∧ asorted fr.regs.cells :=
  ⟨st [], { stT thrTrap with launches := [(0, launch0)] }, r0, thr [], thrTrap, wg0, plainFault .illegal, frame0, launch0, st_thread [],
    st_wg [], rfl, by decide, by decide, by decide, thread_of rfl, wg_of rfl, by decide, by simp [asorted, stT],
    by simp [State.launch, wg0, fetchWg, alook], rfl, by simp [asorted, frame0, archOf]⟩

/-- A ready thread that has a fault to take. -/
theorem witness_FaultsAndReturns_deferred : ∃ (s : State) (r : TRef) (t : Thread) (e : FaultInfo) (at' v : Nat), s.thread r = some t ∧
    r.acc = false ∧ (∃ g, s.wg r.wg = some g) ∧ t.deferred = some e ∧ t.status = .ready at' v ∧ t.arch.depth = 0 ∧
    e.code ≠ .pmemgrow :=
  ⟨stT { thr [] with deferred := some (plainFault .uncorr), status := .ready 0 0 }, r0, _, plainFault .uncorr, 0, 0, stT_thread _, rfl,
    ⟨wg0, stT_wg _⟩, rfl, rfl, rfl, by decide⟩

/-- A run before and at its release; one with trap 5. -/
theorem witness_ReleaseOfRuns : ∃ (s s' s'' : State) (id : Nat) (h h' : HeldRun) (c : Cmd) (t t' : Thread),
    s.held.find? (fun h => h.id == id) = some h ∧ s.clock < h.rel ∧ s'.held.find? (fun h => h.id == id) = some h ∧ h.rel ≤ s'.clock ∧
    (∀ x ∈ s'.held, x.who = h.who → x.id < id → x.cmd = none) ∧ s'.waiters = [] ∧ s'.openMeetings h.who.wg = [] ∧
    s'.cur = none ∧ h.exits = false ∧
    s'.thread h.who = some t ∧ h.who.tid < 512 ∧ h.who.acc = false ∧ h.cmd = none ∧ t.status = .running ∧
    s''.held.find? (fun h => h.id == id) = some h' ∧ h'.rel ≤ s''.clock ∧
    (∀ x ∈ s''.held, x.who = h'.who → x.id < id → x.cmd = none) ∧ s''.waiters = [] ∧ s''.openMeetings h'.who.wg = [] ∧
    s''.cur = none ∧ h'.exits = false ∧ s''.heldMay h' c = true ∧ s''.heldBehind h' c = false ∧
    s''.thread h'.who = some t' ∧ h'.who.tid < 512 ∧ h'.who.acc = false ∧ h'.cmd = some c ∧ c.op = .trap 5 ∧
    t'.status = .awaiting id ∧ t'.post = .ready 0 0 ∧ t'.stop = none ∧ t'.deferred = none :=
  let h := { heldRun none with rel := 320 }
  let c : Cmd := { op := .trap 5 }
  let h' := { heldRun (some c) with rel := 320 }
  let t' := { thr [] with status := .awaiting 4, post := .ready 0 0 }
  ⟨{ st [] with held := [h], clock := 319 }, { st [] with held := [h], clock := 320, cur := none },
    { stT t' with held := [h'], clock := 320, cur := none }, 4, h,
    h', c, thr [], t', by decide⟩

/-- What a fetch decodes to, a fault that it has, and the address that it misses. -/
noncomputable def fetchedInstr (x : FetchRes) : Option (Except DecErr (Instr × Nat)) :=
  match x with
  | .ok bs _ => some (decodeBytes bs)
  | _ => none
def fetchFault (x : FetchRes) : Option FaultInfo :=
  match x with
  | .fault f => some f
  | _ => none
def fetchMiss (x : FetchRes) : Option DWord :=
  match x with
  | .miss a => some a
  | _ => none

/-- A nop where quadrant 0 fetches the next instruction of a thread at PC a; after 24 instructions of its run. -/
def stF (a : DWord) (n : Nat) : State :=
  let t := thr []
  { st [] with
    threads := [(0, { t with arch := { t.arch with pc := a }, run := { t.run with count := n } })]
    mem := [(0, 0x3D), (64, 0x3F), (67, 0xF0)]
    quads := [(0, { active := some { todo := [r0], done := [], waitX := [] }, part := some 0, home := some 0 })]
    sched := [.issue 0] }

theorem witness_StepRunsTheDecodedInstruction : ∃ (s s1 s2 s3 s4 : State) (q : Nat) (r : TRef) (gr : Group),
    (∀ x ∈ [s, s1, s2, s3, s4], x.sched = [.issue q] ∧ (x.quad q).group false = some gr) ∧ gr.todo = [r] ∧
    (∀ x ∈ [s, s2, s3, s4], ((x.passTo (x.quad q).slot).thread r).map (fun t => (t.run.count, t.deferred, t.arch.lpad, t.run.cmark)) =
      some (0, none, none, none)) ∧
    ((s1.passTo (s1.quad q).slot).thread r).map (fun t => t.run.count) = some 24 ∧
    fetchedInstr ((s.passTo (s.quad q).slot).fetchAt r 0) = some (.ok (.nop, 4)) ∧
    (fetchedInstr ((s2.passTo (s2.quad q).slot).fetchAt r 64)).map (fun x => x.isOk) = some false ∧
    (fetchFault ((s3.passTo (s3.quad q).slot).fetchAt r 0x200000000000000)).isSome = true ∧
    fetchMiss ((s4.passTo (s4.quad q).slot).fetchAt r 65536) = some 65536 :=
  ⟨stF 0 0, stF 0 24, stF 64 0, stF 0x200000000000000 0, stF 65536 0, 0, r0, { todo := [r0], done := [], waitX := [] }, by decide⟩

/-- A group of two threads at a nop, and one of which the second has a register outstanding that its add reads. -/
theorem witness_StepRunsTheDecodedInstruction_groups : ∃ (s s' : State) (q : Nat) (r : TRef) (rs : List TRef) (gr : Group) (t : Thread),
    (∀ x ∈ [s, s'], x.sched = [.issue q] ∧ (x.quad q).group false = some gr ∧ (x.passTo (x.quad q).slot).thread r = some t) ∧
    gr.todo = r :: rs ∧ rs ≠ [] ∧ gr.done = [] ∧ (s.passTo (s.quad q).slot).groupStalls exec q gr = false ∧
    (s'.passTo (s'.quad q).slot).groupStalls exec q gr = true := by
  let r1 : TRef := { wg := 0, tid := 1 }
  let gr : Group := { todo := [r0, r1], done := [], waitX := [] }
  let s : State := { stF 0 0 with
    threads := [(0, thr [(0, i32 1)]), (r1.key, thr [(0, i32 1)])]
    quads := [(0, { active := some gr, part := some 0, home := some 0 })] }
  let s' : State := { s with threads := [(0, thr [(0, i32 1)]), (r1.key, { thr [(0, i32 1)] with busy := [0] })], mem := [(0, 1)] }
  exact ⟨s, s', 0, r0, [r1], gr, thr [(0, i32 1)], by decide⟩

theorem witness_StepRunsTheDecodedInstruction_events : ∃ (s s' : State) (i : Instr) (n : Nat), s.sched = [.event i] ∧
    s'.sched = [.tick n] ∧ s'.sys.power.gated = false ∧ ({ s with sched := [.slice 0 true] } : State).sched = [.slice 0 true] :=
  ⟨{ st [] with sched := [.event .thermalTrip] }, { st [] with sched := [.tick 5] }, .thermalTrip, 5, rfl, rfl, rfl, rfl⟩

/-- A page without X, a byte of a page with poisoned data and one without, and addresses that no fetch has. -/
theorem witness_FetchesReadMemory : ∃ (s s' : State) (r : TRef) (t : Thread) (g : Wg) (a b : DWord) (e e' : TlbEntry),
    s.thread r = some t ∧ s.wg r.wg = some g ∧ s'.thread r = some t ∧ s'.wg r.wg = some g ∧ inScratchRange 0xFFFFFF0000000000 = true ∧
    isCanonical 0x200000000000000 = false ∧ inScratchRange a = false ∧ isCanonical a = true ∧ inScratchRange b = false ∧
    isCanonical b = true ∧ s.tlbFind (s.coreOf r) g.part b = none ∧ s.tlbFind (s.coreOf r) g.part a = some e ∧
    s.checkPage g.part t.arch.sup .fetch e.trans a = .ok (.key 30) ∧ s.isPoisoned 30 = false ∧
    alook (l1Key (s.coreOf r) 30) s.fetched = none ∧ s.isPoisoned 32 = true ∧
    s.checkPage g.part t.arch.sup .fetch e.trans (a + 2) = .ok (.key 32) ∧ s'.tlbFind (s'.coreOf r) g.part a = some e' ∧
    e'.trans.grants t.arch.sup .fetch = false :=
  let e : TlbEntry := { core := 0, part := 0, gen := 0, base := 0, size := 65536, pa := 0, tgt := 0, mod := 0, r := true, w := true,
                        x := true, sup := false }
  ⟨{ st [] with poisoned := [32] }, { st [] with tlb := [{ e with x := false }] }, r0, thr [], wg0, 30, 65536, e, { e with x := false },
    by decide⟩

/-- A page of another module, with a unit that has arrived and one that has not. -/
theorem witness_FetchesReadMemory_far : ∃ (s : State) (r : TRef) (t : Thread) (g : Wg) (a b : DWord) (e : TlbEntry) (m pa pb : Nat) (u : Half),
    s.thread r = some t ∧ s.wg r.wg = some g ∧ (∀ x ∈ [a, b], inScratchRange x = false ∧ isCanonical x = true ∧
      s.tlbFind (s.coreOf r) g.part x = some e) ∧ s.checkPage g.part t.arch.sup .fetch e.trans a = .ok (.remote m pa) ∧
    alook (l1Key (s.coreOf r) (kFar m pa)) s.fetched = none ∧ s.checkPage g.part t.arch.sup .fetch e.trans b = .ok (.remote m pb) ∧
    alook (l1Key (s.coreOf r) (kFar m pb)) s.fetched = some u := by
  let s : State := { st [] with tlb := [farEntry], fetched := [(l1Key 0 (kFar 7 32), 5)] }
  have hk : ∀ n, alook (l1Key 0 (kFar 7 n)) s.fetched = if kFar 7 32 = kFar 7 n then some 5 else none := by
    intro n
    have hs : s.fetched = [(l1Key 0 (kFar 7 32), 5)] := rfl
    simp [hs, alook, l1Key]
  have hf : alook (l1Key 0 (kFar 7 30)) s.fetched = none := by rw [hk, if_neg (by simp [kFar])]
  have ha : alook (l1Key 0 (kFar 7 32)) s.fetched = some 5 := by rw [hk, if_pos rfl]
  have h0 : s.coreOf r0 = 0 := by decide
  have hx : (inScratchRange 30 = false ∧ isCanonical 30 = true ∧ s.tlbFind 0 0 30 = some farEntry) ∧
      inScratchRange 32 = false ∧ isCanonical 32 = true ∧ s.tlbFind 0 0 32 = some farEntry := by decide
  have hp : s.checkPage 0 (thr []).arch.sup .fetch farEntry.trans 30 = .ok (.remote 7 30) ∧
    s.checkPage 0 (thr []).arch.sup .fetch farEntry.trans 32 = .ok (.remote 7 32) := by decide
  refine ⟨s, r0, thr [], wg0, 30, 32, farEntry, 7, 30, 32, 5, thread_of rfl, wg_of rfl, ?_, hp.1, h0 ▸ hf, hp.2, h0 ▸ ha⟩
  intro x hm
  have : x = 30 ∨ x = 32 := by simpa using hm
  rcases this with rfl | rfl
  · exact h0 ▸ hx.1
  · exact h0 ▸ hx.2

/-- An instruction of each length, with fields at the ends of their ranges. -/
theorem witness_DecodeOfEncode : ∃ i j : Instr, i.wellFormed = true ∧ i.encoded = true ∧ i.size = 2 ∧ j.wellFormed = true ∧
    j.encoded = true ∧ j.size = 4 :=
  ⟨.mov16 31 63, .ori 127 0 (-1024), by decide⟩

theorem witness_StepsKeepMemoryCanonical : ∃ s : State, Memory.wf s.mem ∧ s.sched = [.event (.powerCapSet 5)] :=
  ⟨{ State.reset with mem := [(0, 1), (1, 2)], sched := [.event (.powerCapSet 5)] }, by decide⟩

/-! ### Memory units, issue, engines -/

def stP (regs : List (Nat × Word)) : State := { st [] with parts := [(0, part0 regs)], mem := pageTable }

/-- A waiter on a word. -/
def waiter0 : Waiter :=
  { id := 7, who := r0, seq := 0, core := 0, key := kScratch 0 64, loc := .key (kScratch 0 64), kind := .ldsFull false, dests := [],
    cls := .loads, age := 0, spilled := false, addr := 0 }

/-- Dirty bytes of two lines, a note of the first, and a line without one. -/
theorem witness_MemoryUnits : ∃ (s : State) (core line k j : Nat) (c : L1Cell), Memory.wf s.mem ∧ asorted s.l1 ∧ s.waiters = [] ∧
    (∀ q ∈ s.stores, q.monitor = false) ∧ alook (l1Key core k) s.l1 = some c ∧ k < 2 ^ 70 ∧ c.dirty = true ∧ c.rel ≤ s.clock ∧
    lineKey k = lineKey line ∧ alook (l1Key core j) s.l1 = some c ∧ j < 2 ^ 70 ∧ lineKey j ≠ lineKey line ∧
    (s.notes.any fun n => n.core == core && n.line == lineKey line) = true ∧
    ∀ n ∈ s.notes, n.core = core → n.line ≠ lineKey 256 := by
  refine ⟨{ st [] with l1 := [(l1Key 0 16, ⟨5, true, 0, 20⟩), (l1Key 0 200, ⟨5, true, 0, 20⟩)], notes := [{ line := 0, core := 0 }] }, 0, 5,
    16, 200, ⟨5, true, 0, 20⟩, by decide, ?_, rfl, ?_⟩
  · simp [asorted, l1Key]
  · decide

/-- The entry of that waiter. -/
def entry0 : TableEntry := { age := 0, who := r0, id := 7, spilled := false }

theorem table0 (s : State) (n : Nat) (hw : s.waiters = List.replicate n waiter0) (hs : s.stores = []) (hr : s.rvHolds = [])
    (hm : s.mazes = []) : s.tableOf 0 = List.replicate n entry0 := by
  simp [State.tableOf, hw, hs, hr, hm, List.map_replicate, waiter0, entry0]

theorem table0_facts (s : State) (n : Nat) (hn : n ≠ 0) (hw : s.waiters = List.replicate n waiter0) (hs : s.stores = [])
    (hr : s.rvHolds = []) (hm : s.mazes = []) (hg : s.wgs = [(0, wg0)]) :
    ((s.tableOf 0).filter fun e => !e.spilled).length = n ∧ (s.tableOf 0).filter (·.spilled) = [] ∧
    entry0 ∈ (s.tableOf 0).filter (fun e => !e.spilled) ∧
    s.tableSpillAt entry0 = (s.part 0).spillbase + BitVec.ofNat 64 (0x400000 + 512 * wg0.slotOf r0) := by
  have h := table0 s n hw hs hr hm
  have he : s.wg r0.wg = some wg0 := wg_of hg
  have hq : coreOfQuad 0 = 0 := by decide
  refine ⟨by simp [h, entry0], by simp [h, entry0], by simp [h, entry0, List.mem_replicate, hn], ?_⟩
  have hf : ((List.replicate n entry0).filter fun x => decide (x.who = entry0.who ∧ x.spilled = true)) = [] := by simp [entry0]
  have hp : wg0.part = 0 ∧ wg0.quad = 0 := by decide
  have hr : entry0.who = r0 := rfl
  simp only [State.tableSpillAt, hr, he, hp.1, hp.2, hq, h]
  rw [hr] at hf
  rw [hf]
  simp

/-- A table that is not full, a full one with its spill area mapped and one without, a spilled entry whose condition does not
hold, with room and without, and one whose condition holds. -/
theorem witness_MemoryUnits_table : ∃ (s s1 s2 s3 s4 : State) (e : TableEntry),
    ((s.tableOf 0).filter fun e => !e.spilled).length = 4095 ∧ ((s1.tableOf 0).filter fun e => !e.spilled).length = 4096 ∧
    e ∈ (s1.tableOf 0).filter (fun e => !e.spilled) ∧ (∃ l, s1.engineAt (s1.partOf e.who) true .store (s1.tableSpillAt e) = .ok l) ∧
    ((s2.tableOf 0).filter fun e => !e.spilled).length = 4096 ∧ e ∈ (s2.tableOf 0).filter (fun e => !e.spilled) ∧
    (∃ c, s2.engineAt (s2.partOf e.who) true .store (s2.tableSpillAt e) = .error c) ∧ (s1.tableOf 0).filter (·.spilled) = [] ∧
    (s3.tableOf 0).filter (·.spilled) ≠ [] ∧ (∀ e ∈ (s3.tableOf 0).filter (·.spilled), s3.spilledReady e = false) ∧
    ((s3.tableOf 0).filter fun e => !e.spilled).length < 4096 ∧
    (s4.tableOf 0).filter (·.spilled) = [{ e with spilled := true }] ∧ s4.spilledReady { e with spilled := true } = true := by
  let f0 : State := { stP [] with waiters := List.replicate 4095 waiter0 }
  let f1 : State := { stP [] with waiters := List.replicate 4096 waiter0 }
  let f2 : State := { st [] with waiters := List.replicate 4096 waiter0 }
  have h0 := table0_facts f0 4095 (by decide) rfl rfl rfl rfl rfl
  have h1 := table0_facts f1 4096 (by decide) rfl rfl rfl rfl rfl
  have h2 := table0_facts f2 4096 (by decide) rfl rfl rfl rfl rfl
  refine ⟨f0, f1, f2, { stP [] with waiters := [{ waiter0 with spilled := true }] },
    { stP [] with waiters := [{ waiter0 with spilled := true }], full := [kScratch 0 64] }, entry0, h0.1, h1.1, h1.2.2.1,
    ⟨.key 0x400000, ?_⟩, h2.1, h2.2.2.1, ⟨.xlate, ?_⟩, h1.2.1, by decide, by decide, by decide, by decide, by decide⟩
  · rw [h1.2.2.2]
    decide
  · rw [h2.2.2.2]
    decide

/-- Codewords that are not poisoned, in a module without partitions, and one in the range of a partition. -/
theorem witness_MemoryUnits_scrub : ∃ (s s' : State) (line i p : Nat) (x : Part), i < 4 ∧ lineKey line + 32 * i < hbmBytes ∧
    s.poisoned.contains (codeword (lineKey line + 32 * i)) = false ∧ (∀ x ∈ s.parts, x.2.defined = false) ∧
    s'.parts = [(p, x)] ∧ x.defined = true ∧ x.lim.hbmBase ≤ lineKey line + 32 * i ∧
    lineKey line + 32 * i < x.lim.hbmBase + x.lim.hbmSize :=
  ⟨{ State.reset with poisoned := [32] }, stP [], 130, 3, 0, part0 [], by decide⟩

/-- Walks that find their leaf, that find none and that meet an uncorrectable entry, and one that waits for a walker. -/
theorem witness_MemoryUnits_walk : ∃ (s s' s1 s2 : State) (r : TRef) (t : Thread) (g : Wg) (a b : DWord) (w w' : Walk) (k : Access),
    (∀ x ∈ [(s, a, w), (s', b, w'), (s1, a, w), (s2, a, w)], x.1.thread r = some t ∧ x.1.wg r.wg = some g ∧
      x.1.walks.find? (fun y => y.id == x.2.2.id) = some x.2.2 ∧ x.2.2.who = [(r, x.2.1, k)] ∧
      t.status = .parked (.walk x.2.2.id)) ∧ r.acc = false ∧
    (∀ x ∈ [(s, w), (s', w'), (s1, w)], x.2 ∈ x.1.walking (x.2.core / 96)) ∧ s.walkBad g.part a = false ∧
    (s.walkVa g.part a).isSome = true ∧ s'.walkBad g.part b = false ∧ s'.walkVa g.part b = none ∧ s1.walkBad g.part a = true ∧
    ∀ x ∈ s2.walking (w.core / 96), x.id ≠ w.id :=
  let w : Walk := { id := 3, core := 0, part := 0, gen := 0, page := 1, who := [(r0, 65536, .load)] }
  let w' : Walk := { id := 3, core := 0, part := 0, gen := 0, page := 0, who := [(r0, 0x40000000, .load)] }
  let t := { thr [] with status := .parked (.walk 3) }
  let s : State := { stP [] with threads := [(0, t)], walks := [w] }
  ⟨s, { s with walks := [w'] }, { s with poisoned := [0x2000] },
    { s with walks := ((List.range 64).map fun i => { w with id := i + 4, page := i + 2 }) ++ [w] }, r0, t, wg0, 65536, 0x40000000, w, w',
    .load, by decide⟩

/-- A private region that grows by one page. -/
theorem witness_MemoryUnits_grow : ∃ (s : State) (r : TRef) (t : Thread) (g : Wg) (a high : DWord), s.thread r = some t ∧
    s.wg r.wg = some g ∧ r.acc = false ∧ t.status = .parked (.pmemgrow a) ∧ s.cur = none ∧ s.waiters = [] ∧ (∀ q ∈ s.stores, q.monitor = false) ∧
    high.toNat % 65536 = 0 ∧ g.hwm.toNat ≤ high.toNat ∧ a.toNat < high.toNat ∧ high.toNat ≤ g.pbase.toNat + g.pres ∧
    high.toNat = g.hwm.toNat + 65536 ∧ (s.walkVa g.part (BitVec.ofNat 64 (g.hwm.toNat + 65536 * 0))).isSome = true :=
  let t := { thr [] with status := .parked (.pmemgrow 0x10FFFF) }
  let g := { wg0 with pbase := 0x100000, pres := 0x20000, hwm := 0x100000 }
  ⟨{ stP [] with threads := [(0, t)], wgs := [(0, g)], cur := none }, r0, t, g, 0x10FFFF, 0x110000, by decide⟩

/-- An idle quadrant with a resumption group, with two bins, and with nothing; a thread that has yielded. -/
theorem witness_GroupsAndAccessThreads : ∃ (s s1 s2 s3 : State) (q : Nat) (x : Nat × List TRef) (b : Nat × Bin) (r : TRef) (t : Thread)
    (g : Wg) (y : Yield), (s.quad q).active = none ∧ (s.quad q).resume.find? (fun g => g.2.all fun r => s.mayIssue r.wg) = some x ∧
    (∀ y ∈ [s, s1, s2], (y.quad q).slot ≤ y.clock) ∧ s3.clock < (s3.quad q).slot ∧ (s3.quad q).active = none ∧ s.cur = none ∧
    (s1.quad q).active = none ∧ (s1.quad q).resume.find? (fun g => g.2.all fun r => s1.mayIssue r.wg) = none ∧
    selectBin s1.clock (s1.quad q).age
      ((s1.quad q).bins.filter fun b => s1.mayIssue b.2.key.1 && !b.2.members.isEmpty) = some b ∧ (s2.quad q).active = none ∧
    (s2.quad q).resume.find? (fun g => g.2.all fun r => s2.mayIssue r.wg) = none ∧
    ((s2.quad q).bins.filter fun b => s2.mayIssue b.2.key.1 && !b.2.members.isEmpty) = [] ∧ s.wg r.wg = some g ∧ g.quad = q ∧
    g.preempting = false ∧ s.thread r = some t ∧ r.acc = false ∧ (s.quad q).yields.find? (fun y => y.who == r) = some y ∧
    y.recorded = [] :=
  let b1 : Nat × Bin := (0, { key := (0, 64, 0), members := [(r0, 5)] })
  let b2 : Nat × Bin := (1, { key := (0, 96, 0), members := [({ wg := 0, tid := 1 }, 3), ({ wg := 0, tid := 2 }, 9)] })
  let y : Yield := { who := r0, recorded := [] }
  let t := { thr [] with status := .yielded }
  ⟨{ st [] with threads := [(0, t)], quads := [(0, { resume := [(1, [{ wg := 0, tid := 1 }])], yields := [y] })], cur := none },
    { st [] with quads := [(0, { bins := [b1, b2] })] }, { st [] with quads := [(0, {})] },
    { st [] with quads := [(0, { slot := 1 })] }, 0, (1, [{ wg := 0, tid := 1 }]), b2, r0, t,
    wg0, y, by decide⟩

/-- A ready access thread alone in its lane set, and an aload of it. -/
theorem witness_GroupsAndAccessThreads_access : ∃ (s : State) (r : TRef) (t : Thread) (g : Wg) (l : PLoad) (id k : Nat),
    s.wg r.wg = some g ∧ s.thread r = some t ∧ r.acc = true ∧ r.tid < 512 ∧ (s.quad g.quad).acc = none ∧ g.saved = false ∧
    g.preempting = false ∧ g.started = true ∧ t.status = .ready 0 0 ∧ s.threads.Pairwise (fun x y => x.1 < y.1) ∧
    (∀ x ∈ s.threadsOf r.wg, x.1.acc = true → x.1.tid / 32 = r.tid / 32 → x.1 ≠ r → x.2.status ≠ .woken) ∧
    s.threadsOf r.wg = [(r0, thr []), (r, t)] ∧
    s.loads.find? (fun l => l.id == id && l.who.acc) = some l ∧ l.who = r ∧ l.loc = .key k ∧ l.len = 4 ∧ (s.loadBytes l).2 = false ∧
    l.id = id ∧ s.loadGone l = false ∧ s.loadWaits l = false ∧ alook (oqKey r.tid 2) g.oq = some [(none, id)] ∧ ∀ p < 4, p ≠ 2 → alook (oqKey r.tid p) g.oq = none :=
  let t := { thrA [] acc0 with status := .ready 0 0 }
  let g := { wg0 with access := 0x100, oq := [(oqKey 0 2, [(none, 6)])] }
  let l := { pload 6 16 4 [] with who := ra }
  ⟨{ st [] with threads := [(0, thr []), (1, t)], wgs := [(0, g)], loads := [l] }, ra, t, g, l, 6, 16, by decide⟩

/-- A streamer command of thread 0 from an empty block. -/
def copy0 : Copy :=
  { id := 5, who := r0, seq := 0, part := 0, core := 0, quad := 0, sup := true, kind := 0, blk := CopyBlock.parse (List.replicate 64 0),
    d := 3, rvKey := none, compKey := none, started := false, writes := [], sentWrites := [], code := 0, lost := [], comp := 0,
    aborted := false, data := [], reducing := false }

def byte0 (k : Nat) (v : Byte) (sat : Bool) : CopyByte :=
  { loc := .key (kScratch 0 k), val := v, blk := (1, 64), row := 0, sat := sat, src := none }
def write0 : CopyWrite :=
  { id := 0, bytes := [byte0 64 1 false, byte0 65 2 true], blocks := [(1, 64)], fail := none, short := [] }

/-- The key of a byte of scratchpad that a command is to write. -/
def byteKey (b : CopyByte) : Nat :=
  match b.loc with
  | .key k => k
  | _ => 0

/-- Commands that a channel starts, that was aborted, with a last write, without one, with one byte, and with rows of which bytes
are out. -/
theorem witness_CommandsRun : ∃ (s s1 s2 s3 s4 s5 : State) (c c1 c2 c3 c4 c5 : Copy) (w : CopyWrite) (b : CopyByte) (t : Thread) (g : Wg),
    (∀ x ∈ [s, s1, s2, s3, s4, s5], x.waiters = [] ∧ (∀ q ∈ x.stores, q.monitor = false) ∧ Memory.wf x.mem ∧ x.claims = []) ∧
    (∀ x ∈ [(s, c), (s1, c1), (s2, c2), (s3, c3), (s4, c4), (s5, c5)], x.1.wg x.2.who.wg = some g ∧ x.1.thread x.2.who = some t) ∧
    (∀ x ∈ [(s, c), (s1, c1)], x.1.copies.find? (fun y => y.core == x.2.core && !y.started) = some x.2 ∧
      (x.1.copies.filter fun y => y.core == x.2.core && y.started).length < 8 ∧ x.1.farPending x.2.id = false ∧ x.2.blk.acq = false) ∧
    c.aborted = false ∧ s.copyFar g c = [] ∧ c.kind ≠ 8 ∧ c1.aborted = true ∧
    (∀ x ∈ [(s2, c2), (s3, c3), (s4, c4), (s5, c5)], x.1.copies.find? (fun y => y.id == x.2.id) = some x.2 ∧ x.2.started = true) ∧
    c2.writes = [w] ∧ c2.rvKey = none ∧
    (∀ b ∈ w.bytes, b.loc = .key (byteKey b) ∧ isScratch (byteKey b) = true ∧ s2.still c2.who (byteKey b) 1 = true) ∧
    (w.bytes.map byteKey).Nodup ∧ w.bytes ≠ [] ∧ (w.bytes.any fun b => b.sat) = true ∧ w.fail = none ∧
    (c4.writes.map (·.bytes)) = [[b]] ∧ c4.rvKey = none ∧ b.src = none ∧ c4.blk.rowwise = false ∧ b.loc = .key (byteKey b) ∧
    isScratch (byteKey b) = true ∧
    c5.writes = [w] ∧ c5.rvKey = none ∧ c5.blk.rowwise = true ∧ (∀ b ∈ w.bytes, b.row ∈ c5.rowsOut) ∧ c3.writes = [] ∧
    c3.sentWrites = [] ∧ c3.reducing = false ∧ c3.comp = 0 ∧ c3.blk.rel = false ∧ c3.blk.cp = false ∧ t.status = .running ∧
    t.arch.frame = none :=
  let c1 := { copy0 with aborted := true }
  let c2 := { copy0 with started := true, writes := [write0] }
  let c3 := { copy0 with started := true }
  let c4 := { c3 with writes := [{ write0 with bytes := [byte0 64 1 false] }] }
  let c5 := { c2 with blk := { copy0.blk with rscale := true, conv := true, errpol := true }, rowsOut := [0] }
  ⟨{ st [] with copies := [copy0] }, { st [] with copies := [c1] }, { st [] with copies := [c2] }, { st [] with copies := [c3] },
    { st [] with copies := [c4] }, { st [] with copies := [c5] }, copy0, c1, c2, c3, c4, c5, write0, byte0 64 1 false, thr [], wg0, by decide⟩

/-- A command whose source lies in another module. -/
theorem witness_CommandsRun_far : ∃ (s : State) (c : Copy) (t : Thread) (g : Wg), s.wg c.who.wg = some g ∧ s.thread c.who = some t ∧
    s.waiters = [] ∧ s.stores = [] ∧ Memory.wf s.mem ∧ s.copies.find? (fun x => x.core == c.core && !x.started) = some c ∧ s.claims = [] ∧
    s.farPending c.id = false ∧ c.blk.acq = false ∧ c.aborted = false ∧ s.copyFar g c ≠ [] :=
  let c := { copy0 with blk := { copy0.blk with count0 := 1 } }
  ⟨{ stP [] with mem := farTable, copies := [c] }, c, thr [], wg0, by decide⟩

/-- A committed operation on the array of 4 by 4 binary32 elements. -/
def tile0 : Tile := { v := true, rows := 4, cols := 4, tag := tagF32 }
def op0 (o : CmdOp) (ph : TPhase) : TileOp :=
  { id := 6, who := r0, seq := 0, run := 0, wg := 0, core := 0, sup := true,
    cmd := { op := o, words := [0, 0], block := List.replicate 64 0, cls := .tiles }, td := tile0, ta := tile0, tb := tile0, phase := ph,
    pass := 0, failed := false, stores := [], plan := {}, rel := 0 }

/-- A pass of op0 .pform that is held, with n bytes of what it replaced. -/
def hold0 (n : Nat) : PassHold :=
  { id := 2, core := 0, rel := 320, old := List.replicate n (0, 0), was := op0 .pform .running, tile := 0, before := {} }

theorem held0 (s : State) (n : Nat) (hp : s.passHolds = [hold0 n]) (hw : s.wgs = [(0, wg0)]) : s.heldBytes wg0.quad = n := by
  have h : s.wg 0 = some wg0 := wg_of hw
  have hq : wg0.quad = 0 := rfl
  simp [State.heldBytes, hp, hold0, op0, h, hq]

/-- Operations before their release and at it; one that runs a pass, with its hold buffer empty and full and with a word of its
tile claimed; a hold before and at its end; a TZERO, an MMA and a TST that are done. -/
theorem witness_ArrayRuns : ∃ (s s1 s2 s3 s4 s5 s6 s7 s8 : State) (o o2 o5 o6 o7 o8 : TileOp) (g : Wg) (h : PassHold) (t : Thread),
    ((∀ x ∈ [(s, o), (s1, o), (s2, o2), (s3, o2), (s5, o5), (s6, o6), (s7, o7), (s8, o8)],
        x.1.tileOps.find? (fun y => y.id == x.2.id) = some x.2 ∧ x.1.wg x.2.wg = some g) ∧
      s.tileMayStart o = false ∧ s1.tileMayStart o = true ∧ o.cmd.op = .mma) ∧
    (o2.phase = .running ∧ o2.pass < o2.passes ∧ s2.tileClaimed g o2 = false ∧ s2.heldBytes g.quad = 0) ∧
    s3.heldBytes g.quad = 81920 ∧ 81920 < s3.heldBytes g.quad + (s3.formPass g o2).1.length ∧
    (s3.tileClaimed g o2 = false ∧ s6.tileClaimed g o6 = true ∧ o6.phase = .running ∧ o6.pass < o6.passes ∧ o2.cmd.op = .pform) ∧
    (s4.passHolds.find? (fun x => x.id == h.id) = some h ∧ h.rel ≤ s4.clock ∧ s2.clock < 1) ∧
    (s5.thread o5.who = some t ∧ t.status = .running ∧ s5.tileDone o5 = true ∧ s5.claims = [] ∧ o5.cmd.op = .tzero ∧
      o5.cmd.dests = [] ∧ Memory.wf s5.mem) ∧
    (s7.tileDone o7 = true ∧ s7.claims = [] ∧ o7.cmd.op = .mma ∧ o7.phase = .running ∧ o7.arrival = none) ∧
    s8.tileDone o8 = true ∧ s8.claims = [] ∧ o8.cmd.op = .tst :=
  let q := { op0 .mma .queued with rel := 320 }
  let p := { op0 .pform .running with td := { tile0 with rows := 1, cols := 1 }, ta := { tile0 with rows := 1, cols := 1 } }
  let z := op0 .tzero .running
  let q6 := { p with cmd := { op := .pmarg, words := [0x780000, 0], cls := .tiles } }
  let m := { op0 .mma .running with pass := 100000 }
  let full : State := { st [] with tileOps := [p], passHolds := [hold0 81920] }
  ⟨{ st [] with tileOps := [q], clock := 319 }, { st [] with tileOps := [q], clock := 320 }, { st [] with tileOps := [p] },
    full, { st [] with passHolds := [hold0 3], clock := 320 }, { st [] with tileOps := [z] },
    { st [] with tileOps := [q6], claims := [(kScratch 0 0, r0)] }, { st [] with tileOps := [m] },
    { st [] with tileOps := [op0 .tst .running] }, q, p, z, q6, m, op0 .tst .running, wg0, hold0 3, thr [],
    by decide, by decide, held0 full 81920 rfl rfl, (by rw [held0 full 81920 rfl rfl]; decide), by decide, by decide, by decide,
    by decide, by decide⟩

/-- A sweep that gives potentials, and one that meets a NaN. -/
theorem witness_ArrayRuns_balance : ∃ (s s' : State) (o : TileOp) (g : Wg) (f h : List Nat),
    (∀ x ∈ [s, s'], x.tileOps.find? (fun y => y.id == o.id) = some o ∧ x.wg o.wg = some g) ∧ o.cmd.op = .balance ∧
    o.phase = .running ∧ o.plan.stopped = false ∧ g.saved = false ∧ (planSweep (s.planData g o.ta) o.ta.rows o.ta.cols).1 = some (f, h) ∧
    (planSweep (s'.planData g o.ta) o.ta.rows o.ta.cols).1 = none :=
  let o := { op0 .balance .running with ta := { tile0 with plan := true, rows := 1, cols := 1 } }
  let inf := [0, 0, 0x80, 0xFF]
  ⟨{ st [] with tileOps := [o], mem := putBytes [] (sideBytes wg0 0 (inf ++ inf)) },
    { st [] with tileOps := [o], mem := putBytes [] (accBytes wg0 0 [0, 0, 0xC0, 0x7F]) }, o, wg0, [0xFF800000], [0xFF800000], by decide⟩

/-- The block of a TGEN of one expert: counts at 0x100, a queue of four descriptors at 0x200, offsets at oaddr. -/
def genBlock (oaddr : Nat) : List Byte :=
  natLe 8 0x100 ++ natLe 2 1 ++ [1, 0] ++ natLe 4 1 ++ natLe 8 0x200 ++ natLe 4 4 ++ natLe 4 0 ++ natLe 8 oaddr ++ natLe 8 0 ++
    natLe 4 0 ++ natLe 4 0 ++ natLe 8 0

/-- A generator command with offsets, and one without whose one count is 3. -/
theorem witness_ArrayRuns_tgen : ∃ (s s' : State) (x x' : TGen) (g : Wg),
    (∀ z ∈ [(s, x), (s', x')], z.1.tgens = [z.2] ∧ z.1.wg z.2.who.wg = some g ∧ z.2.stage = 0 ∧ z.2.waits = [] ∧ z.1.claims = [] ∧
      z.1.farMissing z.2.id (z.1.genFar g z.2) = [] ∧ z.2.aborted = false ∧ (GenBlk.parse z.2.block).acq = false ∧ (GenBlk.parse z.2.block).rel = false ∧
      (GenBlk.parse z.2.block).cp = false) ∧
    (let b := GenBlk.parse x.block
     let a := (s.takeFresh).2.genRun g x b none
     let y := { x with stage := 2, count := a.1, code := a.2.1 }
     let w := (((a.2.2.dropFar x.id).modTgen x.id fun _ => { y with stage := 1 }).modTgen x.id fun _ => y).unitWrites g { y with stage := 1 }
       [(b.qaddr + 4, natLe 4 0), (b.qaddr, natLe 4 a.1)]
     a.1 = 2 ∧ a.2.2.wg x.who.wg = some g ∧ a.2.2.claims = [] ∧ a.2.2.tgens = s.tgens ∧ w.1 = true ∧ w.2.wg x.who.wg = some g ∧
       w.2.claims = [] ∧ w.2.tgens = [y]) ∧
    let b := GenBlk.parse x'.block
    let a := (s'.takeFresh).2.genCount g x' b false 0
    b.e = 1 ∧ b.oaddr = 0 ∧ (match a.1 with
      | .ok c => decide (c = 3)
      | .error _ => false) = true ∧
    (a.2.unitWrites g x' ((genLoop b [3]).descs.zipIdx.map fun d => (b.qaddr + BitVec.ofNat 64 (8 + 8 * d.2), natLe 8 d.1))).1 = true :=
  let x : TGen := { id := 8, who := r0, seq := 0, part := 0, sup := true, core := 0, block := genBlock 0x300, d := 3, aborted := false,
                    compKey := none }
  let x' := { x with block := genBlock 0 }
  ⟨{ stP [] with tgens := [x], mem := (0x100, 3) :: pageTable }, { stP [] with tgens := [x'], mem := (0x100, 3) :: pageTable }, x, x', wg0,
    by decide⟩

/-- A generator command whose counts lie in another module. -/
theorem witness_ArrayRuns_tgen_far : ∃ (s : State) (x : TGen) (g : Wg), s.tgens = [x] ∧ s.wg x.who.wg = some g ∧ x.stage = 0 ∧
    x.waits = [] ∧ s.claims = [] ∧ x.aborted = false ∧ s.farMissing x.id (s.genFar g x) ≠ [] :=
  let x : TGen := { id := 8, who := r0, seq := 0, part := 0, sup := true, core := 0, block := genBlock 0, d := 3, aborted := false,
                    compKey := none }
  ⟨{ stP [] with mem := farTable, tgens := [x] }, x, wg0, by decide⟩

/-- A queue and a stage set with a held record and none complete. -/
def mazeQ : MazeQueue := { qbase := kScratch 0 0x1000, ld := 1, head := 0, tail := 0, recs := [], takers := [] }
def rec0 : MazeRec := { addr := 0x780400, key := kScratch 0 0x400 }
def maze0 : MazeSet :=
  { clus := 0, num := 0, gen := 1, held := some (0, 0), part := 0, core := 0, sup := true, det := false, scope := 2, win := 4,
    seed := 1, lfsr := 1, stages := [{ q := mazeQ, eff := false, cost := 1, pass0 := 0, pass := 0, reports := 0, passes := 0, windows := 0 }],
    sink := mazeQ, heldRecs := [rec0], completing := [], posted := 2, sunk := 0, dropped := 0, failed := 0, closed := false }

/-- A paused set with a complete record; one with a held record and none complete; one with none held and a complete record, with
room in its sink and without; one whose record lies outside the ensemble's scratchpad; one with a claimed word to route by. -/
theorem witness_MazeAndLodgesRun : ∃ (s s1 s2 s3 s4 s5 : State) (m mS m2 m3 m4 : MazeSet) (rS r r' : MazeRec), s.maze 0 0 = some mS ∧
    s.mazePaused mS = true ∧ mS.completing = [rS] ∧ s.mazeOwns mS rS.key 64 = true ∧ s1.maze 0 0 = some m ∧
    s1.mazePaused m = false ∧ s1.claims = [] ∧ m.heldRecs = [r] ∧ m.completing = [] ∧ s5.maze 0 0 = some m ∧
    s5.mazeClaimed m m.heldRecs = true ∧
    s2.maze 0 0 = some m2 ∧ s2.mazePaused m2 = false ∧ s2.claims = [] ∧ m2.heldRecs = [] ∧ m2.completing = [r] ∧
    s2.mazeRoom m2 m2.sink = true ∧
    s2.mazeOwns m2 r.key 64 = true ∧ m2.todo.getD (s2.effectOrder m2 r.key) = [] ∧ s3.maze 0 0 = some m3 ∧ m3.completing = [r] ∧
    s3.mazeOwns m3 r.key 64 = true ∧ s3.mazeRoom m3 m3.sink = false ∧ s4.maze 0 0 = some m4 ∧ m4.completing = [r'] ∧
    s4.mazeOwns m4 r'.key 64 = false :=
  let m2 := { maze0 with heldRecs := [], completing := [rec0] }
  let recS : MazeRec := { rec0 with key := kImage 0 0x400 }
  let mS := { m2 with completing := [recS] }
  let m3 := { m2 with sink := { mazeQ with recs := [rec0, rec0] } }
  let rec1 : MazeRec := { addr := 0x7A0000, key := kScratch 0 0x20000 }
  let m4 := { m2 with completing := [rec1] }
  ⟨{ stW [] { wg0 with saved := true } with mazes := [mS] }, { st [] with mazes := [maze0] }, { st [] with mazes := [m2] },
    { st [] with mazes := [m3] }, { st [] with mazes := [m4] },
    { st [] with mazes := [maze0], claims := [(kScratch 0 0x400, r0)] }, maze0, mS, m2, m3, m4, recS, rec0, rec1, by decide⟩

/-- A page table whose second entry of 1 GiB maps the supervisor's pages. -/
def pageTable2 : Memory := pageTable ++ [(0x3008, 0x3F), (0x300B, 0x40)]

/-- Two cores of the partition. -/
def coreQuads : List (Nat × Quad) := (List.range 8).map fun q => (q, { part := some 0, home := some 0 })

/-- A lodge with a placement move that is pending, one whose move is running, one in REBUILD with its mirror, a written one
with and without a mirror, and an affinity that waits. -/
theorem witness_MazeAndLodgesRun_lodges : ∃ (s s1 s2 s3 s4 : State) (l l1 l2 l3 : Lodge) (core off slot i k : Nat) (rest : List Nat),
    (∀ x ∈ [(s, l), (s1, l1), (s2, l2), (s3, l3), (s4, l3)], Memory.wf x.1.mem ∧ (∀ y ∈ x.1.lodges, y.id = x.2.id → y = x.2) ∧
      x.2 ∈ x.1.lodges ∧ x.1.lodgeWaits = []) ∧
    s.lodges.find? (fun x => x.part == l.part && x.name == l.name && x.pend.target.isSome) = some l ∧ l.pend = .place core ∧
    l.running = none ∧ s.lodgeQuiet l none = true ∧ s.lodgeRun l.part core l.pages false = some off ∧ s.lodgeSlot core = some slot ∧
    s1.lodges.find? (fun x => x.part == l1.part && x.name == l1.name && x.running.isSome) = some l1 ∧ l1.pend = .place core ∧
    l1.running = some (core, off, slot) ∧
    (l1.key + l1.bytes ≤ kScratch core off ∨ kScratch core off + l1.bytes ≤ l1.key) ∧ s2.lodge l2.part l2.name = some l2 ∧
    l2.st = .rebuild ∧ l2.bytes ≤ 65536 ∧ l2.mirror = some i ∧ s2.mirrorParts l2.part i = some (k :: rest) ∧
    s2.refuge l2 false = some core ∧ s2.lodgeRun l2.part core l2.pages false = some off ∧ s2.lodgeSlot core = some slot ∧
    (k + l2.bytes ≤ kScratch core off ∨ kScratch core off + l2.bytes ≤ k) ∧ s3.lodge l3.part l3.name = some l3 ∧ l3.placed = true ∧
    (s3.mirrorCopy l3).isSome = true ∧ s4.lodge l3.part l3.name = some l3 ∧ l3.mirror = some i ∧ s4.mirrorCopy l3 = none :=
  let l := { lodge1 with pend := .place 1 }
  let l1 := { lodge1 with pend := .place 1, st := .moving, running := some (1, 0, 0) }
  let l2 := { lodge1 with st := .rebuild, mirror := some 2 }
  let l3 := { lodge1 with mirror := some 2, dirty := true }
  let b : State := { stP [(0x14, 0x40000000)] with mem := pageTable2, quads := coreQuads }
  ⟨{ b with lodges := [l] }, { b with lodges := [l1] }, { b with lodges := [l2] }, { b with lodges := [l3] },
    { b with lodges := [l3], parts := [(0, part0 [])] }, l, l1, l2, l3, 1, 0, 0, 2, 0x40080000, [0x40090000, 0x400A0000, 0x400B0000],
    by decide⟩

theorem witness_MazeAndLodgesRun_patience : ∃ (s : State) (l : Lodge) (w pat : Nat) (x : Launch) (a : AffWait),
    (∀ y ∈ s.lodges, y.id = l.id → y = l) ∧ l ∈ s.lodges ∧ s.lodgeWaits = [] ∧ s.launch x.id = some x ∧ s.waitOf x.id w = some a ∧
    s.governing x w = some (l, pat) ∧ a.expired = false ∧ pat ≠ 2 ^ 32 - 1 ∧ a.since + pat = s.clock :=
  let x := { launch0 with aff := [{ name := 5, patience := 100, v := true }] }
  ⟨{ st [] with lodges := [lodge1], launches := [(0, x)], clock := 110,
                affWaits := [{ launch := 0, wgid := 3, since := 10, name := 5, core := 0, expired := false }] }, lodge1, 3, 100, x,
    { launch := 0, wgid := 3, since := 10, name := 5, core := 0, expired := false }, by decide⟩

/-- Queue 0's block at 0x10000, enabled, with 16 slots at 0x20000, its counts as given; the packet in slot 0 is at 0x20000. -/
def stQ (en : Bool) (resv write read : Nat) (more : Memory) : State :=
  { stP [(4, 0x10000), (6, 0x11000)] with
    mem := putBytes pageTable (bytesAt 0x10000 (natLe 8 0x20000 ++ natLe 4 (4 + if en then 128 else 0) ++ natLe 4 resv ++ natLe 4 write ++
      natLe 4 read) ++ more) }

/-- A head that has been captured and may become active. -/
def head0 : Launch :=
  { launch0 with active := false, slotVa := 0x20000, pkt := { Packet.parse (List.replicate 128 0) with nens := 1 } }

/-- Queues: with a pending head; with a packet to capture, a bad one; not enabled, and empty. -/
theorem witness_QueuesAndRecords : ∃ (s s1 s2 s3 : State) (b b1 b2 b3 : QBlock) (l : Launch) (x : List Byte),
    (∀ y ∈ [(s, b), (s1, b1), (s2, b2), (s3, b3)], (y.1.part 0).defined = true ∧ (y.1.part 0).suspended = false ∧
      (y.1.part 0).resetWait = false ∧ y.1.queueAt 0 0 = some y.2 ∧ y.1.waiters = [] ∧ (∀ x ∈ y.1.stores, x.monitor = false)) ∧
    (s.launchesOf 0 0).find? (fun x => !x.active) = some l ∧ s.launch l.id = some l ∧ l.part = 0 ∧ l.queue = 0 ∧ l.active = false ∧
    l.met = true ∧ l.pkt.serial = false ∧ (s.setStatus 0 l.slotVa (statusWord 1 0)).isSome = true ∧
    ((s.setStatus 0 l.slotVa (statusWord 1 0)).bind fun s' => s'.setQWord 0 0 0x14 (b.read + 1)).isSome = true ∧
    (∀ y ∈ [s1, s2, s3], (y.launchesOf 0 0).find? (fun x => !x.active) = none ∧ alook 0 (y.part 0).replays = none) ∧ b1.en = true ∧
    b1.read ≠ b1.write ∧ s1.agentRead 0 (b1.slotVa b1.read) 128 = some x ∧ (Packet.parse x).bad = true ∧ b2.en = false ∧
    b3.en = true ∧ b3.read = b3.write ∧ s1.launches = [] ∧ (s1.part 0).pubs = [] ∧
    ((2 : Word) - b1.write).toNat = (b1.resv - b1.write).toNat ∧ (s1.setQWord 0 0 0x10 2).isSome = true ∧
    (b1.resv - b1.write).toNat < ((3 : Word) - b1.write).toNat :=
  let q := fun (en : Bool) (resv write read : Word) =>
    ({ ring := 0x20000, qld := 4, prio := 0, priv := false, en := en, resv := resv, write := write, read := read } : QBlock)
  ⟨{ stQ true 1 1 0 [] with launches := [(0, head0)] }, stQ true 2 1 0 [], stQ false 2 1 0 [], stQ true 1 1 1 [],
    q true 1 1 0, q true 2 1 0, q false 2 1 0, q true 1 1 1, head0, List.replicate 128 0, by decide⟩

/-- A launch whose only workgroup has ended; one with a record that waits on a word that is equal, one that waits on another
value and one that is free. -/
theorem witness_QueuesAndRecords_records : ∃ (s s1 : State) (x y : Launch) (b : QBlock) (k : Nat) (bs : List Byte),
    s.queueAt 0 0 = some b ∧ s1.queueAt 0 0 = some b ∧ s.launch 0 = some x ∧ x.id = 0 ∧ x.part = 0 ∧ x.queue = 0 ∧
    s.launchDone x = true ∧ s.launches.Pairwise (fun x y => x.1 < y.1) ∧ (∀ y ∈ s.launches, y.2.part = 0 → y.2.queue = 0 → y.1 = 0) ∧
    Memory.wf s.mem ∧ s.l1 = [] ∧ x.killed = false ∧ x.pkt.tasks = 0 ∧ x.pkt.cv = false ∧ (s.part 0).rcbase = 0 ∧
    s.agentAt 0 .store (x.slotVa + 0x7C) = some k ∧ s1.launch y.id = some y ∧ y.recSlots = 4 ∧
    s1.agentRead y.part (recAddr y.pkt.tasks 3) 128 = some bs ∧ (TaskRec.parse bs).state = 1 ∧
    s1.recHolds y 3 (TaskRec.parse bs) = true ∧ (s1.setRecState y.part y.pkt.tasks 3 2).isSome = true ∧
    (∃ c, s1.agentRead y.part (recAddr y.pkt.tasks 2) 128 = some c ∧ (TaskRec.parse c).state = 1 ∧
      s1.recHolds y 2 (TaskRec.parse c) = false ∧ (TaskRec.parse c).wkind ≠ 2 ∧ y.conts = []) ∧
    ∃ c, s1.agentRead y.part (recAddr y.pkt.tasks 0) 128 = some c ∧ (TaskRec.parse c).state ≠ 1 := by
  let rec' := fun (v : Nat) => natLe 8 0x100 ++ natLe 8 0x40000 ++ natLe 4 v ++ natLe 4 1024
  let x := { head0 with active := true, ended := 1 }
  let y := { launch0 with pkt := { Packet.parse (List.replicate 128 0) with tasks := 0x30000, tld := 2 } }
  let s1 := stQ true 1 1 1 (bytesAt (0x30000 + 256) (rec' 6) ++ bytesAt (0x30000 + 384) (rec' 5) ++ bytesAt 0x40000 (natLe 4 5))
  exact ⟨{ stQ true 1 1 1 [] with launches := [(0, x)], wgs := [] }, { s1 with launches := [(0, y)] }, x, y,
    { ring := 0x20000, qld := 4, prio := 0, priv := false, en := true, resv := 1, write := 1, read := 1 }, 0x2007C,
    rec' 5 ++ List.replicate 104 0, by and_intros <;> decide⟩

/-! ### Placing, loans, tables, resets, strikes -/

/-- A launch of one workgroup of 32 threads that needs the scratchpad of a whole quadrant. -/
def fit0 : Launch := { head0 with active := true, nextEns := 0, pkt := { head0.pkt with scratch := 2 ^ 17, wgens := 1, nthr := 32, allot := 8 } }

theorem offsets_one (s : State) (q : Nat) (hh : s.offsetsHeld (q / 4) (q % 4 * 2 ^ 17) (2 ^ 17) = false) :
    s.offsetsFor q (2 ^ 17) = [q % 4 * 2 ^ 17] := by
  have h : List.range 512 = 0 :: (List.range 511).map Nat.succ := List.range_succ_eq_map
  have hz : (((List.range 511).map Nat.succ).map (fun i => q % 4 * 2 ^ 17 + 256 * i)).filter (fun o =>
      decide (o + 2 ^ 17 ≤ q % 4 * 2 ^ 17 + 2 ^ 17) && ((2 ^ 17 : Nat) == 0 || !(s.offsetsHeld (q / 4) o (2 ^ 17)))) = [] := by
    rw [List.filter_eq_nil_iff]
    intro o ho
    rw [List.map_map, List.mem_map] at ho
    obtain ⟨i, -, rfl⟩ := ho
    simp only [Function.comp, Bool.and_eq_true, decide_eq_true_eq]
    omega
  simp only [State.offsetsFor, h, List.map_cons, Nat.mul_zero, Nat.add_zero]
  rw [List.filter_cons_of_pos (by rw [hh]; simp), hz]

theorem freeSlots_empty (s : State) (q : Nat) (hw : s.wgsOn q = []) : (s.freeSlots q).length = 512 := by
  have h : (s.wgs.filter fun x => x.2.quad == q && !x.2.saved) = [] := by
    rw [List.filter_eq_nil_iff]
    intro x hx
    exact (List.filter_eq_nil_iff.mp hw) x.2 (List.mem_map.mpr ⟨x, hx, rfl⟩)
  simp [State.freeSlots, h]

/-- An empty quadrant has one place for the launch, whichever free offset it is to have. -/
theorem reserve_one (s : State) (w q : Nat) (hw : s.wgsOn q = []) (ho : s.offsetsHeld (q / 4) (q % 4 * 2 ^ 17) (2 ^ 17) = false)
    (hl : (s.quad q).lostCore = false) (hc : s.canopyRoom 0 0 = true) (hr : s.redoWg fit0 w = none) :
    (s.reserveWg fit0 w q).isSome = true := by
  have h5 : fit0.pkt.nthr = 32 ∧ fit0.pkt.allot = 8 ∧ fit0.pkt.tiles = 0 ∧ fit0.pkt.acc = 0 ∧ fit0.pkt.side = 0 ∧
    fit0.pkt.canopy = 0 ∧ fit0.pkt.footprint = 2 ^ 17 := by decide
  have g1 : gap [] (2 ^ 18) 4096 0 = some 0 := by decide
  have g2 : gap [] (2 ^ 15) 1024 0 = some 0 := by decide
  have hx : ∀ n m : Nat, (({ s with fresh := n } : State).roomOn q fit0.pkt m).isSome = true := fun n m => by
    have h1 : ({ s with fresh := n } : State).offsetsFor q fit0.pkt.footprint = [q % 4 * 2 ^ 17] := by
      rw [h5.2.2.2.2.2.2]; exact offsets_one _ q ho
    have h2 : ({ s with fresh := n } : State).wgsOn q = [] := hw
    have h3 : (({ s with fresh := n } : State).quad q).lostCore = false := hl
    unfold State.roomOn
    rw [if_neg (by rw [h2, h3, freeSlots_empty _ q h2, h5.1, h5.2.1, h5.2.2.1]; decide)]
    simp only [h1, h2, h5.2.2.2.1, h5.2.2.2.2.1, h5.2.2.2.2.2.1, List.map_nil, Nat.zero_div, g1, g2, List.length_singleton, Nat.max_self,
      Nat.mod_one, List.getElem?_cons_zero, Option.isSome_some]
  have hy : ∀ n : Nat, ({ s with fresh := n } : State).canopyRoom 0 0 = true := fun n => hc
  have hz : ∀ n : Nat, ({ s with fresh := n } : State).redoWg fit0 w = none := fun n => hr
  have h6 : fit0.part = 0 := by decide
  unfold State.reserveWg State.takeFresh
  dsimp only
  split
  · rename_i h
    have h7 := hx (s.fresh + 256) (Config.freeChoice s.fresh)
    rw [h] at h7
    cases h7
  · simp [hy, hz, h5.2.2.2.2.2.1, h6]

theorem candidates_one (s : State) (l : Launch) (p : Nat)
    (h : ((s.launches.map (·.2)).filter fun l => l.part == p && !l.nextWgs.isEmpty) = [l]) : s.candidates p = [l] := by
  simp [State.candidates, h]

theorem inOrder_one (s : State) (l : Launch) (p : Nat) (h : s.candidates p = [l]) : s.inOrder p = [l] := by
  simp [State.inOrder, h]

/-- A state with these launches, quadrants and workgroups. -/
def stL (ls : List (Nat × Launch)) (qs : List (Nat × Quad)) (ws : List (Nat × Wg)) : State :=
  { st [] with launches := ls, quads := qs, wgs := ws, threads := [], parts := [(0, part0 [])] }

def quad0 : Quad := { part := some 0, home := some 0 }

/-- A workgroup on quadrant 40 of cluster 1, and one that holds all of quadrant 0. -/
def wg40 : Wg := { wg0 with quad := 40 }
def wgAll : Wg := { wg0 with nthr := 512, allot := 128, launch := 1 }

/-- fit0 is reserved on quadrant 0 where that is empty. -/
theorem reserveEns_fit0 (s : State) (near : Bool) (h : (s.reserveWg fit0 0 0).isSome = true) (hg : s.governing fit0 0 = none)
    (hm : s.mazesFit 0 0 0 = true)
    (hs : (((List.range 32).map fun i => 0 * 32 + i).filter fun q => s.ownQuad 0 (s.effPrio 0) q) = [0]) :
    (s.reserveEns fit0 0 0 [] near).isSome = true := by
  have hn : fit0.nextWgs = [0] := by decide
  have h0 : fit0.part = 0 ∧ fit0.id = 0 ∧ fit0.nextEnsemble.getD 0 = 0 := by decide
  obtain ⟨x, hx⟩ := Option.isSome_iff_exists.mp h
  unfold State.reserveEns
  simp only [h0, hs, hn, hm, List.foldl_cons, List.foldl_nil, hg]
  simp [State.reserveOn, hx]

/-- A reservation changes no launch. -/
theorem reserveWg_launches {s x : State} {w q : Nat} (hr : s.redoWg fit0 w = none) (h : s.reserveWg fit0 w q = some x) :
    x.launches = s.launches := by
  have hz : ∀ n : Nat, ({ s with fresh := n } : State).redoWg fit0 w = none := fun n => hr
  unfold State.reserveWg State.takeFresh State.takeId at h
  dsimp only at h
  split at h
  · cases h
  · rw [hz] at h
    split at h
    · cases h
    · exact (congrArg State.launches (Option.some.inj h)).symm

theorem placeable_fit0 : ∃ x : State, (stL [(0, fit0)] [(0, quad0)] [(0, wg40)]).placeable 0 0 0 = some (fit0, x) ∧
    x.launch fit0.id = some fit0 := by
  let z := stL [(0, fit0)] [(0, quad0)] [(0, wg40)]
  have hx := reserve_one z 0 0 (by decide) (by decide) (by decide) (by decide) (by decide)
  obtain ⟨x, hx⟩ := Option.isSome_iff_exists.mp hx
  have hl := reserveWg_launches (by decide) hx
  have hn : fit0.nextWgs = [0] := by decide
  have h0 : fit0.part = 0 ∧ fit0.id = 0 ∧ fit0.nextEnsemble.getD 0 = 0 := by decide
  have hs : (((List.range 32).map fun i => 0 * 32 + i).filter fun q => z.ownQuad 0 (z.effPrio 0) q) = [0] := by decide
  have hm : z.mazesFit 0 0 0 = true := by decide
  have hg : z.governing fit0 0 = none := by decide
  have he : z.reserveEns fit0 0 0 [] true = some x := by
    unfold State.reserveEns
    simp only [h0, hs, hn, hm, List.foldl_cons, List.foldl_nil, hg]
    simp [State.reserveOn, hx]
  have hi := inOrder_one z fit0 0 (candidates_one _ _ _ (by decide))
  refine ⟨x, ?_, ?_⟩
  · show z.placeable 0 0 0 = _
    simp [State.placeable, hi, he]
  · unfold State.launch
    rw [hl]
    decide

/-- What the partitions that are to place something see of their queues is as it was. -/
def sought (s : State) : State :=
  forEach (fun (y : State) p => if (y.candidates p).isEmpty = true then y else y.seekQueues p) s.cancelMoves
    ((s.cancelMoves.turnOrder 0).filter fun p => (s.cancelMoves.part p).defined && !(s.cancelMoves.part p).suspended &&
      !(s.cancelMoves.part p).resetWait)

theorem sought_same (z : State) (hm : z.cancelMoves = z) (hl : ((z.turnOrder 0).filter fun p => (z.part p).defined &&
    !(z.part p).suspended && !(z.part p).resetWait) = [0]) (hq : z.seekQueues 0 = z) : sought z = z := by
  unfold sought
  rw [hm, hl]
  simp [forEach, hq]

/-- A cluster whose turn is taken, one in the middle of a placement, one that places, and one that has nothing to place. -/
theorem witness_PlacingAndPreempting : ∃ (s s1 s2 s3 : State) (g g1 : Wg) (ps : List Nat) (p : Nat),
    (∀ x ∈ [(s, g), (s1, g1), (s2, g), (s3, g)], x.1.wg 0 = some x.2 ∧ x.2.id = 0 ∧ x.1.sys.power.gated = false) ∧
    alook 0 s.turns = some (3, s.clock + 1) ∧ (∀ x ∈ [s1, s2, s3], alook 0 x.turns = none) ∧ s1.midPlacing 0 = some g1 ∧
    s2.midPlacing 0 = none ∧
    (s2.cancelMoves.turnOrder 0).filter (fun p => (s2.cancelMoves.part p).defined && !(s2.cancelMoves.part p).suspended &&
      !(s2.cancelMoves.part p).resetWait) = p :: ps ∧
    (∃ l s4, (sought s2).placeable p 0 0 = some (l, s4) ∧ s4.launch l.id = some l) ∧ s3.midPlacing 0 = none ∧
    (s3.cancelMoves.turnOrder 0).filter (fun p => (s3.cancelMoves.part p).defined && !(s3.cancelMoves.part p).suspended &&
      !(s3.cancelMoves.part p).resetWait) = [0] ∧ (sought s3).placeable 0 0 0 = none := by
  have hi : (sought (stL [] [(0, quad0)] [(0, wg40)])).placeable 0 0 0 = none := by
    have h : sought (stL [] [(0, quad0)] [(0, wg40)]) = stL [] [(0, quad0)] [(0, wg40)] := sought_same _ (by rfl) (by decide) (by rfl)
    have hc : (stL [] [(0, quad0)] [(0, wg40)]).candidates 0 = [] := by simp [State.candidates, stL]
    simp [h, State.placeable, State.inOrder, hc]
  have hp : ∃ l s4, (sought (stL [(0, fit0)] [(0, quad0)] [(0, wg40)])).placeable 0 0 0 = some (l, s4) ∧ s4.launch l.id = some l := by
    have h : sought (stL [(0, fit0)] [(0, quad0)] [(0, wg40)]) = stL [(0, fit0)] [(0, quad0)] [(0, wg40)] :=
      sought_same _ (by rfl) (by decide) (by rfl)
    rw [h]
    exact ⟨fit0, placeable_fit0⟩
  refine ⟨{ stL [] [(0, quad0)] [(0, wg40)] with turns := [(0, (3, 1))] }, stL [] [(0, quad0)] [(0, { wg0 with here := false })],
    stL [(0, fit0)] [(0, quad0)] [(0, wg40)], stL [] [(0, quad0)] [(0, wg40)], wg40, { wg0 with here := false }, [], 0, by decide,
    by decide, by decide, by decide, by decide, by decide, hp, by decide, by decide, hi⟩

/-- A state as it is for what a stall counts (R282): without the limits of the canopy and of the stage sets. -/
def roomy (s : State) (p : Nat) : State :=
  ({ s with wgs := s.wgs.filter fun x => !(x.2.preempting && !x.2.saved), mazes := [] } : State).modPart p fun x =>
    { x with lim := { x.lim with canopy := 2 ^ 62 } }

/-- The one candidate of a partition without saved workgroups, where none is being pre-empted. -/
theorem wants_fresh (s : State) (p : Nat) (l : Launch) (hs : ∀ x ∈ s.wgs, x.2.saved = false)
    (hc : s.candidates p = [l]) (hf : (roomy s p).fitsOwn l = false) : s.wants p = some (s.effPrio l.id) := by
  have hb : (roomy s p).unseated p = [] := by
    unfold State.unseated
    rw [List.filter_eq_nil_iff]
    intro g hg
    obtain ⟨x, hx, rfl⟩ := List.mem_map.mp hg
    simp [State.imaged, hs x (List.mem_filter.mp hx).1]
  have hw : s.wants p = ((((s.candidates p).find? fun l => !(roomy s p).fitsOwn l).map fun l => s.effPrio l.id).toList ++
      ((roomy s p).unseated p).map fun g => s.effPrio g.launch).foldl (fun m x => match m with
    | none => some x
    | some y => some (min x y)) none := rfl
  rw [hw, hb, hc]
  simp [hf]

/-- The launch fits no partition all of whose quadrants have too few registers. -/
theorem fitsOwn_none (s : State)
    (h : ∀ q, s.ownQuad 0 (s.effPrio 0) q = false ∨ 65536 < ((s.wgsOn q).map fun g => g.nthr * g.allot).sum + 32 * 8) :
    s.fitsOwn fit0 = false := by
  have hn : fit0.nextWgs = [0] := by decide
  have h0 : fit0.part = 0 ∧ fit0.id = 0 ∧ fit0.pkt.nthr = 32 ∧ fit0.pkt.allot = 8 := by decide
  have hr : ∀ q, 65536 < ((s.wgsOn q).map fun g => g.nthr * g.allot).sum + 32 * 8 → s.reserveWg fit0 0 q = none := fun q hq => by
    have : ∀ n m : Nat, ({ s with fresh := n } : State).roomOn q fit0.pkt m = none := fun n m => by
      unfold State.roomOn
      dsimp only
      rw [if_pos (Or.inr (Or.inl (by rw [h0.2.2.1, h0.2.2.2]; exact hq)))]
    simp [State.reserveWg, State.takeFresh, this]
  simp only [State.fitsOwn, List.any_eq_false]
  intro c _
  unfold State.reserveEns
  simp only [h0, hn, List.foldl_cons, List.foldl_nil, Bool.false_eq_true, if_false, List.append_nil]
  split
  · simp
  · have hf : (State.reserveOn s fit0 0 (if (((List.range 32).map fun i => c * 32 + i).filter fun q => s.ownQuad 0 (s.effPrio 0) q).contains (c * 32)
        then c * 32 :: ((((List.range 32).map fun i => c * 32 + i).filter fun q => s.ownQuad 0 (s.effPrio 0) q).filter (· != c * 32))
        else (((List.range 32).map fun i => c * 32 + i).filter fun q => s.ownQuad 0 (s.effPrio 0) q))) = none := by
      rw [State.reserveOn, List.findSome?_eq_none_iff]
      intro q hq
      have ho : s.ownQuad 0 (s.effPrio 0) q = true := by
        split at hq
        · rename_i hx
          rcases List.mem_cons.mp hq with rfl | hq
          · exact (List.mem_filter.mp (List.contains_iff_mem.mp hx)).2
          · exact (List.mem_filter.mp (List.mem_filter.mp hq).1).2
        · exact (List.mem_filter.mp hq).2
      rcases h q with h | h
      · rw [ho] at h; cases h
      · exact hr q h
    rw [hf]
    simp

/-- A launch that finds no room, and the workgroup that makes way for it. -/
theorem witness_PlacingAndPreempting_preempt : ∃ (s : State) (g : Wg) (prio : Nat), s.wg 0 = some g ∧ g.id = 0 ∧
    s.wants g.part = some prio ∧ s.victim g.part prio = some g ∧ g.ended = false ∧ ∀ x ∈ s.ensemble g, x.id = 0 → x = g := by
  let s := stL [(0, fit0), (1, { fit0 with id := 1, prio := 3, nextEns := 1 })] [(0, quad0)] [(0, wgAll)]
  have hc : s.candidates 0 = [fit0] := candidates_one _ _ _ (by decide)
  have hf : (roomy s 0).fitsOwn fit0 = false := fitsOwn_none _ fun q => by
    by_cases hq : q = 0
    · right; rw [hq]; decide
    · left; simp [State.ownQuad, State.holdsQuad, State.quad, roomy, State.modPart, s, stL, alook, Ne.symm hq]
  have he : s.effPrio fit0.id = 0 := by decide
  have hp : wgAll.part = 0 := rfl
  refine ⟨s, wgAll, 0, by decide, by decide, ?_, by decide, by decide, by decide⟩
  rw [hp, wants_fresh s 0 fit0 (by decide) hc hf, he]

/-- Where the tables of a partition lie outside HBM, none of its addresses has a place. -/
theorem agentAt_none (s : State) (p : Nat) (k : Access) (a : DWord) (h : hbmBytes ≤ (s.part p).ptbase) : s.agentAt p k a = none := by
  have hv : s.walkVa p a = none := by
    simp only [State.walkVa, levels, walkFrom]
    rw [if_pos (by omega : hbmBytes < _)]
    simp
  unfold State.agentAt State.engineAt
  rw [hv]
  split
  · rfl
  · cases s.walkBad p a <;> rfl

theorem forEach_same {α : Type} (f : State → α → State) (s : State) (l : List α) (h : ∀ x, f s x = s) : forEach f s l = s := by
  induction l with
  | nil => rfl
  | cons x l ih => simp only [forEach, List.foldl_cons, h x] at *; exact ih

/-- An image of which no byte has a place leaves memory as it is. -/
theorem writeImage_none (s : State) (o n : Nat) (h : hbmBytes ≤ (s.part 0).ptbase) : s.writeImage 0 o n =
    ({ s with fresh := s.fresh + n } : State).modPart 0 fun x => { x with saveTop := max x.saveTop (o + n) } := by
  unfold State.writeImage
  dsimp only
  rw [forEach_same _ s _ fun i => by rw [agentAt_none s 0 .store _ h]]

theorem saveLost_none (s : State) (o n : Nat) (h : hbmBytes ≤ (s.part 0).ptbase) (hn : 0 < n) : ∃ a, s.saveLost 0 o n = some a := by
  rw [← Option.isSome_iff_exists]
  unfold State.saveLost
  rw [List.find?_isSome]
  refine ⟨_, List.mem_map.mpr ⟨0, List.mem_range.mpr (by omega), rfl⟩, ?_⟩
  rw [agentAt_none s 0 .store _ h]
  rfl

/-- The workgroup that is saved or has been. -/
def wgP (saved discarded : Bool) : Wg :=
  { wg0 with preempting := true, saved := saved, discarded := discarded && saved, canLen := 0,
             idem := if discarded && !saved then some 8 else none }
def thrP : Thread := { thr [] with status := .ready 0 0 }
def stS (g : Wg) (regs : List (Nat × Word)) : State :=
  { stL [] [(0, quad0), (4, quad0)] [(0, g)] with threads := [(0, thrP)], parts := [(0, part0 regs)] }

/-- What a save does before it writes the image. -/
def clearedFor (s : State) (g : Wg) : State :=
  let s := ((s.writeBackAll (coreOfQuad g.quad) none).dropClean (coreOfQuad g.quad) none).dropFetched (coreOfQuad g.quad) none
  forEach (fun s x => s.dropFromQuad x.1) s (s.threadsOf g.id)

def leaving (s : State) (g : Wg) : State := ((clearedFor s g).carry g { g with saved := true }).moveWork g.id 192

/-- A workgroup of partition 0 whose image has no place is saved all the same, as far as its record says. -/
theorem saveEns_none (s : State) (g : Wg) (hd : g.inIdem = false) (hp : g.part = 0)
    (h : hbmBytes ≤ ((leaving s g).part 0).ptbase) :
    (s.saveEns g [g]).wg 0 = ((((({ leaving s g with fresh := (leaving s g).fresh + g.imgLen } : State).modPart 0 fun x =>
        { x with saveTop := max x.saveTop ((clearedFor s g).imgSpot 0 g.imgLen + g.imgLen) }).modWg g.id fun x =>
        { x with saved := true, discarded := g.inIdem, img := (clearedFor s g).imgSpot 0 g.imgLen }).saveMazes g.launch g.ensid).wg 0) := by
  have hn : ¬ g.inIdem = true := by simp [hd]
  have hs : s.saveWg g = ((leaving s g).writeImage 0 ((clearedFor s g).imgSpot 0 g.imgLen) g.imgLen).modWg g.id fun x =>
      { x with saved := true, discarded := g.inIdem, img := (clearedFor s g).imgSpot 0 g.imgLen } := by
    unfold State.saveWg leaving
    dsimp only
    rw [if_neg hn, if_neg hn, hp]
    rfl
  unfold State.saveEns forEach
  rw [List.foldl_cons, List.foldl_nil, hs, writeImage_none _ _ _ h, if_neg (by simp [hd])]

/-- A workgroup that has drained and leaves nothing, one whose image has no place, and one with a load on its way. -/
theorem witness_PlacingAndPreempting_save : ∃ (s s1 s2 : State) (g g1 y : Wg) (a : DWord),
    (∀ x ∈ [(s, g), (s1, g1), (s2, g)], x.1.wg 0 = some x.2 ∧ x.2.id = 0 ∧ x.1.ensemble x.2 = [x.2]) ∧
    (∀ x ∈ [(s, g), (s1, g1)], x.2.preempting = true ∧ x.2.saved = false ∧ x.1.drainedFor x.2 = true) ∧ g.inIdem = true ∧
    (∃ x ∈ s2.ensemble g, s2.drainedFor x = false) ∧ g1.inIdem = false ∧ (s1.saveEns g1 [g1]).wg 0 = some y ∧
    s1.saveLost g1.part y.img y.imgLen = some a := by
  let g1 := wgP false false
  let s1 := stS g1 [(0x11, 0xFFFFFFFF)]
  have hp : hbmBytes ≤ (s1.part 0).ptbase := by decide
  have hy : (s1.saveEns g1 [g1]).wg 0 = some { g1 with saved := true } := by
    rw [saveEns_none s1 g1 rfl rfl (by decide)]
    decide
  obtain ⟨a, ha⟩ := saveLost_none s1 0 ({ g1 with saved := true } : Wg).imgLen hp (by decide)
  exact ⟨stS (wgP false true) [], s1, { stS (wgP false true) [] with loads := [load0] }, wgP false true, g1, { g1 with saved := true },
    a, by decide, by decide, rfl, by decide, rfl, hy, ha⟩

/-- A workgroup that is saved and fits quadrant 4 again, and one that was discarded. -/
theorem witness_PlacingAndPreempting_restore : ∃ (s s1 : State) (g g1 : Wg), s.wg 0 = some g ∧ g.id = 0 ∧ s.ensemble g = [g] ∧
    g.saved = true ∧ g.discarded = false ∧ s.sys.power.gated = false ∧ s.fitsAgain g (s.loansFor g (4 / 32)) 4 = true ∧
    s.mazesFit g.launch g.ensid (4 / 32) = true ∧ s.preferred g [] (s.loansFor g (4 / 32)) 4 = true ∧ (s.part g.part).suspended = false ∧ (s.part g.part).resetWait = false ∧ s1.wg 0 = some g1 ∧
    s1.ensemble g1 = [g1] ∧ g1.saved = true ∧ g1.discarded = true := by
  refine ⟨stS (wgP true false) [], stS (wgP true true) [], wgP true false, wgP true true, by decide, by decide, by decide, by decide,
    by decide, by decide, ?_, by decide, ?_, by decide, by decide, by decide⟩
  · have hf : ((stS (wgP true false) []).freeSlots 4).length = 512 := freeSlots_empty _ 4 (by decide)
    have ho : (stS (wgP true false) []).ownQuad 0 ((stS (wgP true false) []).effPrio 0) 4 = true := by decide
    unfold State.fitsAgain
    rw [hf]
    simp only [show (wgP true false).part = 0 from rfl, show (wgP true false).launch = 0 from rfl, ho, Bool.or_true]
    decide
  · have hg : (stS (wgP true false) []).govCore (wgP true false) = none := by decide
    simp [State.preferred, hg]

/-- A lent quadrant that its home takes back, and one whose home has nothing to place. -/
theorem witness_LoansAndTables : ∃ (s s1 : State) (q h : Nat), (s.quad q).home = some h ∧ s.reclaims h = some q ∧ s.wouldFit h q = true ∧
    (s1.quad q).home = some h ∧ s1.wouldFit h q = false ∧ s1.reclaims h = some q := by
  let lent : Quad := { quad0 with part := some 1 }
  let s := stL [(0, fit0)] [(0, lent)] []
  let s1 := stL [] [(0, lent)] []
  have hc : s.candidates 0 = [fit0] := candidates_one _ _ _ (by decide)
  have hr := reserve_one (({ s with wgs := [], lodges := [] } : State).modQuad 0 fun x =>
    { x with part := some 0, reclaim := none }) 0 0 (by decide) (by decide) (by decide) (by decide) (by decide)
  have hc1 : s1.candidates 0 = [] := by simp [State.candidates, s1, stL]
  have hn : fit0.nextWgs = [0] := by decide
  have ho : (({ s with wgs := [], lodges := [] } : State).modQuad 0 fun x =>
    { x with part := some 0, reclaim := none }).ownQuad 0 (s.effPrio fit0.id) 0 = true := by decide
  refine ⟨s, s1, 0, 0, by decide, by decide, ?_, by decide, ?_, by decide⟩
  · unfold State.wouldFit
    dsimp only
    rw [hc, List.any_cons, hn, List.any_cons]
    rw [show s.wgs = [] from rfl, show s.lodges = [] from rfl, List.filter_nil, List.filter_nil, ho, hr]
    rfl
  · unfold State.wouldFit
    dsimp only
    rw [hc1]
    rfl

/-- Borrowed quadrants without and with a workgroup; a quadrant of the pool. -/
theorem witness_LoansAndTables_lease : ∃ (s s1 : State) (q p : Nat) (g : Wg), (s.quad q).part = some p ∧ (s.quad q).home ≠ some p ∧
    s.lodgesOn q = [] ∧ s.wgsOn q = [] ∧ (s1.quad q).part = some p ∧ (s1.quad q).home ≠ some p ∧ s1.lodgesOn q = [] ∧
    g ∈ s1.wgsOn q ∧ s1.wg g.id = some g ∧ g.ended = false ∧ (s1.quad 9).part = none ∧ (s1.quad 9).reclaim = none ∧
    (s.quad q).reclaim = some 3 ∧ (s1.quad q).reclaim = some 3 :=
  let lent : Quad := { quad0 with part := some 1, reclaim := some 3 }
  ⟨stL [] [(0, lent)] [], stL [] [(0, lent)] [(0, { wg0 with part := 1 })], 0, 1, { wg0 with part := 1 }, by decide⟩

/-- A table of which a slot has ended, with an entry not enabled, with one that is and with one whose packet has no place; a slot
that runs on; one that ends with its submission deferred. -/
theorem witness_LoansAndTables_table : ∃ (s s1 s2 s3 s4 : State) (e e1 e4 : TtEntry),
    (∀ x ∈ [s, s1, s2, s3, s4], (x.part 0).defined = true ∧ (x.part 0).ttOn = true ∧ (x.part 0).suspended = false ∧
      (x.part 0).resetWait = false) ∧ (∀ x ∈ [s, s1, s4], (x.part 0).tt.deferred = false ∧ (x.part 0).tt.ends ≤ x.us) ∧
    s.ttEntry 0 (s.part 0).tt.entry = some e ∧ e.en = false ∧ s1.ttEntry 0 (s1.part 0).tt.entry = some e1 ∧ e1.en = true ∧
    ((s1.modPart 0 fun y => { y with tt := { y.tt with entry := 1, ends := 20 + e1.slot } }).ttSubmit 0 e1).isOk = true ∧
    s4.ttEntry 0 (s4.part 0).tt.entry = some e4 ∧ e4.en = true ∧
    ((s4.modPart 0 fun y => { y with tt := { y.tt with entry := 1, ends := 20 + e4.slot } }).ttSubmit 0 e4).isOk = false ∧
    (s2.part 0).tt.deferred = false ∧ s2.us < (s2.part 0).tt.ends ∧ (s3.part 0).tt.deferred = true ∧ (s3.part 0).tt.ends ≤ s3.us :=
  let st := fun (a n ends us : Nat) (d : Bool) =>
    let s := stQ false 0 0 0 (bytesAt 0x50000 (natLe 8 a ++ natLe 4 n))
    ({ s with us := us, parts := [(0, { part0 [(4, 0x10000), (8, 0x50000), (10, 1)] with tt := { entry := 0, ends := ends, deferred := d } })] } : State)
  ⟨st 0x60000 10 20 20 false, st 0x60000 (10 + 2 ^ 14) 20 20 false, st 0x60000 10 20 19 false, st 0x60000 10 20 20 true,
    st 0x40000000 (10 + 2 ^ 14) 20 20 false, { pkt := 0x60000, slot := 10, q := 0, en := false },
    { pkt := 0x60000, slot := 10, q := 0, en := true }, { pkt := 0x40000000, slot := 10, q := 0, en := true }, by and_intros <;> decide⟩

/-- Slots that end with their submission deferred: the table has no place, its packet's STATUS has none, or it has one. -/
theorem witness_LoansAndTables_skip : ∃ (s s1 s2 : State) (y y2 : TtEntry),
    (∀ x ∈ [s, s1, s2], (x.part 0).defined = true ∧ (x.part 0).ttOn = true ∧ (x.part 0).suspended = false ∧
      (x.part 0).resetWait = false ∧ (x.part 0).tt.deferred = true ∧ (x.part 0).tt.ends ≤ x.us) ∧
    s.ttEntry 0 (s.part 0).tt.present = none ∧ s1.ttEntry 0 (s1.part 0).tt.present = some y ∧
    s1.agentWrite 0 (y.pkt + 0x7C) (natLe 4 (statusWord 3 7).toNat) = none ∧ s2.ttEntry 0 (s2.part 0).tt.present = some y2 ∧
    (s2.agentWrite 0 (y2.pkt + 0x7C) (natLe 4 (statusWord 3 7).toNat)).isSome = true :=
  let st := fun (t : Word) (a : Nat) =>
    let s := stQ false 0 0 0 (bytesAt 0x50000 (natLe 8 a ++ natLe 4 (10 + 2 ^ 14)))
    ({ s with us := 20, parts := [(0, { part0 [(4, 0x10000), (8, t), (10, 1)] with tt := { entry := 1, ends := 20, deferred := true } })] } : State)
  ⟨st 0x40000000 0x60000, st 0x50000 0x40000000, st 0x50000 0x60000, { pkt := 0x40000000, slot := 10, q := 0, en := true },
    { pkt := 0x60000, slot := 10, q := 0, en := true }, by and_intros <;> decide⟩

/-- Partitions whose next G is free and blocked, a die that one partition holds, a G that has been blocked for 4 ms and one that
has not, a workgroup whose watchdog is due, is not, and whose grace period has ended and has not. -/
theorem witness_ResetsAndWatchdogs : ∃ (s s1 s2 : State) (b : GenBlock) (g0 g1 g2 : Wg), (s.part 0).defined = true ∧ s.waiters = [] ∧
    (∀ x ∈ s.stores, x.monitor = false) ∧ s.nextBlocked 0 = false ∧ (s1.part 0).defined = true ∧ s1.waiters = [] ∧
    (∀ x ∈ s1.stores, x.monitor = false) ∧ s1.nextBlocked 0 = true ∧
    (s.parts.filter fun x => x.2.defined && (s.held' x.1).any fun q => q / 384 == 0) = [(0, s.part 0)] ∧
    s1.genBlocks.find? (fun x => x.part == 0 && x.gen == b.gen) = some b ∧ s1.us = b.since + 4000 ∧ s1.walks = [] ∧ s1.fab.remotes = [] ∧ (s1.part 0).gen ≠ b.gen ∧
    (s1.part 0).resetWait = false ∧ s.genBlocks.find? (fun x => x.part == 0 && x.gen == b.gen) = some b ∧ s.us < b.since + 4000 ∧
    (∃ w ∈ s2.walks, w.part = 0 ∧ w.gen = b.gen) ∧ s2.genBlocks = s1.genBlocks ∧
    (∀ x ∈ [(0, g0), (1, g1), (2, g2)], s.wg x.1 = some x.2 ∧ x.2.part = 0) ∧ g0.due = false ∧ g1.due = true ∧ g2.grace = some 50 ∧
    g2.ended = false ∧ 50 + (s1.creg 0 0x19).toNat = s1.us ∧ s1.wg 2 = some g2 ∧ s.us < 50 + (s.creg 0 0x19).toNat :=
  let g1 := { wg0 with id := 1, limit := 5, timer := 5 }
  let g2 := { wg0 with id := 2, fired := true, grace := some 50 }
  let s : State := { stP [(0x19, 4000)] with wgs := [(0, wg0), (1, g1), (2, g2)], us := 4049,
                                             genBlocks := [{ part := 0, gen := 3, since := 50 }, { part := 0, gen := 1, since := 50 }] }
  ⟨{ s with genBlocks := [{ part := 0, gen := 3, since := 50 }] }, { s with us := 4050 },
    { s with walks := [{ id := 9, core := 0, part := 0, gen := 3, page := 0, who := [] }] }, { part := 0, gen := 3, since := 50 }, wg0, g1,
    g2, by decide⟩

/-- A core with no strike and one with 64 in the last millisecond. -/
theorem witness_StrikesAndLosses : ∃ (s s1 : State) (r : TRef) (t : Thread) (g : Wg),
    (((s.strikeLog.filter fun (x : Nat × Nat) => decide (s.us < x.2 + 1000)) ++ [(0, s.us)]).filter fun (x : Nat × Nat) => x.1 == 0).length ≤ 64 ∧
    64 < (((s1.strikeLog.filter fun (x : Nat × Nat) => decide (s1.us < x.2 + 1000)) ++ [(0, s1.us)]).filter fun (x : Nat × Nat) => x.1 == 0).length ∧
    r.acc = false ∧ r.tid < 512 ∧ s.threads = [(r.key, t)] ∧ s.wgs = [(r.wg, g)] ∧ g.quad / 4 = 0 ∧ t.status = .running ∧
    t.stop = none ∧ s.cur = none ∧ s.held = [] ∧ s.passHolds = [] ∧ s.undo = [] ∧ s.loads = [] ∧ s.waiters = [] ∧ s.stores = [] ∧ s.tileOps = [] ∧
    s.rvHolds = [] ∧ t.run.mates = [] :=
  ⟨{ st [] with cur := none }, { st [] with strikeLog := List.replicate 64 (0, 0), us := 999 }, r0, thr [], wg0, by decide⟩

/-- A core that is lost and a cluster that is not; channels whose loss leaves the minima as they are and does not. -/
theorem witness_StrikesAndLosses_losses : ∃ (s s1 : State) (x : Part), 0 ∈ s.lostCores ∧ (∀ c ∈ [8, 9, 10, 11, 12, 13, 14, 15], c < 192 ∧ c ∉ s.lostCores) ∧ s.wgs = [] ∧ s.lodges = [] ∧
    255 ∉ s.retiredChannels ∧ (s.definedParts.map fun p => (s.part p).lim.hbmSize).sum ≤ 255 * (hbmBytes / 256) ∧
    (s.definedParts.map fun p => (s.part p).lim.hbmBw).sum ≤ 255 * 102400000000 ∧ 256 - (s.retiredChannels.length + 1) = 255 ∧
    s1.retiredChannels = [] ∧ s1.parts = [(0, x)] ∧ x.defined = true ∧ x.evqBase = 0 ∧ 255 * (hbmBytes / 256) < x.lim.hbmSize :=
  let x := { part0 [] with lim := { (part0 []).lim with hbmSize := hbmBytes } }
  ⟨{ st [] with wgs := [], lostCores := [0] }, { st [] with parts := [(0, x)] }, x, by decide⟩

/-- A flit of a type, with a SEQ. -/
def flit (type seq : Nat) : Flit := { seq := seq, ack := 6, type := type, dstMod := 0, srcMod := 3, len := 0, body := [] }

/-- Flits whose CRC holds: an idle one, one with the SEQ expected and one with another, and two of link control; bytes whose CRC
does not hold; ports with something to acknowledge, that are down, and that the other end retrains. -/
theorem witness_PortsAndFlits : ∃ (s s1 s2 : State) (bs0 bs1 bs2 bs3 bs4 : List Byte), (s.port 0).down = false ∧ crcHolds [] = false ∧
    crcHolds bs0 = true ∧ (Flit.parse bs0).type = 0 ∧ (s.port 0).waiting = [] ∧ crcHolds bs1 = true ∧ (Flit.parse bs1).type = 2 ∧
    (Flit.parse bs1).seq = (s.port 0).expect ∧ crcHolds bs2 = true ∧ (Flit.parse bs2).type = 2 ∧
    (Flit.parse bs2).seq ≠ (s.port 0).expect ∧ crcHolds bs3 = true ∧ (Flit.parse bs3).type = 11 ∧
    (Flit.parse bs3).seq = (s.port 0).expect ∧ ((Flit.parse bs3).body.getD 0 0).toNat = 1 ∧ crcHolds bs4 = true ∧
    (Flit.parse bs4).type = 11 ∧ (Flit.parse bs4).seq = (s2.port 0).expect ∧ ((Flit.parse bs4).body.getD 0 0).toNat = 2 ∧
    (s2.port 0).down = false ∧ (s2.port 0).waiting = [] ∧ (s2.port 0).retraining = true ∧ (s2.port 0).asked = true ∧ (s1.port 0).down = true ∧ (s.port 0).unacked ≠ 0 ∧ (s.port 0).retraining = false ∧
    (s1.port 0).unacked = 0 :=
  ⟨{ st [] with fab := { ports := [(0, { expect := 4, unacked := 1 })] } }, { st [] with fab := { ports := [(0, { down := true })] } },
    { st [] with fab := { ports := [(0, { expect := 4, retraining := true, asked := true })] } },
    (flit 0 0).bytes, (flit 2 4).bytes, (flit 2 5).bytes, ({ flit 11 4 with len := 1, body := [1] } : Flit).bytes,
    ({ flit 11 4 with len := 4, body := [2, 0, 255, 0] } : Flit).bytes, by and_intros <;> first
      | exact crcHolds_bytes _
      | decide⟩

/-- A lane whose failure leaves a width and one whose failure leaves none; a port that has retrained, with a partition to tell and
without, and one that the other end retrains; a flit that is 1 ms old. -/
theorem witness_PortsAndFlits_lanes : ∃ (s s1 s2 s3 s4 : State) (q : Part) (m : Nat) (f : Flit), 15 ∉ (s.port 0).failed ∧
    (s.port 0).down = false ∧ (s.port 0).mask / 2 ^ 15 % 2 = 1 ∧ widthFor (insNat 15 (s.port 0).failed) = some m ∧
    0 ∉ (s1.port 0).failed ∧ (s1.port 0).down = false ∧ (s1.port 0).mask / 2 ^ 0 % 2 = 1 ∧
    widthFor (insNat 0 (s1.port 0).failed) = none ∧ s1.fab.remotes = [] ∧ (s2.port 0).retraining = true ∧ (s2.port 0).waiting = [] ∧
    (∀ x ∈ s2.parts, x.2.defined = false) ∧ (s2.port 0).asked = false ∧ (s3.port 0).asked = false ∧ q.defined = true ∧ q.evqBase = 0 ∧ s3.parts = [(0, q)] ∧ (s3.port 0).retraining = true ∧
    (7, 20, f) ∈ (s2.port 0).held ∧ 20 + 1000 = s2.us ∧ (s4.port 0).retraining = true ∧ (s4.port 0).asked = true ∧
    (s4.port 0).failed = [15] ∧ 0xFF / 2 ^ 15 % 2 = 0 ∧ 0xFF00 / 2 ^ 15 % 2 = 1 ∧ widthFor [15] = some 0xFF :=
  ⟨st [], { st [] with fab := { ports := [(0, { failed := [4, 8, 12], mask := 0xF })] } },
    { State.reset with fab := { ports := [(0, { retraining := true, held := [(7, 20, flit 2 7)] })] }, us := 1020 },
    { st [] with fab := { ports := [(0, { retraining := true })] } },
    { st [] with fab := { ports := [(0, { retraining := true, asked := true, failed := [15] })] } }, fetchPart State.reset, 0xFF, flit 2 7, by decide⟩

/-! ### Peers, reductions, the host and the custody processor -/

theorem adel_above {α : Type} (k : Nat) (l : List (Nat × α)) (h : ∀ c ∈ l, c.1 < k) : adel k l = l := by
  induction l with
  | nil => rfl
  | cons c l ih =>
    have h1 := h c (by simp)
    simp only [adel]
    rw [if_neg (by omega), if_neg (by omega), ih fun d hd => h d (by simp [hd])]

theorem putBytes_zeros (m : Memory) (bs : List (Nat × Byte)) (hb : ∀ b ∈ bs, b.2 = 0 ∧ ∀ c ∈ m, c.1 < b.1) : putBytes m bs = m := by
  induction bs with
  | nil => rfl
  | cons b bs ih =>
    have h := hb b (by simp)
    have hw : Memory.write m b.1 b.2 = m := by rw [h.1]; simp [Memory.write, adel_above _ _ h.2]
    have := ih fun c hc => hb c (by simp [hc])
    simp only [putBytes, List.foldl_cons, hw] at *
    exact this

/-- A request of partition 2 of module 3 of this domain, and the entry that permits it in partition 0. -/
def req (kind paddr len : Nat) (data : List Byte) : PeerReq :=
  { srcMod := 3, srcPart := 2, gen := 1, epoch := 4, kind := kind, paddr := paddr, len := len, tid := 9, data := data }
def acl0 : AclEntry :=
  { srcMod := 3, srcPart := 2, dstPart := 0, valid := true, rd := true, wr := true, atom := true, red := true, qmask := 1, brate := 0,
    lrate := 0, burst := 0 }

theorem peerMay0 (s : State) (r : PeerReq) (h : s.fab.acl = [(0, acl0)]) (hm : r.srcMod = 3 ∧ r.srcPart = 2)
    (hd : s.dstPart r = some 0) (ha : aclPermits acl0 r = true) (hr : (s.part 0).resetWait = false) : s.peerMay r = some 0 := by
  have hl : List.range 512 = 0 :: (List.range 511).map Nat.succ := List.range_succ_eq_map
  have hf : s.aclFor r 0 = some acl0 := by
    have h0 : alook 0 [(0, acl0)] = some acl0 := rfl
    simp only [State.aclFor, hl, h, List.filterMap_cons, h0]
    rw [List.find?_cons_of_pos (by simp [acl0, hm])]
  simp [State.peerMay, hd, hf, ha, hr]

/-- A stale request, one that is denied, a read, a write and an atomic that are permitted. -/
theorem witness_PeersAndResponses : ∃ (s s1 : State) (r w x q : PeerReq) (o : AtomOp), (∀ y ∈ [s, s1], y.portFor 3 = some 3 ∧
      (y.port 3).may = true ∧ (y.port 3).waiting = [] ∧ Memory.wf y.mem ∧ y.waiters = [] ∧ (∀ z ∈ y.stores, z.monitor = false) ∧
      y.rmws = [] ∧ y.sys.power ≠ .s3 ∧ y.l1 = []) ∧ (∀ y ∈ [r, w, x, q], y.srcMod = 3 ∧ y.srcPart = 2 ∧ y.gen = 1 ∧ y.epoch = 4) ∧
    alook (peerKey none 3 2) s.fab.peers = some (1, 4) ∧ alook (peerKey none 3 2) s1.fab.peers = some (2, 4) ∧
    s.peerMay r = some 0 ∧ r.kind = 1 ∧ r.len = 256 ∧ (∀ i < 256, s.isPoisoned (kHbm (r.paddr % 2 ^ 44) + i) = false) ∧
    s.peerMay w = some 0 ∧ w.kind = 3 ∧ isWindow w.paddr = false ∧ s.peerMay x = none ∧
    s.peerMay q = some 0 ∧ q.kind = 5 ∧ peerAtom q = some o ∧ ∀ i < o.size, s.isPoisoned (kHbm (q.paddr % 2 ^ 44) + i) = false := by
  let b := stP []
  refine ⟨{ b with fab := { acl := [(0, acl0)], peers := [(peerKey none 3 2, (1, 4))] } },
    { b with fab := { acl := [(0, acl0)], peers := [(peerKey none 3 2, (2, 4))] } }, req 1 0x100 256 [], req 3 0x200 0 [1, 2],
    req 1 0x40000000 4 [], req 5 0x300 8 [0, 0, 0, 0, 1, 0, 0, 0], (atomOps[0]?).getD .swap, ?_⟩
  and_intros <;> first
    | exact peerMay0 _ _ rfl (by decide) (by decide) (by decide) (by decide)
    | (intro i _; simp [State.isPoisoned, b, stP, st, State.reset]; done)
    | decide

/-- Zeros written above every byte that memory lists. -/
theorem writeN_zeros (m : Memory) (k n : Nat) (h : ∀ c ∈ m, c.1 < k) : Memory.writeN m k (List.replicate n 0) = m := by
  induction n generalizing k with
  | zero => rfl
  | succ n ih =>
    have hw : Memory.write m k 0 = m := by simp [Memory.write, adel_above _ _ h]
    show Memory.writeN (Memory.write m k 0) (k + 1) (List.replicate n 0) = m
    rw [hw, ih _ fun c hc => by have := h c hc; omega]

theorem eq_some_getD {α : Type} {o : Option α} (d : α) (h : o.isSome = true) : o = some (o.getD d) := by
  cases o with
  | none => cases h
  | some x => rfl

/-- A launch that queue 0 of partition 0 takes, and the same one where the queue's block has no place. -/
theorem witness_PeersAndResponses_launch : ∃ (s s1 s2 s5 : State) (r y : PeerReq) (w : Word) (a : DWord), s.portFor 3 = some 3 ∧
    (s.port 3).may = true ∧ (s.port 3).waiting = [] ∧ s.rmws = [] ∧ Memory.wf s.mem ∧ s.waiters = [] ∧ (∀ x ∈ s.stores, x.monitor = false) ∧ r.srcMod = 3 ∧
    alook (peerKey none 3 r.srcPart) s.fab.peers = some (r.gen, r.epoch) ∧ s.peerMay r = some 0 ∧ peerWhat r = some PeerKind.launch ∧
    s.submit 0 (r.paddr / 0x80 % 16) r.data = .ok (w, s1) ∧ w.toNat < 2 ^ 30 ∧ s1.fab = s.fab ∧ y.srcMod = 3 ∧
    isWindow y.paddr = false ∧ s2.fab = s.fab ∧ s2.peerMay r = some 0 ∧ s2.submit 0 (r.paddr / 0x80 % 16) r.data = .error a ∧
    s.sys.power ≠ .s3 ∧ s5.fab = s.fab ∧ s5.peerMay r = some 0 ∧ s5.submit 0 (r.paddr / 0x80 % 16) r.data = .ok (0x80000000, s5) := by
  let s : State := { stQ true 0 0 0 [] with fab := { acl := [(0, acl0)], peers := [(peerKey none 3 2, (1, 4))] } }
  let r := req 9 0xFFFFFFF0000 128 (List.replicate 128 0)
  let b : QBlock := { ring := 0x20000, qld := 4, prio := 0, priv := false, en := true, resv := 0, write := 0, read := 0 }
  have hi : s.Idle := ⟨rfl, by decide⟩
  have hq : s.queueAt 0 0 = some b := by decide
  have hz : List.take 0x7C r.data ++ natLe 4 0 = List.replicate 128 0 := by decide
  have hm : ∀ c ∈ s.mem, c.1 < 0x20000 := by decide
  have hk : s.agentAt 0 .store (b.slotVa b.resv) = some 0x20000 := by decide
  let k128 := (bytesAt 0x20000 (List.replicate 128 0)).map (·.1)
  let held := fun (x : State) => { x with
    hbmMoved := (s.sliceWrite k128).hbmMoved, l2 := (s.sliceWrite k128).l2, back := (s.sliceWrite k128).back }
  have hp : s.homeStore (bytesAt 0x20000 (List.replicate 128 0)) = held s := by
    rw [State.homeStore_idle hi]
    have h : putBytes s.mem (bytesAt 0x20000 (List.replicate 128 0)) = s.mem := by rw [putBytes_bytesAt, writeN_zeros _ _ _ hm]
    have hh : (((bytesAt 0x20000 (List.replicate 128 0)).map (·.1)).filter isHost) = [] := by decide
    unfold State.homeWrite
    dsimp only
    rw [h, hh]
    rfl
  have hw : s.agentWrite 0 (b.slotVa b.resv) (List.take 0x7C r.data ++ natLe 4 0) = some (held s) := by
    simp only [State.agentWrite, hk, hz, Option.map_some, hp]
  let s2 := ((held s).setQWord 0 0 0x0C 1).getD s
  let s4 : State := { stP [(0x11, 0xFFFFFFFF)] with fab := s.fab }
  let s3 := (s2.setQWord 0 0 0x10 1).getD s
  have h2 : (held s).setQWord 0 0 0x0C (b.resv + 1) = some s2 := eq_some_getD s (by decide)
  have h3 : s2.setQWord 0 0 0x10 (b.resv + 1) = some s3 := eq_some_getD s (by decide)
  have hs : s.submit 0 (r.paddr / 0x80 % 16) r.data = .ok (0, s3) := by
    have he : r.paddr / 0x80 % 16 = 0 := by decide
    have hf : b.isFull = false ∧ b.en = true ∧ b.write = b.resv ∧ (b.resv &&& 0x3FFFFFFF) = 0 := by decide
    simp only [he, State.submit, hq, hf, hw, h2, h3, Bool.not_true, Bool.false_eq_true, if_false, if_true]
  have hl : r.data.length = 128 := List.length_replicate
  have hk : peerWhat r = some PeerKind.launch := by
    have h : r.kind = 9 ∧ isWindow r.paddr = true ∧ r.paddr % 128 = 0 := by decide
    simp [peerWhat, h, hl]
  have hd : s.dstPart r = some 0 := by
    have h : r.paddr / 2 ^ 44 = s.fab.domain ∧ isWindow r.paddr = true ∧ (r.paddr % 2 ^ 44 - 0xFFFFFFF0000) / 0x800 = 0 ∧
      (s.part 0).defined = true := by decide
    simp only [State.dstPart, h, hk]
    rfl
  have ha : aclPermits acl0 r = true := by
    simp only [aclPermits, hk]
    decide
  have hn : s4.queueAt 0 0 = none := by decide
  have he : s4.submit 0 (r.paddr / 0x80 % 16) r.data = .error (s4.qAddr 0 0) := by
    have he : r.paddr / 0x80 % 16 = 0 := by decide
    simp only [he, State.submit, hn]
  have hd4 : s4.dstPart r = some 0 := by
    have h : r.paddr / 2 ^ 44 = s4.fab.domain ∧ isWindow r.paddr = true ∧ (r.paddr % 2 ^ 44 - 0xFFFFFFF0000) / 0x800 = 0 ∧
      (s4.part 0).defined = true := by decide
    simp only [State.dstPart, h, hk]
    rfl
  have hp0 : s.peerMay r = some 0 := peerMay0 _ _ rfl (by decide) hd ha (by decide)
  have hp4 : s4.peerMay r = some 0 := peerMay0 _ _ rfl (by decide) hd4 ha (by decide)
  let s5 : State := { stQ false 0 0 0 [] with fab := s.fab }
  have h5 : s5.submit 0 (r.paddr / 0x80 % 16) r.data = .ok (0x80000000, s5) := by
    have he : r.paddr / 0x80 % 16 = 0 := by decide
    have hq : s5.queueAt 0 0 = some { b with en := false } := by decide
    simp only [he, State.submit, hq]
    rfl
  have hd5 : s5.dstPart r = some 0 := by
    have h : r.paddr / 2 ^ 44 = s5.fab.domain ∧ isWindow r.paddr = true ∧ (r.paddr % 2 ^ 44 - 0xFFFFFFF0000) / 0x800 = 0 ∧
      (s5.part 0).defined = true := by decide
    simp only [State.dstPart, h, hk]
    rfl
  have hp5 : s5.peerMay r = some 0 := peerMay0 _ _ rfl (by decide) hd5 ha (by decide)
  have h0 : s.portFor 3 = some 3 ∧ (s.port 3).may = true ∧ (s.port 3).waiting = [] ∧ s.rmws = [] ∧ Memory.wf s.mem ∧ s.waiters = [] ∧
    ∀ x ∈ s.stores, x.monitor = false := by decide
  obtain ⟨a1, a2, a3, a4, a5, a6, a7⟩ := h0
  exact ⟨s, s3, s4, s5, r, req 3 0x200 0 [1], 0, s4.qAddr 0 0, a1, a2, a3, a4, a5, a6, a7, rfl, by decide, hp0, hk, hs, by decide, by decide,
    rfl, by decide, rfl, hp4, he, by decide, rfl, hp5, h5⟩

/-- An outstanding load of another module, in time and too late. -/
theorem witness_PeersAndResponses_responses : ∃ (s s1 : State) (x : Remote) (l : PLoad) (t : Thread),
    (∀ y ∈ [s, s1], y.fab.remotes.find? (fun y => y.id == x.id) = some x ∧ y.loads.find? (fun y => y.id == l.id) = some l ∧
      y.thread l.who = some t ∧ y.waiters = [] ∧ (∀ p ∈ y.stores, p.monitor = false)) ∧ x.purpose = .load l.id ∧ l.who.acc = false ∧
    l.kind = .plain ∧ l.fwd = [] ∧ l.dests = dest1 3 tagN32 4 false ∧ t.status = .running ∧ t.acqDrop = false ∧
    t.arch.frame = none ∧ s.us < x.deadline ∧ l.len = 4 ∧ (s.portFor x.mod).isSome = true ∧ x.deadline = s1.us :=
  let l := { pload 4 0 4 (dest1 3 tagN32 4 false) with loc := .remote 3 64, remote := some 6 }
  let x : Remote := { id := 6, purpose := .load 4, part := 0, mod := 3, type := 1, paddr := 64, body := [], deadline := 2000 }
  let s : State := { st [] with loads := [l], fab := { remotes := [x] }, us := 1999 }
  ⟨s, { s with us := 2000 }, x, l, thr [], by decide⟩

/-- A round that waits for the contributions of two members: in time, and past its timeout; a frame in order, one out of order, one
for another domain, one with a reserved field, and a pair with a frame that is not acknowledged. -/
theorem witness_ReductionsAndFrames : ∃ (s s1 : State) (x : RedRound) (c : Copy) (w : Wg) (g : RedGroup) (y : ScalePair),
    (s.part 0).defined = true ∧ (∀ z ∈ [s, s1], z.fab.rounds = [x] ∧ z.copies.find? (fun y => y.id == c.id) = some c ∧
      z.wg c.who.wg = some w ∧ z.fab.groups.find? (fun y => y.part == x.part && y.group == x.group) = some g) ∧ x.copy = c.id ∧
    x.waiting = false ∧ s.us < x.deadline ∧ x.deadline = s1.us ∧ [[7, 8]].length + 1 = g.members.length ∧
    (∀ l ∈ [[7, 8]], l.length = c.data.length) ∧ s.fab.pairs = [y] ∧ s.redDenied x.part g = none ∧ s1.redDenied x.part g = some (3, 2) := by
  let c : Copy := { copy0 with kind := 9, started := true, reducing := true, data := [5, 6] }
  let x : RedRound := { copy := 5, part := 0, group := 1, round := 0, deadline := 100, waiting := false }
  let g : RedGroup := { part := 0, group := 1, members := [(0, 0), (3, 2)], timeout := 100 }
  let y : ScalePair := { port := 0, dom := 2, mod := 3, fseq := 1, expect := 4, held := [(0, 0, flit 3 0)] }
  let s : State := { st [] with copies := [c], fab := { groups := [g], rounds := [x], pairs := [y], acl := [(0, acl0)] }, us := 99 }
  let s1 : State := { s with fab := { s.fab with acl := [] }, us := 100 }
  have h0 : acl0.valid = true ∧ acl0.srcMod = 3 ∧ acl0.srcPart = 2 ∧ acl0.dstPart = 0 ∧ acl0.red = true ∧ s.fab.modId = 0 := by decide
  have hr : s.redDenied x.part g = none := by
    have hl : List.range 512 = 0 :: (List.range 511).map Nat.succ := List.range_succ_eq_map
    have ha : alook 0 s.fab.acl = some acl0 := rfl
    simp [State.redDenied, hl, ha, h0, g, x]
  have hn : s1.redDenied x.part g = some (3, 2) := by
    have ha : ∀ i, alook i s1.fab.acl = none := fun _ => rfl
    have hm : s1.fab.modId = 0 := rfl
    simp [State.redDenied, ha, hm, g, x]
  have hd : (s.part 0).defined = true ∧ (∀ z ∈ [s, s1], z.fab.rounds = [x] ∧ z.copies.find? (fun y => y.id == c.id) = some c ∧
      z.wg c.who.wg = some wg0 ∧ z.fab.groups.find? (fun y => y.part == x.part && y.group == x.group) = some g) ∧
    (x.copy = c.id ∧ x.waiting = false ∧ s.us < x.deadline ∧ x.deadline = s1.us) ∧ [[7, 8]].length + 1 = g.members.length ∧
    (∀ l ∈ [[7, 8]], l.length = c.data.length) ∧ s.fab.pairs = [y] := by decide
  obtain ⟨a1, a2, ⟨a3, a4, a5, a6⟩, a7, a8, a9⟩ := hd
  exact ⟨s, s1, x, c, wg0, g, y, a1, a2, a3, a4, a5, a6, a7, a8, a9, hr, hn⟩

/-- A member that has contributed twice to one round. -/
theorem witness_ReductionsAndFrames_twice : ∃ (s : State) (x y : RedRound) (c d : Copy) (w : Wg) (g : RedGroup), s.fab.rounds = [x, y] ∧
    x.copy = c.id ∧ y.copy = d.id ∧ c.id ≠ d.id ∧ s.copies = [c, d] ∧ s.wg c.who.wg = some w ∧
    s.fab.groups.find? (fun z => z.part == x.part && z.group == x.group) = some g ∧ x.waiting = false ∧ y.waiting = false ∧
    y.part = x.part ∧ y.group = x.group ∧ y.round = x.round :=
  let c : Copy := { copy0 with kind := 9, started := true, reducing := true, data := [5, 6] }
  let x : RedRound := { copy := 5, part := 0, group := 1, round := 0, deadline := 100, waiting := false }
  let g : RedGroup := { part := 0, group := 1, members := [(0, 0), (3, 2)], timeout := 100 }
  ⟨{ st [] with copies := [c, { c with id := 6 }], fab := { groups := [g], rounds := [x, { x with copy := 6 }] } }, x, { x with copy := 6 },
    c, { c with id := 6 }, wg0, g, by decide⟩

theorem witness_ReductionsAndFrames_frames : ∃ (s : State) (b b1 b2 b3 b4 : List Byte), (Prefix.parse b).bad = false ∧
    (Prefix.parse b).dstDom = s.fab.domain ∧ crcHolds (b.drop 16) = true ∧ (Prefix.parse b).aonly = false ∧
    (Flit.parse (b.drop 16)).type = 3 ∧
    (Prefix.parse b).fseq = ((s.pairFor (Prefix.parse b).srcDom (Flit.parse (b.drop 16)).srcMod).acked (Prefix.parse b).fack).expect ∧
    (Prefix.parse b1).bad = false ∧ (Prefix.parse b1).dstDom = s.fab.domain ∧ crcHolds (b1.drop 16) = true ∧
    (Prefix.parse b1).fseq ≠ ((s.pairFor (Prefix.parse b1).srcDom (Flit.parse (b1.drop 16)).srcMod).acked (Prefix.parse b1).fack).expect ∧
    (Prefix.parse b2).bad = false ∧ (Prefix.parse b2).dstDom ≠ s.fab.domain ∧ (Prefix.parse b3).bad = true ∧
    (Prefix.parse b4).bad = false ∧ (Prefix.parse b4).dstDom = s.fab.domain ∧ crcHolds (b4.drop 16) = true ∧
    (Prefix.parse b4).aonly = false ∧ (Flit.parse (b4.drop 16)).type = 12 ∧
    (Prefix.parse b4).fseq = ((s.pairFor (Prefix.parse b4).srcDom (Flit.parse (b4.drop 16)).srcMod).acked (Prefix.parse b4).fack).expect :=
  let y : ScalePair := { port := 0, dom := 2, mod := 3, fseq := 1, expect := 4, held := [(0, 0, flit 3 0)] }
  ⟨{ st [] with fab := { pairs := [y] } }, natLe 16 (2 * 2 ^ 6 + 4 * 2 ^ 16) ++ (flit 3 0).bytes,
    natLe 16 (2 * 2 ^ 6 + 5 * 2 ^ 16) ++ (flit 3 0).bytes, natLe 16 1, natLe 16 (2 ^ 12),
    natLe 16 (2 * 2 ^ 6 + 4 * 2 ^ 16) ++ (flit 12 0).bytes, by and_intros <;> first
      | exact crcHolds_bytes _
      | decide⟩

/-- A partition whose HBM the host reaches, without L1 copies and with a dirty one; an access past its end; a table entry that a
pull writes. -/
theorem witness_HostAndPartitions : ∃ (s s1 : State) (bs : List Byte) (a e : Nat) (c : L1Cell),
    (∀ x ∈ [s, s1], Memory.wf x.mem ∧ x.waiters = [] ∧ (∀ q ∈ x.stores, q.monitor = false) ∧ (x.part 0).defined = true ∧
      x.hdmRange 0 a bs.length = some (kHbm a) ∧ x.sys.power ≠ .s3) ∧ asorted s.l1 ∧ asorted s1.l1 ∧ s.l1 = [] ∧ s1.l1 = [(l1Key 0 a, c)] ∧ bs.length = 1 ∧
    c.dirty = true ∧ c.rel ≤ s1.clock ∧ s.hdmRange 0 (2 ^ 30) bs.length = none ∧ (s.part 0).evqBase = 0 ∧ e % 8 = 0 ∧
    (s.part 0).lim.hbmBase ≤ e ∧ e + 8 = (s.part 0).lim.hbmBase + (s.part 0).lim.hbmSize ∧ 65536 + (hbmBytes - 65536) ≤ hbmBytes ∧
    s.definedParts = [0] := by
  refine ⟨stP [], { stP [] with l1 := [(l1Key 0 (2 ^ 30 - 1), ⟨7, true, 0, 0⟩)] }, [9], 2 ^ 30 - 1, 2 ^ 30 - 8, ⟨7, true, 0, 0⟩, by decide, ?_, ?_,
    by decide⟩
  · simp [asorted, stP, st, State.reset]
  · simp [asorted]

/-- A range of two bytes in lines of which home slices hold the first, written there or not, and not the second. -/
theorem witness_HostAndPartitions_slices : ∃ (s s1 : State) (bs : List Byte), asorted s.l1 ∧ asorted s.l2 ∧ asorted s.back ∧ asorted s1.l2 ∧
    bs.length = 2 ∧ s.back ≠ [] ∧ alook (lineKey 0xFF) s.l2 = some true ∧ alook (lineKey 0xFF) s1.l2 = some false ∧
    ∀ x ∈ [s, s1], Memory.wf x.mem ∧ x.waiters = [] ∧ (∀ q ∈ x.stores, q.monitor = false) ∧ x.hdmRange 0 0xFF bs.length = some 0xFF ∧
      x.sliceHas 0xFF = true ∧ x.sliceHas 0x100 = false :=
  ⟨{ stP [] with l2 := [(0x80, true)], back := [(0xFF, 3)] }, { stP [] with l2 := [(0x80, false)] }, [1, 2],
    by simp [asorted, stP, st, State.reset], by simp [asorted], by simp [asorted], by simp [asorted], by decide⟩

/-- The aperture reads what the backing memory has under a line that its home slice holds written (R354). -/
theorem test_bar2 : (match exec (.bar2ApertureAccess 0 false 0xFF [0, 0]) { stP [] with
      l2 := [(0x80, true)], back := [(0xFF, 3)], mem := [(0xFF, 7), (0x100, 8)] } with
    | .next s => some s.sys.answer
    | _ => none) = some [3, 8] := by decide

/-- Limits that are permitted and that are not, before boot stage 3 and at it; a partition that may be torn down, and one whose next G
is blocked. -/
theorem witness_HostAndPartitions_partitions : ∃ (s s1 s2 : State) (l l1 : PartLimits), (∀ x ∈ [s, s1, s2], Memory.wf x.mem) ∧
    s.limitsOk 19 l = true ∧ (s.part 19).defined = false ∧ s.sys.stage = 3 ∧ s.limitsOk 0 l = true ∧ s.limitsOk 0 l1 = false ∧
    s1.sys.stage < 3 ∧ (s.part 0).defined = true ∧ s.nextBlocked 0 = false ∧ (s2.part 0).defined = true ∧ s2.nextBlocked 0 = true ∧
    (s.part 5).defined = false ∧ l.hbmBase + l.hbmSize = hbmBytes :=
  let l : PartLimits := { min := 2, urgent := 2, max := 768, home := [766, 767], hbmBase := 2 ^ 30, hbmSize := hbmBytes - 2 ^ 30,
                          hbmBw := 0, canopy := 65536, linkBw := 0 }
  ⟨{ stP [] with sys := { stage := 3 } }, { stP [] with sys := { stage := 2 } },
    { stP [] with genBlocks := [{ part := 0, gen := 1, since := 0 }] }, l, { l with urgent := 3 }, by decide⟩

/-- A partition with a save area of one page that can be written. -/
theorem witness_HostAndPartitions_save : ∃ (s : State) (k : Nat), (s.part 0).defined = true ∧ s.nextBlocked 0 = false ∧ s.lodges = [] ∧
    ((s.discardWork 0).part 0).saveTop = 256 ∧ (s.discardWork 0).agentAt 0 .store ((s.discardWork 0).part 0).savebase = some k :=
  ⟨{ stS (wgP true false) [] with wgs := [], threads := [], parts := [(0, { part0 [(0x12, 0x20000)] with saveTop := 256 })],
                                        mem := pageTable }, 0x20000, by decide⟩

/-- A module that has reached stage 1, one between runs and one in a run, one that may enter S1, and the states S1 and S3; a step
of the clock down, and one at its lowest. -/
theorem witness_CustodyAndPower : ∃ s s1 s2 s3 s4 s5 : State, s.sys.stage + 1 = 2 ∧ s.sys.power ≠ .s3 ∧ s.sys.power = .p0 ∧
    s.betweenRuns = true ∧ s.sys.power.gated = false ∧ s.sys.hot = false ∧ 2000 + 100 = s.freq ∧ s.definedParts = [] ∧
    s1.betweenRuns = false ∧ s1.anyPlaced = true ∧ s.us < s.sys.idleSince + 10000 ∧ s2.sys.power.gated = false ∧
    s2.anyPlaced = false ∧ s2.sys.idleSince + 10000 = s2.us ∧ s3.sys.power = .s1 ∧ s4.sys.power = .s3 ∧
    (List.replicate 48 (0 : Byte)).length = 48 ∧ 0x50 ≤ (List.replicate 80 (0 : Byte)).length ∧
    s.us < s.sys.tstart + 10000000 ∧ s4.sys.tstart + 10000000 = s4.us ∧ s5.freq = 100 ∧ 200 = s5.freq + 100 ∧
    s5.betweenRuns = true ∧ s5.sys.power.gated = false ∧ s5.sys.hot = false :=
  ⟨{ State.reset with sys := { stage := 1 }, us := 9999 },
    { st [] with quads := [(0, { active := some { todo := [r0], done := [], waitX := [] } })] }, { State.reset with us := 10000 },
    { State.reset with sys := { power := .s1 } }, { State.reset with sys := { power := .s3 }, us := 10000000 },
    { State.reset with freq := 100 }, by decide⟩

/-- A module whose capability chain can be read, and one whose cannot yet. -/
theorem witness_CapabilityChain : ∃ s s1 : State, 3 ≤ s.sys.stage ∧ s1.sys.stage < 3 :=
  ⟨{ State.reset with sys := { stage := 3 } }, State.reset, by decide⟩

/-! ### Further clauses: stops, stalls, meetings, commands at their release, units -/

/-- Eight return addresses in the quadrant: the ninth call spills the oldest where the page of its slot is mapped, and not where it is
not; and 1,024 of them before an indirect call. -/
theorem witness_ControlFlow_spills : ∃ (s s1 s2 : State) (r : TRef) (t u : Thread) (g : Wg) (a : Nat), r.acc = false ∧
    (∀ x ∈ [s, s1], Ending x r t g [a, a + 1]) ∧ t.arch.pred 7 = true ∧ t.arch.rstack.length = 8 ∧
    (t.arch.pair a).getLsbD 0 = false ∧ t.arch.sup = true ∧
    (s.engineAt g.part true .store ((s.part g.part).spillbase + BitVec.ofNat 64 (0x440000 * g.quad + 8192 * g.slotOf r + 0))).isOk = true ∧
    (s1.engineAt g.part true .store ((s1.part g.part).spillbase + BitVec.ofNat 64 (0x440000 * g.quad + 8192 * g.slotOf r + 0))).isOk = false ∧
    (s1.postMissing g.part ((s1.part g.part).spillbase + BitVec.ofNat 64 (0x440000 * g.quad + 8192 * g.slotOf r + 0)) 1).thread r = some t ∧
    Ending s2 r u g [a, a + 1] ∧ u.arch.rstack.length = 1024 ∧ (u.arch.pair a).getLsbD 0 = false ∧ u.arch.sup = true :=
  let l := [(4, n32 8), (5, n32 0)]
  let t : Thread := { thr l with arch := { archOf l with rstack := List.replicate 8 6 } }
  let u : Thread := { thr l with arch := { archOf l with rstack := List.replicate 1024 6 } }
  ⟨{ stT t with mem := pageTable, parts := [(0, part0 [])] }, { stT t with parts := [(0, part0 [])] }, stT u, r0, t, u, wg0, 4, rfl,
    by
      intro x hx
      rcases List.mem_cons.mp hx with rfl | hx
      · exact ending_of rfl rfl rfl rfl (by decide) (by decide) (by decide)
      · rw [List.mem_singleton.mp hx]
        exact ending_of rfl rfl rfl rfl (by decide) (by decide) (by decide),
    by decide, List.length_replicate, by decide, by decide, by decide, by decide, by decide,
    ending_of rfl rfl rfl rfl (by decide) (by decide) (by decide), List.length_replicate, by decide, by decide⟩

/-- A return to an odd address. -/
theorem witness_ControlFlow_odd : ∃ (s : State) (r : TRef) (t : Thread) (g : Wg), Ending s r t g [] ∧ r.acc = false ∧ t.arch.rstack = [7] ∧
    (7 : DWord).getLsbD 0 = true :=
  let t : Thread := { thr [] with arch := { archOf [] with rstack := [7] } }
  ⟨stT t, r0, t, wg0, ending_of rfl rfl rfl rfl (by decide) (by decide) (by decide), rfl, rfl, by decide⟩

/-- A thread whose branch table's word 0 lies across the end of a page. -/
def thrEdge : Thread := { thr [(5, n32 0)] with arch := { archOf [(5, n32 0)] with pc := 65530 } }
def stEdge (tlb : List TlbEntry) (m : Memory) : State := { stT thrEdge with tlb := tlb, mem := m, parts := [(0, part0 [])] }
def pageEntry (base : Nat) (x : Bool) : TlbEntry :=
  { core := 0, part := 0, gen := 0, base := base, size := 65536, pa := base, tgt := 0, mod := 0, r := true, w := true, x := x, sup := false }

theorem edge_of (l : List TlbEntry) (m : Memory) : Ending (stEdge l m) r0 thrEdge wg0 [5] :=
  ending_of rfl rfl rfl rfl (by decide) (by decide) (by decide)

/-- A branch table whose entry may not be executed, one whose page the TLB has not, and one whose second unit may not be executed, is
not in the TLB, or is in no page. -/
theorem witness_ControlFlow_brt : ∃ (s1 s2 s3 s4 s5 : State) (r : TRef) (t : Thread) (g : Wg) (e : DWord) (f f3 : FaultInfo) (lo lo4 lo5 : Half)
    (z z4 z5 : State) (l : Loc) (c : Code), (∀ x ∈ [s1, s2, s3, s4, s5], Ending x r t g [5]) ∧ r.acc = false ∧
    (t.arch.reg 5).bits.toNat = 0 ∧ e = t.arch.pc + 4 ∧ s1.fetchUnit r e = .fault f ∧ s2.fetchUnit r e = .miss ∧
    s3.fetchUnit r e = .ok lo z ∧ z.fetchUnit r (e + 2) = .fault f3 ∧ s4.fetchUnit r e = .ok lo4 z4 ∧ z4.fetchUnit r (e + 2) = .miss ∧
    z4.engineAt g.part t.arch.sup .fetch (e + 2) = .ok l ∧ s5.fetchUnit r e = .ok lo5 z5 ∧ z5.fetchUnit r (e + 2) = .miss ∧
    z5.engineAt g.part t.arch.sup .fetch (e + 2) = .error c := by
  refine ⟨stEdge [pageEntry 0 false] [], stEdge [] [], stEdge [pageEntry 0 true, pageEntry 65536 false] [],
    stEdge [pageEntry 0 true] pageTable, stEdge [pageEntry 0 true] [], r0, thrEdge, wg0, 65534, _, _, _, _, _, _, _, _, _, _, ?_, rfl,
    by decide, by decide, by rfl, by rfl, by rfl, by rfl, by rfl, by rfl, by rfl, by rfl, by rfl, by rfl⟩
  simp only [List.forall_mem_cons]
  exact ⟨edge_of _ _, edge_of _ _, edge_of _ _, edge_of _ _, edge_of _ _, by intro x hx; cases hx⟩

/-- A landing pad whose first unit ends its page, with its second in another module. -/
theorem witness_ControlFlow_split : ∃ (s : State) (r : TRef) (t : Thread) (g : Wg) (a : Nat), r.acc = false ∧ Ending s r t g [a, a + 1] ∧
    (t.arch.pair a).getLsbD 0 = false ∧ t.arch.sup = false ∧ s.unitFar r (t.arch.pair a) = false ∧
    ((s.lookUnit r (t.arch.pair a)).1.getD 0).getLsbD 0 = true ∧ s.unitFar r (t.arch.pair a + 2) = true :=
  let l := [(4, n32 0x3FFFFFFE), (5, n32 0)]
  let t : Thread := { thr l with arch := { archOf l with sup := false } }
  let m : Memory := [(0x1000, 1), (0x1001, 0x20), (0x2000, 1), (0x2001, 0x30), (0x3000, 0x1F), (0x3008, 0x9F), (0x300E, 0x1C), (0x3FFFFFFE, 0x3D)]
  ⟨{ stT t with tlb := [], parts := [(0, part0 [])], mem := m }, r0, t, wg0, 4, rfl,
    ending_of rfl rfl rfl rfl (by decide) (by decide) (by decide), by decide, rfl, by decide, by decide, by decide⟩

/-- A run of one buffered effect or none and a committing instruction or none. -/
def runOf (o : List BufItem) (c : Option Cmd) : Thread :=
  { thr [] with run := { Run.start (archOf []) with buf := o, commit := c, cmark := c.map fun _ => 3 } }

theorem steady_of {s : State} {o : List BufItem} {c : Option Cmd} (ht : s.thread r0 = some (runOf o c))
    (hr : s.l1Waits r0 (runOf o c) = false) (he : s.scReads = []) (hp : s.stores = []) : SteadyRun s r0 (runOf o c) :=
  { exec := rfl, thread := ht, claims := rfl, beacon := rfl, stop := rfl, acc := rfl, room := hr,
    steady := by simp [State.spoiled, he], fresh := by simp [hp] }

/-- Runs with effects that leave the core, and with a store of its scratchpad and of its L1. -/
theorem witness_RunsCommit_buffer : ∃ (s s1 s2 : State) (r : TRef) (t t1 t2 : Thread) (k k' : Nat) (bs : List Byte) (a : DWord),
    s.cur = some r ∧ SteadyRun s r t ∧ t.run.commit = none ∧ t.run.buf.length = 3 ∧ (∀ o ∈ t.run.buf, o.op.inCore (s.coreOf r) = false) ∧
    (∀ x ∈ [(s1, t1, k), (s2, t2, k')], x.1.cur = some r ∧ SteadyRun x.1 r x.2.1 ∧ x.2.1.run.commit = none ∧
      x.2.1.run.buf = [{ op := .store (.key x.2.2) bs .keep none, after := [], addr := a }] ∧
      (BufOp.store (.key x.2.2) bs .keep none).inCore (x.1.coreOf r) = true ∧ x.1.still r x.2.2 bs.length = true ∧ x.2.1.wgRel = none ∧
      (∀ p ∈ x.1.stores, p.who ≠ r ∧ p.monitor = false) ∧ x.1.waiters = [] ∧ x.1.claims = [] ∧ x.1.held = [] ∧ Memory.wf x.1.mem) ∧
    isScratch k = true ∧ isScratch k' = false := by
  let o := fun (k : Nat) => [({ op := .store (.key k) [1, 2, 3, 4] .keep none, after := [], addr := 64 } : BufItem)]
  let far : List BufItem := [{ op := .fence .rel .dv, after := [], addr := 0 }, { op := .store (.remote 3 64) [1] .keep none, after := [], addr := 64 },
    { op := .cache .cwb (.key 16), after := [], addr := 16 }]
  refine ⟨stT (runOf far none), stT (runOf (o (kScratch 0 64)) none), stT (runOf (o 16) none), r0, runOf far none,
    runOf (o (kScratch 0 64)) none, runOf (o 16) none, kScratch 0 64, 16, [1, 2, 3, 4], 64, rfl, steady_of (stT_thread _) (by decide) rfl rfl,
    rfl, rfl, by decide, ?_, by decide, by decide⟩
  simp only [List.forall_mem_cons]
  refine ⟨⟨rfl, steady_of (stT_thread _) (by decide) rfl rfl, rfl, rfl, by decide, by decide, rfl, by decide⟩,
    ⟨rfl, steady_of (stT_thread _) (by decide) rfl rfl, rfl, rfl, by decide, by decide, rfl, by decide⟩, by intro x hx; cases hx⟩

/-- A workgroup with a tile, an access thread and nothing in its operand queues. -/
def wgC : Wg := { wg0 with tiles := [{ v := true }], access := 8 }
def stC (c : Cmd) : State := { stT (runOf [] (some c)) with wgs := [(0, wgC)] }

theorem stC_steady (c : Cmd) (h : (stC c).l1Waits r0 (runOf [] (some c)) = false) : SteadyRun (stC c) r0 (runOf [] (some c)) :=
  steady_of (thread_of rfl) h rfl rfl

/-- Commands that act at commit or are held, of each kind that a run commits with. -/
def cmds : List Cmd :=
  [{ op := .qlen }, { op := .idemBegin }, { op := .tstat }, { op := .atom .add .wg, loc := some (.key 64) },
   { op := .atom .add .dv, loc := some (.key 64) }, { op := .arrive, loc := some (.key (kScratch 0 64)) }, { op := .trap 5 }, { op := .kill }]

theorem witness_RunsCommit_commands : ∀ c ∈ cmds, SteadyRun (stC c) r0 (runOf [] (some c)) ∧ (runOf [] (some c)).run.commit = some c ∧
    (stC c).commitWaits r0 wgC ((stC c).withBlock (runOf [] (some c)) c) = false ∧
    (stC c).oqWaits r0 wgC ((stC c).withBlock (runOf [] (some c)) c) = false ∧
    (stC c).commitFault r0 wgC ((stC c).withBlock (runOf [] (some c)) c) (.ready 0 0) = none := by
  have h : ∀ c ∈ cmds, (stC c).l1Waits r0 (runOf [] (some c)) = false ∧
    (stC c).commitWaits r0 wgC ((stC c).withBlock (runOf [] (some c)) c) = false ∧
    (stC c).oqWaits r0 wgC ((stC c).withBlock (runOf [] (some c)) c) = false ∧
    (stC c).commitFault r0 wgC ((stC c).withBlock (runOf [] (some c)) c) (.ready 0 0) = none := by decide
  exact fun c hc => ⟨stC_steady c (h c hc).1, rfl, (h c hc).2⟩

/-- A pop of an operand queue without an entry, a copy whose block holds a word that another thread has claimed, and one whose block is
refused. -/
theorem witness_RunsCommit_stops : ∃ (s1 s2 s3 : State) (c1 c2 : Cmd) (f : FaultInfo),
    SteadyRun s1 r0 (runOf [] (some c1)) ∧ s1.commitWaits r0 wgC (s1.withBlock (runOf [] (some c1)) c1) = false ∧
    s1.oqWaits r0 wgC (s1.withBlock (runOf [] (some c1)) c1) = true ∧
    SteadyRun s2 r0 (runOf [] (some c2)) ∧ s2.commitWaits r0 wgC (s2.withBlock (runOf [] (some c2)) c2) = true ∧
    SteadyRun s3 r0 (runOf [] (some c2)) ∧ s3.commitWaits r0 wgC (s3.withBlock (runOf [] (some c2)) c2) = false ∧
    s3.oqWaits r0 wgC (s3.withBlock (runOf [] (some c2)) c2) = false ∧
    s3.commitFault r0 wgC (s3.withBlock (runOf [] (some c2)) c2) (.ready 0 0) = some f :=
  let c1 : Cmd := { op := .qpop, p := 4 }
  let c2 : Cmd := { op := .copy 0, loc := some (.key (kScratch 0 64)) }
  ⟨stC c1, { stC c2 with claims := [(kScratch 0 64, { r0 with tid := 1 })] }, stC c2, c1, c2, plainFault .cmdblock,
    stC_steady c1 (by decide), by decide, by decide, steady_of (thread_of rfl) (by decide) rfl rfl, by decide,
    stC_steady c2 (by decide), by decide, by decide, by decide⟩

/-- A request of thread 1 of the workgroup, held at a rendezvous word. -/
def hold1 : RvHold := { key := kScratch 0 128, da := 1, db := 0, who := some ({ wg := 0, tid := 1 }, 0, 3), id := 9 }

/-- A core whose wait table is full of them. -/
theorem full_room {s : State} {n c : Nat} (hr : s.rvHolds = List.replicate n hold1) (hn : 4096 ≤ n) (hw : s.waiters = []) (hs : s.stores = [])
    (hm : s.mazes = []) (hc : s.coreOf { wg := 0, tid := 1 } = c) : s.monitorRoom c 1 = false := by
  have h : s.monitorUsed c = n := by
    unfold State.monitorUsed State.tableOf
    rw [hw, hs, hm, hr, List.filterMap_replicate]
    simp [hold1, hc]
  unfold State.monitorRoom
  rw [h]
  simp only [decide_eq_false_iff_not]
  omega

/-- As many requests as a wait table has entries. -/
theorem holds_exist : ∃ hs : List RvHold, hs = List.replicate 4096 hold1 := ⟨_, rfl⟩

/-- A run with an SC fence before what it issues now. -/
def thrSc (l : List (Nat × RegVal)) : Thread :=
  { thr l with run := { Run.start (archOf l) with buf := [{ op := .fence .sc .dv, after := [], addr := 0 }], count := 1 } }

/-- A table without room where a word is empty or claimed; a run with an SC fence that nothing else holds back, and one that an earlier
store does. -/
theorem witness_ScratchpadLoads_stalls : ∃ (s s1 s2 s3 : State) (r : TRef) (t t2 : Thread) (g : Wg) (a k : Nat),
    (∀ x ∈ [(s, t), (s1, t), (s2, t2), (s3, t2)], x.1.mustWait r x.2 = false ∧ Accessing x.1 r x.2 g [a] [3] .loads ∧
      x.1.reachScratch r ((x.2.arch.reg a).bits + BitVec.ofInt 32 (0 * 4)) 4 .load = .ok (.key k)) ∧
    s.isFull k = false ∧ s.claimed k (some r) = false ∧ s.monitorRoom (s.coreOf r) 1 = false ∧ s1.claimed k (some r) = true ∧
    s1.monitorRoom (s1.coreOf r) 1 = false ∧ t.run.scFenced = false ∧ t2.run.scFenced = true ∧ s2.earlyMay r t2 = true ∧
    s2.claimed k (some r) = false ∧ s2.cmdAt r t2.seq (.key k) 4 = false ∧ s2.popsOf r = [] ∧ s2.isFull k = true ∧
    s3.earlyMay r t2 = false := by
  obtain ⟨hs, hh⟩ := holds_exist
  let l := [(5, n32 0x780010)]
  let far : PStore := { id := 0, who := r0, run := 0, core := 0, op := .store (.remote 3 64) [1] .keep none, rel := 0, loads := [],
                        counted := true, monitor := false, age := 0, spilled := false, remote := none }
  refine ⟨{ st l with rvHolds := hs }, { st l with claims := [(kScratch 0 16, { wg := 0, tid := 1 })], rvHolds := hs }, { stT (thrSc l) with full := [kScratch 0 16] },
    { stT (thrSc l) with stores := [far] }, r0, thr l, thrSc l, wg0, 5, kScratch 0 16, ?_, (show (st l).isFull (kScratch 0 16) = false by decide),
    (show (st l).claimed (kScratch 0 16) (some r0) = false by decide), full_room hh (by omega) rfl rfl rfl rfl,
    (show ({ st l with claims := [(kScratch 0 16, { wg := 0, tid := 1 })] } : State).claimed (kScratch 0 16) (some r0) = true by decide),
    full_room hh (by omega) rfl rfl rfl rfl, by decide⟩
  simp only [List.forall_mem_cons]
  refine ⟨⟨rfl, accessing_of (ready_of rfl rfl rfl rfl rfl rfl (by decide) (by decide) (by decide)) rfl, (show (st l).reachScratch r0 (((thr l).arch.reg 5).bits + BitVec.ofInt 32 (0 * 4)) 4 .load = .ok (.key (kScratch 0 16)) by decide)⟩,
    ⟨rfl, accessing_of (ready_of rfl rfl rfl rfl rfl rfl (by decide) (by decide) (by decide)) rfl, (show (st l).reachScratch r0 (((thr l).arch.reg 5).bits + BitVec.ofInt 32 (0 * 4)) 4 .load = .ok (.key (kScratch 0 16)) by decide)⟩,
    ⟨by decide, accessing_of (ready_of rfl rfl rfl rfl rfl rfl (by decide) (by decide) (by decide)) rfl, by decide⟩,
    ⟨by decide, accessing_of (ready_of rfl rfl rfl rfl rfl rfl (by decide) (by decide) (by decide)) rfl, by decide⟩, by intro x hx; cases hx⟩

/-- A scratchpad word where the wait table has no room. -/
theorem witness_Stores_stalls : ∃ (s : State) (r : TRef) (t : Thread) (g : Wg) (a b : Nat), Accessing s r t g [a, b] [] .stores ∧
    s.reachScratch r ((t.arch.reg a).bits + BitVec.ofInt 32 (0 * 4)) 4 .store = .ok (.key (kScratch 0 16)) ∧
    s.monitorRoom (s.coreOf r) 1 = false :=
  let ⟨hs, hh⟩ := holds_exist
  let l := [(6, n32 9), (8, n32 0x780010)]
  ⟨{ st l with rvHolds := hs }, r0, thr l, wg0, 8, 6, accessing_of (ready_of rfl rfl rfl rfl rfl rfl (by decide) (by decide) (by decide)) rfl, (show (st l).reachScratch r0 (((thr l).arch.reg 8).bits + BitVec.ofInt 32 (0 * 4)) 4 .store = .ok (.key (kScratch 0 16)) by decide),
    full_room hh (by omega) rfl rfl rfl rfl⟩

/-- Waits on a word of scratchpad: where the wait table has no room; after an SC fence of the run that nothing else holds back, and
that an earlier load does. A line of HBM with its translation. -/
theorem witness_FencesAndWaits_stalls : ∃ (s s1 s2 s3 : State) (r : TRef) (t t1 t3 : Thread) (g : Wg) (c b k : Nat),
    (∀ x ∈ [(s, t), (s1, t1), (s2, t1)], x.1.mustWait r x.2 = false ∧ Accessing x.1 r x.2 g [c] [3] .loads ∧
      x.1.reachScratch r ((x.2.arch.reg c).bits + BitVec.ofInt 32 ((0 : Nat) * 4)) 4 .load = .ok (.key k)) ∧ isScratch k = true ∧
    s.isFull k = false ∧ s.monitorRoom (s.coreOf r) 1 = false ∧ t.run.scFenced = false ∧ t1.run.scFenced = true ∧
    s1.earlyMay r t1 = true ∧ s2.earlyMay r t1 = false ∧ Ready s3 r t3 g [b, b + 1] [] ∧
    s3.engineAt (s3.partOf r) t3.arch.sup .load ((t3.arch.pair b + BitVec.ofInt 64 (0 * 128)) &&& ~~~(127 : DWord)) = .ok (.key 0) ∧
    inScratchRange ((t3.arch.pair b + BitVec.ofInt 64 (0 * 128)) &&& ~~~(127 : DWord)) = false ∧
    ∀ j, j < 128 → s3.isPoisoned (0 + j) = false := by
  obtain ⟨hs, hh⟩ := holds_exist
  let l := [(5, n32 0x780010)]
  let m := [(4, n32 16), (5, n32 0)]
  refine ⟨{ st l with rvHolds := hs }, stT (thrSc l), { stT (thrSc l) with loads := [load0] }, { st m with mem := pageTable, parts := [(0, part0 [])] }, r0,
    thr l, thrSc l, thr m, wg0, 5, 4, kScratch 0 16, ?_, by decide,
    (show (st l).isFull (kScratch 0 16) = false by decide), full_room hh (by omega) rfl rfl rfl rfl, by decide, by decide, by decide,
    by decide, ready_of rfl rfl rfl rfl rfl rfl (by decide) (by decide) (by decide), by decide, by decide,
    by intro j _; simp [State.isPoisoned, st, State.reset]⟩
  simp only [List.forall_mem_cons]
  refine ⟨⟨rfl, accessing_of (ready_of rfl rfl rfl rfl rfl rfl (by decide) (by decide) (by decide)) rfl, (show (st l).reachScratch r0 (((thr l).arch.reg 5).bits + BitVec.ofInt 32 ((0 : Nat) * 4)) 4 .load = .ok (.key (kScratch 0 16)) by decide)⟩,
    ⟨by decide, accessing_of (ready_of rfl rfl rfl rfl rfl rfl (by decide) (by decide) (by decide)) rfl, by decide⟩,
    ⟨by decide, accessing_of (ready_of rfl rfl rfl rfl rfl rfl (by decide) (by decide) (by decide)) rfl, by decide⟩, by intro x hx; cases hx⟩

/-- A run whose read before its own SC fence another thread's fence has overtaken. -/
theorem witness_FaultsAndReturns_spoiled : ∃ (s s' : State) (r : TRef) (t : Thread) (g : Wg), s.thread r = some t ∧ s.wg r.wg = some g ∧
    r.acc = false ∧ s.spoiled r t.seq = true ∧ s'.thread r = some t ∧ s'.wg r.wg = some g ∧ s'.spoiled r t.seq = false :=
  ⟨{ st [] with scReads := [{ who := r0, seq := 0, scs := [.dv], run := none, spoiled := true }] }, st [], r0, thr [], wg0, by decide⟩

/-- A request on a word with arrivals left that are too few for it, and with bytes pending; the thread of a request. -/
theorem witness_RendezvousArrivals_counts : ∃ (s : State) (k1 k2 da : Nat) (u : Thread), Memory.wf s.mem ∧ s.waiters = [] ∧
    (∀ q ∈ s.stores, q.monitor = false) ∧ (∀ k ∈ [k1, k2], (∀ h ∈ s.rvHolds, h.key ≠ k) ∧ k ∉ s.rvOpen) ∧
    min da (s.rvRead k1).arrivals < da ∧ 0 < (s.rvRead k1).arrivals ∧ (s.rvRead k1).arrivals - min da (s.rvRead k1).arrivals = 0 ∧
    (((s.rvRead k2).bytes : Int) + -5) % 2 ^ 40 ≠ 0 ∧ (s.rvRead k2).arrivals = 1 ∧ s.thread r0 = some u ∧ u.status = .running ∧
    u.arch.frame = none :=
  let w := fun (a b : Nat) => natLe 8 (RvWord.toNat { phase := false, arrivals := a, bytes := b })
  ⟨{ st [] with mem := Memory.writeN (Memory.writeN [] (kScratch 0 64) (w 2 0)) (kScratch 0 128) (w 1 9) }, kScratch 0 64,
    kScratch 0 128, 3, thr [], by decide⟩

/-- The SYNC forms on a word in scratchpad with and without uncorrectable data; the count of rvinit at its bound. -/
theorem witness_RendezvousArrivals_sync : ∃ (s s' : State) (h : HeldRun) (c : List Cmd) (k : Nat) (t : Thread),
    (∀ x ∈ c, x.loc = some (.key k) ∧ (x.words.getD 0 0).toNat = 2 ^ 23 - 1 ∧ x.op.isSync = true) ∧
    c.map (·.op) = [.rvinit, .arrive, .arriven, .expect, .pledge, .rvleave] ∧ s.syncBad k = false ∧ s'.syncBad k = true ∧
    t.status = .running ∧ t.arch.frame = none ∧ (∀ x ∈ [s, s'], x.thread h.who = some t ∧ Memory.wf x.mem ∧ x.waiters = [] ∧
      ∀ q ∈ x.stores, q.monitor = false) ∧ Memory.wf ((s.mirrorFor h.who).releaseAt h.core (s.rvScope h.who k)).mem := by
  let c : CmdOp → Cmd := fun o => { op := o, d := 3, words := [0x7FFFFF], loc := some (.key (kScratch 0 64)), dests := [3], cls := .loads }
  exact ⟨st [], { st [] with poisoned := [codeword (kScratch 0 64)] }, heldRun none,
    [.rvinit, .arrive, .arriven, .expect, .pledge, .rvleave].map c, kScratch 0 64, thr [], by decide⟩

/-- The workgroup with a queue of four slots, of four bytes or of eight, in its scratchpad. -/
def wgQ (es : Bool) : Wg :=
  { wg0 with qcs := { v := true, base := kScratch 0 64, ld := 2, es := es, head := 1, tail := 3 } :: List.replicate 7 {} }

/-- QUEUE commands on it, where the slots before head and tail are free and where they are full. -/
theorem witness_RendezvousArrivals_queues : ∃ (s s' : Bool → State) (h : HeldRun) (c : Cmd) (t : Thread) (kt kh : Bool → Nat),
    c.after = [] ∧ c.p = 0 ∧ (c.words.getD 2 0).toNat < 7 ∧ t.status = .running ∧ t.arch.frame = none ∧
    ∀ es ∈ [false, true], ∀ x ∈ [s es, s' es], x.wg h.who.wg = some (wgQ es) ∧ (wgQ es).isOq c.p = false ∧ c.p < (wgQ es).qcs.length ∧
      x.thread h.who = some t ∧ Memory.wf x.mem ∧ x.waiters = [] ∧ x.stores = [] ∧ x.loads = [] ∧ x.held = [] ∧ x.rvHolds = [] ∧
      x.fab.remotes = [] ∧ x.claims = [] ∧
      (let q := (wgQ es).qc c.p
       kt es = q.base + q.tail.toNat % 2 ^ q.ld * (if q.es then 8 else 4) ∧ kh es = q.base + q.head.toNat % 2 ^ q.ld * (if q.es then 8 else 4)) ∧
      (∀ k ∈ [kt es, kh es], isScratch k = true ∧ scratchCore k = h.core ∧ (wgQ es).holds k 4 = true ∧ x.still h.who k 4 = true ∧
        x.poisonedIn k 8 = false) ∧
      (s es).isFull (kt es) = false ∧ (s es).isFull (kh es) = false ∧ (s' es).isFull (kt es) = true ∧ (s' es).isFull (kh es) = true := by
  let kt : Bool → Nat := fun es => kScratch 0 (if es then 88 else 76)
  let kh : Bool → Nat := fun es => kScratch 0 (if es then 72 else 68)
  exact ⟨fun es => stW [] (wgQ es), fun es => { stW [] (wgQ es) with full := [kh es, kt es] }, heldRun none,
    { op := .qpush, d := 3, p := 0, words := [5, 6, 2] }, thr [], kt, kh, by decide⟩

/-- v[ix] poisoned. -/
theorem witness_IndirectMovesAndSpecialRegisters_poison : ∃ (s : State) (r : TRef) (t : Thread) (g : Wg) (d : Nat) (f : FaultInfo),
    r.acc = false ∧ Ready s r t g [] [d] ∧ t.arch.ix.toNat < g.allot ∧ t.arch.ix.toNat ∉ t.busy ∧
    (t.arch.regs.get t.arch.ix.toNat).poison = some f :=
  let a := archOf []
  let t := { thr [] with arch := { a with ix := 9, regs := { a.regs with cells := [(9, { val := n32 0, poison := some (plainFault .uncorr) })] } } }
  ⟨stT t, r0, t, wg0, 3, plainFault .uncorr, rfl, ready_of rfl rfl rfl rfl rfl rfl (by decide) (by decide) (by decide), by decide, by decide,
    by decide⟩

/-- A wait table without room, where a SYNC form, a push and a pop, a MZTAKE and a MZSINK stall. -/
theorem witness_EnginesWhenIssued_full : ∃ (s : State) (r : TRef) (t : Thread) (g : Wg) (a b c : Nat),
    Accessing s r t g [a] [3] .loads ∧ s.blockAt r (t.arch.reg a).bits 8 16 .atomic = .ok (kScratch 0 64) ∧
    Accessing s r t g [a, c] [3] .loads ∧ (t.arch.reg c).bits.toNat = 1 ∧ (g.qc 0).v = true ∧ (g.qc 0).es = false ∧ g.isOq 0 = false ∧
    Accessing s r t g [b] [3] .stores ∧ Accessing s r t g [b] [3] .loads ∧ validTag ((t.arch.reg b).bits.toNat % 65536) = true ∧
    s.monitorRoom (s.coreOf r) 1 = false :=
  let ⟨hs, hh⟩ := holds_exist
  let l := [(5, n32 0x780040), (6, n32 0x2), (7, n32 1)]
  let g := wgQ false
  let acc := fun (rd : List Nat) (c : Cls) (h : ∀ x ∈ rd ++ [3], x < allotOf r0 g)
      (hp : ∀ x ∈ rd, ((archOf l).regs.get x).poison = none) =>
    (accessing_of (ready_of rfl rfl rfl rfl rfl rfl h (by intro x _ hx; cases hx) hp) (by cases c <;> rfl) :
      Accessing { stW l g with rvHolds := hs } r0 (thr l) g rd [3] c)
  ⟨{ stW l g with rvHolds := hs }, r0, thr l, g, 5, 6, 7, acc [5] .loads (by decide) (by decide),
    (show (stW l g).blockAt r0 ((thr l).arch.reg 5).bits 8 16 .atomic = .ok (kScratch 0 64) by decide),
    acc [5, 7] .loads (by decide) (by decide), by decide, rfl, rfl, rfl, acc [6] .stores (by decide) (by decide),
    acc [6] .loads (by decide) (by decide), by decide, full_room hh (by omega) rfl rfl rfl rfl⟩

/-- A queue of elements of eight bytes; a thread with an acquire under way; a QINIT in an open lodge. -/
theorem witness_EnginesWhenIssued_tries : ∃ (s s1 s2 : State) (r : TRef) (t t1 t2 : Thread) (g g2 : Wg) (a : Nat),
    (∀ x ∈ [(s, t), (s1, t1)], Accessing x.1 r x.2 g [a, a + 1] [3] .stores ∧ Accessing x.1 r x.2 g [a] [8, 9] .loads) ∧
    (g.qc 0).v = true ∧ (g.qc 0).es = true ∧ g.isOq 0 = false ∧ s.monitorRoom (s.coreOf r) 1 = true ∧ t.acq = [] ∧ t1.acq ≠ [] ∧
    validTag ((t.arch.reg a).bits.toNat % 65536) = true ∧ Accessing s2 r t2 g2 [a, a + 1] [3] .none ∧
    (let x := t2.arch.pair a
     let n := 2 ^ min (x.toNat / 2 ^ 32 % 16) 12 * 4
     x.getLsbD 36 = false ∧ s2.blockAt r (x.setWidth 32) 4 n .store = .ok (kScratch 0 0x40000) ∧
       ∀ h ∈ s2.ensemble g2, h.holds (kScratch 0 0x40000) n = false) := by
  let l := [(6, n32 0x2), (7, n32 0)]
  let l2 := [(6, n32 0x7C0000), (7, n32 2)]
  let t1 := { thr l with acq := [7] }
  let g := wgQ true
  let g2 := { wg0 with opens := [1] }
  refine ⟨stW l g, { stW l g with threads := [(0, t1)] }, { stW l2 g2 with lodges := [lodge1] }, r0, thr l, t1, thr l2, g, g2, 6, ?_, rfl, rfl,
    rfl, by decide, rfl, by decide, by decide,
    accessing_of (ready_of rfl rfl rfl rfl rfl rfl (by decide) (by decide) (by decide)) rfl, by decide⟩
  simp only [List.forall_mem_cons]
  exact ⟨⟨access_w _ _ _ _ _ (by decide) (by decide), access_w _ _ _ _ _ (by decide) (by decide)⟩,
    ⟨accessing_of (ready_of rfl rfl rfl rfl rfl rfl (by decide) (by decide) (by decide)) rfl,
     accessing_of (ready_of rfl rfl rfl rfl rfl rfl (by decide) (by decide) (by decide)) rfl⟩, by intro x hx; cases hx⟩

/-- Operand words that a tile operation refuses, and ones that it keeps. -/
theorem witness_ArrayWhenIssued_early : ∃ (s : State) (r : TRef) (t : Thread) (g : Wg) (b c e : Nat) (x y : Cmd), g.tiles.length = 16 ∧
    (∀ i ∈ [b, c], Accessing s r t g [i] [] .tiles) ∧ (t.arch.reg b).bits = 16 ∧ (t.arch.reg c).bits = 15 ∧
    x = { op := .tcvt, d := 0, p := 1, words := [(t.arch.reg b).bits], cls := .tiles } ∧ x.refused = true ∧ (s.tileFault r g x []).isSome = true ∧
    ({ x with words := [(t.arch.reg c).bits] } : Cmd).refused = true ∧ Accessing s r t g [e, e + 1] [] .tiles ∧
    y = { op := .tzero, d := 0, addr := t.arch.pair e, cls := .tiles } ∧ (s.tileFault r g y []).isSome = true ∧
    ({ x with words := [13] } : Cmd).refused = false :=
  let l := [(5, n32 16), (6, n32 15), (8, n32 1), (9, n32 0xFFFFFFFF)]
  ⟨stW l wg0, r0, thr l, wg0, 5, 6, 8, _, _, rfl, by
    simp only [List.forall_mem_cons]
    exact ⟨access_w _ _ _ _ _ (by decide) (by decide), access_w _ _ _ _ _ (by decide) (by decide), by intro x hx; cases hx⟩, by decide, by
    decide, rfl, by decide, by decide, by decide, access_w _ _ _ _ _ (by decide) (by decide), rfl, by decide, by decide⟩

/-- MZSTAT with item 15 and with item 0; a MZTAKE of a set and of none; effects at addresses that no word has. -/
theorem witness_MazeLodgeAndSystemWhenIssued_maze : ∃ (s : State) (r : TRef) (t : Thread) (g : Wg) (h n b x y : Nat),
    (∀ i ∈ [n, b], Accessing s r t g [h, i] [3] .loads) ∧ Accessing s r t g [n, n] [3] .loads ∧
    (let c := fun (o : CmdOp) (i j : Nat) => ({ op := o, words := [(t.arch.reg i).bits, (t.arch.reg j).bits], d := 3, dests := [3],
                                                 cls := .loads } : Cmd)
     s.mazeOwnFault g (c .mzstat h b) = some (plainFault .cmdblock) ∧ s.mazeOwnFault g (c .mzstat h n) = none ∧
       s.mazeOwnFault g (c .mztake h n) = none ∧ s.mazeOwnFault g (c .mztake n n) = some (mazeCode 1) ∧
       s.mazeOwnFault g (c .mztake h b) = some (mazeCode 3)) ∧ s.monitorRoom (s.coreOf r) 1 = true ∧
    Accessing s r t g [x, x + 1, n, 10, 11] [] .stores ∧ Accessing s r t g [y, y + 1, n, 10, 11] [] .stores ∧
    (t.arch.reg n).bits.toNat % 64 = 0 ∧ (t.arch.pair x).toNat % 4 ≠ 0 ∧ (t.arch.pair y).toNat % 4 = 0 ∧
    isCanonical (t.arch.pair y) = false :=
  let l := [(4, n32 256), (5, n32 0), (6, n32 0xF0), (8, n32 2), (9, n32 0), (10, n32 0), (11, n32 0), (12, n32 0), (13, n32 0x02000000)]
  ⟨{ stW l wg0 with mazes := [maze0] }, r0, thr l, wg0, 4, 5, 6, 8, 12, by
    simp only [List.forall_mem_cons]
    exact ⟨accessing_of (ready_of rfl rfl rfl rfl rfl rfl (by decide) (by decide) (by decide)) rfl,
      accessing_of (ready_of rfl rfl rfl rfl rfl rfl (by decide) (by decide) (by decide)) rfl, by intro x hx; cases hx⟩,
    accessing_of (ready_of rfl rfl rfl rfl rfl rfl (by decide) (by decide) (by decide)) rfl, by decide, by decide,
    accessing_of (ready_of rfl rfl rfl rfl rfl rfl (by decide) (by decide) (by decide)) rfl,
    accessing_of (ready_of rfl rfl rfl rfl rfl rfl (by decide) (by decide) (by decide)) rfl, by decide, by decide, by decide, by decide⟩

/-- Operands that SIGNAL, LAUNCH, CONT and TAKE refuse, and a restart address that is odd. -/
theorem witness_MazeLodgeAndSystemWhenIssued_refused : ∃ (s : State) (r : TRef) (t : Thread) (g : Wg) (a b c d e : Nat), g.persist = false ∧
    Accessing s r t g [a, b] [3] .loads ∧ (∃ k, s.blockAt r (t.arch.reg a).bits 128 128 .blockRead = .ok k ∧ s.mayScratch g k 128 = true) ∧
    15 < (t.arch.reg b).bits.toNat ∧ 2 ^ 18 ≤ (t.arch.reg a).bits.toNat ∧ Accessing s r t g [c, c + 1, d, d + 1] [] .none ∧
    3 ≤ (t.arch.reg (d + 1)).bits.toNat ∧ 2 ≤ (t.arch.reg (d + 1)).bits.toNat % 4 ∧ Accessing s r t g [d] [] .none ∧
    4 ≤ (t.arch.reg d).bits.toNat ∧ (t.arch.reg d).bits.getLsbD 1 = false ∧ Accessing s r t g [e, e + 1] [] .none ∧ g.idemok = true ∧
    (t.arch.pair e).getLsbD 0 = true :=
  let l := [(4, n32 0x780080), (5, n32 16), (6, n32 16), (7, n32 0), (8, n32 4), (9, n32 6), (10, n32 17), (11, n32 0)]
  let g := { wg0 with persist := false, idemok := true }
  ⟨stW l g, r0, thr l, g, 4, 5, 6, 8, 10, rfl, access_w _ _ _ _ _ (by decide) (by decide), ⟨kScratch 0 128, by decide, by decide⟩, by
    decide, by decide, access_w _ _ _ _ _ (by decide) (by decide), by decide, by decide, access_w _ _ _ _ _ (by decide) (by decide),
    by decide, by decide, access_w _ _ _ _ _ (by decide) (by decide), rfl, by decide⟩

/-- Thread 0 arrives at a ballot of lanes 0 to 4: thread 1 has not come, or is held there; thread 2 has exited, thread 3 has passed
the instruction with a false guard, and lane 4 has no thread. -/
theorem witness_LaneSetsAndArrivals_meet : ∃ (s s' : State) (r : TRef) (t u u' : Thread) (g : Wg) (a b : Nat), r.acc = false ∧
    (∀ x ∈ [s, s'], Ready x r t g [a, b, b + 1] [3] ∧ Ready x r t g [a, b] [3] ∧ Ready x r t g [b] []) ∧
    (t.arch.reg b).bits.getLsbD (r.tid % 32) = true ∧ t.arch.alone ≤ t.arch.xcount ∧ s.openMeetings r.wg = [] ∧
    (∀ x ∈ s'.openMeetings r.wg, x.mask = (t.arch.reg b).bits) ∧ s'.openMeetings r.wg ≠ [] ∧ (t.arch.reg b).bits = 31 ∧
    s.thread { wg := r.wg, tid := 1 } = some u ∧ u.status = .running ∧ t.arch.pc ∉ u.arch.skips ∧ u.arch.pc ≠ t.arch.pc ∧
    s'.thread { wg := r.wg, tid := 1 } = some u' ∧ u'.arch.pc = t.arch.pc ∧ (∃ y, u'.status = .held (t.arch.reg b).bits y) ∧
    (∃ v, s'.thread { wg := r.wg, tid := 2 } = some v ∧ v.status = .exited) ∧
    (∃ v, s'.thread { wg := r.wg, tid := 3 } = some v ∧ t.arch.pc ∈ v.arch.skips) ∧ s'.thread { wg := r.wg, tid := 4 } = none ∧
    t.arch.pc ∉ t.arch.skips ∧
    (let mask := (t.arch.reg b).bits
     let live := (s'.setThread r { t with status := .held mask { op := .ballot, d := 3, a := a, b := b } }).liveMembers
       { wg := r.wg, lset := r.tid / 32, pc := t.arch.pc, mask := mask }
     meetOk live = live ∧ live.length = 2 ∧ (live.head?.bind fun y => s'.thread y.who).map (·.arch.rm) = some .rne) := by
  let l := [(5, i32 1), (6, n32 31), (7, n32 0)]
  let away : Thread := { thr [] with arch := { archOf [] with pc := 64 } }
  let held : Thread := { thr l with status := .held 31 { op := .ballot, d := 3, a := 5, b := 6 } }
  let rest : List (Nat × Thread) := [(4, { thr [] with status := .exited }), (6, { thr [] with arch := { archOf [] with skips := [0] } })]
  let s : State := { st l with threads := (0, thr l) :: (2, away) :: rest }
  let s' : State := { st l with threads := (0, thr l) :: (2, held) :: rest }
  have h0 : s.thread r0 = some (thr l) ∧ s'.thread r0 = some (thr l) := by
    constructor <;> simp [s, s', State.thread, r0, TRef.key, alook]
  have h1 : s.thread { wg := 0, tid := 1 } = some away := by simp [s, State.thread, TRef.key, alook]
  have h2 : s'.thread { wg := 0, tid := 1 } = some held := by simp [s', State.thread, TRef.key, alook]
  have h3 : s'.thread { wg := 0, tid := 2 } = some { thr [] with status := .exited } := by
    simp [s', rest, State.thread, TRef.key, alook]
  have h4 : s'.thread { wg := 0, tid := 3 } = some { thr [] with arch := { archOf [] with skips := [0] } } := by
    simp [s', rest, State.thread, TRef.key, alook]
  have hr : ∀ x : State, x.cur = some r0 → x.wgs = [(0, wg0)] → x.thread r0 = some (thr l) →
      ∀ rd wr, (∀ y ∈ rd ++ wr, y < 128) → (∀ y ∈ rd, ((thr l).arch.regs.get y).poison = none) → Ready x r0 (thr l) wg0 rd wr :=
    fun x hc hw ht rd wr hb hp => ⟨hc, ht, wg_of hw, rfl, rfl, (by intro y hy; cases hy), hb, (by intro y _ hy; cases hy), hp⟩
  refine ⟨s, s', r0, thr l, away, held, wg0, 5, 6, rfl, ?_, by decide, by decide, by decide, by decide, by decide, by decide, h1, rfl,
    by decide, by decide, h2, rfl, ⟨_, rfl⟩, ⟨_, h3, rfl⟩, ⟨_, h4, by decide⟩, by decide, by decide, ?_⟩
  swap
  · decide
  intro x hx
  have h : x.cur = some r0 ∧ x.wgs = [(0, wg0)] ∧ x.thread r0 = some (thr l) := by
    have : x = s ∨ x = s' := by simpa using hx
    rcases this with rfl | rfl
    · exact ⟨rfl, rfl, h0.1⟩
    · exact ⟨rfl, rfl, h0.2⟩
  exact ⟨hr x h.1 h.2.1 h.2.2 _ _ (by decide) (by decide), hr x h.1 h.2.1 h.2.2 _ _ (by decide) (by decide),
    hr x h.1 h.2.1 h.2.2 _ _ (by decide) (by decide)⟩

/-- An atomic on a word of HBM of which the core's L1 holds a byte not yet written home: no other atomic at its cluster's unit, one of
another run on the same bytes there, and its own read there done; at WG scope and at DV scope no unit is asked. -/
theorem witness_AtomicsAct_hbm : ∃ (s s1 s2 : State) (h : HeldRun) (c : Cmd) (t : Thread) (k : Nat) (y : Rmw) (site : Nat),
    c.loc = some (.key k) ∧ isScratch k = false ∧ k + 8 ≤ 2 ^ 61 ∧ lineKey (k + 8 - 1) = lineKey k ∧ t.status = .running ∧
    t.arch.frame = none ∧ t.acqDrop = false ∧ unitSite h.core (.key k) .cl = some site ∧
    (∀ x ∈ [s, s1, s2], x.thread h.who = some t ∧ x.waiters = [] ∧ (∀ q ∈ x.stores, q.monitor = false) ∧ MemOk x ∧ asorted x.l1 ∧
      (∀ i < 8, x.isPoisoned (k + i) = false) ∧ x.freshL1 h.core (some (lineKey k)) = false) ∧
    alook (l1Key h.core k) s.l1 ≠ none ∧ s.rmws.find? (fun z => z.run == some h.id) = none ∧ s.siteBusy site k 8 = false ∧
    s1.rmws.find? (fun z => z.run == some h.id) = none ∧ s1.siteBusy site k 4 = true ∧
    s2.rmws.find? (fun z => z.run == some h.id) = some y ∧ y.old.length = 4 := by
  let c : Cmd := { op := .atom .add .cl, d := 3, words := [1, 2, 3, 4], loc := some (.key 16), dests := [3], cls := .loads }
  let y : Rmw := { site := clusOfCore 0, key := 16, old := [1, 0, 0, 0], run := some 4, req := none, begun := 0 }
  let s : State := { st [] with l1 := [(l1Key 0 16, { val := 1, dirty := true, rel := 0, due := 50 })] }
  refine ⟨s, { s with rmws := [{ y with run := some 9 }] }, { s with rmws := [y] }, heldRun (some c), c, thr [], 16, y, clusOfCore 0, by
    decide, by decide, by decide, by decide, rfl, rfl, rfl, by decide, ?_, by decide, by decide, by decide, by decide, by decide, rfl, rfl⟩
  intro x hx
  have h : x = s ∨ x = { s with rmws := [{ y with run := some 9 }] } ∨ x = { s with rmws := [y] } := by simpa using hx
  rcases h with rfl | rfl | rfl <;>
    exact ⟨thread_of rfl, rfl, (by intro q hq; cases hq), (show Memory.wf s.mem by decide), (by simp [asorted, s]), by decide, by decide⟩

/-- A command of thread 0 whose place is this word. -/
def cmdAt (o : CmdOp) (k : Nat) : Cmd := { op := o, d := 3, words := [1, 2, 3, 4], loc := some (.key k), dests := [3], cls := .loads }

/-- Only this run is held, at its release. -/
def stHeld (c : Cmd) : State := { st [] with held := [heldRun (some c)] }

/-- A command of each kind at its release: atomics and SYNCs that nothing holds, that an earlier fence of their thread does, at a
cluster's unit, and on a word that is the workgroup's no more; a CREAD that may go on. -/
theorem witness_ReleaseOfRuns_commands : ∃ (s s' : CmdOp → State) (z : State) (id : Nat) (h : CmdOp → HeldRun) (c : CmdOp → Cmd)
    (k m : Nat) (ops : List CmdOp),
    ops = [.atom .cas64 .dv, .arrive, .rvinit, .copy 0, .tgen, .mzdecl, .lopen, .take, .cread 0, .trapwr 1, .haltwg] ∧
    (∀ o ∈ ops, (c o).op = o ∧ (c o).loc = some (.key k) ∧ (h o).cmd = some (c o) ∧
      ∀ x ∈ [s o, s' o], x.held.find? (fun y => y.id == id) = some (h o) ∧ (h o).rel ≤ x.clock ∧
        (∀ y ∈ x.held, y.who = (h o).who → y.id < id → y.cmd = none) ∧ x.heldMay (h o) (c o) = true ∧
        x.heldBehind (h o) (c o) = false ∧ x.cmdGone (h o) (c o) = false) ∧
    (∀ o ∈ [CmdOp.arrive, .rvinit], (s o).syncReady (h o) k (c o) = true ∧ (s' o).syncReady (h o) k (c o) = false) ∧
    (∀ sc ∈ [Scope.wg, .cl, .dv, .sy], ∀ l ∈ [Loc.key k, .key 16],
      (s (.atom .cas64 sc)).atomReady r0 id (c (.atom .cas64 sc)) l 8 = true ∧
      (s' (.atom .cas64 sc)).atomReady r0 id (c (.atom .cas64 sc)) l 8 = false) ∧
    unitSite 0 (.key k) .cl = none ∧ unitSite 0 (.key 16) .cl = some 0 ∧ (s (.cread 0)).settled (h (.cread 0)) = true ∧
    (s' (.cread 0)).settled (h (.cread 0)) = false ∧ z.still r0 m 16 = false ∧
    z.held.find? (fun y => y.id == id) = some (heldRun (some (cmdAt .arrive m))) := by
  let fence : PStore := { pstore 7 0 .keep none with op := .fence .rel .dv }
  let k := kScratch 0 64
  exact ⟨fun o => stHeld (cmdAt o k), fun o => { stHeld (cmdAt o k) with stores := [fence] }, stHeld (cmdAt .arrive (kScratch 0 0x40000)), 4,
    fun o => heldRun (some (cmdAt o k)), fun o => cmdAt o k, k, kScratch 0 0x40000, _, rfl, by decide⟩

/-- A SIGNAL that an earlier store of its thread holds; a LODGE command behind an earlier one of its partition; an earlier run of the
thread that holds a command; a run with EXIT beside a thread that lives. -/
theorem witness_ReleaseOfRuns_waits : ∃ (s1 s2 s3 s4 : State) (id : Nat) (h1 h2 h4 : HeldRun) (c1 c2 : Cmd) (t u : Thread),
    s1.held.find? (fun x => x.id == id) = some h1 ∧ h1.rel ≤ s1.clock ∧ h1.cmd = some c1 ∧
    (∀ x ∈ s1.held, x.who = h1.who → x.id < id → x.cmd = none) ∧ s1.heldMay h1 c1 = false ∧
    s2.held.find? (fun x => x.id == id) = some h2 ∧ h2.rel ≤ s2.clock ∧ h2.cmd = some c2 ∧
    (∀ x ∈ s2.held, x.who = h2.who → x.id < id → x.cmd = none) ∧ s2.heldBehind h2 c2 = true ∧
    s3.held.find? (fun x => x.id == id) = some h2 ∧ (∃ x ∈ s3.held, x.who = h2.who ∧ x.id < id ∧ x.cmd ≠ none) ∧
    s4.held.find? (fun x => x.id == id) = some h4 ∧ h4.rel ≤ s4.clock ∧ s4.waiters = [] ∧ s4.openMeetings h4.who.wg = [] ∧ s4.cur = none ∧
    s4.thread h4.who = some t ∧ h4.who.tid < 512 ∧ h4.who.acc = false ∧ h4.cmd = none ∧ h4.exits = true ∧ t.status = .exited ∧
    s4.thread { wg := 0, tid := 1 } = some u ∧ u.status = .running ∧
    ∀ x ∈ s4.held, x.who = h4.who → x.id < id → x.cmd = none := by
  let h := heldRun (some (cmdAt .lopen 0))
  let first : HeldRun := { heldRun (some (cmdAt .lopen 0)) with id := 2, who := { wg := 0, tid := 1 }, rel := 4 }
  let h2 := { h with rel := 320 }
  let h4 := { heldRun none with exits := true }
  let gone : Thread := { thr [] with status := .exited }
  exact ⟨{ stHeld (cmdAt .signal 0) with stores := [pstore 7 16 .keep none] }, { st [] with held := [first, h2], clock := 320 },
    { st [] with held := [{ h2 with id := 3 }, h2] }, { st [] with held := [h4], cur := none, threads := [(0, gone), (2, thr [])] }, 4,
    heldRun (some (cmdAt .signal 0)), h2, h4, cmdAt .signal 0, cmdAt .lopen 0, gone, thr [], by decide⟩

/-- Quadrant 0 has just issued for thread 0, which is in this status, before these threads of its group. -/
def stG (st' : TStatus) (rs done : List TRef) : State :=
  { st [] with
    threads := [(0, { thr [] with status := st' })]
    quads := [(0, { active := some { todo := r0 :: rs, done := done, waitX := [] }, part := some 0, home := some 0 })] }

/-- Groups whose first thread has stalled, has issued with others left and as the last, and is held at a meeting. -/
theorem witness_StepRunsTheDecodedInstruction_settles : ∃ (s s1 s2 s3 : State) (q : Nat) (r r1 : TRef) (gr g1 g2 : Group) (t t3 : Thread)
    (m : Word) (k : XUse) (before : Nat × Nat),
    (∀ x ∈ [(s, gr), (s1, g1), (s2, g2), (s3, g1)], (x.1.quad q).active = some x.2 ∧ x.2.todo.head? = some r ∧ r ∉ x.2.todo.tail ∧
      r ∉ x.2.done ∧ r ∉ x.2.waitX) ∧
    (∀ x ∈ [s, s1, s2], x.thread r = some t) ∧ t.arch.skips = [] ∧ t.status = .running ∧ s3.thread r = some t3 ∧ t3.arch.skips = [] ∧
    t3.status = .held m k ∧ gr.todo = [r] ∧ (t.seq, t.run.count) = (t.seq, 0) ∧ (t.seq, t.run.count) ≠ before ∧ g1.todo = [r, r1] ∧
    g2.todo = [r] ∧ g2.done = [r1] ∧
    s3.sys.power.gated = false := by
  let r1 : TRef := { wg := 0, tid := 1 }
  exact ⟨stG .running [] [], stG .running [r1] [], stG .running [] [r1], stG (.held 3 { op := .lsync, d := 0, a := 5, b := 5 }) [r1] [], 0,
    r0, r1, { todo := [r0], done := [], waitX := [] }, { todo := [r0, r1], done := [], waitX := [] },
    { todo := [r0], done := [r1], waitX := [] }, thr [], { thr [] with status := .held 3 { op := .lsync, d := 0, a := 5, b := 5 } }, 3,
    { op := .lsync, d := 0, a := 5, b := 5 }, (7, 7), by decide⟩

/-- A page of another domain, and one of this domain. -/
theorem witness_FetchesReadMemory_domain : ∃ (s : State) (r : TRef) (t : Thread) (g : Wg) (a : DWord) (e : TlbEntry) (m pa : Nat),
    s.thread r = some t ∧ s.wg r.wg = some g ∧ inScratchRange a = false ∧ isCanonical a = true ∧
    s.tlbFind (s.coreOf r) g.part a = some e ∧ s.checkPage g.part t.arch.sup .fetch e.trans a = .ok (.remote m pa) ∧
    pa / 2 ^ 44 ≠ s.fab.domain :=
  let e : TlbEntry := { farEntry with pa := 2 ^ 44 * 3 }
  ⟨{ st [] with tlb := [e] }, r0, thr [], wg0, 30, e, 7, 2 ^ 44 * 3 + 30, by decide⟩

/-- Seven commands that hold channels of core 0, and eight. -/
def channels (n : Nat) : List Copy := (List.range n).map fun i => { copy0 with id := 20 + i, started := true }

/-- No command; commands with and without a channel left, one that waits for a claimed word and holds its channel, a REDUCE. -/
theorem witness_CommandsRun_channels : ∃ (s s1 s2 s3 s4 : State) (c c2 c4 : Copy) (t : Thread) (g : Wg),
    (∀ x ∈ [(s1, c), (s2, c2), (s3, c), (s4, c4)], x.1.wg x.2.who.wg = some g ∧ x.1.thread x.2.who = some t ∧ x.1.waiters = [] ∧
      x.1.stores = [] ∧ Memory.wf x.1.mem ∧ x.1.nextCopy x.2.core = some x.2 ∧ x.2.aborted = false) ∧
    s.nextCopy 0 = none ∧ c.channel = false ∧ 8 ≤ s1.channelsHeld c.core ∧ c2.channel = false ∧ s2.channelsHeld c2.core = 0 ∧ s2.copyWaits c2 = true ∧
    s3.channelsHeld c.core = 7 ∧ s3.copyWaits c = false ∧ s3.copyFar g c = [] ∧ c.kind ≠ 8 ∧ c4.kind = 8 ∧ s4.copyWaits c4 = false ∧
    s4.copyFar g c4 = [] ∧ s4.channelsHeld c4.core = 0 := by
  let c2 : Copy := { copy0 with kind := 1, blk := { copy0.blk with count0 := 1, esize := 4, laddr := 0x780040 } }
  let c4 : Copy := { copy0 with kind := 8 }
  exact ⟨st [], { st [] with copies := copy0 :: channels 8 }, { st [] with copies := [c2], claims := [(kScratch 0 64, r0)] },
    { st [] with copies := copy0 :: channels 7 }, { st [] with copies := [c4] }, copy0, c2, c4, thr [], wg0, by decide⟩

/-- A last write of a release, whose other writes are out and are not; a write to another module. -/
theorem witness_CommandsRun_writes : ∃ (s s1 s2 : State) (c c1 c2 : Copy) (w w2 : CopyWrite) (m pa : Nat) (t : Thread) (g : Wg) (j : Nat)
    (e : L1Cell),
    (∀ x ∈ [(s, c), (s1, c1), (s2, c2)], x.1.copies.find? (fun y => y.id == x.2.id) = some x.2 ∧ x.2.started = true ∧ x.1.waiters = [] ∧
      x.1.stores = [] ∧ Memory.wf x.1.mem ∧ x.1.wg x.2.who.wg = some g ∧ x.1.thread x.2.who = some t ∧ x.2.rvKey = none ∧
      x.1.claims = []) ∧ c.writes = [w] ∧ c1.writes = [w] ∧ c.blk.rel = true ∧ c1.blk.rel = true ∧ c.sentWrites ≠ [] ∧ c1.sentWrites = [] ∧
    w.bytes ≠ [] ∧ (scopeOfCode c1.blk.scope).wide = true ∧ asorted s1.l1 ∧ alook (l1Key c1.core j) s1.l1 = some e ∧ j < 2 ^ 70 ∧
    isScratch j = false ∧ e.dirty = true ∧ e.rel ≤ s1.clock ∧ c2.writes = [w2] ∧ w2.bytes ≠ [] ∧ c2.blk.rel = false ∧
    (∀ x ∈ w2.bytes.zipIdx, x.1.loc = .remote m (pa + x.2)) ∧ w2.bytes.length = 2 := by
  let c1 : Copy := { copy0 with started := true, writes := [write0], blk := { copy0.blk with rel := true, scope := 2 } }
  let c : Copy := { c1 with sentWrites := [{ write0 with id := 9 }] }
  let w2 : CopyWrite := { write0 with bytes := [{ byte0 64 1 false with loc := .remote 3 128 }, { byte0 65 2 true with loc := .remote 3 129 }] }
  let c2 : Copy := { copy0 with started := true, writes := [w2] }
  let e : L1Cell := { val := 7, dirty := true, rel := 0, due := 50 }
  exact ⟨{ st [] with copies := [c] }, { st [] with copies := [c1], l1 := [(l1Key 0 16, e)] }, { st [] with copies := [c2] }, c, c1, c2,
    write0, w2, 3, 128, thr [], wg0, 16, e, by decide, rfl, rfl, by decide, by decide, by decide, rfl, by decide, by decide,
    by simp [asorted], by decide⟩

/-- An operation whose A is marked uncorrectable; a BALANCE beside an operation that is running on its array. -/
theorem witness_ArrayRuns_bad : ∃ (s s1 : State) (o o1 : TileOp) (g : Wg),
    (∀ x ∈ [(s, o), (s1, o1)], x.1.tileOps.find? (fun y => y.id == x.2.id) = some x.2 ∧ x.1.wg x.2.wg = some g ∧ x.2.phase = .running) ∧
    o.cmd.op = .pmarg ∧ o.pass < o.passes ∧ s.tileClaimed g o = false ∧ s.passBad g o = true ∧ o1.cmd.op = .balance ∧
    o1.plan.stopped = false ∧ g.saved = false ∧ s1.arrayBusy g.quad o1 = true := by
  let p := { op0 .pform .running with td := { tile0 with rows := 1, cols := 1 }, ta := { tile0 with rows := 1, cols := 1 } }
  let o : TileOp := { p with cmd := { op := .pmarg, words := [0x780000, 0], cls := .tiles } }
  let b : TileOp := op0 .balance .running
  exact ⟨{ st [] with tileOps := [o], poisoned := [codeword (kScratch 0 0)] }, { st [] with tileOps := [b, { op0 .mma .running with id := 9 }] },
    o, b, wg0, by decide⟩

/-- An MMA that is done, with REL, at a rendezvous word without arrivals, with more than one, and with the last. -/
theorem witness_ArrayRuns_arrivals : ∃ (s : Nat → State) (o : Nat → TileOp) (k : Nat → Nat) (g : Wg) (t : Thread) (j : Nat) (e : L1Cell),
    (∀ n ∈ [0, 1, 2], (s n).tileOps.find? (fun x => x.id == (o n).id) = some (o n) ∧ (s n).wg (o n).wg = some g ∧
      (s n).tileDone (o n) = true ∧ (s n).claims = [] ∧ (s n).thread (o n).who = some t ∧ t.status = .running ∧ (o n).cmd.dests = [] ∧
      Memory.wf (s n).mem ∧ (s n).waiters = [] ∧ (s n).stores = [] ∧ (o n).cmd.op = .mma ∧ (o n).arrival = none ∧ (s n).rvHolds = [] ∧
      (let b := MmaBlock.parse (o n).cmd.block
       b.rv = true ∧ b.rel = true ∧ (scopeOfCode b.scope).wide = true ∧ (s n).scratchAt g b.rvaddr 16 = .ok (k n)) ∧
      2 ^ 61 ≤ k n ∧ ((s n).rvRead (k n)).arrivals = n ∧ ((s n).rvRead (k n)).bytes = 0 ∧ alook (l1Key (o n).core j) (s n).l1 = some e) ∧
    (∀ n, asorted (s n).l1) ∧ j < 2 ^ 61 ∧ e.dirty = true ∧ e.rel = 0 := by
  let block := List.replicate 24 0 ++ natLe 4 (2 ^ 10 + 2 * 2 ^ 11 + 2 ^ 13) ++ List.replicate 8 0 ++ natLe 4 0x780040 ++ List.replicate 24 0
  let o : TileOp := { op0 .mma .running with pass := 100000, cmd := { op := .mma, words := [0, 0], block := block, cls := .tiles } }
  let e : L1Cell := { val := 7, dirty := true, rel := 0, due := 50 }
  let w := fun (n : Nat) => natLe 8 (RvWord.toNat { phase := true, arrivals := n, bytes := 0 })
  exact ⟨fun n => { st [] with tileOps := [o], l1 := [(l1Key 0 16, e)], mem := Memory.writeN [] (kScratch 0 64) (w n) }, fun _ => o,
    fun _ => kScratch 0 64, wg0, thr [], 16, e, by decide, by simp [asorted], by decide⟩

/-- A TST of two elements that is done, whose places its commit has settled. -/
theorem witness_ArrayRuns_tst : ∃ (s : State) (o : TileOp) (g : Wg) (t : Thread) (key : Nat → Nat),
    s.tileOps.find? (fun x => x.id == o.id) = some o ∧ s.wg o.wg = some g ∧ s.tileDone o = true ∧ s.claims = [] ∧
    s.thread o.who = some t ∧ t.status = .running ∧ o.cmd.dests = [] ∧ Memory.wf s.mem ∧ s.waiters = [] ∧ s.stores = [] ∧ s.l1 = [] ∧
    o.cmd.op = .tst ∧ o.phase = .running ∧ o.stores = [] ∧ o.td.indices.length = 2 ∧
    (let f := o.cmd.words.getD 1 0
     let n := fmtSize f.toNat
     let at' := fun (ij : Nat × Nat) => o.cmd.addr + BitVec.ofNat 64 (ij.1 * (o.cmd.words.getD 0 0).toNat + ij.2 * n)
     n = 4 ∧ (∀ x ∈ o.td.indices.zipIdx, s.tilePlace g o .store x.2 (at' x.1) = .ok (.key (key x.2))) ∧ key 0 + n ≤ key 1 ∧
       key 1 + n ≤ 2 ^ 61) := by
  let o : TileOp := { op0 .tst .running with
    td := { tile0 with rows := 1, cols := 2 }
    cmd := { op := .tst, words := [8, tagF32.setWidth 32], addr := 0x100, cls := .tiles }
    places := [some (.key 0x100), some (.key 0x104)] }
  exact ⟨{ st [] with tileOps := [o] }, o, wg0, thr [], fun i => 0x100 + 4 * i, by decide⟩

/-- A complete record with a claimed word; a pending move that is to be cancelled. -/
theorem witness_MazeAndLodgesRun_claims : ∃ (s s1 : State) (m : MazeSet) (r : MazeRec) (l : Lodge), s.maze 0 0 = some m ∧
    m.completing = [r] ∧ s.mazeOwns m r.key 64 = true ∧ s.mazePaused m = false ∧ s.mazeRoom m m.sink = true ∧ s.mazeClaimed m [r] = true ∧
    Memory.wf s1.mem ∧ s1.lodges = [l] ∧ s1.lodgeWaits = [] ∧ s1.mayCancel l = true :=
  let m := { maze0 with heldRecs := [], completing := [rec0] }
  let l := { lodge1 with pend := .place 1 }
  ⟨{ st [] with mazes := [m], claims := [(kScratch 0 0x400, r0)] }, { st [] with lodges := [l] }, m, rec0, l, by decide⟩

/-- A queue whose replay is due; a record that waits for a signal, with it and without. -/
theorem witness_QueuesAndRecords_due : ∃ (s s1 : State) (b b1 : QBlock) (slots : List Nat) (x : Launch) (bs : Nat → List Byte),
    (∀ y ∈ [(s, b), (s1, b1)], (y.1.part 0).defined = true ∧ (y.1.part 0).suspended = false ∧ (y.1.part 0).resetWait = false ∧
      y.1.queueAt 0 0 = some y.2 ∧ y.1.waiters = [] ∧ y.1.stores = []) ∧
    alook 0 (s.part 0).replayDue = some slots ∧ s1.launch x.id = some x ∧ x.recSlots = 4 ∧ x.conts = [] ∧
    (∀ r ∈ [2, 3], s1.agentRead x.part (recAddr x.pkt.tasks r) 128 = some (bs r) ∧ (TaskRec.parse (bs r)).wkind = 2 ∧
      (TaskRec.parse (bs r)).state = 1) ∧ s1.recHolds x 3 (TaskRec.parse (bs 3)) = true ∧ s1.recHolds x 2 (TaskRec.parse (bs 2)) = false := by
  let rec' : List Byte := natLe 8 0x100 ++ natLe 8 0x40000 ++ natLe 4 6 ++ natLe 4 (1024 + 2)
  let y : Launch := { launch0 with pkt := { Packet.parse (List.replicate 128 0) with tasks := 0x30000, tld := 2 }, sigMet := [3] }
  let q : QBlock := { ring := 0x20000, qld := 4, prio := 0, priv := false, en := true, resv := 1, write := 1, read := 1 }
  let z := stQ true 1 1 1 []
  let s1 := stQ true 1 1 1 (bytesAt (0x30000 + 256) (rec' ++ List.replicate 104 0) ++ bytesAt (0x30000 + 384) rec')
  exact ⟨z.modPart 0 fun x => { x with replayDue := [(0, [0])] }, { s1 with launches := [(0, y)] }, q, q, [0], y,
    fun _ => rec' ++ List.replicate 104 0, by and_intros <;> set_option maxRecDepth 4000 in decide⟩

/-- A commit record and a header that says the same of itself but is too short for one; a hot module that boots, one in a run that
does not; a ring that holds the block. -/
theorem witness_CustodyAndPower_records : ∃ (s s1 s2 : State) (bs hs : List Byte), bs.length = 0x60 ∧ leNat (bs.take 8) = 0x4B434D54 ∧
    hs.length = 0x5F ∧ leNat (hs.take 8) = commitMagic ∧ s.sys.stage + 1 = 2 ∧ s.sys.power ≠ .s3 ∧ s.sys.hot = true ∧ s.betweenRuns = true ∧
    s1.betweenRuns = false ∧ s2.sys.tstart + 10000000 ≤ s2.us ∧ Memory.wf s2.mem ∧ s2.waiters = [] ∧ s2.stores = [] ∧ s2.sys.stage = 3 ∧
    ((s2.meterRecords).2.meterBlock (s2.meterRecords).1).length ≤ s2.sys.ringSize := by
  refine ⟨{ State.reset with sys := { stage := 1, hot := true } },
    { st [] with quads := [(0, { active := some { todo := [r0], done := [], waitX := [] } })] },
    { State.reset with us := 10000000, sys := { stage := 3, ringBase := 4096, ringSize := 168 } },
    natLe 8 0x4B434D54 ++ List.replicate 88 0, natLe 8 0x4B434D54 ++ List.replicate 87 0, by decide, by decide, by decide, by decide, by decide,
    by decide, by decide, by decide, by decide, by decide, by decide, rfl, rfl, rfl, ?_⟩
  have h : ∀ b : State, b.sys.events = [] → (b.meterBlock []).length = 168 := by
    intro b hb
    simp [State.meterBlock, hb, length_natLe]
  exact Nat.le_of_eq (h _ rfl)

/-! ## Steps of units and of the environment -/

/-- The state after an event; the event is expected to take place. -/
noncomputable def afterEvent (i : Instr) (s : State) : State :=
  match exec i s with
  | .next s' => s'
  | _ => State.reset

/-- R117: a signed byte 0xFE is -2. -/
theorem test_load_return_signed : ((afterEvent (.loadReturn 1 false false)
    { st [] with loads := [pload 1 (kScratch 0 64) 1 (dest1 3 tagI32 1 true)], mem := [(kScratch 0 64, 0xFE)] }).thread r0).map
      (fun t => (t.arch.reg 3).bits) = some 0xFFFFFFFE := by decide

/-- R155: sts.wef writes its bytes, the lower one first, and sets the word full. -/
theorem test_store_perform_full :
    let s := afterEvent (.storePerform 1 false) { st [] with stores := [pstore 1 (kScratch 0 64) .waitEmpty none] }
    (s.mem.readN (kScratch 0 64) 4, s.isFull (kScratch 0 64), s.stores) = ([1, 2, 0, 0], true, []) := by decide

/-- R152: a store to HBM stays dirty in its core's L1. -/
theorem test_store_perform_global :
    let s := afterEvent (.storePerform 1 false) { st [] with stores := [{ pstore 1 16 .keep none with due := 20 }] }
    (s.mem, alook (l1Key 0 17) s.l1) = ([], some ⟨2, true, 0, 20⟩) := by decide

/-- R164: maxsi compares the high halves as signed numbers, then prefers the lower low half. -/
theorem test_atomic_maxsi :
    let c : Cmd := { op := .atom .maxsi .dv, d := 3, words := [0x00050001], loc := some (.key (kScratch 0 64)), dests := [3], cls := .loads }
    ((({ st [] with mem := [(kScratch 0 64, 2), (kScratch 0 66, 5)] } : State).actAtom (heldRun (some c)) c .maxsi .dv).mem.readN
      (kScratch 0 64) 4) = [1, 0, 5, 0] := by decide

/-- R182: the last arrival flips the phase and reloads the count. -/
theorem test_rendezvous_flip :
    let s : State := { st [] with mem := Memory.writeN (Memory.writeN [] (kScratch 0 64) (natLe 8 (2 ^ 40)))
                                    (kScratch 0 72) (natLe 8 (3 * 2 ^ 40)) }
    (s.evaluate none (kScratch 0 64) 1 0 none).rvRead (kScratch 0 64) = { phase := true, arrivals := 3, bytes := 0 } := by decide

/-- R335: without lane 15 the port goes on with lanes 0 to 7. -/
theorem test_lane_failure : (((afterEvent (.laneFailure 0 15) (st [])).port 0).mask) = 0xFF := by decide

/-- R23: the clock moves by one step of 100 MHz. -/
theorem test_clock : (afterEvent (.powerCapAdjust 2000) State.reset).freq = 2000 ∧
    (afterEvent (.powerCapAdjust 1900) State.reset).freq = 2100 := by decide

/-- R387: boot stage 2 does not come before stage 1. -/
theorem test_boot_order : (afterEvent (.moduleBoot 2 [] true) State.reset).sys.stage = 0 := by decide

/-- R289: a partition whose next generation is blocked waits for its reset. -/
theorem test_reset_blocked :
    ((afterEvent (.resetWrite 0) { st [] with genBlocks := [{ part := 0, gen := 1, since := 0 }] }).part 0).resetWait = true := by decide

/-- R304: a fault outside a handler enters TVEC in supervisor mode with its cause in v0. -/
theorem test_fault_entry :
    let s : State := { st [] with parts := [(0, { fetchPart State.reset with cregs := [(0x0C, 0x4000)] })] }
    ((s.takeFault r0 (plainFault .illegal) 3).thread r0).map (fun t => (t.arch.pc, t.arch.sup, t.arch.depth, (t.arch.reg 0).bits)) =
      some (0x4000, true, 1, (plainFault .illegal).cause) := by decide

/-- R355: a doorbell outside the claimed slots is counted. -/
theorem test_doorbell : alook 0 (afterEvent (.doorbell 0 0 5) (stQ true 2 1 0 [])).fab.doorbellIgnored = some 1 := by decide

end Sys2Proof.Tests
end

section
/-! PROOFS. The custody processor and the power controller. A thermal trip lets every line of the home slices go by the key of its
line (R12, R388), so an entry of the slices whose key is no line's key outlives it. -/

namespace Sys2Proof.Machine

/-- Deleting a key leaves the entries of all others. -/
theorem mem_adel_of_ne {α : Type} {k : Nat} {l : List (Nat × α)} {c : Nat × α} (h : c ∈ l) (hk : c.1 ≠ k) : c ∈ adel k l := by
  induction l with
  | nil => exact h
  | cons d l ih =>
    obtain ⟨j, v⟩ := d
    simp only [adel]
    split
    · exact h
    · split
      · next hkj =>
        obtain rfl | hl := List.mem_cons.mp h
        · exact absurd hkj.symm hk
        · exact hl
      · obtain rfl | hl := List.mem_cons.mp h
        · exact List.mem_cons_self
        · exact List.mem_cons_of_mem _ (ih hl)

/-- A line that leaves its slice takes along no entry whose key is not a line's. -/
theorem State.mem_l2_dropLine {s : State} {c : Nat × Bool} (h : c ∈ s.l2) (hc : lineKey c.1 ≠ c.1) (k : Nat) (w : Bool) :
    c ∈ (s.dropLine k w).l2 := by
  have hk : c.1 ≠ lineKey k := by
    unfold lineKey at hc ⊢
    omega
  unfold State.dropLine
  split
  · exact h
  · exact mem_adel_of_ne h hk

theorem State.mem_l2_dropLines {s : State} {c : Nat × Bool} (h : c ∈ s.l2) (hc : lineKey c.1 ≠ c.1) : c ∈ s.dropLines.l2 := by
  unfold State.dropLines
  generalize s.l2.map (·.1) = ks
  induction ks generalizing s with
  | nil => exact h
  | cons k ks ih => exact ih (State.mem_l2_dropLine h hc k false)

/-- A trip with no partition defined leaves the slices what letting every line go leaves them. -/
theorem l2_execThermalTrip {s s' : State} (hp : s.definedParts = []) (h : execThermalTrip s = .next s') :
    s'.l2 = s.dropLines.l2 := by
  simp only [execThermalTrip, hp, aux_forEach_nil, Host.Outcome.next.injEq] at h
  subst h
  rfl

/-- The module after reset, but for a line that a home slice is said to hold at byte 1, which begins no line. -/
def oddLine : State := { State.reset with l2 := [(1, true)] }

/-- Refutes O59 at the clause that a thermal trip empties the home slices (asorted s.l2 → s'.l2 = []): rising keys do not make
them keys of lines. In oddLine the keys rise, but the trip looks for the line of byte 1 at key 0, and the entry at key 1 stays. -/
theorem not_custodyAndPower : ¬ Obligations.CustodyAndPower := by
  unfold Obligations.CustodyAndPower
  intro h
  obtain ⟨-, -, -, -, -, -, -, htrip, -⟩ := h oddLine 0 0 []
  obtain ⟨s', hexec, -, -, -, -, hl2, -⟩ := htrip rfl
  have hempty : s'.l2 = [] := hl2 (List.pairwise_singleton _ _)
  have hstays : (1, true) ∈ oddLine.dropLines.l2 := State.mem_l2_dropLines List.mem_cons_self (by decide)
  rw [← l2_execThermalTrip rfl hexec, hempty] at hstays
  exact absurd hstays List.not_mem_nil

end Sys2Proof.Machine
end

section
/-! PROOFS. Encodings (03_encodings.md R24 to R46): the bytes of an instruction are its unit or its five fields, and each format's
fields, at every value they admit, decode to the instruction they encode. -/

namespace Sys2Proof

/-! ### Bytes (R24) -/

/-- A unit whose bit 0 is 0 is a 16-bit form. -/
theorem decodeBytes_natBytes_unit {w : Nat} (hw : w < 2 ^ 16) (h0 : w % 2 = 0) (rest : List Byte) :
    decodeBytes (natBytes 2 w ++ rest) = (decode16 (w / 2 % 16) (w / 32 % 32) (w / 1024)).map fun i => (i, 2) := by
  have hlo : w % 256 + 256 * (w / 256 % 256) = w := by omega
  simp only [natBytes, List.cons_append, List.nil_append, decodeBytes, BitVec.toNat_ofNat, Nat.reducePow, hlo, h0, if_true]

/-- A unit whose bit 0 is 1 begins a 32-bit word. -/
theorem decodeBytes_natBytes_word {w : Nat} (hw : w < 2 ^ 32) (h1 : w % 2 = 1) (rest : List Byte) :
    decodeBytes (natBytes 4 w ++ rest) = (decode32 w).map fun i => (i, 4) := by
  have hlo : ¬ (w % 256 + 256 * (w / 256 % 256)) % 2 = 0 := by omega
  have hword : w % 256 + 256 * (w / 256 % 256) + 65536 * (w / 256 / 256 % 256) + 16777216 * (w / 256 / 256 / 256 % 256) = w := by
    omega
  simp only [natBytes, List.cons_append, List.nil_append, decodeBytes, BitVec.toNat_ofNat, Nat.reducePow, hlo, hword, if_false]

/-- Values that the five fields of a 32-bit word can hold (R29). -/
def FieldsFit (maj d a b fn : Nat) : Prop := maj < 64 ∧ d < 128 ∧ a < 128 ∧ b < 128 ∧ fn < 16

/-- The five fields of a packed word are the ones packed into it. -/
theorem decode32_packFields {maj d a b fn : Nat} (h : FieldsFit maj d a b fn) :
    decode32 (packFields maj d a b fn) = decodeFields maj d a b fn := by
  obtain ⟨hmaj, hd, ha, hb, hfn⟩ := h
  unfold decode32 packFields
  congr 1 <;> omega

theorem packFields_lt {maj d a b fn : Nat} (h : FieldsFit maj d a b fn) : packFields maj d a b fn < 2 ^ 32 := by
  obtain ⟨hmaj, hd, ha, hb, hfn⟩ := h
  unfold packFields
  omega

theorem packFields_odd (maj d a b fn : Nat) : packFields maj d a b fn % 2 = 1 := by
  unfold packFields
  omega

/-! ### Signed fields and scopes -/

theorem usx_lt (z : Int) (k : Nat) : usx z k < 2 ^ k := by
  have hpos : (0 : Int) < 2 ^ k := by positivity
  have hlt := Int.emod_lt_of_pos z hpos
  have hge := Int.emod_nonneg z hpos.ne'
  zify
  simpa [usx, Int.toNat_of_nonneg hge] using hlt

/-- A number of k bits is read back from its code. -/
theorem sx_usx {z : Int} {k : Nat} (hlo : -2 ^ k ≤ z) (hhi : z < 2 ^ k) : sx (usx z (k + 1)) (k + 1) = z := by
  have hpos : (0 : Int) < 2 ^ k := by positivity
  have hcode : ((usx z (k + 1) : Nat) : Int) = if 0 ≤ z then z else z + 2 ^ (k + 1) := by
    rw [usx, Int.toNat_of_nonneg (Int.emod_nonneg z (by positivity))]
    split
    · exact Int.emod_eq_of_lt ‹_› (by rw [pow_succ]; omega)
    · rw [← Int.add_emod_right, Int.emod_eq_of_lt] <;> rw [pow_succ] <;> omega
  have hiff : usx z (k + 1) < 2 ^ k ↔ 0 ≤ z := by
    zify
    rw [hcode, pow_succ]
    split <;> omega
  simp only [sx, Nat.add_sub_cancel, hiff, hcode]
  split <;> omega

theorem Scope.code_lt (sc : Scope) : sc.code < 4 := by cases sc <;> decide

theorem scopeOf_code (sc : Scope) : scopeOf sc.code = sc := by cases sc <;> rfl

/-! ### The checks of a field -/

section checks

variable {n lim : Nat} {k e : Except DecErr Instr}

theorem xf_ok (h : n % 2 = 0) (hk : k = e) : xf n k = e := (if_pos h).trans hk
theorem pf_ok (h : n < 8) (hk : k = e) : pf n k = e := (if_pos h).trans hk
theorem tf_ok (h : n < 16) (hk : k = e) : tf n k = e := (if_pos h).trans hk
theorem zf_ok (h : n = 0) (hk : k = e) : zf n k = e := (if_pos h).trans hk
theorem lf_ok (h : n < lim) (hk : k = e) : lf n lim k = e := (if_pos h).trans hk
theorem nf_ok (h : n < lim + 1) (hk : k = e) : nf n lim k = e := (if_pos (Nat.lt_succ_iff.1 h)).trans hk

end checks

/-! ### Selectors that are computed from a field -/

theorem decodeAdr_adr {d a b sh : Nat} (h : sh < 4) : decodeAdr d a b sh = xf d (xf a (.ok (.adr d a b sh))) := by
  have hsel : sh / 4 = 0 := by omega
  have hsh : sh % 4 = sh := by omega
  simp only [decodeAdr, hsel, hsh]

theorem decodeAdr_adrS {d a b sh : Nat} (h : sh < 4) : decodeAdr d a b (4 + sh) = xf d (xf a (.ok (.adrS d a b sh))) := by
  have hsel : (4 + sh) / 4 = 1 := by omega
  have hsh : (4 + sh) % 4 = sh := by omega
  simp only [decodeAdr, hsel, hsh]

theorem decodeSel_sel {d a b n : Nat} (h : n < 8) : decodeSel d a b n = .ok (.sel d n a b) := by
  interval_cases n <;> rfl

/-- The bit of FN that belongs to an immediate of eight bits (R93) does not touch the selector above it. -/
theorem decodeCmpi_high {d a u k : Nat} (hk : k % 2 = 0) (hu : u < 2 ^ 8) :
    decodeCmpi d a (u % 128) (k + u / 128) = decodeCmpi d a u k := by
  have hsel : (k + u / 128) / 2 = k / 2 := by omega
  have himm : (k + u / 128) % 2 * 128 + u % 128 = k % 2 * 128 + u := by omega
  simp only [decodeCmpi, hsel, himm]

/-- The bit of FN that belongs to the number of a control register (R310) does not touch the selector above it. -/
theorem decodePriv_high {d a n k : Nat} (hk : k % 2 = 0) (hn : n < 256) :
    decodePriv d a (n % 128) (k + n / 128) = decodePriv d a n k := by
  have hsel : (k + n / 128) / 2 = k / 2 := by omega
  have hnum : (k + n / 128) % 2 * 128 + n % 128 = k % 2 * 128 + n := by omega
  simp only [decodePriv, hsel, hnum]

/-- The bits of FN that belong to the code of a trap (R307) do not touch the selector above them. -/
theorem decodeSys_high {d a c k : Nat} (hk : k % 8 = 0) (hc : c < 1024) :
    decodeSys d a (c % 128) (k + c / 128) = decodeSys d a c k := by
  have hsel : (k + c / 128) / 8 = k / 8 := by omega
  have hcode : (k + c / 128) % 8 * 128 + c % 128 = k % 8 * 128 + c := by omega
  simp only [decodeSys, hsel, hcode]

/-- A special register is read from its number (R134). -/
theorem sregOk_lt {n : Nat} (h : sregOk n = true) : n < 128 := by
  simp only [sregOk, Bool.or_eq_true, Bool.and_eq_true, decide_eq_true_eq] at h
  omega

theorem decodeFields_sread {d n : Nat} (hok : sregOk n = true) (hwide : sregWide n = true → d % 2 = 0) :
    decodeFields 15 d (n % 128) (n / 128) 0 = .ok (.sread d n) := by
  have hn := sregOk_lt hok
  refine zf_ok rfl (lf_ok (by omega) ?_)
  rw [Nat.div_add_mod', if_pos hok]
  split
  · exact xf_ok (hwide ‹_›) rfl
  · rfl

theorem decodeTag_retag {d t : Nat} (ht : t < 65536) (hok : validTag t = true) :
    decodeTag d (t % 128) (t / 128 % 128) (t / 16384) = .ok (.retag d t) := by
  have hsel : t / 16384 / 4 = 0 := by omega
  have htag : t / 16384 % 4 * 16384 + t / 128 % 128 * 128 + t % 128 = t := by omega
  simp only [decodeTag, hsel, htag, hok, if_true]

/-- A branch offset of 18 bits lies in FN, B and A (R29). -/
theorem offset_eq (u : Nat) : u / 16384 * 16384 + u / 128 % 128 * 128 + u % 128 = u := by omega

theorem decodeBr_br {a b fn inv p : Nat} (hinv : inv < 2) (hp : p < 8) :
    decodeBr (inv * 8 + p) a b fn = .ok (.br (sx (fn * 16384 + b * 128 + a) 18) inv p) := by
  have hsel : (inv * 8 + p) / 16 = 0 := by omega
  have hi : (inv * 8 + p) / 8 % 2 = inv := by omega
  have hpred : (inv * 8 + p) % 8 = p := by omega
  simp only [decodeBr, hsel, hi, hpred]

theorem decodeBr_call {a b fn inv p : Nat} (hinv : inv < 2) (hp : p < 8) :
    decodeBr (16 + inv * 8 + p) a b fn = .ok (.call (sx (fn * 16384 + b * 128 + a) 18) inv p) := by
  have hsel : (16 + inv * 8 + p) / 16 = 1 := by omega
  have hi : (16 + inv * 8 + p) / 8 % 2 = inv := by omega
  have hpred : (16 + inv * 8 + p) % 8 = p := by omega
  simp only [decodeBr, hsel, hi, hpred]

theorem decodeBr_brq {a b fn inv : Nat} (hinv : inv < 2) :
    decodeBr (32 + inv * 8 + 7) a b fn = .ok (.brq (sx (fn * 16384 + b * 128 + a) 18) inv) := by
  have hsel : (32 + inv * 8 + 7) / 16 = 2 := by omega
  have hi : (32 + inv * 8 + 7) / 8 % 2 = inv := by omega
  have hpred : (32 + inv * 8 + 7) % 8 = 7 := by omega
  simp only [decodeBr, hsel, hi, hpred, if_true]

theorem decodeBrx_brt {a imm : Nat} (h : 1 ≤ imm) : decodeBrx 3 a (imm % 128) (imm / 128) = .ok (.brt a imm) := by
  refine (if_neg ?_).trans ?_
  · omega
  · rw [Nat.div_add_mod']

theorem decodeFlow_elect {a p : Nat} (hp : p < 8) : decodeFlow (56 + p) a 0 0 = .ok (.elect p a) := by
  have hsel : (56 + p) / 8 = 7 := by omega
  have hpred : (56 + p) % 8 = p := by omega
  simp only [decodeFlow, hsel, hpred]
  rfl

/-- WAIT's fields (R135) come back from the bits they are spread over. -/
theorem decodeFields_wait {l st c t av aw : Nat} (hl : l < 16) (hst : st < 16) (hc : c < 16) (ht : t < 16) (hav : av < 2)
    (haw : aw < 128) (h0 : av = 0 → aw = 0) :
    decodeFields 31 (st % 8 * 16 + l) (t % 4 * 32 + c * 2 + st / 8) (aw % 32 * 4 + t / 4) (av * 4 + aw / 32) =
      .ok (.wait l st c t av aw) := by
  refine lf_ok (by omega) ((if_neg ?_).trans ?_)
  · omega
  · congr 2 <;> omega

/-! ### Scopes and offsets that share B with a selector (R29) -/

section attributes

variable {o k s : Nat} (hk : k % 4 = 0 ∧ k < 32) (hs : s < 4)
include hk hs

theorem attr_selector : (o % 4 * 32 + k + s) / 4 % 8 = k / 4 := by omega
theorem attr_scope : (o % 4 * 32 + k + s) % 4 = s := by omega
theorem attr_offset : o / 4 * 4 + (o % 4 * 32 + k + s) / 32 = o := by omega

end attributes

/-! ### Every instruction of 32 bits -/

section decides

variable {p₁ p₂ p₃ p₄ p₅ p₆ p₇ : Prop} [Decidable p₁] [Decidable p₂] [Decidable p₃] [Decidable p₄] [Decidable p₅] [Decidable p₆]
  [Decidable p₇]

theorem and_of_all₂ (h : (decide p₁ && decide p₂) = true) : p₁ ∧ p₂ := by simpa using h
theorem and_of_all₃ (h : (decide p₁ && decide p₂ && decide p₃) = true) : p₁ ∧ p₂ ∧ p₃ := by
  simpa [and_assoc] using h
theorem and_of_all₄ (h : (decide p₁ && decide p₂ && decide p₃ && decide p₄) = true) : p₁ ∧ p₂ ∧ p₃ ∧ p₄ := by
  simpa [and_assoc] using h
theorem and_of_all₅ (h : (decide p₁ && decide p₂ && decide p₃ && decide p₄ && decide p₅) = true) :
    p₁ ∧ p₂ ∧ p₃ ∧ p₄ ∧ p₅ := by
  simpa [and_assoc] using h
theorem and_of_all₆ (h : (decide p₁ && decide p₂ && decide p₃ && decide p₄ && decide p₅ && decide p₆) = true) :
    p₁ ∧ p₂ ∧ p₃ ∧ p₄ ∧ p₅ ∧ p₆ := by
  simpa [and_assoc] using h
theorem and_of_all₇ (h : (decide p₁ && decide p₂ && decide p₃ && decide p₄ && decide p₅ && decide p₆ && decide p₇) = true) :
    p₁ ∧ p₂ ∧ p₃ ∧ p₄ ∧ p₅ ∧ p₆ ∧ p₇ := by
  simpa [and_assoc] using h

end decides

/-- The instruction is encoded in five fields, which a word can hold and which decode to it. -/
def Instr.RoundTrips (i : Instr) : Prop :=
  ∃ maj d a b fn, encFields i = some (maj, d, a, b, fn) ∧ FieldsFit maj d a b fn ∧ decodeFields maj d a b fn = .ok i

theorem Instr.RoundTrips.of_fields {i : Instr} {maj d a b fn : Nat} (he : encFields i = some (maj, d, a, b, fn))
    (hx : decodeFields maj d a b fn = .ok i)
    (hfit : maj < 64 ∧ d < 128 ∧ a < 128 ∧ b < 128 ∧ fn < 16 := by omega) : i.RoundTrips :=
  ⟨maj, d, a, b, fn, he, hfit, hx⟩

/-- As of_fields, where the operands that the decoder computes have still to be seen to be the instruction's. -/
theorem Instr.RoundTrips.of_fields_eq {i j : Instr} {maj d a b fn : Nat} (he : encFields i = some (maj, d, a, b, fn))
    (hx : decodeFields maj d a b fn = .ok j) (hj : j = i)
    (hfit : maj < 64 ∧ d < 128 ∧ a < 128 ∧ b < 128 ∧ fn < 16 := by omega) : i.RoundTrips :=
  .of_fields he (hj ▸ hx) hfit

/-- Every well-formed instruction of 32 bits is encoded in fields that decode to it (R29 to R46). -/
theorem Instr.roundTrips (i : Instr) (hu : encUnit i = none) (he : i.encoded = true) (hw : i.wellFormed = true) :
    i.RoundTrips := by
  cases i
  case mov16 | add16 | sub16 | mul16 | and16 | or16 | xor16 | shl16 | shr16 | sar16 | min16 | max16 | fadd16 | fsub16 |
      fmul16 | fmax16 => nomatch hu
  case tlbinvWrite | resetWrite | runRelease | issueGroupSelect | yieldReady | trapEntry | loadReturn | storePerform |
      waitTableSpill | waitTableFill | pageWalkComplete | promotionRequest | pmemgrowService | streamerChannelStart |
      streamerByteReport | copyComplete | accessGroupIssue | aloadReturn | tileOpStart | matrixPassEnd | tileOpComplete |
      tgenComplete | balanceSweep | mazeHeldReroute | mazeRecordComplete | lodgeMoveStart | lodgeMoveComplete | lodgeRebuild |
      lodgeMirrorCopy | patienceExpiry | leaseEnd | coreLoss | queueHeadActivate | workgroupPlace | quadrantReclaim |
      launchComplete | preempt | preemptSave | restore | ttSlotStart | ttSlotSkip | contRecordReady | genQuarantineRelease |
      watchdogFire | watchdogGraceExpiry | strike | patrolScrub | flitReceive | ackReturn | laneFailure | linkRetrainDone |
      flitExpire | peerRequest | peerLaunch | remoteResponse | remoteTimeout | reductionResult | reductionTimeout |
      scaleOutFrameReceive | scaleOutResend | hostCxlMemAccess | bar2ApertureAccess | doorbell | partitionDefine |
      partitionChange | partitionTeardown | hbmReassign | peerAclWrite | reductionGroupDefine | linkRestore | powerCapSet |
      meterRingName | attestationQuote | checkpointHeaderSign | meterBlockClose | powerCapAdjust | thermalThrottle |
      thermalTrip | s1Entry | s1Exit | moduleBoot | dieReset | postcopyPagePull | hostResetRequest | passHoldRelease |
      l1Writeback | memoryChannelRetire | s3Exit | hostCxlCacheSnoop => nomatch he
  case add d a b | sub d a b | mul d a b | mulhi d a b | and d a b | or d a b | xor d a b | shl d a b | shr d a b | sar d a b |
      min d a b | max d a b | div d a b | rem d a b | andn d a b | bfx d a b | settag d a b | fadd d a b | fsub d a b |
      fmul d a b | fdiv d a b | fmin d a b | fmax d a b | fcsgn d a b | ffma d a b | ffms d a b | fnma d a b | fnms d a b |
      hadd d a b | hsub d a b | hmul d a b | hfma d a b | hmin d a b | hmax d a b | padd d a b | paddSat d a b | psub d a b |
      psubSat d a b | pmul d a b | pmin d a b | pmax d a b | pavg d a b | pshl d a b | psar d a b | pshr d a b | prsar d a b |
      dmac d a b | dmacSat d a b | fdmac d a b | pklo d a b | pkhi d a b | pkbl d a b | xtb d a b | ballot d a b |
      voteAny d a b | voteAll d a b | voteEq d a b | lredAdd d a b | lredMin d a b | lredMax d a b | lredAnd d a b |
      lredOr d a b | lredXor d a b | lscanInc d a b | lscanExc d a b | rvinit d a b | arriven d a b | expect d a b |
      pledge d a b | mztake d a b | mzstat d a b | launch d a b | signal d a b | afor d a b =>
    obtain ⟨hd, ha, hb⟩ := and_of_all₃ hw
    exact .of_fields rfl rfl
  case mov d b =>
    obtain ⟨hd, hb⟩ := and_of_all₂ hw
    exact .of_fields rfl (zf_ok rfl rfl)
  case not d a | clz d a | popc d a | brev d a | abs d a | neg d a | gettag d a | fabs d a | fneg d a | ffloor d a |
      fceil d a | ftrunc d a | frint d a | hneg d a | habs d a | pabs d a | exp2 d a | log2 d a | rcp d a | rsq d a |
      sqrt d a | sin d a | cos d a | tanh d a | exp d a | log d a | sigm d a | xtlo d a | xthi d a | copyG2s d a |
      copyS2g d a | copyG2g d a | copyG2c d a | copyS2c d a | copyMeta d a | copyScale d a | copyRemote d a | copyReduce d a |
      copyGather d a | copyScatter d a | arrive d a | rvleave d a | tgen d a | mzdecl d a | mzsink d a | ldrop d a =>
    obtain ⟨hd, ha⟩ := and_of_all₂ hw
    exact .of_fields rfl (zf_ok rfl rfl)
  case bfi d a b | lpick d a b | slideup d a b | slidedn d a b =>
    obtain ⟨hd, ha, hb⟩ := and_of_all₃ hw
    exact .of_fields rfl (nf_ok hb rfl)
  case shli d a n | shri d a n | sari d a n | rsari d a n =>
    obtain ⟨hd, ha, hn⟩ := and_of_all₃ hw
    exact .of_fields rfl (zf_ok rfl (lf_ok hn rfl))
  case add64 d a b | sub64 d a b | and64 d a b | or64 d a b | xor64 d a b =>
    obtain ⟨hd, ed, ha, ea, hb, eb⟩ := and_of_all₆ hw
    exact .of_fields rfl (xf_ok ed (xf_ok ea (xf_ok eb rfl)))
  case shl64 d a b | shr64 d a b | sar64 d a b =>
    obtain ⟨hd, ed, ha, ea, hb⟩ := and_of_all₅ hw
    exact .of_fields rfl (xf_ok ed (xf_ok ea rfl))
  case mov64 d b =>
    obtain ⟨hd, ed, hb, eb⟩ := and_of_all₄ hw
    exact .of_fields rfl (xf_ok ed (zf_ok rfl (xf_ok eb rfl)))
  case cmpEq d a b | cmpNe d a b | cmpLt d a b | cmpLe d a b | cmpGt d a b | cmpGe d a b | cmpUnord d a b | ptest d a b =>
    obtain ⟨hd, ha, hb⟩ := and_of_all₃ hw
    exact .of_fields rfl (pf_ok hd rfl)
  case cmp64Eq d a b | cmp64Ne d a b | cmp64Lt d a b | cmp64Ltn d a b =>
    obtain ⟨hd, ha, ea, hb, eb⟩ := and_of_all₅ hw
    exact .of_fields rfl (pf_ok hd (xf_ok ea (xf_ok eb rfl)))
  case pand d a b | por d a b | pxor d a b | pandn d a b =>
    obtain ⟨hd, ha, hb⟩ := and_of_all₃ hw
    exact .of_fields rfl (pf_ok hd (pf_ok ha (pf_ok hb rfl)))
  case pnot d a =>
    obtain ⟨hd, ha⟩ := and_of_all₂ hw
    exact .of_fields rfl (pf_ok hd (pf_ok ha (zf_ok rfl rfl)))
  case ptov d a =>
    obtain ⟨hd, ha⟩ := and_of_all₂ hw
    exact .of_fields rfl (pf_ok ha (zf_ok rfl rfl))
  case vtop d a | take d a =>
    obtain ⟨hd, ha⟩ := and_of_all₂ hw
    exact .of_fields rfl (pf_ok hd (zf_ok rfl rfl))
  case vmovfrom d | getix d =>
    have hd := of_decide_eq_true hw
    exact .of_fields rfl (zf_ok rfl (zf_ok rfl rfl))
  case vmovto a | setix a | addix a | abr a =>
    have ha := of_decide_eq_true hw
    exact .of_fields rfl (zf_ok rfl (zf_ok rfl rfl))
  case ret | idemEnd | aend | ahalt =>
    exact .of_fields rfl (zf_ok rfl (zf_ok rfl (zf_ok rfl rfl)))
  case nop | reform | yield | exit | beacon =>
    exact .of_fields rfl (zf_ok rfl (zf_ok rfl (zf_ok rfl (zf_ok rfl rfl))))
  case reformK a | lsync a =>
    have ha := of_decide_eq_true hw
    exact .of_fields rfl (zf_ok rfl (zf_ok rfl (zf_ok rfl rfl)))
  case ldRaw d b off | ldI32 d b off | ldN32 d b off | ldF32 d b off | ldI8 d b off | ldN8 d b off | ldI16 d b off |
      ldN16 d b off | st8 d b off | st16 d b off | st32 d b off =>
    obtain ⟨hd, hb, eb, hlo, hhi⟩ := and_of_all₅ hw
    have hu := usx_lt off 7
    exact .of_fields_eq rfl (xf_ok eb rfl) (by rw [sx_usx hlo hhi])
  case ld64 d b off | st64 d b off =>
    obtain ⟨hd, ed, hb, eb, hlo, hhi⟩ := and_of_all₆ hw
    have hu := usx_lt off 7
    exact .of_fields_eq rfl (xf_ok ed (xf_ok eb rfl)) (by rw [sx_usx hlo hhi])
  case lds d a off | ldsWf d a off | ldsWfe d a off | ldsSe d a off | lds8 d a off | lds16 d a off | sts d a off |
      stsWef d a off | stsSf d a off | stsSe d a off | sts8 d a off | sts16 d a off =>
    obtain ⟨hd, ha, hlo, hhi⟩ := and_of_all₄ hw
    have hu := usx_lt off 7
    exact .of_fields_eq rfl rfl (by rw [sx_usx hlo hhi])
  case lds64 d a off | sts64 d a off =>
    obtain ⟨hd, ed, ha, hlo, hhi⟩ := and_of_all₅ hw
    have hu := usx_lt off 7
    exact .of_fields_eq rfl (xf_ok ed rfl) (by rw [sx_usx hlo hhi])
  case prefL2 b off | prefL1 b off | cwb b off | cinv b off | cwbinv b off | czero b off | cevict b off =>
    obtain ⟨hb, eb, hlo, hhi⟩ := and_of_all₄ hw
    have hu := usx_lt off 7
    exact .of_fields_eq rfl (zf_ok rfl (xf_ok eb rfl)) (by rw [sx_usx hlo hhi])
  case qinit d q a =>
    obtain ⟨hd, hq, ha, ea⟩ := and_of_all₄ hw
    exact .of_fields rfl (xf_ok ea (lf_ok hq rfl))
  case qpush d q a | qpop d q a =>
    obtain ⟨hd, hq, ha⟩ := and_of_all₃ hw
    exact .of_fields rfl (lf_ok hq rfl)
  case qlen d q =>
    obtain ⟨hd, hq⟩ := and_of_all₂ hw
    exact .of_fields rfl (zf_ok rfl (lf_ok hq rfl))
  case mma d a =>
    obtain ⟨hd, ha⟩ := and_of_all₂ hw
    exact .of_fields rfl (tf_ok hd (zf_ok rfl rfl))
  case tld d a b | tst d a b =>
    obtain ⟨hd, ha, ea, hb⟩ := and_of_all₄ hw
    exact .of_fields rfl (tf_ok hd (xf_ok ea (nf_ok hb rfl)))
  case tzero d a =>
    obtain ⟨hd, ha, ea⟩ := and_of_all₃ hw
    exact .of_fields rfl (tf_ok hd (xf_ok ea (zf_ok rfl rfl)))
  case tcvt d a b | tredr d a b | tredc d a b | pextract d a b =>
    obtain ⟨hd, ha, hb⟩ := and_of_all₃ hw
    exact .of_fields rfl (tf_ok hd (tf_ok ha rfl))
  case tget d a b | pstat d a b =>
    obtain ⟨hd, ha, hb⟩ := and_of_all₃ hw
    exact .of_fields rfl (tf_ok ha rfl)
  case tset d a b | pmarg d a b =>
    obtain ⟨hd, ha, hb⟩ := and_of_all₃ hw
    exact .of_fields rfl (tf_ok hd rfl)
  case tstat d a =>
    obtain ⟨hd, ha⟩ := and_of_all₂ hw
    exact .of_fields rfl (tf_ok ha (zf_ok rfl rfl))
  case pform d a b =>
    obtain ⟨hd, ha, hb⟩ := and_of_all₃ hw
    exact .of_fields rfl (tf_ok hd (tf_ok ha (nf_ok hb rfl)))
  case balance d a b =>
    obtain ⟨hd, ha, hb⟩ := and_of_all₃ hw
    exact .of_fields rfl (tf_ok ha (nf_ok hb rfl))
  case pcost d a b =>
    obtain ⟨hd, ha, hb⟩ := and_of_all₃ hw
    exact .of_fields rfl (tf_ok ha (tf_ok hb rfl))
  case mzpost a b =>
    obtain ⟨ha, hb⟩ := and_of_all₂ hw
    exact .of_fields rfl (zf_ok rfl (nf_ok hb rfl))
  case mzdonePass a b | mzdoneDrop a b =>
    obtain ⟨ha, hb⟩ := and_of_all₂ hw
    exact .of_fields rfl (zf_ok rfl rfl)
  case mzeff d a b =>
    obtain ⟨hd, ed, ha, hb⟩ := and_of_all₄ hw
    exact .of_fields rfl (xf_ok ed (nf_ok hb rfl))
  case lcreate d a b | lcreateM d a b =>
    obtain ⟨hd, ha, ea, hb⟩ := and_of_all₄ hw
    exact .of_fields rfl (nf_ok hd (xf_ok ea rfl))
  case lopen d a | linfo d a =>
    obtain ⟨hd, ha, ea⟩ := and_of_all₃ hw
    exact .of_fields rfl (nf_ok hd (xf_ok ea (zf_ok rfl rfl)))
  case lhand d a b =>
    obtain ⟨hd, ha, hb⟩ := and_of_all₃ hw
    exact .of_fields rfl (nf_ok hd rfl)
  case cont a b =>
    obtain ⟨ha, ea, hb⟩ := and_of_all₃ hw
    exact .of_fields rfl (zf_ok rfl (xf_ok ea (nf_ok hb rfl)))
  case idemBegin a =>
    obtain ⟨ha, ea⟩ := and_of_all₂ hw
    exact .of_fields rfl (zf_ok rfl (xf_ok ea (zf_ok rfl rfl)))
  case aload d a b =>
    obtain ⟨hd, ha, ea, hb⟩ := and_of_all₄ hw
    exact .of_fields rfl (lf_ok hd (xf_ok ea (lf_ok hb rfl)))
  case addi d a imm | andi d a imm | ori d a imm | xori d a imm | muli d a imm =>
    obtain ⟨hd, ha, hlo, hhi⟩ := and_of_all₄ hw
    have hu := usx_lt imm 11
    exact .of_fields_eq rfl rfl (by rw [Nat.div_add_mod', sx_usx hlo hhi])
  case xaddi d a imm =>
    obtain ⟨hd, ed, ha, ea, hlo, hhi⟩ := and_of_all₆ hw
    have hu := usx_lt imm 11
    exact .of_fields_eq rfl (xf_ok ed (xf_ok ea rfl)) (by rw [Nat.div_add_mod', sx_usx hlo hhi])
  case lui d imm =>
    obtain ⟨hd, himm⟩ := and_of_all₂ hw
    exact .of_fields_eq rfl rfl (by rw [offset_eq])
  case adr d a b sh =>
    obtain ⟨hd, ed, ha, ea, hb, hsh⟩ := and_of_all₆ hw
    exact .of_fields rfl ((decodeAdr_adr hsh).trans (xf_ok ed (xf_ok ea rfl)))
  case adrS d a b sh =>
    obtain ⟨hd, ed, ha, ea, hb, hsh⟩ := and_of_all₆ hw
    exact .of_fields rfl ((decodeAdr_adrS hsh).trans (xf_ok ed (xf_ok ea rfl)))
  case cmpiEq d a imm | cmpiNe d a imm | cmpiLt d a imm | cmpiLe d a imm | cmpiGt d a imm | cmpiGe d a imm =>
    obtain ⟨hd, ha, hlo, hhi⟩ := and_of_all₄ hw
    have hu := usx_lt imm 8
    exact .of_fields_eq rfl ((decodeCmpi_high rfl hu).trans (pf_ok hd rfl)) (by simp [sx_usx (k := 7) hlo hhi])
  case sel d n a b =>
    obtain ⟨hd, hn, ha, hb⟩ := and_of_all₄ hw
    exact .of_fields rfl (decodeSel_sel hn)
  case sread d n =>
    obtain ⟨hw, hwide⟩ := Bool.and_eq_true_iff.1 hw
    obtain ⟨hd, hok⟩ := Bool.and_eq_true_iff.1 hw
    have hn := sregOk_lt hok
    have hd := of_decide_eq_true hd
    exact .of_fields rfl (decodeFields_sread hok (of_decide_eq_true hwide))
  case cvt d a b m o =>
    obtain ⟨hd, ha, hb, hm, ho⟩ := and_of_all₅ hw
    have hmod : (o * 8 + m) % 8 = m := by omega
    have hdiv : (o * 8 + m) / 8 = o := by omega
    exact .of_fields_eq rfl (lf_ok (by omega) rfl) (by rw [hmod, hdiv])
  case retag d t =>
    obtain ⟨hw, hok⟩ := Bool.and_eq_true_iff.1 hw
    obtain ⟨hd, ht⟩ := and_of_all₂ hw
    exact .of_fields rfl (decodeTag_retag ht hok)
  case scadd d imm =>
    obtain ⟨hd, hlo, hhi⟩ := and_of_all₃ hw
    have hu := usx_lt imm 8
    exact .of_fields_eq rfl (zf_ok rfl (lf_ok (by omega) rfl)) (by rw [Nat.div_add_mod', sx_usx hlo hhi])
  case guard p inv n =>
    obtain ⟨hp, hinv, hpos, hn⟩ := and_of_all₄ hw
    exact .of_fields_eq rfl (zf_ok rfl (zf_ok rfl (zf_ok rfl rfl))) (by congr 1 <;> omega)
  case br off inv p =>
    obtain ⟨hlo, hhi, hinv, hp⟩ := and_of_all₄ hw
    have hu := usx_lt off 18
    exact .of_fields_eq rfl (decodeBr_br hinv hp) (by rw [offset_eq, sx_usx hlo hhi])
  case call off inv p =>
    obtain ⟨hlo, hhi, hinv, hp⟩ := and_of_all₄ hw
    have hu := usx_lt off 18
    exact .of_fields_eq rfl (decodeBr_call hinv hp) (by rw [offset_eq, sx_usx hlo hhi])
  case brq off inv =>
    obtain ⟨hlo, hhi, hinv⟩ := and_of_all₃ hw
    have hu := usx_lt off 18
    exact .of_fields_eq rfl (decodeBr_brq hinv) (by rw [offset_eq, sx_usx hlo hhi])
  case jmpi a imm | calli a imm =>
    obtain ⟨ha, ea, himm⟩ := and_of_all₃ hw
    exact .of_fields_eq rfl (xf_ok ea rfl) (by rw [Nat.div_add_mod'])
  case brt a imm =>
    obtain ⟨ha, hpos, himm⟩ := and_of_all₃ hw
    exact .of_fields rfl (decodeBrx_brt hpos)
  case lpad imm =>
    have himm := of_decide_eq_true hw
    exact .of_fields_eq rfl (zf_ok rfl (zf_ok rfl rfl)) (by rw [Nat.div_add_mod'])
  case elect p a =>
    obtain ⟨hp, ha⟩ := and_of_all₂ hw
    exact .of_fields rfl (decodeFlow_elect hp)
  case wait l st c t av aw =>
    obtain ⟨hl, hst, hc, ht, hav, haw, h0⟩ := and_of_all₇ hw
    exact .of_fields rfl (decodeFields_wait hl hst hc ht hav haw h0)
  case ldt d b a z =>
    obtain ⟨hd, hb, eb, ha, hz, hlast⟩ := and_of_all₆ hw
    exact .of_fields rfl (xf_ok eb (nf_ok (Nat.lt_succ_iff.2 hlast) rfl))
  case lda32 d b off sc =>
    obtain ⟨hd, hb, eb, hlo, hhi⟩ := and_of_all₅ hw
    have hu := usx_lt off 6
    have hs := sc.code_lt
    refine .of_fields rfl ?_
    show decodeLda d b _ _ = _
    unfold decodeLda
    rw [attr_selector ?_ hs, attr_scope ?_ hs, attr_offset ?_ hs, sx_usx hlo hhi, scopeOf_code]
    · exact xf_ok eb rfl
    all_goals decide
  case lda64 d b off sc =>
    obtain ⟨hd, ed, hb, eb, hlo, hhi⟩ := and_of_all₆ hw
    have hu := usx_lt off 6
    have hs := sc.code_lt
    refine .of_fields rfl ?_
    show decodeLda d b _ _ = _
    unfold decodeLda
    rw [attr_selector ?_ hs, attr_scope ?_ hs, attr_offset ?_ hs, sx_usx hlo hhi, scopeOf_code]
    · exact xf_ok ed (xf_ok eb rfl)
    all_goals decide
  case stl32 d b off sc =>
    obtain ⟨hd, hb, eb, hlo, hhi⟩ := and_of_all₅ hw
    have hu := usx_lt off 6
    have hs := sc.code_lt
    refine .of_fields rfl ?_
    show decodeStl d b _ _ = _
    unfold decodeStl
    rw [attr_selector ?_ hs, attr_scope ?_ hs, attr_offset ?_ hs, sx_usx hlo hhi, scopeOf_code]
    · exact xf_ok eb rfl
    all_goals decide
  case stl64 d b off sc =>
    obtain ⟨hd, ed, hb, eb, hlo, hhi⟩ := and_of_all₆ hw
    have hu := usx_lt off 6
    have hs := sc.code_lt
    refine .of_fields rfl ?_
    show decodeStl d b _ _ = _
    unfold decodeStl
    rw [attr_selector ?_ hs, attr_scope ?_ hs, attr_offset ?_ hs, sx_usx hlo hhi, scopeOf_code]
    · exact xf_ok ed (xf_ok eb rfl)
    all_goals decide
  case ldaP d b off =>
    obtain ⟨hd, hb, eb, hlo, hhi⟩ := and_of_all₅ hw
    have hu := usx_lt off 6
    refine .of_fields rfl ?_
    show decodeLda d b _ _ = _
    unfold decodeLda
    rw [attr_selector ?_ (by decide : 2 < 4), attr_scope ?_ (by decide : 2 < 4), attr_offset ?_ (by decide : 2 < 4), sx_usx hlo hhi]
    · exact xf_ok eb rfl
    all_goals decide
  case ldaP64 d b off =>
    obtain ⟨hd, ed, hb, eb, hlo, hhi⟩ := and_of_all₆ hw
    have hu := usx_lt off 6
    refine .of_fields rfl ?_
    show decodeLda d b _ _ = _
    unfold decodeLda
    rw [attr_selector ?_ (by decide : 2 < 4), attr_scope ?_ (by decide : 2 < 4), attr_offset ?_ (by decide : 2 < 4), sx_usx hlo hhi]
    · exact xf_ok ed (xf_ok eb rfl)
    all_goals decide
  case waitaEqGlobal d b off sc | waitaChgGlobal d b off sc =>
    obtain ⟨hd, hb, eb, ho⟩ := and_of_all₄ hw
    have hs := sc.code_lt
    refine .of_fields rfl ?_
    show decodeWaita d b _ _ = _
    unfold decodeWaita
    rw [attr_selector ?_ hs, attr_scope ?_ hs, attr_offset ?_ hs, scopeOf_code]
    · exact xf_ok eb rfl
    all_goals decide
  case waitaFull d b off sc | waitaEqScratch d b off sc | waitaChgScratch d b off sc =>
    obtain ⟨hd, hb, ho⟩ := and_of_all₃ hw
    have hs := sc.code_lt
    refine .of_fields rfl ?_
    show decodeWaita d b _ _ = _
    unfold decodeWaita
    rw [attr_selector ?_ hs, attr_scope ?_ hs, attr_offset ?_ hs, scopeOf_code]
    · exact rfl
    all_goals decide
  case fenceAcq sc | fenceRel sc | fenceAr sc | fenceSc sc =>
    have hs := sc.code_lt
    cases sc <;> exact .of_fields rfl rfl
  case atomAdd sc d b v | atomMin sc d b v | atomMax sc d b v | atomMinn sc d b v | atomMaxn sc d b v | atomAnd sc d b v |
      atomOr sc d b v | atomXor sc d b v | atomSwap sc d b v | atomMaxsi sc d b v | atomFadd sc d b v =>
    obtain ⟨hd, hb, eb, hv⟩ := and_of_all₄ hw
    have hs := sc.code_lt
    cases sc <;> exact .of_fields rfl (xf_ok eb rfl)
  case atomAddb sc d b v | atomCas sc d b v =>
    obtain ⟨hd, hb, eb, hv⟩ := and_of_all₄ hw
    have hs := sc.code_lt
    cases sc <;> exact .of_fields rfl (xf_ok eb (nf_ok hv rfl))
  case atomAdd64 sc d b v | atomSwap64 sc d b v =>
    obtain ⟨hd, ed, hb, eb, hv, ev⟩ := and_of_all₆ hw
    have hs := sc.code_lt
    cases sc <;> exact .of_fields rfl (xf_ok ed (xf_ok eb (xf_ok ev rfl)))
  case atomCas64 sc d b v =>
    obtain ⟨hd, ed, hb, eb, hv, ev⟩ := and_of_all₆ hw
    have hs := sc.code_lt
    cases sc <;> exact .of_fields rfl (xf_ok ed (xf_ok eb (xf_ok ev (nf_ok hv rfl))))
  case qtrypush r d q a | qtrypop r d q a =>
    obtain ⟨hr, hd, hq, ha⟩ := and_of_all₄ hw
    have hdiv : (r * 8 + q) / 8 = r := by omega
    have hmod : (r * 8 + q) % 8 = q := by omega
    exact .of_fields_eq rfl (lf_ok (by omega) rfl) (by rw [hdiv, hmod])
  case trap c | bkpt c =>
    have hc := of_decide_eq_true hw
    exact .of_fields_eq rfl ((decodeSys_high rfl hc).trans (zf_ok rfl (zf_ok rfl rfl))) (by simp)
  case cread d a n | cwrite d a n | traprd d a n | trapwr d a n | haltwg d a n | resume d a n | kill d a n =>
    obtain ⟨hd, ha, hn⟩ := and_of_all₃ hw
    exact .of_fields_eq rfl ((decodePriv_high rfl hn).trans rfl) (by simp)

/-! ### Every instruction of 16 bits -/

/-- The instruction is encoded in a unit whose opcode, D and B (R26) decode to it. -/
def Instr.RoundTrips16 (i : Instr) : Prop :=
  ∃ k d b, encUnit i = some (k + 32 * d + 1024 * b) ∧ (k % 2 = 0 ∧ k < 32 ∧ d < 32 ∧ b < 64) ∧ decode16 (k / 2) d b = .ok i

/-- Every well-formed 16-bit form is encoded in a unit that decodes to it (R26, R27). -/
theorem Instr.roundTrips16 (i : Instr) (hu : encUnit i ≠ none) (hw : i.wellFormed = true) : i.RoundTrips16 := by
  cases i
  case mov16 d b | add16 d b | sub16 d b | mul16 d b | and16 d b | or16 d b | xor16 d b | shl16 d b | shr16 d b | sar16 d b |
      min16 d b | max16 d b | fadd16 d b | fsub16 d b | fmul16 d b | fmax16 d b =>
    exact ⟨_, d, b, rfl, ⟨by decide, by decide, and_of_all₂ hw⟩, rfl⟩
  all_goals exact absurd rfl hu

/-! ### Bytes of instructions -/

theorem encode_of_unit {i : Instr} {u : Nat} (h : encUnit i = some u) : encode i = some (natBytes 2 u) := by
  simp only [encode, h]

theorem encode_of_fields {i : Instr} {maj d a b fn : Nat} (hu : encUnit i = none) (h : encFields i = some (maj, d, a, b, fn)) :
    encode i = some (natBytes 4 (packFields maj d a b fn)) := by
  simp only [encode, hu, h]

theorem Instr.size_of_unit {i : Instr} {u : Nat} (h : encUnit i = some u) : i.size = 2 := by
  simp only [Instr.size, h]

theorem Instr.size_of_encoded {i : Instr} (hu : encUnit i = none) (he : i.encoded = true) : i.size = 4 := by
  simp only [Instr.size, hu, he, if_true]

/-- The bytes of a 16-bit form decode to it, whatever follows them. -/
theorem decodeBytes_of_roundTrips16 {i : Instr} (h : i.RoundTrips16) :
    ∃ bs, encode i = some bs ∧ bs.length = i.size ∧ i.size = 2 ∧ ∀ rest, decodeBytes (bs ++ rest) = .ok (i, i.size) := by
  obtain ⟨k, d, b, hu, hfit, hx⟩ := h
  have hop : (k + 32 * d + 1024 * b) / 2 % 16 = k / 2 := by omega
  have hd : (k + 32 * d + 1024 * b) / 32 % 32 = d := by omega
  have hb : (k + 32 * d + 1024 * b) / 1024 = b := by omega
  rw [Instr.size_of_unit hu]
  refine ⟨_, encode_of_unit hu, rfl, rfl, fun rest => ?_⟩
  rw [decodeBytes_natBytes_unit (by omega) (by omega), hop, hd, hb, hx]
  rfl

/-- The bytes of a 32-bit instruction decode to it, whatever follows them. -/
theorem decodeBytes_of_roundTrips {i : Instr} (hu : encUnit i = none) (he : i.encoded = true) (h : i.RoundTrips) :
    ∃ bs, encode i = some bs ∧ bs.length = i.size ∧ i.size = 4 ∧ ∀ rest, decodeBytes (bs ++ rest) = .ok (i, i.size) := by
  obtain ⟨maj, d, a, b, fn, hf, hfit, hx⟩ := h
  rw [Instr.size_of_encoded hu he]
  refine ⟨_, encode_of_fields hu hf, rfl, rfl, fun rest => ?_⟩
  rw [decodeBytes_natBytes_word (packFields_lt hfit) (packFields_odd ..), decode32_packFields hfit, hx]
  rfl

/-- Settles O42: a 16-bit form by its unit, every other instruction by its five fields. -/
theorem decodeOfEncode : Obligations.DecodeOfEncode := by
  unfold Obligations.DecodeOfEncode
  intro i hw he
  by_cases hu : encUnit i = none
  · obtain ⟨bs, henc, hlen, hsize, hdec⟩ := decodeBytes_of_roundTrips hu he (i.roundTrips hu he hw)
    exact ⟨bs, henc, hlen, .inr hsize, hdec⟩
  · obtain ⟨bs, henc, hlen, hsize, hdec⟩ := decodeBytes_of_roundTrips16 (i.roundTrips16 hu hw)
    exact ⟨bs, henc, hlen, .inl hsize, hdec⟩

end Sys2Proof
end

section
/-! PROOFS. The checks that come before an instruction's meaning: what may follow a committing instruction (R50), the slice, the mode
and the allotment (R47, R37, R30), and the privileged forms (R310). -/

namespace Sys2Proof.Machine

variable {s : State} {r : TRef} {t : Thread} {g : Wg} {u : Use} {body : TRef → Thread → Wg → State → State}

/-- An instruction that does not end a run takes RUNFORM at the committing instruction before it (R50). -/
theorem State.lane_of_cmark (hcur : s.cur = some r) (ht : s.thread r = some t) (hg : s.wg r.wg = some g) {k : Nat}
    (hk : t.run.cmark = some k) (he : u.endsFor r.acc = false) :
    s.lane u body = .next (s.takeFault r (plainFault .runform) k) := by
  simp only [State.lane, hcur, ht, hg, he, hk, Bool.false_eq_true, if_false]

/-- A check of R47 that fails is the fault of the instruction, whatever it means. -/
theorem State.lane_of_encFault (hcur : s.cur = some r) (ht : s.thread r = some t) (hg : s.wg r.wg = some g)
    (hk : t.run.cmark = none) {c : Code} (hc : u.encFault r t g = some c) : s.lane u body = .next (faulted s r t c) := by
  simp only [State.lane, hcur, ht, hg, hk, hc, ite_self]
  rfl

theorem Use.encFault_illegal (hs : u.allowed r.acc = false) : u.encFault r t g = some .illegal := by
  simp [Use.encFault, hs]

theorem Use.encFault_priv (hs : u.allowed r.acc = true) (hp : u.priv = true) (hm : t.arch.sup = false) :
    u.encFault r t g = some .priv := by
  simp [Use.encFault, hs, hp, hm]

theorem Use.encFault_regbound (hs : u.allowed r.acc = true) (hp : u.priv = true → t.arch.sup = true)
    (hb : ∃ x ∈ u.regs ++ u.names, allotOf r g ≤ x) : u.encFault r t g = some .regbound := by
  obtain ⟨x, hx, hle⟩ := hb
  have hall : ((u.regs ++ u.names).all fun x => decide (x < allotOf r g)) = false :=
    List.all_eq_false.2 ⟨x, hx, by simpa using hle⟩
  have hmode : (u.priv && !t.arch.sup) = false := by
    cases hpr : u.priv
    · rfl
    · simp [hp hpr]
  simp [Use.encFault, hs, hmode, hall]

/-- A privileged form in user mode takes PRIV. -/
theorem privForm_of_user (hcur : s.cur = some r) (ht : s.thread r = some t) (hg : s.wg r.wg = some g)
    (hk : t.run.cmark = none) (hacc : r.acc = false) (hm : t.arch.sup = false) (hs : u.slice = .exec) (f : Arch → Cmd) :
    privForm u f s = .next (faulted s r t .priv) :=
  State.lane_of_encFault hcur ht hg hk (Use.encFault_priv (by simp [Use.allowed, hs, hacc]) rfl hm)

/-- Settles O17: only a use that ends a run of its thread is spared the mark of a committing instruction. -/
theorem onlyTerminatorsAfterCommitting : Obligations.OnlyTerminatorsAfterCommitting := by
  unfold Obligations.OnlyTerminatorsAfterCommitting
  intro s r t g u body k hcur ht hg hk he
  refine State.lane_of_cmark hcur ht hg hk ?_
  obtain he | ⟨hsl, hacc⟩ := he
  · simp [Use.endsFor, he]
  · simp [Use.endsFor, hsl, hacc]

/-- Settles O15: the first check of R47 that fails decides; all seven privileged forms are checked for the mode. -/
theorem encodingChecksAndPrivilege : Obligations.EncodingChecksAndPrivilege := by
  unfold Obligations.EncodingChecksAndPrivilege
  refine ⟨fun s r t g u body hcur ht hg hk => ⟨fun hs => ?_, fun hs hp hm => ?_, fun hs hp hb => ?_⟩,
    fun s r t g d a n hcur ht hg hk hacc hm => ?_⟩
  · exact State.lane_of_encFault hcur ht hg hk (Use.encFault_illegal hs)
  · exact State.lane_of_encFault hcur ht hg hk (Use.encFault_priv hs hp hm)
  · exact State.lane_of_encFault hcur ht hg hk (Use.encFault_regbound hs hp hb)
  · have hform := fun u => privForm_of_user (u := u) hcur ht hg hk hacc hm
    simp only [List.forall_mem_cons, exec_cread, exec_cwrite, exec_traprd, exec_trapwr, exec_haltwg, exec_resume, exec_kill,
      execCread, execCwrite, execTraprd, execTrapwr, execHaltwg, execResume, execKill]
    exact ⟨hform _ rfl _, hform _ rfl _, hform _ rfl _, hform _ rfl _, hform _ rfl _, hform _ rfl _, hform _ rfl _, by simp⟩

end Sys2Proof.Machine
end

section
/-! PROOFS. A fetch of one instruction unit (R24, R320, R337, R338, R393): one lemma for each thing that it can find. -/

namespace Sys2Proof.Machine

/-- The unit at home is its two bytes, the lower one first (R24). -/
theorem State.homeUnit_toNat (s : State) (k : Nat) :
    (s.homeUnit k).toNat = (s.mem.read k).toNat + 256 * (s.mem.read (k + 1)).toNat := by
  have h0 := (s.mem.read k).isLt
  have h1 := (s.mem.read (k + 1)).isLt
  have hbytes : leNat (s.mem.readN k 2) = (s.mem.read k).toNat + 256 * (s.mem.read (k + 1)).toNat := by
    simp [Memory.readN, leNat]
  rw [State.homeUnit, hbytes, BitVec.toNat_ofNat, Nat.mod_eq_of_lt (by omega)]

theorem State.checkPage_of_not_grants {s : State} {p : Nat} {sup : Bool} {k : Access} {t : Trans} {a : DWord}
    (h : t.grants sup k = false) : s.checkPage p sup k t a = .error .prot := by
  simp [State.checkPage, h]

section fetch

variable {s : State} {r : TRef} {t : Thread} {g : Wg} {a : DWord} (ht : s.thread r = some t) (hg : s.wg r.wg = some g)
include ht hg

theorem State.fetchUnit_outside (h : inScratchRange a = true ∨ isCanonical a = false) :
    s.fetchUnit r a = .fault (faultAt .xlate a .fetch false) := by
  have hout : (inScratchRange a || !isCanonical a) = true := by simpa using h
  simp only [State.fetchUnit, ht, hg, hout, if_true]

variable (hs : inScratchRange a = false) (hc : isCanonical a = true)
include hs hc

theorem State.fetchUnit_of_unmapped (he : s.tlbFind (s.coreOf r) g.part a = none) : s.fetchUnit r a = .miss := by
  simp [State.fetchUnit, ht, hg, hs, hc, he]

variable {e : TlbEntry} (he : s.tlbFind (s.coreOf r) g.part a = some e)
include he

theorem State.fetchUnit_of_error {c : Code} (hp : s.checkPage g.part t.arch.sup .fetch e.trans a = .error c) :
    s.fetchUnit r a = .fault (faultAt c a .fetch false) := by
  simp [State.fetchUnit, ht, hg, hs, hc, he, hp]

section home

variable {k : Nat} (hp : s.checkPage g.part t.arch.sup .fetch e.trans a = .ok (.key k))
include hp

theorem State.fetchUnit_of_poisoned (hk : s.isPoisoned k = true) :
    s.fetchUnit r a = .fault (faultAt .uncorr a .fetch false) := by
  simp [State.fetchUnit, ht, hg, hs, hc, he, hp, hk]

/-- A unit of which the core keeps no copy is read at home, and the core then keeps it (R393). -/
theorem State.fetchUnit_of_home (hk : s.isPoisoned k = false) (hkept : alook (l1Key (s.coreOf r) k) s.fetched = none) :
    s.fetchUnit r a = .ok (s.homeUnit k) { s with fetched := aput (l1Key (s.coreOf r) k) (s.homeUnit k) s.fetched } := by
  simp [State.fetchUnit, ht, hg, hs, hc, he, hp, hk, hkept]

end home

section remote

variable {m pa : Nat} (hp : s.checkPage g.part t.arch.sup .fetch e.trans a = .ok (.remote m pa))
include hp

theorem State.fetchUnit_of_otherDomain (hd : pa / 2 ^ 44 ≠ s.fab.domain) :
    s.fetchUnit r a = .fault (faultAt .scope 0 .fetch false) := by
  simp only [State.fetchUnit, ht, hg, hs, hc, he, hp, if_pos hd, Bool.not_true, Bool.or_self, Bool.false_eq_true, if_false]

/-- A unit of another module of the domain has to come from there before it is read (R338). -/
theorem State.fetchUnit_of_remote (hd : pa / 2 ^ 44 = s.fab.domain)
    (hnone : alook (l1Key (s.coreOf r) (kFar m pa)) s.fetched = none) : s.fetchUnit r a = .miss := by
  simp only [State.fetchUnit, ht, hg, hs, hc, he, hp, if_neg (not_not.2 hd), hnone, Bool.not_true, Bool.or_self,
    Bool.false_eq_true, if_false]

theorem State.fetchUnit_of_kept (hd : pa / 2 ^ 44 = s.fab.domain) {u : Half}
    (hu : alook (l1Key (s.coreOf r) (kFar m pa)) s.fetched = some u) : s.fetchUnit r a = .ok u s := by
  simp only [State.fetchUnit, ht, hg, hs, hc, he, hp, if_neg (not_not.2 hd), hu, Bool.not_true, Bool.or_self,
    Bool.false_eq_true, if_false]

omit hs hc in
theorem State.fetchFar_of_otherDomain (hd : pa / 2 ^ 44 ≠ s.fab.domain) : s.fetchFar r a = none := by
  simp only [State.fetchFar, ht, hg, he, hp, if_neg hd]

omit hs hc in
theorem State.fetchFar_of_remote (hd : pa / 2 ^ 44 = s.fab.domain) : s.fetchFar r a = some (m, pa) := by
  simp only [State.fetchFar, ht, hg, he, hp, if_pos hd]

end remote

end fetch

/-- Settles O40, by what the address and its page are. -/
theorem fetchesReadMemory : Obligations.FetchesReadMemory := by
  unfold Obligations.FetchesReadMemory
  intro s r t g a ht hg
  refine ⟨State.fetchUnit_outside ht hg, fun hs hc => ⟨State.fetchUnit_of_unmapped ht hg hs hc, fun e he => ⟨fun hp => ?prot,
    fun k hp => ⟨State.fetchUnit_of_poisoned ht hg hs hc he hp, fun hk hkept => ?home⟩, fun m pa hp => ⟨fun hd => ?other,
    fun hd => ⟨State.fetchFar_of_remote ht hg he hp hd,
      State.fetchUnit_of_remote ht hg hs hc he hp hd, fun u => State.fetchUnit_of_kept ht hg hs hc he hp hd⟩⟩⟩⟩⟩
  case prot => exact State.fetchUnit_of_error ht hg hs hc he (State.checkPage_of_not_grants hp)
  case home => exact ⟨_, _, State.fetchUnit_of_home ht hg hs hc he hp hk hkept, s.homeUnit_toNat k, rfl⟩
  case other =>
    exact ⟨State.fetchFar_of_otherDomain ht hg he hp hd, State.fetchUnit_of_otherDomain ht hg hs hc he hp hd⟩

end Sys2Proof.Machine
end

section
/-! PROOFS. Steps that the schedule names (R24, R47, R49, R115, R388): what a step does for the next thread of a group, what becomes of
the group, and the steps of units and of time. -/

namespace Sys2Proof.Machine

/-! ### One thread of a group -/

section issueThread

variable {s : State} {r : TRef} {t : Thread} {ex : Instr → State → Result}

/-- A thread that finds no deferred fault and no pending label starts its run where it stands (R119, R124). -/
theorem State.runStart_plain (h0 : t.run.count = 0 → t.deferred = none ∧ t.arch.lpad = none) :
    (if t.run.count = 0 then s.runStart r t else (none, s)) = (none, s) := by
  refine ite_eq_right_iff.2 fun h => ?_
  obtain ⟨hd, hl⟩ := h0 h
  simp only [State.runStart, hd, hl]

variable (ht : s.thread r = some t)
include ht

theorem State.issueThread_of_full (hn : 24 ≤ t.run.count) :
    s.issueThread ex r = .next (s.takeFault r (plainFault .runform) 23) := by
  simp only [State.issueThread, ht, hn, if_true]

variable (hn : t.run.count < 24) (h0 : t.run.count = 0 → t.deferred = none ∧ t.arch.lpad = none)
include hn h0

theorem State.issueThread_of_fetchFault {f : FaultInfo} (hf : s.fetchAt r t.arch.pc = .fault f) :
    s.issueThread ex r = .next (s.takeFault r f t.run.count) := by
  simp only [State.issueThread, ht, Nat.not_le.2 hn, if_false, State.runStart_plain h0, hf]

theorem State.issueThread_of_fetchMiss {a : DWord} (hf : s.fetchAt r t.arch.pc = .miss a) :
    s.issueThread ex r = .next (s.startWalk r a .fetch) := by
  simp only [State.issueThread, ht, Nat.not_le.2 hn, if_false, State.runStart_plain h0, hf]

variable {bs : List Byte} {s₂ : State} (hf : s.fetchAt r t.arch.pc = .ok bs s₂)
include hf

theorem State.issueThread_of_decodeError {e : DecErr} (hd : decodeBytes bs = .error e) :
    s.issueThread ex r = .next (s₂.undecoded r t) := by
  simp only [State.issueThread, ht, Nat.not_le.2 hn, if_false, State.runStart_plain h0, hf, hd]

theorem State.issueThread_of_decode {i : Instr} {n : Nat} (hd : decodeBytes bs = .ok (i, n)) :
    s.issueThread ex r = ex i { s₂ with cur := some r } := by
  simp only [State.issueThread, ht, Nat.not_le.2 hn, if_false, State.runStart_plain h0, hf, hd]

omit ht hn h0 hf in
theorem State.undecoded_of_free (hk : t.run.cmark = none) :
    s.undecoded r t = s.takeFault r (plainFault .illegal) t.run.count := by
  simp only [State.undecoded, hk]

end issueThread

/-! ### The group that issues -/

/-- The outcome of an instruction of thread r with its group settled. -/
def Result.settled (x : Result) (q : Nat) (acc : Bool) (r : TRef) (before : Nat × Nat) : Result :=
  match x with
  | .next s => .next (s.settleGroup q acc r before)
  | y => y

/-- The state in which a quadrant issues: its slot has come (R115). -/
def State.atSlot (s : State) (q : Nat) (acc : Bool) : State := if acc then s else s.passTo (s.quad q).slot

/-- A group that is in its slot already, or of one thread, does not stall as a whole (log entry 73). -/
theorem State.groupStalls_of_begun {s : State} {ex : Instr → State → Result} {q : Nat} {gr : Group} {r : TRef} {rs : List TRef}
    (htodo : gr.todo = r :: rs) (h : rs = [] ∨ gr.done ≠ []) : s.groupStalls ex q gr = false := by
  obtain rfl | hdone := h
  · simp [State.groupStalls, htodo]
  · simp [State.groupStalls, hdone]

section issue

variable {s : State} {ex : Instr → State → Result} {q : Nat} {acc : Bool}

theorem State.issue_of_gated (h : s.sys.power.gated = true) : s.issue ex q acc = .next s := by
  simp only [State.issue, h, if_true]

variable {gr : Group} {r : TRef} {rs : List TRef} (hgate : s.sys.power.gated = false) (hgr : (s.quad q).group acc = some gr)
  (htodo : gr.todo = r :: rs)
include hgate hgr htodo

theorem State.issue_of_stall (h : (s.atSlot q acc).groupStalls ex q gr = true) :
    s.issue ex q acc = .next ((s.atSlot q acc).stallGroup ex q acc gr.todo) := by
  rw [State.atSlot] at h ⊢
  simp only [State.issue, hgate, hgr, htodo, h, Bool.false_eq_true, if_false, if_true]

theorem State.issue_of_thread {t : Thread} (ht : (s.atSlot q acc).thread r = some t)
    (h : (s.atSlot q acc).groupStalls ex q gr = false) :
    s.issue ex q acc = ((s.atSlot q acc).issueThread ex r).settled q acc r (t.seq, t.run.count) := by
  rw [State.atSlot] at ht h ⊢
  simp only [State.issue, hgate, hgr, htodo, ht, h, Bool.false_eq_true, if_false]
  cases (if acc = true then s else s.passTo (s.quad q).slot).issueThread ex r <;> rfl

end issue

/-- A step that the schedule gives to a quadrant issues for it. -/
theorem step_of_issue {s : State} {q : Nat} {acc : Bool} {l : List Turn}
    (h : s.sched = (if acc then Turn.access q else .issue q) :: l) :
    step s = finished (({ s with sched := l } : State).issue exec q acc) := by
  cases acc <;> simp only [Bool.false_eq_true, if_false, if_true] at h <;> simp only [step, h]

/-! ### What becomes of the group (R115) -/

theorem filter_bne_of_notMem {l : List TRef} {r : TRef} (h : r ∉ l) : l.filter (· != r) = l := by
  rw [List.filter_eq_self]
  intro x hx
  simpa using fun e : x = r => h (e ▸ hx)

section settle

variable {gr : Group} {r : TRef} {rs : List TRef} (htodo : gr.todo = r :: rs) (hrs : r ∉ rs) (hdone : r ∉ gr.done)
  (hwait : r ∉ gr.waitX)
include htodo hrs hdone hwait

/-- A thread that has issued joins those that have. -/
theorem Group.settle_of_issued :
    gr.settle r (some .running) true = { todo := rs, done := gr.done ++ [r], waitX := gr.waitX } := by
  simp [Group.settle, htodo, filter_bne_of_notMem, hrs, hdone, hwait]

/-- A thread that is held at a meeting waits there. -/
theorem Group.settle_of_held (m : Word) (k : XUse) (moved : Bool) :
    gr.settle r (some (.held m k)) moved = { todo := rs, done := gr.done, waitX := gr.waitX ++ [r] } := by
  simp [Group.settle, htodo, filter_bne_of_notMem, hrs, hdone, hwait]

end settle

theorem Group.turn_of_todo {gr : Group} (h : gr.todo ≠ []) : gr.turn = some gr := by
  simp [Group.turn, h]

/-- The quadrant of an execute group after one of its threads was tried. -/
theorem State.quad_settleGroup {s : State} {q : Nat} {r : TRef} {gr : Group} {t : Thread} {before : Nat × Nat}
    (hgr : (s.quad q).active = some gr) (ht : s.thread r = some t) (hskips : t.arch.skips = []) :
    (s.settleGroup q false r before).quad q =
      let moved := decide ((t.seq, t.run.count) ≠ before)
      let g := gr.settle r (some t.status) moved
      let x : Quad := { s.quad q with active := g.turn }
      if g.todo.isEmpty || (!moved && decide (t.status = .running)) then { x with slot := s.clock + 1 } else x := by
  have hmeet : s.guardMeet r = s := by simp [State.guardMeet, ht, hskips]
  simp only [State.settleGroup, hmeet, ht, State.quad_modQuad, Quad.group, Quad.setGroup, Bool.false_eq_true, if_false]
  have hcur : ({ s with cur := none } : State).quad q = s.quad q := rfl
  simp only [hcur, hgr, Option.map_some, Option.getD_some, Option.bind_some, Bool.not_false, Bool.and_true]

/-! ### Time -/

/-- Cycles pass while the clock runs (R388). -/
theorem State.passTime_clock {s : State} (h : s.sys.power.gated = false) (n : Nat) : (s.passTime n).clock = s.clock + n := by
  simp [State.passTime, State.tickBy, h]

/-- Settles O39: the turn at the head of the schedule decides; for a thread, its fetch and the decoding decide further. -/
theorem stepRunsTheDecodedInstruction : Obligations.StepRunsTheDecodedInstruction := by
  unfold Obligations.StepRunsTheDecodedInstruction
  refine ⟨fun s q acc r rs gr l t hsched => ?issues, fun s q r rs gr t before hgr htodo hrs hdone hwait ht hskips => ?settles,
    fun s i n l => ⟨fun h => ?event, fun k hold h => ?slice, fun h => ?tick⟩⟩
  case issues =>
    intro s0 s1 settle hgr htodo ht
    have hstep : step s = finished (s0.issue exec q acc) := step_of_issue hsched
    have hsettle : ∀ x : Result, settle x = finished (x.settled q acc r (t.seq, t.run.count)) := fun x => by cases x <;> rfl
    have hslot : s1 = s0.atSlot q acc := rfl
    have hsys : s0.sys = s.sys := rfl
    clear_value settle s1 s0
    subst hslot
    rw [← hsys]
    have hthread : s0.sys.power.gated = false → (s0.atSlot q acc).groupStalls exec q gr = false →
        ∀ x, (s0.atSlot q acc).issueThread exec r = x → step s = settle x := fun hgate h x hx => by
      rw [hstep, hsettle, State.issue_of_thread hgate hgr htodo ht h, hx]
    refine ⟨fun hgate => ?_, State.groupStalls_of_begun htodo, fun hgate => ⟨fun h => ?_, fun h hn => ?_, fun h hn h0 =>
      ⟨fun bs s2 i n hf hd => ?_, fun bs s2 e hf hd hk => ?_, fun f hf => ?_, fun a hf => ?_⟩⟩⟩
    · rw [hstep, State.issue_of_gated hgate]
    · rw [hstep, State.issue_of_stall hgate hgr htodo h]
    · exact hthread hgate h _ (State.issueThread_of_full ht hn)
    · exact hthread hgate h _ (State.issueThread_of_decode ht hn h0 hf hd)
    · exact hthread hgate h _ ((State.issueThread_of_decodeError ht hn h0 hf hd).trans (by rw [State.undecoded_of_free hk]))
    · exact hthread hgate h _ (State.issueThread_of_fetchFault ht hn h0 hf)
    · exact hthread hgate h _ (State.issueThread_of_fetchMiss ht hn h0 hf)
  case settles =>
    have hquad := State.quad_settleGroup (before := before) hgr ht hskips
    refine ⟨fun hrun hsame => ?_, fun hrun hmoved => ?_, fun m k hheld hne => ?_⟩
    · have hstay : gr.settle r (some .running) false = gr := rfl
      simp [hquad, hrun, hsame, hstay, Group.turn_of_todo, htodo]
    · have hsettle := Group.settle_of_issued htodo hrs hdone hwait
      refine ⟨fun hne => ?_, fun hnil => ?_⟩
      · simp [hquad, hrun, hmoved, hsettle, Group.turn_of_todo, hne]
      · simp [hquad, hrun, hmoved, hsettle, Group.turn, hnil]
    · have hsettle := Group.settle_of_held htodo hrs hdone hwait m k
      simp [hquad, hheld, hsettle, Group.turn_of_todo, hne]
  case event => simp only [step, h]
  case slice =>
    simp only [step, h]
    rfl
  case tick =>
    refine ⟨?_, fun hgate => State.passTime_clock (s := { s with sched := l }) hgate n⟩
    simp only [step, h]
    rfl

end Sys2Proof.Machine
end

section
/-! PROOFS. Floating arithmetic (R95 to R97): what each operation of LaneOps gives on operands of the kinds it needs, and what a lane
instruction with that operation does. -/

namespace Sys2Proof

/-! ### f32 (R95, R96) -/

section f32

variable {rm : Rm} {a b d : RegVal} (ha : a.kind = 7) (hb : b.kind = 7) (hd : d.kind = 7)

/-- The f32 result of an exact value, rounded once, with the flags of both steps (R70). -/
def f32Out (rm : Rm) (v : Num × FFlags) : RegVal × FFlags :=
  ({ bits := BitVec.ofNat 32 (roundIeee v.1 f32 rm).1, tag := tagF32 }, v.2 ||| (roundIeee v.1 f32 rm).2)

include ha in
theorem tagIf_f32 : tagIf (a.kind == 7) = .ok () := by simp [tagIf, ha]

include ha hb in
theorem needF32_ok : needF32 a b = .ok () := by simp [needF32, tagIf, ha, hb]

section two

include ha hb

theorem opFadd_ok : opFadd rm a b = .ok (f32Out rm (addFl rm (f32Val a) (f32Val b))) := by
  simp only [opFadd, needF32_ok ha hb]; rfl
theorem opFsub_ok : opFsub rm a b = .ok (f32Out rm (addFl rm (f32Val a) (f32Val b).neg)) := by
  simp only [opFsub, needF32_ok ha hb]; rfl
theorem opFmul_ok : opFmul rm a b = .ok (f32Out rm (mulFl (f32Val a) (f32Val b))) := by
  simp only [opFmul, needF32_ok ha hb]; rfl
theorem opFdiv_ok : opFdiv rm a b = .ok (f32Out rm (divNum (f32Val a) (f32Val b))) := by
  simp only [opFdiv, needF32_ok ha hb]; rfl
theorem opFmin_ok : opFmin a b =
    .ok ({ bits := BitVec.ofNat 32 (exactCode (minNum (f32Val a) (f32Val b)) f32), tag := tagF32 }, 0) := by
  simp only [opFmin, needF32_ok ha hb]; rfl
theorem opFmax_ok : opFmax a b =
    .ok ({ bits := BitVec.ofNat 32 (exactCode (maxNum (f32Val a) (f32Val b)) f32), tag := tagF32 }, 0) := by
  simp only [opFmax, needF32_ok ha hb]; rfl
theorem opFcsgn_ok : opFcsgn a b =
    .ok ({ bits := (a.bits &&& 0x7FFFFFFF) ||| (b.bits &&& 0x80000000), tag := tagF32 }, 0) := by
  simp only [opFcsgn, needF32_ok ha hb]; rfl

end two

section one

include ha

theorem opFabs_ok : opFabs a = .ok ({ bits := a.bits &&& 0x7FFFFFFF, tag := tagF32 }, 0) := by
  simp only [opFabs, tagIf_f32 ha]; rfl
theorem opFneg_ok : opFneg a = .ok ({ bits := a.bits ^^^ 0x80000000, tag := tagF32 }, 0) := by
  simp only [opFneg, tagIf_f32 ha]; rfl
theorem opRint_ok (nx : Bool) : opRint rm nx a =
    .ok ({ bits := BitVec.ofNat 32 (roundIntegral (f32Val a) f32 rm).1, tag := tagF32 },
      if (nx && (roundIntegral (f32Val a) f32 rm).2) = true then fNX else 0) := by
  simp only [opRint, tagIf_f32 ha]; rfl

end one

include ha hb hd in
/-- A fused multiply and add: the product's sign and the addend's turn with the form (R96). -/
theorem opFma_ok (np nd : Bool) : opFma np nd rm d a b = .ok (f32Out rm (fmaFl rm (if np then (f32Val a).neg else f32Val a) (f32Val b)
    (if nd then (f32Val d).neg else f32Val d))) := by
  have htag : tagIf (d.kind == 7 && a.kind == 7 && b.kind == 7) = .ok () := by simp [tagIf, ha, hb, hd]
  simp only [opFma, htag]; rfl

end f32

/-! ### f16x2 and bf16x2 (R97) -/

/-- The format of the elements of f16x2 or bf16x2. -/
def halfOf (k : Nat) : Fmt := if k = 8 then f16 else bf16

theorem halfFmt_ok {l : List RegVal} {k : Nat} (hl : ∀ x ∈ l, x.kind = k) (hk : k = 8 ∨ k = 9) :
    halfFmt l k = .ok (halfOf k) := by
  have hall : (l.all fun x => x.kind == k) = true := List.all_eq_true.2 fun x hx => beq_iff_eq.2 (hl x hx)
  obtain rfl | rfl := hk <;> simp only [halfFmt, hall] <;> rfl

/-- The two elements of a word of two. -/
theorem elemBits_packElems_two (c : Nat → Nat) {k : Nat} (hk : k < 2) :
    elemBits (packElems 2 [c 0, c 1]) 2 k = c k % 65536 := by
  have hword : (packElems 2 [c 0, c 1]).toNat = c 1 % 65536 * 65536 + c 0 % 65536 := by
    simp only [packElems, List.foldr_cons, List.foldr_nil, BitVec.toNat_ofNat]
    omega
  rw [elemBits, hword]
  interval_cases k <;> simp only [Nat.reduceDiv, Nat.reduceMul, Nat.reducePow] <;> omega

/-- The result of two exact elements, each rounded by itself (R97). -/
def halfOut (f : Fmt) (rm : Rm) (t : Half) (e : Nat → Num × FFlags) : RegVal × FFlags :=
  ({ bits := packElems 2 [(roundIeee (e 0).1 f rm).1, (roundIeee (e 1).1 f rm).1], tag := t },
   (e 0).2 ||| (e 1).2 ||| (roundIeee (e 0).1 f rm).2 ||| (roundIeee (e 1).1 f rm).2)

/-- The result of two elements that the format holds exactly. -/
def halfExact (f : Fmt) (t : Half) (e : Nat → Num) : RegVal × FFlags :=
  ({ bits := packElems 2 [exactCode (e 0) f, exactCode (e 1) f], tag := t }, 0)

section half

variable {rm : Rm} {a b d : RegVal} (hk : a.kind = 8 ∨ a.kind = 9) (hb : b.kind = a.kind) (hd : d.kind = a.kind)
include hk

theorem opHneg_ok : opHneg a = .ok ({ bits := a.bits ^^^ 0x80008000, tag := a.tag }, 0) := by
  simp only [opHneg, halfFmt_ok (l := [a]) (by simp) hk]; rfl
theorem opHabs_ok : opHabs a = .ok ({ bits := a.bits &&& 0x7FFF7FFF, tag := a.tag }, 0) := by
  simp only [opHabs, halfFmt_ok (l := [a]) (by simp) hk]; rfl

include hb

theorem opHadd_ok : opHadd rm a b = .ok (halfOut (halfOf a.kind) rm a.tag fun k =>
    addFl rm (halfVal (halfOf a.kind) a k) (halfVal (halfOf a.kind) b k)) := by
  simp only [opHadd, halfFmt_ok (l := [a, b]) (by simp [hb]) hk]; rfl
theorem opHsub_ok : opHsub rm a b = .ok (halfOut (halfOf a.kind) rm a.tag fun k =>
    addFl rm (halfVal (halfOf a.kind) a k) (halfVal (halfOf a.kind) b k).neg) := by
  simp only [opHsub, halfFmt_ok (l := [a, b]) (by simp [hb]) hk]; rfl
theorem opHmul_ok : opHmul rm a b = .ok (halfOut (halfOf a.kind) rm a.tag fun k =>
    mulFl (halfVal (halfOf a.kind) a k) (halfVal (halfOf a.kind) b k)) := by
  simp only [opHmul, halfFmt_ok (l := [a, b]) (by simp [hb]) hk]; rfl
theorem opHmin_ok : opHmin a b = .ok (halfExact (halfOf a.kind) a.tag fun k =>
    minNum (halfVal (halfOf a.kind) a k) (halfVal (halfOf a.kind) b k)) := by
  simp only [opHmin, halfFmt_ok (l := [a, b]) (by simp [hb]) hk]; rfl
theorem opHmax_ok : opHmax a b = .ok (halfExact (halfOf a.kind) a.tag fun k =>
    maxNum (halfVal (halfOf a.kind) a k) (halfVal (halfOf a.kind) b k)) := by
  simp only [opHmax, halfFmt_ok (l := [a, b]) (by simp [hb]) hk]; rfl

include hd in
theorem opHfma_ok : opHfma rm d a b = .ok (halfOut (halfOf a.kind) rm a.tag fun k =>
    fmaFl rm (halfVal (halfOf a.kind) a k) (halfVal (halfOf a.kind) b k) (halfVal (halfOf a.kind) d k)) := by
  simp only [opHfma, halfFmt_ok (l := [d, a, b]) (by simp [hb, hd]) hk]; rfl

end half

end Sys2Proof

namespace Sys2Proof.Machine

section gives

variable {s : State} {r : TRef} {t : Thread} {g : Wg} {d n : Nat} {rd : List Nat} {i : Instr} {op : Arch → LaneVal}

/-- A lane instruction of an execute slice gives the value of its operation. -/
theorem gives_of_laneV {v : RegVal} {fl : FFlags} (h : Ready s r t g rd [d]) (hacc : r.acc = false)
    (hi : exec i s = laneV { reads := rd, size := n } d op s) (hop : op t.arch = .ok (v, fl)) : Gives i s r t d v fl n :=
  hi.trans (laneV_of_ok (u := { reads := rd, size := n }) rfl rfl rfl rfl rfl h (by simp [Use.allowed, hacc]) hop)

/-- A form on two elements gives each of them rounded by itself. -/
theorem gives_halfOut {f : Fmt} {rm : Rm} {tg : Half} {e : Nat → Sys2Proof.Num × FFlags} (h : Ready s r t g rd [d])
    (hacc : r.acc = false) (hi : exec i s = laneV { reads := rd } d op s)
    (hop : op t.arch = .ok (halfOut f rm tg e)) :
    ∃ w fl, Gives i s r t d { bits := w, tag := tg } fl 4 ∧
      (∀ k, k < 2 → elemBits w 2 k = (roundIeee (e k).1 f rm).1 % 65536) ∧
      fl = (e 0).2 ||| (e 1).2 ||| (roundIeee (e 0).1 f rm).2 ||| (roundIeee (e 1).1 f rm).2 :=
  ⟨_, _, gives_of_laneV h hacc hi hop, fun _ hk => elemBits_packElems_two (fun k => (roundIeee (e k).1 f rm).1) hk, rfl⟩

/-- A form on two elements that sets no flag gives each of them. -/
theorem gives_halfExact {f : Fmt} {tg : Half} {e : Nat → Sys2Proof.Num} (h : Ready s r t g rd [d])
    (hacc : r.acc = false) (hi : exec i s = laneV { reads := rd } d op s)
    (hop : op t.arch = .ok (halfExact f tg e)) :
    ∃ w, Gives i s r t d { bits := w, tag := tg } 0 4 ∧ ∀ k, k < 2 → elemBits w 2 k = exactCode (e k) f % 65536 :=
  ⟨_, gives_of_laneV h hacc hi hop, fun _ hk => elemBits_packElems_two (fun k => exactCode (e k) f) hk⟩

end gives

/-- Settles O7: each form is its operation's value on operands of its kinds. -/
theorem floatingArithmetic : Obligations.FloatingArithmetic := by
  unfold Obligations.FloatingArithmetic
  refine ⟨fun s r t g d a b hacc => ⟨fun h hx hy => ⟨?_, ?_, ?_, ?_, ?_, ?_, ?_, ?_, ?_, ?_, ?_⟩,
      fun h hx => ⟨?_, ?_, ?_, ?_, ?_, ?_⟩, fun h hz hx hy => ⟨?_, ?_, ?_, ?_⟩⟩,
    fun s r t g d a b hacc => fun hk => ⟨fun h hy => ⟨?_, ?_, ?_, ?_, ?_⟩, fun h hy hz => ?_, fun h => ⟨?_, ?_⟩⟩⟩
  · exact gives_of_laneV h hacc (exec_fadd ..) (opFadd_ok hx hy)
  · rintro rfl; exact gives_of_laneV h hacc (exec_fadd16 ..) (opFadd_ok hx hy)
  · exact gives_of_laneV h hacc (exec_fsub ..) (opFsub_ok hx hy)
  · rintro rfl; exact gives_of_laneV h hacc (exec_fsub16 ..) (opFsub_ok hx hy)
  · exact gives_of_laneV h hacc (exec_fmul ..) (opFmul_ok hx hy)
  · rintro rfl; exact gives_of_laneV h hacc (exec_fmul16 ..) (opFmul_ok hx hy)
  · exact gives_of_laneV h hacc (exec_fdiv ..) (opFdiv_ok hx hy)
  · exact gives_of_laneV h hacc (exec_fmin ..) (opFmin_ok hx hy)
  · exact gives_of_laneV h hacc (exec_fmax ..) (opFmax_ok hx hy)
  · rintro rfl; exact gives_of_laneV h hacc (exec_fmax16 ..) (opFmax_ok hx hy)
  · exact gives_of_laneV h hacc (exec_fcsgn ..) (opFcsgn_ok hx hy)
  · exact gives_of_laneV h hacc (exec_fabs ..) (opFabs_ok hx)
  · exact gives_of_laneV h hacc (exec_fneg ..) (opFneg_ok hx)
  · exact gives_of_laneV h hacc (exec_ffloor ..) (opRint_ok hx false)
  · exact gives_of_laneV h hacc (exec_fceil ..) (opRint_ok hx false)
  · exact gives_of_laneV h hacc (exec_ftrunc ..) (opRint_ok hx false)
  · exact gives_of_laneV h hacc (exec_frint ..) (opRint_ok hx true)
  · exact gives_of_laneV h hacc (exec_ffma ..) (opFma_ok hx hy hz false false)
  · exact gives_of_laneV h hacc (exec_ffms ..) (opFma_ok hx hy hz false true)
  · exact gives_of_laneV h hacc (exec_fnma ..) (opFma_ok hx hy hz true false)
  · exact gives_of_laneV h hacc (exec_fnms ..) (opFma_ok hx hy hz true true)
  · exact gives_halfOut h hacc (exec_hadd ..) (opHadd_ok hk hy)
  · exact gives_halfOut h hacc (exec_hsub ..) (opHsub_ok hk hy)
  · exact gives_halfOut h hacc (exec_hmul ..) (opHmul_ok hk hy)
  · exact gives_halfExact h hacc (exec_hmin ..) (opHmin_ok hk hy)
  · exact gives_halfExact h hacc (exec_hmax ..) (opHmax_ok hk hy)
  · exact gives_halfOut h hacc (exec_hfma ..) (opHfma_ok hk hy hz)
  · exact gives_of_laneV h hacc (exec_hneg ..) (opHneg_ok hk)
  · exact gives_of_laneV h hacc (exec_habs ..) (opHabs_ok hk)

end Sys2Proof.Machine
end

section
/-! PROOFS. What passes within a run, guards, and the terminators of a run (R51, R111, R121 to R128, R135, R157, R309). -/

namespace Sys2Proof.Machine

/-! ### The shapes of the instructions -/

section shapes

variable {s : State} {r : TRef} {t : Thread} {g : Wg} {body : TRef → Thread → Wg → State → State} {rd : List Nat}

/-- Within a run and under no guard a guard has its own meaning. -/
theorem State.lane_guards (h : Ready s r t g [] []) (hacc : r.acc = false) (hguard : t.run.guard = none) :
    s.lane { guards := true } body = .next (body r t g s) := by
  have henc : ({ guards := true } : Use).encFault r t g = none :=
    Use.encFault_none (by simp [Use.allowed, hacc]) (by simp) (by simp [Use.regs])
  have hact : s.act { guards := true } body r t g = body r t g s := State.act_of_free (by simp [Use.regs]) rfl (by simp)
  simp [State.lane, h.cur, h.thread, h.wg, Use.endsFor, h.noCommit, henc, h.noLoop, hguard, hact]

/-- An instruction without operands that has no effect but on its thread. -/
theorem State.lane_plain (h : Ready s r t g [] []) (hacc : r.acc = false) : s.lane {} body = .next (body r t g s) :=
  State.lane_of_ready (u := {}) h (by simp [Use.allowed, hacc]) (by simp) (by simp) rfl rfl rfl

/-- A terminator of an execute slice. -/
theorem State.lane_ends (h : Ending s r t g rd) (hacc : r.acc = false) :
    s.lane { reads := rd, ends := true } body = .next (body r t g s) :=
  State.lane_of_ending (u := { reads := rd, ends := true }) h rfl (by simp [Use.allowed, hacc]) (by simp) (by simp) rfl rfl

end shapes

/-! ### Within a run (R51, R123, R126, R309) -/

section within

variable {s : State} {r : TRef} {t : Thread} {g : Wg} (h : Ready s r t g [] []) (hacc : r.acc = false)
include h hacc

theorem exec_nop_of_ready : exec .nop s = .next (passed s r t t.arch 4) := by
  rw [exec_nop, execNop, State.lane_plain h hacc, State.pass_eq h.thread]; rfl

theorem exec_lpad_of_ready (label : Nat) : exec (.lpad label) s = .next (passed s r t t.arch 4) := by
  rw [exec_lpad, execLpad, State.lane_plain h hacc, State.pass_eq h.thread]; rfl

theorem exec_beacon_of_ready : exec .beacon s =
    .next (s.setThread r (({ t with run := { t.run with beacon := true } } : Thread).pass 4)) := by
  rw [exec_beacon, execBeacon, State.lane_plain h hacc, State.modRun, State.modThread_of_some h.thread,
    State.pass_eq (State.thread_setThread ..), State.setThread_setThread]

variable (hguard : t.run.guard = none) {p inv n : Nat}
include hguard

/-- A range of which a unit lies in another module asks for it (R123). -/
theorem exec_guard_of_far {x : DWord} (hx : s.rangeFar r (t.arch.pc + 4) (min n (23 - t.run.count)) = some x) :
    exec (.guard p inv n) s = .next (s.startWalk r x .fetch) := by
  rw [exec_guard, execGuard, State.lane_guards h hacc hguard]
  simp only [hx]

/-- A range that ends the run or holds a guard is RUNFORM at the guard (R51). -/
theorem exec_guard_of_broken (hx : s.rangeFar r (t.arch.pc + 4) (min n (23 - t.run.count)) = none)
    (hb : s.rangeBroken r (t.arch.pc + 4) (min n (23 - t.run.count)) = true) :
    exec (.guard p inv n) s = .next (faulted s r t .runform) := by
  rw [exec_guard, execGuard, State.lane_guards h hacc hguard]
  simp only [hx, hb, if_true, faulted]

/-- A guard samples its condition for the range behind it (R123). -/
theorem exec_guard_of_range (hx : s.rangeFar r (t.arch.pc + 4) (min n (23 - t.run.count)) = none)
    (hb : s.rangeBroken r (t.arch.pc + 4) (min n (23 - t.run.count)) = false) :
    exec (.guard p inv n) s = .next (s.setThread r { t with
      arch := { t.arch with pc := t.arch.pc + 4 }
      run := { t.run with count := t.run.count + 1,
                          guard := some { left := n, cond := t.arch.pred p != (inv == 1), at' := t.run.count } } }) := by
  rw [exec_guard, execGuard, State.lane_guards h hacc hguard]
  simp only [hx, hb, State.pass_eq h.thread, State.modRun, State.modThread_of_some (State.thread_setThread ..),
    State.setThread_setThread]
  rfl

end within

/-! ### Calls and the return stack (R111, R157) -/

@[simp] theorem State.thread_refill (s : State) (q : Nat) (r : TRef) : (s.refill q).thread r = s.thread r := by
  simp only [State.refill]
  split
  · rfl
  · split
    · rfl
    · exact State.thread_setQuad ..

@[simp] theorem State.thread_dropFromQuad (s : State) (r q : TRef) : (s.dropFromQuad r).thread q = s.thread q := by
  simp [State.dropFromQuad]

/-- A call that has to wait for the page of its spill leaves its thread parked there (R157). -/
theorem State.thread_parkSpill {s : State} {r : TRef} {t u : Thread} {g : Wg}
    (hu : (s.postMissing g.part (s.spillAt r t g) 1).thread r = some u) :
    (s.parkSpill r t g).thread r = some { u with status := .parked .spill } := by
  simp only [State.parkSpill, State.thread_modThread, State.thread_dropFromQuad, hu, Option.map_some]

theorem State.canSpill_eq (s : State) (r : TRef) (t : Thread) (g : Wg) : s.canSpill r t g =
    (decide (t.arch.rstack.length < 8) || (s.engineAt g.part true .store (s.spillAt r t g)).isOk) := by
  unfold State.canSpill
  congr 1
  cases s.engineAt g.part true .store (s.spillAt r t g) <;> rfl

section calls

variable {s : State} {r : TRef} {t : Thread} {g : Wg} {x : DWord} {l : Option Nat}

theorem State.callTo_of_full (hfull : t.arch.rstack.length = 1024) : s.callTo r t g x l = faulted s r t .cfi :=
  if_pos hfull

variable (hroom : t.arch.rstack.length < 1024)
include hroom

theorem State.callTo_of_canSpill (hs : s.canSpill r t g = true) : s.callTo r t g x l =
    s.endRun r t g (fun a => { a with rstack := (a.pc + 4) :: a.rstack, pc := x, lpad := l }) id (readyAt 0) := by
  simp [State.callTo, hroom.ne, hs]

theorem State.callTo_of_not_canSpill (hs : s.canSpill r t g = false) : s.callTo r t g x l = s.parkSpill r t g := by
  simp [State.callTo, hroom.ne, hs]

end calls

/-- What an instruction that calls does: CFI where the stack is full, else the return address is pushed, unless the page of a spill
is missing (R111, R121, R157). -/
theorem calls_of_callTo {i : Instr} {s z : State} {r : TRef} {t : Thread} {g : Wg} {x : DWord} {l : Option Nat}
    (hi : exec i s = .next (z.callTo r t g x l)) :
    (t.arch.rstack.length = 1024 → exec i s = .next (faulted z r t .cfi)) ∧
    (t.arch.rstack.length < 1024 →
      (decide (t.arch.rstack.length < 8) || (z.engineAt g.part true .store (z.spillAt r t g)).isOk) = true →
      exec i s = .next (z.endRun r t g (fun a => { a with rstack := (a.pc + 4) :: a.rstack, pc := x, lpad := l }) id (.ready 0 0))) ∧
    (t.arch.rstack.length < 1024 →
      (decide (t.arch.rstack.length < 8) || (z.engineAt g.part true .store (z.spillAt r t g)).isOk) = false →
      exec i s = .next (z.parkSpill r t g)) := by
  rw [hi, ← State.canSpill_eq]
  exact ⟨fun hf => by rw [State.callTo_of_full hf], fun hr hs => by rw [State.callTo_of_canSpill hr hs]; rfl,
    fun hr hs => by rw [State.callTo_of_not_canSpill hr hs]⟩

/-! ### Branches and returns (R25, R121, R124) -/

section ends

variable {s : State} {r : TRef} {t : Thread} {g : Wg} (h : Ending s r t g []) (hacc : r.acc = false)
include h hacc

theorem exec_call_of_not_cond {off : Int} {inv p : Nat} (hc : t.arch.cond p inv = false) :
    exec (.call off inv p) s = .next (s.goTo r t g (t.arch.pc + 4) 0) := by
  rw [exec_call, execCall, State.lane_ends h hacc]
  simp only [hc, Bool.false_eq_true, if_false]

theorem exec_call_of_cond {off : Int} {inv p : Nat} (hc : t.arch.cond p inv = true) :
    exec (.call off inv p) s = .next (s.callTo r t g (target t.arch.pc off) none) := by
  rw [exec_call, execCall, State.lane_ends h hacc]
  simp only [hc, if_true]

theorem exec_ret_of_empty (hs : t.arch.rstack = []) : exec .ret s = .next (faulted s r t .cfi) := by
  rw [exec_ret, execRet, State.lane_ends h hacc]
  simp only [hs, faulted]

variable {x : DWord} {rest : List DWord} (hs : t.arch.rstack = x :: rest)
include hs

theorem exec_ret_of_odd (hx : x.getLsbD 0 = true) :
    exec .ret s = .next (s.takeFault r (faultAt .align x .fetch false) t.run.count) := by
  rw [exec_ret, execRet, State.lane_ends h hacc]
  simp only [hs, hx, if_true]

theorem exec_ret_of_even (hx : x.getLsbD 0 = false) :
    exec .ret s = .next (s.endRun r t g (fun y => { y with pc := x, rstack := rest }) id (.ready 0 0)) := by
  rw [exec_ret, execRet, State.lane_ends h hacc]
  simp only [hs, hx, Bool.false_eq_true, if_false]
  rfl

end ends

/-! ### The branch table (R125) -/

section table

variable {s : State} {r : TRef} {t : Thread} {g : Wg} {a k : Nat} (h : Ending s r t g [a]) (hacc : r.acc = false)
include h hacc

theorem exec_brt_of_outside (hk : k ≤ (t.arch.reg a).bits.toNat) : exec (.brt a k) s = .next (faulted s r t .brtrange) := by
  rw [exec_brt, execBrt, State.lane_ends h hacc]
  simp only [hk, if_true, faulted]

variable (hk : (t.arch.reg a).bits.toNat < k) {e : DWord}
  (he : e = t.arch.pc + 4 + BitVec.ofNat 64 (4 * (t.arch.reg a).bits.toNat))
include hk he

theorem exec_brt_of_fault {f : FaultInfo} (hf : s.fetchUnit r e = .fault f) :
    exec (.brt a k) s = .next (s.takeFault r { f with addr := e } t.run.count) := by
  subst he
  rw [exec_brt, execBrt, State.lane_ends h hacc]
  simp only [hk.not_ge, if_false, hf]

theorem exec_brt_of_miss (hf : s.fetchUnit r e = .miss) : exec (.brt a k) s = .next (s.startWalk r e .fetch) := by
  subst he
  rw [exec_brt, execBrt, State.lane_ends h hacc]
  simp only [hk.not_ge, if_false, hf]

variable {lo : Half} {s1 : State} (hlo : s.fetchUnit r e = .ok lo s1)
include hlo

theorem exec_brt_of_fault_second {f : FaultInfo} (hf : s1.fetchUnit r (e + 2) = .fault f) :
    exec (.brt a k) s = .next (s1.takeFault r { f with addr := e } t.run.count) := by
  subst he
  rw [exec_brt, execBrt, State.lane_ends h hacc]
  simp only [hk.not_ge, if_false, hlo, hf]

theorem exec_brt_of_miss_second {b : Loc} (hf : s1.fetchUnit r (e + 2) = .miss)
    (hb : s1.engineAt g.part t.arch.sup .fetch (e + 2) = .ok b) :
    exec (.brt a k) s = .next (s1.startWalk r (e + 2) .fetch) := by
  subst he
  rw [exec_brt, execBrt, State.lane_ends h hacc]
  simp only [hk.not_ge, if_false, hlo, hf, hb]

theorem exec_brt_of_error_second {c : Code} (hf : s1.fetchUnit r (e + 2) = .miss)
    (hb : s1.engineAt g.part t.arch.sup .fetch (e + 2) = .error c) :
    exec (.brt a k) s = .next (s1.takeFault r (faultAt c e .fetch false) t.run.count) := by
  subst he
  rw [exec_brt, execBrt, State.lane_ends h hacc]
  simp only [hk.not_ge, if_false, hlo, hf, hb]

theorem exec_brt_of_entry {hi : Half} {s2 : State} (hhi : s1.fetchUnit r (e + 2) = .ok hi s2) :
    exec (.brt a k) s = .next (s2.goTo r t g (target t.arch.pc (hi ++ lo : Word).toInt) 0) := by
  subst he
  rw [exec_brt, execBrt, State.lane_ends h hacc]
  simp only [hk.not_ge, if_false, hlo, hhi]

end table

/-! ### Indirect transfers (R25, R124) -/

/-- The transfer itself of a jmpi or calli, with the label that is still to be checked. -/
def State.transfer (call : Bool) (s : State) (r : TRef) (t : Thread) (g : Wg) (x : DWord) (l : Option Nat) : State :=
  if call then s.callTo r t g x l else s.endRun r t g (fun q => { q with pc := x, lpad := l }) id (readyAt 0)

section indirect

variable {s : State} {r : TRef} {t : Thread} {g : Wg} {a imm : Nat} (h : Ending s r t g [a, a + 1]) (hacc : r.acc = false)
  (call : Bool)
include h hacc

theorem indirect_of_odd (hx : (t.arch.pair a).getLsbD 0 = true) :
    indirect call a imm s = .next (s.takeFault r (faultAt .align (t.arch.pair a) .fetch false) t.run.count) := by
  rw [indirect, State.lane_ends h hacc]
  simp only [hx, if_true]

variable (hx : (t.arch.pair a).getLsbD 0 = false)
include hx

/-- A supervisor may transfer without a label. -/
theorem indirect_of_unchecked (hsup : t.arch.sup = true) :
    indirect call a 0x7FF s = .next (s.transfer call r t g (t.arch.pair a) none) := by
  rw [indirect, State.lane_ends h hacc]
  simp only [hx, hsup, Bool.false_eq_true, if_false, beq_self_eq_true, Bool.and_self, if_true]
  rfl

variable (hchk : ¬(t.arch.sup = true ∧ imm = 0x7FF))
include hchk

theorem indirect_of_far (hfar : s.unitFar r (t.arch.pair a) = true) :
    indirect call a imm s = .next (s.startWalk r (t.arch.pair a) .fetch) := by
  rw [indirect, State.lane_ends h hacc]
  simp only [hx, Bool.and_eq_true, beq_iff_eq, hchk, Bool.false_eq_true, if_false, hfar, if_true]

variable (hnear : s.unitFar r (t.arch.pair a) = false)
include hnear

theorem indirect_of_far_second (hlong : ((s.lookUnit r (t.arch.pair a)).1.getD 0).getLsbD 0 = true)
    (hfar : s.unitFar r (t.arch.pair a + 2) = true) :
    indirect call a imm s = .next (s.startWalk r (t.arch.pair a + 2) .fetch) := by
  rw [indirect, State.lane_ends h hacc]
  simp only [hx, Bool.and_eq_true, beq_iff_eq, hchk, Bool.false_eq_true, if_false, hnear, hlong, hfar, and_self, if_true]

variable (hnear2 : s.unitFar r (t.arch.pair a + 2) = false) {s1 : State}
include hnear2

theorem indirect_of_bad (hl : s.labelAt r (t.arch.pair a) imm = (.bad, s1)) :
    indirect call a imm s = .next (faulted s1 r t .cfi) := by
  rw [indirect, State.lane_ends h hacc]
  simp only [hx, Bool.and_eq_true, beq_iff_eq, hchk, Bool.false_eq_true, if_false, hnear, hnear2, and_false, hl, faulted]

theorem indirect_of_ok (hl : s.labelAt r (t.arch.pair a) imm = (.ok, s1)) :
    indirect call a imm s = .next (s1.transfer call r t g (t.arch.pair a) none) := by
  rw [indirect, State.lane_ends h hacc]
  simp only [hx, Bool.and_eq_true, beq_iff_eq, hchk, Bool.false_eq_true, if_false, hnear, hnear2, and_false, hl]
  rfl

theorem indirect_of_unread (hl : s.labelAt r (t.arch.pair a) imm = (.unread, s1)) :
    indirect call a imm s = .next (s1.transfer call r t g (t.arch.pair a) (some imm)) := by
  rw [indirect, State.lane_ends h hacc]
  simp only [hx, Bool.and_eq_true, beq_iff_eq, hchk, Bool.false_eq_true, if_false, hnear, hnear2, and_false, hl]
  rfl

end indirect

/-! ### The trailer (R135) -/

theorem exec_wait_of_ending {s : State} {r : TRef} {t : Thread} {g : Wg} {l st c k av aw : Nat} (h : Ending s r t g [])
    (haw : av = 1 → aw < allotOf r g) : exec (.wait l st c k av aw) s =
      .next (s.endRun r t g (fun x => { x with pc := x.pc + 4 }) id (.trailer l st c k (if av = 1 then some aw else none))) := by
  rw [exec_wait, execWait, State.lane_of_ending (u := { names := if av = 1 then [aw] else [], ends := true, slice := .both }) h
    rfl rfl (by simp) ?_ rfl rfl]
  intro x hx
  obtain ⟨hav, rfl⟩ : av = 1 ∧ x = aw := by simpa using hx
  exact haw hav

/-- Settles O18: the meaning of each form under the conditions of its clause. -/
theorem controlFlow : Obligations.ControlFlow := by
  unfold Obligations.ControlFlow
  refine ⟨fun s r t g p inv n label hacc h => ⟨exec_nop_of_ready h hacc, exec_lpad_of_ready h hacc label,
      exec_beacon_of_ready h hacc, fun x hg hx => exec_guard_of_far h hacc hg hx,
      fun hg hx hb => exec_guard_of_range h hacc hg hx hb, fun hg hx hb => exec_guard_of_broken h hacc hg hx hb⟩,
    fun s r t g off inv p a l st c k av aw label hacc => ⟨fun h => ?ends, fun h => ?table, fun h => ?indirect,
      fun h haw => exec_wait_of_ending h haw⟩⟩
  case ends =>
    refine ⟨(exec_br ..).trans (State.lane_ends h hacc), fun hc => exec_call_of_not_cond h hacc hc, fun hc hf => ?full,
      fun hc hr => ?room, fun hs => exec_ret_of_empty h hacc hs, fun x rest hs hx => exec_ret_of_odd h hacc hs hx,
      fun x rest hs hx => exec_ret_of_even h hacc hs hx, (exec_reform ..).trans (State.lane_ends h hacc),
      (exec_yield ..).trans (State.lane_ends h hacc), (exec_exit ..).trans (State.lane_ends h hacc)⟩
    case full => exact (calls_of_callTo (exec_call_of_cond h hacc hc)).1 hf
    case room =>
      obtain ⟨-, hpush, hpark⟩ := calls_of_callTo (exec_call_of_cond h hacc hc)
      exact ⟨fun hs => hpush hr hs, fun hs => ⟨hpark hr hs, fun u hu => State.thread_parkSpill hu⟩⟩
  case table =>
    refine ⟨(exec_reformK ..).trans (State.lane_ends h hacc), fun hk => exec_brt_of_outside h hacc hk,
      fun s1 s2 lo hi hk hlo hhi => exec_brt_of_entry h hacc hk rfl hlo hhi, fun e hk he => ⟨?_, ?_, fun lo s1 hlo => ⟨?_, ?_, ?_⟩⟩⟩
    · exact fun f hf => exec_brt_of_fault h hacc hk he hf
    · exact fun hf => exec_brt_of_miss h hacc hk he hf
    · exact fun f hf => exec_brt_of_fault_second h hacc hk he hlo hf
    · exact fun b hf hb => exec_brt_of_miss_second h hacc hk he hlo hf hb
    · exact fun c hf hb => exec_brt_of_error_second h hacc hk he hlo hf hb
  case indirect =>
    refine ⟨fun hx => ⟨?_, ?_⟩, fun hx hsup => ⟨?_, ?_⟩, fun hx hc hf => ⟨?_, ?_⟩, fun hx hc hn hl hf => ⟨?_, ?_⟩,
      fun s1 hx hc hn hn2 => ⟨fun hl => ?_, fun hl => ?_, fun hl => ⟨?_, ?_⟩, fun hl => ⟨?_, ?_⟩⟩⟩
    · exact indirect_of_odd h hacc false hx
    · exact indirect_of_odd h hacc true hx
    · exact indirect_of_unchecked h hacc false hx hsup
    · exact calls_of_callTo (indirect_of_unchecked h hacc true hx hsup)
    · exact indirect_of_far h hacc false hx hc hf
    · exact indirect_of_far h hacc true hx hc hf
    · exact indirect_of_far_second h hacc false hx hc hn hl hf
    · exact indirect_of_far_second h hacc true hx hc hn hl hf
    · exact indirect_of_ok h hacc false hx hc hn hn2 hl
    · exact calls_of_callTo (indirect_of_ok h hacc true hx hc hn hn2 hl)
    · exact indirect_of_unread h hacc false hx hc hn hn2 hl
    · exact calls_of_callTo (indirect_of_unread h hacc true hx hc hn hn2 hl)
    · exact indirect_of_bad h hacc false hx hc hn hn2 hl
    · exact indirect_of_bad h hacc true hx hc hn hn2 hl

end Sys2Proof.Machine
end

section
/-! PROOFS. Integer operands and division (R64, R65, R71): the tag checks of the integer operations, and what a quotient and a
remainder are as words. -/

namespace Sys2Proof

/-! ### The checks of tags (R64, R65) -/

theorem tagIf_error {c : Bool} (h : c = false) : tagIf c = .error .tag := by simp [tagIf, h]

section checks

variable {l : List Nat} {a b : RegVal}

/-- Tags of one kind that is no binary8 agree as R64 wants it. -/
theorem sameKind_of_kind (h : b.kind = a.kind) (h8 : kindB8 a.kind = false) : sameKind a.tag b.tag = true := by
  have htag : tKind b.tag = tKind a.tag := h
  have hb8 : kindB8 (tKind a.tag) = false := h8
  simp [sameKind, htag, hb8]

theorem kind_of_sameKind (h : sameKind a.tag b.tag = true) : b.kind = a.kind := by
  simp only [sameKind, Bool.and_eq_true, beq_iff_eq] at h
  exact h.1.symm

theorem needKinds_ok (hl : a.kind ∈ l) (hb : b.kind = a.kind) (h8 : kindB8 a.kind = false) : needKinds l a b = .ok () := by
  simp [needKinds, tagIf, hl, hb, sameKind_of_kind hb h8]

theorem needKindsScale_ok (hl : a.kind ∈ l) (hb : b.kind = a.kind) (h8 : kindB8 a.kind = false) (hs : b.scale = a.scale) :
    needKindsScale l a b = .ok () := by
  simp [needKindsScale, tagIf, hl, hb, hs, sameKind_of_kind hb h8]

end checks

/-! ### Operations on integers of one kind (R85) -/

section integers

variable {a b : RegVal} {f : Int → Int → Int}

theorem int_of_signed (h : a.kind = 1) : a.int = a.bits.toInt := if_pos h
theorem int_of_unsigned (h : a.kind = 2) : a.int = (a.bits.toNat : Int) := if_neg (by omega)

variable (hk : a.kind = 1 ∨ a.kind = 2) (hb : b.kind = a.kind)
include hk

theorem kindB8_int : kindB8 a.kind = false := by obtain h | h := hk <;> rw [h] <;> rfl

/-- The tag of an integer kind with scale 0 is its kind (R60). -/
theorem makeTag_zero : makeTag a.kind 0 0 = .ok (kTag a.kind) := by obtain h | h := hk <;> rw [h] <;> decide

include hb

theorem intSame_ok (hs : b.scale = a.scale) :
    intSame f a b = .ok ({ bits := BitVec.ofInt 32 (f a.int b.int), tag := a.tag }, 0) := by
  rw [intSame, needKindsScale_ok (by simpa using hk) hb (kindB8_int hk) hs]
  rfl

theorem intScale_ok {g : Int → Int → Int} {p : Half} (hp : makeTag a.kind 0 (g a.scale b.scale) = .ok p) :
    intScale f g a b = .ok ({ bits := BitVec.ofInt 32 (f a.int b.int), tag := p }, 0) := by
  rw [intScale, needKinds_ok (by simpa using hk) hb (kindB8_int hk), hp]
  rfl

end integers

/-! ### Quotient and remainder as words (R71) -/

theorem ofInt_quotR71_signed (x y : Word) :
    BitVec.ofInt 32 (quotR71 x.toInt y.toInt) = if y = 0 then 0xFFFFFFFF else x.sdiv y := by
  by_cases hy : y = 0
  · subst hy; rfl
  · have hz : y.toInt ≠ 0 := fun h => hy (BitVec.toInt_inj.1 h)
    rw [quotR71, if_neg hz, if_neg hy]
    exact BitVec.eq_of_toInt_eq (by rw [BitVec.toInt_ofInt, BitVec.toInt_sdiv])

theorem ofInt_quotR71_unsigned (x y : Word) :
    BitVec.ofInt 32 (quotR71 x.toNat y.toNat) = if y = 0 then 0xFFFFFFFF else x / y := by
  by_cases hy : y = 0
  · subst hy; rfl
  · have hz : (y.toNat : Int) ≠ 0 := fun h => hy (BitVec.eq_of_toNat_eq (by exact_mod_cast h))
    rw [quotR71, if_neg hz, if_neg hy, ← Int.ofNat_tdiv, BitVec.ofInt_natCast, ← BitVec.toNat_udiv, BitVec.ofNat_toNat,
      BitVec.setWidth_eq]

theorem ofInt_remR71_signed (x y : Word) : BitVec.ofInt 32 (remR71 x.toInt y.toInt) = x.srem y := by
  have hrem : remR71 x.toInt y.toInt = (x.srem y).toInt := by
    rw [BitVec.toInt_srem, remR71]
    split
    · next h => rw [h, Int.tmod_zero]
    · rfl
  rw [hrem, BitVec.ofInt_toInt]

theorem ofInt_remR71_unsigned (x y : Word) : BitVec.ofInt 32 (remR71 x.toNat y.toNat) = x % y := by
  have hrem : remR71 x.toNat y.toNat = ((x % y).toNat : Int) := by
    rw [BitVec.toNat_umod, Int.ofNat_tmod, remR71]
    split
    · next h => rw [h, Int.tmod_zero]
    · rfl
  rw [hrem, BitVec.ofInt_natCast, BitVec.ofNat_toNat, BitVec.setWidth_eq]

/-- The quotient that div leaves of two words read under a kind (R71). -/
def quotWord (k : Nat) (x y : Word) : Word := if y = 0 then 0xFFFFFFFF else if k = 1 then x.sdiv y else x / y

/-- The remainder that rem leaves of two words read under a kind (R71). -/
def remWord (k : Nat) (x y : Word) : Word := if k = 1 then x.srem y else x % y

section div

variable {a b : RegVal} (hk : a.kind = 1 ∨ a.kind = 2) (hb : b.kind = a.kind)
include hk hb

theorem ofInt_quotR71 : BitVec.ofInt 32 (quotR71 a.int b.int) = quotWord a.kind a.bits b.bits := by
  obtain h | h := hk
  · rw [int_of_signed h, int_of_signed (hb.trans h), ofInt_quotR71_signed, quotWord, h, if_pos rfl]
  · rw [int_of_unsigned h, int_of_unsigned (hb.trans h), ofInt_quotR71_unsigned, quotWord, h, if_neg (by decide : ¬2 = 1)]

theorem ofInt_remR71 : BitVec.ofInt 32 (remR71 a.int b.int) = remWord a.kind a.bits b.bits := by
  obtain h | h := hk
  · rw [int_of_signed h, int_of_signed (hb.trans h), ofInt_remR71_signed, remWord, if_pos h]
  · rw [int_of_unsigned h, int_of_unsigned (hb.trans h), ofInt_remR71_unsigned, remWord, h, if_neg (by decide)]

theorem opDiv_ok {p : Half} (hp : makeTag a.kind 0 (a.scale - b.scale) = .ok p) :
    opDiv a b = .ok ({ bits := quotWord a.kind a.bits b.bits, tag := p }, 0) := by
  rw [opDiv, intScale_ok hk hb hp, ofInt_quotR71 hk hb]

theorem opRem_ok (hs : b.scale = a.scale) :
    opRem a b = .ok ({ bits := remWord a.kind a.bits b.bits, tag := a.tag }, 0) := by
  rw [opRem, intSame_ok hk hb hs, ofInt_remR71 hk hb]

end div

/-! ### The corners (R71) -/

theorem quotWord_zero (k : Nat) (x : Word) : quotWord k x 0 = 0xFFFFFFFF := rfl

theorem remWord_zero (k : Nat) (x : Word) : remWord k x 0 = x := by
  unfold remWord
  split
  · exact BitVec.srem_zero
  · exact BitVec.umod_zero

theorem toNat_quotWord_unsigned {x y : Word} (hy : y ≠ 0) : (quotWord 2 x y).toNat = x.toNat / y.toNat := by
  rw [quotWord, if_neg hy, if_neg (by decide), BitVec.toNat_udiv]

theorem toNat_remWord_unsigned (x y : Word) : (remWord 2 x y).toNat = x.toNat % y.toNat := by
  rw [remWord, if_neg (by decide), BitVec.toNat_umod]

theorem toInt_quotWord_signed {x y : Word} (hy : y ≠ 0) (hc : ¬(x = 0x80000000 ∧ y = 0xFFFFFFFF)) :
    (quotWord 1 x y).toInt = x.toInt.tdiv y.toInt := by
  rw [quotWord, if_neg hy, if_pos rfl]
  exact BitVec.toInt_sdiv_of_ne_or_ne x y (not_and_or.1 hc)

theorem toInt_remWord_signed (x y : Word) : (remWord 1 x y).toInt = x.toInt.tmod y.toInt := by
  rw [remWord, if_pos rfl, BitVec.toInt_srem]

/-- A remainder rounded toward zero is negative only where the dividend is, and is 0 or as the dividend (R71). -/
theorem tmod_neg_iff {x y : Int} (h : x.tmod y ≠ 0) : x.tmod y < 0 ↔ x < 0 := by
  have hs := Int.sign_tmod x y
  rw [if_neg (mt Int.tmod_eq_zero_of_dvd h)] at hs
  rw [← Int.sign_neg_iff, hs, Int.sign_neg_iff]

end Sys2Proof

namespace Sys2Proof.Machine

section both

variable {s : State} {r : TRef} {t : Thread} {g : Wg} {d n : Nat} {rd : List Nat} {i : Instr} {op : Arch → LaneVal}

/-- A lane instruction of either slice gives the value of its operation. -/
theorem gives_of_laneV_both {v : RegVal} {fl : FFlags} (h : Ready s r t g rd [d])
    (hi : exec i s = laneV { reads := rd, size := n, slice := .both } d op s) (hop : op t.arch = .ok (v, fl)) :
    Gives i s r t d v fl n :=
  hi.trans (laneV_of_ok (u := { reads := rd, size := n, slice := .both }) rfl rfl rfl rfl rfl h rfl hop)

end both

/-- Settles O4: div and rem leave the quotient and the remainder of the operands' words, whose corners are those of R71. -/
theorem divisionCorners : Obligations.DivisionCorners := by
  unfold Obligations.DivisionCorners
  intro s r t g d a b h x y hk hb hs
  have hp : makeTag x.kind 0 (x.scale - y.scale) = .ok (kTag x.kind) := by rw [hs, sub_self]; exact makeTag_zero hk
  refine ⟨quotWord x.kind x.bits y.bits, remWord x.kind x.bits y.bits, gives_of_laneV_both h (exec_div ..) (opDiv_ok hk hb hp),
    gives_of_laneV_both h (exec_rem ..) (opRem_ok hk hb hs), fun hy => ?zero, fun hy h2 => ?unsigned, fun h1 hx hy => ?least,
    fun hy h1 hc => ?signed⟩
  case zero =>
    rw [hy]
    exact ⟨quotWord_zero .., remWord_zero ..⟩
  case unsigned =>
    rw [h2]
    exact ⟨toNat_quotWord_unsigned hy, toNat_remWord_unsigned ..⟩
  case least =>
    rw [h1, hx, hy]
    decide
  case signed =>
    have hy0 : y.bits.toInt ≠ 0 := fun h => hy (BitVec.toInt_inj.1 h)
    rw [h1, toInt_quotWord_signed hy hc, toInt_remWord_signed, Int.natAbs_tmod]
    refine ⟨(Int.tdiv_mul_add_tmod ..).symm, Nat.mod_lt _ (Int.natAbs_pos.2 hy0), fun hm => tmod_neg_iff fun hz => hm ?_⟩
    exact BitVec.toInt_inj.1 ((toInt_remWord_signed ..).trans hz)

end Sys2Proof.Machine
end

section
/-! PROOFS. Tag faults (R64, R82): an operation begins with a check of its operands' tags, and a lane instruction whose check fails
takes TAG. -/

namespace Sys2Proof

section checks

variable {l : List Nat} {a b : RegVal}

theorem needKinds_error (h : ¬(a.kind ∈ l ∧ b.kind = a.kind)) : needKinds l a b = .error .tag := by
  refine tagIf_error (Bool.eq_false_iff.2 fun hc => h ?_)
  simp only [Bool.and_eq_true, List.contains_iff_mem] at hc
  obtain ⟨⟨ha, -⟩, hs⟩ := hc
  exact ⟨ha, kind_of_sameKind hs⟩

theorem needKindsScale_error (h : ¬(a.kind ∈ l ∧ b.kind = a.kind ∧ b.scale = a.scale)) :
    needKindsScale l a b = .error .tag := by
  refine tagIf_error (Bool.eq_false_iff.2 fun hc => h ?_)
  simp only [Bool.and_eq_true, List.contains_iff_mem, beq_iff_eq] at hc
  obtain ⟨⟨⟨ha, -⟩, hs⟩, he⟩ := hc
  exact ⟨ha, kind_of_sameKind hs, he.symm⟩

theorem needF32_error (h : a.kind ≠ 7 ∨ b.kind ≠ 7) : needF32 a b = .error .tag := tagIf_error (by simp; omega)

theorem tagIf_kind_error {k : Nat} (h : a.kind ≠ k) : tagIf (a.kind == k) = .error .tag := tagIf_error (by simp [h])

theorem tagIf_int_error (h1 : a.kind ≠ 1) (h2 : a.kind ≠ 2) : tagIf (a.kind == 1 || a.kind == 2) = .error .tag :=
  tagIf_error (by simp [h1, h2])

theorem tagIf_packed_error (h : ¬(3 ≤ a.kind ∧ a.kind ≤ 6)) : tagIf (packedKind a.kind) = .error .tag :=
  tagIf_error (by simpa [packedKind] using h)

theorem halfFmt_error {as : List RegVal} {k : Nat} (h : ¬((k = 8 ∨ k = 9) ∧ ∀ x ∈ as, x.kind = k)) :
    halfFmt as k = .error .tag := by
  unfold halfFmt tagIf
  by_cases hall : (as.all fun x => x.kind == k) = true
  · have hk : ¬(k = 8 ∨ k = 9) := fun hk => h ⟨hk, by simpa using hall⟩
    rw [not_or] at hk
    rw [if_pos hall, if_neg hk.1, if_neg hk.2]
    rfl
  · rw [if_neg hall]
    rfl

/-- Two packed operands of which the first is of no packed kind, or the second of another one. -/
theorem packed_sameKind_false (h : ¬(3 ≤ a.kind ∧ a.kind ≤ 6 ∧ b.kind = a.kind)) :
    (packedKind a.kind && sameKind a.tag b.tag) = false := by
  refine Bool.eq_false_iff.2 fun hc => h ?_
  simp only [packedKind, Bool.and_eq_true, decide_eq_true_eq] at hc
  obtain ⟨⟨hlo, hhi⟩, hs⟩ := hc
  exact ⟨hlo, hhi, kind_of_sameKind hs⟩

end checks

end Sys2Proof

namespace Sys2Proof.Machine

section faults

variable {s : State} {r : TRef} {t : Thread} {g : Wg} {d : Nat} {rd : List Nat} {i : Instr} {α : Type}
  {check : Except Code α} {c : Code}

/-- What begins with a check that fails gives the error of the check. -/
theorem bind_of_error {β : Type} (h : check = .error c) (k : α → Except Code β) : (check >>= k) = .error c := by
  rw [h]; rfl

/-- A lane instruction of either slice whose operation begins with a check that fails takes the fault of the check. -/
theorem faulted_of_laneV_both {op : Arch → LaneVal} {k : α → LaneVal} (h : Ready s r t g rd [d]) (hc : check = .error c)
    (hi : exec i s = laneV { reads := rd, slice := .both } d op s) (hop : op t.arch = check >>= k) :
    exec i s = .next (faulted s r t c) :=
  hi.trans (laneV_of_error (u := { reads := rd, slice := .both }) rfl rfl rfl rfl rfl h rfl (hop.trans (bind_of_error hc k)))

variable (hacc : r.acc = false)
include hacc

/-- As faulted_of_laneV_both, for an instruction of an execute slice. -/
theorem faulted_of_laneV {op : Arch → LaneVal} {k : α → LaneVal} (h : Ready s r t g rd [d]) (hc : check = .error c)
    (hi : exec i s = laneV { reads := rd } d op s) (hop : op t.arch = check >>= k) : exec i s = .next (faulted s r t c) :=
  hi.trans (laneV_of_error (u := { reads := rd }) rfl rfl rfl rfl rfl h (by simp [Use.allowed, hacc])
    (hop.trans (bind_of_error hc k)))

/-- As faulted_of_laneV, for a form with a predicate destination. -/
theorem faulted_of_laneP {op : Arch → LanePred} {k : α → LanePred} (h : Ready s r t g rd []) (hc : check = .error c)
    (hi : exec i s = laneP { reads := rd } d op s) (hop : op t.arch = check >>= k) : exec i s = .next (faulted s r t c) :=
  hi.trans (laneP_of_error (u := { reads := rd }) rfl rfl rfl rfl rfl rfl h (by simp [Use.allowed, hacc])
    (hop.trans (bind_of_error hc k)))

end faults

/-- Settles O12: each operation begins with a check that its operands fail. -/
theorem tagFaults : Obligations.TagFaults := by
  unfold Obligations.TagFaults
  simp only [List.forall_mem_cons, List.not_mem_nil, false_imp_iff, implies_true, and_true]
  refine fun s r t g d a b n z => ⟨fun h => ⟨fun hk => ?ints, fun hs => ?scales, fun hacc => ⟨fun hk => ?f32, fun hk => ?half,
      fun hk => ?packed, fun hk => ?shifts⟩⟩,
    fun h => ⟨fun hk => ?signs, fun h1 h2 => ?imm, fun hacc => ⟨fun hk => ?f32One, fun h8 h9 => ?halfOne, fun hk => ?packedOne⟩⟩,
    fun hacc h hk => ?compares⟩
  case ints =>
    have hk' : ¬((t.arch.reg a).kind ∈ [1, 2] ∧ (t.arch.reg b).kind = (t.arch.reg a).kind) := by simpa using hk
    have same : needKindsScale [1, 2] (t.arch.reg a) (t.arch.reg b) = .error .tag :=
      needKindsScale_error fun ⟨hl, hb, _⟩ => hk' ⟨hl, hb⟩
    have scaled : needKinds [1, 2] (t.arch.reg a) (t.arch.reg b) = .error .tag := needKinds_error hk'
    exact ⟨faulted_of_laneV_both h same (exec_add ..) rfl, faulted_of_laneV_both h same (exec_sub ..) rfl,
      faulted_of_laneV_both h scaled (exec_mul ..) rfl, faulted_of_laneV_both h scaled (exec_mulhi ..) rfl,
      faulted_of_laneV_both h same (exec_min ..) rfl, faulted_of_laneV_both h same (exec_max ..) rfl,
      faulted_of_laneV_both h scaled (exec_div ..) rfl, faulted_of_laneV_both h same (exec_rem ..) rfl⟩
  case scales =>
    have same : needKindsScale [1, 2] (t.arch.reg a) (t.arch.reg b) = .error .tag :=
      needKindsScale_error fun ⟨_, _, he⟩ => hs he
    exact ⟨faulted_of_laneV_both h same (exec_add ..) rfl, faulted_of_laneV_both h same (exec_sub ..) rfl,
      faulted_of_laneV_both h same (exec_min ..) rfl, faulted_of_laneV_both h same (exec_max ..) rfl,
      faulted_of_laneV_both h same (exec_rem ..) rfl⟩
  case f32 =>
    have both := needF32_error hk
    exact ⟨faulted_of_laneV hacc h both (exec_fadd ..) rfl, faulted_of_laneV hacc h both (exec_fsub ..) rfl,
      faulted_of_laneV hacc h both (exec_fmul ..) rfl, faulted_of_laneV hacc h both (exec_fdiv ..) rfl,
      faulted_of_laneV hacc h both (exec_fmin ..) rfl, faulted_of_laneV hacc h both (exec_fmax ..) rfl,
      faulted_of_laneV hacc h both (exec_fcsgn ..) rfl⟩
  case half =>
    have both : halfFmt [t.arch.reg a, t.arch.reg b] (t.arch.reg a).kind = .error .tag :=
      halfFmt_error (by simpa using hk)
    exact ⟨faulted_of_laneV hacc h both (exec_hadd ..) rfl, faulted_of_laneV hacc h both (exec_hsub ..) rfl,
      faulted_of_laneV hacc h both (exec_hmul ..) rfl, faulted_of_laneV hacc h both (exec_hmin ..) rfl,
      faulted_of_laneV hacc h both (exec_hmax ..) rfl⟩
  case packed =>
    have kinds := tagIf_error (packed_sameKind_false hk)
    have same : tagIf (packedKind (t.arch.reg a).kind && sameKind (t.arch.reg a).tag (t.arch.reg b).tag &&
        (t.arch.reg a).scale == (t.arch.reg b).scale) = .error .tag := tagIf_error (by rw [packed_sameKind_false hk, Bool.false_and])
    exact ⟨faulted_of_laneV hacc h same (exec_padd ..) rfl, faulted_of_laneV hacc h same (exec_paddSat ..) rfl,
      faulted_of_laneV hacc h same (exec_psub ..) rfl, faulted_of_laneV hacc h same (exec_psubSat ..) rfl,
      faulted_of_laneV hacc h kinds (exec_pmul ..) rfl, faulted_of_laneV hacc h same (exec_pmin ..) rfl,
      faulted_of_laneV hacc h same (exec_pmax ..) rfl, faulted_of_laneV hacc h same (exec_pavg ..) rfl⟩
  case shifts =>
    have kind := tagIf_packed_error hk
    exact ⟨faulted_of_laneV hacc h kind (exec_pshl ..) rfl, faulted_of_laneV hacc h kind (exec_psar ..) rfl,
      faulted_of_laneV hacc h kind (exec_pshr ..) rfl, faulted_of_laneV hacc h kind (exec_prsar ..) rfl⟩
  case signs =>
    have kind := tagIf_kind_error hk
    exact ⟨faulted_of_laneV_both h kind (exec_abs ..) rfl, faulted_of_laneV_both h kind (exec_neg ..) rfl⟩
  case imm =>
    have kind := tagIf_int_error h1 h2
    exact ⟨faulted_of_laneV_both h kind (exec_addi ..) rfl, faulted_of_laneV_both h kind (exec_muli ..) rfl,
      faulted_of_laneV_both h kind (exec_rsari ..) rfl⟩
  case f32One =>
    have kind := tagIf_kind_error hk
    exact ⟨faulted_of_laneV hacc h kind (exec_fabs ..) rfl, faulted_of_laneV hacc h kind (exec_fneg ..) rfl,
      faulted_of_laneV hacc h kind (exec_ffloor ..) rfl, faulted_of_laneV hacc h kind (exec_fceil ..) rfl,
      faulted_of_laneV hacc h kind (exec_ftrunc ..) rfl, faulted_of_laneV hacc h kind (exec_frint ..) rfl,
      faulted_of_laneV hacc h kind (exec_exp2 ..) rfl, faulted_of_laneV hacc h kind (exec_exp ..) rfl,
      faulted_of_laneV hacc h kind (exec_log2 ..) rfl, faulted_of_laneV hacc h kind (exec_log ..) rfl,
      faulted_of_laneV hacc h kind (exec_rcp ..) rfl, faulted_of_laneV hacc h kind (exec_rsq ..) rfl,
      faulted_of_laneV hacc h kind (exec_sqrt ..) rfl, faulted_of_laneV hacc h kind (exec_sin ..) rfl,
      faulted_of_laneV hacc h kind (exec_cos ..) rfl, faulted_of_laneV hacc h kind (exec_tanh ..) rfl,
      faulted_of_laneV hacc h kind (exec_sigm ..) rfl⟩
  case halfOne =>
    have kind : halfFmt [t.arch.reg a] (t.arch.reg a).kind = .error .tag := halfFmt_error (by simp [h8, h9])
    exact ⟨faulted_of_laneV hacc h kind (exec_hneg ..) rfl, faulted_of_laneV hacc h kind (exec_habs ..) rfl⟩
  case packedOne => exact faulted_of_laneV hacc h (tagIf_packed_error hk) (exec_pabs ..) rfl
  case compares =>
    have same : needKindsScale [1, 2, 7] (t.arch.reg a) (t.arch.reg b) = .error .tag := needKindsScale_error (by simpa using hk)
    exact ⟨faulted_of_laneP hacc h same (exec_cmpEq ..) rfl, faulted_of_laneP hacc h same (exec_cmpNe ..) rfl,
      faulted_of_laneP hacc h same (exec_cmpLt ..) rfl, faulted_of_laneP hacc h same (exec_cmpLe ..) rfl,
      faulted_of_laneP hacc h same (exec_cmpGt ..) rfl, faulted_of_laneP hacc h same (exec_cmpGe ..) rfl⟩

end Sys2Proof.Machine
end

section
/-! PROOFS. Plain loads that return (R117, R141). The codewords of scratchpad are marked as those of HBM are (R331), and a load of a
marked word finds it so. -/

namespace Sys2Proof.Machine

/-- A plain load of the first scratchpad word of core 0 into v3, on its way for thread 0 of workgroup 0. -/
def scratchLoad : PLoad :=
  { id := 0, who := { wg := 0, tid := 0 }, seq := 0, core := 0, loc := .key (kScratch 0 0), len := 4, kind := .plain,
    dests := dest1 3 tagN32 4 false, fwd := [], value := none, addr := 0, remote := none }

/-- The running thread whose load that is. -/
def scratchReader : Thread := { fetchThread false .running with loads := 1, busy := [3] }

/-- A state with that thread and that load, in which the word is marked uncorrectable. -/
def markedScratch : State :=
  { State.reset with threads := [(0, scratchReader)], wgs := [(0, fetchWg)], loads := [scratchLoad],
                     poisoned := [kScratch 0 0], nextId := 1 }

/-- The load finds the mark of its word. -/
theorem markedScratch_loadBytes : (markedScratch.loadBytes scratchLoad).2 = true := by decide

/-- Refutes O33 at its first clause, that a load of scratchpad reads the bytes of memory and finds them clean
(s.loadBytes l = (s.mem.readN k l.len, false)): nothing there excludes a marked word, and the load of markedScratch reads one. -/
theorem not_loadsReturn : ¬ Obligations.LoadsReturn := by
  unfold Obligations.LoadsReturn
  intro h
  obtain ⟨hscratch, -⟩ := h markedScratch 0 scratchLoad scratchReader (kScratch 0 0) (by decide) rfl rfl (by decide)
    rfl rfl rfl rfl (by decide) (by decide)
  have hclean : (markedScratch.loadBytes scratchLoad).2 = false := congrArg Prod.snd (hscratch rfl rfl (by decide))
  exact Bool.false_ne_true (hclean.symm.trans markedScratch_loadBytes)

end Sys2Proof.Machine
end

section
/-! PROOFS. Lane instructions (R80 to R82): their two shapes, what one can do to the state, and what passes under a false guard (R123). -/

namespace Sys2Proof.Machine

variable {s : State} {r : TRef} {t : Thread} {g : Wg} {u : Use} {body : TRef → Thread → Wg → State → State}

/-! ### What a lane instruction can do (R80) -/

/-- The outcome x of an instruction of thread r, whose record was t, is a change of that thread alone, a stall or a fault. -/
def ActsAlone (s : State) (r : TRef) (t : Thread) (x : Result) : Prop :=
  (∃ u, x = .next (s.setThread r u)) ∨ x = .next (s.stallRun r t) ∨ ∃ f k, x = .next (s.takeFault r f k)

theorem actsAlone_setThread (u : Thread) : ActsAlone s r t (.next (s.setThread r u)) := .inl ⟨u, rfl⟩
theorem actsAlone_stallRun : ActsAlone s r t (.next (s.stallRun r t)) := .inr (.inl rfl)
theorem actsAlone_takeFault (f : FaultInfo) (k : Nat) : ActsAlone s r t (.next (s.takeFault r f k)) := .inr (.inr ⟨f, k, rfl⟩)

section alone

variable (hcur : s.cur = some r) (ht : s.thread r = some t) (hg : s.wg r.wg = some g)

include ht in
theorem actsAlone_modThread (f : Thread → Thread) : ActsAlone s r t (.next (s.modThread r f)) := by
  rw [State.modThread_of_some ht]
  exact actsAlone_setThread _

include ht in
/-- A change of the thread, past the instruction, is a change of the thread alone. -/
theorem actsAlone_modThread_pass (f : Thread → Thread) (n : Nat) : ActsAlone s r t (.next ((s.modThread r f).pass r n)) := by
  rw [State.modThread_of_some ht, State.pass, State.modThread_setThread]
  exact actsAlone_setThread _

theorem actsAlone_act (hbody : ActsAlone s r t (.next (body r t g s))) : ActsAlone s r t (.next (s.act u body r t g)) := by
  unfold State.act
  split
  · exact actsAlone_stallRun
  · split
    · exact actsAlone_takeFault ..
    · exact hbody

include hcur ht hg

/-- Whatever the checks before it find, an instruction whose meaning acts alone does so. -/
theorem actsAlone_lane (hbody : ActsAlone s r t (.next (body r t g s))) : ActsAlone s r t (s.lane u body) := by
  simp only [State.lane, hcur, ht, hg]
  split
  · exact actsAlone_takeFault ..
  split
  · exact actsAlone_takeFault ..
  split
  · exact actsAlone_modThread ht _
  split
  · split
    · exact actsAlone_takeFault ..
    split
    · exact actsAlone_modThread ht _
    · exact actsAlone_act hbody
  · exact actsAlone_act hbody

theorem actsAlone_laneArch (f : Thread → Wg → Except Code Arch) : ActsAlone s r t (s.laneArch u f) := by
  refine actsAlone_lane hcur ht hg ?_
  split
  · exact actsAlone_modThread_pass ht _ _
  · exact actsAlone_takeFault ..

theorem actsAlone_movIx (rd : Bool) (f : Arch → Nat → Arch) : ActsAlone s r t (movIx u rd f s) := by
  refine actsAlone_lane hcur ht hg ?_
  dsimp only
  split
  · exact actsAlone_takeFault ..
  split
  · exact actsAlone_stallRun
  split
  · exact actsAlone_takeFault ..
  · exact actsAlone_modThread_pass ht _ _

theorem actsAlone_laneV (d : Nat) (f : Arch → LaneVal) : ActsAlone s r t (laneV u d f s) := actsAlone_laneArch hcur ht hg _
theorem actsAlone_laneX (d : Nat) (f : Arch → LanePair) : ActsAlone s r t (laneX u d f s) := actsAlone_laneArch hcur ht hg _
theorem actsAlone_laneP (d : Nat) (f : Arch → LanePred) : ActsAlone s r t (laneP u d f s) := actsAlone_laneArch hcur ht hg _
theorem actsAlone_lanePP (d : Nat) (f : Arch → Bool) : ActsAlone s r t (lanePP d f s) := actsAlone_laneArch hcur ht hg _

/-- A lane instruction has one of the shapes above. The atomics' MAJ depends on their scope (R29), and lies beyond those of R84. -/
theorem actsAlone_exec {i : Instr} (hi : i.isLane = true) : ActsAlone s r t (exec i s) := by
  cases i
  case mov16 | add16 | sub16 | mul16 | and16 | or16 | xor16 | shl16 | shr16 | sar16 | min16 | max16 | fadd16 | fsub16
    | fmul16 | fmax16 | add | sub | mul | mulhi | and | or | xor | shl | shr | sar | min | max | mov | div | rem | andn
    | not | clz | popc | brev | abs | neg | bfx | bfi | gettag | settag | addi | andi | ori | xori | muli | shli | shri
    | sari | rsari | lui | sel | ptov | fadd | fsub | fmul | fdiv | fmin | fmax | fabs | fneg | fcsgn | ffloor | fceil
    | ftrunc | frint | ffma | ffms | fnma | fnms | hadd | hsub | hmul | hfma | hmin | hmax | hneg | habs | padd | paddSat
    | psub | psubSat | pmul | pmin | pmax | pabs | pavg | pshl | psar | pshr | prsar | dmac | dmacSat | fdmac | exp2 | log2
    | rcp | rsq | sqrt | sin | cos | tanh | exp | log | sigm | cvt | retag | scadd | pklo | pkhi | pkbl | xtlo | xthi | xtb
    | getix => dsimp; exact actsAlone_laneV hcur ht hg _ _
  case adr | adrS | add64 | sub64 | and64 | or64 | xor64 | shl64 | shr64 | sar64 | mov64 | xaddi =>
    dsimp; exact actsAlone_laneX hcur ht hg _ _
  case cmpEq | cmpNe | cmpLt | cmpLe | cmpGt | cmpGe | cmpUnord | ptest | cmp64Eq | cmp64Ne | cmp64Lt | cmp64Ltn | cmpiEq
    | cmpiNe | cmpiLt | cmpiLe | cmpiGt | cmpiGe | vtop => dsimp; exact actsAlone_laneP hcur ht hg _ _
  case pand | por | pxor | pandn | pnot => dsimp; exact actsAlone_lanePP hcur ht hg _ _
  case setix | addix => dsimp; exact actsAlone_laneArch hcur ht hg _
  case vmovfrom | vmovto => dsimp; exact actsAlone_movIx hcur ht hg _ _
  case atomAdd sc _ _ _ | atomAddb sc _ _ _ | atomMin sc _ _ _ | atomMax sc _ _ _ | atomMinn sc _ _ _ | atomMaxn sc _ _ _
    | atomAnd sc _ _ _ | atomOr sc _ _ _ | atomXor sc _ _ _ | atomSwap sc _ _ _ | atomCas sc _ _ _ | atomMaxsi sc _ _ _
    | atomFadd sc _ _ _ | atomAdd64 sc _ _ _ | atomSwap64 sc _ _ _ | atomCas64 sc _ _ _ =>
    cases sc <;> exact (Bool.false_ne_true hi).elim
  all_goals exact (Bool.false_ne_true hi).elim

end alone

/-- Settles O13: whatever a lane instruction's operation, its shape lets it act on its own thread alone. -/
theorem laneInstructionsActAlone : Obligations.LaneInstructionsActAlone := by
  unfold Obligations.LaneInstructionsActAlone
  intro i s r t g hi hcur ht hg
  exact actsAlone_exec hcur ht hg hi

/-! ### False guards (R123) -/

/-- What a thread is past an instruction that its guard passes over: the run that a committing instruction closes, and a skip of the
meeting that a cross-lane one stands for. -/
def Thread.passedOver (t : Thread) (r : TRef) (u : Use) : Thread :=
  let run := if u.commits then { t.run with cmark := some t.run.count } else t.run
  let skips := match u.meets with
    | some b => if (t.arch.reg b).bits.getLsbD (r.tid % 32) then t.arch.skips ++ [t.arch.pc] else t.arch.skips
    | none => t.arch.skips
  ({ t with run := run, arch := { t.arch with skips := skips } } : Thread).pass u.size

theorem State.passGuarded_eq (ht : s.thread r = some t) : s.passGuarded r u = s.setThread r (t.passedOver r u) := by
  rw [State.passGuarded, State.modThread_of_some ht, Thread.passedOver]
  congr 1
  cases u.meets with
  | none => cases u.commits <;> rfl
  | some b =>
    by_cases hb : (t.arch.reg b).bits.getLsbD (r.tid % 32) = true
    · cases u.commits <;> simp only [hb, Bool.false_eq_true, if_false, if_true]
    · cases u.commits <;> simp only [hb, Bool.false_eq_true, if_false, if_true]

section guarded

variable {gs : GuardState} (hcur : s.cur = some r) (ht : s.thread r = some t) (hg : s.wg r.wg = some g)
  (hmark : t.run.cmark = none) (hguard : t.run.guard = some gs) (hloop : t.skipping = false) (henc : u.encFault r t g = none)
include hcur ht hg hmark hguard henc

theorem State.lane_of_guard_ends (he : u.ends = true) :
    s.lane u body = .next (s.takeFault r (plainFault .runform) gs.at') := by
  simp only [State.lane, hcur, ht, hg, hmark, ite_self, henc, hguard, he, Bool.not_true, Bool.and_false, Bool.true_or, if_true,
    Bool.false_eq_true, if_false]

include hloop in
theorem State.lane_of_guard_false (hc : gs.cond = false) (he : u.ends = false) (hgu : u.guards = false) :
    s.lane u body = .next (s.setThread r (t.passedOver r u)) := by
  simp only [State.lane, hcur, ht, hg, hmark, ite_self, henc, hguard, hloop, he, hgu, hc, Bool.not_false, Bool.and_true, Bool.or_self,
    if_true, Bool.false_eq_true, if_false, State.passGuarded_eq ht]

end guarded

/-- Settles O16: what a false guard passes over changes no register, predicate or flag, and its range is one instruction shorter. -/
theorem falseGuard : Obligations.FalseGuard := by
  unfold Obligations.FalseGuard
  intro s r t g u body gs hcur ht hg hmark hguard hloop hslice hpriv hbound
  have henc : u.encFault r t g = none := Use.encFault_none hslice hpriv hbound
  refine ⟨fun hc he hgu => ⟨_, _, State.lane_of_guard_false hcur ht hg hmark hguard hloop henc hc he hgu, rfl, rfl, rfl, rfl, rfl, ?_⟩,
    State.lane_of_guard_ends hcur ht hg hmark hguard henc⟩
  have hrun : (t.passedOver r u).run.commit = t.run.commit ∧ (t.passedOver r u).run.buf = t.run.buf ∧
      (t.passedOver r u).run.guard = if gs.left ≤ 1 then none else some { gs with left := gs.left - 1 } := by
    cases hco : u.commits <;> simp [Thread.passedOver, Thread.pass, hco, hguard]
  obtain ⟨hcommit, hbuf, hleft⟩ := hrun
  exact ⟨hcommit, hbuf, fun h => hleft.trans (if_pos h), fun h => hleft.trans (if_neg (by omega))⟩

end Sys2Proof.Machine
end

section
/-! PROOFS. Integer arithmetic, bit operations, bit fields and pairs (R85 to R91): what each operation of LaneOps leaves as a word, and
what a lane instruction with that operation does. -/

namespace Sys2Proof

/-! ### Shifts of words of any width -/

section shifts

variable {w : Nat}

theorem shiftLeft_eq_ofNat (x : BitVec w) (n : Nat) : x <<< n = BitVec.ofNat w (x.toNat * 2 ^ n) :=
  BitVec.eq_of_toNat_eq (by rw [BitVec.toNat_shiftLeft, BitVec.toNat_ofNat, Nat.shiftLeft_eq])

theorem ushiftRight_eq_ofNat (x : BitVec w) (n : Nat) : x >>> n = BitVec.ofNat w (x.toNat / 2 ^ n) := by
  rw [← Nat.shiftRight_eq_div_pow, ← BitVec.toNat_ushiftRight, BitVec.ofNat_toNat, BitVec.setWidth_eq]

theorem sshiftRight_eq_ofInt (x : BitVec w) (n : Nat) : x.sshiftRight n = BitVec.ofInt w (x.toInt / 2 ^ n) := by
  rw [BitVec.sshiftRight_eq, Int.shiftRight_eq_div_pow, Nat.cast_pow, Nat.cast_ofNat]

/-- A count of the width or more shifts every bit out to the left (R85). -/
theorem shiftLeft_eq_ite (x : BitVec w) (n : Nat) :
    x <<< n = if w ≤ n then 0 else BitVec.ofNat w (x.toNat * 2 ^ n) := by
  split
  · exact BitVec.shiftLeft_eq_zero ‹_›
  · exact shiftLeft_eq_ofNat x n

/-- A count of the width or more shifts every bit out to the right (R85). -/
theorem ushiftRight_eq_ite (x : BitVec w) (n : Nat) :
    x >>> n = if w ≤ n then 0 else BitVec.ofNat w (x.toNat / 2 ^ n) := by
  split
  · exact BitVec.ushiftRight_eq_zero ‹_›
  · exact ushiftRight_eq_ofNat x n

end shifts

/-! ### Integers of one kind (R85, R87, R88) -/

/-- A word read under its kind has the bits of the word. -/
@[simp] theorem ofInt_int (a : RegVal) : BitVec.ofInt 32 a.int = a.bits := by
  unfold RegVal.int
  split
  · exact BitVec.ofInt_toInt
  · rw [BitVec.ofInt_natCast, BitVec.ofNat_toNat, BitVec.setWidth_eq]

theorem ofInt_sub {w : Nat} (x y : Int) : BitVec.ofInt w (x - y) = BitVec.ofInt w x - BitVec.ofInt w y := by
  rw [Int.sub_eq_add_neg, BitVec.ofInt_add, BitVec.ofInt_neg, BitVec.sub_eq_add_neg]

theorem ofInt_min_int (a b : RegVal) : BitVec.ofInt 32 (min a.int b.int) = if a.int ≤ b.int then a.bits else b.bits := by
  rw [min_def]
  split <;> exact ofInt_int _

theorem ofInt_max_int (a b : RegVal) : BitVec.ofInt 32 (max a.int b.int) = if a.int ≤ b.int then b.bits else a.bits := by
  rw [max_def]
  split <;> exact ofInt_int _

section integers

variable {a b : RegVal} (hk : a.kind = 1 ∨ a.kind = 2) (hb : b.kind = a.kind)
include hk

theorem tagIf_int : tagIf (a.kind == 1 || a.kind == 2) = .ok () := by obtain h | h := hk <;> rw [h] <;> rfl

theorem opAddi_ok (z : Int) : opAddi z a = .ok ({ bits := a.bits + BitVec.ofInt 32 z, tag := a.tag }, 0) := by
  simp only [opAddi, tagIf_int hk, BitVec.ofInt_add, ofInt_int]; rfl

theorem opMuli_ok (z : Int) : opMuli z a = .ok ({ bits := a.bits * BitVec.ofInt 32 z, tag := a.tag }, 0) := by
  simp only [opMuli, tagIf_int hk, BitVec.ofInt_mul, ofInt_int]; rfl

theorem opRsari_ok {rm : Rm} {n : Nat} {p : Half} (hp : makeTag a.kind 0 (a.scale + n) = .ok p) :
    opRsari rm n a = .ok ({ bits := BitVec.ofInt 32 (roundShift rm a.int n).1, tag := p },
      if (roundShift rm a.int n).2 then fNX else 0) := by
  simp only [opRsari, tagIf_int hk, hp]; rfl

include hb

theorem opMul_ok {p : Half} (hp : makeTag a.kind 0 (a.scale + b.scale) = .ok p) :
    opMul a b = .ok ({ bits := a.bits * b.bits, tag := p }, 0) := by
  rw [opMul, intScale_ok hk hb hp, BitVec.ofInt_mul, ofInt_int, ofInt_int]

variable (hs : b.scale = a.scale)
include hs

theorem opAdd_ok : opAdd a b = .ok ({ bits := a.bits + b.bits, tag := a.tag }, 0) := by
  rw [opAdd, intSame_ok hk hb hs, BitVec.ofInt_add, ofInt_int, ofInt_int]

theorem opSub_ok : opSub a b = .ok ({ bits := a.bits - b.bits, tag := a.tag }, 0) := by
  rw [opSub, intSame_ok hk hb hs, ofInt_sub, ofInt_int, ofInt_int]

theorem opMin_ok : opMin a b = .ok ({ bits := if a.int ≤ b.int then a.bits else b.bits, tag := a.tag }, 0) := by
  rw [opMin, intSame_ok hk hb hs, ofInt_min_int]

theorem opMax_ok : opMax a b = .ok ({ bits := if a.int ≤ b.int then b.bits else a.bits, tag := a.tag }, 0) := by
  rw [opMax, intSame_ok hk hb hs, ofInt_max_int]

end integers

theorem opShli_ok (n : Nat) (a : RegVal) : opShli n a = vOk (BitVec.ofNat 32 (a.bits.toNat * 2 ^ n)) a.tag := by
  rw [opShli, shlW, shiftLeft_eq_ofNat]

theorem opShri_ok (n : Nat) (a : RegVal) : opShri n a = vOk (BitVec.ofNat 32 (a.bits.toNat / 2 ^ n)) a.tag := by
  rw [opShri, shrW, ushiftRight_eq_ofNat]

theorem opSari_ok (n : Nat) (a : RegVal) : opSari n a = vOk (BitVec.ofInt 32 (a.bits.toInt / 2 ^ n)) a.tag := by
  rw [opSari, sarW, sshiftRight_eq_ofInt]

/-! ### Operations on bits (R85, R86) -/

theorem opShl_ok (a b : RegVal) : opShl a b =
    vOk (if 32 ≤ b.bits.toNat % 256 then 0 else BitVec.ofNat 32 (a.bits.toNat * 2 ^ (b.bits.toNat % 256))) a.tag := by
  rw [opShl, shiftOp, shlW, shiftLeft_eq_ite, shiftCount]

theorem opShr_ok (a b : RegVal) : opShr a b =
    vOk (if 32 ≤ b.bits.toNat % 256 then 0 else BitVec.ofNat 32 (a.bits.toNat / 2 ^ (b.bits.toNat % 256))) a.tag := by
  rw [opShr, shiftOp, shrW, ushiftRight_eq_ite, shiftCount]

theorem opSar_ok (a b : RegVal) : opSar a b = vOk (BitVec.ofInt 32 (a.bits.toInt / 2 ^ (b.bits.toNat % 256))) a.tag := by
  rw [opSar, shiftOp, sarW, sshiftRight_eq_ofInt, shiftCount]

theorem bitLen_le {n k : Nat} (h : n < 2 ^ k) : bitLen n ≤ k := by
  unfold bitLen
  split
  · exact Nat.zero_le k
  · exact (Nat.log2_lt ‹_›).2 h

theorem clzW_le (w : Word) : clzW w ≤ 32 := Nat.sub_le ..

/-- The bits that clz counts are 0 (R86). -/
theorem getLsbD_of_clzW {w : Word} {i : Nat} (h : 32 ≤ clzW w + i) : w.getLsbD i = false := by
  have hlen : bitLen w.toNat ≤ i := by
    have := bitLen_le w.isLt
    unfold clzW at h
    omega
  unfold bitLen at hlen
  refine Nat.testBit_lt_two_pow ?_
  split at hlen
  · next hz => rw [hz]; exact Nat.two_pow_pos i
  · next hz => exact (Nat.log2_lt hz).1 hlen

/-- The bit below those that clz counts is 1 (R86). -/
theorem getLsbD_clzW {w : Word} (h : clzW w < 32) : w.getLsbD (31 - clzW w) = true := by
  have hlen := bitLen_le w.isLt
  have hw : w.toNat ≠ 0 := fun hz => by rw [clzW, hz] at h; exact absurd h (by decide)
  unfold clzW bitLen at *
  rw [if_neg hw] at *
  have hbit : 31 - (32 - (w.toNat.log2 + 1)) = w.toNat.log2 := by omega
  rw [hbit]
  exact Nat.testBit_log2 hw

theorem getLsbD_reverse_word (w : Word) {i : Nat} (h : i < 32) : w.reverse.getLsbD i = w.getLsbD (31 - i) := by
  rw [BitVec.getLsbD_reverse, BitVec.getMsbD_eq_getLsbD, decide_eq_true h, Bool.true_and]

section signed

variable {a : RegVal} (hk : a.kind = 1)
include hk

theorem opNeg_ok : opNeg a = .ok ({ bits := -a.bits, tag := a.tag }, 0) := by
  simp only [opNeg, tagIf, hk, beq_self_eq_true, if_true, BitVec.ofInt_neg, ofInt_int]; rfl

theorem opAbs_ok : opAbs a = .ok ({ bits := if a.bits.getLsbD 31 then -a.bits else a.bits, tag := a.tag }, 0) := by
  have habs : BitVec.ofInt 32 (a.int.natAbs : Int) = if a.bits.getLsbD 31 then -a.bits else a.bits := by
    have hneg : a.bits.getLsbD 31 = decide (a.int < 0) := by
      rw [int_of_signed hk, ← BitVec.msb_eq_toInt, BitVec.msb_eq_getLsbD_last]
    rw [hneg]
    by_cases h : a.int < 0
    · rw [if_pos (decide_eq_true h), Int.ofNat_natAbs_of_nonpos h.le, BitVec.ofInt_neg, ofInt_int]
    · rw [if_neg (by simpa using h), Int.natAbs_of_nonneg (not_lt.1 h), ofInt_int]
  simp only [opAbs, tagIf, hk, beq_self_eq_true, if_true, habs]; rfl

end signed

theorem opSettag_ok {a b : RegVal} (h : validTag (b.bits.toNat % 65536) = true) :
    opSettag a b = .ok ({ bits := a.bits, tag := b.bits.setWidth 16 }, 0) := by
  have hn : (b.bits.setWidth 16).toNat = b.bits.toNat % 65536 := BitVec.toNat_setWidth ..
  simp only [opSettag, tagIf, hn, h, if_true]; rfl

theorem settag_check {b : RegVal} (h : validTag (b.bits.toNat % 65536) = false) :
    tagIf (validTag (b.bits.setWidth 16).toNat) = .error .tag :=
  tagIf_error ((congrArg validTag (BitVec.toNat_setWidth ..)).trans h)

section ready

open Machine

/-- What may use registers may use fewer. -/
theorem Ready.mono {s : State} {r : TRef} {t : Thread} {g : Wg} {rd rd' wr : List Nat} (h : Ready s r t g rd wr) (hr : rd' ⊆ rd) :
    Ready s r t g rd' wr where
  cur := h.cur
  thread := h.thread
  wg := h.wg
  noCommit := h.noCommit
  noLoop := h.noLoop
  guard := h.guard
  bound x hx := h.bound x (List.mem_append.2 ((List.mem_append.1 hx).imp_left (@hr x)))
  free x hx := h.free x (List.mem_append.2 ((List.mem_append.1 hx).imp_left (@hr x)))
  clean x hx := h.clean x (hr hx)

end ready

end Sys2Proof

namespace Sys2Proof.Machine

section gives

variable {s : State} {r : TRef} {t : Thread} {g : Wg} {d : Nat} {rd : List Nat} {i : Instr}

/-- A lane instruction of either slice gives the pair of its operation. -/
theorem givesPair_of_laneX {op : Arch → LanePair} {lo hi : RegVal} (h : Ready s r t g rd [d, d + 1])
    (hi' : exec i s = laneX { reads := rd, slice := .both } d op s) (hop : op t.arch = .ok (lo, hi)) :
    GivesPair i s r t d lo hi :=
  hi'.trans (laneX_of_ok (u := { reads := rd, slice := .both }) rfl rfl rfl rfl rfl h rfl hop)

end gives

/-- Settles O1: on integers of one kind each operation is that of the words, and the immediate forms are the same operations. -/
theorem integerArithmetic : Obligations.IntegerArithmetic := by
  unfold Obligations.IntegerArithmetic
  refine ⟨fun s r t g d a b h hk hb => ⟨fun hs => ⟨?_, ?_, ?_, ?_, ?_, ?_, ?_, ?_, ?_⟩, fun p hp => ⟨?_, ?_⟩, fun p hp => ?_,
    fun p hp => ?_⟩, fun s r t g d a n imm z h => ⟨fun hk => ⟨?_, ?_⟩, ?_, ?_, ?_, fun _ => ⟨?_, ?_, ?_, fun hk p hp => ?_⟩, ?_⟩⟩
  · exact gives_of_laneV_both h (exec_add ..) (opAdd_ok hk hb hs)
  · rintro rfl; exact gives_of_laneV_both h (exec_add16 ..) (opAdd_ok hk hb hs)
  · exact gives_of_laneV_both h (exec_sub ..) (opSub_ok hk hb hs)
  · rintro rfl; exact gives_of_laneV_both h (exec_sub16 ..) (opSub_ok hk hb hs)
  · exact gives_of_laneV_both h (exec_min ..) (opMin_ok hk hb hs)
  · rintro rfl; exact gives_of_laneV_both h (exec_min16 ..) (opMin_ok hk hb hs)
  · exact gives_of_laneV_both h (exec_max ..) (opMax_ok hk hb hs)
  · rintro rfl; exact gives_of_laneV_both h (exec_max16 ..) (opMax_ok hk hb hs)
  · exact gives_of_laneV_both h (exec_rem ..) (opRem_ok hk hb hs)
  · exact gives_of_laneV_both h (exec_mul ..) (opMul_ok hk hb hp)
  · rintro rfl; exact gives_of_laneV_both h (exec_mul16 ..) (opMul_ok hk hb hp)
  · exact gives_of_laneV_both h (exec_mulhi ..) (intScale_ok hk hb hp)
  · exact gives_of_laneV_both h (exec_div ..) (opDiv_ok hk hb hp)
  · exact gives_of_laneV_both h (exec_addi ..) (opAddi_ok hk z)
  · exact gives_of_laneV_both h (exec_muli ..) (opMuli_ok hk z)
  · exact gives_of_laneV_both h (exec_andi ..) rfl
  · exact gives_of_laneV_both h (exec_ori ..) rfl
  · exact gives_of_laneV_both h (exec_xori ..) rfl
  · exact gives_of_laneV_both h (exec_shli ..) (opShli_ok ..)
  · exact gives_of_laneV_both h (exec_shri ..) (opShri_ok ..)
  · exact gives_of_laneV_both h (exec_sari ..) (opSari_ok ..)
  · exact gives_of_laneV_both h (exec_rsari ..) (opRsari_ok hk hp)
  · exact gives_of_laneV_both (h.mono (List.nil_subset _)) (exec_lui ..) rfl

/-- Settles O2: no bit operation looks at a kind, and the forms with one operand are functions of its word. -/
theorem bitAndOneOperandOperations : Obligations.BitAndOneOperandOperations := by
  unfold Obligations.BitAndOneOperandOperations
  refine ⟨fun s r t g d a b h => ⟨⟨?_, ?_⟩, ⟨?_, ?_⟩, ⟨?_, ?_⟩, ?_, ⟨?_, ?_⟩, ⟨?_, ?_⟩, ⟨?_, ?_⟩, ?_, ?_⟩,
    fun s r t g d a b => ⟨fun h => ⟨?_, ⟨clzW _, clzW_le _, fun _ => getLsbD_of_clzW, getLsbD_clzW, ?_⟩, ?_,
      ⟨_, fun _ => getLsbD_reverse_word _, ?_⟩, fun hk => ⟨?_, ?_⟩, ?_⟩, fun h => ⟨fun hv => ?_, fun hv => ?_⟩⟩⟩
  · exact gives_of_laneV_both h (exec_and ..) rfl
  · rintro rfl; exact gives_of_laneV_both h (exec_and16 ..) rfl
  · exact gives_of_laneV_both h (exec_or ..) rfl
  · rintro rfl; exact gives_of_laneV_both h (exec_or16 ..) rfl
  · exact gives_of_laneV_both h (exec_xor ..) rfl
  · rintro rfl; exact gives_of_laneV_both h (exec_xor16 ..) rfl
  · exact gives_of_laneV_both h (exec_andn ..) rfl
  · exact gives_of_laneV_both h (exec_shl ..) (opShl_ok ..)
  · rintro rfl; exact gives_of_laneV_both h (exec_shl16 ..) (opShl_ok ..)
  · exact gives_of_laneV_both h (exec_shr ..) (opShr_ok ..)
  · rintro rfl; exact gives_of_laneV_both h (exec_shr16 ..) (opShr_ok ..)
  · exact gives_of_laneV_both h (exec_sar ..) (opSar_ok ..)
  · rintro rfl; exact gives_of_laneV_both h (exec_sar16 ..) (opSar_ok ..)
  · rintro rfl; exact gives_of_laneV_both (h.mono (List.subset_cons_self ..)) (exec_mov ..) rfl
  · rintro rfl; exact gives_of_laneV_both (h.mono (List.subset_cons_self ..)) (exec_mov16 ..) rfl
  · exact gives_of_laneV_both h (exec_not ..) rfl
  · exact gives_of_laneV_both h (exec_clz ..) rfl
  · exact gives_of_laneV_both h (exec_popc ..) rfl
  · exact gives_of_laneV_both h (exec_brev ..) rfl
  · exact gives_of_laneV_both h (exec_abs ..) (opAbs_ok hk)
  · exact gives_of_laneV_both h (exec_neg ..) (opNeg_ok hk)
  · exact gives_of_laneV_both h (exec_gettag ..) rfl
  · exact gives_of_laneV_both h (exec_settag ..) (opSettag_ok hv)
  · exact faulted_of_laneV_both h (settag_check hv) (exec_settag ..) rfl

end Sys2Proof.Machine

namespace Sys2Proof

/-! ### Bit fields (R86) -/

/-- The length of a control word's field, cut at bit 31, and its last bit. -/
theorem ctlField_bounds (c : Word) :
    (ctlField c).1 = c.toNat % 32 ∧ 1 ≤ (ctlField c).2 ∧ (ctlField c).1 + (ctlField c).2 ≤ 32 ∧
      (ctlField c).1 + (ctlField c).2 - 1 = min (c.toNat % 32 + c.toNat / 32 % 32 + 1) 32 - 1 := by
  simp only [ctlField, true_and]
  omega

/-- A number of len bits read in two's complement has its own bits, and copies of its top bit above them. -/
theorem getLsbD_ofInt_signed {len f i : Nat} (h1 : 1 ≤ len) (hlen : len ≤ 32) (hf : f < 2 ^ len) (hi : i < 32) :
    (BitVec.ofInt 32 (if 2 ^ (len - 1) ≤ f then (f : Int) - 2 ^ len else f) : Word).getLsbD i =
      if i < len then f.testBit i else f.testBit (len - 1) := by
  by_cases h : 2 ^ (len - 1) ≤ f
  · have htop : f.testBit (len - 1) = true :=
      Nat.testBit_of_two_pow_le_and_two_pow_add_one_gt h (by rwa [Nat.sub_add_cancel h1])
    have hpow : (2 : Int) ^ len * 2 ^ (32 - len) = 2 ^ 32 := by rw [← pow_add, Nat.add_sub_cancel' hlen]
    have hcast : ((2 ^ len * (2 ^ (32 - len) - 1) + f : Nat) : Int) = (f : Int) - 2 ^ len + 2 ^ 32 := by
      rw [← hpow]
      push_cast [Nat.one_le_two_pow]
      ring
    have hword : (BitVec.ofInt 32 ((f : Int) - 2 ^ len) : Word) = BitVec.ofNat 32 (2 ^ len * (2 ^ (32 - len) - 1) + f) := by
      rw [← BitVec.ofInt_natCast, hcast, BitVec.ofInt_add]
      exact (BitVec.add_zero _).symm
    rw [if_pos h, hword, BitVec.getLsbD_ofNat, decide_eq_true hi, Bool.true_and, Nat.testBit_two_pow_mul_add _ hf,
      Nat.testBit_two_pow_sub_one, htop]
    split
    · rfl
    · exact decide_eq_true (by omega)
  · have htop : f.testBit (len - 1) = false := Nat.testBit_lt_two_pow (not_le.1 h)
    rw [if_neg h, BitVec.ofInt_natCast, BitVec.getLsbD_ofNat, decide_eq_true hi, Bool.true_and, htop]
    split
    · rfl
    · exact Nat.testBit_lt_two_pow (hf.trans_le (Nat.pow_le_pow_right (by omega) (by omega)))

/-- The field of a word that a control word names, as a number. -/
def fieldNat (x c : Word) : Nat := x.toNat / 2 ^ (ctlField c).1 % 2 ^ (ctlField c).2

theorem fieldNat_lt (x c : Word) : fieldNat x c < 2 ^ (ctlField c).2 := Nat.mod_lt _ (Nat.two_pow_pos _)

theorem testBit_fieldNat (x c : Word) (i : Nat) :
    (fieldNat x c).testBit i = (decide (i < (ctlField c).2) && x.getLsbD ((ctlField c).1 + i)) := by
  rw [fieldNat, Nat.testBit_mod_two_pow, Nat.testBit_div_two_pow, Nat.add_comm]
  rfl

/-- What bfx leaves of a word under a control word. -/
def bfxWord (x c : Word) : Word :=
  if c.getLsbD 10 then
    BitVec.ofInt 32 (if 2 ^ ((ctlField c).2 - 1) ≤ fieldNat x c then (fieldNat x c : Int) - 2 ^ (ctlField c).2 else fieldNat x c)
  else BitVec.ofNat 32 (fieldNat x c)

theorem opBfx_ok (a b : RegVal) : opBfx a b =
    .ok ({ bits := bfxWord a.bits b.bits, tag := if b.bits.getLsbD 10 then tagI32 else tagN32 }, 0) := by
  simp only [opBfx, bfxWord, fieldNat]
  split <;> rfl

theorem getLsbD_bfxWord (x c : Word) {i : Nat} (hi : i < 32) : (bfxWord x c).getLsbD i =
    if c.toNat % 32 + i ≤ min (c.toNat % 32 + c.toNat / 32 % 32 + 1) 32 - 1 then x.getLsbD (c.toNat % 32 + i)
    else c.getLsbD 10 && x.getLsbD (min (c.toNat % 32 + c.toNat / 32 % 32 + 1) 32 - 1) := by
  obtain ⟨hpos, h1, hlen, hlast⟩ := ctlField_bounds c
  rw [← hlast, ← hpos]
  have hin : (ctlField c).1 + i ≤ (ctlField c).1 + (ctlField c).2 - 1 ↔ i < (ctlField c).2 := by omega
  simp only [hin]
  unfold bfxWord
  split
  · next hs =>
    rw [getLsbD_ofInt_signed h1 (by omega) (fieldNat_lt x c) hi, testBit_fieldNat, testBit_fieldNat,
      decide_eq_true (Nat.sub_lt h1 Nat.one_pos), Bool.true_and, ← Nat.add_sub_assoc h1, hs, Bool.true_and]
    split
    · next h => rw [decide_eq_true h, Bool.true_and]
    · rfl
  · next hs =>
    rw [BitVec.getLsbD_ofNat, decide_eq_true hi, Bool.true_and, testBit_fieldNat, Bool.eq_false_iff.2 hs, Bool.false_and]
    split
    · next h => rw [decide_eq_true h, Bool.true_and]
    · next h => rw [decide_eq_false h, Bool.false_and]

/-- The bits of a word that a control word's field takes up. -/
def fieldMask (c : Word) : Word := BitVec.ofNat 32 ((2 ^ (ctlField c).2 - 1) * 2 ^ (ctlField c).1)

/-- What bfi leaves of two words under a control word. -/
def bfiWord (x y c : Word) : Word := (x &&& ~~~fieldMask c) ||| ((y <<< (ctlField c).1) &&& fieldMask c)

theorem opBfi_ok (a b c : RegVal) : opBfi a b c = .ok ({ bits := bfiWord a.bits b.bits c.bits, tag := a.tag }, 0) := rfl

theorem getLsbD_bfiWord (x y c : Word) {i : Nat} (hi : i < 32) : (bfiWord x y c).getLsbD i =
    if c.toNat % 32 ≤ i ∧ i ≤ min (c.toNat % 32 + c.toNat / 32 % 32 + 1) 32 - 1 then y.getLsbD (i - c.toNat % 32)
    else x.getLsbD i := by
  obtain ⟨hpos, h1, hlen, hlast⟩ := ctlField_bounds c
  rw [← hlast, ← hpos]
  have hmask : (fieldMask c).getLsbD i = decide ((ctlField c).1 ≤ i ∧ i ≤ (ctlField c).1 + (ctlField c).2 - 1) := by
    rw [fieldMask, BitVec.getLsbD_ofNat, Nat.testBit_mul_two_pow, Nat.testBit_two_pow_sub_one, decide_eq_true hi, Bool.true_and,
      ← Bool.decide_and, decide_eq_decide]
    omega
  rw [bfiWord, BitVec.getLsbD_or, BitVec.getLsbD_and, BitVec.getLsbD_and, BitVec.getLsbD_not, BitVec.getLsbD_shiftLeft, hmask,
    decide_eq_true hi]
  split
  · next h => simp [h.1, h.2]
  · next h => simp [h]

/-! ### Pairs (R90, R91) -/

theorem opAdr_ok (sh : Nat) (x : DWord) (b : RegVal) :
    opAdr false sh x b = .ok (split64 (x + BitVec.ofNat 64 (b.bits.toNat * 2 ^ sh))) := by
  have hindex : (b.bits.setWidth 64).toNat = b.bits.toNat := BitVec.toNat_setWidth_of_le (by decide)
  simp only [opAdr, Bool.false_eq_true, if_false, shiftLeft_eq_ofNat, hindex]

theorem opAdrS_ok (sh : Nat) (x : DWord) (b : RegVal) :
    opAdr true sh x b = .ok (split64 (x + BitVec.ofInt 64 (b.bits.toInt * 2 ^ sh))) := by
  have hshift : b.bits.signExtend 64 <<< sh = BitVec.ofInt 64 (b.bits.toInt * 2 ^ sh) := by
    rw [shiftLeft_eq_ofNat, BitVec.ofNat_mul, BitVec.ofInt_mul, ← BitVec.ofInt_natCast 64 (2 ^ sh), Nat.cast_pow, BitVec.ofNat_toNat,
      BitVec.setWidth_eq]
    rfl
  simp only [opAdr, if_true, hshift]

theorem opShl64_ok (x : DWord) (b : RegVal) : opShl64 x b = .ok (split64
    (if 64 ≤ b.bits.toNat % 256 then 0 else BitVec.ofNat 64 (x.toNat * 2 ^ (b.bits.toNat % 256)))) := by
  rw [opShl64, shiftLeft_eq_ite, shiftCount]

theorem opShr64_ok (x : DWord) (b : RegVal) : opShr64 x b = .ok (split64
    (if 64 ≤ b.bits.toNat % 256 then 0 else BitVec.ofNat 64 (x.toNat / 2 ^ (b.bits.toNat % 256)))) := by
  rw [opShr64, ushiftRight_eq_ite, shiftCount]

theorem opSar64_ok (x : DWord) (b : RegVal) :
    opSar64 x b = .ok (split64 (BitVec.ofInt 64 (x.toInt / 2 ^ (b.bits.toNat % 256)))) := by
  rw [opSar64, sshiftRight_eq_ofInt, shiftCount]

end Sys2Proof

namespace Sys2Proof.Machine

/-- Settles O3: fields bit by bit, and each pair form as its operation on 64 bits. -/
theorem bitFieldsAndPairs : Obligations.BitFieldsAndPairs := by
  unfold Obligations.BitFieldsAndPairs
  refine ⟨fun s r t g d a b => ⟨fun h => ⟨_, fun _ => getLsbD_bfxWord _ _, ?_⟩, fun h => ⟨_, fun _ => getLsbD_bfiWord _ _ _, ?_⟩⟩,
    fun s r t g d a b sh z => ⟨fun h => ⟨?_, ?_, ?_, ?_, ?_⟩, fun h => ⟨?_, ?_, ?_, ?_, ?_⟩, fun h => ⟨?_, ?_⟩⟩⟩
  · exact gives_of_laneV_both h (exec_bfx ..) (opBfx_ok ..)
  · exact gives_of_laneV_both h (exec_bfi ..) (opBfi_ok ..)
  · exact givesPair_of_laneX h (exec_adr ..) (opAdr_ok ..)
  · exact givesPair_of_laneX h (exec_adrS ..) (opAdrS_ok ..)
  · exact givesPair_of_laneX h (exec_shl64 ..) (opShl64_ok ..)
  · exact givesPair_of_laneX h (exec_shr64 ..) (opShr64_ok ..)
  · exact givesPair_of_laneX h (exec_sar64 ..) (opSar64_ok ..)
  · exact givesPair_of_laneX h (exec_add64 ..) rfl
  · exact givesPair_of_laneX h (exec_sub64 ..) rfl
  · exact givesPair_of_laneX h (exec_and64 ..) rfl
  · exact givesPair_of_laneX h (exec_or64 ..) rfl
  · exact givesPair_of_laneX h (exec_xor64 ..) rfl
  · exact givesPair_of_laneX h (exec_mov64 ..) rfl
  · exact givesPair_of_laneX h (exec_xaddi ..) rfl

end Sys2Proof.Machine
end

section
/-! PROOFS. Compares, select and the predicate operations (R92 to R94): what each relation is on integers, on f32 and on pairs, and what
a write to a predicate leaves. -/

namespace Sys2Proof

/-! ### Relations (R92) -/

section relations

variable (x y : Int)

theorem Rel.ofCmp_eq : Rel.eq.ofCmp (cmpInt x y) = decide (x = y) := decide_eq_decide.2 (by unfold cmpInt; omega)
theorem Rel.ofCmp_ne : Rel.ne.ofCmp (cmpInt x y) = decide (x ≠ y) := decide_eq_decide.2 (by unfold cmpInt; omega)
theorem Rel.ofCmp_lt : Rel.lt.ofCmp (cmpInt x y) = decide (x < y) := decide_eq_decide.2 (by unfold cmpInt; omega)
theorem Rel.ofCmp_le : Rel.le.ofCmp (cmpInt x y) = decide (x ≤ y) := decide_eq_decide.2 (by unfold cmpInt; omega)
theorem Rel.ofCmp_gt : Rel.gt.ofCmp (cmpInt x y) = decide (y < x) := decide_eq_decide.2 (by unfold cmpInt; omega)
theorem Rel.ofCmp_ge : Rel.ge.ofCmp (cmpInt x y) = decide (y ≤ x) := decide_eq_decide.2 (by unfold cmpInt; omega)

end relations

section compare

variable {a b : RegVal}

/-- Words of one kind are equal where the integers are that they stand for. -/
theorem int_eq_iff (hb : b.kind = a.kind) : a.int = b.int ↔ a.bits = b.bits := by
  unfold RegVal.int
  rw [hb]
  split
  · exact BitVec.toInt_inj
  · exact Int.ofNat_inj.trans BitVec.toNat_inj

theorem opCmp_int (hk : a.kind = 1 ∨ a.kind = 2) (hb : b.kind = a.kind) (hs : b.scale = a.scale) (r : Rel) :
    opCmp r a b = .ok (r.ofCmp (cmpInt a.int b.int), 0) := by
  have hneed : needKindsScale [1, 2, 7] a b = .ok () :=
    needKindsScale_ok (by simp; omega) hb (kindB8_int hk) hs
  simp only [opCmp, hneed]
  exact if_neg (by omega)

theorem opCmpi_int (hk : a.kind = 1 ∨ a.kind = 2) (z : Int) (r : Rel) : opCmpi r z a = .ok (r.ofCmp (cmpInt a.int
    (if a.kind = 1 then (BitVec.ofInt 32 z).toInt else ((BitVec.ofInt 32 z).toNat : Int))), 0) := by
  have htag : tagIf (a.kind == 1 || a.kind == 2) = .ok () := by obtain h | h := hk <;> rw [h] <;> rfl
  simp only [opCmpi, htag]
  rfl

section f32

variable (ha : a.kind = 7) (hb : b.kind = 7)
include ha hb

theorem opCmp_f32 (hs : b.scale = a.scale) (r : Rel) : opCmp r a b = .ok (relF32 r (f32Val a) (f32Val b)) := by
  have hneed : needKindsScale [1, 2, 7] a b = .ok () :=
    needKindsScale_ok (by simp [ha]) (hb.trans ha.symm) (by rw [ha]; rfl) hs
  simp only [opCmp, hneed]
  exact if_pos ha

theorem opCmpUnord_ok : opCmpUnord a b = .ok ((f32Val a).isNan || (f32Val b).isNan, 0) := by
  simp only [opCmpUnord, ha, hb]; rfl

end f32

/-- A NaN makes ne alone true, and an ordering sets NV (R92). -/
theorem relF32_of_nan {x y : Num} (h : (x.isNan || y.isNan) = true) (r : Rel) :
    relF32 r x y = (decide (r = .ne), if r = .eq ∨ r = .ne then 0 else fNV) := by
  rw [relF32, if_pos h]
  cases r <;> rfl

theorem relF32_of_numbers {x y : Num} (h : (x.isNan || y.isNan) = false) (r : Rel) : relF32 r x y = (r.ofCmp (cmpNum x y), 0) :=
  if_neg (Bool.eq_false_iff.1 h)

theorem cmpUnord_check (h : ¬(a.kind = 7 ∧ b.kind = 7)) : tagIf (a.kind == 7 && b.kind == 7) = .error .tag :=
  tagIf_error (Bool.eq_false_iff.2 fun hc => h (by simpa using hc))

end compare

theorem bne_eq_decide {w : Nat} (x y : BitVec w) : (x != y) = decide (x ≠ y) :=
  Bool.eq_iff_iff.2 (by rw [bne_iff_ne, decide_eq_true_iff])

end Sys2Proof

namespace Sys2Proof.Machine

/-- Raising no flag changes nothing. -/
theorem Arch.raise_noFlags (a : Arch) : a.raise 0 = a := Arch.raise_zero a

section gives

variable {s : State} {r : TRef} {t : Thread} {g : Wg} {d : Nat} {rd : List Nat} {i : Instr}

/-- A lane instruction of an execute slice with a predicate destination gives what its operation finds. -/
theorem givesPred_of_laneP {op : Arch → LanePred} {b : Bool} {fl : FFlags} (h : Ready s r t g rd []) (hacc : r.acc = false)
    (hi : exec i s = laneP { reads := rd } d op s) (hop : op t.arch = .ok (b, fl)) : GivesPred i s r t d b fl :=
  hi.trans (laneP_of_ok (u := { reads := rd }) rfl rfl rfl rfl rfl rfl h (by simp [Use.allowed, hacc]) hop)

/-- An operation on predicates alone gives what it finds (R94). -/
theorem givesPred_of_lanePP {op : Arch → Bool} {b : Bool} (h : Ready s r t g [] []) (hacc : r.acc = false)
    (hi : exec i s = lanePP d op s) (hop : op t.arch = b) : GivesPred i s r t d b 0 := by
  rw [GivesPred, hi, lanePP_of_ready h hacc, hop, Arch.raise_noFlags]

end gives

/-- Settles O5: a compare is its relation on what its operands stand for, or TAG where they do not compare. -/
theorem compares : Obligations.Compares := by
  unfold Obligations.Compares
  simp only [List.forall_mem_cons, List.zipIdx_cons, List.zipIdx_nil, List.not_mem_nil, false_imp_iff, implies_true, and_true]
  refine ⟨fun s r t g d a b hacc => ⟨fun c => t.arch.setPred_seven c, ⟨rfl, rfl, rfl, rfl, rfl, rfl⟩, rfl, rfl, rfl, rfl, rfl, rfl,
      fun h => ⟨fun hk => ?tags, fun hk => ?unordTag, fun hk hb hs => ?ints, fun ha hb hs => ⟨fun hnan => ?nans, fun hnum => ?floats⟩,
        fun ha hb => ?unord, ?ptest⟩, fun h => ?pairs⟩,
    fun s r t g d a z hacc h => ⟨?codes, ?range, fun hk => ?imm, fun h1 h2 => ?immTag⟩⟩
  case tags =>
    have same : needKindsScale [1, 2, 7] (t.arch.reg a) (t.arch.reg b) = .error .tag := needKindsScale_error (by simpa using hk)
    exact ⟨faulted_of_laneP hacc h same (exec_cmpEq ..) rfl, faulted_of_laneP hacc h same (exec_cmpNe ..) rfl,
      faulted_of_laneP hacc h same (exec_cmpLt ..) rfl, faulted_of_laneP hacc h same (exec_cmpLe ..) rfl,
      faulted_of_laneP hacc h same (exec_cmpGt ..) rfl, faulted_of_laneP hacc h same (exec_cmpGe ..) rfl⟩
  case unordTag => exact faulted_of_laneP hacc h (cmpUnord_check hk) (exec_cmpUnord ..) rfl
  case ints =>
    have hop := opCmp_int hk hb hs
    have hne : decide ((t.arch.reg a).bits ≠ (t.arch.reg b).bits) = decide ((t.arch.reg a).int ≠ (t.arch.reg b).int) :=
      decide_eq_decide.2 (int_eq_iff hb).not.symm
    rw [hne, decide_eq_decide.2 (int_eq_iff hb).symm]
    exact ⟨givesPred_of_laneP h hacc (exec_cmpEq ..) ((hop _).trans (by rw [Rel.ofCmp_eq])),
      givesPred_of_laneP h hacc (exec_cmpNe ..) ((hop _).trans (by rw [Rel.ofCmp_ne])),
      givesPred_of_laneP h hacc (exec_cmpLt ..) ((hop _).trans (by rw [Rel.ofCmp_lt])),
      givesPred_of_laneP h hacc (exec_cmpLe ..) ((hop _).trans (by rw [Rel.ofCmp_le])),
      givesPred_of_laneP h hacc (exec_cmpGt ..) ((hop _).trans (by rw [Rel.ofCmp_gt])),
      givesPred_of_laneP h hacc (exec_cmpGe ..) ((hop _).trans (by rw [Rel.ofCmp_ge]))⟩
  case nans =>
    have hop := fun r => (opCmp_f32 ha hb hs r).trans (congrArg Except.ok (relF32_of_nan hnan r))
    exact ⟨givesPred_of_laneP h hacc (exec_cmpEq ..) (hop _), givesPred_of_laneP h hacc (exec_cmpNe ..) (hop _),
      givesPred_of_laneP h hacc (exec_cmpLt ..) (hop _), givesPred_of_laneP h hacc (exec_cmpLe ..) (hop _),
      givesPred_of_laneP h hacc (exec_cmpGt ..) (hop _), givesPred_of_laneP h hacc (exec_cmpGe ..) (hop _)⟩
  case floats =>
    have hop := fun r => (opCmp_f32 ha hb hs r).trans (congrArg Except.ok (relF32_of_numbers hnum r))
    exact ⟨givesPred_of_laneP h hacc (exec_cmpEq ..) (hop _), givesPred_of_laneP h hacc (exec_cmpNe ..) (hop _),
      givesPred_of_laneP h hacc (exec_cmpLt ..) (hop _), givesPred_of_laneP h hacc (exec_cmpLe ..) (hop _),
      givesPred_of_laneP h hacc (exec_cmpGt ..) (hop _), givesPred_of_laneP h hacc (exec_cmpGe ..) (hop _)⟩
  case unord => exact givesPred_of_laneP h hacc (exec_cmpUnord ..) (opCmpUnord_ok ha hb)
  case ptest =>
    rw [← bne_eq_decide]
    exact givesPred_of_laneP h hacc (exec_ptest ..) rfl
  case pairs =>
    rw [← bne_eq_decide]
    exact ⟨givesPred_of_laneP h hacc (exec_cmp64Eq ..) rfl, givesPred_of_laneP h hacc (exec_cmp64Ne ..) rfl,
      givesPred_of_laneP h hacc (exec_cmp64Lt ..) rfl, givesPred_of_laneP h hacc (exec_cmp64Ltn ..) rfl⟩
  case codes =>
    have hz : usx z 8 = (z % 256).toNat := rfl
    rw [← hz]
    exact ⟨congrArg (fun k => some (13, d, a, usx z 8 % 128, k)) (by omega), rfl, rfl, rfl, rfl, rfl⟩
  case range =>
    have hrange : ∀ i : Instr, i.wellFormed = (decide (d < 8) && decide (a < 128) && decide (-128 ≤ z) && decide (z < 128)) →
        i.wellFormed = true → -128 ≤ z ∧ z ≤ 127 := fun i hi hwf => by
      obtain ⟨-, -, hlo, hhi⟩ := and_of_all₄ (hi ▸ hwf)
      exact ⟨hlo, by omega⟩
    exact ⟨hrange _ rfl, hrange _ rfl, hrange _ rfl, hrange _ rfl, hrange _ rfl, hrange _ rfl⟩
  case imm =>
    have hop := opCmpi_int hk z
    exact ⟨givesPred_of_laneP h hacc (exec_cmpiEq ..) ((hop _).trans (by rw [Rel.ofCmp_eq])),
      givesPred_of_laneP h hacc (exec_cmpiNe ..) ((hop _).trans (by rw [Rel.ofCmp_ne])),
      givesPred_of_laneP h hacc (exec_cmpiLt ..) ((hop _).trans (by rw [Rel.ofCmp_lt])),
      givesPred_of_laneP h hacc (exec_cmpiLe ..) ((hop _).trans (by rw [Rel.ofCmp_le])),
      givesPred_of_laneP h hacc (exec_cmpiGt ..) ((hop _).trans (by rw [Rel.ofCmp_gt])),
      givesPred_of_laneP h hacc (exec_cmpiGe ..) ((hop _).trans (by rw [Rel.ofCmp_ge]))⟩
  case immTag =>
    have kind := tagIf_int_error h1 h2
    exact ⟨faulted_of_laneP hacc h kind (exec_cmpiEq ..) rfl, faulted_of_laneP hacc h kind (exec_cmpiNe ..) rfl,
      faulted_of_laneP hacc h kind (exec_cmpiLt ..) rfl, faulted_of_laneP hacc h kind (exec_cmpiLe ..) rfl,
      faulted_of_laneP hacc h kind (exec_cmpiGt ..) rfl, faulted_of_laneP hacc h kind (exec_cmpiGe ..) rfl⟩

/-! ### Predicates (R32, R94, R110) -/

theorem Arch.pred_setPred_self (q : Arch) {p : Nat} (b : Bool) (h : p < 7) : (q.setPred p b).pred p = b := by
  have hp : ¬p = 7 := by omega
  interval_cases p <;> cases b <;> simp [Arch.setPred, Arch.pred]

theorem Arch.pred_setPred_of_ne (q : Arch) {p k : Nat} (b : Bool) (h : k ≠ p) : (q.setPred p b).pred k = q.pred k := by
  unfold Arch.setPred
  split
  · have hmask : ((1 : BitVec 7) <<< p).getLsbD k = false := by simp [BitVec.getLsbD_shiftLeft]; omega
    have hset : (if b then (1 : BitVec 7) <<< p else 0).getLsbD k = false := by
      cases b
      · exact BitVec.getLsbD_zero
      · exact hmask
    unfold Arch.pred
    split
    · rfl
    · by_cases hk : k < 7
      · rw [BitVec.getLsbD_or, BitVec.getLsbD_and, BitVec.getLsbD_not, hmask, hset, decide_eq_true hk, Bool.or_false]
        exact Bool.and_true _
      · rw [BitVec.getLsbD_of_ge _ _ (not_lt.1 hk), BitVec.getLsbD_of_ge _ _ (not_lt.1 hk)]
  · rfl

theorem Arch.setPred_frame (q : Arch) (p : Nat) (b : Bool) :
    (q.setPred p b).regs = q.regs ∧ (q.setPred p b).fflags = q.fflags ∧ (q.setPred p b).pc = q.pc := by
  unfold Arch.setPred
  split <;> exact ⟨rfl, rfl, rfl⟩

/-- Settles O6: each form of the group is its operation on registers or predicates, and a predicate written is that one alone. -/
theorem selectAndPredicates : Obligations.SelectAndPredicates := by
  unfold Obligations.SelectAndPredicates
  refine ⟨fun s r t g d n a b hacc => ⟨fun _ => rfl, rfl, rfl, rfl, rfl, rfl, rfl, rfl, fun h => ⟨?_, ?_⟩,
      fun h => ⟨?_, ?_, ?_, ?_, ?_⟩, fun h => ?_, fun h => ?_⟩, fun q p k b => ⟨q.pred_seven, q.setPred_seven b, q.pred_setPred_self b,
      q.pred_setPred_of_ne b, q.setPred_frame p b⟩⟩
  · exact gives_of_laneV h hacc (exec_sel ..) rfl
  · exact gives_of_laneV h hacc (exec_sel ..) (by rw [Arch.pred_seven, if_pos rfl])
  · exact givesPred_of_lanePP h hacc (exec_pand ..) rfl
  · exact givesPred_of_lanePP h hacc (exec_por ..) rfl
  · exact givesPred_of_lanePP h hacc (exec_pxor ..) rfl
  · exact givesPred_of_lanePP h hacc (exec_pandn ..) rfl
  · exact givesPred_of_lanePP h hacc (exec_pnot ..) rfl
  · exact gives_of_laneV h hacc (exec_ptov ..) rfl
  · rw [← bne_eq_decide]
    exact givesPred_of_laneP h hacc (exec_vtop ..) rfl

end Sys2Proof.Machine
end

section
/-! PROOFS. Moves through ix (R105) and the special registers (R134). -/

namespace Sys2Proof.Machine

/-! ### Moves through ix (R105) -/

section movIx

variable {s : State} {r : TRef} {t : Thread} {g : Wg} {u : Use} {rd : Bool} {f : Arch → Nat → Arch}
  (h : Ready s r t g u.reads u.writes) (hacc : r.acc = false) (hu : u = { reads := u.reads, writes := u.writes })
include h hacc hu

/-- Such a move reaches its own checks. -/
theorem State.lane_of_move {body : TRef → Thread → Wg → State → State} : s.lane u body = .next (body r t g s) :=
  State.lane_of_ready h (by rw [hu]; simp [Use.allowed, hacc]) (by rw [hu]; simp) (by rw [hu]; simp) (by rw [hu]) (by rw [hu])
    (by rw [hu]; rfl)

theorem movIx_of_ge (hi : g.allot ≤ t.arch.ix.toNat) : movIx u rd f s = .next (faulted s r t .regbound) := by
  have hix : ixOk t g = false := decide_eq_false (not_lt.2 hi)
  rw [movIx, State.lane_of_move h hacc hu]
  simp only [hix, Bool.not_false, if_true, faulted]

variable (hi : t.arch.ix.toNat < g.allot)
include hi

theorem movIx_of_busy (hb : t.arch.ix.toNat ∈ t.busy) : movIx u rd f s = .next (s.stallRun r t) := by
  have hix : ixOk t g = true := decide_eq_true hi
  rw [movIx, State.lane_of_move h hacc hu]
  simp only [hix, List.contains_iff_mem.2 hb, Bool.not_true, Bool.false_eq_true, if_false, if_true]

variable (hb : t.arch.ix.toNat ∉ t.busy)
include hb

theorem movIx_of_poisoned {e : FaultInfo} (hp : (t.arch.regs.get t.arch.ix.toNat).poison = some e) :
    movIx u true f s = .next (s.takeFault r e t.run.count) := by
  have hix : ixOk t g = true := decide_eq_true hi
  have hpoison : t.arch.poisonOf [t.arch.ix.toNat] = some e := by simp [Arch.poisonOf, hp]
  rw [movIx, State.lane_of_move h hacc hu]
  simp only [hix, Bool.eq_false_iff.2 (mt List.contains_iff_mem.1 hb), Bool.not_true, Bool.false_eq_true, if_false, if_true, hpoison]

theorem movIx_of_free (hp : rd = true → (t.arch.regs.get t.arch.ix.toNat).poison = none) :
    movIx u rd f s = .next (passed s r t (f t.arch t.arch.ix.toNat) 4) := by
  have hix : ixOk t g = true := decide_eq_true hi
  have hpoison : (if rd then t.arch.poisonOf [t.arch.ix.toNat] else none) = none := by
    cases rd
    · rfl
    · exact Arch.poisonOf_none (by simpa using hp rfl)
  rw [movIx, State.lane_of_move h hacc hu]
  simp only [hix, Bool.eq_false_iff.2 (mt List.contains_iff_mem.1 hb), Bool.not_true, Bool.false_eq_true, if_false, hpoison, State.modArch, State.modThread_of_some h.thread,
    State.pass_eq (State.thread_setThread ..), State.setThread_setThread]
  rw [hu]
  rfl

end movIx

/-- A lane instruction of an execute slice that writes no register leaves the register state that it finds. -/
theorem exec_of_laneArch {s : State} {r : TRef} {t : Thread} {g : Wg} {i : Instr} {rd : List Nat} {f : Thread → Wg → Except Code Arch}
    {a : Arch} (h : Ready s r t g rd []) (hacc : r.acc = false) (hi : exec i s = s.laneArch { reads := rd } f) (hf : f t g = .ok a) :
    exec i s = .next (passed s r t a 4) :=
  hi.trans (State.laneArch_of_ok (u := { reads := rd }) h (by simp [Use.allowed, hacc]) rfl rfl rfl rfl rfl hf)

/-! ### Special registers (R134) -/

section sread

variable {s : State} {r : TRef} {t : Thread} {g : Wg} {d n : Nat}

theorem sread_narrow (h : Ready s r t g [] [d]) (hn : sregWide n = false) {v : Nat} (hv : s.special r t g n = BitVec.ofNat 32 v) :
    Gives (.sread d n) s r t d (regNat v) 0 4 := by
  have hwrites : (if sregWide n = true then [d, d + 1] else [d]) = [d] := by rw [hn]; rfl
  rw [Gives, exec_sread, execSread, hwrites,
    State.lane_of_ready (u := { writes := [d], slice := .both }) h rfl (by simp) (by simp) rfl rfl rfl]
  simp only [hn, hv, Bool.false_eq_true, if_false, State.modArch, State.modThread_of_some h.thread,
    State.pass_eq (State.thread_setThread ..), State.setThread_setThread]
  rw [Arch.raise_noFlags]
  rfl

theorem sread_wide (h : Ready s r t g [] [d, d + 1]) (hn : sregWide n = true) {v : DWord} (hv : s.special64 g n = v) :
    GivesPair (.sread d n) s r t d { bits := v.setWidth 32, tag := tagLo64 }
      { bits := (v >>> 32).setWidth 32, tag := tagHi64 } := by
  have hwrites : (if sregWide n = true then [d, d + 1] else [d]) = [d, d + 1] := if_pos hn
  rw [GivesPair, exec_sread, execSread, hwrites,
    State.lane_of_ready (u := { writes := [d, d + 1], slice := .both }) h rfl (by simp) (by simp) rfl rfl rfl]
  simp only [hn, hv, if_true, State.modArch, State.modThread_of_some h.thread,
    State.pass_eq (State.thread_setThread ..), State.setThread_setThread]
  rfl

/-- The record whose flags and mode a thread reads: its own, or its execute thread's (R193). -/
def SpecialSource (s : State) (r : TRef) (t e : Thread) : Prop :=
  (r.acc = false ∧ e = t) ∨ (r.acc = true ∧ s.thread { r with acc := false } = some e)

theorem special_flags {e : Thread} (he : SpecialSource s r t e) :
    s.special r t g 0x0D = BitVec.ofNat 32 (e.arch.fflags ||| t.arch.fflags).toNat := by
  rw [BitVec.ofNat_toNat]
  obtain ⟨hacc, rfl⟩ | ⟨hacc, he⟩ := he
  · simp [State.special, hacc, flagsWord]
  · simp [State.special, hacc, he, flagsWord]

theorem special_mode {e : Thread} (he : SpecialSource s r t e) : s.special r t g 0x0E = BitVec.ofNat 32 (rmCode e.arch.rm) := by
  obtain ⟨hacc, rfl⟩ | ⟨hacc, he⟩ := he
  · simp [State.special, hacc]
  · simp [State.special, hacc, he]

theorem special64_arg {k : Nat} (hk : k ≤ 0x1F) : s.special64 g k = g.args.getD (k - 0x10) 0 := if_neg (by omega)

end sread

/-- Settles O11: the checks of a move through ix in their order, and each special register as the state holds it. -/
theorem indirectMovesAndSpecialRegisters : Obligations.IndirectMovesAndSpecialRegisters := by
  unfold Obligations.IndirectMovesAndSpecialRegisters
  refine ⟨fun s r t g d hacc => ⟨rfl, rfl, rfl, rfl, rfl, fun h => ⟨fun hi hb hp => ?_, fun hi => ?_, fun hi hb => ?_, fun f hi hb hp => ?_, ?_⟩,
      fun h => ⟨fun hi hb => ?_, fun hi => ?_, fun hi hb => ?_, ?_, ?_⟩⟩,
    fun s r t g d => ⟨fun h => ?narrow, fun h => ⟨sread_wide h rfl (if_pos rfl), fun n h1 h2 => ?argument⟩⟩⟩
  · exact (exec_vmovfrom ..).trans (movIx_of_free h hacc rfl hi hb fun _ => hp)
  · exact (exec_vmovfrom ..).trans (movIx_of_ge h hacc rfl hi)
  · exact (exec_vmovfrom ..).trans (movIx_of_busy h hacc rfl hi hb)
  · exact (exec_vmovfrom ..).trans (movIx_of_poisoned h hacc rfl hi hb hp)
  · exact (gives_of_laneV h hacc (exec_getix ..) rfl).trans (by rw [Arch.raise_noFlags])
  · exact (exec_vmovto ..).trans (movIx_of_free h hacc rfl hi hb nofun)
  · exact (exec_vmovto ..).trans (movIx_of_ge h hacc rfl hi)
  · exact (exec_vmovto ..).trans (movIx_of_busy h hacc rfl hi hb)
  · exact exec_of_laneArch h hacc (exec_setix ..) rfl
  · exact exec_of_laneArch h hacc (exec_addix ..) rfl
  case narrow =>
    exact ⟨sread_narrow h rfl rfl, sread_narrow h rfl rfl, sread_narrow h rfl rfl, sread_narrow h rfl rfl, sread_narrow h rfl rfl,
      sread_narrow h rfl rfl, sread_narrow h rfl rfl, sread_narrow h rfl rfl, sread_narrow h rfl rfl, sread_narrow h rfl rfl,
      sread_narrow h rfl rfl, sread_narrow h rfl rfl, sread_narrow h rfl rfl,
      fun e he => ⟨sread_narrow h rfl (special_flags he), sread_narrow h rfl (special_mode he)⟩⟩
  case argument =>
    have hn : sregWide n = true := by simp [sregWide]; omega
    exact sread_wide h hn (special64_arg h2)

end Sys2Proof.Machine
end

section
/-! PROOFS. Packed integers and dot products (R98, R99): the elements of a word that is packed from element codes, and what each packed
operation leaves in every element. -/

namespace Sys2Proof

/-! ### Elements of packed words (R58) -/

/-- The number whose digits of w bits are the codes given, the lowest first. -/
def packNat (w : Nat) (l : List Nat) : Nat := l.foldr (fun c acc => acc * 2 ^ w + c % 2 ^ w) 0

theorem packNat_cons (w c : Nat) (l : List Nat) : packNat w (c :: l) = packNat w l * 2 ^ w + c % 2 ^ w := rfl

theorem packNat_lt (w : Nat) (l : List Nat) : packNat w l < 2 ^ (w * l.length) := by
  induction l with
  | nil => exact Nat.two_pow_pos _
  | cons c l ih =>
    have hc : c % 2 ^ w < 2 ^ w := Nat.mod_lt _ (Nat.two_pow_pos w)
    have hpow : 2 ^ (w * (c :: l).length) = 2 ^ (w * l.length) * 2 ^ w := by rw [← pow_add, List.length_cons, Nat.mul_succ]
    rw [packNat_cons, hpow]
    calc packNat w l * 2 ^ w + c % 2 ^ w < (packNat w l + 1) * 2 ^ w := by rw [Nat.succ_mul]; omega
      _ ≤ 2 ^ (w * l.length) * 2 ^ w := Nat.mul_le_mul_right _ ih

/-- Each digit is the code that it was packed from. -/
theorem packNat_digit (w : Nat) {l : List Nat} {i c : Nat} (h : l[i]? = some c) :
    packNat w l / 2 ^ (w * i) % 2 ^ w = c % 2 ^ w := by
  induction l generalizing i with
  | nil => simp at h
  | cons c' l ih =>
    cases i with
    | zero =>
      obtain rfl : c' = c := by simpa using h
      rw [packNat_cons, Nat.mul_zero, pow_zero, Nat.div_one, Nat.mul_add_mod_self_right, Nat.mod_mod]
    | succ i =>
      have hdiv : packNat w (c' :: l) / 2 ^ w = packNat w l := by
        rw [packNat_cons, Nat.mul_comm, Nat.mul_add_div (Nat.two_pow_pos w),
          Nat.div_eq_of_lt (Nat.mod_lt _ (Nat.two_pow_pos w)), Nat.add_zero]
      rw [Nat.mul_succ, Nat.add_comm, pow_add, ← Nat.div_div_eq_div_mul, hdiv]
      exact ih (by simpa using h)

theorem nElem_dvd (k : Nat) : 32 / nElem k * nElem k = 32 := by
  unfold nElem
  split
  · rfl
  · split <;> rfl

theorem nElem_pos (k : Nat) : 0 < nElem k := by
  unfold nElem
  split
  · decide
  · split <;> decide

/-- The elements of a packed word are the codes that it was packed from. -/
theorem elemBits_packElems {n i c : Nat} {l : List Nat} (hn : 32 / n * n = 32) (hl : l.length = n) (h : l[i]? = some c) :
    elemBits (packElems n l) n i = c % 2 ^ (32 / n) := by
  have hword : (packElems n l).toNat = packNat (32 / n) l := by
    refine (BitVec.toNat_ofNat ..).trans (Nat.mod_eq_of_lt ?_)
    have hlt := packNat_lt (32 / n) l
    rwa [hl, hn] at hlt
  rw [elemBits, hword, packNat_digit _ h]

theorem elemBits_lt (x : Word) (n i : Nat) : elemBits x n i < 2 ^ (32 / n) := Nat.mod_lt _ (Nat.two_pow_pos _)

/-! ### The result of a packed operation (R98) -/

/-- The word of a packed result. -/
def packedWord (k : Nat) (g : Nat → Int × FFlags) : Word := packElems (nElem k) (((elemIdx k).map g).map fun x => elemCode k x.1)

/-- The flags of a packed result: those of all elements. -/
def packedFlags (k : Nat) (g : Nat → Int × FFlags) : FFlags := ((elemIdx k).map g).foldr (fun x acc => x.2 ||| acc) 0

theorem packedRes_ok (k : Nat) (t : Half) (g : Nat → Int × FFlags) :
    packedRes k t g = .ok ({ bits := packedWord k g, tag := t }, packedFlags k g) := rfl

theorem elemBits_packedWord {k i : Nat} (g : Nat → Int × FFlags) (hi : i < nElem k) :
    elemBits (packedWord k g) (nElem k) i = ((g i).1 % 2 ^ (32 / nElem k)).toNat := by
  have hcode : elemCode k (g i).1 < 2 ^ (32 / nElem k) := by
    have hpos : (0 : Int) < 2 ^ (32 / nElem k) := by positivity
    have hlt := Int.emod_lt_of_pos (g i).1 hpos
    have hnn := Int.emod_nonneg (g i).1 hpos.ne'
    rw [elemCode, Int.toNat_lt hnn]
    exact_mod_cast hlt
  rw [packedWord, elemBits_packElems (c := elemCode k (g i).1) (nElem_dvd k) (by simp [elemIdx]) (by simp [elemIdx, hi]),
    Nat.mod_eq_of_lt hcode]
  rfl

/-- A flag that some elements raise. -/
theorem packedFlags_of_flag {k : Nat} {g : Nat → Int × FFlags} {p : Nat → Prop} [DecidablePred p] {f : FFlags}
    (h : ∀ i, (g i).2 = if p i then f else 0) : packedFlags k g = if ∃ i ∈ List.range (nElem k), p i then f else 0 := by
  unfold packedFlags elemIdx
  induction List.range (nElem k) with
  | nil => rfl
  | cons i l ih =>
    rw [List.map_cons, List.foldr_cons, ih, h i]
    by_cases hi : p i <;> by_cases hl : ∃ j ∈ l, p j <;> simp [hi, hl]

theorem packedFlags_none {k : Nat} {g : Nat → Int × FFlags} (h : ∀ i, (g i).2 = 0) : packedFlags k g = 0 :=
  (packedFlags_of_flag (p := fun _ => False) (f := 0) (by simpa using h)).trans (ite_self _)

/-! ### Clamping (R69) -/

theorem elemRange_le (k : Nat) : (elemRange k).1 ≤ (elemRange k).2 := by
  have h1 : (1 : Int) ≤ 2 ^ (32 / nElem k - 1) := one_le_pow₀ (by decide)
  have h2 : (1 : Int) ≤ 2 ^ (32 / nElem k) := one_le_pow₀ (by decide)
  unfold elemRange
  split
  · dsimp only; omega
  · dsimp only; omega

theorem clampInt_eq {lo hi : Int} (h : lo ≤ hi) (z : Int) :
    clampInt lo hi z = (max lo (min hi z), decide (z ≠ max lo (min hi z))) := by
  unfold clampInt
  split
  · simp only [Prod.mk.injEq, Bool.true_eq, decide_eq_true_eq]; omega
  split
  · simp only [Prod.mk.injEq, Bool.true_eq, decide_eq_true_eq]; omega
  · simp only [Prod.mk.injEq, Bool.false_eq, decide_eq_false_iff_not]; omega

/-- The value of an element clamped to its kind's range. -/
def clampElem (k : Nat) (z : Int) : Int := max (elemRange k).1 (min (elemRange k).2 z)

theorem satElem_eq (k : Nat) (z : Int) : satElem k z = (clampElem k z, if z ≠ clampElem k z then fSAT else 0) := by
  simp only [satElem, clampInt_eq (elemRange_le k), flagIf, decide_eq_true_eq, clampElem]
  rfl

theorem satI32_eq (z : Int) : satI32 z =
    (BitVec.ofInt 32 (max (-2 ^ 31) (min (2 ^ 31 - 1) z)), if -2 ^ 31 ≤ z ∧ z ≤ 2 ^ 31 - 1 then 0 else fSAT) := by
  have hin : z ≠ max (-2 ^ 31) (min (2 ^ 31 - 1) z) ↔ ¬(-2 ^ 31 ≤ z ∧ z ≤ 2 ^ 31 - 1) := by omega
  simp only [satI32, clampInt_eq (show (-2 ^ 31 : Int) ≤ 2 ^ 31 - 1 by decide), flagIf, decide_eq_true_eq, hin, ite_not]

/-! ### The operations (R98) -/

section packed

variable {a b : RegVal} (h3 : 3 ≤ a.kind) (h6 : a.kind ≤ 6)
include h3 h6

theorem tagIf_packed : tagIf (packedKind a.kind) = .ok () := by simp [tagIf, packedKind, h3, h6]

theorem kindB8_packed : kindB8 a.kind = false := by simp [kindB8]; omega

theorem opPabs_ok : opPabs a = packedRes a.kind a.tag fun i => satElem a.kind (intElem a.bits a.kind i).natAbs := by
  simp only [opPabs, tagIf_packed h3 h6]; rfl

theorem packedShift_ok (g : Nat → Int → Nat → Nat → Int) : packedShift g a b = packedRes a.kind a.tag fun i =>
    (g (32 / nElem a.kind) (intElem a.bits a.kind i) (elemBits a.bits (nElem a.kind) i) (shiftCount b), 0) := by
  simp only [packedShift, tagIf_packed h3 h6]; rfl

theorem opPrsar_ok {rm : Rm} {p : Half} (hp : makeTag a.kind 0 (a.scale + shiftCount b) = .ok p) :
    opPrsar rm a b = packedRes a.kind p fun i => ((roundShift rm (intElem a.bits a.kind i) (shiftCount b)).1,
      if (roundShift rm (intElem a.bits a.kind i) (shiftCount b)).2 = true then fNX else 0) := by
  simp only [opPrsar, tagIf_packed h3 h6, hp]; rfl

variable (hb : b.kind = a.kind)
include hb

theorem packedSame_ok (hs : b.scale = a.scale) (g : Nat → Int → Int → Int × FFlags) : packedSame g a b =
    packedRes a.kind a.tag fun i => g a.kind (intElem a.bits a.kind i) (intElem b.bits a.kind i) := by
  have htag : tagIf (packedKind a.kind && sameKind a.tag b.tag && a.scale == b.scale) = .ok () := by
    simp [tagIf, packedKind, h3, h6, hs, sameKind_of_kind hb (kindB8_packed h3 h6)]
  simp only [packedSame, htag]; rfl

theorem opPmul_ok {p : Half} (hp : makeTag a.kind 0 (a.scale + b.scale) = .ok p) : opPmul a b =
    packedRes a.kind p fun i => (intElem a.bits a.kind i * intElem b.bits a.kind i, 0) := by
  have htag : tagIf (packedKind a.kind && sameKind a.tag b.tag) = .ok () := by
    simp [tagIf, packedKind, h3, h6, sameKind_of_kind hb (kindB8_packed h3 h6)]
  simp only [opPmul, htag, hp]; rfl

end packed

/-! ### Shifts of elements by any count (R98) -/

/-- A count of the width or more leaves no bit of an element shifted left. -/
theorem emod_shl_elem (w n : Nat) (z : Int) : (if w ≤ n then 0 else z * 2 ^ n) % (2 : Int) ^ w = z * 2 ^ n % 2 ^ w := by
  split
  · next h =>
    rw [Int.zero_emod]
    exact (Int.emod_eq_zero_of_dvd (dvd_mul_of_dvd_right (pow_dvd_pow 2 h) z)).symm
  · rfl

/-- A number of w bits and a sign over 2^n, for n not less than w. -/
theorem ediv_two_pow_of_le {w n : Nat} {z : Int} (hlo : -2 ^ w ≤ z) (hhi : z < 2 ^ w) (h : w ≤ n) :
    z / 2 ^ n = if z < 0 then -1 else 0 := by
  have hpow : (2 : Int) ^ w ≤ 2 ^ n := pow_le_pow_right₀ (by decide) h
  split
  · exact Int.ediv_eq_neg_one_of_neg_of_le ‹_› (by omega)
  · exact Int.ediv_eq_zero_of_lt (by omega) (by omega)

theorem ediv_sar_elem {w n u : Nat} (hu : u < 2 ^ w) :
    (if 2 ^ (w - 1) ≤ u then (u : Int) - 2 ^ w else u) / 2 ^ min n w = (if 2 ^ (w - 1) ≤ u then (u : Int) - 2 ^ w else u) / 2 ^ n := by
  have hu' : (u : Int) < 2 ^ w := by exact_mod_cast hu
  obtain h | h := le_total n w
  · rw [min_eq_left h]
  · have hlo : -2 ^ w ≤ (if 2 ^ (w - 1) ≤ u then (u : Int) - 2 ^ w else u) := by split <;> omega
    have hhi : (if 2 ^ (w - 1) ≤ u then (u : Int) - 2 ^ w else u) < 2 ^ w := by split <;> omega
    rw [min_eq_right h, ediv_two_pow_of_le hlo hhi le_rfl, ediv_two_pow_of_le hlo hhi h]

theorem div_shr_elem {w n u : Nat} (hu : u < 2 ^ w) :
    (if w ≤ n then 0 else ((u / 2 ^ n : Nat) : Int)) = (u : Int) / 2 ^ n := by
  split
  · next h =>
    rw [Int.ediv_eq_zero_of_lt (by positivity) (by exact_mod_cast hu.trans_le (Nat.pow_le_pow_right (by decide) h))]
  · push_cast
    rfl

/-! ### Dot products (R99) -/

section dot

variable {d a b : RegVal}

theorem tagIf_dmac (ha3 : 3 ≤ a.kind) (ha6 : a.kind ≤ 6) (hb3 : 3 ≤ b.kind) (hb6 : b.kind ≤ 6) (hn : nElem b.kind = nElem a.kind)
    (hd : d.kind = 1) (hs : d.scale = a.scale + b.scale) : tagIf (dmacTags d a b) = .ok () := by
  simp [tagIf, dmacTags, packedKind, ha3, ha6, hb3, hb6, hn, hd, hs]

theorem opDmac_ok (h : tagIf (dmacTags d a b) = .ok ()) :
    opDmac d a b = .ok ({ bits := BitVec.ofInt 32 (dmacSum d a b), tag := d.tag }, 0) := by
  simp only [opDmac, h]; rfl

theorem opDmacSat_ok (h : tagIf (dmacTags d a b) = .ok ()) : opDmacSat d a b =
    .ok ({ bits := BitVec.ofInt 32 (max (-2 ^ 31) (min (2 ^ 31 - 1) (dmacSum d a b))), tag := d.tag },
      if -2 ^ 31 ≤ dmacSum d a b ∧ dmacSum d a b ≤ 2 ^ 31 - 1 then 0 else fSAT) := by
  simp only [opDmacSat, h, satI32_eq]; rfl

/-- The sum of the products and the addend of fdmac, exact, and whether it is invalid. -/
def fdmacSum (rm : Rm) (d a b : RegVal) : Num × Bool := sumNum rm (f32Val d :: (fdmacTerms a b).map Prod.fst)

theorem opFdmac_ok {rm : Rm} (hab : ((a.kind = 8 ∨ a.kind = 9) ∧ (b.kind = 8 ∨ b.kind = 9)) ∨
      (10 ≤ a.kind ∧ a.kind ≤ 13 ∧ 10 ≤ b.kind ∧ b.kind ≤ 13)) (hd : d.kind = 7) : opFdmac rm d a b =
    .ok ({ bits := BitVec.ofNat 32 (roundTo (fdmacSum rm d a b).1 f32 rm .ovf).1, tag := d.tag },
      (roundTo (fdmacSum rm d a b).1 f32 rm .ovf).2 |||
        (if (fdmacSum rm d a b).2 || (fdmacTerms a b).any Prod.snd then fNV else 0)) := by
  have htags : tagIf (((a.kind == 8 || a.kind == 9) && (b.kind == 8 || b.kind == 9)) || (kindB8 a.kind && kindB8 b.kind)) = .ok () := by
    refine if_pos ?_
    simpa [kindB8, and_assoc] using hab
  have htag : tagIf (d.kind == 7) = .ok () := by simp [tagIf, hd]
  simp only [opFdmac, htags, htag]; rfl

end dot

end Sys2Proof

namespace Sys2Proof.Machine

section packed

variable {s : State} {r : TRef} {t : Thread} {g : Wg} {d k : Nat} {rd : List Nat} {i : Instr} {op : Arch → LaneVal} {tg : Half}
  {e : Nat → Int × FFlags} (h : Ready s r t g rd [d]) (hacc : r.acc = false) (hi : exec i s = laneV { reads := rd } d op s)
  (hop : op t.arch = packedRes k tg e)
include h hacc hi hop

/-- A packed form gives each of its elements modulo its width, and the flags of all. -/
theorem gives_packed {v : Nat → Int} (hv : ∀ j, j < nElem k → (e j).1 % 2 ^ (32 / nElem k) = v j % 2 ^ (32 / nElem k)) {fl : FFlags}
    (hfl : packedFlags k e = fl) : ∃ w, Gives i s r t d { bits := w, tag := tg } fl 4 ∧
      ∀ j, j < nElem k → elemBits w (nElem k) j = (v j % 2 ^ (32 / nElem k)).toNat :=
  ⟨_, gives_of_laneV h hacc hi (hop.trans (hfl ▸ packedRes_ok k tg e)), fun j hj => by rw [elemBits_packedWord e hj, hv j hj]⟩

/-- A packed form that sets no flag gives each of its elements modulo its width. -/
theorem gives_packed_plain {v : Nat → Int} (he : ∀ j, e j = (v j, 0)) :
    ∃ w, Gives i s r t d { bits := w, tag := tg } 0 4 ∧
      ∀ j, j < nElem k → elemBits w (nElem k) j = (v j % 2 ^ (32 / nElem k)).toNat :=
  gives_packed h hacc hi hop (fun j _ => by rw [he j]) (packedFlags_none fun j => by rw [he j])

/-- A saturating packed form gives each of its elements clamped, and SAT where one was. -/
theorem gives_packed_sat {v : Nat → Int} (he : ∀ j, e j = satElem k (v j)) :
    ∃ w, Gives i s r t d { bits := w, tag := tg }
        (if ∃ j ∈ List.range (nElem k), v j ≠ clampElem k (v j) then fSAT else 0) 4 ∧
      ∀ j, j < nElem k → elemBits w (nElem k) j = (clampElem k (v j) % 2 ^ (32 / nElem k)).toNat :=
  gives_packed h hacc hi hop (fun j _ => by rw [he j, satElem_eq]) (packedFlags_of_flag fun j => by rw [he j, satElem_eq])

end packed

/-- Settles O8: each packed form element by element, and the dot products by their exact sum. -/
theorem packedIntegersAndDotProducts : Obligations.PackedIntegersAndDotProducts := by
  unfold Obligations.PackedIntegersAndDotProducts
  refine ⟨fun s r t g d a b hacc => fun h3 h6 => ⟨fun h => ⟨fun hb hs => ⟨?_, ?_, ?_, ?_, ?_, ?_, ?_⟩, fun p hb hp => ?_, ?_, ?_, ?_,
    fun p hp => ?_⟩, fun h => ?_⟩, fun s r t g d a b hacc h => ⟨fun ha3 ha6 hb3 hb6 hn hd hs => ⟨?_, ?_⟩, fun hab hd => ?_⟩⟩
  · exact gives_packed_plain h hacc (exec_padd ..) (packedSame_ok h3 h6 hb hs _) fun _ => rfl
  · exact gives_packed_sat h hacc (exec_paddSat ..) (packedSame_ok h3 h6 hb hs _) fun _ => rfl
  · exact gives_packed_plain h hacc (exec_psub ..) (packedSame_ok h3 h6 hb hs _) fun _ => rfl
  · exact gives_packed_sat h hacc (exec_psubSat ..) (packedSame_ok h3 h6 hb hs _) fun _ => rfl
  · exact gives_packed_plain h hacc (exec_pmin ..) (packedSame_ok h3 h6 hb hs _) fun _ => rfl
  · exact gives_packed_plain h hacc (exec_pmax ..) (packedSame_ok h3 h6 hb hs _) fun _ => rfl
  · exact gives_packed_plain h hacc (exec_pavg ..) (packedSame_ok h3 h6 hb hs _) fun _ => rfl
  · exact gives_packed_plain h hacc (exec_pmul ..) (opPmul_ok h3 h6 hb hp) fun _ => rfl
  · exact gives_packed h hacc (exec_pshl ..) (packedShift_ok h3 h6 _) (fun _ _ => emod_shl_elem ..) (packedFlags_none fun _ => rfl)
  · exact gives_packed_plain h hacc (exec_psar ..) (packedShift_ok h3 h6 _)
      fun _ => congrArg (·, (0 : FFlags)) (ediv_sar_elem (elemBits_lt ..))
  · exact gives_packed_plain h hacc (exec_pshr ..) (packedShift_ok h3 h6 _)
      fun _ => congrArg (·, (0 : FFlags)) (div_shr_elem (elemBits_lt ..))
  · exact gives_packed h hacc (exec_prsar ..) (opPrsar_ok h3 h6 hp) (fun _ _ => rfl) (packedFlags_of_flag fun _ => rfl)
  · exact gives_packed_sat h hacc (exec_pabs ..) (opPabs_ok h3 h6) fun _ => rfl
  · exact gives_of_laneV h hacc (exec_dmac ..) (opDmac_ok (tagIf_dmac ha3 ha6 hb3 hb6 hn hd hs))
  · exact gives_of_laneV h hacc (exec_dmacSat ..) (opDmacSat_ok (tagIf_dmac ha3 ha6 hb3 hb6 hn hd hs))
  · exact gives_of_laneV h hacc (exec_fdmac ..) (opFdmac_ok hab hd)

end Sys2Proof.Machine
end

section
/-! PROOFS. Conversions, tag rewrites and packs (R102 to R104). -/

namespace Sys2Proof

/-! ### Where cvt places elements (R102) -/

section places

variable (ns nt sel : Nat)

/-- The element of the operand that element j of a conversion is read from. -/
def cvtSource (j : Nat) : Nat := if nt ≤ ns then sel * min ns nt + j else j

/-- The element of the result that element j of a conversion goes to. -/
def cvtPlace (j : Nat) : Nat := if nt ≤ ns then j else sel * min ns nt + j

/-- The element of a conversion that goes to element i of the result. -/
def cvtFrom (i : Nat) : Option Nat :=
  if nt ≤ ns then (if i < min ns nt then some i else none)
  else (if sel * min ns nt ≤ i ∧ i < sel * min ns nt + min ns nt then some (i - sel * min ns nt) else none)

/-- The codes of the elements of the result of a conversion whose elements are given: 0 where none goes. -/
def cvtCodes (one : Nat → Nat × FFlags) : List Nat :=
  (List.range nt).map fun i => ((cvtFrom ns nt sel i).map fun j => (one j).1).getD 0

variable {ns nt sel} {i j : Nat}

theorem cvtFrom_cvtPlace (hj : j < min ns nt) : cvtFrom ns nt sel (cvtPlace ns nt sel j) = some j := by
  by_cases hn : nt ≤ ns
  · rw [cvtPlace, if_pos hn, cvtFrom, if_pos hn, if_pos hj]
  · rw [cvtPlace, if_neg hn, cvtFrom, if_neg hn, if_pos (by omega), Nat.add_sub_cancel_left]

theorem cvtPlace_lt (hj : j < min ns nt) (hsel : sel < max ns nt / min ns nt) : cvtPlace ns nt sel j < nt := by
  unfold cvtPlace
  split
  · omega
  · next hn =>
    rw [min_eq_left (by omega)] at hj ⊢
    rw [max_eq_right (by omega), min_eq_left (by omega)] at hsel
    calc sel * ns + j < (sel + 1) * ns := by rw [Nat.succ_mul]; omega
      _ ≤ nt / ns * ns := Nat.mul_le_mul_right _ hsel
      _ ≤ nt := Nat.div_mul_le_self ..

theorem cvtFrom_eq_none (h : ∀ j, j < min ns nt → cvtPlace ns nt sel j ≠ i) : cvtFrom ns nt sel i = none := by
  unfold cvtFrom
  unfold cvtPlace at h
  split
  · next hn =>
    refine if_neg fun hlt => h i hlt ?_
    rw [if_pos hn]
  · next hn =>
    refine if_neg fun hin => h (i - sel * min ns nt) (by omega) ?_
    rw [if_neg hn]
    omega

variable (one : Nat → Nat × FFlags)

theorem getElem?_cvtCodes (hi : i < nt) :
    (cvtCodes ns nt sel one)[i]? = some (((cvtFrom ns nt sel i).map fun j => (one j).1).getD 0) := by
  simp [cvtCodes, hi]

theorem length_cvtCodes : (cvtCodes ns nt sel one).length = nt := by simp [cvtCodes]

variable (hnt : 32 / nt * nt = 32)
include hnt

theorem elemBits_cvt_place (hj : j < min ns nt) (hsel : sel < max ns nt / min ns nt) :
    elemBits (packElems nt (cvtCodes ns nt sel one)) nt (cvtPlace ns nt sel j) = (one j).1 % 2 ^ (32 / nt) := by
  refine elemBits_packElems hnt (length_cvtCodes one) ?_
  rw [getElem?_cvtCodes one (cvtPlace_lt hj hsel), cvtFrom_cvtPlace hj]
  rfl

theorem elemBits_cvt_zero (hi : i < nt) (h : ∀ j, j < min ns nt → cvtPlace ns nt sel j ≠ i) :
    elemBits (packElems nt (cvtCodes ns nt sel one)) nt i = 0 := by
  refine (elemBits_packElems (c := 0) hnt (length_cvtCodes one) ?_).trans (Nat.zero_mod _)
  rw [getElem?_cvtCodes one hi, cvtFrom_eq_none h]
  rfl

end places

/-! ### The operations of CVT and TAG (R102, R103) -/

section cvt

variable (rm : Rm) (m o : Nat) (a b : RegVal)

/-- The tag that cvt's control word names. -/
def cvtTag (b : RegVal) : Half := b.bits.setWidth 16

/-- SEL of cvt's control word. -/
def cvtSel (b : RegVal) : Nat := b.bits.toNat / 2 ^ 16 % 4

/-- Element j of a conversion: code and flags. -/
def cvtOne (j : Nat) : Nat × FFlags :=
  cvtElem (valElem a.bits a.tag (cvtSource (nElem a.kind) (nElem (tKind (cvtTag b))) (cvtSel b) j)) (cvtTag b)
    ((rmOfCode m).getD rm) (if o = 0 then .sat else .ovf)

/-- The result of a conversion: its elements in their places, and the flags of all. -/
def cvtResult : RegVal × FFlags :=
  ({ bits := packElems (nElem (tKind (cvtTag b)))
      (cvtCodes (nElem a.kind) (nElem (tKind (cvtTag b))) (cvtSel b) (cvtOne rm m o a b))
     tag := cvtTag b },
   ((List.range (min (nElem a.kind) (nElem (tKind (cvtTag b))))).map fun j => (cvtOne rm m o a b j).2).foldr (· ||| ·) 0)

/-- The tags of a conversion are those of elements. -/
def cvtTagsFit : Bool := validTag (cvtTag b).toNat && !kindPlain a.kind && !kindPlain (tKind (cvtTag b))

/-- SEL names a place that there is. -/
def cvtSelFits : Bool :=
  decide (cvtSel b < max (nElem a.kind) (nElem (tKind (cvtTag b))) / min (nElem a.kind) (nElem (tKind (cvtTag b))))

theorem opCvt_eq : opCvt rm m o a b =
    tagIf (cvtTagsFit a b) >>= fun _ => tagIf (cvtSelFits a b) >>= fun _ => .ok (cvtResult rm m o a b) := by
  have hcodes : ∀ x : Option Nat, (x.map fun j => (cvtOne rm m o a b j).1).getD 0 = match x with
      | some j => (cvtOne rm m o a b j).1
      | none => 0 := fun x => by cases x <;> rfl
  simp only [cvtResult, cvtCodes, List.foldr_map, hcodes]
  rfl

variable {a b}

theorem opCvt_ok (ht : cvtTagsFit a b = true) (hs : cvtSelFits a b = true) : opCvt rm m o a b = .ok (cvtResult rm m o a b) := by
  rw [opCvt_eq, ht, hs]; rfl

theorem opCvt_error (h : ¬(cvtTagsFit a b = true ∧ cvtSelFits a b = true)) : opCvt rm m o a b = .error .tag := by
  rw [opCvt_eq]
  cases ht : cvtTagsFit a b
  · rfl
  · rw [Bool.eq_false_iff.2 fun hs => h ⟨ht, hs⟩]
    rfl

theorem cvtFits_iff : (cvtTagsFit a b = true ∧ cvtSelFits a b = true) ↔
    validTag (cvtTag b).toNat = true ∧ kindPlain a.kind = false ∧ kindPlain (tKind (cvtTag b)) = false ∧
      cvtSel b < max (nElem a.kind) (nElem (tKind (cvtTag b))) / min (nElem a.kind) (nElem (tKind (cvtTag b))) := by
  simp only [cvtTagsFit, cvtSelFits, Bool.and_eq_true, Bool.not_eq_true', decide_eq_true_eq, and_assoc]

end cvt

theorem opScadd_ok {d : RegVal} {z : Int} {p : Half} (hk : (1 ≤ d.kind ∧ d.kind ≤ 6) ∨ (10 ≤ d.kind ∧ d.kind ≤ 13))
    (hp : makeTag d.kind d.prec (d.scale + z) = .ok p) : opScadd z d = .ok ({ bits := d.bits, tag := p }, 0) := by
  have htag : tagIf (kindInt d.kind || kindB8 d.kind) = .ok () := if_pos (by simpa [kindInt, kindB8] using hk)
  simp only [opScadd, htag, hp]; rfl

/-! ### Packs (R104) -/

theorem packElems_two (x y : Word) (i j : Nat) :
    packElems 2 [elemBits x 2 i, elemBits y 2 j] = BitVec.ofNat 32 (elemBits x 2 i + 65536 * elemBits y 2 j) := by
  have hx := elemBits_lt x 2 i
  have hy := elemBits_lt y 2 j
  have hnat : packNat (32 / 2) [elemBits x 2 i, elemBits y 2 j] = elemBits x 2 i + 65536 * elemBits y 2 j := by
    simp only [packNat, List.foldr_cons, List.foldr_nil, Nat.reduceDiv, Nat.reducePow] at hx hy ⊢
    omega
  exact congrArg (BitVec.ofNat 32) hnat

theorem packElems_four (x y : Word) (i j k l : Nat) :
    packElems 4 [elemBits x 4 i, elemBits x 4 j, elemBits y 4 k, elemBits y 4 l] =
      BitVec.ofNat 32 (elemBits x 4 i + 2 ^ 8 * elemBits x 4 j + 2 ^ 16 * elemBits y 4 k + 2 ^ 24 * elemBits y 4 l) := by
  have hi := elemBits_lt x 4 i
  have hj := elemBits_lt x 4 j
  have hk := elemBits_lt y 4 k
  have hl := elemBits_lt y 4 l
  have hnat : packNat (32 / 4) [elemBits x 4 i, elemBits x 4 j, elemBits y 4 k, elemBits y 4 l] =
      elemBits x 4 i + 2 ^ 8 * elemBits x 4 j + 2 ^ 16 * elemBits y 4 k + 2 ^ 24 * elemBits y 4 l := by
    simp only [packNat, List.foldr_cons, List.foldr_nil, Nat.reduceDiv, Nat.reducePow] at hi hj hk hl ⊢
    omega
  exact congrArg (BitVec.ofNat 32) hnat

/-- An extracted element of a kind with signed and unsigned elements, or of any other kind (R104). -/
theorem extractRes_ok {a : RegVal} {ks kn n i : Nat} (hs : kindSigned ks = true) (hn : nElem ks = n) : extractRes a ks kn n i =
    .ok ({ bits := if a.kind = ks ∧ 2 ^ (32 / n - 1) ≤ elemBits a.bits n i then
             BitVec.ofInt 32 ((elemBits a.bits n i : Int) - 2 ^ (32 / n)) else BitVec.ofNat 32 (elemBits a.bits n i)
           tag := if a.kind = ks then BitVec.ofNat 16 (mkTag 1 0 a.scale)
             else if a.kind = kn then BitVec.ofNat 16 (mkTag 2 0 a.scale) else tagRaw }, 0) := by
  subst hn
  unfold extractRes
  by_cases hk : a.kind = ks
  · have hint : intElem a.bits ks i = if 2 ^ (32 / nElem ks - 1) ≤ elemBits a.bits (nElem ks) i then
        (elemBits a.bits (nElem ks) i : Int) - 2 ^ (32 / nElem ks) else elemBits a.bits (nElem ks) i := by
      simp only [intElem, hs, Bool.true_and, decide_eq_true_eq]
    have hbits : BitVec.ofInt 32 (intElem a.bits ks i) = if 2 ^ (32 / nElem ks - 1) ≤ elemBits a.bits (nElem ks) i then
        BitVec.ofInt 32 ((elemBits a.bits (nElem ks) i : Int) - 2 ^ (32 / nElem ks))
        else BitVec.ofNat 32 (elemBits a.bits (nElem ks) i) := by
      rw [hint, apply_ite (BitVec.ofInt 32), BitVec.ofInt_natCast]
    simp only [hk, if_true, true_and, hbits, vOk]
  · simp only [hk, if_false, false_and]
    split <;> rfl

end Sys2Proof

namespace Sys2Proof.Machine

/-- Settles O10: where cvt's elements go, the tags that retag and scadd leave, and the bits of each pack. -/
theorem conversionsTagsAndPacking : Obligations.ConversionsTagsAndPacking := by
  unfold Obligations.ConversionsTagsAndPacking
  refine ⟨fun s r t g d a b m o z hacc => ⟨fun h => ⟨fun hfits => ?fits, fun hfits => ?misfits⟩, fun h => ⟨?_, fun p hk hp => ?_⟩⟩,
    fun s r t g d a b hacc => ⟨fun h => ⟨?_, ?_, ?_, ?_⟩, fun h => ⟨?_, ?_⟩⟩⟩
  case fits =>
    obtain ⟨htags, hsel⟩ := cvtFits_iff.2 hfits
    obtain ⟨-, -, -, hlt⟩ := hfits
    exact ⟨_, _, gives_of_laneV h hacc (exec_cvt ..) (opCvt_ok _ m o htags hsel),
      fun j hj => elemBits_cvt_place _ (nElem_dvd _) hj hlt, fun i hi hnone => elemBits_cvt_zero _ (nElem_dvd _) hi hnone, rfl⟩
  case misfits =>
    exact (exec_cvt ..).trans (laneV_of_error (u := { reads := [a, b] }) rfl rfl rfl rfl rfl h (by simp [Use.allowed, hacc])
      (opCvt_error _ m o (mt cvtFits_iff.1 hfits)))
  · exact gives_of_laneV h hacc (exec_retag ..) rfl
  · exact gives_of_laneV h hacc (exec_scadd ..) (opScadd_ok hk hp)
  · exact gives_of_laneV h hacc (exec_pklo ..) (congrArg (vOk · _) (packElems_two ..))
  · exact gives_of_laneV h hacc (exec_pkhi ..) (congrArg (vOk · _) (packElems_two ..))
  · exact gives_of_laneV h hacc (exec_pkbl ..) (congrArg (vOk · _) (packElems_four ..))
  · exact gives_of_laneV h hacc (exec_xtb ..) (extractRes_ok rfl rfl)
  · exact gives_of_laneV h hacc (exec_xtlo ..) (extractRes_ok rfl rfl)
  · exact gives_of_laneV h hacc (exec_xthi ..) (extractRes_ok rfl rfl)

end Sys2Proof.Machine
end

section
/-! PROOFS. The special functions (R100, R101): how binary32 codes and exact values go into one another at the special inputs and the
exact points, and what each function leaves there. -/

namespace Sys2Proof

/-! ### Codes of binary32 (R54) -/

theorem f32_prec : f32.prec = 24 := rfl
theorem f32_emin : f32.emin = -126 := rfl
theorem f32_signed : f32.signed = true := rfl
theorem f32_maxMag : f32.maxMag = 255 * 2 ^ 23 - 1 := rfl

theorem f32_withSign (neg : Bool) (c : Nat) : f32.withSign neg c = if neg then c + 2 ^ 31 else c := rfl

/-- The number of bits of a number from 2^(l-1) to 2^l - 1. -/
theorem bitLen_eq {n l : Nat} (h1 : 1 ≤ l) (hlo : 2 ^ (l - 1) ≤ n) (hhi : n < 2 ^ l) : bitLen n = l := by
  have hn : n ≠ 0 := fun h => by rw [h] at hlo; exact absurd hlo (not_le.2 (Nat.two_pow_pos _))
  have hlog : n.log2 = l - 1 := by
    refine le_antisymm (Nat.le_sub_one_of_lt ((Nat.log2_lt hn).2 hhi)) ?_
    exact (Nat.le_log2 hn).2 hlo
  rw [bitLen, if_neg hn, hlog, Nat.sub_add_cancel h1]

/-- A positive number lies between powers of two at its number of bits. -/
theorem bitLen_bounds {n : Nat} (hn : n ≠ 0) : 1 ≤ bitLen n ∧ 2 ^ (bitLen n - 1) ≤ n ∧ n < 2 ^ bitLen n := by
  rw [bitLen, if_neg hn]
  exact ⟨Nat.le_add_left .., Nat.log2_self_le hn, Nat.lt_log2_self⟩

/-- The code of a significand of 24 bits and its exponent. -/
theorem f32_magCode {n : Nat} {q : Int} (hn : 2 ^ 23 ≤ n) : f32.magCode n q = ((q + 149).toNat + 1) * 2 ^ 23 + (n - 2 ^ 23) := by
  rw [Fmt.magCode, f32_prec, f32_emin, if_neg (by omega)]
  congr 4

theorem f32_magVal (neg : Bool) (c : Nat) : f32.magVal neg c =
    if c / 2 ^ 23 = 0 then .fin neg (c % 2 ^ 23) (-149) else .fin neg (2 ^ 23 + c % 2 ^ 23) (-149 + (c / 2 ^ 23 : Nat) - 1) := rfl

theorem f32_decode (c : Nat) : f32.decode c =
    if c % 2 ^ 31 < 0x7F800000 then f32.magVal (c / 2 ^ 31 % 2 == 1) (c % 2 ^ 31)
    else if c % 2 ^ 31 = 0x7F800000 then .inf (c / 2 ^ 31 % 2 == 1) else .nan := rfl

/-- A significand of 24 bits comes back from its code. -/
theorem f32_decode_normal {n : Nat} {q : Int} (neg : Bool) (hlo : 2 ^ 23 ≤ n) (hhi : n < 2 ^ 24) (hq : -149 ≤ q) (hq' : q ≤ 104) :
    f32.decode (f32.withSign neg (f32.magCode n q)) = .fin neg n q := by
  obtain ⟨k, hk⟩ : ∃ k : Nat, q = (k : Int) - 149 := ⟨(q + 149).toNat, by omega⟩
  have hmag : f32.magCode n q = (k + 1) * 2 ^ 23 + (n - 2 ^ 23) := by rw [f32_magCode hlo, hk]; congr 3; omega
  have hmod : f32.withSign neg (f32.magCode n q) % 2 ^ 31 = (k + 1) * 2 ^ 23 + (n - 2 ^ 23) := by
    rw [hmag, f32_withSign]
    split <;> omega
  have hsign : (f32.withSign neg (f32.magCode n q) / 2 ^ 31 % 2 == 1) = neg := by
    rw [hmag, f32_withSign]
    cases neg
    · exact beq_false_of_ne (by simp only [Bool.false_eq_true, if_false]; omega)
    · exact beq_iff_eq.2 (by simp only [if_true]; omega)
  have hexp : ((k + 1) * 2 ^ 23 + (n - 2 ^ 23)) / 2 ^ 23 = k + 1 := by omega
  have hsig : 2 ^ 23 + ((k + 1) * 2 ^ 23 + (n - 2 ^ 23)) % 2 ^ 23 = n := by omega
  have hq : -149 + ((k + 1 : Nat) : Int) - 1 = q := by omega
  rw [f32_decode, hmod, hsign, if_pos (by omega), f32_magVal, hexp, if_neg (Nat.succ_ne_zero k), hsig, hq]

/-- A value of at most 24 bits within the normal range has a code (R68). -/
theorem f32_roundMag_exact (rm : Rm) (neg : Bool) {m : Nat} {e : Int} (hlen : bitLen m ≤ 24) (hlo : -126 ≤ e + bitLen m - 1) :
    f32.roundMag rm neg m e = (f32.magCode (m * 2 ^ (24 - bitLen m)) (e + bitLen m - 24), false) := by
  have hq : max (e + (bitLen m : Int) - 1) (-126) - ((24 : Nat) - 1 : Int) = e + bitLen m - 24 := by omega
  have hshift : (e - (e + (bitLen m : Int) - 24)).toNat = 24 - bitLen m := by omega
  simp only [Fmt.roundMag, f32_prec, f32_emin, hq, hshift]
  exact if_pos (by omega)

/-- Such a value, moved up to 24 bits. -/
theorem significand_bounds {m : Nat} (hm : m ≠ 0) (hlen : bitLen m ≤ 24) :
    2 ^ 23 ≤ m * 2 ^ (24 - bitLen m) ∧ m * 2 ^ (24 - bitLen m) < 2 ^ 24 := by
  obtain ⟨h1, hge, hlt⟩ := bitLen_bounds hm
  have hpow : 2 ^ (bitLen m - 1) * 2 ^ (24 - bitLen m) = 2 ^ 23 := by rw [← pow_add]; congr 1; omega
  have hpow' : 2 ^ bitLen m * 2 ^ (24 - bitLen m) = 2 ^ 24 := by rw [← pow_add]; congr 1; omega
  exact ⟨hpow ▸ Nat.mul_le_mul_right _ hge, hpow' ▸ Nat.mul_lt_mul_of_pos_right hlt (Nat.two_pow_pos _)⟩

/-- It is rounded to itself in every mode. -/
theorem roundIeee_f32_exact (rm : Rm) (neg : Bool) {m : Nat} {e : Int} (hm : m ≠ 0) (hlen : bitLen m ≤ 24)
    (hlo : -126 ≤ e + bitLen m - 1) (hhi : e + bitLen m - 1 ≤ 127) : roundIeee (.fin neg m e) f32 rm =
    (f32.withSign neg (f32.magCode (m * 2 ^ (24 - bitLen m)) (e + bitLen m - 24)), 0) := by
  obtain ⟨hn, hn'⟩ := significand_bounds hm hlen
  have hmax : ¬f32.maxMag < f32.magCode (m * 2 ^ (24 - bitLen m)) (e + bitLen m - 24) := by
    rw [f32_magCode hn, f32_maxMag]
    omega
  have hto : roundTo (.fin neg m e) f32 rm .ovf =
      (f32.withSign neg (f32.magCode (m * 2 ^ (24 - bitLen m)) (e + bitLen m - 24)), 0) := by
    simp only [roundTo, if_neg hm, f32_roundMag_exact rm neg hlen hlo, if_neg hmax, f32_signed, Bool.not_true, Bool.false_and,
      Bool.false_eq_true, if_false, if_true]
    rfl
  rw [roundIeee, hto]
  rfl

/-! ### The f32 result of a value (R70) -/

section results

variable (rm : Rm) (fl : FFlags)

/-- An f32 register with its flags. -/
def f32Reg (w : Word) (fl : FFlags) : RegVal × FFlags := ({ bits := w, tag := tagF32 }, fl)

/-- A code with a sign. -/
def signWord (neg : Bool) (w : Word) : Word := if neg then w ||| 0x80000000 else w

theorem f32Out_nan : f32Out rm (.nan, fl) = f32Reg 0x7FC00000 fl :=
  congrArg (f32Reg 0x7FC00000) BitVec.or_zero

theorem f32Out_inf (neg : Bool) : f32Out rm (.inf neg, fl) = f32Reg (signWord neg 0x7F800000) fl := by
  cases neg
  · exact congrArg (f32Reg 0x7F800000) BitVec.or_zero
  · exact congrArg (f32Reg 0xFF800000) BitVec.or_zero

theorem f32Out_zero (neg : Bool) (e : Int) : f32Out rm (.fin neg 0 e, fl) = f32Reg (signWord neg 0) fl := by
  cases neg
  · exact congrArg (f32Reg 0) BitVec.or_zero
  · exact congrArg (f32Reg 0x80000000) BitVec.or_zero

/-- A power of two within the normal range. -/
theorem f32Out_pow {k : Int} (hlo : -126 ≤ k) (hhi : k ≤ 127) :
    f32Out rm (.fin false 1 k, fl) = f32Reg (BitVec.ofNat 32 ((k + 127) * 2 ^ 23).toNat) fl := by
  have hlen : bitLen 1 = 1 := rfl
  have hcode : f32.magCode (1 * 2 ^ (24 - bitLen 1)) (k + bitLen 1 - 24) = ((k + 127) * 2 ^ 23).toNat := by
    rw [hlen, f32_magCode (by decide)]
    omega
  rw [f32Out, roundIeee_f32_exact rm false (by decide) (by decide) (by rw [hlen]; omega) (by rw [hlen]; omega), hcode]
  exact congrArg (f32Reg _) BitVec.or_zero

/-- An integer that f32 holds has one code in every mode. -/
theorem f32Out_ofInt {n : Int} (hn : n.natAbs < 2 ^ 24) : f32Out rm (Num.ofInt n, 0) =
    f32Reg (BitVec.ofNat 32 (roundIeee (.fin (decide (n < 0)) n.natAbs 0) f32 .rne).1) 0 := by
  have hcode : roundIeee (.fin (decide (n < 0)) n.natAbs 0) f32 rm =
      ((roundIeee (.fin (decide (n < 0)) n.natAbs 0) f32 .rne).1, 0) := by
    by_cases h0 : n.natAbs = 0
    · rw [h0]; rfl
    · have hlen := bitLen_le hn
      obtain ⟨h1, -⟩ := bitLen_bounds h0
      rw [roundIeee_f32_exact rm _ h0 hlen (by omega) (by omega), roundIeee_f32_exact .rne _ h0 hlen (by omega) (by omega)]
  rw [f32Out, Num.ofInt, hcode]
  exact congrArg (f32Reg _) BitVec.or_zero

end results

/-! ### The value of an operand (R54) -/

section operand

variable {c : Nat}

theorem f32_decode_nan (h : 0x7F800000 < c % 2 ^ 31) : f32.decode c = .nan := by
  rw [f32_decode, if_neg (by omega), if_neg (by omega)]

theorem f32_decode_inf (h : c % 2 ^ 31 = 0x7F800000) : f32.decode c = .inf (c / 2 ^ 31 % 2 == 1) := by
  rw [f32_decode, if_neg (by omega), if_pos h]

theorem f32_decode_zero (h : c % 2 ^ 31 = 0) : f32.decode c = .fin (c / 2 ^ 31 % 2 == 1) 0 (-149) := by
  rw [f32_decode, h]
  rfl

theorem f32_decode_fin (h0 : 0 < c % 2 ^ 31) (h : c % 2 ^ 31 < 0x7F800000) :
    ∃ m e, f32.decode c = .fin (c / 2 ^ 31 % 2 == 1) m e ∧ m ≠ 0 := by
  rw [f32_decode, if_pos h, f32_magVal]
  split
  · exact ⟨_, _, rfl, by omega⟩
  · exact ⟨_, _, rfl, by omega⟩

/-- Bit 31 of a word is its sign. -/
theorem sign_of_word (w : Word) : (w.toNat / 2 ^ 31 % 2 == 1) = w.getLsbD 31 :=
  (Nat.testBit_eq_decide_div_mod_eq ..).symm

theorem word_of_zero {w : Word} (h : w.toNat % 2 ^ 31 = 0) : signWord (w.getLsbD 31) 0 = w := by
  have hw := w.isLt
  rw [← sign_of_word]
  refine BitVec.eq_of_toNat_eq ?_
  cases hs : w.toNat / 2 ^ 31 % 2 == 1
  · have hne := ne_of_beq_false hs
    show 0 = w.toNat
    omega
  · have heq := beq_iff_eq.1 hs
    show 2 ^ 31 = w.toNat
    omega

/-- The sign bit of a word and a magnitude. -/
theorem ofNat_sign_add (w : Word) : BitVec.ofNat 32 (w.toNat - w.toNat % 2 ^ 31 + 0x3F800000) = signWord (w.getLsbD 31) 0x3F800000 := by
  have hw := w.isLt
  rw [← sign_of_word]
  cases hs : w.toNat / 2 ^ 31 % 2 == 1
  · have hne := ne_of_beq_false hs
    have hz : w.toNat - w.toNat % 2 ^ 31 = 0 := by omega
    rw [hz]
    rfl
  · have heq := beq_iff_eq.1 hs
    have hz : w.toNat - w.toNat % 2 ^ 31 = 2 ^ 31 := by omega
    rw [hz]
    rfl

end operand

/-! ### The functions at exact points (R100) -/

section exact

variable {m : Nat} {e : Int}

/-- The argument of a power of two that is a whole number. -/
theorem sfuExp2_of_int {neg : Bool} {k : Int} (hm : m ≠ 0) (hlen : bitLen m = 24) (he : e < -13)
    (harg : fxArg neg m e = k * (fxOne : Int)) : sfuExp2 (.fin neg m e) = (.fin false 1 k, 0) := by
  have hsmall : atLeastPow m e 10 = false := by
    rw [atLeastPow, hlen]
    simp only [Bool.and_eq_false_iff, decide_eq_false_iff_not]
    omega
  have hone : (fxOne : Int) ≠ 0 := Int.natCast_ne_zero.2 (Nat.two_pow_pos _).ne'
  simp only [sfuExp2, if_neg hm, hsmall, harg, Int.mul_ediv_cancel _ hone, Int.mul_emod_left, Int.toNat_zero, Bool.false_eq_true,
    if_false, if_true]

/-- The binary32 code of a whole number that is the exponent of a normal power of two stands for an argument of which exp2 is
exact. -/
theorem sfuExp2_of_code {n : Int} (hlo : -126 ≤ n) (hhi : n ≤ 127) :
    sfuExp2 (f32.decode (roundIeee (.fin (decide (n < 0)) n.natAbs 0) f32 .rne).1) = (.fin false 1 n, 0) := by
  by_cases h0 : n = 0
  · subst h0
    rfl
  have hm0 : n.natAbs ≠ 0 := by omega
  have hlen : bitLen n.natAbs ≤ 7 := bitLen_le (by omega)
  obtain ⟨h1, -⟩ := bitLen_bounds hm0
  obtain ⟨hge, hlt⟩ := significand_bounds hm0 (by omega)
  rw [roundIeee_f32_exact .rne _ hm0 (by omega) (by omega) (by omega), f32_decode_normal _ hge hlt (by omega) (by omega)]
  refine sfuExp2_of_int (by omega) (bitLen_eq (by decide) hge hlt) (by omega) ?_
  have hshift : shiftNat (n.natAbs * 2 ^ (24 - bitLen n.natAbs)) (0 + (bitLen n.natAbs : Int) - 24 + (fxBits : Int)) =
      n.natAbs * fxOne := by
    have hexp : 24 - bitLen n.natAbs + (0 + (bitLen n.natAbs : Int) - 24 + (fxBits : Int)).toNat = fxBits := by
      rw [fxBits]; omega
    rw [shiftNat, if_pos (by rw [fxBits]; omega), Nat.mul_assoc, ← pow_add, hexp, fxOne]
  rw [fxArg, hshift]
  push_cast
  by_cases hn : n < 0
  · rw [if_pos (decide_eq_true hn), abs_of_neg hn, neg_mul, neg_neg]
  · rw [if_neg (by simpa using hn), abs_of_nonneg (not_lt.1 hn)]

theorem f32_decode_pow {n : Int} (hlo : -126 ≤ n) (hhi : n ≤ 127) :
    f32.decode ((n + 127) * 2 ^ 23).toNat = .fin false (2 ^ 23) (n - 23) := by
  have hcode : ((n + 127) * 2 ^ 23).toNat = f32.withSign false (f32.magCode (2 ^ 23) (n - 23)) := by
    rw [f32_withSign, f32_magCode le_rfl, if_neg Bool.false_ne_true]
    omega
  rw [hcode, f32_decode_normal false le_rfl (by decide) (by omega) (by omega)]

theorem sfuRcp_inf (neg : Bool) : sfuRcp (.inf neg) = (.fin neg 0 0, 0) := by cases neg <;> rfl
theorem sfuRcp_zero (neg : Bool) (e : Int) : sfuRcp (.fin neg 0 e) = (.inf neg, fDZ) := by cases neg <;> rfl

theorem pow2Exp_significand (e : Int) : pow2Exp (2 ^ 23) e = some (e + 23) := by
  have hlen : bitLen (2 ^ 23) = 24 := bitLen_eq (by decide) le_rfl (by decide)
  rw [pow2Exp, hlen, if_pos rfl]
  congr 1
  omega

theorem sfuLog2_pow (e : Int) : sfuLog2 (.fin false (2 ^ 23) e) = (Num.ofInt (e + 23), 0) := by
  simp only [sfuLog2, sfuLogSpecial, pow2Exp_significand]
  rfl

theorem sfuLog_one : sfuLog (.fin false (2 ^ 23) (-23)) = (.fin false 0 0, 0) := by
  simp only [sfuLog, sfuLogSpecial, pow2Exp_significand]
  rfl

variable (hm : m ≠ 0)
include hm

/-- A negative number has no logarithm and no root. -/
theorem sfu_of_negative : sfuLog2 (.fin true m e) = (.nan, fNV) ∧ sfuLog (.fin true m e) = (.nan, fNV) ∧
    sfuRsq (.fin true m e) = (.nan, fNV) ∧ sfuSqrt (.fin true m e) = (.nan, fNV) := by
  simp only [sfuLog2, sfuLog, sfuLogSpecial, sfuRsq, sfuSqrt, if_neg hm, if_true, and_self]

end exact

/-! ### tanh (R101) -/

section tanh

variable {c : Nat} (up : Nat → Bool)

theorem sfuTanh_of_nan (h : 0x7F800000 < c % 2 ^ 31) : sfuTanh c up = (0x7FC00000, 0) := by
  simp only [sfuTanh, f32_decode_nan (c := c % 2 ^ 31) (by rwa [Nat.mod_mod])]
  rfl

theorem sfuTanh_of_inf (h : c % 2 ^ 31 = 0x7F800000) : sfuTanh c up = (c - c % 2 ^ 31 + 0x3F800000, 0) := by
  simp only [sfuTanh, f32_decode_inf (c := c % 2 ^ 31) (by rwa [Nat.mod_mod])]

theorem sfuTanh_of_zero (h : c % 2 ^ 31 = 0) : sfuTanh c up = (c, 0) := by
  simp only [sfuTanh, f32_decode_zero (c := c % 2 ^ 31) (by rwa [Nat.mod_mod]), if_true]

theorem sfuTanh_of_small (h0 : 0 < c % 2 ^ 31) (h : c % 2 ^ 31 ≤ 0x39800000) :
    sfuTanh c up = (c, if c % 2 ^ 31 < 0x800000 then fNX ||| fUF else fNX) := by
  obtain ⟨m, e, hdec, hm⟩ := f32_decode_fin (c := c % 2 ^ 31) (by rwa [Nat.mod_mod]) (by rw [Nat.mod_mod]; omega)
  simp only [sfuTanh, hdec, if_neg hm, if_pos h]
  by_cases hs : c % 2 ^ 31 < 0x800000
  · rw [if_pos hs, decide_eq_true hs]; rfl
  · rw [if_neg hs, decide_eq_false hs]; rfl

theorem sfuTanh_of_large (h0 : 0x41200000 ≤ c % 2 ^ 31) (h : c % 2 ^ 31 < 0x7F800000) :
    sfuTanh c up = (c - c % 2 ^ 31 + 0x3F800000, fNX) := by
  obtain ⟨m, e, hdec, hm⟩ := f32_decode_fin (c := c % 2 ^ 31) (by rw [Nat.mod_mod]; omega) (by rwa [Nat.mod_mod])
  simp only [sfuTanh, hdec, if_neg hm, if_pos h0, if_neg (show ¬c % 2 ^ 31 ≤ 0x39800000 by omega)]

end tanh

section ops

variable {a : RegVal} (ha : a.kind = 7)
include ha

theorem opSfu_ok (f : Num → SfuVal) (rm : Rm) : opSfu f rm a = .ok (f32Out rm (f (f32Val a))) := by
  simp only [opSfu, tagIf_f32 ha]; rfl

theorem opTanh_ok (up : Nat → Bool) :
    opTanh up a = .ok (f32Reg (BitVec.ofNat 32 (sfuTanh a.bits.toNat up).1) (sfuTanh a.bits.toNat up).2) := by
  simp only [opTanh, tagIf_f32 ha]; rfl

end ops

end Sys2Proof

namespace Sys2Proof.Machine

section sfu

variable {s : State} {r : TRef} {t : Thread} {g : Wg} {d a : Nat} {i : Instr} (h : Ready s r t g [a] [d]) (hacc : r.acc = false)
  (hk : (t.arch.reg a).kind = 7)
include h hacc hk

/-- A special function gives its value rounded once (R100). -/
theorem gives_sfu {f : Sys2Proof.Num → SfuVal} (hi : exec i s = laneV { reads := [a] } d (fun q => opSfu f q.rm (q.reg a)) s) :
    Gives i s r t d (f32Out t.arch.rm (f (f32Val (t.arch.reg a)))).1 (f32Out t.arch.rm (f (f32Val (t.arch.reg a)))).2 4 :=
  gives_of_laneV h hacc hi (opSfu_ok hk f _)

/-- The value of a special function at an operand that is known. -/
theorem gives_sfu_at {f : Sys2Proof.Num → SfuVal} {x : Sys2Proof.Num} {w : Word} {fl : FFlags}
    (hi : exec i s = laneV { reads := [a] } d (fun q => opSfu f q.rm (q.reg a)) s)
    (hx : f32Val (t.arch.reg a) = x) (hv : f32Out t.arch.rm (f x) = f32Reg w fl) :
    Gives i s r t d { bits := w, tag := tagF32 } fl 4 :=
  gives_of_laneV h hacc hi (by rw [opSfu_ok hk, hx, hv]; rfl)

theorem gives_tanh {c : Nat} {w : Word} {fl : FFlags} (hv : sfuTanh (t.arch.reg a).bits.toNat Config.tanhUp = (c, fl))
    (hw : BitVec.ofNat 32 c = w) : Gives (.tanh d a) s r t d { bits := w, tag := tagF32 } fl 4 :=
  gives_of_laneV h hacc (exec_tanh ..) (by rw [opTanh_ok hk, hv, hw]; rfl)

end sfu

/-- Settles O9: each function at the special inputs and the exact points, and its value rounded once everywhere. -/
theorem specialFunctions : Obligations.SpecialFunctions := by
  unfold Obligations.SpecialFunctions
  intro s r t g d a hacc h hk c mag neg signed after all
  have hneg : (c.toNat / 2 ^ 31 % 2 == 1) = neg := sign_of_word c
  have hself : BitVec.ofNat 32 c.toNat = c := (BitVec.ofNat_toNat ..).trans (BitVec.setWidth_eq _)
  have given := fun {i f x w fl} => gives_sfu_at (i := i) (f := f) (x := x) (w := w) (fl := fl) h hacc hk
  have rounded := fun {i f} => gives_sfu (i := i) (f := f) h hacc hk
  refine ⟨?completes, fun hnan => ?nan, fun hinf => ?infinite, fun hn h0 h1 => ?negative, fun h0 => ?zero, fun n hlo hhi => ?whole,
    fun hc => ?one, fun h0 h1 => gives_tanh h hacc hk (sfuTanh_of_small _ h0 h1) hself, fun h0 h1 => ?large, ?values⟩
  case completes =>
    exact ⟨⟨_, _, rounded (exec_exp2 ..)⟩, ⟨_, _, rounded (exec_exp ..)⟩, ⟨_, _, rounded (exec_log2 ..)⟩, ⟨_, _, rounded (exec_log ..)⟩,
      ⟨_, _, rounded (exec_rcp ..)⟩, ⟨_, _, rounded (exec_rsq ..)⟩, ⟨_, _, rounded (exec_sqrt ..)⟩, ⟨_, _, rounded (exec_sin ..)⟩,
      ⟨_, _, rounded (exec_cos ..)⟩, ⟨_, _, gives_tanh h hacc hk rfl rfl⟩, ⟨_, _, rounded (exec_sigm ..)⟩⟩
  case nan =>
    have hx : f32Val (t.arch.reg a) = .nan := f32_decode_nan hnan
    have hv := f32Out_nan t.arch.rm 0
    simp only [all, List.forall_mem_cons, List.not_mem_nil, false_imp_iff, implies_true, and_true]
    exact ⟨given (exec_exp2 ..) hx hv, given (exec_exp ..) hx hv, given (exec_log2 ..) hx hv, given (exec_log ..) hx hv,
      given (exec_rcp ..) hx hv, given (exec_rsq ..) hx hv, given (exec_sqrt ..) hx hv, given (exec_sin ..) hx hv,
      given (exec_cos ..) hx hv, gives_tanh h hacc hk (sfuTanh_of_nan _ hnan) rfl, given (exec_sigm ..) hx hv⟩
  case infinite =>
    have hx : f32Val (t.arch.reg a) = .inf neg := (f32_decode_inf hinf).trans (congrArg _ hneg)
    refine ⟨fun hn => ?pos, fun hn => ?neg, fun hn => ?pos', ?_, given (exec_sin ..) hx (f32Out_nan ..),
      given (exec_cos ..) hx (f32Out_nan ..), gives_tanh h hacc hk (sfuTanh_of_inf _ hinf) (ofNat_sign_add c)⟩
    case pos =>
      rw [hn] at hx
      have hv := f32Out_inf t.arch.rm 0 false
      simp only [List.forall_mem_cons, List.not_mem_nil, false_imp_iff, implies_true, and_true]
      exact ⟨given (exec_exp2 ..) hx hv, given (exec_exp ..) hx hv, given (exec_log2 ..) hx hv, given (exec_log ..) hx hv,
        given (exec_sqrt ..) hx hv⟩
    case neg =>
      rw [hn] at hx
      have hv := f32Out_zero t.arch.rm 0 false 0
      exact ⟨given (exec_exp2 ..) hx hv, given (exec_exp ..) hx hv, given (exec_sigm ..) hx hv⟩
    case pos' =>
      rw [hn] at hx
      exact ⟨given (exec_rsq ..) hx (f32Out_zero _ 0 false 0), given (exec_sigm ..) hx (f32Out_pow _ 0 (k := 0) (by decide) (by decide))⟩
    · exact given (exec_rcp ..) hx ((congrArg _ (sfuRcp_inf neg)).trans (f32Out_zero ..))
  case negative =>
    obtain ⟨x, hx, hlog2, hlog, hrsq, hsqrt⟩ : ∃ x, f32Val (t.arch.reg a) = x ∧ sfuLog2 x = (.nan, fNV) ∧ sfuLog x = (.nan, fNV) ∧
        sfuRsq x = (.nan, fNV) ∧ sfuSqrt x = (.nan, fNV) := by
      obtain h1 | h1 := h1.lt_or_eq
      · obtain ⟨m, e, hx, hm⟩ := f32_decode_fin h0 h1
        exact ⟨.fin true m e, hx.trans (by rw [hneg, hn]), sfu_of_negative hm⟩
      · exact ⟨.inf true, (f32_decode_inf h1).trans (by rw [hneg, hn]), rfl, rfl, rfl, rfl⟩
    have hv := f32Out_nan t.arch.rm fNV
    simp only [List.forall_mem_cons, List.not_mem_nil, false_imp_iff, implies_true, and_true]
    exact ⟨given (exec_log2 ..) hx (hlog2 ▸ hv), given (exec_log ..) hx (hlog ▸ hv), given (exec_rsq ..) hx (hrsq ▸ hv),
      given (exec_sqrt ..) hx (hsqrt ▸ hv)⟩
  case zero =>
    have hx : f32Val (t.arch.reg a) = .fin neg 0 (-149) := (f32_decode_zero h0).trans (by rw [hneg])
    have hzero : f32Out t.arch.rm (.fin neg 0 0, 0) = f32Reg c 0 := (f32Out_zero ..).trans (congrArg (f32Reg · 0) (word_of_zero h0))
    have hone := f32Out_pow t.arch.rm 0 (k := 0) (by decide) (by decide)
    have hdz := f32Out_inf t.arch.rm fDZ
    exact ⟨given (exec_exp2 ..) hx hone, given (exec_exp ..) hx hone, given (exec_log2 ..) hx (hdz true),
      given (exec_log ..) hx (hdz true), given (exec_rcp ..) hx ((congrArg _ (sfuRcp_zero neg _)).trans (hdz neg)),
      given (exec_rsq ..) hx (hdz neg), given (exec_sqrt ..) hx hzero, given (exec_sin ..) hx hzero, given (exec_cos ..) hx hone,
      gives_tanh h hacc hk (sfuTanh_of_zero _ h0) hself,
      given (exec_sigm ..) hx (f32Out_pow _ 0 (k := -1) (by decide) (by decide))⟩
  case whole =>
    intro code pow
    refine ⟨fun hc => ?_, fun hc => ?_⟩
    · obtain ⟨x, hx, hexp⟩ : ∃ x, f32Val (t.arch.reg a) = x ∧ sfuExp2 x = (.fin false 1 n, 0) :=
        ⟨_, congrArg f32.decode hc, sfuExp2_of_code hlo hhi⟩
      exact given (exec_exp2 ..) hx ((congrArg _ hexp).trans (f32Out_pow _ 0 hlo hhi))
    · have hx : f32Val (t.arch.reg a) = .fin false (2 ^ 23) (n - 23) := (congrArg f32.decode hc).trans (f32_decode_pow hlo hhi)
      have hlog : sfuLog2 (.fin false (2 ^ 23) (n - 23)) = (Num.ofInt n, 0) := by rw [sfuLog2_pow, sub_add_cancel]
      exact given (exec_log2 ..) hx ((congrArg _ hlog).trans (f32Out_ofInt _ (by omega)))
  case one =>
    have hx : f32Val (t.arch.reg a) = .fin false (2 ^ 23) (-23) := by
      rw [f32Val, show (t.arch.reg a).bits = 0x3F800000 from hc]
      exact f32_decode_pow (n := 0) (by decide) (by decide)
    exact given (exec_log ..) hx ((congrArg _ sfuLog_one).trans (f32Out_zero ..))
  case large => exact gives_tanh h hacc hk (sfuTanh_of_large _ h0 h1) (ofNat_sign_add c)
  case values =>
    exact ⟨rounded (exec_exp2 ..), rounded (exec_exp ..), rounded (exec_log2 ..), rounded (exec_log ..), rounded (exec_rcp ..),
      rounded (exec_rsq ..), rounded (exec_sqrt ..), rounded (exec_sin ..), rounded (exec_cos ..), rounded (exec_sigm ..),
      gives_tanh h hacc hk rfl rfl⟩

end Sys2Proof.Machine
end

section
/-! SUPPORT. What requests to other modules leave unchanged (22_fabric_host.md R338): they change the links and the partitions'
counters alone. -/

namespace Sys2Proof.Machine

/-- A request to another module changes nothing but the links and what the partitions count. -/
def State.FabOnly (s z : State) : Prop := ∃ f p, z = { s with fab := f, parts := p }

theorem State.FabOnly.refl (s : State) : s.FabOnly s := ⟨s.fab, s.parts, rfl⟩

theorem State.FabOnly.trans {s z y : State} (h : s.FabOnly z) (h' : z.FabOnly y) : s.FabOnly y := by
  obtain ⟨f, p, rfl⟩ := h
  obtain ⟨f', p', rfl⟩ := h'
  exact ⟨f', p', rfl⟩

theorem State.fabOnly_meterLink (s : State) (p n : Nat) : s.FabOnly (s.meterLink p n) := by
  unfold State.meterLink
  split
  · exact ⟨s.fab, _, rfl⟩
  · exact .refl s

theorem State.fabOnly_addRemote (s : State) (x : Remote) : s.FabOnly (s.addRemote x) := by
  unfold State.addRemote
  dsimp only
  generalize hs : ({ s with fab := _ } : State) = s1
  have h1 : s.FabOnly s1 := ⟨_, s.parts, hs.symm⟩
  have h2 := h1.trans (s1.fabOnly_meterLink x.part x.body.length)
  split
  · split
    · exact h2.trans ⟨_, _, rfl⟩
    · exact h2
  · exact h2.trans ⟨_, _, rfl⟩

/-- Sending a load to another module marks it as sent, and changes no thread, quadrant, workgroup or memory. -/
theorem State.sendLoad_frame (s : State) (l : PLoad) :
    (s.sendLoad l).threads = s.threads ∧ (s.sendLoad l).quads = s.quads ∧ (s.sendLoad l).wgs = s.wgs ∧
      (s.sendLoad l).mem = s.mem ∧ (s.sendLoad l).loads.map (·.id) = s.loads.map (·.id) := by
  unfold State.sendLoad
  split
  · exact ⟨rfl, rfl, rfl, rfl, rfl⟩
  · dsimp only [State.takeId]
    generalize hx : State.addRemote _ _ = z
    obtain ⟨f, p, rfl⟩ : State.FabOnly { s with nextId := s.nextId + 1 } z := hx ▸ State.fabOnly_addRemote ..
    refine ⟨rfl, rfl, rfl, rfl, ?_⟩
    simp only [List.map_map]
    refine List.map_congr_left fun x _ => ?_
    simp only [Function.comp_apply]
    split <;> rfl

end Sys2Proof.Machine
end

section
/-! PROOFS. Stalls and poison (07_execution.md R115, R117, 08_memory.md R141): an instruction that stalls issues nothing, and one
that reads a poisoned register takes its fault. -/

namespace Sys2Proof.Machine

variable {s : State} {r : TRef} {t : Thread} {g : Wg} {u : Use} {body : TRef → Thread → Wg → State → State}

/-- An instruction that passes the checks of R47 and stands in no guarded range is issued. -/
theorem State.lane_of_checked (hcur : s.cur = some r) (ht : s.thread r = some t) (hg : s.wg r.wg = some g)
    (hk : t.run.cmark = none) (hgu : t.run.guard = none) (hskip : t.skipping = false) (henc : u.encFault r t g = none) :
    s.lane u body = .next (s.act u body r t g) := by
  simp [State.lane, hcur, ht, hg, hk, hgu, hskip, henc]

/-- The loads that are sent out early change no thread, quadrant, workgroup or memory, and no load is gone. -/
theorem forEach_sendLoad_frame (l : List PLoad) (s : State) :
    let z := forEach (fun (s : State) l => s.sendLoad l) s l
    z.threads = s.threads ∧ z.quads = s.quads ∧ z.wgs = s.wgs ∧ z.mem = s.mem ∧ z.loads.map (·.id) = s.loads.map (·.id) := by
  induction l generalizing s with
  | nil => exact ⟨rfl, rfl, rfl, rfl, rfl⟩
  | cons x l ih =>
    obtain ⟨h1, h2, h3, h4, h5⟩ := s.sendLoad_frame x
    have hih := ih (s.sendLoad x)
    rwa [h1, h2, h3, h4, h5] at hih

theorem State.hurry_frame (s : State) (r : TRef) (t : Thread) :
    (s.hurry r t).threads = s.threads ∧ (s.hurry r t).quads = s.quads ∧ (s.hurry r t).wgs = s.wgs ∧
      (s.hurry r t).mem = s.mem ∧ (s.hurry r t).loads.map (·.id) = s.loads.map (·.id) := by
  unfold State.hurry
  dsimp only
  split
  · exact ⟨rfl, rfl, rfl, rfl, rfl⟩
  · generalize hz : s.readEarly r t = z
    obtain ⟨x, rfl⟩ : ∃ x, z = { s with scReads := x } := by
      rw [← hz]
      unfold State.readEarly
      split
      · exact ⟨s.scReads, rfl⟩
      · exact ⟨_, rfl⟩
    obtain ⟨h1, h2, h3, h4, h5⟩ := forEach_sendLoad_frame (s.loads.filter fun l => l.order && l.who == r && l.seq == t.seq)
      { s with scReads := x, loads := s.loads.map fun (l : PLoad) =>
          if l.order ∧ l.who = r ∧ l.seq = t.seq then { l with order := false, early := true } else l }
    refine ⟨h1, h2, h3, h4, h5.trans ?_⟩
    simp only [List.map_map]
    refine List.map_congr_left fun l _ => ?_
    simp only [Function.comp_apply]
    split <;> rfl

/-- A stall changes no thread and no memory, loses no load, and is counted (R115). -/
theorem State.stallRun_frame (s : State) (r : TRef) (t : Thread) :
    (s.stallRun r t).threads = s.threads ∧ (s.stallRun r t).mem = s.mem ∧
      (s.stallRun r t).loads.map (·.id) = s.loads.map (·.id) ∧
      ((s.stallRun r t).quad (s.quadOf r)).interlocks = (s.quad (s.quadOf r)).interlocks + 1 := by
  obtain ⟨hthreads, hquads, hwgs, hmem, hloads⟩ := s.hurry_frame r t
  have hq : (s.hurry r t).quadOf r = s.quadOf r := by simp [State.quadOf, State.wg, hwgs]
  refine ⟨hthreads, hmem, hloads, ?_⟩
  rw [State.stallRun, State.interlock, hq, State.quad_modQuad]
  simp [State.quad, hquads]

/-- A class whose counter is at its limit has no room (R117). -/
theorem Thread.full_of_limit (h : (u.cls = .loads ∧ t.loads = 15) ∨ (u.cls = .copies ∧ t.copies = 15) ∨
    (u.cls = .tiles ∧ t.tiles = 15) ∨ (u.cls = .stores ∧ t.stores + t.run.buffered = 15)) (hn : 1 ≤ u.counts) :
    t.full u.cls u.counts = true := by
  obtain ⟨hc, h⟩ | ⟨hc, h⟩ | ⟨hc, h⟩ | ⟨hc, h⟩ := h <;> rw [hc] <;> simp [Thread.full, Thread.counter, h] <;> omega

/-- Settles O14: the interlocks come first, then the poison of what the instruction reads, then its meaning. -/
theorem outstandingAndPoisonedRegisters : Obligations.OutstandingAndPoisonedRegisters := by
  unfold Obligations.OutstandingAndPoisonedRegisters
  refine ⟨fun s r t g u body hcur ht hg hk hgu hskip hs hp hb hwait hn => ?_,
    fun s r t g u body x f hcur ht hg hk hgu hskip hs hp hb hfree hroom => ⟨fun hx hpoison => ?_, fun hr _ _ => ?_, fun v => ?_⟩⟩
  · obtain ⟨hthreads, hmem, hloads, hinter⟩ := s.stallRun_frame r t
    refine ⟨_, ?_, rfl, hthreads, hmem, hloads, hinter⟩
    rw [State.lane_of_checked hcur ht hg hk hgu hskip (Use.encFault_none hs hp hb), State.act, if_pos]
    obtain ⟨y, hy, hbusy⟩ | hfull := hwait
    · have : u.regs.any (fun x => t.busy.contains x) = true := List.any_eq_true.2 ⟨y, hy, by simpa using hbusy⟩
      rw [this, Bool.true_or]
    · rw [Thread.full_of_limit hfull hn, Bool.or_true]
  · have hregs : u.regs.any (fun x => t.busy.contains x) = false := List.any_eq_false.2 fun y hy => by simpa using hfree y hy
    rw [State.lane_of_checked hcur ht hg hk hgu hskip (Use.encFault_none hs hp hb), State.act, hregs, hroom]
    simp [hx, Arch.poisonOf, hpoison]
  · rw [State.lane_of_checked hcur ht hg hk hgu hskip (Use.encFault_none hs hp hb), State.act_of_free hfree hroom (by simp [hr])]
  · simp [Arch.setReg]

end Sys2Proof.Machine
end

section
/-! SUPPORT. What becomes of threads that change their status (07_execution.md R112, R113): threads and quadrants change, and nothing
else of the module. -/

namespace Sys2Proof.Machine

/-- Nothing but threads and quadrants differs. -/
def State.ThreadsQuads (s z : State) : Prop := ∃ th qs, z = { s with threads := th, quads := qs }

theorem State.ThreadsQuads.refl (s : State) : s.ThreadsQuads s := ⟨s.threads, s.quads, rfl⟩

theorem State.ThreadsQuads.trans {s z y : State} (h : s.ThreadsQuads z) (h' : z.ThreadsQuads y) : s.ThreadsQuads y := by
  obtain ⟨a, b, rfl⟩ := h
  obtain ⟨a', b', rfl⟩ := h'
  exact ⟨a', b', rfl⟩

theorem State.threadsQuads_setThread (s : State) (r : TRef) (t : Thread) : s.ThreadsQuads (s.setThread r t) := ⟨_, _, rfl⟩

theorem State.threadsQuads_modThread (s : State) (r : TRef) (f : Thread → Thread) : s.ThreadsQuads (s.modThread r f) := by
  unfold State.modThread
  split
  · exact s.threadsQuads_setThread ..
  · exact .refl s

theorem State.threadsQuads_modQuad (s : State) (q : Nat) (f : Quad → Quad) : s.ThreadsQuads (s.modQuad q f) := ⟨_, _, rfl⟩

theorem State.threadsQuads_makeReady (s : State) (r : TRef) (v : Nat) : s.ThreadsQuads (s.makeReady r v) := by
  unfold State.makeReady
  dsimp only
  split
  · exact s.threadsQuads_modThread ..
  · exact (s.threadsQuads_modThread ..).trans (State.threadsQuads_modQuad ..)

theorem State.threadsQuads_tryReady (s : State) (r : TRef) : s.ThreadsQuads (s.tryReady r) := by
  unfold State.tryReady
  split
  case h_1 => exact .refl s
  case h_2 =>
    split
    case isTrue => exact .refl s
    case isFalse =>
      split
      case h_2 => exact .refl s
      case h_1 =>
        split
        case isFalse => exact .refl s
        case isTrue =>
          dsimp only
          split
          · exact (s.threadsQuads_setThread ..).trans (State.threadsQuads_makeReady ..)
          · exact s.threadsQuads_makeReady ..

theorem State.threadsQuads_uncount (s : State) (r : TRef) (c : Cls) : s.ThreadsQuads (s.uncount r c) :=
  (s.threadsQuads_modThread ..).trans (State.threadsQuads_tryReady ..)

theorem State.threadsQuads_refill (s : State) (q : Nat) : s.ThreadsQuads (s.refill q) := by
  unfold State.refill
  dsimp only
  split
  · exact .refl s
  · split
    · exact .refl s
    · exact ⟨_, _, rfl⟩

theorem State.threadsQuads_dropFromQuad (s : State) (r : TRef) : s.ThreadsQuads (s.dropFromQuad r) :=
  (s.threadsQuads_modQuad ..).trans (State.threadsQuads_refill ..)

theorem State.threadsQuads_wake (s : State) (r : TRef) : s.ThreadsQuads (s.wake r) := by
  unfold State.wake
  dsimp only
  split
  · exact s.threadsQuads_modThread ..
  · exact (s.threadsQuads_modThread ..).trans (State.threadsQuads_modQuad ..)

theorem State.threadsQuads_haltThread (s : State) (r : TRef) (f : Option FaultInfo) : s.ThreadsQuads (s.haltThread r f) :=
  (s.threadsQuads_dropFromQuad r).trans (State.threadsQuads_modThread ..)

theorem State.threadsQuads_proceed (s : State) (r : TRef) (post : TStatus) : s.ThreadsQuads (s.proceed r post) := by
  unfold State.proceed
  split
  case h_1 => exact .refl s
  case h_2 =>
    split
    case h_1 => exact s.threadsQuads_haltThread ..
    case h_2 =>
      split
      · exact s.threadsQuads_makeReady ..
      · exact (s.threadsQuads_modThread ..).trans (State.threadsQuads_tryReady ..)
      · exact (s.threadsQuads_modThread ..).trans (State.threadsQuads_modQuad ..)
      · exact s.threadsQuads_modThread ..

/-! ### The thread itself -/

variable {s : State} {r : TRef} {t : Thread}

theorem State.thread_makeReady_self (ht : s.thread r = some t) (v : Nat) :
    (s.makeReady r v).thread r = some { t with status := .ready (s.readyTime r) v } := by
  rw [State.thread_makeReady, State.modThread_of_some ht, State.thread_setThread]

theorem State.thread_makeReady_of_ne (s : State) {r q : TRef} (v : Nat) (h : q.key ≠ r.key) :
    (s.makeReady r v).thread q = s.thread q := by
  rw [State.thread_makeReady, State.thread_modThread_of_ne _ _ h]

/-- A thread past its run that does not exit proceeds. -/
theorem State.goOn_of_post {post : TStatus} (ht : s.thread r = some t) (hp : post ≠ .exited) : s.goOn r post = s.proceed r post := by
  simp [State.goOn, ht, hp]

/-- A run that has buffered nothing, and whose terminator does not exit, commits in one update, and its thread proceeds. -/
theorem State.endRun_of_plain_proceed (h : PlainRun s r t) (g : Wg) (next : Arch → Arch) {post : TStatus} (hp : post ≠ .exited) :
    s.endRun r t g next id post = (committed s r t next false).proceed r post := by
  have hx : (post == .exited) = false := by simpa using hp
  rw [State.endRun_of_plain h, hx, State.goOn_of_post (thread_committed ..) hp]

end Sys2Proof.Machine
end

section
/-! PROOFS. Where a thread goes whose run ends with wait or yield (07_execution.md R112, R127, R135). -/

namespace Sys2Proof.Machine

variable {s : State} {r : TRef} {t : Thread}

theorem Thread.trailerMet_iff {l st c ti : Nat} {aw : Option Nat} : t.trailerMet l st c ti aw = true ↔
    t.loads ≤ l ∧ t.stores ≤ st ∧ t.copies ≤ c ∧ t.tiles ≤ ti ∧ ∀ v, aw = some v → v ∉ t.busy := by
  cases aw <;> simp [Thread.trailerMet, and_assoc]

/-- A trailer's thread is ready exactly where its counts hold and, with STORES 0, its fences are performed (R135, R393). -/
theorem State.status_tryReady {l st c ti : Nat} {aw : Option Nat} (ht : s.thread r = some t) (hstop : t.stop = none)
    (hs : t.status = .trailer l st c ti aw) :
    ((s.tryReady r).thread r).map (·.status) =
      some (if t.trailerMet l st c ti aw && !(st == 0 && s.fencing r) then .ready (s.readyTime r) 0 else .trailer l st c ti aw) := by
  simp only [State.tryReady, ht, hstop, Option.isSome_none, Bool.false_eq_true, if_false, hs]
  split
  · split
    · rw [State.thread_makeReady_self (State.thread_setThread ..)]
      rfl
    · rw [State.thread_makeReady_self ht]
      rfl
  · simp [ht, hs]

/-- Past a wait, a thread is ready or waits as its trailer's counts say. -/
theorem State.status_proceed_trailer {l st c ti : Nat} {aw : Option Nat} (ht : s.thread r = some t) (hstop : t.stop = none) :
    ((s.proceed r (.trailer l st c ti aw)).thread r).map (·.status) =
      some (if t.trailerMet l st c ti aw && !(st == 0 && s.fencing r) then .ready (s.readyTime r) 0 else .trailer l st c ti aw) := by
  simp only [State.proceed, ht, hstop]
  rw [State.modThread_of_some ht]
  exact State.status_tryReady (t := { t with status := .trailer l st c ti aw }) (State.thread_setThread ..) hstop rfl

theorem State.proceed_yielded (ht : s.thread r = some t) (hstop : t.stop = none) :
    s.proceed r .yielded = (s.setThread r { t with status := .yielded }).modQuad (s.quadOf r) fun q =>
      { q with yields := q.yields ++ [{ who := r, recorded := q.readyThreads s.clock }] } := by
  simp [State.proceed, ht, hstop, State.modThread_of_some ht]

/-- Settles O20: the run commits in one update, and its thread has the terminator's status, or is ready where the trailer is met. -/
theorem waitAndYield : Obligations.WaitAndYield := by
  unfold Obligations.WaitAndYield
  intro s r t g l st c k aw hcur h _ next waits yields met
  have hwaits : waits = (committed s r t next false).proceed r (.trailer l st c k aw) := State.endRun_of_plain_proceed h g next nofun
  have hyields : yields = (committed s r t next false).proceed r .yielded := State.endRun_of_plain_proceed h g next nofun
  have ht := thread_committed s r t next false
  have hstatus := State.status_proceed_trailer (l := l) (st := st) (c := c) (ti := k) (aw := aw) ht h.stop
  have hmet : (t.trailerMet l st c k aw && !(st == 0 && s.fencing r)) = true ↔ met := by
    simp [Thread.trailerMet_iff, met, and_assoc, imp_iff_not_or]
  rw [State.readyTime, if_pos (show (committed s r t next false).cur = some r from hcur)] at hstatus
  refine ⟨fun hm => ?_, fun hm => ?_, ?_, ?_, ?_, ?_⟩
  · rw [hwaits]
    exact hstatus.trans (congrArg some (if_pos (hmet.2 hm)))
  · rw [hwaits]
    exact hstatus.trans (congrArg some (if_neg (mt hmet.1 hm)))
  · rw [hyields, State.proceed_yielded ht h.stop]
    simp
  · rw [hyields, State.proceed_yielded ht h.stop]
    refine ⟨{ who := r, recorded := _ }, ?_, rfl, rfl⟩
    have hq : (committed s r t next false).quadOf r = s.quadOf r := rfl
    rw [hq, State.quad_modQuad]
    exact List.mem_append_right _ (List.mem_singleton.2 rfl)
  · obtain ⟨th, qs, hz⟩ := (committed s r t next false).threadsQuads_proceed r (.trailer l st c k aw)
    rw [hwaits, hz]
    rfl
  · obtain ⟨th, qs, hz⟩ := (committed s r t next false).threadsQuads_proceed r .yielded
    rw [hyields, hz]
    rfl

end Sys2Proof.Machine
end

section
/-! PROOFS. Stores and atomics when issued (08_memory.md R159 to R164): what their addresses find, and what their run keeps for its
commit. -/

namespace Sys2Proof.Machine

variable {s : State} {r : TRef} {t : Thread} {g : Wg}

section gen

variable {d b size : Nat} {off : Int} {rel : Option Scope} (h : Accessing s r t g ([b, b + 1] ++ dataRegs d size) [] .stores)
include h

theorem storeGen_eq : storeGen d b off size rel s = .next (s.withReach r t (genAddr t.arch b off size) .store
    (s.reach r (genAddr t.arch b off size) size .store rel false) fun l =>
      (s.buffer r (.store l (dataBytes t.arch d size) .keep rel) (genAddr t.arch b off size)).pass r 4) :=
  State.lane_of_accessing (u := { reads := [b, b + 1] ++ dataRegs d size, cls := .stores }) h rfl rfl nofun rfl rfl

/-- A store through a generic address is buffered behind the reads that it follows, or has its address's fault or walk. -/
theorem storeGen_outcomes :
    let a := genAddr t.arch b off size
    (∀ l, s.reach r a size .store rel false = .ok l → storeGen d b off size rel s = .next (buffering s r t
      (.store l (dataBytes t.arch d size) .keep rel) (if rel.isSome then s.popsOf r ++ s.ownReads r else
        s.popsOf r ++ (t.acq ++ s.ownReadsAt r l (dataBytes t.arch d size).length)) a)) ∧
    (∀ f, s.reach r a size .store rel false = .fault f → storeGen d b off size rel s = .next (s.takeFault r f t.run.count)) ∧
    (s.reach r a size .store rel false = .miss → storeGen d b off size rel s = .next (s.startWalk r a .store)) := by
  refine ⟨fun l hl => ?_, fun f hf => ?_, fun hm => ?_⟩ <;> rw [storeGen_eq h]
  · rw [hl, State.withReach, State.buffer_eq h.thread]
    cases rel <;> rfl
  · rw [hf, State.withReach]
  · rw [hm, State.withReach]

end gen

section scr

variable {d b size : Nat} {off : Int} {f : FullOp} (h : Accessing s r t g ([b] ++ dataRegs d size) [] .stores)
include h

theorem storeScr_eq : storeScr d b off size f s = .next (s.withReach r t ((scrAddr t.arch b off).setWidth 64) .store
    (s.reachScratch r (scrAddr t.arch b off) size .store) fun l =>
      if f = .waitEmpty ∧ s.monitorRoom (s.coreOf r) 1 = false then s.stallRun r t
      else (s.buffer r (.store l (dataBytes t.arch d size) f none) ((scrAddr t.arch b off).setWidth 64)).pass r 4) :=
  State.lane_of_accessing (u := { reads := [b] ++ dataRegs d size, cls := .stores }) h rfl rfl nofun rfl rfl

/-- A store to a scratchpad address is buffered behind the reads that it follows, stalls where STS.WEF finds no room, or has its
address's fault. -/
theorem storeScr_outcomes :
    let w := scrAddr t.arch b off
    (∀ l, s.reachScratch r w size .store = .ok l → (f = .waitEmpty → s.monitorRoom (s.coreOf r) 1 = true) →
      storeScr d b off size f s = .next (buffering s r t (.store l (dataBytes t.arch d size) f none)
        (s.popsOf r ++ (t.acq ++ s.ownReadsAt r l (dataBytes t.arch d size).length)) (w.setWidth 64))) ∧
    (∀ l, s.reachScratch r w size .store = .ok l → f = .waitEmpty → s.monitorRoom (s.coreOf r) 1 = false →
      storeScr d b off size f s = .next (s.stallRun r t)) ∧
    (∀ e, s.reachScratch r w size .store = .fault e → storeScr d b off size f s = .next (s.takeFault r e t.run.count)) := by
  refine ⟨fun l hl hroom => ?_, fun l hl hf hroom => ?_, fun e he => ?_⟩ <;> rw [storeScr_eq h]
  · have hgo : ¬(f = .waitEmpty ∧ s.monitorRoom (s.coreOf r) 1 = false) := fun hx => by simp [hroom hx.1] at hx
    rw [hl, State.withReach, if_neg hgo, State.buffer_eq h.thread]
  · rw [hl, State.withReach, if_pos ⟨hf, hroom⟩]
  · rw [he, State.withReach]

end scr

/-- Settles O24: every form is a store through a generic or a scratchpad address. -/
theorem stores : Obligations.Stores := by
  unfold Obligations.Stores
  intro s r t g d b off sc bytes regs pops before gen scr
  have hgen : ∀ (i : Instr) (n : Nat) (rel : Option Scope), exec i s = storeGen d b off n rel s → gen i n rel := by
    intro i n rel hi h
    rw [hi]
    exact storeGen_outcomes h
  have hscr : ∀ (i : Instr) (n : Nat) (f : FullOp), exec i s = storeScr d b off n f s → scr i n f := by
    intro i n f hi h
    rw [hi]
    exact storeScr_outcomes h
  exact ⟨hgen _ _ _ rfl, hgen _ _ _ rfl, hgen _ _ _ rfl, hgen _ _ _ rfl, hgen _ _ _ rfl, hgen _ _ _ rfl, hscr _ _ _ rfl,
    hscr _ _ _ rfl, hscr _ _ _ rfl, hscr _ _ _ rfl, hscr _ _ _ rfl, hscr _ _ _ rfl, hscr _ _ _ rfl⟩

/-- A committing instruction whose address the TLB lacks starts a walk. -/
theorem commitForm_of_miss {u : Use} {f : TRef → Thread → Wg → State → Cap} {a : DWord} {k : Access}
    (h : Accessing s r t g u.reads u.writes u.cls u.counts) (hs : u.slice = .exec) (hn : u.names = [])
    (hp : u.priv = true → t.arch.sup = true) (he : u.ends = false) (hg : u.guards = false) (hf : f r t g s = .miss a k) :
    commitForm u f s = .next (s.startWalk r a k) := by
  rw [commitForm, State.lane_of_accessing (u := { u with commits := true }) h hs hn hp he hg, hf]
  rfl

/-- An atomic is captured with its operands and its place, or has its address's fault or walk. -/
theorem atom_outcomes {o : AtomOp} {sc : Scope} {d b v : Nat}
    (h : Accessing s r t g ([b, b + 1] ++ atomOperands o v) ((atomDests o d).map (·.reg)) .loads) :
    let a := t.arch.pair b
    (∀ l, s.reach r a o.size .atomic (some sc) false = .ok l → atom o sc d b v s = .next (captured s r t
      { op := .atom o sc, d := d, words := (atomOperands o v).map fun x => (t.arch.reg x).bits, loc := some l, addr := a,
        dests := (atomDests o d).map (·.reg), cls := .loads })) ∧
    (∀ f, s.reach r a o.size .atomic (some sc) false = .fault f → atom o sc d b v s = .next (s.takeFault r f t.run.count)) ∧
    (s.reach r a o.size .atomic (some sc) false = .miss → atom o sc d b v s = .next (s.startWalk r a .atomic)) := by
  refine ⟨fun l hl => ?_, fun f hf => ?_, fun hm => ?_⟩
  · exact commitForm_of_ok (u := { reads := _, writes := _, cls := .loads }) h rfl rfl nofun rfl rfl rfl (by simp only [hl])
  · exact commitForm_of_fault (u := { reads := _, writes := _, cls := .loads }) h rfl rfl nofun rfl rfl (by simp only [hf])
  · exact commitForm_of_miss (u := { reads := _, writes := _, cls := .loads }) h rfl rfl nofun rfl rfl (by simp only [hm])

/-- Settles O26: every form is an atomic with its operation's operands and destinations. -/
theorem atomicsWhenIssued : Obligations.AtomicsWhenIssued := by
  unfold Obligations.AtomicsWhenIssued
  intro s r t g sc d b v x a one
  have hone : ∀ (i : Instr) (o : AtomOp) (n : Nat), exec i s = atom o sc d b v s → ((List.range n).map fun j => v + j) = atomOperands o v →
      one i o o.size n ((atomDests o d).map (·.reg)) := by
    intro i o n hi hn h
    have hx : (List.range n).map x = (atomOperands o v).map fun k => (t.arch.reg k).bits := by rw [← hn, List.map_map]; rfl
    rw [hn] at h
    simp only [Captures, hi, hx]
    exact atom_outcomes h
  exact ⟨hone _ .add _ rfl rfl, hone _ .addb _ rfl rfl, hone _ .min _ rfl rfl, hone _ .max _ rfl rfl, hone _ .minn _ rfl rfl,
    hone _ .maxn _ rfl rfl, hone _ .and _ rfl rfl, hone _ .or _ rfl rfl, hone _ .xor _ rfl rfl, hone _ .swap _ rfl rfl,
    hone _ .cas _ rfl rfl, hone _ .maxsi _ rfl rfl, hone _ .fadd _ rfl rfl, hone _ .add64 _ rfl rfl, hone _ .swap64 _ rfl rfl,
    hone _ .cas64 _ rfl rfl⟩

end Sys2Proof.Machine
end

section
/-! SUPPORT. What performing a store or a cache form changes (08_memory.md R152, R154, R166) where no thread waits on a word. -/

namespace Sys2Proof.Machine

variable {s : State}

/-- The change kept for undoing is all that a note changes. -/
theorem State.note_eq (s : State) (run : Option Nat) (u : UndoItem) : ∃ l, s.note run u = { s with undo := l } := by
  unfold State.note
  split
  · exact ⟨s.undo, rfl⟩
  · exact ⟨_, rfl⟩

theorem State.setFull_eq (s : State) (run : Option Nat) (k : Nat) (b : Bool) : ∃ l, s.setFull run k b =
    { s with undo := l, full := if b then insNat (wordKey k) s.full else s.full.filter (· != wordKey k) } := by
  obtain ⟨l, hl⟩ := s.note_eq run (.full (wordKey k) (s.isFull (wordKey k)) b)
  exact ⟨l, by simp only [State.setFull, hl]⟩

theorem mem_insNat (k : Nat) (l : List Nat) : k ∈ insNat k l := by
  induction l with
  | nil => simp [insNat]
  | cons j l ih =>
    unfold insNat
    split
    · simp
    · split
      · simp [*]
      · simp [ih]

/-- A word whose bit has been set has that bit (R154). -/
theorem State.isFull_setFull (s : State) (run : Option Nat) (k : Nat) (b : Bool) : (s.setFull run k b).isFull k = b := by
  obtain ⟨l, hl⟩ := s.setFull_eq run k b
  rw [hl]
  cases b
  · simp [State.isFull]
  · simpa [State.isFull] using mem_insNat (wordKey k) s.full

theorem State.poke_eq (s : State) (run : Option Nat) (k : Nat) (b : Byte) :
    ∃ l, s.poke run k b = { s with undo := l, mem := Memory.write s.mem k b } := by
  obtain ⟨l, hl⟩ := s.note_eq run (.byte k (Memory.read s.mem k) b)
  exact ⟨l, by simp only [State.poke, hl]⟩

theorem State.clearMarks_eq (s : State) (run : Option Nat) (ks : List Nat) :
    ∃ l m, s.clearMarks run ks = { s with undo := l, poisoned := m } := by
  unfold State.clearMarks
  generalize (s.poisoned.filter fun c => isScratch c && (List.range 4).all fun i => ks.contains (c + i)) = gone
  induction gone generalizing s with
  | nil => exact ⟨s.undo, s.poisoned, rfl⟩
  | cons c gone ih =>
    obtain ⟨l, hl⟩ := s.note_eq run (.mark c)
    obtain ⟨l', m', h'⟩ := ih { s.note run (.mark c) with poisoned := s.poisoned.filter (· != c) }
    exact ⟨l', m', by rw [List.foldl_cons, h', hl]⟩

/-- Bytes written to scratchpad change memory, and the marks of the words that they cover (R331). -/
theorem State.pokes_eq (s : State) (run : Option Nat) (bs : List (Nat × Byte)) :
    ∃ l m, s.pokes run bs = { s with undo := l, poisoned := m, mem := putBytes s.mem bs } := by
  have hfold : ∀ (l : List (Nat × Byte)) (s : State), ∃ u, l.foldl (fun s b => s.poke run b.1 b.2) s =
      { s with undo := u, mem := putBytes s.mem l } := by
    intro l
    induction l with
    | nil => exact fun s => ⟨s.undo, rfl⟩
    | cons b l ih =>
      intro s
      obtain ⟨u, hu⟩ := s.poke_eq run b.1 b.2
      obtain ⟨u', hu'⟩ := ih (s.poke run b.1 b.2)
      exact ⟨u', by rw [List.foldl_cons, hu', hu]; rfl⟩
  obtain ⟨u, hu⟩ := hfold bs s
  obtain ⟨l, m, hc⟩ := (bs.foldl (fun s b => s.poke run b.1 b.2) s).clearMarks_eq run (bs.map (·.1))
  exact ⟨l, m, by rw [State.pokes, hc, hu]⟩

theorem State.l1Put_some_eq (s : State) (run : Option Nat) (core k : Nat) (c : L1Cell) :
    ∃ l, s.l1Put run core k (some c) = { s with undo := l, l1 := aput (l1Key core k) c s.l1 } := by
  obtain ⟨l, hl⟩ := s.note_eq run (.l1 core k ((alook (l1Key core k) s.l1).map fun c => (c.val, c.dirty, c.rel, c.due))
    (some (c.val, c.dirty, c.rel, c.due)))
  refine ⟨l, ?_⟩
  simp only [State.l1Put, Option.map_some]
  rw [hl]

theorem State.l1Put_none_eq (s : State) (run : Option Nat) (core k : Nat) :
    ∃ l, s.l1Put run core k none = { s with undo := l, l1 := adel (l1Key core k) s.l1 } := by
  obtain ⟨l, hl⟩ := s.note_eq run (.l1 core k ((alook (l1Key core k) s.l1).map fun c => (c.val, c.dirty, c.rel, c.due)) none)
  refine ⟨l, ?_⟩
  simp only [State.l1Put, Option.map_none]
  rw [hl]

/-- Dirty bytes put into an L1, one key after another. -/
def putCells (core rel due : Nat) (l : List (Nat × L1Cell)) (bs : List (Nat × Byte)) : List (Nat × L1Cell) :=
  bs.foldl (fun l b => aput (l1Key core b.1) { val := b.2, dirty := true, rel := rel, due := due } l) l

/-- A store within a core's L1 changes that L1 alone (R152). -/
theorem State.l1Store_idle (h : s.Idle) (run : Option Nat) (core rel due : Nat) (bs : List (Nat × Byte)) :
    ∃ u, s.l1Store run core rel due bs = { s with undo := u, l1 := putCells core rel due s.l1 bs } := by
  have hfold : ∀ (bs : List (Nat × Byte)) (s : State), ∃ u, bs.foldl (fun s b =>
      s.l1Put run core b.1 (some { val := b.2, dirty := true, rel := rel, due := due })) s =
      { s with undo := u, l1 := putCells core rel due s.l1 bs } := by
    intro bs
    induction bs with
    | nil => exact fun s => ⟨s.undo, rfl⟩
    | cons b bs ih =>
      intro s
      obtain ⟨u, hu⟩ := s.l1Put_some_eq run core b.1 { val := b.2, dirty := true, rel := rel, due := due }
      obtain ⟨u', hu'⟩ := ih (s.l1Put run core b.1 (some { val := b.2, dirty := true, rel := rel, due := due }))
      exact ⟨u', by rw [List.foldl_cons, hu', hu]; rfl⟩
  obtain ⟨u, hu⟩ := hfold bs s
  exact ⟨u, by rw [State.l1Store, hu]; exact State.monitorAll_idle (s := { s with undo := u, l1 := _ }) h _⟩

theorem alook_putCells_of_notMem {core rel due k : Nat} {l : List (Nat × L1Cell)} {bs : List (Nat × Byte)}
    (h : ∀ b ∈ bs, b.1 ≠ k) : alook (l1Key core k) (putCells core rel due l bs) = alook (l1Key core k) l := by
  induction bs generalizing l with
  | nil => rfl
  | cons b bs ih =>
    rw [List.forall_mem_cons] at h
    rw [putCells, List.foldl_cons]
    refine (ih h.2).trans (alook_aput_of_ne _ _ ?_)
    unfold l1Key
    omega

theorem le_of_mem_bytesAt {k : Nat} {bs : List Byte} {b : Nat × Byte} (h : b ∈ bytesAt k bs) : k ≤ b.1 := by
  obtain ⟨x, -, rfl⟩ := List.mem_map.1 h
  exact Nat.le_add_right ..

/-- Each byte of consecutive keys is there, dirty (R152). -/
theorem alook_putCells_bytesAt {core rel due k i : Nat} {l : List (Nat × L1Cell)} {bs : List Byte} {b : Byte} (h : bs[i]? = some b) :
    alook (l1Key core (k + i)) (putCells core rel due l (bytesAt k bs)) = some { val := b, dirty := true, rel := rel, due := due } := by
  induction bs generalizing l k i with
  | nil => simp at h
  | cons c bs ih =>
    rw [bytesAt_cons]
    cases i with
    | zero =>
      obtain rfl : c = b := by simpa using h
      refine (alook_putCells_of_notMem (l := aput _ _ l) fun x hx => ?_).trans (alook_aput_self ..)
      have := le_of_mem_bytesAt hx
      omega
    | succ i =>
      rw [show k + (i + 1) = k + 1 + i by omega]
      exact ih (by simpa using h)

/-- Dirty bytes that go home where no thread waits for them are a write back, and no more. -/
theorem State.writeBackAll_idle (h : s.Idle) (core : Nat) (line : Option Nat) : s.writeBackAll core line = s.writeBack core line :=
  State.monitorAll_idle (s := s.writeBack core line) h _

theorem State.wf_writeBack (core : Nat) (line : Option Nat) (h : Memory.wf s.mem) : Memory.wf (s.writeBack core line).mem :=
  State.wf_homeWrite _ h

/-- A release's earlier writes of its core go home; nothing waits, and memory keeps its form. -/
theorem State.releaseAt_idle (h : s.Idle) (core : Nat) (sc : Scope) :
    (s.releaseAt core sc).stores = s.stores ∧ (s.releaseAt core sc).waiters = s.waiters ∧
      (Memory.wf s.mem → Memory.wf (s.releaseAt core sc).mem) := by
  unfold State.releaseAt
  split
  · rw [State.writeBackAll_idle h]
    exact ⟨rfl, rfl, State.wf_writeBack core none⟩
  · exact ⟨rfl, rfl, id⟩

/-- The state in which a pending effect is pending no more. -/
def State.withoutStore (s : State) (p : PStore) : State := { s with stores := s.stores.filter fun (x : PStore) => x.id != p.id }

theorem State.idle_withoutStore (h : s.Idle) (p : PStore) : (s.withoutStore p).Idle :=
  ⟨h.1, fun q hq => h.2 q (List.mem_of_mem_filter hq)⟩

theorem State.pushRetry_idle (h : s.Idle) (r : TRef) : s.pushRetry r = s := State.monitorAll_idle h _

theorem State.mirrorFor_of_noLodges (h : s.lodges = []) (r : TRef) : s.mirrorFor r = s := by
  have : s.mirrored r = [] := by
    unfold State.mirrored
    split
    · rfl
    · simp [h]
  simp [State.mirrorFor, this]

/-- Where no thread waits, the end of a store or a cache form that is performed touches threads and quadrants alone (R117). -/
theorem State.performStore_idle {p : PStore} (hm : p.op.releases = true → s.lodges = []) {y : State}
    (hy : (∃ k bs f rel, p.op = .store (.key k) bs f rel ∧ (s.withoutStore p).storeHere p k bs f rel = y) ∨
      ∃ o l, p.op = .cache o l ∧ (s.withoutStore p).cacheHere p.core o l = y) (hidle : y.Idle) :
    y.ThreadsQuads (s.performStore p) := by
  have hmir : ∀ b : Bool, b = p.op.releases →
      (if b = true then (s.withoutStore p).mirrorFor p.who else s.withoutStore p) = s.withoutStore p := fun b hb => by
    split
    · next h => exact State.mirrorFor_of_noLodges (s := s.withoutStore p) (hm (hb ▸ h)) _
    · rfl
  have hend : s.performStore p = if p.counted then (y.pushRetry p.who).uncount p.who .stores else (y.pushRetry p.who).tryReady p.who := by
    obtain ⟨k, bs, f, rel, hop, rfl⟩ | ⟨o, l, hop, rfl⟩ := hy
    · conv_rhs => rw [← hmir (BufOp.store (.key k) bs f rel).releases (by rw [hop])]
      simp only [State.performStore, hop]
      rfl
    · conv_rhs => rw [← hmir (BufOp.cache o l).releases (by rw [hop])]
      simp only [State.performStore, hop]
      rfl
  rw [hend, State.pushRetry_idle hidle]
  split
  · exact y.threadsQuads_uncount ..
  · exact y.threadsQuads_tryReady ..

end Sys2Proof.Machine
end

section
/-! PROOFS. A store that performs (08_memory.md R117, R144, R150 to R155, R162) and a line written back and dropped (R166). -/

namespace Sys2Proof.Machine

variable {s : State} {p : PStore} {k : Nat} {bs : List Byte} {f : FullOp}

/-! ### Stores by their place -/

/-- A store to scratchpad that is no release writes its bytes, and its word's bit as its form says (R154, R162). -/
theorem State.storeHere_scratch (h : s.Idle) (hk : isScratch k = true) :
    let y := s.storeHere p k bs f none
    y.stores = s.stores ∧ y.waiters = s.waiters ∧ y.mem = Memory.writeN s.mem k bs ∧ (f = .keep → y.full = s.full) ∧
      (f = .setEmpty → y.isFull k = false) ∧ (f = .setFull ∨ f = .waitEmpty → y.isFull k = true) := by
  generalize hrun : (if p.op.inCore p.core then some p.run else none : Option Nat) = run
  obtain ⟨u, m, hpokes⟩ := s.pokes_eq run (bytesAt k bs)
  rw [putBytes_bytesAt] at hpokes
  have hidle : ∀ (b : Bool), ((s.pokes run (bytesAt k bs)).setFull run k b).Idle := fun b => by
    obtain ⟨l, hl⟩ := (s.pokes run (bytesAt k bs)).setFull_eq run k b
    rw [hl, hpokes]
    exact h
  have hset : ∀ (b : Bool), let y := (s.pokes run (bytesAt k bs)).setFull run k b
      y.stores = s.stores ∧ y.waiters = s.waiters ∧ y.mem = Memory.writeN s.mem k bs ∧ y.isFull k = b := fun b => by
    obtain ⟨l, hl⟩ := (s.pokes run (bytesAt k bs)).setFull_eq run k b
    refine ⟨?_, ?_, ?_, State.isFull_setFull ..⟩ <;> rw [hl, hpokes]
  cases f <;> simp only [State.storeHere, hk, hrun, if_true]
  case keep =>
    rw [State.monitorAll_idle (by rw [hpokes]; exact h), hpokes]
    simp
  case setFull => rw [State.monitorAll_idle (hidle true)]; obtain ⟨h1, h2, h3, h4⟩ := hset true; simp [h1, h2, h3, h4]
  case setEmpty => rw [State.monitorAll_idle (hidle false)]; obtain ⟨h1, h2, h3, h4⟩ := hset false; simp [h1, h2, h3, h4]
  case waitEmpty => rw [State.monitorAll_idle (hidle true)]; obtain ⟨h1, h2, h3, h4⟩ := hset true; simp [h1, h2, h3, h4]

/-- A store to a global address that is no release beyond WG scope changes its core's L1 alone (R152). -/
theorem State.storeHere_l1 (h : s.Idle) (hk : isScratch k = false) {rel : Option Scope} (hrel : ∀ sc, rel = some sc → sc.wide = false) :
    ∃ u, s.storeHere p k bs f rel = { s with undo := u, l1 := putCells p.core p.rel p.due s.l1 (bytesAt k bs) } := by
  obtain ⟨u, hu⟩ := State.l1Store_idle h (if p.op.inCore p.core then some p.run else none) p.core p.rel p.due (bytesAt k bs)
  refine ⟨u, hu ▸ ?_⟩
  cases rel with
  | none => simp [State.storeHere, hk]
  | some sc => simp [State.storeHere, hk, hrel sc rfl]

/-- A release beyond WG scope to a global address puts its bytes into memory (R144). -/
theorem State.storeHere_home (h : s.Idle) (hm : Memory.wf s.mem) (hk : isScratch k = false) {sc : Scope} (hsc : sc.wide = true) :
    let y := s.storeHere p k bs f (some sc)
    y.stores = s.stores ∧ y.waiters = s.waiters ∧ ∃ m, Memory.wf m ∧ y.mem = Memory.writeN m k bs := by
  obtain ⟨hstores, hwaiters, hwf⟩ := State.releaseAt_idle h p.core sc
  have hfold : ∀ (l : List (Byte × Nat)) (z : State), ∃ u l1, l.foldl (fun s b => s.l1Put none p.core (k + b.2) none) z =
      { z with undo := u, l1 := l1 } := by
    intro l
    induction l with
    | nil => exact fun z => ⟨z.undo, z.l1, rfl⟩
    | cons b l ih =>
      intro z
      obtain ⟨u, hu⟩ := z.l1Put_none_eq none p.core (k + b.2)
      obtain ⟨u', l1', hu'⟩ := ih (z.l1Put none p.core (k + b.2) none)
      exact ⟨u', l1', by rw [List.foldl_cons, hu', hu]⟩
  obtain ⟨u, l1, hl1⟩ := hfold bs.zipIdx (s.releaseAt p.core sc)
  have hidle : (s.releaseAt p.core sc).Idle := by
    unfold State.Idle
    rwa [hstores, hwaiters]
  simp only [State.storeHere, hk, hsc, if_true, Bool.false_eq_true, if_false, hl1, State.homeStore]
  rw [State.monitorAll_idle (by exact hidle)]
  exact ⟨hstores, hwaiters, _, hwf hm, putBytes_bytesAt ..⟩

/-- A release to scratchpad leaves the pending effects and the waiters that there are. -/
theorem State.storeHere_scratch_release (h : s.Idle) (hk : isScratch k = true) (sc : Scope) :
    (s.storeHere p k bs f (some sc)).stores = s.stores ∧ (s.storeHere p k bs f (some sc)).waiters = s.waiters := by
  obtain ⟨hstores, hwaiters, -⟩ := State.releaseAt_idle h p.core sc
  have hidle : (s.releaseAt p.core sc).Idle := by
    unfold State.Idle
    rwa [hstores, hwaiters]
  have hscr := State.storeHere_scratch (p := p) (bs := bs) (f := f) hidle hk
  have hsame : s.storeHere p k bs f (some sc) = (s.releaseAt p.core sc).storeHere p k bs f none := by
    simp only [State.storeHere, hk, if_true]
  rw [hsame, ← hstores, ← hwaiters]
  exact ⟨hscr.1, hscr.2.1⟩

/-- A store that is performed lets no pending effect go, and no waiter. -/
theorem State.storeHere_idle (h : s.Idle) (hm : Memory.wf s.mem) (rel : Option Scope) :
    (s.storeHere p k bs f rel).stores = s.stores ∧ (s.storeHere p k bs f rel).waiters = s.waiters := by
  cases hk : isScratch k with
  | true =>
    cases rel with
    | none => exact ⟨(State.storeHere_scratch h hk).1, (State.storeHere_scratch h hk).2.1⟩
    | some sc => exact State.storeHere_scratch_release h hk sc
  | false =>
    by_cases hsc : ∀ sc, rel = some sc → sc.wide = false
    · obtain ⟨u, hu⟩ := State.storeHere_l1 (p := p) (bs := bs) (f := f) h hk hsc
      rw [hu]
      exact ⟨rfl, rfl⟩
    · push Not at hsc
      obtain ⟨sc, rfl, hsc⟩ := hsc
      have hy := State.storeHere_home (p := p) (bs := bs) (f := f) h hm hk (by simpa using hsc)
      exact ⟨hy.1, hy.2.1⟩

/-! ### Notes -/

/-- A write that is noted goes to HBM, and no release beyond WG scope is (R150). -/
theorem PStore.noted_of_store {rel : Option Scope} (hop : p.op = .store (.key k) bs f rel) {x : Nat} (h : p.noted = some x) :
    x = k ∧ isHbm k = true ∧ ∀ sc, rel = some sc → sc.wide = false := by
  simp only [PStore.noted, hop, Option.ite_none_right_eq_some, Option.some.injEq, Bool.and_eq_true, Bool.or_eq_true] at h
  obtain ⟨⟨hhbm, hrel⟩, rfl⟩ := h
  refine ⟨rfl, hhbm, fun sc hsc => ?_⟩
  subst hsc
  obtain rfl : sc = .wg := by simpa using hrel
  rfl

theorem isScratch_of_isHbm (h : isHbm k = true) : isScratch k = false := by
  simp only [isHbm, decide_eq_true_eq] at h
  simp only [isScratch, Bool.or_eq_false_iff, Bool.and_eq_false_iff, decide_eq_false_iff_not]
  omega

/-- A line for which its slice has room is noted (R150). -/
theorem State.noteLine_of_room {core : Nat} (h : s.noteRoom core k = true) : ∃ l, s.noteLine core k = (true, { s with notes := l }) ∧
    ∃ n ∈ l, n.line = lineKey k ∧ n.core = core := by
  unfold State.noteLine
  by_cases hn : s.notes.any fun n => n.line == lineKey k && n.core == core
  · obtain ⟨n, hmem, hn'⟩ := List.any_eq_true.1 hn
    exact ⟨s.notes, by rw [if_pos hn], n, hmem, by simpa using hn'⟩
  · rw [if_neg hn, if_pos h]
    exact ⟨_, rfl, _, List.mem_append_right _ (List.mem_singleton.2 rfl), rfl, rfl⟩

/-- A store that may be performed is, its note sent first where it has one. -/
theorem State.perform_of_room (hroom : ∀ x, p.noted = some x → s.noteRoom p.core x = true) :
    ∃ l, s.perform p = ({ s with notes := l } : State).performStore p ∧
      ∀ x, p.noted = some x → ∃ n ∈ l, n.line = lineKey x ∧ n.core = p.core := by
  unfold State.perform
  cases hx : p.noted with
  | none => exact ⟨s.notes, rfl, nofun⟩
  | some x =>
    obtain ⟨l, hl, hn⟩ := State.noteLine_of_room (hroom x hx)
    refine ⟨l, by simp [hl], fun y hy => ?_⟩
    obtain rfl : x = y := by simpa using hy
    exact hn

/-! ### Lines written back -/

theorem mem_foldl_aput_isSome {α : Type} (v : α) (ks : List Nat) (l : List (Nat × α)) (k : Nat)
    (h : k ∈ ks ∨ (alook k l).isSome = true) : (alook k (ks.foldl (fun l k => aput k v l) l)).isSome = true := by
  induction ks generalizing l with
  | nil => simpa using h
  | cons j ks ih =>
    refine ih (aput j v l) ?_
    by_cases hj : k = j
    · exact .inr (by simp [hj])
    · rw [alook_aput_of_ne _ _ hj]
      simpa [hj] using h

theorem asorted_foldl_aput {α : Type} (v : α) (ks : List Nat) {l : List (Nat × α)} (h : asorted l) :
    asorted (ks.foldl (fun l k => aput k v l) l) := by
  induction ks generalizing l with
  | nil => exact h
  | cons j ks ih => exact ih (asorted_aput j v h)

/-- What a home slice holds, it holds after writes at home too. -/
theorem State.sliceHas_sliceWrite {ks : List Nat} (h : (k ∈ ks ∧ isHbm k = true) ∨ s.sliceHas k = true) :
    (s.sliceWrite ks).sliceHas k = true := by
  refine mem_foldl_aput_isSome true _ _ _ ?_
  obtain ⟨hk, hhbm⟩ | h := h
  · exact .inl (List.mem_dedup.2 (List.mem_map.2 ⟨k, List.mem_filter.2 ⟨hk, hhbm⟩, rfl⟩))
  · exact .inr h

/-- Backing memory is kept under lines that home slices hold, and only there. -/
def State.BackHeld (s : State) : Prop := ∀ b ∈ s.back, s.sliceHas b.1 = true

theorem State.backHeld_sliceWrite (h : s.BackHeld) (ks : List Nat) : (s.sliceWrite ks).BackHeld := by
  have hfold : ∀ (hs : List Nat) (l : List (Nat × Byte)), ∀ b ∈ hs.foldl (fun m k =>
      if (alook k m).isNone then aput k (Memory.read s.mem k) m else m) l, b ∈ l ∨ b.1 ∈ hs := by
    intro hs
    induction hs with
    | nil => exact fun l b hb => .inl hb
    | cons k hs ih =>
      intro l b hb
      obtain hb | hb := ih _ b hb
      · dsimp only at hb
        split at hb
        · obtain rfl | hb := mem_aput hb
          · exact .inr (List.mem_cons_self ..)
          · exact .inl hb
        · exact .inl hb
      · exact .inr (List.mem_cons_of_mem _ hb)
  intro b hb
  obtain hb | hb := hfold _ _ b hb
  · exact State.sliceHas_sliceWrite (.inr (h b hb))
  · exact State.sliceHas_sliceWrite (.inl (by simpa using hb))

theorem mem_of_alook {α : Type} {k : Nat} {v : α} {l : List (Nat × α)} (h : alook k l = some v) : (k, v) ∈ l := by
  induction l with
  | nil => simp at h
  | cons c l ih =>
    obtain ⟨j, w⟩ := c
    unfold alook at h
    split at h
    · simp_all
    · split at h
      · simp at h
      · exact List.mem_cons_of_mem _ (ih h)

/-- A line that has left its slice is in backing memory as every agent reads it (R166). -/
theorem State.backByte_dropLine (h : s.BackHeld) (k : Nat) {x : Nat} (hx : lineKey x = lineKey k) :
    (s.dropLine k true).backByte x = (s.dropLine k true).mem.read x := by
  have hnone : alook x (s.dropLine k true).back = none := by
    rw [Option.eq_none_iff_forall_ne_some]
    intro v hv
    have hmem := mem_of_alook hv
    unfold State.dropLine at hmem
    split at hmem
    · next hn => simpa [State.sliceHas, hx, hn] using h _ hmem
    · simp [hx] at hmem
  simp [State.backByte, hnone]

/-- A core's dirty bytes of a line written home, and its copies of the line dropped (R166). -/
def State.emptyLine (s : State) (core k : Nat) : State :=
  ((s.writeBack core (some (lineKey k))).dropClean core (some (lineKey k))).dropFetched core (some (lineKey k))

/-- The home slices see only that the bytes are written. -/
theorem State.emptyLine_frame (s : State) (core k : Nat) :
    let w := s.sliceWrite ((s.dirtyOf core (some (lineKey k))).map (·.1))
    (s.emptyLine core k).stores = s.stores ∧ (s.emptyLine core k).waiters = s.waiters ∧ (s.emptyLine core k).l2 = w.l2 ∧
      (s.emptyLine core k).back = w.back := by
  unfold State.emptyLine State.dropFetched State.dropClean State.writeBack State.homeWrite
  exact ⟨rfl, rfl, rfl, rfl⟩

theorem State.dropLine_frame (s : State) (k : Nat) (b : Bool) :
    (s.dropLine k b).stores = s.stores ∧ (s.dropLine k b).waiters = s.waiters := by
  unfold State.dropLine
  split <;> exact ⟨rfl, rfl⟩

/-- CWBINV, where no thread waits: no home slice holds its line any more, and backing memory has what the slice had (R166). -/
theorem State.cacheHere_cwbinv (h : s.Idle) (hl2 : asorted s.l2) (hback : s.BackHeld) (core k : Nat) :
    let y := s.cacheHere core .cwbinv (.key k)
    y.stores = s.stores ∧ y.waiters = s.waiters ∧ y.sliceHas k = false ∧ ∀ x, lineKey x = lineKey k → y.backByte x = y.mem.read x := by
  have hy : s.cacheHere core .cwbinv (.key k) = (s.emptyLine core k).dropLine k true := by
    simp [State.cacheHere, State.writeBackAll_idle h, State.emptyLine]
  obtain ⟨hstores, hwaiters, hl2', hback'⟩ := s.emptyLine_frame core k
  have hsorted : asorted (s.emptyLine core k).l2 := hl2' ▸ asorted_foldl_aput true _ hl2
  have hheld : (s.emptyLine core k).BackHeld := by
    have hw := State.backHeld_sliceWrite hback ((s.dirtyOf core (some (lineKey k))).map (·.1))
    simpa only [State.BackHeld, State.sliceHas, hl2', hback'] using hw
  obtain ⟨hdstores, hdwaiters⟩ := (s.emptyLine core k).dropLine_frame k true
  rw [hy]
  exact ⟨hdstores.trans hstores, hdwaiters.trans hwaiters, State.sliceHas_dropLine k true hsorted,
    fun x hx => State.backByte_dropLine hheld k hx⟩

/-! ### The step -/

/-- STORE_PERFORM tries the pending effect of its number. -/
theorem exec_storePerform_of_local {id : Nat} (hp : s.stores.find? (fun x => x.id == id && x.remote.isNone) = some p)
    (hop : (∃ o l, p.op = .cache o l) ∨ ∃ k bs f rel, p.op = .store (.key k) bs f rel) (hgone : s.storeGone p = false)
    (hready : s.storeReady p = true) : exec (.storePerform id false) s = .next (s.perform p) := by
  have htry : s.tryStore p = s.perform p := by simp [State.tryStore, hgone, hready]
  rw [exec_storePerform, execStorePerform, hp]
  obtain ⟨o, l, hop⟩ | ⟨k, bs, f, rel, hop⟩ := hop <;> simp [hop, htry]

/-- Settles O34: a cache form and each kind of store by its place, where no thread waits on a word. -/
theorem storesPerform : Obligations.StoresPerform := by
  unfold Obligations.StoresPerform
  refine ⟨fun s id p k hp hop hready hl2 hback hw hmon => ?_, fun s id p k bs f rel hp hop hready hgone hm hw hmon hlodges hroom => ?_⟩
  · have hidle : (s.withoutStore p).Idle := State.idle_withoutStore ⟨hw, hmon⟩ p
    obtain ⟨hstores, hwaiters, hslice, hbytes⟩ := State.cacheHere_cwbinv hidle hl2 hback p.core k
    have hgone : s.storeGone p = false := by simp [State.storeGone, hop]
    have hperform : s.perform p = s.performStore p := by simp [State.perform, PStore.noted, hop]
    have hlodges : p.op.releases = true → s.lodges = [] := by simp [hop, BufOp.releases]
    obtain ⟨th, qs, hz⟩ := State.performStore_idle hlodges (.inr ⟨_, _, hop, rfl⟩) ⟨hwaiters.trans hidle.1, hstores ▸ hidle.2⟩
    refine ⟨_, exec_storePerform_of_local hp (.inl ⟨_, _, hop⟩) hgone hready, ?_⟩
    rw [hperform, hz]
    exact ⟨hstores, hslice, hbytes⟩
  · obtain ⟨l, hperform, hnotes⟩ := State.perform_of_room hroom
    generalize hz0 : ({ s with notes := l } : State).withoutStore p = z at *
    have hidle : z.Idle := hz0 ▸ State.idle_withoutStore (s := { s with notes := l }) ⟨hw, hmon⟩ p
    have hmem : z.mem = s.mem := hz0 ▸ rfl
    have hfull : z.full = s.full := hz0 ▸ rfl
    have hzstores : z.stores = s.stores.filter (fun x => x.id != p.id) := hz0 ▸ rfl
    have hznotes : z.notes = l := hz0 ▸ rfl
    have hwf : Memory.wf z.mem := hmem ▸ hm
    obtain ⟨hstores, hwaiters⟩ := State.storeHere_idle (p := p) (k := k) (bs := bs) (f := f) hidle hwf rel
    obtain ⟨th, qs, hy⟩ := State.performStore_idle (s := { s with notes := l }) (fun _ => hlodges) (.inl ⟨_, _, _, _, hop, rfl⟩)
      (hz0 ▸ ⟨hwaiters.trans hidle.1, hstores ▸ hidle.2⟩)
    rw [hz0] at hy
    refine ⟨_, exec_storePerform_of_local hp (.inr ⟨_, _, _, _, hop⟩) hgone hready, ?_⟩
    rw [hperform, hy]
    refine ⟨hstores.trans hzstores, fun hk hrel => ?_, fun hk hrel => ?_, fun x hx => ?_, fun hk sc hrel hsc i b hb => ?_⟩
    · subst hrel
      obtain ⟨-, -, hymem, hkeep, hempty, hset⟩ := State.storeHere_scratch (p := p) (k := k) (bs := bs) (f := f) hidle hk
      rw [hmem] at hymem
      refine ⟨fun i b hb => ?_, fun a ha => ?_, fun hf => (hkeep hf).trans hfull, hempty, hset⟩
      · exact (congrArg (Memory.read · (k + i)) hymem).trans (Memory.read_writeN_self k bs hm hb)
      · exact (congrArg (Memory.read · a) hymem).trans (Memory.read_writeN_of_ne k bs hm ha)
    · subst hrel
      obtain ⟨u, hl1⟩ := State.storeHere_l1 (p := p) (k := k) (bs := bs) (f := f) (rel := none) hidle hk nofun
      rw [hl1]
      exact ⟨hmem, fun i b hb => alook_putCells_bytesAt hb⟩
    · obtain ⟨-, hhbm, hrel⟩ := PStore.noted_of_store hop hx
      obtain ⟨u, hl1⟩ := State.storeHere_l1 (p := p) (k := k) (bs := bs) (f := f) hidle (isScratch_of_isHbm hhbm) hrel
      rw [hl1]
      exact hznotes ▸ hnotes x hx
    · subst hrel
      obtain ⟨-, -, m, hmwf, hymem⟩ := State.storeHere_home (p := p) (k := k) (bs := bs) (f := f) hidle hwf hk hsc
      exact (congrArg (Memory.read · (k + i)) hymem).trans (Memory.read_writeN_self k bs hmwf hb)

end Sys2Proof.Machine
end

section
/-! PROOFS. Groups of execute and of access threads (07_execution.md R114, R127, 11_streamers.md R193, R194). -/

namespace Sys2Proof.Machine

variable {s : State} {r : TRef} {t : Thread} {g : Wg}

/-! ### Updates of one thread after another -/

/-- Changing the threads of a list, each to the same status, changes the threads whose keys it has, and no others. -/
theorem thread_forEach_modThread (f : Thread → Thread) (hf : ∀ t, f (f t) = f t) (rs : List TRef) (s : State) (q : TRef) :
    (forEach (fun (s : State) r => s.modThread r f) s rs).thread q =
      if ∃ x ∈ rs, x.key = q.key then (s.thread q).map f else s.thread q := by
  induction rs generalizing s with
  | nil => simp [forEach]
  | cons x rs ih =>
    change (forEach (fun (s : State) r => s.modThread r f) (s.modThread x f) rs).thread q = _
    rw [ih]
    by_cases hx : x.key = q.key
    · have hself : (s.modThread x f).thread q = (s.thread q).map f := by
        simpa only [State.thread, hx] using State.thread_modThread s x f
      rw [hself, Option.map_map, show f ∘ f = f from funext hf, ite_self, if_pos ⟨x, List.mem_cons_self .., hx⟩]
    · rw [State.thread_modThread_of_ne _ _ (Ne.symm hx)]
      simp [hx]

theorem State.threadsQuads_forEach {α : Type} (f : State → α → State) (hf : ∀ (s : State) x, s.ThreadsQuads (f s x)) (l : List α) (s : State) :
    s.ThreadsQuads (forEach f s l) := by
  induction l generalizing s with
  | nil => exact .refl s
  | cons x l ih => exact (hf s x).trans (ih (f s x))

theorem forEach_modQuad_threads (f : TRef → Quad → Quad) (q : Nat) (rs : List TRef) (s : State) :
    (forEach (fun (s : State) r => s.modQuad q (f r)) s rs).threads = s.threads := by
  induction rs generalizing s with
  | nil => rfl
  | cons x rs ih => exact ih (s.modQuad q (f x))

/-! ### Groups of execute threads (R114) -/

theorem mem_insertTid {x y : TRef} {l : List TRef} : y ∈ insertTid x l ↔ y = x ∨ y ∈ l := by
  induction l with
  | nil => simp [insertTid]
  | cons z l ih =>
    unfold insertTid
    split
    · simp
    · simp only [List.mem_cons, ih]
      tauto

theorem mem_byTid {y : TRef} {l : List TRef} : y ∈ byTid l ↔ y ∈ l := by
  induction l with
  | nil => simp [byTid]
  | cons x l ih => rw [show byTid (x :: l) = insertTid x (byTid l) from rfl, mem_insertTid, ih, List.mem_cons]

/-- A thread that issues has the status running, and nothing else of it changes. -/
def Thread.running (t : Thread) : Thread := { t with status := .running }

/-- The threads of a group that starts are running, and no other thread changes. -/
theorem State.thread_startGroup (s : State) (q : Nat) (rs : List TRef) (x : TRef) :
    (s.startGroup q rs).thread x = if ∃ y ∈ rs, y.key = x.key then (s.thread x).map Thread.running else s.thread x := by
  have hdrop : ∀ z : TRef, (forEach (fun (s : State) r => s.modQuad q fun x => x.drop r) s (byTid rs)).thread z = s.thread z :=
    fun z => by simp only [State.thread, forEach_modQuad_threads fun r x => x.drop r]
  have hmem : (∃ y ∈ byTid rs, y.key = x.key) ↔ ∃ y ∈ rs, y.key = x.key := by simp only [mem_byTid]
  unfold State.startGroup
  dsimp only
  rw [State.thread_modQuad, State.thread_refill]
  exact (thread_forEach_modThread Thread.running (fun _ => rfl) _ _ x).trans (by simp only [hdrop, hmem])

theorem State.quad_startGroup (s : State) (q : Nat) (rs : List TRef) :
    ((s.startGroup q rs).quad q).active = some { todo := byTid rs, done := [], waitX := [] } := by
  unfold State.startGroup
  dsimp only
  rw [State.quad_modQuad]

theorem State.threadsQuads_startGroup (s : State) (q : Nat) (rs : List TRef) : s.ThreadsQuads (s.startGroup q rs) := by
  unfold State.startGroup
  dsimp only
  refine State.ThreadsQuads.trans ?_ (State.threadsQuads_modQuad ..)
  refine State.ThreadsQuads.trans ?_ (State.threadsQuads_refill ..)
  exact (State.threadsQuads_forEach _ (fun s r => s.threadsQuads_modQuad q _) _ s).trans
    (State.threadsQuads_forEach _ (fun s r => s.threadsQuads_modThread r _) _ _)

/-- What starting a group does, as R114 has it. -/
theorem State.startGroup_issued (s : State) (q : Nat) (rs : List TRef) :
    ((s.startGroup q rs).quad q).active = some { todo := byTid rs, done := [], waitX := [] } ∧ (s.startGroup q rs).mem = s.mem ∧
      (∀ r ∈ rs, ∀ t, s.thread r = some t → (s.startGroup q rs).thread r = some { t with status := .running }) ∧
      ∀ r : TRef, (∀ x ∈ rs, x.key ≠ r.key) → (s.startGroup q rs).thread r = s.thread r := by
  obtain ⟨th, qs, hz⟩ := s.threadsQuads_startGroup q rs
  refine ⟨s.quad_startGroup q rs, by rw [hz], fun r hr t ht => ?_, fun r hr => ?_⟩
  · rw [State.thread_startGroup, if_pos ⟨r, hr, rfl⟩, ht]
    rfl
  · rw [State.thread_startGroup, if_neg]
    rintro ⟨x, hx, hk⟩
    exact hr x hx hk

/-- YIELD_READY for a thread whose recorded threads are gone (R127). -/
theorem exec_yieldReady_of_done {q : Nat} {y : Yield} (hg : s.wg r.wg = some g) (hq : g.quad = q) (hp : g.preempting = false)
    (ht : s.thread r = some t) (hacc : r.acc = false) (hcur : s.cur = none)
    (hy : (s.quad q).yields.find? (fun y => y.who == r) = some y) (hrec : y.recorded = []) :
    ∃ s', exec (.yieldReady r.wg r.tid) s = .next s' ∧ s'.thread r = some { t with status := .ready s.clock 0 } ∧
      (∀ z ∈ (s'.quad q).yields, z.who ≠ r) ∧ s'.mem = s.mem := by
  have hr : ({ wg := r.wg, tid := r.tid } : TRef) = r := by rw [← hacc]
  have hquad : s.quadOf r = q := by simp [State.quadOf, hg, hq]
  generalize hz : s.modQuad q (fun q => { q with yields := q.yields.filter fun y => y.who != r }) = z
  have hzt : z.thread r = some t := by rw [← hz, State.thread_modQuad, ht]
  have hzy : ∀ y ∈ (z.quad q).yields, y.who ≠ r := by simp [← hz]
  have hzq : z.quadOf r = q := by rw [← hz, State.quadOf_modQuad, hquad]
  refine ⟨z.makeReady r 0, ?_, ?_, ?_, ?_⟩
  · rw [exec_yieldReady, execYieldReady, hr, hquad, hy]
    simp [hrec, hg, hp, hz]
  · rw [State.thread_makeReady_self hzt, State.readyTime, if_neg (by rw [← hz, State.modQuad_cur, hcur]; nofun), ← hz,
      State.modQuad_clock]
  · unfold State.makeReady
    dsimp only
    split
    · simpa [State.quad, State.modThread_quads] using hzy
    · rw [State.quadOf_modThread, hzq, State.quad_modQuad]
      simpa [State.quad, State.modThread_quads] using hzy
  · rw [State.makeReady_mem, ← hz, State.modQuad_mem]

/-! ### Access threads (R193, R194) -/

theorem TRef.ofKey_key (h : r.tid < 512) : TRef.ofKey r.key = r := by
  obtain ⟨w, i, a⟩ := r
  simp only at h
  cases a <;> simp only [TRef.ofKey, TRef.key, TRef.mk.injEq] <;> simp <;> omega

theorem TRef.ofKey_injective {j k : Nat} (h : TRef.ofKey j = TRef.ofKey k) : j = k := by
  simp only [TRef.ofKey, TRef.mk.injEq] at h
  obtain ⟨h1, h2, h3⟩ := h
  have h4 : j % 2 = 1 ↔ k % 2 = 1 := by simpa using h3
  omega

/-- In a map in rising order, a test that only the entry of one key passes leaves that entry. -/
theorem filter_of_asorted {α : Type} {p : Nat × α → Bool} {k : Nat} {v : α} {l : List (Nat × α)} (h : asorted l)
    (hk : alook k l = some v) (hp : p (k, v) = true) (hn : ∀ c ∈ l, c.1 ≠ k → p c = false) : l.filter p = [(k, v)] := by
  induction l with
  | nil => simp at hk
  | cons c l ih =>
    obtain ⟨j, w⟩ := c
    obtain ⟨hlt, hl⟩ := List.pairwise_cons.1 h
    by_cases hj : j = k
    · subst hj
      obtain rfl : w = v := by simpa [alook] using hk
      have hrest : l.filter p = [] := List.filter_eq_nil_iff.2 fun c hc => by
        simp [hn c (List.mem_cons_of_mem _ hc) (Nat.ne_of_gt (hlt c hc))]
      rw [List.filter_cons_of_pos hp, hrest]
    · have htail : alook k l = some v := by
        simp only [alook, hj, if_false] at hk
        split at hk
        · simp at hk
        · exact hk
      rw [List.filter_cons_of_neg (by simp [hn (j, w) (List.mem_cons_self ..) hj])]
      exact ih hl htail fun c hc => hn c (List.mem_cons_of_mem _ hc)

/-- The only ready access thread of a lane set is what its quadrant's access engine finds (R193). -/
theorem State.readyAccess_eq (ht : s.thread r = some t) (hacc : r.acc = true) (htid : r.tid < 512) (hsort : asorted s.threads)
    {p : TRef × Thread → Bool} (hp : p (r, t) = true)
    (hothers : ∀ x ∈ s.threadsOf r.wg, x.1 ≠ r → p x = false) : (s.threadsOf r.wg).filter p = [(r, t)] := by
  have hkey : r.key / 1024 = r.wg := by
    simp only [TRef.key, hacc, if_true]
    omega
  have hmem : ∀ c ∈ s.threads, c.1 / 1024 = r.wg → (TRef.ofKey c.1, c.2) ∈ s.threadsOf r.wg := fun c hc hw =>
    List.mem_map.2 ⟨c, List.mem_filter.2 ⟨hc, by simpa using hw⟩, rfl⟩
  have hone : (s.threads.filter fun x => p (TRef.ofKey x.1, x.2) && x.1 / 1024 == r.wg) = [(r.key, t)] := by
    refine filter_of_asorted hsort ht (by simp [TRef.ofKey_key htid, hp, hkey]) fun c hc hne => ?_
    by_cases hw : c.1 / 1024 = r.wg
    · simp [hothers _ (hmem c hc hw) fun he => hne (TRef.ofKey_injective (he.trans (TRef.ofKey_key htid).symm))]
    · simp [hw]
  rw [State.threadsOf, List.filter_map, List.filter_filter]
  exact (congrArg (List.map fun x : Nat × Thread => (TRef.ofKey x.1, x.2)) hone).trans (by simp [TRef.ofKey_key htid])

/-- ACCESS_GROUP_ISSUE for the one ready access thread of a lane set (R193). -/
theorem exec_accessGroupIssue_of_one (hg : s.wg r.wg = some g) (ht : s.thread r = some t) (hacc : r.acc = true) (htid : r.tid < 512)
    (hidle : (s.quad g.quad).acc = none) (hs : g.saved = false) (hp : g.preempting = false) (hst : g.started = true)
    (hr : ∃ at' v, t.status = .ready at' v) (hsort : asorted s.threads)
    (hothers : ∀ x ∈ s.threadsOf r.wg, x.1.acc = true → x.1.tid / 32 = r.tid / 32 → x.1 ≠ r →
      x.2.status ≠ .woken ∧ ∀ at' v, x.2.status ≠ .ready at' v) :
    ∃ s', exec (.accessGroupIssue g.quad r.wg (r.tid / 32)) s = .next s' ∧ s'.thread r = some { t with status := .running } ∧
      (s'.quad g.quad).acc = some { todo := [r], done := [], waitX := [] } ∧ s'.mem = s.mem := by
  obtain ⟨at', v, hr⟩ := hr
  obtain ⟨th, qs, hz⟩ := (s.threadsQuads_dropFromQuad r).trans
    ((s.dropFromQuad r).threadsQuads_modThread r fun t => { t with status := .running })
  refine ⟨(((s.dropFromQuad r).modThread r fun t => { t with status := .running }).modQuad g.quad fun y =>
    { y with acc := some { todo := [r], done := [], waitX := [] } }), ?_, ?_, ?_, ?_⟩
  · rw [exec_accessGroupIssue, execAccessGroupIssue, hg]
    simp only [hidle, hs, hp, hst, Option.isSome_none, bne_self_eq_false, Bool.not_true, Bool.or_self, Bool.false_eq_true, if_false]
    rw [State.readyAccess_eq ht hacc htid hsort]
    · simp [forEach]
    · simp [hacc, hr]
    · intro x hx hne
      by_cases ha : x.1.acc = true ∧ x.1.tid / 32 = r.tid / 32
      · obtain ⟨hw, hn⟩ := hothers x hx ha.1 ha.2 hne
        cases hst : x.2.status <;> simp_all
      · exact Bool.and_eq_false_iff.2 (.inl (by simpa using ha))
  · rw [State.thread_modQuad, State.thread_modThread, State.thread_dropFromQuad, ht]
    rfl
  · rw [State.quad_modQuad]
  · rw [State.modQuad_mem, hz]

/-- A read of one word puts it into the place that it took (R194). -/
theorem fillWords_one (id : Nat) (w : Word) : fillWords id [w] [(none, id)] = ([(some w, id)], []) := by
  simp [fillWords]

/-- The word of a read goes to the one operand queue of its thread that has entries. -/
theorem State.aloadFill_one {q id : Nat} {w : Word} (hg : s.wg r.wg = some g) (hq : q < 4)
    (hmine : alook (oqKey r.tid q) g.oq = some [(none, id)]) (hothers : ∀ p < 4, p ≠ q → alook (oqKey r.tid p) g.oq = none) :
    ∃ f, s.aloadFill r id [w] =
      (s.modWg r.wg fun g' => { g' with oq := aput (oqKey r.tid q) [(some w, id)] g.oq }).modThread r f := by
  have hafter : ∀ p < 4, p ≠ q → alook (oqKey r.tid p) (aput (oqKey r.tid q) [(some w, id)] g.oq) = none := fun p hp h => by
    rw [alook_aput_of_ne _ _ (by unfold oqKey; omega), hothers p hp h]
  unfold State.aloadFill
  simp only [hg, show List.range 4 = [0, 1, 2, 3] from rfl, List.map_cons, List.map_nil, List.foldl_cons, List.foldl_nil]
  obtain rfl | rfl | rfl | rfl : q = 0 ∨ q = 1 ∨ q = 2 ∨ q = 3 := by omega
  all_goals
    simp only [hmine, fillWords_one, hothers, hafter, ne_eq, Nat.reduceLT, Nat.reduceEqDiff, not_false_eq_true]
    exact ⟨_, rfl⟩

theorem State.wg_modWg_self (hg : s.wg r.wg = some g) (f : Wg → Wg) : (s.modWg r.wg f).wg r.wg = some (f g) := by
  have hg' : alook r.wg s.wgs = some g := hg
  simp [State.modWg, State.wg, hg']

/-- ALOAD_RETURN of one word that is there (R194). -/
theorem exec_aloadReturn_of_word {id k q : Nat} {l : PLoad} (hg : s.wg r.wg = some g)
    (hl : s.loads.find? (fun l => l.id == id && l.who.acc) = some l) (hwho : l.who = r) (hloc : l.loc = .key k) (hlen : l.len = 4)
    (hgood : (s.loadBytes l).2 = false) (hq : q < 4) (hgone : s.loadGone l = false) (hwaits : s.loadWaits l = false)
    (hmine : alook (oqKey r.tid q) g.oq = some [(none, id)]) (hothers : ∀ p < 4, p ≠ q → alook (oqKey r.tid p) g.oq = none) :
    ∃ s' g', exec (.aloadReturn id false) s = .next s' ∧ s'.wg r.wg = some g' ∧
      alook (oqKey r.tid q) g'.oq = some [(some (BitVec.ofNat 32 (leNat ((s.loadBytes l).1.take 4))), id)] ∧
      s'.loads = s.loads.filter (fun x => x.id != id) ∧ s'.mem = s.mem := by
  generalize hw : BitVec.ofNat 32 (leNat ((s.loadBytes l).1.take 4)) = w
  generalize hz : ({ s with loads := s.loads.filter fun x => x.id != id } : State) = z
  have hzg : z.wg r.wg = some g := by rw [← hz]; exact hg
  obtain ⟨f, hf⟩ := State.aloadFill_one (w := w) hzg hq hmine hothers
  refine ⟨z.aloadFill r id [w], { g with oq := aput (oqKey r.tid q) [(some w, id)] g.oq }, ?_, ?_, alook_aput_self .., ?_, ?_⟩
  · rw [exec_aloadReturn, execAloadReturn, hl]
    simp [hloc, hgone, hwaits, hgood, hlen, hwho, hz, hw]
  · rw [hf, State.wg_modThread, State.wg_modWg_self hzg]
  · rw [hf, State.modThread_loads, State.modWg_loads, ← hz]
  · rw [hf, State.modThread_mem, State.modWg_mem, ← hz]

/-- Settles O46: each step by its one case. -/
theorem groupsAndAccessThreads : Obligations.GroupsAndAccessThreads := by
  unfold Obligations.GroupsAndAccessThreads
  refine ⟨fun s q hactive => ⟨fun hwait => ?_, fun x hslot hgated hx => ?_, fun hslot hgated hx => ⟨fun hbins => ?_, fun b hb => ?_⟩,
    fun r t g y hg hq hp ht hacc hcur hy hrec => exec_yieldReady_of_done hg hq hp ht hacc hcur hy hrec⟩,
    fun s r t g hg ht hacc htid => ⟨fun hidle hs hp hst hr hsort hothers =>
      exec_accessGroupIssue_of_one hg ht hacc htid hidle hs hp hst hr hsort hothers,
    fun id k q l hl hwho hloc hlen hgood hid hq hgone hwaits hmine hothers =>
      exec_aloadReturn_of_word hg hl hwho hloc hlen hgood hq hgone hwaits hmine hothers⟩⟩
  all_goals rw [exec_issueGroupSelect, execIssueGroupSelect]
  · have : decide (s.clock < (s.quad q).slot) || s.sys.power.gated = true := by simpa using hwait
    simp_all
  · refine ⟨_, ?_, s.startGroup_issued q x.2⟩
    simp [hactive, hslot, hgated, hx]
  · simp only [hactive, hgated, hx]
    rw [hbins]
    simp [selectBin, pick]
  · refine ⟨_, ?_, s.startGroup_issued q (b.2.members.map (·.1))⟩
    simp only [hactive, hgated, hx]
    rw [hb]
    simp [hslot]

end Sys2Proof.Machine
end

section
/-! SUPPORT. Meetings and workgroups that have nothing to settle (07_execution.md R128 to R130), and what the end of a thread leaves
unchanged. -/

namespace Sys2Proof.Machine

variable {s : State} {r : TRef} {t : Thread} {w : Nat}

/-- No thread of a workgroup is held at a meeting. -/
def State.NoneHeld (s : State) (w : Nat) : Prop := ∀ c ∈ s.threads, c.1 / 1024 = w → ∀ m x, c.2.status ≠ .held m x

theorem State.openMeetings_eq_nil_iff : s.openMeetings w = [] ↔ s.NoneHeld w := by
  unfold State.openMeetings State.NoneHeld
  rw [List.dedup_eq_nil, List.filterMap_eq_nil_iff]
  simp only [State.threadsOf, List.forall_mem_map, List.mem_filter, beq_iff_eq, and_imp]
  refine forall₃_congr fun c _ _ => ?_
  cases c.2.status <;> simp

/-- Where no thread is held, no meeting takes place. -/
theorem State.meetings_of_noneHeld (h : s.NoneHeld w) : s.meetings w = s := by
  rw [State.meetings, State.openMeetings_eq_nil_iff.2 h]
  rfl

theorem State.NoneHeld.setThread (h : s.NoneHeld w) (r : TRef) (ht : ∀ m x, t.status ≠ .held m x) : (s.setThread r t).NoneHeld w := by
  intro c hc hw
  obtain rfl | hc := mem_aput hc
  · exact ht
  · exact h c hc hw

theorem State.NoneHeld.modThread (h : s.NoneHeld w) (r : TRef) {f : Thread → Thread} (hf : ∀ t m x, (f t).status ≠ .held m x) :
    (s.modThread r f).NoneHeld w := by
  unfold State.modThread
  split
  · exact h.setThread r (hf _)
  · exact h

theorem State.NoneHeld.of_threads {z : State} (h : s.NoneHeld w) (hz : z.threads = s.threads) : z.NoneHeld w := by
  unfold State.NoneHeld
  rwa [hz]

theorem TRef.key_div (h : r.tid < 512) : r.key / 1024 = r.wg := by
  unfold TRef.key
  split <;> omega

/-- A workgroup with an execute thread that has not exited does not end (R108, R128). -/
theorem State.settleWg_of_live (ht : s.thread r = some t) (htid : r.tid < 512) (hacc : r.acc = false) (hlive : t.status ≠ .exited) :
    s.settleWg r.wg = s := by
  have hmem : (r, t) ∈ s.threadsOf r.wg := by
    refine List.mem_map.2 ⟨(r.key, t), List.mem_filter.2 ⟨mem_of_alook ht, by simpa using TRef.key_div htid⟩, ?_⟩
    rw [TRef.ofKey_key htid]
  have hall : ((s.threadsOf r.wg).all fun x => x.1.acc || x.2.status = .exited) = false :=
    List.all_eq_false.2 ⟨_, hmem, by simp [hacc, hlive]⟩
  unfold State.settleWg
  split
  · rfl
  · rw [if_neg (by rw [hall]; simp)]

/-! ### The end of a thread (R128) -/

/-- What the end of a thread leaves of the state. -/
structure State.EndsOnly (s z : State) : Prop where
  mem : z.mem = s.mem
  stores : z.stores = s.stores
  held : z.held = s.held
  loads : ∀ l ∈ z.loads, l ∈ s.loads
  waiters : s.waiters = [] → z.waiters = []
  noneHeld : ∀ w, s.NoneHeld w → z.NoneHeld w

theorem State.EndsOnly.trans {s z y : State} (h : s.EndsOnly z) (h' : z.EndsOnly y) : s.EndsOnly y :=
  ⟨h'.mem.trans h.mem, h'.stores.trans h.stores, h'.held.trans h.held, fun l hl => h.loads l (h'.loads l hl),
    fun hw => h'.waiters (h.waiters hw), fun w hw => h'.noneHeld w (h.noneHeld w hw)⟩

/-- A thread that has ended: nothing of it is on its way. -/
def Thread.gone (t : Thread) : Thread := { t with status := .exited, loads := 0, busy := [], acq := [], stop := none }

theorem State.threads_modThread_congr {z : State} (hz : z.threads = s.threads) (r : TRef) (f : Thread → Thread) :
    (z.modThread r f).threads = (s.modThread r f).threads := by
  have ht : z.thread r = s.thread r := by rw [State.thread, hz, State.thread]
  unfold State.modThread
  rw [ht]
  split
  · simp [State.setThread, hz]
  · exact hz

/-- A thread out of its quadrant's bins and groups: quadrants alone change. -/
theorem State.dropFromQuad_eq (s : State) (r : TRef) : ∃ qs, s.dropFromQuad r = { s with quads := qs } := by
  unfold State.dropFromQuad State.refill
  dsimp only
  split
  · exact ⟨_, rfl⟩
  · split <;> exact ⟨_, rfl⟩

/-- The state without what waits for a thread that ends. -/
def State.unqueue (s : State) (r : TRef) : State :=
  { s with
    loads := s.loads.filter fun l => l.who != r
    scReads := s.scReads.filter fun e => !(e.who = r ∧ e.run = none)
    waiters := (s.waiters.filter fun (w : Waiter) => !(w.who = r ∧ w.cls = Cls.loads ∧ w.kind.isPop = false)).map
      fun (w : Waiter) => if w.who = r ∧ w.cls = Cls.loads then { w with dests := [] } else w
    walks := s.walks.map fun (w : Walk) => { w with who := w.who.filter fun x => x.1 != r } }

theorem State.endOne_eq (s : State) (r : TRef) :
    s.endOne r = (((s.dropFromQuad r).unqueue r).modThread r Thread.gone).dropClaims r := rfl

section
variable (s : State) (r : TRef)

@[simp] theorem State.dropClaims_threads : (s.dropClaims r).threads = s.threads := rfl
@[simp] theorem State.dropClaims_mem : (s.dropClaims r).mem = s.mem := rfl
@[simp] theorem State.dropClaims_stores : (s.dropClaims r).stores = s.stores := rfl
@[simp] theorem State.dropClaims_held : (s.dropClaims r).held = s.held := rfl
@[simp] theorem State.dropClaims_loads : (s.dropClaims r).loads = s.loads := rfl
@[simp] theorem State.dropClaims_waiters : (s.dropClaims r).waiters = s.waiters := rfl
@[simp] theorem State.unqueue_threads : (s.unqueue r).threads = s.threads := rfl
@[simp] theorem State.unqueue_mem : (s.unqueue r).mem = s.mem := rfl
@[simp] theorem State.unqueue_stores : (s.unqueue r).stores = s.stores := rfl
@[simp] theorem State.unqueue_held : (s.unqueue r).held = s.held := rfl
@[simp] theorem State.dropFromQuad_threads : (s.dropFromQuad r).threads = s.threads := by
  obtain ⟨qs, h⟩ := s.dropFromQuad_eq r
  rw [h]

@[simp] theorem State.dropFromQuad_mem : (s.dropFromQuad r).mem = s.mem := by
  obtain ⟨qs, h⟩ := s.dropFromQuad_eq r
  rw [h]

@[simp] theorem State.dropFromQuad_stores : (s.dropFromQuad r).stores = s.stores := by
  obtain ⟨qs, h⟩ := s.dropFromQuad_eq r
  rw [h]

@[simp] theorem State.dropFromQuad_held : (s.dropFromQuad r).held = s.held := by
  obtain ⟨qs, h⟩ := s.dropFromQuad_eq r
  rw [h]

@[simp] theorem State.dropFromQuad_loads : (s.dropFromQuad r).loads = s.loads := by
  obtain ⟨qs, h⟩ := s.dropFromQuad_eq r
  rw [h]

@[simp] theorem State.dropFromQuad_waiters : (s.dropFromQuad r).waiters = s.waiters := by
  obtain ⟨qs, h⟩ := s.dropFromQuad_eq r
  rw [h]

end

theorem State.threads_endOne (s : State) (r : TRef) : (s.endOne r).threads = (s.modThread r Thread.gone).threads := by
  rw [State.endOne_eq, State.dropClaims_threads]
  exact State.threads_modThread_congr (by simp) r Thread.gone

theorem State.thread_endOne (s : State) (r q : TRef) : (s.endOne r).thread q = (s.modThread r Thread.gone).thread q := by
  rw [State.thread, State.threads_endOne, State.thread]

theorem State.loads_endOne (s : State) (r : TRef) : (s.endOne r).loads = s.loads.filter fun l => l.who != r := by
  rw [State.endOne_eq, State.dropClaims_loads, State.modThread_loads, State.unqueue, State.dropFromQuad_loads]

theorem State.waiters_endOne (hw : s.waiters = []) (r : TRef) : (s.endOne r).waiters = [] := by
  simp [State.endOne_eq, State.unqueue, hw]

theorem State.endOne_endsOnly (s : State) (r : TRef) : s.EndsOnly (s.endOne r) where
  mem := by simp [State.endOne_eq]
  stores := by simp [State.endOne_eq]
  held := by simp [State.endOne_eq]
  loads l hl := by
    rw [State.loads_endOne] at hl
    exact List.mem_of_mem_filter hl
  waiters hw := State.waiters_endOne hw r
  noneHeld w hw := State.NoneHeld.of_threads (hw.modThread r (f := Thread.gone) fun _ _ _ h => nomatch h) (s.threads_endOne r)

/-- The access thread of an execute thread. -/
def TRef.access (r : TRef) : TRef := { r with acc := true }

theorem State.endThread_of_execute (hacc : r.acc = false) : s.endThread r = (s.endOne r).endOne r.access := by
  simp [State.endThread, hacc, TRef.access]

theorem State.endThread_endsOnly (s : State) (r : TRef) : s.EndsOnly (s.endThread r) := by
  unfold State.endThread
  dsimp only
  split
  · exact s.endOne_endsOnly r
  · exact (s.endOne_endsOnly r).trans (State.endOne_endsOnly ..)

theorem TRef.key_access_ne {q : TRef} (hq : q.acc = false) : q.key ≠ r.access.key := by
  simp only [TRef.key, TRef.access, hq]
  simp
  omega

/-- An execute thread that ends is gone. -/
theorem State.thread_endThread (hacc : r.acc = false) (ht : s.thread r = some t) : (s.endThread r).thread r = some t.gone := by
  rw [State.endThread_of_execute hacc, State.thread_endOne, State.thread_modThread_of_ne _ _ (TRef.key_access_ne hacc),
    State.thread_endOne, State.thread_modThread, ht, Option.map_some]

/-- Another execute thread stays as it is. -/
theorem State.thread_endThread_of_ne (hacc : r.acc = false) {q : TRef} (hq : q.acc = false) (hne : q.key ≠ r.key) :
    (s.endThread r).thread q = s.thread q := by
  rw [State.endThread_of_execute hacc, State.thread_endOne, State.thread_modThread_of_ne _ _ (TRef.key_access_ne hq),
    State.thread_endOne, State.thread_modThread_of_ne _ _ hne]

/-- No load of a thread that has ended is on its way. -/
theorem State.loads_endThread (hacc : r.acc = false) : ∀ l ∈ (s.endThread r).loads, l.who ≠ r := by
  intro l hl
  rw [State.endThread_of_execute hacc, State.loads_endOne, State.loads_endOne] at hl
  simpa using (List.mem_filter.1 (List.mem_of_mem_filter hl)).2

end Sys2Proof.Machine
end

section
/-! PROOFS. The release of a run, and the held command that acts then (07_execution.md R118, R328). -/

namespace Sys2Proof.Machine

variable {s : State} {h : HeldRun} {c : Cmd} {id : Nat} {t : Thread}

/-! ### What the release does with the held command -/

/-- An earlier run of the same thread still holds a command. -/
theorem HeldRun.after_iff (s : State) (h : HeldRun) (id : Nat) :
    (s.held.any fun x => x.who == h.who && decide (x.id < id) && x.cmd.isSome) = true ↔
      ∃ x ∈ s.held, x.who = h.who ∧ x.id < id ∧ x.cmd ≠ none := by
  simp [and_assoc, Option.isSome_iff_ne_none]

theorem execRunRelease_of_held (hf : s.held.find? (fun h => h.id == id) = some h)
    (hw : s.clock < h.rel ∨ ∃ x ∈ s.held, x.who = h.who ∧ x.id < id ∧ x.cmd ≠ none) : execRunRelease id s = .next s := by
  have hid : h.id = id := by simpa using List.find?_some hf
  simp only [execRunRelease, hf]
  rw [if_pos]
  rw [HeldRun.after_iff, hid]
  exact hw

/-- A run whose release cycle has come, and which no earlier run of its thread holds back. -/
structure HeldRun.Free (s : State) (h : HeldRun) (id : Nat) : Prop where
  found : s.held.find? (fun h => h.id == id) = some h
  rel : h.rel ≤ s.clock
  first : ∀ x ∈ s.held, x.who = h.who → x.id < id → x.cmd = none

theorem HeldRun.Free.not_held (hf : h.Free s id) :
    ¬ (s.clock < h.rel ∨ (s.held.any fun x => x.who == h.who && decide (x.id < h.id) && x.cmd.isSome) = true) := by
  have hid : h.id = id := by simpa using List.find?_some hf.found
  rw [HeldRun.after_iff, hid]
  rintro (hlt | ⟨x, hx, hwho, hlt, hcmd⟩)
  · exact absurd hf.rel (by omega)
  · exact hcmd (hf.first x hx hwho hlt)

theorem execRunRelease_of_no_cmd (hf : h.Free s id) (hc : h.cmd = none) : execRunRelease id s = .next (s.letGo h) := by
  simp only [execRunRelease, hf.found, hc]
  rw [if_neg hf.not_held, if_pos trivial]

theorem execRunRelease_of_waits (hf : h.Free s id) (hc : h.cmd = some c) (hw : s.heldMay h c = false ∨ s.heldBehind h c = true) :
    execRunRelease id s = .next s := by
  have hn : (s.heldMay h c && !(s.heldBehind h c)) = false := by
    obtain hw | hw := hw <;> simp [hw]
  simp only [execRunRelease, hf.found, hc, hn]
  rw [if_neg hf.not_held]
  rfl

/-- A held command that need not wait acts, and with it done the run is let go. -/
theorem execRunRelease_of_acts (hf : h.Free s id) (hc : h.cmd = some c) (hm : s.heldMay h c = true) (hb : s.heldBehind h c = false)
    {x : Bool × State} (hx : s.actHeld h c = x) : execRunRelease id s = .next (if x.1 then x.2.letGo h else x.2) := by
  simp only [execRunRelease, hf.found, hc, hm, hb, hx]
  rw [if_neg hf.not_held]
  rfl

/-! ### The arms of the held command -/

theorem State.actHeld_of_isSync (hs : c.op.isSync = true) : s.actHeld h c = s.actMemory h c := by
  unfold State.actHeld
  revert hs
  cases c.op <;> intro hs <;> exact if_pos hs


theorem State.actHeld_atom {o : AtomOp} {sc : Scope} (ho : c.op = .atom o sc) : s.actHeld h c = s.actMemory h c := by
  unfold State.actHeld
  rw [ho]

/-- What spans bytes of memory is an atomic or a SYNC. -/
theorem State.actHeld_of_span (hs : c.op.span ≠ 0) : s.actHeld h c = s.actMemory h c := by
  cases ho : c.op with
  | atom o sc => exact State.actHeld_atom ho
  | _ =>
    refine State.actHeld_of_isSync (Decidable.by_contra fun hn => hs ?_)
    rw [ho] at hn ⊢
    simp [CmdOp.span, hn]

/-- The MAZE forms. -/
theorem State.actHeld_maze (ho : c.op ∈ [.mzdecl, .mzpost, .mztake, .mzdonePass, .mzdoneDrop, .mzeff, .mzsink, .mzstat]) :
    s.actHeld h c = (true, s.actMaze h c) := by
  unfold State.actHeld
  simp only [List.mem_cons, List.not_mem_nil, or_false] at ho
  rcases ho with ho | ho | ho | ho | ho | ho | ho | ho <;> rw [ho]

theorem State.actHeld_lodge (ho : c.op.isLodge = true) : s.actHeld h c = (true, s.actLodge h c) := by
  unfold State.actHeld
  revert ho
  cases c.op <;> intro ho <;> solve | rfl | cases ho

theorem State.actHeld_task (ho : c.op ∈ [.launch, .signal, .cont, .take]) : s.actHeld h c = s.actTask h c := by
  unfold State.actHeld
  simp only [List.mem_cons, List.not_mem_nil, or_false] at ho
  rcases ho with ho | ho | ho | ho <;> rw [ho]

theorem State.actHeld_creg (ho : c.op.isCreg = true) :
    s.actHeld h c = if s.settled h then s.actPriv h c else (false, s) := by
  obtain ⟨n, ho⟩ | ⟨n, ho⟩ : (∃ n, c.op = .cread n) ∨ ∃ n, c.op = .cwrite n := by
    revert ho
    cases c.op <;> simp [CmdOp.isCreg]
  all_goals
    unfold State.actHeld
    rw [ho]
    dsimp only
    rw [← ho]

theorem State.actHeld_priv (ho : (∃ n, c.op = .trap n ∨ c.op = .bkpt n ∨ c.op = .traprd n ∨ c.op = .trapwr n) ∨
    c.op ∈ [.haltwg, .resume, .kill]) : s.actHeld h c = s.actPriv h c := by
  unfold State.actHeld
  simp only [List.mem_cons, List.not_mem_nil, or_false] at ho
  rcases ho with ⟨n, ho | ho | ho | ho⟩ | ho | ho | ho <;> rw [ho] <;> rfl

/-! ### Atomics and SYNCs -/

theorem State.actMemory_of_gone (hg : s.cmdGone h c = true) : s.actMemory h c = (true, s.refuseCmd h c) := by
  rw [State.actMemory, if_pos hg]

/-- A command is gone where its place is its workgroup's no more. -/
theorem State.cmdGone_of_key {k : Nat} (hl : c.loc = some (.key k)) (hk : s.still h.who k c.op.span = false) :
    s.cmdGone h c = true := by
  simp [State.cmdGone, hl, hk]

section
variable {o : AtomOp} {sc : Scope} {l : Loc} (hg : s.cmdGone h c = false) (ho : c.op = .atom o sc) (hl : c.loc = some l)
include hg ho hl

theorem State.actMemory_atom_of_held (hr : s.atomReady h.who h.id c l o.size = false) : s.actMemory h c = (false, s) := by
  simp [State.actMemory, hg, ho, hl, hr]

theorem State.actMemory_atom_here (hr : s.atomReady h.who h.id c l o.size = true) (hu : unitSite h.core l sc = none) :
    s.actMemory h c = (true, (s.noteAtom h.core c).actAtom h c o sc) := by
  simp [State.actMemory, hg, ho, hl, hr, hu]

theorem State.actMemory_atom_unit {site k : Nat} (hr : s.atomReady h.who h.id c l o.size = true) (hk : l = .key k)
    (hu : unitSite h.core l sc = some site) : s.actMemory h c = (s.noteAtom h.core c).actUnit h c o sc site k := by
  subst hk
  simp [State.actMemory, hg, ho, hl, hr, hu]

end

/-- A SYNC once the release cycle of its run has come. -/
theorem State.actMemory_sync {k : Nat} (hg : s.cmdGone h c = false) (hs : c.op.isSync = true) (hl : c.loc = some (.key k))
    (hrel : h.rel ≤ s.clock) : s.actMemory h c =
      if s.syncReady h k c then (true, (s.actSync h c none).readDone h.who h.core h.id) else (false, s) := by
  have hnot : ¬ s.clock < h.rel := by omega
  unfold State.actMemory
  rw [if_neg (by simp [hg]), hl]
  revert hs
  cases c.op <;> intro hs <;> solve | simp [hs, hnot] | cases hs

end Sys2Proof.Machine
end

section
/-! PROOFS. A run that is let go (07_execution.md R128, R307, R328), and the release of runs. -/

namespace Sys2Proof.Machine

variable {s : State} {h : HeldRun} {c : Cmd} {id : Nat} {t : Thread} {r : TRef}

/-- A run taken out of the held ones, with the changes that no discard can reach any more. -/
def State.unhold (s : State) (h : HeldRun) : State := ({ s with held := s.held.filter fun x => x.id != h.id }).trimUndo

section
variable (s : State) (h : HeldRun)
@[simp] theorem State.unhold_threads : (s.unhold h).threads = s.threads := rfl
@[simp] theorem State.unhold_mem : (s.unhold h).mem = s.mem := rfl
@[simp] theorem State.unhold_stores : (s.unhold h).stores = s.stores := rfl
@[simp] theorem State.unhold_loads : (s.unhold h).loads = s.loads := rfl
@[simp] theorem State.unhold_waiters : (s.unhold h).waiters = s.waiters := rfl
@[simp] theorem State.unhold_clock : (s.unhold h).clock = s.clock := rfl
@[simp] theorem State.unhold_cur : (s.unhold h).cur = s.cur := rfl
@[simp] theorem State.unhold_held : (s.unhold h).held = s.held.filter fun x => x.id != h.id := rfl
@[simp] theorem State.thread_unhold (r : TRef) : (s.unhold h).thread r = s.thread r := rfl
end

theorem State.letGo_eq (s : State) (h : HeldRun) : s.letGo h =
    let z := if h.exits && !h.who.acc then ((s.unhold h).unawait h).endThread h.who else (s.unhold h).unawait h
    ((z.monitorAll ((z.waiters.filter fun w => w.who = h.who ∧ w.rel ≤ z.clock).map (·.key))).meetings h.who.wg).settleWg
      h.who.wg := rfl

theorem State.threads_makeReady (s : State) (r : TRef) (v : Nat) :
    (s.makeReady r v).threads = (s.modThread r fun t => { t with status := .ready (s.readyTime r) v }).threads := by
  unfold State.makeReady
  dsimp only
  split
  · rfl
  · exact State.modQuad_threads ..

/-- Where nothing waits and no thread of the workgroup is held at a meeting, and one of its execute threads has not exited, letting a
run go is its thread's matter alone. -/
theorem State.letGo_of_settled {z : State} (hz : (if h.exits && !h.who.acc then ((s.unhold h).unawait h).endThread h.who
      else (s.unhold h).unawait h) = z)
    (hw : z.waiters = []) (hn : z.NoneHeld h.who.wg) (hwg : r.wg = h.who.wg) (ht : z.thread r = some t) (htid : r.tid < 512)
    (hacc : r.acc = false) (hlive : t.status ≠ .exited) : s.letGo h = z := by
  rw [State.letGo_eq]
  dsimp only
  rw [hz, hw]
  rw [show z.monitorAll _ = z from rfl, State.meetings_of_noneHeld hn, ← hwg, State.settleWg_of_live ht htid hacc hlive]

/-- A thread that does not wait for its run stays where it is. -/
theorem State.unawait_of_other (ht : s.thread h.who = some t) (ha : t.status ≠ .awaiting h.id) (hp : t.status ≠ .parked .take) :
    s.unawait h = s := by
  simp [State.unawait, ht, ha, hp]

/-- A thread whose committing instruction does not park it goes where its terminator sends it. -/
theorem State.unawait_of_awaiting (ht : s.thread h.who = some t) (ha : t.status = .awaiting h.id) (hc : h.cmd = some c)
    (hp : c.op.parks = false) : s.unawait h = s.goOn h.who t.post := by
  simp [State.unawait, ht, ha, hc, hp]

/-- A running thread's run that is let go without a command. -/
theorem State.letGo_of_running (hw : s.waiters = []) (hn : s.NoneHeld h.who.wg) (ht : s.thread h.who = some t)
    (htid : h.who.tid < 512) (hacc : h.who.acc = false) (hx : h.exits = false) (hst : t.status = .running) :
    s.letGo h = s.unhold h := by
  refine State.letGo_of_settled (r := h.who) (t := t) ?_ hw (hn.of_threads rfl) rfl ht htid hacc (by simp [hst])
  rw [State.unawait_of_other (t := t) (by exact ht) (by simp [hst]) (by simp [hst])]
  simp [hx]

/-- The last run of a thread is let go: the thread has ended for good. -/
theorem State.letGo_of_exits {q : TRef} {u : Thread} (hw : s.waiters = []) (hn : s.NoneHeld h.who.wg) (ht : s.thread h.who = some t)
    (hacc : h.who.acc = false) (hx : h.exits = true) (hst : t.status = .exited)
    (hu : s.thread q = some u) (hwg : q.wg = h.who.wg) (hq : q.tid < 512) (hqacc : q.acc = false) (hlive : u.status ≠ .exited) :
    s.letGo h = (s.unhold h).endThread h.who := by
  have hne : q.key ≠ h.who.key := fun he => by
    rw [State.thread, he, ← State.thread, ht, Option.some.injEq] at hu
    exact hlive (hu ▸ hst)
  have hends := (s.unhold h).endThread_endsOnly h.who
  refine State.letGo_of_settled (r := q) (t := u) ?_ (hends.waiters hw) (hends.noneHeld _ (hn.of_threads rfl)) hwg
    ((State.thread_endThread_of_ne hacc hqacc hne).trans hu) hq hqacc hlive
  rw [State.unawait_of_other (t := t) (by exact ht) (by simp [hst]) (by simp [hst])]
  simp [hx, hacc]

/-- A run whose command has answered the thread that waits for it is let go: the thread is ready. -/
theorem State.letGo_of_awaiting {at' v : Nat} (hw : s.waiters = []) (hn : s.NoneHeld h.who.wg)
    (ht : s.thread h.who = some t) (htid : h.who.tid < 512) (hacc : h.who.acc = false) (hx : h.exits = false)
    (ha : t.status = .awaiting h.id) (hc : h.cmd = some c) (hp : c.op.parks = false) (hpost : t.post = .ready at' v)
    (hstop : t.stop = none) : s.letGo h = (s.unhold h).makeReady h.who v := by
  have hself := State.thread_makeReady_self (s := s.unhold h) (by exact ht) v
  refine State.letGo_of_settled (r := h.who) ?_ ?_ ?_ rfl hself htid hacc (by simp)
  · rw [State.unawait_of_awaiting (t := t) (by exact ht) ha hc hp, hpost, State.goOn_of_post (t := t) (by exact ht) (by simp)]
    simp [hx, State.proceed, ht, hstop]
  · obtain ⟨th, qs, hz⟩ := (s.unhold h).threadsQuads_makeReady h.who v
    rw [hz]
    exact hw
  · exact (State.NoneHeld.modThread (s := s.unhold h) (hn.of_threads rfl) h.who (by simp)).of_threads (State.threads_makeReady ..)

/-! ### Trap (R307) -/

/-- A trap that acts leaves its fault to the start of the thread's next run. -/
theorem State.actHeld_trap {n : Nat} (ho : c.op = .trap n) (ht : s.thread h.who = some t) (hd : t.deferred = none) :
    s.actHeld h c = (true, s.setThread h.who { t with deferred := some { code := .trapi, arg := n, addr := c.pc } }) := by
  rw [State.actHeld_priv (.inl ⟨n, .inl ho⟩), State.actPriv, ho]
  dsimp only
  rw [State.actTrap, State.modThread_of_some ht, hd]
  rfl

theorem State.heldMay_trap {n : Nat} (ho : c.op = .trap n) : s.heldMay h c = true := by
  simp [State.heldMay, ho]

theorem State.heldBehind_trap {n : Nat} (ho : c.op = .trap n) : s.heldBehind h c = false := by
  refine List.any_eq_false.2 fun x _ => ?_
  cases x.cmd <;> simp [ho, CmdOp.isLodge]

/-! ### The release -/

/-- What the release of a run that nothing holds back does with its command. -/
theorem runRelease_acts (hf : h.Free s id) (hc : h.cmd = some c) (hm : s.heldMay h c = true) (hb : s.heldBehind h c = false) :
    let acted := fun (z : State) => exec (.runRelease id) s = .next (z.letGo h)
    let kept := fun (z : State) => exec (.runRelease id) s = .next z
    let tried := fun (x : Bool × State) => (x.1 = true → acted x.2) ∧ (x.1 = false → kept x.2)
    (∀ k, c.loc = some (.key k) → c.op.span ≠ 0 → s.still h.who k c.op.span = false → acted (s.refuseCmd h c)) ∧
    (s.cmdGone h c = false →
      (∀ o sc l, c.op = .atom o sc → c.loc = some l →
        (s.atomReady h.who id c l o.size = false → kept s) ∧
        (s.atomReady h.who id c l o.size = true →
          (unitSite h.core l sc = none → acted ((s.noteAtom h.core c).actAtom h c o sc)) ∧
          (∀ site k, l = .key k → unitSite h.core l sc = some site →
            tried ((s.noteAtom h.core c).actUnit h c o sc site k)))) ∧
      (∀ k, c.op.isSync = true → c.loc = some (.key k) →
        (s.syncReady h k c = false → kept s) ∧
        (s.syncReady h k c = true → acted ((s.actSync h c none).readDone h.who h.core id)))) ∧
    (∀ kind, c.op = .copy kind → acted (s.enqueueCopy h c kind)) ∧
    (c.op = .tgen → acted (s.enqueueTgen h c)) ∧
    (c.op ∈ [.mzdecl, .mzpost, .mztake, .mzdonePass, .mzdoneDrop, .mzeff, .mzsink, .mzstat] → acted (s.actMaze h c)) ∧
    (c.op.isLodge = true → acted (s.actLodge h c)) ∧
    (c.op ∈ [.launch, .signal, .cont, .take] → tried (s.actTask h c)) ∧
    (c.op.isCreg = true → (s.settled h = false → kept s) ∧ (s.settled h = true → tried (s.actPriv h c))) ∧
    ((∃ n, c.op = .trap n ∨ c.op = .bkpt n ∨ c.op = .traprd n ∨ c.op = .trapwr n) ∨ c.op ∈ [.haltwg, .resume, .kill] →
      tried (s.actPriv h c)) := by
  have hid : h.id = id := by simpa using List.find?_some hf.found
  have key : ∀ {x : Bool × State}, s.actHeld h c = x → exec (.runRelease id) s = .next (if x.1 then x.2.letGo h else x.2) :=
    fun hx => execRunRelease_of_acts hf hc hm hb hx
  have hacted : ∀ {z : State}, s.actHeld h c = (true, z) → exec (.runRelease id) s = .next (z.letGo h) := fun hx => key hx
  have hkept : ∀ {z : State}, s.actHeld h c = (false, z) → exec (.runRelease id) s = .next z := fun hx => key hx
  have htried : ∀ {x : Bool × State}, s.actHeld h c = x → (x.1 = true → exec (.runRelease id) s = .next (x.2.letGo h)) ∧
      (x.1 = false → exec (.runRelease id) s = .next x.2) := fun hx => by
    constructor <;> intro hb <;> rw [key hx, hb] <;> rfl
  refine ⟨fun k hl hs hk => ?_, fun hg => ⟨fun o sc l ho hl => ⟨fun hr => ?_, fun hr => ⟨fun hu => ?_, fun site k hk hu => ?_⟩⟩,
    fun k hs hl => ⟨fun hr => ?_, fun hr => ?_⟩⟩, fun kind ho => ?_, fun ho => ?_, fun ho => hacted (State.actHeld_maze ho),
    fun ho => hacted (State.actHeld_lodge ho), fun ho => htried (State.actHeld_task ho), fun ho => ⟨fun hs => ?_, fun hs => ?_⟩,
    fun ho => htried (State.actHeld_priv ho)⟩
  · exact hacted ((State.actHeld_of_span hs).trans (State.actMemory_of_gone (State.cmdGone_of_key hl hk)))
  · exact hkept ((State.actHeld_atom ho).trans (State.actMemory_atom_of_held hg ho hl (hid ▸ hr)))
  · exact hacted ((State.actHeld_atom ho).trans (State.actMemory_atom_here hg ho hl (hid ▸ hr) hu))
  · exact htried ((State.actHeld_atom ho).trans (State.actMemory_atom_unit hg ho hl (hid ▸ hr) hk hu))
  · exact hkept ((State.actHeld_of_isSync hs).trans ((State.actMemory_sync hg hs hl hf.rel).trans (by simp [hr])))
  · exact hacted ((State.actHeld_of_isSync hs).trans ((State.actMemory_sync hg hs hl hf.rel).trans (by simp [hr, hid])))
  · exact hacted (by simp [State.actHeld, ho])
  · exact hacted (by simp [State.actHeld, ho])
  · exact hkept ((State.actHeld_creg ho).trans (by simp [hs]))
  · exact htried ((State.actHeld_creg ho).trans (by simp [hs]))

/-- Settles O38: the command by its arm, and a run that is let go by what its thread waits for. -/
theorem releaseOfRuns : Obligations.ReleaseOfRuns := by
  unfold Obligations.ReleaseOfRuns
  intro s id h hfind
  have hid : h.id = id := by simpa using List.find?_some hfind
  refine ⟨fun hlt => execRunRelease_of_held hfind (.inl hlt), fun hx => execRunRelease_of_held hfind (.inr hx),
    fun hrel hfirst => ?_⟩
  have hf : h.Free s id := ⟨hfind, hrel, hfirst⟩
  refine ⟨execRunRelease_of_no_cmd hf, fun c hc hw => execRunRelease_of_waits hf hc hw,
    fun c hc hm hb => runRelease_acts hf hc hm hb, fun t hw hopen hcur ht htid hacc => ?_⟩
  have hn : s.NoneHeld h.who.wg := State.openMeetings_eq_nil_iff.1 hopen
  refine ⟨fun hc hx hst => ⟨s.unhold h, ?_, by rw [State.unhold_held, hid], rfl, rfl, rfl⟩, fun hc hx hst hlive => ?_,
    fun c n at' v hc hx ho ha hpost hstop hd => ?_⟩
  · rw [exec_runRelease, execRunRelease_of_no_cmd hf hc, State.letGo_of_running hw hn ht htid hacc hx hst]
  · obtain ⟨q, u, hu, hwg, hq, hqacc, hul⟩ := hlive
    have hends := (s.unhold h).endThread_endsOnly h.who
    refine ⟨(s.unhold h).endThread h.who, t.gone, ?_, by rw [hends.held, State.unhold_held, hid],
      State.thread_endThread hacc ht, rfl, rfl, rfl, State.loads_endThread hacc, hends.mem, hends.stores⟩
    rw [exec_runRelease, execRunRelease_of_no_cmd hf hc, State.letGo_of_exits hw hn ht hacc hx hst hu hwg hq hqacc hul]
  · let t' : Thread := { t with deferred := some { code := .trapi, arg := n, addr := c.pc } }
    have hstatus : t'.status = .awaiting h.id := ha.trans (by rw [hid])
    have ht' : (s.setThread h.who t').thread h.who = some t' := State.thread_setThread ..
    have hgo := State.letGo_of_awaiting (s := s.setThread h.who t') (t := t') (by simpa using hw)
      (hn.setThread h.who (by simp [hstatus])) ht' htid hacc hx hstatus hc (by simp [ho, CmdOp.parks]) hpost hstop
    have hacts : execRunRelease id s = .next (((s.setThread h.who t').unhold h).makeReady h.who v) := by
      rw [← hgo]
      exact execRunRelease_of_acts hf hc (State.heldMay_trap ho) (State.heldBehind_trap ho) (State.actHeld_trap ho ht hd)
    refine ⟨_, _, hacts, State.thread_makeReady_self (s := (s.setThread h.who t').unhold h) (t := t') ht' v, rfl, ?_, ?_, ?_⟩
    · simp [State.readyTime, hcur]
    · rw [State.makeReady_held, State.unhold_held, State.setThread_held, hid]
    · rw [State.makeReady_mem, State.unhold_mem, State.setThread_mem]

end Sys2Proof.Machine
end

section
/-! PROOFS. The access engine and the branch queues (11_streamers.md R194, R195, 07_execution.md R121). -/

namespace Sys2Proof.Machine

variable {s : State} {r : TRef} {t : Thread} {g : Wg} {x : AccState} {u : Use} {body : TRef → Thread → Wg → State → State}

/-! ### Instructions of an access slice -/

/-- An instruction that ends its run, and writes registers besides, has its own meaning. -/
theorem State.lane_of_ending_writes (h : Ending s r t g u.reads) (hw : ∀ x ∈ u.writes, x < allotOf r g ∧ x ∉ t.busy)
    (hs : u.allowed r.acc = true) (hp : u.priv = false) (hn : u.names = []) (he : u.ends = true) (hc : u.cls = .none) :
    s.lane u body = .next (body r t g s) := by
  have henc : u.encFault r t g = none := Use.encFault_none hs (by simp [hp]) fun x hx => by
    rw [hn, List.append_nil, Use.regs, List.mem_append] at hx
    exact hx.elim (h.bound x) fun hx => (hw x hx).1
  have hact : s.act u body r t g = body r t g s := by
    refine State.act_of_free (fun x hx => ?_) (by rw [hc]; rfl) h.clean
    rw [Use.regs, List.mem_append] at hx
    exact hx.elim (h.free x) fun hx => (hw x hx).2
  have hends : u.endsFor r.acc = true := by
    cases hsl : u.slice <;> simp_all [Use.endsFor, Use.allowed]
  simp [State.lane, h.cur, h.thread, h.wg, he, hends, henc, h.guard, hact]

/-- What stands in a loop of no trips is passed over (R195). -/
theorem State.lane_of_skipping (hcur : s.cur = some r) (ht : s.thread r = some t) (hg : s.wg r.wg = some g)
    (hk : t.run.cmark = none) (henc : u.encFault r t g = none) (hskip : t.skipping = true) (he : u.ends = false)
    (hsize : u.size = 4) : s.lane u body = .next (passed s r t t.arch 4) := by
  simp [State.lane, hcur, ht, hg, hk, henc, hskip, he, hsize, State.pass_eq ht, passed]

theorem Thread.accState_of_some (hx : t.acc = some x) : t.accState = x := by
  simp [Thread.accState, hx]

theorem Thread.skipping_of_some (hx : t.acc = some x) : t.skipping = decide (0 < x.skip) := by
  simp [Thread.skipping, hx]

/-- What an access thread sends goes to the end of what its run has sent. -/
theorem State.accSend_pass (ht : s.thread r = some t) (hx : t.acc = some x) (xs : List (Nat × Option Word × Nat)) :
    (s.accSend r xs).pass r 4 = s.setThread r (({ t with acc := some { x with out := x.out ++ xs } } : Thread).pass 4) := by
  rw [State.accSend, State.modThread_of_some ht, State.pass_eq (State.thread_setThread ..), State.setThread_setThread, hx]
  rfl

theorem State.lane_accUse_ends (hacc : r.acc = true) (h : Ending s r t g []) :
    s.lane (accUse { ends := true }) body = .next (body r t g s) :=
  State.lane_of_ending h rfl (by simp [Use.allowed, accUse, hacc]) (by simp [accUse]) (by simp [accUse]) rfl rfl

theorem State.lane_accUse_reads (hacc : r.acc = true) {rd : List Nat} (h : Ready s r t g rd []) :
    s.lane (accUse { reads := rd }) body = .next (body r t g s) :=
  State.lane_of_ready h (by simp [Use.allowed, accUse, hacc]) (by simp [accUse]) (by simp [accUse]) rfl rfl rfl

section engine

variable (hacc : r.acc = true) (hx : t.acc = some x) {d a b : Nat}
include hacc hx

/-- afor reaches its own meaning. -/
theorem execAfor_eq (h : Ending s r t g [a, b]) (hd : d < 32) (hbusy : d ∉ t.busy) : execAfor d a b s = .next
    (if 0 < x.skip then s.endRun r t g (fun q => { q with pc := t.arch.pc + 4 }) (fun y => { y with skip := y.skip + 1 }) (readyAt 0)
    else if 4 ≤ x.loops.length then faulted s r t .queue
    else if (t.arch.reg a).bits.toNat = 0 then
      s.endRun r t g (fun q => { q.setReg d (regN32 0) with pc := t.arch.pc + 4 }) (fun y => { y with skip := 1 }) (readyAt 0)
    else s.endRun r t g (fun q => { q.setReg d (regN32 0) with pc := t.arch.pc + 4 })
      (fun y => { y with loops := { start := t.arch.pc + 4, trips := (t.arch.reg a).bits.toNat, stride := (t.arch.reg b).bits,
                                    reg := d } :: y.loops }) (readyAt 0)) := by
  unfold execAfor
  rw [State.lane_of_ending_writes h (by simp [accUse, allotOf, hacc, hd, hbusy]) (by simp [Use.allowed, accUse, hacc]) rfl rfl rfl rfl,
    Thread.accState_of_some hx]
  rfl

theorem execAend_of_skip (h : Ending s r t g []) (hskip : 0 < x.skip) : execAend s = .next
    (s.endRun r t g (fun q => { q with pc := t.arch.pc + 4 }) (fun y => { y with skip := y.skip - 1 }) (.ready 0 0)) := by
  unfold execAend
  rw [State.lane_accUse_ends hacc h, Thread.accState_of_some hx]
  simp only [hskip, if_true]
  rfl

theorem execAend_of_no_loop (h : Ending s r t g []) (hskip : x.skip = 0) (hl : x.loops = []) :
    execAend s = .next (faulted s r t .queue) := by
  unfold execAend
  rw [State.lane_accUse_ends hacc h, Thread.accState_of_some hx]
  simp only [hskip, lt_irrefl, if_false, hl]
  rfl

theorem execAend_of_loop (h : Ending s r t g []) (hskip : x.skip = 0) {l : Loop} {rest : List Loop} (hl : x.loops = l :: rest) :
    let step := fun (q : Arch) => q.setReg l.reg (regN32 ((q.reg l.reg).bits + l.stride))
    execAend s = .next (if 1 < l.trips then
        s.endRun r t g (fun q => { step q with pc := l.start }) (fun y => { y with loops := { l with trips := l.trips - 1 } :: rest })
          (.ready 0 0)
      else s.endRun r t g (fun q => { step q with pc := t.arch.pc + 4 }) (fun y => { y with loops := rest }) (.ready 0 0)) := by
  unfold execAend
  rw [State.lane_accUse_ends hacc h, Thread.accState_of_some hx]
  simp only [hskip, lt_irrefl, if_false, hl]
  rfl

theorem execAhalt_eq (h : Ending s r t g []) : execAhalt s = .next
    (if 0 < x.skip then s.endRun r t g (fun q => { q with pc := t.arch.pc + 4 }) id (.ready 0 0)
    else s.endRun r t g (fun q => { q with pc := q.pc + 4 }) (fun y => { y with halted := true }) .exited) := by
  unfold execAhalt
  rw [State.lane_accUse_ends hacc h, Thread.accState_of_some hx]
  rfl

theorem execAbr_eq (h : Ready s r t g [a] []) : execAbr a s = .next
    (if 32 < s.accFill r 4 + x.sent 4 + 1 then s.accStall r 4
    else s.setThread r (({ t with
      acc := some { x with out := x.out ++ [(4, some (if (t.arch.reg a).bits = 0 then 0 else 1), 0)] } } : Thread).pass 4)) := by
  unfold execAbr
  rw [State.lane_accUse_reads hacc h, Thread.accState_of_some hx, State.accSend_pass h.thread hx]
  rfl

theorem execAload_of_full (h : Ready s r t g [a, a + 1] []) (hd : d < 4)
    (hfull : 16 < s.accFill r d + x.sent d + (if b = 1 then 2 else 1)) : execAload d a b s = .next (s.accStall r d) := by
  unfold execAload
  rw [State.lane_accUse_reads hacc h, Thread.accState_of_some hx]
  simp only [accRoom, hd, if_true, hfull]

section room

variable (h : Ready s r t g [a, a + 1] []) (hd : d < 4) (hroom : s.accFill r d + x.sent d + (if b = 1 then 2 else 1) ≤ 16)
include h hd hroom

theorem execAload_of_fault {f : FaultInfo} (hy : s.reach r (t.arch.pair a) (4 * if b = 1 then 2 else 1) .load none false = .fault f) :
    execAload d a b s = .next (s.takeFault r f t.run.count) := by
  unfold execAload
  rw [State.lane_accUse_reads hacc h, Thread.accState_of_some hx]
  simp only [accRoom, hd, if_true, not_lt.2 hroom, if_false, hy]

theorem execAload_of_miss (hy : s.reach r (t.arch.pair a) (4 * if b = 1 then 2 else 1) .load none false = .miss) :
    execAload d a b s = .next (s.startWalk r (t.arch.pair a) .load) := by
  unfold execAload
  rw [State.lane_accUse_reads hacc h, Thread.accState_of_some hx]
  simp only [accRoom, hd, if_true, not_lt.2 hroom, if_false, hy]

theorem execAload_of_ok {l : Loc} (hy : s.reach r (t.arch.pair a) (4 * if b = 1 then 2 else 1) .load none false = .ok l) :
    execAload d a b s = .next (((s.issueAload r t l (4 * if b = 1 then 2 else 1) (t.arch.pair a)).2.accSend r
      (List.replicate (if b = 1 then 2 else 1) (d, none, s.nextId))).pass r 4) := by
  unfold execAload
  rw [State.lane_accUse_reads hacc h, Thread.accState_of_some hx]
  simp only [accRoom, hd, if_true, not_lt.2 hroom, if_false, hy]
  cases l <;> rfl

theorem execAload_of_key {k : Nat} (hy : s.reach r (t.arch.pair a) (4 * if b = 1 then 2 else 1) .load none false = .ok (.key k)) :
    execAload d a b s = .next
      (({ s with
        nextId := s.nextId + 1
        loads := s.loads ++ [{ id := s.nextId, who := r, seq := t.seq, core := s.coreOf r, loc := .key k,
                               len := 4 * if b = 1 then 2 else 1, kind := .plain, dests := [], fwd := [], value := none,
                               addr := t.arch.pair a, remote := none }] } : State).setThread r (({ t with
          acc := some { x with out := x.out ++ List.replicate (if b = 1 then 2 else 1) (d, none, s.nextId) } } : Thread).pass 4)) := by
  rw [execAload_of_ok hacc hx h hd hroom hy]
  exact congrArg Host.Outcome.next (State.accSend_pass (s := (s.issueAload r t (.key k) _ _).2) h.thread hx _)

end room

end engine

/-! ### The branch queue of an execute thread (R121) -/

/-- A bit taken from a thread's branch queue by the run with the number id. -/
def State.takeBit (s : State) (r : TRef) (id : Nat) (b : Bool) (rest : List Bool) : State :=
  (s.note (some id) (.bqPop r.wg r.tid b)).modWg r.wg fun g => { g with bq := aput r.tid rest g.bq }

theorem State.thread_takeBit (s : State) (r q : TRef) (id : Nat) (b : Bool) (rest : List Bool) :
    (s.takeBit r id b rest).thread q = s.thread q := by
  rw [State.takeBit, State.note, if_neg (by simp)]
  exact congrArg (alook q.key) (State.modWg_threads ..)

theorem State.takeBit_mem (s : State) (r : TRef) (id : Nat) (b : Bool) (rest : List Bool) : (s.takeBit r id b rest).mem = s.mem := by
  rw [State.takeBit, State.note, if_neg (by simp)]
  exact State.modWg_mem ..

theorem State.wg_takeBit (hg : s.wg r.wg = some g) (id : Nat) (b : Bool) (rest : List Bool) :
    (s.takeBit r id b rest).wg r.wg = some { g with bq := aput r.tid rest g.bq } := by
  have hn : (s.note (some id) (.bqPop r.wg r.tid b)).wg r.wg = s.wg r.wg := by
    rw [State.note, if_neg (by simp)]
    rfl
  exact State.wg_modWg_self (hn.trans hg) _

/-- A run that has buffered nothing, and whose terminator names the thread's place, leaves the thread ready there. -/
theorem State.goTo_of_plain (hp : PlainRun s r t) (pc : DWord) (v : Nat) :
    s.goTo r t g pc v = (committed s r t (fun a => { a with pc := pc }) false).makeReady r v := by
  rw [State.goTo, State.endRun_of_plain_proceed hp g _ (by simp [readyAt])]
  simp only [readyAt, State.proceed, thread_committed, hp.stop]

variable {off : Int} {inv : Nat}

/-- brq with a bit in its queue takes the bit, and its run ends where the bit says. -/
theorem execBrq_of_bit (h : Ending s r t g []) (hp : PlainRun s r t) {b : Bool} {rest : List Bool}
    (hb : alook r.tid g.bq = some (b :: rest)) : execBrq off inv s = .next
      (((committed s r t (fun a => { a with pc := if b == (inv == 0) then target t.arch.pc off else t.arch.pc + 4 }) false).makeReady r
        0).takeBit r s.nextId b rest) := by
  have hbits : g.branchBits r.tid = b :: rest := by rw [Wg.branchBits, hb, Option.getD_some]
  unfold execBrq
  rw [State.lane_of_ending h rfl (by simp [Use.allowed, hp.exec]) (by simp) (by simp) rfl rfl]
  simp only [hbits, State.goTo_of_plain hp]
  rw [if_pos]
  · rfl
  · rw [State.makeReady_held]
    simp [committed]

section empty

variable (h : Ending s r t g []) (hr : r.acc = false) (hb : (alook r.tid g.bq).getD [] = [])
include h hr hb

theorem execBrq_of_never {f : FaultInfo} (hf : s.bqFault r = some f) : execBrq off inv s = .next (s.takeFault r f t.run.count) := by
  unfold execBrq
  rw [State.lane_of_ending h rfl (by simp [Use.allowed, hr]) (by simp) (by simp) rfl rfl]
  simp only [Wg.branchBits, hb, hf]

theorem execBrq_of_later (hf : s.bqFault r = none) : execBrq off inv s =
    .next ((s.dropFromQuad r).modThread r fun t => { t with status := .parked .brq }) := by
  unfold execBrq
  rw [State.lane_of_ending h rfl (by simp [Use.allowed, hr]) (by simp) (by simp) rfl rfl]
  simp only [Wg.branchBits, hb, hf]

end empty

/-- The place where a bit of a branch queue sends its thread. -/
theorem brq_goal (pc : DWord) (b : Bool) : (if b == (inv == 0) then target pc off else pc + 4) =
    if b = true ↔ inv = 0 then pc + BitVec.ofInt 64 (2 * off) else pc + 4 := by
  have hiff : ((b == (inv == 0)) = true) ↔ (b = true ↔ inv = 0) := by
    cases b <;> simp
  simp only [hiff, target]

/-- Settles O32: each instruction of the engine reaches its own meaning, and brq ends its run or parks. -/
theorem accessEngineAndBranchQueues : Obligations.AccessEngineAndBranchQueues := by
  unfold Obligations.AccessEngineAndBranchQueues
  refine ⟨fun s r t g x d a b hacc hx => ⟨fun hskip => ⟨fun h hd hbusy => ?_, fun h => ⟨?_, ?_⟩, fun hcur ht hg hk ha => ?_⟩,
    fun hskip h hd hbusy => ⟨fun hl => ?_, fun hl => ⟨fun ht => ?_, fun ht => ?_⟩⟩,
    fun hskip h => ⟨fun hl => ?_, fun l rest hl => ⟨fun ht => ?_, fun ht => ?_⟩, ?_⟩, fun h => ⟨fun hf => ?_, fun hf => ?_⟩,
    fun h hd => ⟨execAload_of_full hacc hx h hd, fun hf => ⟨fun k hy => execAload_of_key hacc hx h hd hf hy,
      fun f hy => execAload_of_fault hacc hx h hd hf hy, fun m y hy => execAload_of_ok hacc hx h hd hf hy,
      fun hy => execAload_of_miss hacc hx h hd hf hy⟩⟩⟩,
    fun s r t g off inv h hp => ⟨fun b rest hb => ?_, fun hb => ⟨fun f hf => ?_, fun hf => ?_⟩⟩⟩
  · rw [exec_afor, execAfor_eq hacc hx h hd hbusy, if_pos hskip]
    rfl
  · rw [exec_aend, execAend_of_skip hacc hx h hskip]
  · rw [exec_ahalt, execAhalt_eq hacc hx h, if_pos hskip]
  · have hsk : t.skipping = true := by rw [Thread.skipping_of_some hx]; exact decide_eq_true hskip
    have ha' : a < 32 := by omega
    constructor
    · exact State.lane_of_skipping hcur ht hg hk
        (Use.encFault_none (by simp [Use.allowed, accUse, hacc]) (by simp [accUse]) (by simp [Use.regs, accUse, allotOf, hacc, ha']))
        hsk rfl rfl
    · exact State.lane_of_skipping hcur ht hg hk
        (Use.encFault_none (by simp [Use.allowed, accUse, hacc]) (by simp [accUse]) (by simp [Use.regs, accUse, allotOf, hacc, ha, ha']))
        hsk rfl rfl
  · rw [exec_afor, execAfor_eq hacc hx h hd hbusy, if_neg (by omega), if_pos hl]
  · rw [exec_afor, execAfor_eq hacc hx h hd hbusy, if_neg (by omega), if_neg (by omega), if_neg ht]
    rfl
  · rw [exec_afor, execAfor_eq hacc hx h hd hbusy, if_neg (by omega), if_neg (by omega), if_pos ht]
    rfl
  · rw [exec_aend, execAend_of_no_loop hacc hx h hskip hl]
  · rw [exec_aend, execAend_of_loop hacc hx h hskip hl, if_pos ht]
  · rw [exec_aend, execAend_of_loop hacc hx h hskip hl, if_neg (by omega)]
  · rw [exec_ahalt, execAhalt_eq hacc hx h, if_neg (by omega)]
  · rw [exec_abr, execAbr_eq hacc hx h, if_pos hf]
  · rw [exec_abr, execAbr_eq hacc hx h, if_neg (by omega)]
  · intro goal
    let next : Arch → Arch := fun a => { a with pc := if b == (inv == 0) then target t.arch.pc off else t.arch.pc + 4 }
    let z := (committed s r t next false).makeReady r 0
    have ht := State.thread_makeReady_self (thread_committed s r t next false) 0
    obtain ⟨th, qs, hq⟩ := (committed s r t next false).threadsQuads_makeReady r 0
    have hg : z.wg r.wg = some g := by
      rw [show z = _ from hq]
      exact h.wg
    have htime : (committed s r t next false).readyTime r = s.clock + 1 := if_pos h.cur
    refine ⟨z.takeBit r s.nextId b rest, _, _, execBrq_of_bit h hp hb, (State.thread_takeBit ..).trans ht, brq_goal .., ?_, rfl,
      State.wg_takeBit hg .., alook_aput_self .., (State.takeBit_mem ..).trans (State.makeReady_mem ..)⟩
    rw [htime]
  · exact execBrq_of_never h hp.exec hb hf
  · refine ⟨_, execBrq_of_later h hp.exec hb hf, ?_, ?_⟩
    · rw [State.thread_modThread, State.thread_dropFromQuad, h.thread]
      rfl
    · rw [State.modThread_mem, State.dropFromQuad_mem]

end Sys2Proof.Machine
end

section
/-! SUPPORT. Meetings of the lanes of a mask: who has arrived, who is waited for no more, and what a completed meeting leaves of each
thread (07_execution.md R123, R129, R130). -/

namespace Sys2Proof.Machine

variable {s : State} {r q : TRef} {t u : Thread} {g : Wg} {m : Meeting} {x y : Member} {l : List Member} {lane : Nat}

/-! ### Lanes and members -/

theorem mem_maskLanes {mask : Word} : lane ∈ maskLanes mask ↔ lane < 32 ∧ mask.getLsbD lane = true := by
  simp [maskLanes]

theorem maskLanes_sorted (mask : Word) : (maskLanes mask).Pairwise (· < ·) := List.pairwise_lt_range.filter _

/-- Two lanes of a lane set are two threads. -/
theorem Meeting.ref_key_injective {i j : Nat} (h : (m.ref i).key = (m.ref j).key) : i = j := by
  simp only [Meeting.ref, TRef.key, Bool.false_eq_true, if_false] at h
  omega

/-- A thread that has arrived at a lane with an instruction, as a member. -/
def Member.of (r : TRef) (lane : Nat) (t : Thread) (x : XUse) : Member :=
  { who := r, lane := lane, a := t.arch.reg x.a, fill := (t.arch.reg (x.b + 1)).bits, x := x }

/-- A thread is held at a meeting with an instruction, and no earlier meeting counts it as exited there. -/
structure Thread.Arrived (t : Thread) (m : Meeting) (x : XUse) : Prop where
  status : t.status = .held m.mask x
  pc : t.arch.pc = m.pc
  fresh : m.pc ∉ t.arch.skips

theorem State.memberAt_eq_some_iff : s.memberAt m lane = some y ↔
    ∃ t x, s.thread (m.ref lane) = some t ∧ t.Arrived m x ∧ y = Member.of (m.ref lane) lane t x := by
  unfold State.memberAt
  constructor
  · intro h
    split at h
    · cases h
    next t ht =>
      split at h
      next mask x hst =>
        obtain ⟨⟨hmask, hpc, hskip⟩, hy⟩ := Option.ite_none_right_eq_some.1 h
        exact ⟨t, x, ht, ⟨hmask ▸ hst, hpc, by simpa [Arch.skipped] using hskip⟩, (Option.some.inj hy).symm⟩
      · cases h
  · rintro ⟨t, x, ht, ⟨hst, hpc, hskip⟩, rfl⟩
    simp [ht, hst, hpc, Arch.skipped, hskip, Member.of]

theorem State.memberAt_isSome_iff : (s.memberAt m lane).isSome = true ↔ ∃ t x, s.thread (m.ref lane) = some t ∧ t.Arrived m x := by
  simp only [Option.isSome_iff_exists, State.memberAt_eq_some_iff]
  exact ⟨fun ⟨_, t, x, ht, hx, _⟩ => ⟨t, x, ht, hx⟩, fun ⟨t, x, ht, hx⟩ => ⟨_, t, x, ht, hx, rfl⟩⟩

theorem State.laneGone_iff : s.laneGone m lane = true ↔
    ∀ t, s.thread (m.ref lane) = some t → t.status = .exited ∨ m.pc ∈ t.arch.skips := by
  unfold State.laneGone
  split
  next h => simp [h]
  next t h => simp [h, Arch.skipped]

theorem State.meetReady_iff : s.meetReady m = true ↔ ∀ lane ∈ maskLanes m.mask, ∀ t, s.thread (m.ref lane) = some t →
    (∃ x, t.Arrived m x) ∨ t.status = .exited ∨ m.pc ∈ t.arch.skips := by
  simp only [State.meetReady, List.all_eq_true, Bool.or_eq_true, State.memberAt_isSome_iff, State.laneGone_iff]
  refine forall₂_congr fun lane _ => ?_
  cases s.thread (m.ref lane) <;> simp

theorem State.mem_liveMembers_iff : y ∈ s.liveMembers m ↔ ∃ lane t x, lane ∈ maskLanes m.mask ∧ s.thread (m.ref lane) = some t ∧
    t.Arrived m x ∧ y = Member.of (m.ref lane) lane t x := by
  simp only [State.liveMembers, List.mem_filterMap, State.memberAt_eq_some_iff]
  exact ⟨fun ⟨lane, hl, t, x, h⟩ => ⟨lane, t, x, hl, h⟩, fun ⟨lane, t, x, hl, h⟩ => ⟨lane, hl, t, x, h⟩⟩

/-- The live members are in ascending lane. -/
theorem State.liveMembers_sorted (s : State) (m : Meeting) : ((s.liveMembers m).map (·.lane)).Pairwise (· < ·) := by
  refine List.Pairwise.map _ (fun _ _ h => h) (List.Pairwise.filterMap (s.memberAt m) (fun i j hij x hx y hy => ?_) (maskLanes_sorted m.mask))
  obtain ⟨_, _, _, _, rfl⟩ := State.memberAt_eq_some_iff.1 hx
  obtain ⟨_, _, _, _, rfl⟩ := State.memberAt_eq_some_iff.1 hy
  exact hij

/-- The members of a list stand at the lanes of a meeting, each at its own. -/
theorem State.liveMembers_who (hy : y ∈ s.liveMembers m) : y.who = m.ref y.lane := by
  obtain ⟨_, _, _, _, _, _, rfl⟩ := State.mem_liveMembers_iff.1 hy
  rfl

/-! ### Two steps of a completed meeting -/

/-- The first mark of a thread at a PC is spent. -/
def Thread.spend (t : Thread) (pc : DWord) : Thread :=
  { t with arch := t.arch.unskip pc, run := { t.run with snap := t.run.snap.unskip pc } }

/-- The lanes of a meeting with their first marks spent (R123). -/
def State.spend (s : State) (m : Meeting) : State :=
  forEach (fun s l => s.modThread (m.ref l) (·.spend m.pc)) s (maskLanes m.mask)

/-- A member that has executed its instruction together with the live ones. -/
def Thread.met (t : Thread) (m : Meeting) (rm : Rm) (l : List Member) (seqs : List (TRef × Nat)) (x : Member) : Thread :=
  ({ t with
    arch := { t.arch.meet m.mask rm l x with xcount := t.arch.xcount + 1 }
    run := { t.run with mates := t.run.mates ++ seqs.filter fun (y : TRef × Nat) => y.1 != x.who } } : Thread).pass 4

/-- A member executes its instruction and leaves the meeting. -/
def State.meetOne (s : State) (m : Meeting) (rm : Rm) (l : List Member) (seqs : List (TRef × Nat)) (x : Member) : State :=
  (s.modThread x.who (·.met m rm l seqs x)).meetLeave x.who

/-- The rounding mode of a meeting, that of its lowest live member, and the runs that meet. -/
def State.meetRm (s : State) (l : List Member) : Rm := ((l.head?.bind fun x => s.thread x.who).map (·.arch.rm)).getD .rne
def State.meetSeqs (s : State) (l : List Member) : List (TRef × Nat) := l.map fun x => (x.who, ((s.thread x.who).map (·.seq)).getD 0)

theorem State.meetRun_eq (s : State) (m : Meeting) : s.meetRun m =
    forEach (fun s x => s.takeFault x.who (plainFault .tag) (((s.thread x.who).map (·.run.count)).getD 0))
      (forEach (fun z x => z.meetOne m (s.meetRm (meetOk (s.liveMembers m))) (meetOk (s.liveMembers m)) (s.meetSeqs (s.liveMembers m)) x)
        (s.spend m) (meetOk (s.liveMembers m)))
      ((s.liveMembers m).filter fun x => !((meetOk (s.liveMembers m)).contains x)) := rfl

/-- A completed meeting whose live members' tags the row takes. -/
theorem State.meetRun_of_ok (hok : meetOk (s.liveMembers m) = s.liveMembers m) : s.meetRun m =
    forEach (fun z x => z.meetOne m (s.meetRm (s.liveMembers m)) (s.liveMembers m) (s.meetSeqs (s.liveMembers m)) x) (s.spend m)
      (s.liveMembers m) := by
  have hrest : (s.liveMembers m).filter (fun x => !((s.liveMembers m).contains x)) = [] := by
    simp [List.filter_eq_nil_iff]
  rw [State.meetRun_eq, hok, hrest]
  rfl

/-! ### Steps of different threads, one after another -/

section forEach

variable {α : Type} {f : State → α → State} {at' : α → TRef}

theorem thread_forEach_of_ne (hf : ∀ (z : State) x (q : TRef), q.key ≠ (at' x).key → (f z x).thread q = z.thread q) (l : List α) (s : State)
    (hq : ∀ x ∈ l, q.key ≠ (at' x).key) : (forEach f s l).thread q = s.thread q := by
  induction l generalizing s with
  | nil => rfl
  | cons x l ih =>
    rw [List.forall_mem_cons] at hq
    exact (ih (f s x) hq.2).trans (hf s x q hq.1)

/-- The thread of an item is what the item's own step makes of it, in a state that differs from the first in other threads and in
quadrants alone. -/
theorem thread_forEach_of_mem (hf : ∀ (z : State) x (q : TRef), q.key ≠ (at' x).key → (f z x).thread q = z.thread q)
    (hz : ∀ (z : State) x, z.ThreadsQuads (f z x)) {l : List α} (hl : l.Pairwise fun x y => (at' x).key ≠ (at' y).key) {x : α}
    (hx : x ∈ l) (s : State) : ∃ z : State, s.ThreadsQuads z ∧ z.thread (at' x) = s.thread (at' x) ∧
      (forEach f s l).thread (at' x) = (f z x).thread (at' x) := by
  induction l generalizing s with
  | nil => cases hx
  | cons w l ih =>
    rw [List.pairwise_cons] at hl
    obtain rfl | hx := List.mem_cons.1 hx
    · exact ⟨s, .refl s, rfl, thread_forEach_of_ne hf l (f s x) fun y hy => hl.1 y hy⟩
    · obtain ⟨z, hs, ht, he⟩ := ih hl.2 hx (f s w)
      exact ⟨z, (hz s w).trans hs, ht.trans (hf s w _ (hl.1 x hx).symm), he⟩

end forEach

theorem State.threadsQuads_spend (s : State) (m : Meeting) : s.ThreadsQuads (s.spend m) :=
  State.threadsQuads_forEach _ (fun z _ => z.threadsQuads_modThread ..) ..

theorem Meeting.lanes_distinct (m : Meeting) : (maskLanes m.mask).Pairwise fun i j => (m.ref i).key ≠ (m.ref j).key :=
  (maskLanes_sorted m.mask).imp fun hij he => hij.ne (Meeting.ref_key_injective he)

theorem State.thread_spend (s : State) (hl : lane ∈ maskLanes m.mask) :
    (s.spend m).thread (m.ref lane) = (s.thread (m.ref lane)).map (·.spend m.pc) := by
  obtain ⟨z, -, ht, he⟩ := thread_forEach_of_mem (f := fun s l => s.modThread (m.ref l) (·.spend m.pc)) (at' := m.ref)
    (fun z l q hq => State.thread_modThread_of_ne _ _ hq) (fun z l => z.threadsQuads_modThread ..) m.lanes_distinct hl s
  rw [← ht]
  exact he.trans (State.thread_modThread ..)

theorem State.thread_spend_of_ne (s : State) (hq : ∀ lane ∈ maskLanes m.mask, q.key ≠ (m.ref lane).key) :
    (s.spend m).thread q = s.thread q :=
  thread_forEach_of_ne (fun _ _ _ hq => State.thread_modThread_of_ne _ _ hq) _ s hq

/-! ### A member leaves its meeting -/

theorem State.threadsQuads_meetLeave (s : State) (r : TRef) : s.ThreadsQuads (s.meetLeave r) := by
  unfold State.meetLeave
  dsimp only
  split
  · exact (s.threadsQuads_modThread ..).trans (State.threadsQuads_modQuad ..)
  · exact s.threadsQuads_wake r

theorem State.thread_wake (s : State) (r q : TRef) : (s.wake r).thread q = (s.modThread r fun t => { t with status := .woken }).thread q := by
  unfold State.wake
  dsimp only
  split
  · rfl
  · exact State.thread_modQuad ..

theorem State.thread_meetLeave_of_ne (s : State) (h : q.key ≠ r.key) : (s.meetLeave r).thread q = s.thread q := by
  unfold State.meetLeave
  dsimp only
  split
  · rw [State.thread_modQuad, State.thread_modThread_of_ne _ _ h]
  · rw [State.thread_wake, State.thread_modThread_of_ne _ _ h]

/-- A member that leaves goes on in its group or waits for its resumption group; the issuing one goes on. -/
theorem State.thread_meetLeave (ht : s.thread r = some t) : ∃ st, (st = .running ∨ st = .woken) ∧ (s.cur = some r → st = .running) ∧
    (s.meetLeave r).thread r = some { t with status := st } := by
  unfold State.meetLeave
  dsimp only
  split
  case isTrue => exact ⟨.running, .inl rfl, fun _ => rfl, by rw [State.thread_modQuad, State.thread_modThread, ht]; rfl⟩
  case isFalse h =>
    exact ⟨.woken, .inr rfl, fun hc => absurd (by simp [hc]) h, by rw [State.thread_wake, State.thread_modThread, ht]; rfl⟩

section meetOne

variable {rm : Rm} {seqs : List (TRef × Nat)}

theorem State.threadsQuads_meetOne (s : State) : s.ThreadsQuads (s.meetOne m rm l seqs x) :=
  (s.threadsQuads_modThread ..).trans (State.threadsQuads_meetLeave ..)

theorem State.thread_meetOne_of_ne (s : State) (h : q.key ≠ x.who.key) : (s.meetOne m rm l seqs x).thread q = s.thread q := by
  rw [State.meetOne, State.thread_meetLeave_of_ne _ h, State.thread_modThread_of_ne _ _ h]

theorem State.thread_meetOne (ht : s.thread x.who = some t) : ∃ st, (st = .running ∨ st = .woken) ∧
    (s.cur = some x.who → st = .running) ∧ (s.meetOne m rm l seqs x).thread x.who = some { t.met m rm l seqs x with status := st } := by
  obtain ⟨st, hst, hcur, h⟩ := State.thread_meetLeave (s := s.modThread x.who (·.met m rm l seqs x)) (r := x.who)
    (t := t.met m rm l seqs x) (by rw [State.thread_modThread, ht]; rfl)
  exact ⟨st, hst, fun hc => hcur (by rw [State.modThread_cur]; exact hc), h⟩

end meetOne

/-! ### A completed meeting -/

/-- A meeting writes registers, predicates and flags alone. -/
theorem Arch.meet_eq (a : Arch) (mask : Word) (rm : Rm) (l : List Member) (x : Member) : ∃ rg pr fl,
    a.meet mask rm l x = { a with regs := rg, preds := pr, fflags := fl } := by
  unfold Arch.meet
  split
  · exact ⟨_, _, _, rfl⟩
  · unfold Arch.setPred
    split <;> exact ⟨_, _, _, rfl⟩
  · exact ⟨_, _, _, rfl⟩

theorem Thread.skips_met (t : Thread) (m : Meeting) (rm : Rm) (l : List Member) (seqs : List (TRef × Nat)) (x : Member) :
    (t.met m rm l seqs x).arch.skips = t.arch.skips := by
  obtain ⟨rg, pr, fl, h⟩ := t.arch.meet_eq m.mask rm l x
  simp [Thread.met, Thread.pass, h]

section completed

variable (hok : meetOk (s.liveMembers m) = s.liveMembers m)
include hok

theorem State.threadsQuads_meetRun : s.ThreadsQuads (s.meetRun m) := by
  rw [State.meetRun_of_ok hok]
  exact (s.threadsQuads_spend m).trans (State.threadsQuads_forEach _ (fun z _ => z.threadsQuads_meetOne) ..)

/-- A thread that is at no lane of the mask stays as it is. -/
theorem State.thread_meetRun_of_ne (hq : ∀ lane ∈ maskLanes m.mask, q.key ≠ (m.ref lane).key) :
    (s.meetRun m).thread q = s.thread q := by
  rw [State.meetRun_of_ok hok, thread_forEach_of_ne (at' := Member.who) (fun z x q hq => State.thread_meetOne_of_ne z hq)]
  · exact State.thread_spend_of_ne s hq
  · intro y hy
    obtain ⟨lane, _, _, hl, _, _, rfl⟩ := State.mem_liveMembers_iff.1 hy
    exact hq lane hl

/-- A live member has executed its instruction, and goes on. -/
theorem State.thread_meetRun_of_live (hy : y ∈ s.liveMembers m) (hu : s.thread y.who = some u) : ∃ st,
    (st = .running ∨ st = .woken) ∧ (s.cur = some y.who → st = .running) ∧ (s.meetRun m).thread y.who =
      some { (u.spend m.pc).met m (s.meetRm (s.liveMembers m)) (s.liveMembers m) (s.meetSeqs (s.liveMembers m)) y with status := st } := by
  have hdistinct : (s.liveMembers m).Pairwise fun x y => x.who.key ≠ y.who.key := by
    refine (List.pairwise_map.1 (s.liveMembers_sorted m)).imp_of_mem fun hx hy hlt he => hlt.ne (Meeting.ref_key_injective (m := m) ?_)
    rw [← State.liveMembers_who hx, ← State.liveMembers_who hy, he]
  have hspend : (s.spend m).thread y.who = some (u.spend m.pc) := by
    obtain ⟨lane, _, _, hl, _, _, rfl⟩ := State.mem_liveMembers_iff.1 hy
    exact (State.thread_spend s hl).trans (by rw [show s.thread (m.ref lane) = some u from hu]; rfl)
  obtain ⟨z, hz, ht, he⟩ := thread_forEach_of_mem (at' := Member.who)
    (f := fun z x => z.meetOne m (s.meetRm (s.liveMembers m)) (s.liveMembers m) (s.meetSeqs (s.liveMembers m)) x)
    (fun z x q hq => State.thread_meetOne_of_ne z hq) (fun z _ => z.threadsQuads_meetOne) hdistinct hy (s.spend m)
  obtain ⟨th, qs, hcur⟩ := (s.threadsQuads_spend m).trans hz
  obtain ⟨st, hst, hrun, h⟩ := State.thread_meetOne (m := m) (rm := s.meetRm (s.liveMembers m)) (l := s.liveMembers m)
    (seqs := s.meetSeqs (s.liveMembers m)) (ht.trans hspend)
  refine ⟨st, hst, fun hc => hrun ?_, ?_⟩
  · rw [hcur]
    exact hc
  · rw [State.meetRun_of_ok hok]
    exact he.trans h

/-- What a completed meeting leaves is not complete again, since its live members have gone on. -/
theorem State.meetReady_meetRun (hne : s.liveMembers m ≠ []) : (s.meetRun m).meetReady m = false := by
  obtain ⟨y, hy⟩ := List.exists_mem_of_ne_nil _ hne
  obtain ⟨lane, u, x, hl, hu, ha, hyeq⟩ := State.mem_liveMembers_iff.1 hy
  obtain ⟨st, hst, -, h⟩ := State.thread_meetRun_of_live hok hy (by rw [hyeq]; exact hu)
  refine Bool.eq_false_iff.2 fun hr => ?_
  rw [hyeq] at h
  obtain ⟨x, hx⟩ | he | hskip := State.meetReady_iff.1 hr lane hl _ h
  · obtain rfl | rfl := hst <;> exact TStatus.noConfusion hx.status
  · obtain rfl | rfl := hst <;> exact TStatus.noConfusion he
  · change m.pc ∈ Arch.skips (Thread.arch (Thread.met ..)) at hskip
    rw [Thread.skips_met] at hskip
    exact ha.fresh (List.mem_of_mem_erase hskip)

/-- A meeting that is complete and has a live member takes place once. -/
theorem State.meetTry_of_ready (hne : s.liveMembers m ≠ []) (hr : s.meetReady m = true) (n : Nat) :
    s.meetTry m (n + 1) = s.meetRun m := by
  rw [State.meetTry, if_pos (by simp [hr, hne])]
  cases n with
  | zero => rfl
  | succ n => rw [State.meetTry, if_neg (by simp [State.meetReady_meetRun hok hne])]

end completed

end Sys2Proof.Machine
end

section
/-! PROOFS. Lane sets, and threads that arrive at a meeting (07_execution.md R129, R130, R133). -/

namespace Sys2Proof.Machine

variable {s : State} {r q : TRef} {t u : Thread} {g : Wg} {d a b lane : Nat} {rd wr : List Nat} {op : XOp} {x : XUse} {i : Instr}

/-- The meeting that a thread arrives at with an instruction whose mask is register b. -/
def Thread.meeting (t : Thread) (r : TRef) (b : Nat) : Meeting :=
  { wg := r.wg, lset := r.tid / 32, pc := t.arch.pc, mask := (t.arch.reg b).bits }

/-- A thread that has arrived at its meeting. -/
def State.arriveAt (s : State) (r : TRef) (t : Thread) (b : Nat) (x : XUse) : State :=
  s.setThread r { t with status := .held (t.arch.reg b).bits x }

@[simp] theorem State.arriveAt_mem (s : State) (r : TRef) (t : Thread) (b : Nat) (x : XUse) : (s.arriveAt r t b x).mem = s.mem := rfl
@[simp] theorem State.arriveAt_cur (s : State) (r : TRef) (t : Thread) (b : Nat) (x : XUse) : (s.arriveAt r t b x).cur = s.cur := rfl

/-- An open meeting of the lane set at the PC includes the lane and has another mask. -/
def State.otherMask (s : State) (r : TRef) (t : Thread) (b : Nat) : Prop :=
  ∃ m ∈ s.openMeetings r.wg, m.lset = r.tid / 32 ∧ m.pc = t.arch.pc ∧ m.mask ≠ (t.arch.reg b).bits ∧ m.mask.getLsbD (r.tid % 32) = true

theorem State.otherMask_iff : ((s.openMeetings r.wg).any fun o =>
    o.lset == (t.meeting r b).lset && o.pc == (t.meeting r b).pc && o.mask != (t.arch.reg b).bits && o.mask.getLsbD (r.tid % 32)) = true ↔
      s.otherMask r t b := by
  simp [State.otherMask, Thread.meeting, and_assoc]

section crossLane

variable (h : Ready s r t g rd wr) (hacc : r.acc = false)
include h hacc

theorem crossLane_of_bad (hbad : (t.arch.reg b).bits.getLsbD (r.tid % 32) = false ∨ (t.arch.alone ≤ t.arch.xcount ∧ s.otherMask r t b)) :
    crossLane op d a b rd wr s = .next (faulted s r t .laneset) := by
  unfold crossLane
  rw [State.lane_of_ready h (by simp [Use.allowed, hacc]) (by simp) (by simp) rfl rfl rfl]
  cases hown : (t.arch.reg b).bits.getLsbD (r.tid % 32) with
  | false =>
    simp only [hown, Bool.not_false, if_true]
    rfl
  | true =>
    obtain hf | ⟨hle, ho⟩ := hbad
    · rw [hown] at hf
      cases hf
    · have hother := State.otherMask_iff.2 ho
      simp only [Thread.meeting] at hother
      simp only [hown, hother, not_lt.2 hle, if_false, if_true, Bool.not_true, Bool.false_eq_true]
      rfl

theorem crossLane_of_arrives (hown : (t.arch.reg b).bits.getLsbD (r.tid % 32) = true) (hle : t.arch.alone ≤ t.arch.xcount)
    (hsame : ¬ s.otherMask r t b) : crossLane op d a b rd wr s = .next
      ((s.arriveAt r t b { op := op, d := d, a := a, b := b }).meetTry (t.meeting r b)
        ((s.arriveAt r t b { op := op, d := d, a := a, b := b }).marks (t.meeting r b) + 1)) := by
  have hother := Bool.eq_false_iff.2 fun hc => hsame (State.otherMask_iff.1 hc)
  simp only [Thread.meeting] at hother
  unfold crossLane
  rw [State.lane_of_ready h (by simp [Use.allowed, hacc]) (by simp) (by simp) rfl rfl rfl]
  simp only [hown, hother, not_lt.2 hle, if_false, Bool.not_true, Bool.false_eq_true, State.modThread_of_some h.thread]
  rfl

end crossLane

/-! ### A thread that has arrived -/

section arrive

variable (ht : s.thread r = some t)
include ht

/-- Arriving changes the status of a thread alone. -/
theorem State.map_thread_arriveAt {β : Type} {f : Thread → β} (hf : ∀ st, f { t with status := st } = f t) (q : TRef) :
    ((s.arriveAt r t b x).thread q).map f = (s.thread q).map f := by
  by_cases hq : q.key = r.key
  · have h1 : (s.arriveAt r t b x).thread q = some { t with status := .held (t.arch.reg b).bits x } := by
      rw [State.thread, hq]
      exact State.thread_setThread ..
    have h2 : s.thread q = some t := by rw [State.thread, hq]; exact ht
    rw [h1, h2, Option.map_some, Option.map_some, hf]
  · rw [State.arriveAt, State.thread_setThread_of_ne _ _ hq]

theorem State.thread_of_arriveAt (hu : (s.arriveAt r t b x).thread q = some u) :
    ∃ v, s.thread q = some v ∧ u.arch = v.arch ∧ u.run = v.run := by
  have h := State.map_thread_arriveAt (b := b) (x := x) (f := fun v => (v.arch, v.run)) ht (fun _ => rfl) q
  rw [hu, Option.map_some] at h
  obtain ⟨v, hv, he⟩ := Option.map_eq_some_iff.1 h.symm
  rw [Prod.mk.injEq] at he
  exact ⟨v, hv, he.1.symm, he.2.symm⟩

end arrive

theorem Thread.meeting_ref_own (hacc : r.acc = false) : (t.meeting r b).ref (r.tid % 32) = r := by
  obtain ⟨w, n, c⟩ := r
  simp only at hacc
  subst hacc
  simp only [Thread.meeting, Meeting.ref, TRef.mk.injEq, true_and, and_true]
  omega

theorem State.thread_arrive_own (hacc : r.acc = false) : (s.arriveAt r t b x).thread ((t.meeting r b).ref (r.tid % 32)) =
    some { t with status := .held (t.arch.reg b).bits x } := by
  rw [Thread.meeting_ref_own hacc]
  exact State.thread_setThread ..

theorem State.thread_arrive_of_ne (hacc : r.acc = false) (hl : lane ≠ r.tid % 32) :
    (s.arriveAt r t b x).thread ((t.meeting r b).ref lane) = s.thread ((t.meeting r b).ref lane) := by
  refine State.thread_setThread_of_ne _ _ fun he => hl (Meeting.ref_key_injective (m := t.meeting r b) ?_)
  rw [Thread.meeting_ref_own hacc, he]

/-- A member of the mask that has neither arrived nor exited keeps the thread that arrives. -/
theorem State.meetTry_of_missing (hacc : r.acc = false) (hl : lane ∈ maskLanes (t.arch.reg b).bits) (hne : lane ≠ r.tid % 32)
    (hu : s.thread ((t.meeting r b).ref lane) = some u) (hcounts : ¬ (u.status = .exited ∨ t.arch.pc ∈ u.arch.skips))
    (haway : u.arch.pc = t.arch.pc → ∀ y, u.status ≠ .held (t.arch.reg b).bits y) (n : Nat) :
    (s.arriveAt r t b x).meetTry (t.meeting r b) (n + 1) = s.arriveAt r t b x := by
  have hnot : ¬ (s.arriveAt r t b x).meetReady (t.meeting r b) = true := fun hr => by
    obtain ⟨y, hy⟩ | hgone := State.meetReady_iff.1 hr lane hl u ((State.thread_arrive_of_ne hacc hne).trans hu)
    · exact haway hy.pc y hy.status
    · exact hcounts hgone
  rw [State.meetTry, if_neg (by simp [hnot])]

section last

variable (hacc : r.acc = false) (ht : s.thread r = some t) (hown : (t.arch.reg b).bits.getLsbD (r.tid % 32) = true)
  (hfresh : t.arch.pc ∉ t.arch.skips)
include hown

theorem own_mem_maskLanes : r.tid % 32 ∈ maskLanes (t.arch.reg b).bits := mem_maskLanes.2 ⟨Nat.mod_lt _ (by decide), hown⟩

include hacc hfresh

/-- The thread that arrives is a live member. -/
theorem State.arriveAt_mem_live : Member.of r (r.tid % 32) t x ∈ (s.arriveAt r t b x).liveMembers (t.meeting r b) :=
  State.mem_liveMembers_iff.2 ⟨_, _, x, own_mem_maskLanes hown, State.thread_arrive_own hacc, ⟨rfl, rfl, hfresh⟩, by
    rw [Thread.meeting_ref_own hacc]
    rfl⟩

omit hown in
/-- A meeting is complete when the others of its mask have arrived or count as exited. -/
theorem State.meetReady_arriveAt (hall : ∀ lane u, lane < 32 → lane ≠ r.tid % 32 → (t.arch.reg b).bits.getLsbD lane = true →
      s.thread ((t.meeting r b).ref lane) = some u → (u.status = .exited ∨ t.arch.pc ∈ u.arch.skips) ∨
        (u.arch.pc = t.arch.pc ∧ ∃ y, u.status = .held (t.arch.reg b).bits y)) :
    (s.arriveAt r t b x).meetReady (t.meeting r b) = true := by
  refine State.meetReady_iff.2 fun lane hl u hu => ?_
  by_cases hne : lane = r.tid % 32
  · subst hne
    rw [State.thread_arrive_own hacc, Option.some.injEq] at hu
    subst hu
    exact .inl ⟨x, rfl, rfl, hfresh⟩
  · rw [State.thread_arrive_of_ne hacc hne] at hu
    obtain ⟨h32, hbit⟩ := mem_maskLanes.1 hl
    obtain hgone | ⟨hpc, y, hy⟩ := hall lane u h32 hne hbit hu
    · exact .inr hgone
    · by_cases hskip : t.arch.pc ∈ u.arch.skips
      · exact .inr (.inr hskip)
      · exact .inl ⟨y, hy, hpc, hskip⟩

theorem State.live_lanes_arriveAt : lane ∈ ((s.arriveAt r t b x).liveMembers (t.meeting r b)).map (·.lane) ↔
    lane < 32 ∧ (t.arch.reg b).bits.getLsbD lane = true ∧ (lane = r.tid % 32 ∨ ∃ u y, s.thread ((t.meeting r b).ref lane) = some u ∧
      u.arch.pc = t.arch.pc ∧ t.arch.pc ∉ u.arch.skips ∧ u.status = .held (t.arch.reg b).bits y) := by
  rw [List.mem_map]
  constructor
  · rintro ⟨y, hy, rfl⟩
    obtain ⟨lane, u, z, hl, hu, ha, rfl⟩ := State.mem_liveMembers_iff.1 hy
    obtain ⟨h32, hbit⟩ := mem_maskLanes.1 hl
    refine ⟨h32, hbit, ?_⟩
    by_cases hne : lane = r.tid % 32
    · exact .inl hne
    · rw [State.thread_arrive_of_ne hacc hne] at hu
      exact .inr ⟨u, z, hu, ha.pc, ha.fresh, ha.status⟩
  · rintro ⟨h32, hbit, hcase⟩
    by_cases hne : lane = r.tid % 32
    · exact ⟨_, State.arriveAt_mem_live hacc hown hfresh, hne.symm⟩
    · obtain heq | ⟨u, z, hu, hpc, hskip, hst⟩ := hcase
      · exact absurd heq hne
      · exact ⟨_, State.mem_liveMembers_iff.2 ⟨lane, u, z, mem_maskLanes.2 ⟨h32, hbit⟩, (State.thread_arrive_of_ne hacc hne).trans hu,
          ⟨hst, hpc, hskip⟩, rfl⟩, rfl⟩

end last

theorem State.meetRm_arriveAt (ht : s.thread r = some t) {l : List Member} {rm : Rm}
    (hrm : (l.head?.bind fun y => s.thread y.who).map (·.arch.rm) = some rm) : (s.arriveAt r t b x).meetRm l = rm := by
  have he : (l.head?.bind fun y => (s.arriveAt r t b x).thread y.who).map (·.arch.rm) =
      (l.head?.bind fun y => s.thread y.who).map (·.arch.rm) := by
    cases l.head? with
    | none => rfl
    | some y => exact State.map_thread_arriveAt ht (fun _ => rfl) y.who
  rw [State.meetRm, he, hrm, Option.getD_some]

/-- The registers of a member that has executed its instruction, and its place. -/
theorem Thread.arch_met (u v : Thread) (hv : u.arch = v.arch) (m : Meeting) (rm : Rm) (l : List Member) (seqs : List (TRef × Nat)) (y : Member) :
    ((u.spend m.pc).met m rm l seqs y).arch =
      { (v.arch.unskip m.pc).meet m.mask rm l y with xcount := v.arch.xcount + 1, pc := v.arch.pc + 4 } := by
  obtain ⟨rg, pr, fl, h⟩ := (v.arch.unskip m.pc).meet_eq m.mask rm l y
  simp only [Thread.met, Thread.spend, Thread.pass, hv, h]
  rfl

/-- What becomes of a thread that arrives: it is held, or completes its meeting. -/
theorem arrival_outcome (hacc : r.acc = false) (ht : s.thread r = some t) (hcur : s.cur = some r)
    (hown : (t.arch.reg b).bits.getLsbD (r.tid % 32) = true) (x : XUse) :
    let mask := (t.arch.reg b).bits
    let own := r.tid % 32
    let m := t.meeting r b
    let counts := fun (u : Thread) => u.status = .exited ∨ t.arch.pc ∈ u.arch.skips
    let s0 := s.arriveAt r t b x
    let live := s0.liveMembers m
    let s' := s0.meetTry m (s0.marks m + 1)
    ((∃ lane u, lane < 32 ∧ lane ≠ own ∧ mask.getLsbD lane = true ∧ s.thread (m.ref lane) = some u ∧ ¬counts u ∧
        (u.arch.pc = t.arch.pc → ∀ y, u.status ≠ .held mask y)) → s' = s0) ∧
    ((∀ lane u, lane < 32 → lane ≠ own → mask.getLsbD lane = true → s.thread (m.ref lane) = some u →
        counts u ∨ (u.arch.pc = t.arch.pc ∧ ∃ y, u.status = .held mask y)) →
      t.arch.pc ∉ t.arch.skips → meetOk live = live → ∀ rm, (live.head?.bind fun y => s.thread y.who).map (·.arch.rm) = some rm →
        s'.mem = s.mem ∧ (s'.thread r).map (·.status) = some .running ∧
        (∀ y ∈ live, ∃ u u', s.thread y.who = some u ∧ s'.thread y.who = some u' ∧
          y.a = u.arch.reg y.x.a ∧ y.fill = (u.arch.reg (y.x.b + 1)).bits ∧
          u'.arch = { (u.arch.unskip t.arch.pc).meet mask rm live y with xcount := u.arch.xcount + 1, pc := u.arch.pc + 4 } ∧
          (u'.status = .running ∨ u'.status = .woken) ∧ u'.run.count = u.run.count + 1) ∧
        ∀ q : TRef, (∀ lane, lane < 32 → mask.getLsbD lane = true → q.key ≠ (m.ref lane).key) → s'.thread q = s.thread q) := by
  intro mask own m counts s0 live s'
  constructor
  · rintro ⟨lane, u, h32, hne, hbit, hu, hcounts, haway⟩
    exact State.meetTry_of_missing hacc (mem_maskLanes.2 ⟨h32, hbit⟩) hne hu hcounts haway _
  · intro hall hfresh hok rm hrm
    have hmine : Member.of r own t x ∈ live := State.arriveAt_mem_live hacc hown hfresh
    have hrun : s' = s0.meetRun m :=
      State.meetTry_of_ready hok (List.ne_nil_of_mem hmine) (State.meetReady_arriveAt hacc hfresh hall) _
    have hmem : s'.mem = s.mem := by
      obtain ⟨th, qs, hz⟩ := State.threadsQuads_meetRun hok
      rw [hrun, hz]
      exact s.arriveAt_mem r t b x
    refine ⟨hmem, ?_, fun y hy => ?_, fun q hq => ?_⟩
    · obtain ⟨st, -, hst, h⟩ := State.thread_meetRun_of_live hok hmine (State.thread_setThread ..)
      rw [hrun]
      refine (congrArg (Option.map (·.status)) h).trans ?_
      rw [Option.map_some, hst ((s.arriveAt_cur r t b x).trans hcur)]
    · obtain ⟨lane, u0, z, hl, hu0, ha, rfl⟩ := State.mem_liveMembers_iff.1 hy
      obtain ⟨u, hu, harch, hrunEq⟩ := State.thread_of_arriveAt ht hu0
      obtain ⟨st, hst, -, h⟩ := State.thread_meetRun_of_live hok hy hu0
      rw [State.meetRm_arriveAt ht hrm] at h
      refine ⟨u, _, hu, (congrArg (State.thread · _) hrun).trans h, by rw [← harch]; rfl, by rw [← harch]; rfl,
        Thread.arch_met u0 u harch m rm live _ _, hst, ?_⟩
      simp [Thread.met, Thread.spend, Thread.pass, hrunEq]
    · have hlanes : ∀ lane ∈ maskLanes m.mask, q.key ≠ (m.ref lane).key := fun lane hl =>
        hq lane (mem_maskLanes.1 hl).1 (mem_maskLanes.1 hl).2
      have hself : q.key ≠ r.key := by
        have := hlanes own (own_mem_maskLanes hown)
        rwa [Thread.meeting_ref_own hacc] at this
      rw [hrun, State.thread_meetRun_of_ne hok hlanes]
      exact State.thread_setThread_of_ne _ _ hself

/-- Settles O30: a mask that leaves out its lane or disagrees faults, and an arrival is held or completes the meeting. -/
theorem laneSetsAndArrivals : Obligations.LaneSetsAndArrivals := by
  unfold Obligations.LaneSetsAndArrivals
  constructor
  · intro s r t g d a b hacc mask lane bad hbad
    have key : ∀ {op d a rd wr}, Ready s r t g rd wr → crossLane op d a b rd wr s = .next (faulted s r t .laneset) :=
      fun h => crossLane_of_bad h hacc hbad
    simp only [List.forall_mem_cons, List.not_mem_nil, IsEmpty.forall_iff, implies_true, and_true]
    exact ⟨fun h => ⟨key h, key h, key h⟩,
      fun h => ⟨key h, key h, key h, key h, key h, key h, key h, key h, key h, key h, key h, key h⟩, fun h => ⟨key h, key h⟩⟩
  · intro s r t g d a b hacc mask own at' m counts hown hle hsame form xlane
    have hsame' : ¬ s.otherMask r t b := fun ⟨x, hx, hl, hp, hm, hbit⟩ => hm (hsame x hx hl hp hbit)
    have key : ∀ {op d a rd wr i}, Ready s r t g rd wr → exec i s = crossLane op d a b rd wr s →
        form i { op := op, d := d, a := a, b := b } := by
      intro op d a rd wr i h hi
      have hexec := hi.trans (crossLane_of_arrives h hacc hown hle hsame')
      obtain ⟨hmiss, hlast⟩ := arrival_outcome hacc h.thread h.cur hown { op := op, d := d, a := a, b := b }
      refine ⟨fun hx => hexec.trans (congrArg Host.Outcome.next (hmiss hx)), fun hall hfresh hok rm hrm => ⟨fun lane => ?_, ?_⟩⟩
      · exact State.live_lanes_arriveAt hacc hown hfresh
      · exact ⟨_, hexec, hlast hall hfresh hok rm hrm⟩
    exact ⟨fun h => ⟨key h rfl, key h rfl, key h rfl⟩,
      fun h => ⟨key h rfl, key h rfl, key h rfl, key h rfl, key h rfl, key h rfl, key h rfl, key h rfl, key h rfl, key h rfl, key h rfl,
        key h rfl⟩, fun h => ⟨key h rfl, key h rfl⟩⟩

end Sys2Proof.Machine
end

section
/-! SUPPORT. The values of a completed meeting: votes, reductions, scans and picks (07_execution.md R132, R133). -/

namespace Sys2Proof.Machine

variable {l : List Member} {mask : Word} {rm : Rm} {y z : Member} {q : Arch} {d a b : Nat} {op : XOp}

/-- The instruction writes a register. -/
def XOp.writesReg (o : XOp) : Bool := o != .lsync && o != .elect

/-- What a meeting writes in a member for an instruction that writes a register. -/
theorem Arch.meet_of_writesReg (ho : y.x.op.writesReg = true) : q.meet mask rm l y =
    (q.setReg y.x.d (xResult mask rm l y).1).raise (xResult mask rm l y).2 := by
  unfold Arch.meet
  split
  · next h => simp [h, XOp.writesReg] at ho
  · next h => simp [h, XOp.writesReg] at ho
  · rfl

/-- A meeting of one instruction gives its result to register D of each live member, and leaves other registers. -/
theorem meet_gives {p : RegVal → Prop} (hy : y ∈ l) (ho : op.writesReg = true)
    (hp : y.x.op = op → p (xResult mask rm l y).1) :
    (∀ z ∈ l, z.x = { op := op, d := d, a := a, b := b }) →
      let q' := q.meet mask rm l y
      p (q'.reg d) ∧ (∀ n, n ≠ d → q'.regs.get n = q.regs.get n) ∧ q'.preds = q.preds ∧ q'.pc = q.pc := by
  intro hx
  have hyx := hx y hy
  have hd : y.x.d = d := by rw [hyx]
  rw [Arch.meet_of_writesReg (by rw [hyx]; exact ho), hd]
  refine ⟨?_, fun n hn => RegFile.get_set_of_ne _ _ hn, rfl, rfl⟩
  have hreg : ((q.setReg d (xResult mask rm l y).1).raise (xResult mask rm l y).2).reg d = (xResult mask rm l y).1 := Arch.reg_setReg ..
  rw [hreg]
  exact hp (by rw [hyx])

/-! ### The result of each instruction -/

/-- The word of a ballot: the lanes of the members with a true A. -/
def ballotSum (l : List Member) : Nat := (l.map fun x => if x.a.bits != 0 then 2 ^ x.lane else 0).sum

/-- The tag of a bitwise reduction: the members' tag where they have one, else raw. -/
def jointTag (l : List Member) (y : Member) : Half := if l.all (fun x => x.a.tag == y.a.tag) then y.a.tag else tagRaw

/-- A sum in register D of a member, with its flags. -/
def sumResult (y : Member) (v : Word × FFlags) : RegVal × FFlags := ({ bits := v.1, tag := y.a.tag }, v.2)

theorem xResult_lpick (ho : y.x.op = .lpick) : xResult mask rm l y =
    (((l.find? fun x => x.lane == y.fill.toNat % 32).map (·.a)).getD y.a, 0) := by
  rw [xResult, ho]

theorem xResult_slideup (ho : y.x.op = .slideup) : xResult mask rm l y =
    ({ bits := xSlide true mask l y, tag := y.a.tag }, 0) := by
  rw [xResult, ho]

theorem xResult_slidedn (ho : y.x.op = .slidedn) : xResult mask rm l y =
    ({ bits := xSlide false mask l y, tag := y.a.tag }, 0) := by
  rw [xResult, ho]

theorem xResult_ballot (ho : y.x.op = .ballot) : xResult mask rm l y =
    (regNat (ballotSum l), 0) := by
  rw [xResult, ho]
  rfl

theorem xResult_voteAny (ho : y.x.op = .voteAny) : xResult mask rm l y =
    (regNat (if (l.map (·.a.bits)).any (· != 0) then 1 else 0), 0) := by
  rw [xResult, ho]

theorem xResult_voteAll (ho : y.x.op = .voteAll) : xResult mask rm l y =
    (regNat (if (l.map (·.a.bits)).all (· != 0) then 1 else 0), 0) := by
  rw [xResult, ho]

theorem xResult_voteEq (ho : y.x.op = .voteEq) : xResult mask rm l y =
    (regNat (if (l.map (·.a.bits)).all (· == y.a.bits) then 1 else 0), 0) := by
  rw [xResult, ho]

theorem xResult_lredAdd (ho : y.x.op = .lredAdd) : xResult mask rm l y =
    sumResult y (xSum rm y.a.kind (l.map (·.a.bits))) := by
  rw [xResult, ho]
  rfl

theorem xResult_lredMin (ho : y.x.op = .lredMin) : xResult mask rm l y =
    ({ bits := xExtreme true y.a.kind (l.map (·.a.bits)), tag := y.a.tag }, 0) := by
  rw [xResult, ho]

theorem xResult_lredMax (ho : y.x.op = .lredMax) : xResult mask rm l y =
    ({ bits := xExtreme false y.a.kind (l.map (·.a.bits)), tag := y.a.tag }, 0) := by
  rw [xResult, ho]

theorem xResult_lredAnd (ho : y.x.op = .lredAnd) : xResult mask rm l y =
    ({ bits := (l.map (·.a.bits)).foldl (· &&& ·) 0xFFFFFFFF, tag := jointTag l y }, 0) := by
  rw [xResult, ho]
  rfl

theorem xResult_lredOr (ho : y.x.op = .lredOr) : xResult mask rm l y =
    ({ bits := (l.map (·.a.bits)).foldl (· ||| ·) 0, tag := jointTag l y }, 0) := by
  rw [xResult, ho]
  rfl

theorem xResult_lredXor (ho : y.x.op = .lredXor) : xResult mask rm l y =
    ({ bits := (l.map (·.a.bits)).foldl (· ^^^ ·) 0, tag := jointTag l y }, 0) := by
  rw [xResult, ho]
  rfl

theorem xResult_lscanInc (ho : y.x.op = .lscanInc) : xResult mask rm l y =
    sumResult y (xSum rm y.a.kind ((l.filter fun x => decide (x.lane ≤ y.lane)).map (·.a.bits))) := by
  rw [xResult, ho]
  rfl

theorem xResult_lscanExc (ho : y.x.op = .lscanExc) : xResult mask rm l y =
    sumResult y (xSum rm y.a.kind ((l.filter fun x => decide (x.lane < y.lane)).map (·.a.bits))) := by
  rw [xResult, ho]
  rfl

/-! ### Lanes in ascending order -/

section sorted

variable (hs : (l.map (·.lane)).Pairwise (· < ·))
include hs

/-- Two members of a meeting are at two lanes. -/
theorem eq_of_lane_eq (hy : y ∈ l) (hz : z ∈ l) (h : y.lane = z.lane) : y = z := by
  exact List.inj_on_of_nodup_map (hs.imp fun hlt => hlt.ne) hy hz h

/-- The member at a lane. -/
theorem find?_lane (hz : z ∈ l) {k : Nat} (hk : z.lane = k) : (l.find? fun x => x.lane == k) = some z := by
  cases hf : l.find? fun x => x.lane == k with
  | none => exact absurd hk (by simpa using List.find?_eq_none.1 hf z hz)
  | some w =>
    have hw : w.lane = k := by simpa using List.find?_some hf
    rw [eq_of_lane_eq hs (List.mem_of_find?_eq_some hf) hz (hw.trans hk.symm)]

/-- The lowest member is the first. -/
theorem head?_eq_iff (hy : y ∈ l) : l.head?.map (·.lane) = some y.lane ↔ ∀ z ∈ l, y.lane ≤ z.lane := by
  cases l with
  | nil => cases hy
  | cons w l =>
    rw [List.map_cons, List.pairwise_cons] at hs
    have hlow : ∀ z ∈ w :: l, w.lane ≤ z.lane := by
      rw [List.forall_mem_cons]
      exact ⟨le_rfl, fun z hz => (hs.1 _ (List.mem_map_of_mem hz)).le⟩
    rw [List.head?_cons, Option.map_some, Option.some.injEq]
    exact ⟨fun he => he ▸ hlow, fun hle => Nat.le_antisymm (hlow y hy) (hle w (List.mem_cons_self ..))⟩

end sorted

theorem find?_lane_none {k : Nat} (h : ∀ z ∈ l, z.lane ≠ k) : (l.find? fun x => x.lane == k) = none :=
  List.find?_eq_none.2 fun z hz => by simpa using h z hz

/-! ### Votes -/

theorem two_pow_dvd_ballotSum {k : Nat} (h : ∀ z ∈ l, k ≤ z.lane) : 2 ^ k ∣ ballotSum l := by
  refine List.dvd_sum fun n hn => ?_
  obtain ⟨z, hz, rfl⟩ := List.mem_map.1 hn
  split
  · exact Nat.pow_dvd_pow 2 (h z hz)
  · exact Nat.dvd_zero _

theorem testBit_ballotSum (hs : (l.map (·.lane)).Pairwise (· < ·)) (i : Nat) :
    (ballotSum l).testBit i = true ↔ ∃ z ∈ l, z.lane = i ∧ z.a.bits ≠ 0 := by
  induction l with
  | nil => simp [ballotSum]
  | cons w l ih =>
    rw [List.map_cons, List.pairwise_cons] at hs
    have hlow : ∀ z ∈ l, w.lane + 1 ≤ z.lane := fun z hz => hs.1 _ (List.mem_map_of_mem hz)
    obtain ⟨c, hc⟩ := two_pow_dvd_ballotSum hlow
    have hlt : (if w.a.bits != 0 then 2 ^ w.lane else 0) < 2 ^ (w.lane + 1) := by
      split
      · exact Nat.pow_lt_pow_right (by decide) (Nat.lt_succ_self _)
      · exact Nat.two_pow_pos _
    have hsum : ballotSum (w :: l) = 2 ^ (w.lane + 1) * c + if w.a.bits != 0 then 2 ^ w.lane else 0 := by
      rw [← hc, Nat.add_comm]
      rfl
    have hrest : ∀ j, (ballotSum l).testBit j = (decide (w.lane + 1 ≤ j) && c.testBit (j - (w.lane + 1))) := fun j => by
      rw [hc, Nat.testBit_two_pow_mul]
    rw [hsum, Nat.testBit_two_pow_mul_add _ hlt]
    have ih' := ih hs.2
    by_cases hi : i < w.lane + 1
    · have hnone : ¬ ∃ z ∈ l, z.lane = i ∧ z.a.bits ≠ 0 := fun ⟨z, hz, he, _⟩ => by have := hlow z hz; omega
      rw [if_pos hi, List.exists_mem_cons_iff, or_iff_left hnone]
      by_cases hb : w.a.bits = 0
      · simp [hb]
      · rw [if_pos (by simpa using hb), Nat.testBit_two_pow]
        exact ⟨fun h => ⟨of_decide_eq_true h, hb⟩, fun h => decide_eq_true h.1⟩
    · have hne : w.lane ≠ i := by omega
      rw [if_neg hi, List.exists_mem_cons_iff, or_iff_right fun h => hne h.1, ← ih', hrest, decide_eq_true (by omega), Bool.true_and]

/-! ### Reductions over words -/

theorem getLsbD_foldl_and (ws : List Word) (w : Word) (i : Nat) :
    (ws.foldl (· &&& ·) w).getLsbD i = true ↔ w.getLsbD i = true ∧ ∀ v ∈ ws, v.getLsbD i = true := by
  induction ws generalizing w with
  | nil => simp
  | cons v ws ih => simp [ih, and_assoc]

theorem getLsbD_foldl_or (ws : List Word) (w : Word) (i : Nat) :
    (ws.foldl (· ||| ·) w).getLsbD i = true ↔ w.getLsbD i = true ∨ ∃ v ∈ ws, v.getLsbD i = true := by
  induction ws generalizing w with
  | nil => simp
  | cons v ws ih => simp [ih, or_assoc]

theorem getLsbD_foldl_xor (l : List Member) (w : Word) (i : Nat) :
    ((l.map (·.a.bits)).foldl (· ^^^ ·) w).getLsbD i =
      (w.getLsbD i ^^ ((l.filter fun z => z.a.bits.getLsbD i).length % 2 == 1)) := by
  induction l generalizing w with
  | nil => simp
  | cons z l ih =>
    rw [List.map_cons, List.foldl_cons, ih, BitVec.getLsbD_xor, List.filter_cons]
    cases hz : z.a.bits.getLsbD i with
    | false => simp
    | true =>
      have hodd : ∀ n : Nat, ((n + 1) % 2 == 1) = !(n % 2 == 1) := fun n => by
        obtain h | h := Nat.mod_two_eq_zero_or_one n <;> simp [Nat.add_mod, h]
      rw [if_pos rfl, List.length_cons, hodd]
      cases w.getLsbD i <;> simp

theorem toNat_foldl_add (ws : List Word) (w : Word) :
    (ws.foldl (· + ·) w).toNat = (w.toNat + (ws.map (·.toNat)).sum) % 2 ^ 32 := by
  induction ws generalizing w with
  | nil => simp [Nat.mod_eq_of_lt w.isLt]
  | cons v ws ih =>
    rw [List.foldl_cons, ih, BitVec.toNat_add, List.map_cons, List.sum_cons]
    omega

/-- A sum of words that are no f32, modulo 2^32. -/
theorem xSum_toNat {k : Nat} (hk : k ≠ 7) (ws : List Word) : (xSum rm k ws).1.toNat = (ws.map (·.toNat)).sum % 2 ^ 32 := by
  cases ws with
  | nil => rfl
  | cons w ws =>
    have h := toNat_foldl_add (w :: ws) 0
    rw [show (0 : Word).toNat = 0 from rfl, Nat.zero_add] at h
    simpa [xSum, hk] using h

/-- The sum of f32 words, rounded once. -/
theorem xSum_f32 {ws : List Word} (hne : ws ≠ []) : (xSum rm 7 ws).1 =
    BitVec.ofNat 32 (roundTo (sumNum rm (ws.map fun w => f32.decode w.toNat)).1 f32 rm .ovf).1 := by
  cases ws with
  | nil => exact absurd rfl hne
  | cons w ws => rfl

/-- The word with the least key of a list. -/
def leastBy (key : Word → Int) (ws : List Word) (w : Word) : Word := ws.foldl (fun acc x => if key x < key acc then x else acc) w

theorem leastBy_spec (key : Word → Int) (ws : List Word) (w : Word) :
    leastBy key ws w ∈ w :: ws ∧ ∀ x ∈ w :: ws, key (leastBy key ws w) ≤ key x := by
  induction ws generalizing w with
  | nil => simp [leastBy]
  | cons x ws ih =>
    have hcons : leastBy key (x :: ws) w = leastBy key ws (if key x < key w then x else w) := rfl
    obtain ⟨hmem, hle⟩ := ih (if key x < key w then x else w)
    rw [← hcons, List.forall_mem_cons] at hle
    rw [← hcons, List.mem_cons] at hmem
    obtain ⟨hhead, htail⟩ := hle
    rw [List.mem_cons, List.mem_cons, List.forall_mem_cons, List.forall_mem_cons]
    by_cases hx : key x < key w
    · rw [if_pos hx] at hmem hhead
      exact ⟨.inr hmem, by omega, hhead, htail⟩
    · rw [if_neg hx] at hmem hhead
      exact ⟨hmem.imp_right .inr, hhead, by omega, htail⟩

/-- The number of a word of an integer kind of one element. -/
def wordNum (k : Nat) (w : Word) : Int := if k = 1 then w.toInt else (w.toNat : Int)

/-- The key whose least value an extreme is. -/
def extremeKey (lo : Bool) (k : Nat) (w : Word) : Int := if lo then wordNum k w else -wordNum k w

theorem xExtreme_eq {k : Nat} (hk : k ≠ 7) (lo : Bool) (w : Word) (ws : List Word) : xExtreme lo k (w :: ws) = leastBy (extremeKey lo k) ws w := by
  have hstep : ∀ acc x : Word, (lo == decide (wordNum k x < wordNum k acc) && wordNum k x != wordNum k acc) = true ↔
      extremeKey lo k x < extremeKey lo k acc := fun acc x => by
    cases lo <;> simp [extremeKey] <;> omega
  simp only [xExtreme, hk, if_false]
  refine List.foldl_ext _ _ _ fun acc x _ => ?_
  exact if_congr (hstep acc x) rfl rfl

/-- An extreme over members is one member's word, and none is beyond it. -/
theorem xExtreme_spec {k : Nat} (hk : k ≠ 7) (lo : Bool) (hy : y ∈ l) :
    (∃ z ∈ l, xExtreme lo k (l.map (·.a.bits)) = z.a.bits) ∧
      ∀ z ∈ l, extremeKey lo k (xExtreme lo k (l.map (·.a.bits))) ≤ extremeKey lo k z.a.bits := by
  cases l with
  | nil => cases hy
  | cons w l =>
    rw [List.map_cons, xExtreme_eq hk]
    obtain ⟨hmem, hle⟩ := leastBy_spec (extremeKey lo k) (l.map (·.a.bits)) w.a.bits
    rw [← List.map_cons (f := fun x : Member => x.a.bits)] at hmem hle
    obtain ⟨z, hz, he⟩ := List.mem_map.1 hmem
    exact ⟨⟨z, hz, he.symm⟩, fun z hz => hle _ (List.mem_map_of_mem hz)⟩

end Sys2Proof.Machine
end

section
/-! SUPPORT. Slides over the members of a meeting (07_execution.md R132). -/

namespace Sys2Proof.Machine

variable {l : List Member} {mask : Word} {y z : Member} {n k e i p : Nat}

/-! ### Elements of words -/

/-- A bit of an element. -/
theorem testBit_elemBits (w : Word) (n e j : Nat) :
    (elemBits w n e).testBit j = (decide (j < 32 / n) && w.getLsbD (32 / n * e + j)) := by
  rw [elemBits, Nat.testBit_mod_two_pow, Nat.testBit_div_two_pow, Nat.add_comm]
  rfl

/-- Two words with the same elements are the same. -/
theorem eq_of_elemBits_eq {v w : Word} (hn : 32 / n * n = 32) (h : ∀ e, e < n → elemBits v n e = elemBits w n e) : v = w := by
  have hb : 0 < 32 / n := Nat.pos_of_ne_zero fun h0 => by rw [h0, Nat.zero_mul] at hn; cases hn
  have hbit : ∀ (x : Word) i, x.getLsbD i = (elemBits x n (i / (32 / n))).testBit (i % (32 / n)) := fun x i => by
    rw [testBit_elemBits, decide_eq_true (Nat.mod_lt _ hb), Bool.true_and, Nat.div_add_mod]
  refine BitVec.eq_of_getLsbD_eq fun i hi => ?_
  rw [hbit v i, hbit w i, h]
  exact Nat.div_lt_of_lt_mul (by rwa [hn])

/-- The elements of a word of elements of w bits stand one after another. -/
theorem elem_place {w : Nat} (hn : w * n = 32) (he : e < n) : w * e + w ≤ 32 := by
  rw [← hn, ← Nat.mul_succ]
  exact Nat.mul_le_mul_left _ he

/-- The elements of a word and a filler shifted up by one element. -/
theorem elemBits_shiftUp (x f : Word) (hn : 32 / n * n = 32) (he : e < n) :
    elemBits ((x <<< (32 / n)) ||| (f >>> (32 - 32 / n))) n e = if e = 0 then elemBits f n (n - 1) else elemBits x n (e - 1) := by
  refine Nat.eq_of_testBit_eq fun j => ?_
  rw [testBit_elemBits, BitVec.getLsbD_or, BitVec.getLsbD_shiftLeft, BitVec.getLsbD_ushiftRight]
  have hplace := elem_place hn he
  generalize hw : 32 / n = w at *
  cases e with
  | zero =>
    obtain ⟨m, rfl⟩ : ∃ m, n = m + 1 := ⟨n - 1, by omega⟩
    rw [if_pos rfl, testBit_elemBits, hw, Nat.add_sub_cancel, Nat.mul_zero, Nat.zero_add, show w * m = 32 - w by
      rw [Nat.mul_succ] at hn
      omega]
    by_cases hj : j < w <;> simp [hj]
  | succ e =>
    rw [if_neg (by omega), testBit_elemBits, hw, Nat.add_sub_cancel, BitVec.getLsbD_of_ge f _ (by rw [Nat.mul_succ] at hplace ⊢; omega),
      Bool.or_false]
    by_cases hj : j < w
    · rw [Nat.mul_succ] at hplace ⊢
      rw [show w * e + w + j - w = w * e + j by omega]
      simp [show w * e + w + j < 32 by omega, show ¬ w * e + w + j < w by omega]
    · simp [hj]

/-- The elements of a word and a filler shifted down by one element. -/
theorem elemBits_shiftDown (x f : Word) (hn : 32 / n * n = 32) (he : e < n) :
    elemBits ((x >>> (32 / n)) ||| (f <<< (32 - 32 / n))) n e = if e + 1 = n then elemBits f n 0 else elemBits x n (e + 1) := by
  refine Nat.eq_of_testBit_eq fun j => ?_
  rw [testBit_elemBits, BitVec.getLsbD_or, BitVec.getLsbD_shiftLeft, BitVec.getLsbD_ushiftRight]
  have hplace := elem_place hn he
  generalize hw : 32 / n = w at *
  by_cases hlast : e + 1 = n
  · have hend : w * e + w = 32 := by rw [← hn, ← hlast, Nat.mul_succ]
    rw [if_pos hlast, testBit_elemBits, hw, BitVec.getLsbD_of_ge x _ (by omega), Bool.false_or, Nat.mul_zero, Nat.zero_add]
    by_cases hj : j < w
    · rw [show w * e + j - (32 - w) = j by omega]
      simp [show w * e + j < 32 by omega, show ¬ w * e + j < 32 - w by omega]
    · simp [hj]
  · have hnext := elem_place hn (e := e + 1) (by omega)
    rw [if_neg hlast, testBit_elemBits, hw, show w + (w * e + j) = w * (e + 1) + j by rw [Nat.mul_succ]; omega]
    rw [Nat.mul_succ] at hnext
    by_cases hj : j < w
    · simp [show w * e + j < 32 - w by omega]
    · simp [hj]

/-! ### Blocks of elements -/

/-- The elements that a lane of the mask contributes (R132). -/
def laneElems (n : Nat) (l : List Member) (i : Nat) : List Nat :=
  match l.find? fun m => m.lane == i with
  | some m => (List.range n).map fun e => elemBits m.a.bits n e
  | none => List.replicate n 0

theorem slideSeq_eq (mask : Word) (n : Nat) (l : List Member) : slideSeq mask n l = (maskLanes mask).flatMap (laneElems n l) := rfl

theorem length_laneElems (n : Nat) (l : List Member) (i : Nat) : (laneElems n l i).length = n := by
  unfold laneElems
  split <;> simp

theorem laneElems_of_mem (hs : (l.map (·.lane)).Pairwise (· < ·)) (hz : z ∈ l) (hk : z.lane = k) (he : e < n) :
    (laneElems n l k)[e]? = some (elemBits z.a.bits n e) := by
  simp [laneElems, find?_lane hs hz hk, he]

theorem laneElems_of_none (h : ∀ z ∈ l, z.lane ≠ k) (he : e < n) : (laneElems n l k)[e]? = some 0 := by
  simp [laneElems, find?_lane_none h, he]

/-- An element of a row of blocks of one length, by its block and its place there. -/
theorem getElem?_blocks {f : Nat → List Nat} (hf : ∀ i, (f i).length = n) (is : List Nat) (he : e < n) :
    (is.flatMap f)[p * n + e]? = is[p]?.bind fun i => (f i)[e]? := by
  induction is generalizing p with
  | nil => simp
  | cons i is ih =>
    rw [List.flatMap_cons]
    cases p with
    | zero =>
      rw [Nat.zero_mul, Nat.zero_add, List.getElem?_append_left (by rwa [hf])]
      rfl
    | succ p =>
      rw [List.getElem?_append_right (by rw [hf, Nat.succ_mul]; omega), hf, Nat.succ_mul, List.getElem?_cons_succ, ← ih]
      congr 1
      omega

theorem length_blocks {f : Nat → List Nat} (hf : ∀ i, (f i).length = n) (is : List Nat) : (is.flatMap f).length = is.length * n := by
  simp [List.length_flatMap, hf]

/-! ### Places in an ascending list -/

/-- An ascending list about one of its elements. -/
theorem split_sorted {is : List Nat} (hs : is.Pairwise (· < ·)) (hk : k ∈ is) : ∃ is1 is2, is = is1 ++ k :: is2 ∧ (∀ i ∈ is1, i < k) ∧
    (∀ i ∈ is2, k < i) ∧ is1.Pairwise (· < ·) ∧ is2.Pairwise (· < ·) ∧ (is.filter fun i => decide (i < k)) = is1 := by
  obtain ⟨is1, is2, rfl⟩ := List.append_of_mem hk
  rw [List.pairwise_append, List.pairwise_cons] at hs
  obtain ⟨h1, ⟨hk2, h2⟩, h12⟩ := hs
  have hlt : ∀ i ∈ is1, i < k := fun i hi => h12 i hi k (List.mem_cons_self ..)
  refine ⟨is1, is2, rfl, hlt, hk2, h1, h2, ?_⟩
  rw [List.filter_append, List.filter_cons_of_neg (by simp), List.filter_eq_self.2 (by simpa using hlt),
    List.filter_eq_nil_iff.2 (by simpa using fun i hi => (hk2 i hi).le), List.append_nil]

/-- An element of an ascending list above which, in the list, is k next. -/
def NextBelow (is : List Nat) (k j : Nat) : Prop := j ∈ is ∧ j < k ∧ ∀ i ∈ is, j < i → ¬ i < k
def NextAbove (is : List Nat) (k j : Nat) : Prop := j ∈ is ∧ k < j ∧ ∀ i ∈ is, k < i → ¬ i < j

section place

variable {is : List Nat} (hs : is.Pairwise (· < ·)) (hk : k ∈ is)
include hs hk

/-- The place of an element in an ascending list is the number of those below it. -/
theorem getElem?_place : is[(is.filter fun i => decide (i < k)).length]? = some k := by
  obtain ⟨is1, is2, rfl, -, -, -, -, hf⟩ := split_sorted hs hk
  rw [hf]
  simp

theorem getElem?_place_pred (hj : NextBelow is k i) : ∃ p, (is.filter fun i => decide (i < k)).length = p + 1 ∧ is[p]? = some i := by
  obtain ⟨is1, is2, rfl, hlt, hgt, hs1, -, hf⟩ := split_sorted hs hk
  obtain ⟨hmem, hlow, hnext⟩ := hj
  have hi : i ∈ is1 := by
    obtain h | h := List.mem_append.1 hmem
    · exact h
    · obtain rfl | h := List.mem_cons.1 h
      · exact absurd hlow (lt_irrefl _)
      · exact absurd (hgt i h) (by omega)
  obtain ⟨is1', j, rfl⟩ := (List.eq_nil_or_concat' is1).resolve_left (List.ne_nil_of_mem hi)
  have hij : j = i := by
    rw [List.pairwise_append] at hs1
    obtain ⟨-, -, hs1⟩ := hs1
    obtain h | h := List.mem_append.1 hi
    · exact absurd (hlt j (by simp)) (hnext j (by simp) (hs1 i h j (List.mem_singleton_self j)))
    · exact (List.mem_singleton.1 h).symm
  exact ⟨is1'.length, by rw [hf, List.length_append, List.length_singleton], by simp [hij]⟩

theorem place_eq_zero (hnone : ∀ i, ¬ NextBelow is k i) : (is.filter fun i => decide (i < k)).length = 0 := by
  obtain ⟨is1, is2, rfl, hlt, hgt, hs1, -, hf⟩ := split_sorted hs hk
  rw [hf, List.length_eq_zero_iff]
  obtain h | ⟨is1', j, rfl⟩ := List.eq_nil_or_concat' is1
  · exact h
  · rw [List.pairwise_append] at hs1
    obtain ⟨-, -, hs1⟩ := hs1
    refine absurd ⟨by simp, hlt j (by simp), fun i hi hji hik => ?_⟩ (hnone j)
    rcases List.mem_append.1 hi with h | h
    · rcases List.mem_append.1 h with h | h
      · have := hs1 i h j (List.mem_singleton_self j)
        omega
      · have := List.mem_singleton.1 h
        omega
    · rcases List.mem_cons.1 h with rfl | h
      · omega
      · have := hgt i h
        omega

theorem getElem?_place_succ (hj : NextAbove is k i) : is[(is.filter fun i => decide (i < k)).length + 1]? = some i := by
  obtain ⟨is1, is2, rfl, hlt, hgt, -, hs2, hf⟩ := split_sorted hs hk
  obtain ⟨hmem, hhigh, hnext⟩ := hj
  rw [hf]
  have hi : i ∈ is2 := by
    obtain h | h := List.mem_append.1 hmem
    · exact absurd (hlt i h) (by omega)
    · exact (List.mem_cons.1 h).resolve_left (by omega)
  cases is2 with
  | nil => cases hi
  | cons j is2 =>
    have hij : j = i := by
      rw [List.pairwise_cons] at hs2
      obtain h | h := List.mem_cons.1 hi
      · exact h.symm
      · exact absurd (hs2.1 i h) (hnext j (by simp) (hgt j (List.mem_cons_self ..)))
    simp [hij]

theorem place_eq_last (hnone : ∀ i, ¬ NextAbove is k i) : (is.filter fun i => decide (i < k)).length + 1 = is.length := by
  obtain ⟨is1, is2, rfl, hlt, hgt, -, hs2, hf⟩ := split_sorted hs hk
  rw [hf]
  cases is2 with
  | nil => simp
  | cons j is2 =>
    rw [List.pairwise_cons] at hs2
    have hjk := hgt j (List.mem_cons_self ..)
    refine absurd ⟨by simp, hjk, fun i hi hki hij => ?_⟩ (hnone j)
    rcases List.mem_append.1 hi with h | h
    · exact absurd (hlt i h) (by omega)
    · rcases List.mem_cons.1 h with rfl | h
      · omega
      · rcases List.mem_cons.1 h with rfl | h
        · omega
        · have := hs2.1 i h
          omega

end place

/-! ### The elements of a slide -/

/-- The lanes of the mask below a lane, counted. -/
def slidePlace (mask : Word) (k : Nat) : Nat := ((maskLanes mask).filter fun i => decide (i < k)).length

/-- All elements, with the filler of the lowest member before them or that of the highest after them. -/
def slideRow (up : Bool) (mask : Word) (n : Nat) (l : List Member) : List Nat :=
  if up then ((l.head?.map fun x => elemBits x.fill n (n - 1)).getD 0) :: (slideSeq mask n l).dropLast
  else (slideSeq mask n l).drop 1 ++ [(l.getLast?.map fun x => elemBits x.fill n 0).getD 0]

theorem xSlide_eq (up : Bool) (mask : Word) (l : List Member) (y : Member) : xSlide up mask l y = packElems (nElem y.a.kind)
    (((slideRow up mask (nElem y.a.kind) l).drop (slidePlace mask y.lane * nElem y.a.kind)).take (nElem y.a.kind)) := by
  simp only [xSlide, slideRow, slidePlace, maskLanes, List.filter_filter, Bool.and_comm]

theorem length_slideSeq (mask : Word) (n : Nat) (l : List Member) : (slideSeq mask n l).length = (maskLanes mask).length * n :=
  length_blocks (length_laneElems n l) _

/-- The highest member is the last. -/
theorem getLast?_of_highest (hs : (l.map (·.lane)).Pairwise (· < ·)) (hy : y ∈ l) (hhigh : ∀ z ∈ l, z.lane ≤ y.lane) :
    l.getLast? = some y := by
  obtain rfl | ⟨l', w, rfl⟩ := List.eq_nil_or_concat' l
  · cases hy
  · rw [List.map_append, List.pairwise_append] at hs
    obtain ⟨-, -, hs⟩ := hs
    obtain h | h := List.mem_append.1 hy
    · have hlt := hs y.lane (List.mem_map_of_mem h) w.lane (by simp)
      have hle := hhigh w (by simp)
      omega
    · rw [List.getLast?_concat, List.mem_singleton.1 h]

section slide

variable (hs : (l.map (·.lane)).Pairwise (· < ·)) (hmem : ∀ z ∈ l, z.lane ∈ maskLanes mask) (hy : y ∈ l)
include hmem hy

theorem slidePlace_lt : slidePlace mask y.lane < (maskLanes mask).length :=
  (List.getElem?_eq_some_iff.1 (getElem?_place (maskLanes_sorted mask) (hmem y hy))).1

/-- The elements of a lane and of those before it are among all. -/
theorem slidePlace_le (n : Nat) : slidePlace mask y.lane * n + n ≤ (slideSeq mask n l).length := by
  rw [length_slideSeq, ← Nat.succ_mul]
  exact Nat.mul_le_mul_right _ (slidePlace_lt hmem hy)

/-- An element of a slide is the one at its place in the row. -/
theorem elemBits_xSlide {up : Bool} {c : Nat} (he : e < nElem y.a.kind)
    (h : (slideRow up mask (nElem y.a.kind) l)[slidePlace mask y.lane * nElem y.a.kind + e]? = some c) :
    elemBits (xSlide up mask l y) (nElem y.a.kind) e = c % 2 ^ (32 / nElem y.a.kind) := by
  have hlen := slidePlace_le hmem hy (nElem y.a.kind)
  have hpos := nElem_pos y.a.kind
  have hrow : (slideRow up mask (nElem y.a.kind) l).length = (slideSeq mask (nElem y.a.kind) l).length := by
    cases up <;> simp [slideRow] <;> omega
  rw [xSlide_eq]
  refine elemBits_packElems (nElem_dvd _) ?_ ?_
  · rw [List.length_take, List.length_drop, hrow]
    omega
  · rw [List.getElem?_take_of_lt he, List.getElem?_drop]
    exact h

include hs

/-- A slide up moves the elements of a lane up by one. -/
theorem xSlide_up_own (h0 : 0 < e) (he : e < nElem y.a.kind) :
    elemBits (xSlide true mask l y) (nElem y.a.kind) e = elemBits y.a.bits (nElem y.a.kind) (e - 1) := by
  have hlen := slidePlace_le hmem hy (nElem y.a.kind)
  obtain ⟨j, rfl⟩ : ∃ j, e = j + 1 := ⟨e - 1, by omega⟩
  rw [elemBits_xSlide hmem hy he (c := elemBits y.a.bits (nElem y.a.kind) j), Nat.mod_eq_of_lt (elemBits_lt ..)]
  · rfl
  · rw [slideRow, if_pos rfl, ← Nat.add_assoc, List.getElem?_cons_succ, List.getElem?_dropLast, if_pos (by omega), slideSeq_eq,
      getElem?_blocks (length_laneElems _ l) _ (by omega), slidePlace, getElem?_place (maskLanes_sorted mask) (hmem y hy)]
    exact laneElems_of_mem hs hy rfl (by omega)

omit hs in
/-- Its lowest element is the highest of the lane before it. -/
theorem xSlide_up_below {c : Nat} (hk : NextBelow (maskLanes mask) y.lane k)
    (hc : (laneElems (nElem y.a.kind) l k)[nElem y.a.kind - 1]? = some c) :
    elemBits (xSlide true mask l y) (nElem y.a.kind) 0 = c % 2 ^ (32 / nElem y.a.kind) := by
  have hlen := slidePlace_le hmem hy (nElem y.a.kind)
  have hpos := nElem_pos y.a.kind
  obtain ⟨p, hp, hpk⟩ := getElem?_place_pred (maskLanes_sorted mask) (hmem y hy) hk
  have hp' : slidePlace mask y.lane = p + 1 := hp
  refine elemBits_xSlide hmem hy hpos ?_
  rw [hp'] at hlen ⊢
  rw [Nat.succ_mul] at hlen ⊢
  rw [slideRow, if_pos rfl, show p * nElem y.a.kind + nElem y.a.kind + 0 = p * nElem y.a.kind + (nElem y.a.kind - 1) + 1 by omega,
    List.getElem?_cons_succ, List.getElem?_dropLast, if_pos (by omega), slideSeq_eq,
    getElem?_blocks (length_laneElems _ l) _ (by omega), hpk]
  exact hc

/-- The lowest element of the lowest lane is the highest of its filler. -/
theorem xSlide_up_first (hnone : ∀ k, ¬ NextBelow (maskLanes mask) y.lane k) :
    elemBits (xSlide true mask l y) (nElem y.a.kind) 0 = elemBits y.fill (nElem y.a.kind) (nElem y.a.kind - 1) := by
  have hp : slidePlace mask y.lane = 0 := place_eq_zero (maskLanes_sorted mask) (hmem y hy) hnone
  have hlow : ∀ z ∈ l, y.lane ≤ z.lane := fun z hz => by
    have h := getElem?_place (maskLanes_sorted mask) (hmem y hy)
    by_contra hlt
    have hin : z.lane ∈ (maskLanes mask).filter fun i => decide (i < y.lane) :=
      List.mem_filter.2 ⟨hmem z hz, by simpa using not_le.1 hlt⟩
    rw [List.eq_nil_of_length_eq_zero hp] at hin
    cases hin
  obtain ⟨w, hw, hwl⟩ := Option.map_eq_some_iff.1 ((head?_eq_iff hs hy).2 hlow)
  obtain rfl := eq_of_lane_eq hs (List.mem_of_mem_head? hw) hy hwl
  rw [elemBits_xSlide hmem hy (nElem_pos _) (c := elemBits w.fill (nElem w.a.kind) (nElem w.a.kind - 1)),
    Nat.mod_eq_of_lt (elemBits_lt ..)]
  rw [hp, slideRow, if_pos rfl, Nat.zero_mul, hw]
  rfl

/-- A slide down moves the elements of a lane down by one. -/
theorem xSlide_down_own (he : e + 1 < nElem y.a.kind) :
    elemBits (xSlide false mask l y) (nElem y.a.kind) e = elemBits y.a.bits (nElem y.a.kind) (e + 1) := by
  have hlen := slidePlace_le hmem hy (nElem y.a.kind)
  rw [elemBits_xSlide hmem hy (by omega) (c := elemBits y.a.bits (nElem y.a.kind) (e + 1)), Nat.mod_eq_of_lt (elemBits_lt ..)]
  rw [slideRow, if_neg (by simp), List.getElem?_append_left (by rw [List.length_drop]; omega), List.getElem?_drop,
    Nat.add_comm 1, Nat.add_assoc, slideSeq_eq,
    getElem?_blocks (length_laneElems _ l) _ he, slidePlace, getElem?_place (maskLanes_sorted mask) (hmem y hy)]
  exact laneElems_of_mem hs hy rfl he

omit hs in
/-- Its highest element is the lowest of the lane after it. -/
theorem xSlide_down_above {c : Nat} (hk : NextAbove (maskLanes mask) y.lane k)
    (hc : (laneElems (nElem y.a.kind) l k)[0]? = some c) :
    elemBits (xSlide false mask l y) (nElem y.a.kind) (nElem y.a.kind - 1) = c % 2 ^ (32 / nElem y.a.kind) := by
  have hpos := nElem_pos y.a.kind
  have hpk : (maskLanes mask)[slidePlace mask y.lane + 1]? = some k := getElem?_place_succ (maskLanes_sorted mask) (hmem y hy) hk
  have hlen : (slidePlace mask y.lane + 1) * nElem y.a.kind + nElem y.a.kind ≤ (slideSeq mask (nElem y.a.kind) l).length := by
    rw [length_slideSeq, ← Nat.succ_mul]
    exact Nat.mul_le_mul_right _ (List.getElem?_eq_some_iff.1 hpk).1
  refine elemBits_xSlide hmem hy (by omega) ?_
  rw [slideRow, if_neg (by simp), List.getElem?_append_left (by rw [List.length_drop]; rw [Nat.succ_mul] at hlen; omega),
    List.getElem?_drop, show 1 + (slidePlace mask y.lane * nElem y.a.kind + (nElem y.a.kind - 1)) =
      (slidePlace mask y.lane + 1) * nElem y.a.kind + 0 by rw [Nat.succ_mul]; omega, slideSeq_eq,
    getElem?_blocks (length_laneElems _ l) _ hpos, hpk]
  exact hc

/-- The highest element of the highest lane is the lowest of its filler. -/
theorem xSlide_down_last (hnone : ∀ k, ¬ NextAbove (maskLanes mask) y.lane k) :
    elemBits (xSlide false mask l y) (nElem y.a.kind) (nElem y.a.kind - 1) = elemBits y.fill (nElem y.a.kind) 0 := by
  have hpos := nElem_pos y.a.kind
  have hp : slidePlace mask y.lane + 1 = (maskLanes mask).length := place_eq_last (maskLanes_sorted mask) (hmem y hy) hnone
  have hlen : (slideSeq mask (nElem y.a.kind) l).length = slidePlace mask y.lane * nElem y.a.kind + nElem y.a.kind := by
    rw [length_slideSeq, ← hp, Nat.succ_mul]
  have hhigh : ∀ z ∈ l, z.lane ≤ y.lane := fun z hz => by
    obtain ⟨hlt, hat⟩ := List.getElem?_eq_some_iff.1 (getElem?_place (maskLanes_sorted mask) (hmem y hy))
    obtain ⟨i, hi, hzi⟩ := List.getElem_of_mem (hmem z hz)
    rw [← hp] at hi
    rw [← hat, ← hzi]
    obtain h | rfl := (Nat.le_of_lt_succ hi).lt_or_eq
    · exact (List.pairwise_iff_getElem.1 (maskLanes_sorted mask) i _ _ hlt h).le
    · exact le_rfl
  rw [elemBits_xSlide hmem hy (by omega) (c := elemBits y.fill (nElem y.a.kind) 0), Nat.mod_eq_of_lt (elemBits_lt ..)]
  rw [slideRow, if_neg (by simp), List.getElem?_append_right (by rw [List.length_drop]; omega), List.length_drop, hlen,
    getLast?_of_highest hs hy hhigh, show slidePlace mask y.lane * nElem y.a.kind + (nElem y.a.kind - 1) -
      (slidePlace mask y.lane * nElem y.a.kind + nElem y.a.kind - 1) = 0 by omega]
  rfl

end slide

end Sys2Proof.Machine
end

section
/-! PROOFS. What a completed meeting gives each member (07_execution.md R132, R133). -/

namespace Sys2Proof.Machine

variable {l : List Member} {mask : Word} {rm : Rm} {y z : Member} {q : Arch} {n k : Nat}

theorem jointTag_spec (l : List Member) (y : Member) : ((∀ z ∈ l, z.a.tag = y.a.tag) → jointTag l y = y.a.tag) ∧
    (¬(∀ z ∈ l, z.a.tag = y.a.tag) → jointTag l y = tagRaw) := by
  have hall : l.all (fun x => x.a.tag == y.a.tag) = true ↔ ∀ z ∈ l, z.a.tag = y.a.tag := by simp
  exact ⟨fun h => if_pos (hall.2 h), fun h => if_neg fun h' => h (hall.1 h')⟩

theorem ballot_bits (hs : (l.map (·.lane)).Pairwise (· < ·)) {i : Nat} (hi : i < 32) :
    (regNat (ballotSum l)).bits.getLsbD i = true ↔ ∃ z ∈ l, z.lane = i ∧ z.a.bits ≠ 0 := by
  rw [← testBit_ballotSum hs, regNat, regN32, BitVec.getLsbD_ofNat, decide_eq_true hi, Bool.true_and]

theorem regNat_bit_congr {c : Bool} {P : Prop} [Decidable P] (h : c = true ↔ P) :
    regNat (if c then 1 else 0) = regNat (if P then 1 else 0) := by
  simp only [h]

theorem lredAnd_bits {i : Nat} (hi : i < 32) :
    ((l.map fun z : Member => z.a.bits).foldl (· &&& ·) 0xFFFFFFFF).getLsbD i = true ↔ ∀ z ∈ l, z.a.bits.getLsbD i = true := by
  have hones : (0xFFFFFFFF : Word).getLsbD i = true := by
    rw [show (0xFFFFFFFF : Word) = BitVec.allOnes 32 from rfl, BitVec.getLsbD_allOnes, decide_eq_true hi]
  rw [getLsbD_foldl_and, and_iff_right hones, List.forall_mem_map]

theorem lredOr_bits {i : Nat} :
    ((l.map fun z : Member => z.a.bits).foldl (· ||| ·) 0).getLsbD i = true ↔ ∃ z ∈ l, z.a.bits.getLsbD i = true := by
  rw [getLsbD_foldl_or]
  simp

theorem lredXor_bits {i : Nat} :
    ((l.map fun z : Member => z.a.bits).foldl (· ^^^ ·) 0).getLsbD i = ((l.filter fun z => z.a.bits.getLsbD i).length % 2 == 1) := by
  rw [getLsbD_foldl_xor]
  simp

/-- The members up to a live one, itself among them. -/
theorem scanInc_ne_nil (hy : y ∈ l) : (l.filter fun z => decide (z.lane ≤ y.lane)).map (·.a.bits) ≠ [] :=
  List.ne_nil_of_mem (List.mem_map_of_mem (List.mem_filter.2 ⟨hy, by simp⟩))

/-- The members before the lowest live one: none. -/
theorem scanExc_eq_nil (h : ∀ z ∈ l, y.lane ≤ z.lane) : l.filter (fun z => decide (z.lane < y.lane)) = [] := by
  simpa [List.filter_eq_nil_iff] using h

theorem scanExc_ne_nil (h : ∃ z ∈ l, z.lane < y.lane) : (l.filter fun z => decide (z.lane < y.lane)).map (·.a.bits) ≠ [] := by
  obtain ⟨z, hz, hlt⟩ := h
  exact List.ne_nil_of_mem (List.mem_map_of_mem (List.mem_filter.2 ⟨hz, by simpa using hlt⟩))

/-- The code of the extreme of f32 members. -/
def extremeCode (f : Sys2Proof.Num → Sys2Proof.Num → Sys2Proof.Num) : List Member → Word
  | [] => 0
  | z :: rest => BitVec.ofNat 32
      (exactCode (rest.foldl (fun acc w => f acc (f32.decode w.a.bits.toNat)) (f32.decode z.a.bits.toNat)) f32)

theorem xExtreme_f32 (lo : Bool) (l : List Member) :
    xExtreme lo 7 (l.map (·.a.bits)) = extremeCode (if lo then minNum else maxNum) l := by
  cases l with
  | nil => rfl
  | cons z l =>
    simp only [xExtreme, extremeCode, List.map_cons, if_true, List.foldl_map]

/-- An integer kind of one element is no f32. -/
theorem kind_ne_f32 (h : y.a.kind = 1 ∨ y.a.kind = 2) : y.a.kind ≠ 7 := by omega

theorem nextBelow_iff : NextBelow (maskLanes mask) n k ↔ mask.getLsbD k = true ∧ k < n ∧ ∀ j, k < j → j < n → mask.getLsbD j = false := by
  simp only [NextBelow, mem_maskLanes]
  constructor
  · rintro ⟨⟨_, hk⟩, hlt, h⟩
    exact ⟨hk, hlt, fun j hkj hjn => Bool.eq_false_iff.2 fun hb => h j ⟨BitVec.lt_of_getLsbD hb, hb⟩ hkj hjn⟩
  · rintro ⟨hk, hlt, h⟩
    exact ⟨⟨BitVec.lt_of_getLsbD hk, hk⟩, hlt, fun j ⟨_, hb⟩ hkj hjn => by rw [h j hkj hjn] at hb; cases hb⟩

theorem nextAbove_iff : NextAbove (maskLanes mask) n k ↔ k < 32 ∧ mask.getLsbD k = true ∧ n < k ∧
    ∀ j, n < j → j < k → mask.getLsbD j = false := by
  simp only [NextAbove, mem_maskLanes]
  constructor
  · rintro ⟨⟨h32, hk⟩, hlt, h⟩
    exact ⟨h32, hk, hlt, fun j hnj hjk => Bool.eq_false_iff.2 fun hb => h j ⟨by omega, hb⟩ hnj hjk⟩
  · rintro ⟨h32, hk, hlt, h⟩
    exact ⟨⟨h32, hk⟩, hlt, fun j ⟨hj, hb⟩ hnj hjk => by rw [h j hnj hjk] at hb; cases hb⟩

/-- The live members of a completed meeting: in ascending lane, each at a lane of the mask. -/
structure LiveMembers (l : List Member) (mask : Word) (y : Member) : Prop where
  sorted : (l.map (·.lane)).Pairwise (· < ·)
  lanes : ∀ z ∈ l, z.lane ∈ maskLanes mask
  mem : y ∈ l

/-- The elements of a slide up. -/
theorem xSlide_up_elems (h : LiveMembers l mask y) :
    let v := xSlide true mask l y
    let n := nElem y.a.kind
    (∀ e, 0 < e → e < n → elemBits v n e = elemBits y.a.bits n (e - 1)) ∧
    (∀ k, NextBelow (maskLanes mask) y.lane k → (∀ z ∈ l, z.lane = k → elemBits v n 0 = elemBits z.a.bits n (n - 1)) ∧
      ((∀ z ∈ l, z.lane ≠ k) → elemBits v n 0 = 0)) ∧
    ((∀ k, ¬NextBelow (maskLanes mask) y.lane k) → elemBits v n 0 = elemBits y.fill n (n - 1)) := by
  obtain ⟨hs, hl, hy⟩ := h
  have hpos := nElem_pos y.a.kind
  refine ⟨fun e h0 he => xSlide_up_own hs hl hy h0 he, fun k hk => ⟨fun z hz hzk => ?_, fun hnone => ?_⟩, xSlide_up_first hs hl hy⟩
  · rw [xSlide_up_below hl hy hk (laneElems_of_mem hs hz hzk (by omega)), Nat.mod_eq_of_lt (elemBits_lt ..)]
  · rw [xSlide_up_below hl hy hk (laneElems_of_none hnone (by omega)), Nat.zero_mod]

/-- The elements of a slide down. -/
theorem xSlide_down_elems (h : LiveMembers l mask y) :
    let v := xSlide false mask l y
    let n := nElem y.a.kind
    (∀ e, e + 1 < n → elemBits v n e = elemBits y.a.bits n (e + 1)) ∧
    (∀ k, NextAbove (maskLanes mask) y.lane k → (∀ z ∈ l, z.lane = k → elemBits v n (n - 1) = elemBits z.a.bits n 0) ∧
      ((∀ z ∈ l, z.lane ≠ k) → elemBits v n (n - 1) = 0)) ∧
    ((∀ k, ¬NextAbove (maskLanes mask) y.lane k) → elemBits v n (n - 1) = elemBits y.fill n 0) := by
  obtain ⟨hs, hl, hy⟩ := h
  have hpos := nElem_pos y.a.kind
  refine ⟨fun e he => xSlide_down_own hs hl hy he, fun k hk => ⟨fun z hz hzk => ?_, fun hnone => ?_⟩, xSlide_down_last hs hl hy⟩
  · rw [xSlide_down_above hl hy hk (laneElems_of_mem hs hz hzk hpos), Nat.mod_eq_of_lt (elemBits_lt ..)]
  · rw [xSlide_down_above hl hy hk (laneElems_of_none hnone hpos), Nat.zero_mod]

end Sys2Proof.Machine
end

section
/-! PROOFS. A cross-lane instruction of a thread alone in its mask (07_execution.md R129, R130). -/

namespace Sys2Proof.Machine

variable {s : State} {r q : TRef} {t u : Thread} {g : Wg} {m : Meeting} {x : XUse} {y : Member} {rm : Rm} {mask : Word} {lane d a b n : Nat}
  {rd wr : List Nat} {op : XOp} {i : Instr}

theorem maskLanes_twoPow (h : lane < 32) : maskLanes (BitVec.twoPow 32 lane) = [lane] := by
  have hfilter : maskLanes (BitVec.twoPow 32 lane) = (List.range 32).filter (· == lane) := by
    refine List.filter_congr fun i hi => ?_
    rw [BitVec.getLsbD_twoPow, decide_eq_true h, Bool.true_and, Bool.eq_iff_iff, decide_eq_true_iff, beq_iff_eq, eq_comm]
  rw [hfilter, List.filter_beq, List.count_eq_one_of_mem List.nodup_range (List.mem_range.2 h)]
  rfl

/-! ### Marks spent, one meeting after another -/

theorem repeat_comm {α : Type} (f : α → α) (k : Nat) (x : α) : Nat.repeat f k (f x) = Nat.repeat f (k + 1) x := by
  induction k with
  | zero => rfl
  | succ k ih => exact congrArg f ih

/-- The first marks of a thread at a PC spent by a number of meetings. -/
def Arch.unskips (q : Arch) (pc : DWord) (k : Nat) : Arch := Nat.repeat (fun (y : Arch) => y.unskip pc) k q

theorem Arch.xcount_unskips (q : Arch) (pc : DWord) (k : Nat) : (q.unskips pc k).xcount = q.xcount := by
  induction k with
  | zero => rfl
  | succ k ih => exact ih

def Thread.spends (t : Thread) (pc : DWord) (k : Nat) : Thread :=
  { t with arch := t.arch.unskips pc k, run := { t.run with snap := t.run.snap.unskips pc k } }

theorem Thread.spends_spend (t : Thread) (pc : DWord) (k : Nat) : (t.spend pc).spends pc k = t.spends pc (k + 1) := by
  simp only [Thread.spends, Thread.spend, Arch.unskips]
  rw [repeat_comm (fun (y : Arch) => y.unskip pc), repeat_comm (fun (y : Arch) => y.unskip pc)]

section alone

variable (hlanes : maskLanes m.mask = [lane])
include hlanes

theorem State.marks_alone (ht : s.thread (m.ref lane) = some t) : s.marks m = t.arch.skips.count m.pc := by
  simp [State.marks, hlanes, ht]

theorem State.liveMembers_alone (ht : s.thread (m.ref lane) = some t) (ha : t.Arrived m x) :
    s.liveMembers m = [Member.of (m.ref lane) lane t x] := by
  rw [State.liveMembers, hlanes, List.filterMap_cons_some (State.memberAt_eq_some_iff.2 ⟨t, x, ht, ha, rfl⟩)]
  rfl

theorem State.liveMembers_nil (ht : s.thread (m.ref lane) = some t) (hskip : m.pc ∈ t.arch.skips) : s.liveMembers m = [] := by
  rw [State.liveMembers, hlanes, List.filterMap_cons_none]
  · rfl
  · cases hm : s.memberAt m lane with
    | none => rfl
    | some y =>
      obtain ⟨u, z, hu, ha, -⟩ := State.memberAt_eq_some_iff.1 hm
      rw [ht, Option.some.injEq] at hu
      exact absurd (hu ▸ hskip) ha.fresh

/-- A meeting without a live member only takes up what its members have passed over. -/
theorem State.meetTry_of_passed (ht : s.thread (m.ref lane) = some t) (hskip : m.pc ∈ t.arch.skips) (n : Nat) :
    s.meetTry m (n + 1) = (s.spend m).meetTry m n := by
  have hlive := State.liveMembers_nil hlanes ht hskip
  have hready : s.meetReady m = true := State.meetReady_iff.2 fun i hi u hu => by
    rw [hlanes, List.mem_singleton] at hi
    subst hi
    rw [ht, Option.some.injEq] at hu
    exact .inr (.inr (hu ▸ hskip))
  have hmarks : 0 < s.marks m := by
    rw [State.marks_alone hlanes ht]
    exact List.count_pos_iff.2 hskip
  have hrun : s.meetRun m = s.spend m := by
    rw [State.meetRun_of_ok (by rw [hlive]; rfl), hlive]
    rfl
  rw [State.meetTry, if_pos (by simp [hready, hmarks]), hrun]

/-- A thread alone in its mask spends its marks, meeting after meeting, and executes its instruction; no other thread changes. -/
theorem State.meetTry_alone (k : Nat) (ht : s.thread (m.ref lane) = some t) (hst : t.status = .held m.mask x)
    (hpc : t.arch.pc = m.pc) (hk : t.arch.skips.count m.pc = k)
    (hok : meetOk [Member.of (m.ref lane) lane t x] = [Member.of (m.ref lane) lane t x]) (hcur : s.cur = some (m.ref lane)) :
    s.ThreadsQuads (s.meetTry m (k + 1)) ∧
    (∀ q : TRef, q.key ≠ (m.ref lane).key → (s.meetTry m (k + 1)).thread q = s.thread q) ∧
    (s.meetTry m (k + 1)).thread (m.ref lane) = some { (t.spends m.pc (k + 1)).met m t.arch.rm [Member.of (m.ref lane) lane t x]
      [(m.ref lane, t.seq)] (Member.of (m.ref lane) lane t x) with status := .running } := by
  induction k generalizing s t with
  | zero =>
    have ha : t.Arrived m x := ⟨hst, hpc, List.count_eq_zero.1 hk⟩
    have hlive := State.liveMembers_alone hlanes ht ha
    have hready : s.meetReady m = true := State.meetReady_iff.2 fun i hi u hu => by
      rw [hlanes, List.mem_singleton] at hi
      subst hi
      rw [ht, Option.some.injEq] at hu
      exact .inl ⟨x, hu ▸ ha⟩
    have hrm : s.meetRm [Member.of (m.ref lane) lane t x] = t.arch.rm := by simp [State.meetRm, Member.of, ht]
    have hseqs : s.meetSeqs [Member.of (m.ref lane) lane t x] = [(m.ref lane, t.seq)] := by simp [State.meetSeqs, Member.of, ht]
    rw [← hlive] at hok
    obtain ⟨st, -, hrun, h⟩ := State.thread_meetRun_of_live (y := Member.of (m.ref lane) lane t x) hok (by rw [hlive]; simp) ht
    rw [State.meetTry_of_ready hok (by rw [hlive]; simp) hready]
    refine ⟨State.threadsQuads_meetRun hok, fun q hq => State.thread_meetRun_of_ne hok (by simpa [hlanes] using hq), h.trans ?_⟩
    rw [hrun hcur, hlive, hrm, hseqs]
    rfl
  | succ k ih =>
    have hskip : m.pc ∈ t.arch.skips := List.count_pos_iff.1 (by omega)
    have hcount : (t.spend m.pc).arch.skips.count m.pc = k := by
      rw [← Nat.add_sub_cancel (n := k) (m := 1), ← hk]
      exact List.count_erase_self
    have hthread : (s.spend m).thread (m.ref lane) = some (t.spend m.pc) := by
      rw [State.thread_spend s (by simp [hlanes]), ht]
      rfl
    have hcur' : (s.spend m).cur = some (m.ref lane) := by
      obtain ⟨th, qs, hz⟩ := s.threadsQuads_spend m
      rw [hz]
      exact hcur
    obtain ⟨hframe, hother, hown⟩ := ih (s := s.spend m) (t := t.spend m.pc) hthread hst hpc hcount hok hcur'
    rw [State.meetTry_of_passed hlanes ht hskip]
    refine ⟨(s.threadsQuads_spend m).trans hframe, fun q hq => (hother q hq).trans (State.thread_spend_of_ne s (by simpa [hlanes] using hq)), ?_⟩
    rw [hown, Thread.spends_spend]
    rfl

end alone

/-- The thread that a meeting of one leaves. -/
theorem Thread.met_alone {f : Arch → Arch} {k : Nat} {z : TStatus} (hf : ∀ q : Arch, q.meet m.mask rm [y] y = f q) :
    { ({ t with status := z }.spends m.pc k).met m rm [y] [(y.who, n)] y with status := .running } =
      ({ t with
        status := .running
        arch := { f (t.arch.unskips m.pc k) with xcount := t.arch.xcount + 1 }
        run := { t.run with snap := t.run.snap.unskips m.pc k } } : Thread).pass 4 := by
  have hmates : [(y.who, n)].filter (fun x => x.1 != y.who) = [] := by simp
  simp only [Thread.met, Thread.spends, Thread.pass, hf, hmates, List.append_nil, Arch.xcount_unskips]

/-- What a cross-lane instruction leaves of a thread alone in its mask. -/
theorem crossLane_alone (h : Ready s r t g rd wr) (hacc : r.acc = false) (hmask : (t.arch.reg b).bits = BitVec.twoPow 32 (r.tid % 32))
    (hle : t.arch.alone ≤ t.arch.xcount) (hopen : s.openMeetings r.wg = []) {f : Arch → Arch}
    (hok : meetOk [Member.of r (r.tid % 32) t { op := op, d := d, a := a, b := b }] =
      [Member.of r (r.tid % 32) t { op := op, d := d, a := a, b := b }])
    (hf : ∀ q : Arch, q.meet (t.arch.reg b).bits t.arch.rm [Member.of r (r.tid % 32) t { op := op, d := d, a := a, b := b }]
      (Member.of r (r.tid % 32) t { op := op, d := d, a := a, b := b }) = f q) :
    let clear := fun (q : Arch) => Nat.repeat (fun (y : Arch) => y.unskip t.arch.pc) (t.arch.skips.count t.arch.pc + 1) q
    ∃ s' t', crossLane op d a b rd wr s = .next s' ∧ s'.thread r = some t' ∧
      t' = ({ t with
        status := .running
        arch := { f (clear t.arch) with xcount := t.arch.xcount + 1 }
        run := { t.run with snap := clear t.run.snap } } : Thread).pass 4 ∧
      s'.mem = s.mem ∧ ∀ q : TRef, q.key ≠ r.key → s'.thread q = s.thread q := by
  intro clear
  have hlt : r.tid % 32 < 32 := Nat.mod_lt _ (by decide)
  have hlanes : maskLanes (t.meeting r b).mask = [r.tid % 32] := (congrArg maskLanes hmask).trans (maskLanes_twoPow hlt)
  have hown : (t.arch.reg b).bits.getLsbD (r.tid % 32) = true := by simp [hmask, hlt]
  have hsame : ¬ s.otherMask r t b := fun ⟨m, hm, _⟩ => by rw [hopen] at hm; cases hm
  have hr : (t.meeting r b).ref (r.tid % 32) = r := Thread.meeting_ref_own hacc
  have hthread : (s.arriveAt r t b { op := op, d := d, a := a, b := b }).thread ((t.meeting r b).ref (r.tid % 32)) =
    some { t with status := .held (t.arch.reg b).bits { op := op, d := d, a := a, b := b } } := State.thread_arrive_own hacc
  have hmarks := State.marks_alone hlanes hthread
  obtain ⟨hframe, hother, hself⟩ := State.meetTry_alone hlanes _ hthread rfl rfl rfl (by rw [hr]; exact hok) (by rw [hr]; exact h.cur)
  rw [hr] at hother hself
  refine ⟨_, _, crossLane_of_arrives h hacc hown hle hsame, ?_, rfl, ?_, fun q hq => ?_⟩
  · rw [hmarks, hself]
    exact congrArg some (Thread.met_alone hf)
  · rw [hmarks]
    obtain ⟨th, qs, hz⟩ := hframe
    rw [hz]
    rfl
  · rw [hmarks, hother q hq]
    exact State.thread_setThread_of_ne _ _ hq

end Sys2Proof.Machine
end

section
/-! PROOFS. Cross-lane instructions: the values of a thread alone and of each member of a meeting (07_execution.md R132, R133). -/

namespace Sys2Proof.Machine

variable {s : State} {r : TRef} {t : Thread} {g : Wg} {x : XUse} {y : Member} {rm : Rm} {mask : Word} {lane d a b n : Nat}

/-! ### A member alone -/

/-- A member alone whose tag its row accepts has its instruction executed. -/
theorem meetOk_alone (h : y.x.op.accepts y.a.tag = true) : meetOk [y] = [y] := by
  have hsame : y.x.op.sameTag y.a.tag y.a.tag = true := by
    unfold XOp.sameTag
    split
    · exact beq_self_eq_true _
    · split <;> simp
  simp [meetOk, h, hsame]

theorem XOp.accepts_of_kind {o : XOp} {v : RegVal} (h : (v.kind = 1 ∨ v.kind = 2) ∨ v.kind = 7) : o.accepts v.tag = true := by
  have hk : tKind v.tag = v.kind := rfl
  unfold XOp.accepts
  rw [hk]
  obtain (h | h) | h := h <;> simp [h]

section one

variable (rm) (mask)

theorem xResult_lpick_alone (ho : y.x.op = .lpick) : xResult mask rm [y] y = (y.a, 0) := by
  rw [xResult_lpick ho, List.find?_singleton]
  split <;> rfl

theorem vote_alone {c : Bool} {w : Word} (hc : c = (w != 0)) : regNat (if c then 1 else 0) = regNat (if w = 0 then 0 else 1) := by
  subst hc
  by_cases h : w = 0 <;> simp [h]

theorem jointTag_alone (y : Member) : jointTag [y] y = y.a.tag := by simp [jointTag]

theorem ballotSum_alone (y : Member) : ballotSum [y] = if y.a.bits = 0 then 0 else 2 ^ y.lane := by
  by_cases h : y.a.bits = 0 <;> simp [ballotSum, h]

theorem LiveMembers.alone (hmask : maskLanes mask = [y.lane]) : LiveMembers [y] mask y :=
  ⟨by simp, by simp [hmask], List.mem_singleton_self y⟩

theorem xSlide_up_alone (hmask : maskLanes mask = [y.lane]) : xSlide true mask [y] y =
    (y.a.bits <<< (32 / nElem y.a.kind)) ||| (y.fill >>> (32 - 32 / nElem y.a.kind)) := by
  obtain ⟨hown, -, hfirst⟩ := xSlide_up_elems (LiveMembers.alone mask hmask)
  have hnone : ∀ k, ¬ NextBelow (maskLanes mask) y.lane k := fun k ⟨hk, hlt, _⟩ => by
    rw [hmask, List.mem_singleton] at hk
    omega
  refine eq_of_elemBits_eq (nElem_dvd y.a.kind) fun e he => ?_
  rw [elemBits_shiftUp _ _ (nElem_dvd _) he]
  split
  case isTrue h0 => rw [h0, hfirst hnone]
  case isFalse h0 => rw [hown e (by omega) he]

theorem xSlide_down_alone (hmask : maskLanes mask = [y.lane]) : xSlide false mask [y] y =
    (y.a.bits >>> (32 / nElem y.a.kind)) ||| (y.fill <<< (32 - 32 / nElem y.a.kind)) := by
  obtain ⟨hown, -, hlast⟩ := xSlide_down_elems (LiveMembers.alone mask hmask)
  have hnone : ∀ k, ¬ NextAbove (maskLanes mask) y.lane k := fun k ⟨hk, hlt, _⟩ => by
    rw [hmask, List.mem_singleton] at hk
    omega
  refine eq_of_elemBits_eq (nElem_dvd y.a.kind) fun e he => ?_
  rw [elemBits_shiftDown _ _ (nElem_dvd _) he]
  split
  case isTrue h1 => rw [← hlast hnone, ← h1, Nat.add_sub_cancel]
  case isFalse h1 => rw [hown e (by omega)]

theorem xSum_alone {k : Nat} (hk : k ≠ 7) (w : Word) : xSum rm k [w] = (w, 0) := by
  simp [xSum, hk]

theorem xExtreme_alone {k : Nat} (hk : k ≠ 7) (lo : Bool) (w : Word) : xExtreme lo k [w] = w := by
  simp [xExtreme, hk]

theorem xResult_lscanInc_alone (ho : y.x.op = .lscanInc) : xResult mask rm [y] y = sumResult y (xSum rm y.a.kind [y.a.bits]) := by
  rw [xResult_lscanInc ho, List.filter_cons_of_pos (by simp)]
  rfl

theorem xResult_lscanExc_alone (ho : y.x.op = .lscanExc) : xResult mask rm [y] y = ({ bits := 0, tag := y.a.tag }, 0) := by
  rw [xResult_lscanExc ho, List.filter_cons_of_neg (by simp)]
  rfl

end one

/-- Settles O31: a thread alone is a meeting of one, and each row's value is computed over the live members. -/
theorem crossLaneAlone : Obligations.CrossLaneAlone := by
  unfold Obligations.CrossLaneAlone
  constructor
  · intro s r t g d a b hacc x fill lane n num hmask hle hopen clear ends gives own
    have hlt : lane < 32 := Nat.mod_lt _ (by decide)
    have hlanes : maskLanes (t.arch.reg b).bits = [lane] := (congrArg maskLanes hmask).trans (maskLanes_twoPow hlt)
    let y : XOp → Member := fun op => Member.of r lane t { op := op, d := d, a := a, b := b }
    have key : ∀ (op : XOp) {i : Instr} {v : RegVal} {fl : FFlags} {rd wr : List Nat}, exec i s = crossLane op d a b rd wr s →
        Ready s r t g rd wr → op.writesReg = true → op.accepts x.tag = true →
        xResult (t.arch.reg b).bits t.arch.rm [y op] (y op) = (v, fl) → gives i v fl := by
      intro op i v fl rd wr hi h hw ha hv
      obtain ⟨s', t', he, hrest⟩ := crossLane_alone (f := fun q => (q.setReg d v).raise fl) h hacc hmask hle hopen
        (meetOk_alone (y := y op) ha) fun q => by
          rw [Arch.meet_of_writesReg (y := y op) hw, hv]
          rfl
      exact ⟨s', t', hi.trans he, hrest⟩
    have hsync : Ready s r t g [b] [] → ends (.lsync b) id ∧ ends (.elect d b) fun q => q.setPred d true := fun h =>
      ⟨crossLane_alone (op := .lsync) (d := 0) (a := b) (f := id) h hacc hmask hle hopen (meetOk_alone rfl) fun q => rfl,
       crossLane_alone (op := .elect) (a := b) (f := fun q => q.setPred d true) h hacc hmask hle hopen (meetOk_alone rfl) fun q => by
        exact congrArg (q.setPred d) (beq_self_eq_true _)⟩
    clear_value gives
    refine ⟨fun h => ⟨?_, ?_, ?_⟩, fun h => ⟨?_, ?_, ?_, ?_, ?_, ?_, ?_, fun hnum => ?_, fun hk => ?_, fun hk => ?_⟩, hsync⟩
    · exact key .lpick rfl h rfl rfl (xResult_lpick_alone _ _ rfl)
    · exact key .slideup rfl h rfl rfl (by rw [xResult_slideup rfl, xSlide_up_alone _ hlanes]; rfl)
    · exact key .slidedn rfl h rfl rfl (by rw [xResult_slidedn rfl, xSlide_down_alone _ hlanes]; rfl)
    · exact key .ballot rfl h rfl rfl (by rw [xResult_ballot rfl, ballotSum_alone]; rfl)
    · exact key .voteAny rfl h rfl rfl (by rw [xResult_voteAny rfl]; exact congrArg (·, 0) (vote_alone (by simp [y, Member.of, x])))
    · exact key .voteAll rfl h rfl rfl (by rw [xResult_voteAll rfl]; exact congrArg (·, 0) (vote_alone (by simp [y, Member.of, x])))
    · exact key .voteEq rfl h rfl rfl (by rw [xResult_voteEq rfl]; simp)
    · exact key .lredAnd rfl h rfl rfl (by rw [xResult_lredAnd rfl, jointTag_alone]; exact congrArg (RegVal.mk · x.tag, 0) (BitVec.allOnes_and ..))
    · exact key .lredOr rfl h rfl rfl (by rw [xResult_lredOr rfl, jointTag_alone]; exact congrArg (RegVal.mk · x.tag, 0) (BitVec.zero_or ..))
    · exact key .lredXor rfl h rfl rfl (by rw [xResult_lredXor rfl, jointTag_alone]; exact congrArg (RegVal.mk · x.tag, 0) (BitVec.zero_xor ..))
    · have hk : ∀ op, (y op).a.kind ≠ 7 := fun _ => kind_ne_f32 (y := y .lredAdd) hnum
      have ha : ∀ op : XOp, op.accepts x.tag = true := fun _ => XOp.accepts_of_kind (.inl hnum)
      refine ⟨key .lredAdd rfl h rfl (ha _) ?_, key .lredMin rfl h rfl (ha _) ?_, key .lredMax rfl h rfl (ha _) ?_,
        key .lscanInc rfl h rfl (ha _) ?_⟩
      · rw [xResult_lredAdd rfl]
        exact congrArg (sumResult _) (xSum_alone _ (hk _) _)
      · rw [xResult_lredMin rfl]
        exact congrArg (RegVal.mk · x.tag, 0) (xExtreme_alone (hk _) true _)
      · rw [xResult_lredMax rfl]
        exact congrArg (RegVal.mk · x.tag, 0) (xExtreme_alone (hk _) false _)
      · rw [xResult_lscanInc_alone _ _ rfl, xSum_alone _ (hk _)]
        rfl
    · have hk7 : ∀ op, (y op).a.kind = 7 := fun _ => hk
      have ha : ∀ op : XOp, op.accepts x.tag = true := fun _ => XOp.accepts_of_kind (.inr hk)
      refine ⟨⟨key .lredAdd rfl h rfl (ha _) ?_, key .lscanInc rfl h rfl (ha _) ?_⟩, key .lredMin rfl h rfl (ha _) ?_,
        key .lredMax rfl h rfl (ha _) ?_⟩
      · rw [xResult_lredAdd rfl, hk7]
        rfl
      · rw [xResult_lscanInc_alone _ _ rfl, hk7]
        rfl
      · rw [xResult_lredMin rfl, hk7]
        rfl
      · rw [xResult_lredMax rfl, hk7]
        rfl
    · exact key .lscanExc rfl h rfl (XOp.accepts_of_kind hk) (xResult_lscanExc_alone _ _ rfl)
  intro l mask rm y q d a b hs hlanes hy gives same tagged below above n sum fsum
  have hl : LiveMembers l mask y := ⟨hs, fun z hz => mem_maskLanes.2 (hlanes z hz), hy⟩
  have hup := xSlide_up_elems hl
  have hdown := xSlide_down_elems hl
  simp only [nextBelow_iff] at hup
  simp only [nextAbove_iff] at hdown
  have htag : ∀ w, tagged { bits := w, tag := jointTag l y } := fun w => jointTag_spec l y
  have key : ∀ (op : XOp) {p : RegVal → Prop}, op.writesReg = true → (y.x.op = op → p (xResult mask rm l y).1) → gives op p :=
    fun op p ho hp => meet_gives (p := p) hy ho hp
  clear_value gives
  refine ⟨?_, ?_, ?_, ?_, ?_, ?_, ?_, ?_, fun hsame hk => ?_, fun hsame hk => ?_, fun hkind => ⟨?_, ?_⟩, fun hx => ?_, fun hx => ?_⟩
  · refine key .ballot rfl fun ho => ?_
    rw [xResult_ballot ho]
    exact ⟨rfl, fun i hi => ballot_bits hs hi⟩
  · refine key .voteAny rfl fun ho => ?_
    rw [xResult_voteAny ho]
    exact regNat_bit_congr (by simp)
  · refine key .voteAll rfl fun ho => ?_
    rw [xResult_voteAll ho]
    exact regNat_bit_congr (by simp)
  · refine key .voteEq rfl fun ho => ?_
    rw [xResult_voteEq ho]
    exact regNat_bit_congr (by simp)
  · refine key .lredAnd rfl fun ho => ?_
    rw [xResult_lredAnd ho]
    exact ⟨htag _, fun i hi => lredAnd_bits hi⟩
  · refine key .lredOr rfl fun ho => ?_
    rw [xResult_lredOr ho]
    exact ⟨htag _, fun i _ => lredOr_bits⟩
  · refine key .lredXor rfl fun ho => ?_
    rw [xResult_lredXor ho]
    exact ⟨htag _, fun i _ => lredXor_bits⟩
  · refine key .lpick rfl fun ho => ?_
    rw [xResult_lpick ho]
    exact ⟨fun z hz hlane => by simp only [find?_lane hs hz hlane]; rfl, fun hnone => by simp only [find?_lane_none hnone]; rfl⟩
  · have hk7 : y.a.kind ≠ 7 := by omega
    have hnum : ∀ w, wordNum y.a.kind w = if y.a.kind = 1 then w.toInt else (w.toNat : Int) := fun _ => rfl
    refine ⟨?_, ?_, ?_, ?_, ?_⟩
    · refine key .lredAdd rfl fun ho => ?_
      rw [xResult_lredAdd ho]
      exact ⟨rfl, xSum_toNat hk7 _⟩
    · refine key .lredMin rfl fun ho => ?_
      rw [xResult_lredMin ho]
      obtain ⟨hmem, hle⟩ := xExtreme_spec hk7 true hy
      exact ⟨rfl, hmem, hle⟩
    · refine key .lredMax rfl fun ho => ?_
      rw [xResult_lredMax ho]
      obtain ⟨hmem, hle⟩ := xExtreme_spec hk7 false hy
      exact ⟨rfl, hmem, fun z hz => Int.neg_le_neg_iff.1 (hle z hz)⟩
    · refine key .lscanInc rfl fun ho => ?_
      rw [xResult_lscanInc ho]
      exact ⟨rfl, xSum_toNat hk7 _⟩
    · refine key .lscanExc rfl fun ho => ?_
      rw [xResult_lscanExc ho]
      exact ⟨rfl, xSum_toNat hk7 _⟩
  · have hne : l.map (fun z : Member => z.a.bits) ≠ [] := List.ne_nil_of_mem (List.mem_map_of_mem hy)
    refine ⟨?_, ?_, ?_, ?_, ?_⟩
    · refine key .lredAdd rfl fun ho => ?_
      rw [xResult_lredAdd ho, hk]
      exact congrArg (RegVal.mk · y.a.tag) (xSum_f32 hne)
    · refine key .lredMin rfl fun ho => ?_
      rw [xResult_lredMin ho, hk, xExtreme_f32]
      cases l <;> rfl
    · refine key .lredMax rfl fun ho => ?_
      rw [xResult_lredMax ho, hk, xExtreme_f32]
      cases l <;> rfl
    · refine key .lscanInc rfl fun ho => ?_
      rw [xResult_lscanInc ho, hk]
      exact congrArg (RegVal.mk · y.a.tag) (xSum_f32 (scanInc_ne_nil hy))
    · refine key .lscanExc rfl fun ho => ?_
      rw [xResult_lscanExc ho, hk]
      exact ⟨rfl, fun hlow => by rw [scanExc_eq_nil hlow]; rfl, fun hex => xSum_f32 (scanExc_ne_nil hex)⟩
  · refine key .slideup rfl fun ho => ?_
    rw [xResult_slideup ho]
    exact ⟨rfl, hup⟩
  · refine key .slidedn rfl fun ho => ?_
    rw [xResult_slidedn ho]
    exact ⟨rfl, hdown⟩
  · simp only [Arch.meet, hx y hy]
  · simp only [Arch.meet, hx y hy]
    refine congrArg (q.setPred d) (Bool.eq_iff_iff.2 ?_)
    rw [beq_iff_eq, head?_eq_iff hs hy, decide_eq_true_iff]
end Sys2Proof.Machine
end

section
/-! SUPPORT. What the effects of a store leave: the held runs but for their saved registers, and every thread (07_execution.md R117,
R118, 08_memory.md R156). -/

namespace Sys2Proof.Machine

variable {s z : State} {r : TRef} {p : PStore}

/-- What a held run is known by. -/
def HeldRun.tag (h : HeldRun) : Nat × TRef × Nat × Nat := (h.id, h.who, h.seq, h.rel)

/-- The same runs are held, and no thread has gone. -/
structure State.Keeps (s z : State) : Prop where
  held : z.held.map HeldRun.tag = s.held.map HeldRun.tag
  threads : ∀ q, (s.thread q).isSome = true → (z.thread q).isSome = true

theorem State.Keeps.refl (s : State) : s.Keeps s := ⟨rfl, fun _ h => h⟩

theorem State.Keeps.trans {y : State} (h : s.Keeps z) (h' : z.Keeps y) : s.Keeps y :=
  ⟨h'.held.trans h.held, fun q hq => h'.threads q (h.threads q hq)⟩

/-- What changes no held run and no thread. -/
theorem State.Keeps.of_eq (hh : z.held = s.held) (ht : z.threads = s.threads) : s.Keeps z :=
  ⟨by rw [hh], fun q h => by rwa [State.thread, ht]⟩

/-- One step after another. -/
theorem State.keeps_foldl {α : Type} {f : State → α → State} (hf : ∀ (s : State) x, s.Keeps (f s x)) (l : List α) (s : State) :
    s.Keeps (l.foldl f s) := by
  induction l generalizing s with
  | nil => exact .refl s
  | cons x l ih => exact (hf s x).trans (ih (f s x))

/-- One of two states. -/
theorem State.keeps_ite {c : Prop} [Decidable c] {a b : State} (ha : s.Keeps a) (hb : s.Keeps b) : s.Keeps (if c then a else b) := by
  split
  · exact ha
  · exact hb

/-! ### Threads and quadrants -/

theorem State.keeps_setThread (s : State) (r : TRef) (t : Thread) : s.Keeps (s.setThread r t) := by
  refine ⟨rfl, fun q hq => ?_⟩
  by_cases h : q.key = r.key
  · rw [State.thread, h]
    exact Option.isSome_iff_exists.2 ⟨t, State.thread_setThread ..⟩
  · rwa [State.thread_setThread_of_ne _ _ h]

theorem State.keeps_modThread (s : State) (r : TRef) (f : Thread → Thread) : s.Keeps (s.modThread r f) := by
  unfold State.modThread
  split
  · exact s.keeps_setThread ..
  · exact .refl s

theorem State.keeps_modQuad (s : State) (q : Nat) (f : Quad → Quad) : s.Keeps (s.modQuad q f) := .of_eq rfl rfl

theorem State.keeps_makeReady (s : State) (r : TRef) (v : Nat) : s.Keeps (s.makeReady r v) := by
  unfold State.makeReady
  exact State.keeps_ite (s.keeps_modThread ..) ((s.keeps_modThread ..).trans (State.keeps_modQuad ..))

theorem State.keeps_tryReady (s : State) (r : TRef) : s.Keeps (s.tryReady r) := by
  unfold State.tryReady
  split
  · exact .refl s
  · split
    · exact .refl s
    · split
      · split
        · dsimp only
          split
          · exact (s.keeps_setThread ..).trans (State.keeps_makeReady ..)
          · exact s.keeps_makeReady ..
        · exact .refl s
      · exact .refl s

theorem State.keeps_uncount (s : State) (r : TRef) (c : Cls) : s.Keeps (s.uncount r c) :=
  (s.keeps_modThread ..).trans (State.keeps_tryReady ..)

theorem State.keeps_wake (s : State) (r : TRef) : s.Keeps (s.wake r) := by
  unfold State.wake
  exact State.keeps_ite (s.keeps_modThread ..) ((s.keeps_modThread ..).trans (State.keeps_modQuad ..))

/-- Values that arrive change the registers of a thread and those that its held runs have saved. -/
theorem State.keeps_arrive (s : State) (r : TRef) (seq : Nat) (ws : List (Nat × Reg)) (c : Cls) : s.Keeps (s.arrive r seq ws c) := by
  unfold State.arrive
  refine State.Keeps.trans ?_ (State.keeps_tryReady ..)
  refine State.Keeps.trans (s.keeps_modThread ..) ⟨?_, fun q hq => hq⟩
  rw [List.map_map]
  refine List.map_congr_left fun h _ => ?_
  simp only [Function.comp_apply]
  split <;> rfl

/-! ### Memory -/

theorem State.keeps_note (s : State) (run : Option Nat) (u : UndoItem) : s.Keeps (s.note run u) := by
  obtain ⟨l, h⟩ := s.note_eq run u
  rw [h]
  exact .of_eq rfl rfl

theorem State.keeps_setFull (s : State) (run : Option Nat) (k : Nat) (b : Bool) : s.Keeps (s.setFull run k b) := by
  obtain ⟨l, h⟩ := s.setFull_eq run k b
  rw [h]
  exact .of_eq rfl rfl

theorem State.keeps_pokes (s : State) (run : Option Nat) (bs : List (Nat × Byte)) : s.Keeps (s.pokes run bs) := by
  obtain ⟨u, m, h⟩ := s.pokes_eq run bs
  rw [h]
  exact .of_eq rfl rfl

theorem State.keeps_l1Put (s : State) (run : Option Nat) (core k : Nat) (c : Option L1Cell) : s.Keeps (s.l1Put run core k c) :=
  (s.keeps_note ..).trans (.of_eq rfl rfl)

theorem State.keeps_homeWrite (s : State) (bs : List (Nat × Byte)) (core : Option Nat) : s.Keeps (s.homeWrite bs core) := .of_eq rfl rfl

theorem State.keeps_writeBack (s : State) (core : Nat) (line : Option Nat) : s.Keeps (s.writeBack core line) := .of_eq rfl rfl

theorem State.keeps_acquire (s : State) (core : Nat) (sc : Scope) : s.Keeps (s.acquire core sc) := by
  unfold State.acquire
  dsimp only
  split <;> split <;> exact .of_eq rfl rfl

theorem State.keeps_dropLine (s : State) (k : Nat) (b : Bool) : s.Keeps (s.dropLine k b) := by
  unfold State.dropLine
  split
  · exact .refl s
  · exact .of_eq rfl rfl

theorem State.keeps_copyHome (s : State) (src dst n : Nat) : s.Keeps (s.copyHome src dst n) := .of_eq rfl rfl

theorem State.keeps_mirrorCopy {l : Lodge} (h : s.mirrorCopy l = some z) : s.Keeps z := by
  unfold State.mirrorCopy at h
  split at h
  · obtain rfl := Option.some.inj h
    exact .refl s
  · obtain ⟨ks, -, rfl⟩ := Option.map_eq_some_iff.1 h
    exact State.Keeps.trans (State.keeps_foldl (fun z x => z.keeps_copyHome ..) _ s) (.of_eq rfl rfl)

theorem State.keeps_mirrorFor (s : State) (r : TRef) : s.Keeps (s.mirrorFor r) := by
  refine State.keeps_foldl (fun z l => ?_) _ s
  cases h : z.mirrorCopy l with
  | none => exact .refl z
  | some y => exact State.keeps_mirrorCopy h

/-! ### Monitors -/

theorem State.keeps_failStore (s : State) (p : PStore) (c : Code) : s.Keeps (s.failStore p c) := by
  unfold State.failStore
  have h : s.Keeps ({ s with stores := s.stores.filter fun (x : PStore) => x.id != p.id } : State) := .of_eq rfl rfl
  have h' := h.trans (State.keeps_modThread _ p.who fun t => t.defer (faultAt c p.addr .store p.op.onScratch)
    ((s.held.find? fun h => h.id == p.run).map (·.seq)))
  exact State.keeps_ite (h'.trans (State.keeps_uncount ..)) h'

theorem State.keeps_waiterRefused (s : State) (w : Waiter) : s.Keeps (s.waiterRefused w) := by
  unfold State.waiterRefused
  dsimp only
  split
  · refine State.Keeps.trans ?_ (State.keeps_arrive ..)
    exact .of_eq rfl rfl
  · exact (s.keeps_modThread ..).trans (State.keeps_uncount ..)
  · exact .refl s
  · exact (s.keeps_modThread ..).trans (State.keeps_wake ..)

theorem State.keeps_modRun (s : State) (r : TRef) (f : Run → Run) : s.Keeps (s.modRun r f) := s.keeps_modThread ..

theorem State.keeps_claimWord (s : State) (r : TRef) (k : Nat) : s.Keeps (s.claimWord r k) := by
  unfold State.claimWord
  refine State.Keeps.trans ?_ (State.keeps_modRun ..)
  exact .of_eq rfl rfl

theorem State.keeps_waiterGo (s : State) (w : Waiter) : s.Keeps (s.waiterGo w) := by
  unfold State.waiterGo
  have h : s.Keeps ({ s with waiters := s.waiters.filter fun x => x.id != w.id } : State) := .of_eq rfl rfl
  refine h.trans ?_
  generalize ({ s with waiters := s.waiters.filter fun x => x.id != w.id } : State) = y
  dsimp only
  split
  · exact y.keeps_waiterRefused w
  · split
    · refine State.Keeps.trans ?_ (State.keeps_arrive ..)
      refine State.Keeps.trans (z := (y.setFull w.run w.key false).acquire w.core (y.queueScope w.who w.key)) ?_ (.of_eq rfl rfl)
      refine State.Keeps.trans ?_ (State.keeps_acquire ..)
      exact y.keeps_setFull ..
    · have h1 : y.Keeps (if (y.queueScope w.who w.key).wide then y.writeBack w.core none else y) :=
        State.keeps_ite (y.keeps_writeBack ..) (.refl y)
      exact h1.trans (((State.keeps_pokes ..).trans (State.keeps_setFull ..)).trans (State.keeps_uncount ..))
    · exact y.keeps_setFull ..
    · refine State.Keeps.trans (State.Keeps.trans ?_ (State.keeps_modThread ..)) (State.keeps_wake ..)
      refine State.keeps_ite (State.Keeps.trans ?_ (State.keeps_claimWord ..)) ?_ <;> exact .of_eq rfl rfl

theorem State.keeps_wefGo (s : State) (p : PStore) : s.Keeps (s.wefGo p) := by
  unfold State.wefGo
  split
  · refine State.keeps_ite (s.keeps_failStore ..) ?_
    refine State.Keeps.trans ?_ (((State.keeps_pokes ..).trans (State.keeps_setFull ..)).trans (State.keeps_uncount ..))
    exact .of_eq rfl rfl
  · exact .refl s

theorem State.keeps_monitorStep {k : Nat} (h : s.monitorStep k = some z) : s.Keeps z := by
  have hw : ∀ {l : Option Waiter}, l.map s.waiterGo = some z → s.Keeps z := fun h => by
    obtain ⟨w, -, rfl⟩ := Option.map_eq_some_iff.1 h
    exact s.keeps_waiterGo w
  have hp : ∀ {l : Option PStore}, l.map s.wefGo = some z → s.Keeps z := fun h => by
    obtain ⟨p, -, rfl⟩ := Option.map_eq_some_iff.1 h
    exact s.keeps_wefGo p
  unfold State.monitorStep at h
  dsimp only at h
  split at h
  · cases h
  · exact hp h
  · exact hw h
  · split at h
    · exact hw h
    · exact hp h

theorem State.keeps_monitor (n : Nat) (s : State) (k : Nat) : s.Keeps (s.monitor n k) := by
  induction n generalizing s with
  | zero => exact .refl s
  | succ n ih =>
    unfold State.monitor
    split
    · next z h => exact (State.keeps_monitorStep h).trans (ih z)
    · exact .refl s

theorem State.keeps_monitorAll (s : State) (ks : List Nat) : s.Keeps (s.monitorAll ks) :=
  State.keeps_foldl (fun z k => z.keeps_monitor _ k) _ s

/-! ### Stores -/

theorem State.keeps_writeBackAll (s : State) (core : Nat) (line : Option Nat) : s.Keeps (s.writeBackAll core line) :=
  (s.keeps_writeBack ..).trans (State.keeps_monitorAll ..)

theorem State.keeps_releaseAt (s : State) (core : Nat) (sc : Scope) : s.Keeps (s.releaseAt core sc) :=
  State.keeps_ite (s.keeps_writeBackAll ..) (.refl s)

theorem State.keeps_l1Store (s : State) (run : Option Nat) (core rel due : Nat) (bs : List (Nat × Byte)) :
    s.Keeps (s.l1Store run core rel due bs) :=
  (State.keeps_foldl (fun z _ => z.keeps_l1Put ..) _ s).trans (State.keeps_monitorAll ..)

theorem State.keeps_homeStore (s : State) (bs : List (Nat × Byte)) (core : Option Nat) : s.Keeps (s.homeStore bs core) :=
  (s.keeps_homeWrite ..).trans (State.keeps_monitorAll ..)

theorem State.keeps_storeHere (s : State) (p : PStore) (k : Nat) (bs : List Byte) (f : FullOp) (rel : Option Scope) :
    s.Keeps (s.storeHere p k bs f rel) := by
  unfold State.storeHere
  dsimp only
  split
  · refine State.Keeps.trans ?_ (State.keeps_monitorAll ..)
    cases rel with
    | none =>
      cases f with
      | keep => exact s.keeps_pokes ..
      | _ => exact (s.keeps_pokes ..).trans (State.keeps_setFull ..)
    | some sc =>
      refine (s.keeps_releaseAt p.core sc).trans ?_
      cases f with
      | keep => exact State.keeps_pokes ..
      | _ => exact (State.keeps_pokes ..).trans (State.keeps_setFull ..)
  · split
    · exact State.keeps_ite (((s.keeps_releaseAt ..).trans (State.keeps_foldl (fun z _ => z.keeps_l1Put ..) _ _)).trans
        (State.keeps_homeStore ..)) (s.keeps_l1Store ..)
    · exact s.keeps_l1Store ..

theorem State.keeps_cacheHere (s : State) (core : Nat) (o : CacheOp) (l : Loc) : s.Keeps (s.cacheHere core o l) := by
  unfold State.cacheHere
  split
  · exact .refl s
  · next k =>
    refine (s.keeps_writeBackAll core (some (lineKey k))).trans ?_
    dsimp only
    have hclean : ∀ (y : State) line, y.Keeps ((y.dropClean core line).dropFetched core line) := fun y line => .of_eq rfl rfl
    exact State.keeps_ite (.refl _) (State.keeps_ite ((hclean _ _).trans (State.keeps_dropLine ..)) (hclean _ _))

theorem State.keeps_scPlace (s : State) (p : PStore) (sc : Scope) : s.Keeps (s.scPlace p sc) :=
  State.keeps_ite (.refl s) (.of_eq rfl rfl)

/-- A fence is performed. -/
def State.fenceHere (s : State) (p : PStore) (k : FenceKind) (sc : Scope) : State :=
  let s := if k = FenceKind.acq then s else s.releaseAt p.core sc
  let s := if k ≠ FenceKind.acq ∧ sc.wide = true then s.modThread p.who fun t => t.wideRel p.id else s
  let s := if k = FenceKind.sc then s.scPlace p sc else s
  if k = FenceKind.rel then s else s.acquire p.core sc

theorem State.keeps_fenceHere (s : State) (p : PStore) (k : FenceKind) (sc : Scope) : s.Keeps (s.fenceHere p k sc) := by
  unfold State.fenceHere
  dsimp only
  refine (State.keeps_ite (.refl s) (s.keeps_releaseAt p.core sc) : s.Keeps (if k = .acq then s else s.releaseAt p.core sc)).trans ?_
  generalize (if k = .acq then s else s.releaseAt p.core sc) = y
  refine (State.keeps_ite (y.keeps_modThread ..) (.refl y) :
    y.Keeps (if k ≠ .acq ∧ sc.wide = true then y.modThread p.who fun t => t.wideRel p.id else y)).trans ?_
  generalize (if k ≠ .acq ∧ sc.wide = true then y.modThread p.who fun t => t.wideRel p.id else y) = y
  refine (State.keeps_ite (y.keeps_scPlace p sc) (.refl y) : y.Keeps (if k = .sc then y.scPlace p sc else y)).trans ?_
  exact State.keeps_ite (.refl _) (State.keeps_acquire ..)

/-- What an effect does at its place. -/
def State.effect (s : State) (p : PStore) : State :=
  match p.op with
  | .store (.key k) bs f rel => s.storeHere p k bs f rel
  | .store (.remote _ _) _ _ _ => s
  | .fence k sc => s.fenceHere p k sc
  | .cache o l => s.cacheHere p.core o l

theorem State.keeps_effect (s : State) (p : PStore) : s.Keeps (s.effect p) := by
  unfold State.effect
  split
  · exact s.keeps_storeHere ..
  · exact .refl s
  · exact s.keeps_fenceHere ..
  · exact s.keeps_cacheHere ..

theorem State.performStore_eq (s : State) (p : PStore) : s.performStore p =
    let y := (if p.op.releases then (s.withoutStore p).mirrorFor p.who else s.withoutStore p).effect p
    if p.counted then (y.pushRetry p.who).uncount p.who .stores else (y.pushRetry p.who).tryReady p.who := rfl

theorem State.keeps_performStore (s : State) (p : PStore) : s.Keeps (s.performStore p) := by
  rw [State.performStore_eq]
  have hstart : s.Keeps (if p.op.releases = true then (s.withoutStore p).mirrorFor p.who else s.withoutStore p) :=
    State.Keeps.trans (z := s.withoutStore p) (.of_eq rfl rfl) (State.keeps_ite (State.keeps_mirrorFor ..) (.refl _))
  refine (hstart.trans (State.keeps_effect _ p)).trans ?_
  exact State.keeps_ite (State.Keeps.trans (State.keeps_monitorAll ..) (State.keeps_uncount ..))
    (State.Keeps.trans (State.keeps_monitorAll ..) (State.keeps_tryReady ..))

theorem State.keeps_perform (s : State) (p : PStore) : s.Keeps (s.perform p) := by
  unfold State.perform
  split
  · exact s.keeps_performStore p
  · next k _ =>
    have hnote : s.Keeps (s.noteLine p.core k).2 := by
      unfold State.noteLine
      split
      · exact .refl s
      · split
        · exact .of_eq rfl rfl
        · exact .refl s
    exact hnote.trans (State.keeps_ite (State.keeps_performStore ..) (.of_eq rfl rfl))

theorem State.keeps_tryStore (s : State) (p : PStore) : s.Keeps (s.tryStore p) :=
  State.keeps_ite (s.keeps_failStore ..) (State.keeps_ite (s.keeps_perform p) (State.keeps_ite (.of_eq rfl rfl) (.refl s)))

/-- The effects of a run performed at its commit. -/
theorem State.keeps_performLocal (s : State) (h : HeldRun) : s.Keeps (s.performLocal h) := by
  refine State.keeps_foldl (fun z i => ?_) _ s
  split
  · exact State.keeps_ite (z.keeps_tryStore _) (.refl z)
  · exact .refl z

end Sys2Proof.Machine
end

section
/-! SUPPORT. The commit of a run (07_execution.md R118, R328): the state in which its effects are pending, and what becomes of its thread. -/

namespace Sys2Proof.Machine

variable {s y z : State} {h : HeldRun} {c : Cmd} {r : TRef} {t u : Thread} {g : Wg} {o : BufItem} {p : PStore} {next : Arch → Arch}
  {post : TStatus}

/-! ### The effects that a run has buffered become pending (R118) -/

/-- The effect counts in the class of stores (R117). -/
def BufOp.counts (o : BufOp) : Bool :=
  match o with
  | .fence _ _ => false
  | _ => true

theorem Run.buffered_eq (x : Run) : x.buffered = (x.buf.filter fun o => o.op.counts).length := rfl

/-- A buffered effect as a pending one. -/
def BufItem.pending (o : BufItem) (h : HeldRun) (i : Nat) (fenced : Bool) : PStore :=
  { id := i, who := h.who, run := h.id, core := h.core, op := o.op, rel := h.rel, loads := o.after, counted := o.op.counts,
    monitor := false, age := i, spilled := false, remote := none, addr := o.addr, seq := h.seq, due := h.due, fenced := fenced }

/-- A buffered effect becomes pending, and counts. -/
theorem State.releaseOp_eq (ht : y.thread h.who = some t) : ∃ u, u.stores = t.stores + (if o.op.counts then 1 else 0) ∧
    ∃ th, y.releaseOp h o =
      { y with nextId := y.nextId + 1, stores := y.stores ++ [o.pending h y.nextId t.wgRel.isSome], threads := th } ∧
      alook h.who.key th = some u := by
  have hfen : ((y.thread h.who).bind (·.wgRel)).isSome = t.wgRel.isSome := by rw [ht]; rfl
  have hself : ∀ x : Thread, alook h.who.key (aput h.who.key x y.threads) = some x := fun x => alook_aput_self ..
  have ht' : alook h.who.key y.threads = some t := ht
  obtain ⟨op, after, addr⟩ := o
  cases op with
  | store l bs f rel =>
    refine ⟨{ t with stores := t.stores + 1 }, rfl, _, ?_, hself _⟩
    simp [State.releaseOp, State.takeId, State.modThread, State.thread, State.setThread, ht', BufItem.pending, BufOp.counts]
  | cache x l =>
    refine ⟨{ t with stores := t.stores + 1 }, rfl, _, ?_, hself _⟩
    simp [State.releaseOp, State.takeId, State.modThread, State.thread, State.setThread, ht', BufItem.pending, BufOp.counts]
  | fence k sc =>
    by_cases hk : sc = .wg ∧ k ≠ .acq
    · obtain ⟨rfl, hk⟩ := hk
      refine ⟨{ t with wgRel := some y.nextId }, rfl, _, ?_, hself _⟩
      simp [State.releaseOp, State.takeId, State.modThread, State.thread, State.setThread, ht', BufItem.pending, BufOp.counts, hk]
    · refine ⟨t, rfl, y.threads, ?_, ht'⟩
      cases sc <;> simp_all [State.releaseOp, State.takeId, State.thread, BufItem.pending, BufOp.counts]

/-- The pending effects ps are those that a run has buffered, in their order, from the number n on. -/
structure Pending (h : HeldRun) (n : Nat) (buf : List BufItem) (ps : List PStore) : Prop where
  op : ps.map (·.op) = buf.map (·.op)
  loads : ps.map (·.loads) = buf.map (·.after)
  addr : ps.map (·.addr) = buf.map (·.addr)
  order : ps.Pairwise (·.id < ·.id)
  own : ∀ p ∈ ps, p.who = h.who ∧ p.run = h.id ∧ p.core = h.core ∧ p.seq = h.seq ∧ p.rel = h.rel ∧ p.remote = none ∧ p.monitor = false
  num : ∀ p ∈ ps, n ≤ p.id

theorem Pending.nil (h : HeldRun) (n : Nat) : Pending h n [] [] :=
  ⟨rfl, rfl, rfl, .nil, by simp, by simp⟩

theorem Pending.cons {buf : List BufItem} {ps : List PStore} {n : Nat} (hp : Pending h (n + 1) buf ps) (o : BufItem) (b : Bool) :
    Pending h n (o :: buf) (o.pending h n b :: ps) where
  op := by rw [List.map_cons, List.map_cons, hp.op]; rfl
  loads := by rw [List.map_cons, List.map_cons, hp.loads]; rfl
  addr := by rw [List.map_cons, List.map_cons, hp.addr]; rfl
  order := List.pairwise_cons.2 ⟨fun p h => hp.num p h, hp.order⟩
  own := List.forall_mem_cons.2 ⟨⟨rfl, rfl, rfl, rfl, rfl, rfl, rfl⟩, hp.own⟩
  num := List.forall_mem_cons.2 ⟨Nat.le_refl n, fun p h => Nat.le_of_succ_le (hp.num p h)⟩

/-- All that a run has buffered becomes pending, and its thread counts it. -/
theorem State.releaseOps_eq (buf : List BufItem) (ht : y.thread h.who = some t) : ∃ ps u th,
    buf.foldl (fun (s : State) o => s.releaseOp h o) y =
      { y with nextId := y.nextId + buf.length, stores := y.stores ++ ps, threads := th } ∧
    alook h.who.key th = some u ∧ u.stores = t.stores + (buf.filter fun o => o.op.counts).length ∧ Pending h y.nextId buf ps := by
  induction buf generalizing y t with
  | nil => exact ⟨[], t, y.threads, by simp, ht, rfl, .nil h _⟩
  | cons o buf ih =>
    obtain ⟨u, hu, th, hy, hth⟩ := y.releaseOp_eq (o := o) ht
    rw [List.foldl_cons, hy]
    obtain ⟨ps, u', th', hz, hth', hu', hps⟩ := ih (y := { y with nextId := _, stores := _, threads := th }) hth
    refine ⟨_, u', th', hz.trans ?_, hth', ?_, hps.cons o t.wgRel.isSome⟩
    · simp [List.append_assoc, Nat.add_assoc, Nat.add_comm 1]
    · rw [hu', hu, List.filter_cons]
      split <;> simp [*, Nat.add_assoc, Nat.add_comm 1]

/-! ### The run that is held, and what follows (R118, R328) -/

/-- The run of a steady thread as it is held from its commit on. -/
def heldOf (s : State) (r : TRef) (t : Thread) (exits : Bool) : HeldRun :=
  { id := s.nextId, who := r, seq := t.seq, core := s.coreOf r, snap := t.run.snap, rel := s.clock + 320, cmd := none,
    mates := t.run.mates, met := t.arch.xcount, acc := none, due := s.us + 20, exits := exits }

theorem committed_held (s : State) (r : TRef) (t : Thread) (next : Arch → Arch) (e : Bool) :
    (committed s r t next e).held = s.held ++ [heldOf s r t e] := rfl

/-- What follows the effects of a run that commits: its command, if it has one, and its terminator. -/
def State.conclude (s : State) (h : HeldRun) (r : TRef) (post : TStatus) (cmd : Option Cmd) : State :=
  match cmd with
  | none => s.goOn r post
  | some c =>
    if c.redirects r && post != .exited then
      (s.commitCmd h c).modThread r fun t => { t with status := .awaiting h.id, post := post }
    else (s.commitCmd h c).goOn r post

/-- A run that commits gives its SC fences their places, and changes nothing else by that (R145). -/
theorem State.scCommit_eq (z : State) (r : TRef) (seq id : Nat) :
    z.scCommit r seq id = { z with scReads := (z.scCommit r seq id).scReads } := by
  unfold State.scCommit
  split <;> rfl

/-- The state in which a run is held and its effects are pending, none of them tried, and its thread is at its next run. -/
def State.handOver (s : State) (r : TRef) (t : Thread) (next : Arch → Arch) (exits : Bool) (sc : List ScRead) : State :=
  t.run.buf.foldl (fun (z : State) o => z.releaseOp (heldOf s r t exits) o) { committed s r t next exits with scReads := sc }

/-- A steady run commits: it is held, its effects are pending, and those within its core are tried. -/
theorem State.commitRun_of_steady (h : SteadyRun s r t) (g : Wg) (next : Arch → Arch) (post : TStatus) (cmd : Option Cmd) : ∃ sc,
    s.commitRun r t g cmd next id post =
      ((s.handOver r t next (post == .exited) sc).performLocal (heldOf s r t (post == .exited))).conclude
        (heldOf s r t (post == .exited)) r post cmd := by
  have ht : alook r.key s.threads = some t := h.thread
  refine ⟨(({ s with nextId := s.nextId + 1, fresh := s.fresh + 256 } : State).scCommit r t.seq s.nextId).scReads, ?_⟩
  unfold State.commitRun
  dsimp only [State.takeId, State.takeFresh]
  rw [State.scCommit_eq, h.acc, h.claims, h.beacon]
  generalize (State.scCommit _ r t.seq s.nextId).scReads = sc
  have hmod : ∀ (z : State) (f : Thread → Thread), z.threads = s.threads → z.modThread r f = z.setThread r (f t) := fun z f hz =>
    State.modThread_of_some (show z.thread r = some t by rw [State.thread, hz, ht]) f
  simp only [hmod, State.commitClaims, List.foldl_nil, State.dropClaims, State.sendOut, State.monitorAll, List.map_nil, List.dedup_nil,
    Option.map_none, Option.getD_none, Bool.false_and, Bool.false_eq_true, if_false]
  cases cmd <;> rfl

end Sys2Proof.Machine
end

section
/-! PROOFS. A run without a committing instruction commits (07_execution.md R112, R113, R118, R328). -/

namespace Sys2Proof.Machine

variable {s y z : State} {h : HeldRun} {r : TRef} {t : Thread} {g : Wg} {p : PStore} {next : Arch → Arch} {post : TStatus}
  {e : Bool} {sc : List ScRead}

/-! ### A run that has buffered nothing -/

theorem State.proceed_ready (ht : s.thread r = some t) (hstop : t.stop = none) (c v : Nat) :
    s.proceed r (.ready c v) = s.makeReady r v := by
  simp only [State.proceed, ht, hstop]

/-- A run that has buffered nothing is held, and its thread is ready at its next run; nothing else changes. -/
theorem runsCommit_plain (hcur : s.cur = some r) (h : PlainRun s r t) (g : Wg) (next : Arch → Arch) (v : Nat) :
    let s' := s.endRun r t g next id (.ready 0 v)
    let a := next { t.arch with regs := t.arch.regs.newRun s.fresh, xcount := 0, alone := 0 }
    (∃ t', s'.thread r = some t' ∧ t'.arch = a ∧ t'.status = .ready (s.clock + 1) v ∧ t'.seq = t.seq + 1 ∧ t'.run = Run.start a) ∧
    s'.mem = s.mem ∧ (∀ q : TRef, q.key ≠ r.key → s'.thread q = s.thread q) ∧
    ∃ h ∈ s'.held, h.who = r ∧ h.seq = t.seq ∧ h.rel = s.clock + 320 ∧ h.snap = t.run.snap ∧ h.cmd = none := by
  intro s' a
  have ht := thread_committed s r t next false
  have hs' : s' = (committed s r t next false).makeReady r v :=
    (State.endRun_of_plain_proceed h g next (post := .ready 0 v) nofun).trans (State.proceed_ready ht h.stop 0 v)
  have htime : (committed s r t next false).readyTime r = s.clock + 1 :=
    if_pos (show (committed s r t next false).cur = some r from hcur)
  rw [hs']
  refine ⟨⟨_, State.thread_makeReady_self ht v, rfl, by rw [htime], rfl, rfl⟩, State.makeReady_mem .., fun q hq => ?_, heldOf s r t false, ?_,
    rfl, rfl, rfl, rfl, rfl⟩
  · rw [State.thread_makeReady_of_ne _ _ hq]
    exact alook_aput_of_ne _ _ hq
  · rw [State.makeReady_held, committed_held]
    exact List.mem_append_right _ (List.mem_singleton.2 rfl)

/-! ### The state in which the effects of a run are pending -/

/-- Until the effects of a run are tried, its commit changes threads, numbers and records, and adds the pending effects. -/
theorem State.handOver_eq (s : State) (r : TRef) (t : Thread) (next : Arch → Arch) (e : Bool) (sc : List ScRead) : ∃ ps u th n,
    s.handOver r t next e sc =
      { committed s r t next e with scReads := sc, nextId := n, stores := s.stores ++ ps, threads := th } ∧
    alook r.key th = some u ∧ u.stores = t.stores + t.run.buffered ∧ Pending (heldOf s r t e) (s.nextId + 1) t.run.buf ps := by
  obtain ⟨ps, u, th, hz, hth, hu, hps⟩ := State.releaseOps_eq (y := { committed s r t next e with scReads := sc })
    (h := heldOf s r t e) t.run.buf (thread_committed s r t next e)
  exact ⟨ps, u, th, _, hz, hth, by rw [Run.buffered_eq]; exact hu, hps⟩

/-- A run without a committing instruction commits: its effects are tried, and its thread goes on. -/
theorem State.endRun_of_steady (h : SteadyRun s r t) (hc : t.run.commit = none) (g : Wg) (next : Arch → Arch) (post : TStatus) : ∃ sc,
    s.endRun r t g next id post = ((s.handOver r t next (post == .exited) sc).performLocal (heldOf s r t (post == .exited))).goOn r post := by
  obtain ⟨sc, hsc⟩ := State.commitRun_of_steady h g next post none
  refine ⟨sc, Eq.trans ?_ hsc⟩
  simp [State.endRun, h.steady, h.room, hc]

theorem State.threadsQuads_goOn (s : State) (r : TRef) (hp : post ≠ .exited) : s.ThreadsQuads (s.goOn r post) := by
  unfold State.goOn
  split
  · exact .refl s
  · rw [if_neg hp]
    exact s.threadsQuads_proceed ..

/-! ### Effects that leave the core -/

theorem foldl_of_fixed {α β : Type} {f : α → β → α} {a : α} {l : List β} (h : ∀ b ∈ l, f a b = a) : l.foldl f a = a := by
  induction l with
  | nil => rfl
  | cons b l ih =>
    rw [List.forall_mem_cons] at h
    rw [List.foldl_cons, h.1, ih h.2]

/-- Where no effect of a run stays within its core, none is tried at its commit (R328). -/
theorem State.performLocal_of_away (haway : ∀ p ∈ s.stores, p.run = h.id → ∀ q ∈ s.stores, q.id = p.id → q.op.inCore q.core = false) :
    s.performLocal h = s := by
  refine foldl_of_fixed fun i hi => ?_
  obtain ⟨p, hp, rfl⟩ := List.mem_map.1 hi
  obtain ⟨hmem, hrun⟩ := List.mem_filter.1 hp
  split
  · next q hq =>
    have hid : q.id = p.id := by simpa using List.find?_some hq
    rw [haway p hmem (by simpa using hrun) q (List.mem_of_find?_eq_some hq) hid]
    rfl
  · rfl

theorem Pending.inCore {n : Nat} {buf : List BufItem} {ps : List PStore} (hps : Pending h n buf ps)
    (hb : ∀ o ∈ buf, o.op.inCore h.core = false) (hp : p ∈ ps) : p.op.inCore p.core = false := by
  have hop : p.op ∈ buf.map (·.op) := hps.op ▸ List.mem_map_of_mem hp
  obtain ⟨o, ho, heq⟩ := List.mem_map.1 hop
  rw [(hps.own p hp).2.2.1, ← heq]
  exact hb o ho

/-- A run all of whose effects leave the core tries none at its commit. -/
theorem State.performLocal_handOver_of_away (hfresh : ∀ p ∈ s.stores, p.run ≠ s.nextId ∧ p.id < s.nextId) {ps : List PStore}
    (hps : Pending (heldOf s r t e) (s.nextId + 1) t.run.buf ps) (hb : ∀ o ∈ t.run.buf, o.op.inCore (s.coreOf r) = false)
    (hz : z.stores = s.stores ++ ps) : z.performLocal (heldOf s r t e) = z := by
  refine State.performLocal_of_away fun p hp hrun q hq hid => ?_
  rw [hz, List.mem_append] at hp hq
  have hp : p ∈ ps := hp.resolve_left fun hp => (hfresh p hp).1 hrun
  have hq : q ∈ ps := hq.resolve_left fun hq => by
    have := (hfresh q hq).2
    have := hps.num p hp
    omega
  exact hps.inCore hb hq

/-- What a run has buffered is pending from its commit on, and touches no memory before it is tried. -/
theorem runsCommit_buffered (h : SteadyRun s r t) (hc : t.run.commit = none) (g : Wg) (next : Arch → Arch) (v : Nat) :
    let s' := s.endRun r t g next id (.ready 0 v)
    ∃ (mid : State) (h : HeldRun) (ps : List PStore) (u : Thread),
      mid.stores = s.stores ++ ps ∧ ps.map (·.op) = t.run.buf.map (·.op) ∧ ps.map (·.loads) = t.run.buf.map (·.after) ∧
      ps.map (·.addr) = t.run.buf.map (·.addr) ∧ ps.Pairwise (·.id < ·.id) ∧
      (∀ p ∈ ps, p.who = r ∧ p.run = s.nextId ∧ p.core = s.coreOf r ∧ p.seq = t.seq ∧ p.rel = s.clock + 320 ∧ p.remote = none ∧
        p.monitor = false) ∧
      mid.mem = s.mem ∧ mid.full = s.full ∧ mid.l1 = s.l1 ∧ mid.thread r = some u ∧ u.stores = t.stores + t.run.buffered ∧
      h.id = s.nextId ∧ h.who = r ∧ s' = (mid.performLocal h).goOn r (.ready 0 v) ∧
      ((∀ o ∈ t.run.buf, o.op.inCore (s.coreOf r) = false) → s'.stores = s.stores ++ ps ∧ s'.mem = s.mem) := by
  intro s'
  obtain ⟨sc, hs'⟩ := State.endRun_of_steady h hc g next (.ready 0 v)
  obtain ⟨ps, u, th, n, hmid, hth, hu, hps⟩ := s.handOver_eq r t next ((TStatus.ready 0 v) == .exited) sc
  have hstores : (s.handOver r t next ((TStatus.ready 0 v) == .exited) sc).stores = s.stores ++ ps := by rw [hmid]
  refine ⟨_, heldOf s r t ((TStatus.ready 0 v) == .exited), ps, u, hstores, hps.op, hps.loads, hps.addr, hps.order, hps.own,
    by rw [hmid]; rfl, by rw [hmid]; rfl, by rw [hmid]; rfl, by rw [hmid]; exact hth, hu, rfl, rfl, hs', fun hb => ?_⟩
  rw [show s' = _ from hs', State.performLocal_handOver_of_away h.fresh hps hb hstores]
  obtain ⟨th', qs, hz⟩ := State.threadsQuads_goOn (post := .ready 0 v) (s.handOver r t next ((TStatus.ready 0 v) == .exited) sc) r nofun
  rw [hz, hmid]
  exact ⟨rfl, rfl⟩

end Sys2Proof.Machine
end

section
/-! PROOFS. A store to the own core that nothing holds back is performed at the commit of its run (07_execution.md R118, R328). -/

namespace Sys2Proof.Machine

variable {s y z : State} {h : HeldRun} {r : TRef} {t : Thread} {g : Wg} {p : PStore} {next : Arch → Arch} {e : Bool} {sc : List ScRead}
  {l : List PStore} {k : Nat} {bs : List Byte} {a : DWord}

/-- Where a run has one effect, and that within its core, it alone is tried at its commit. -/
theorem State.performLocal_single (hst : y.stores = l ++ [p]) (hl : ∀ q ∈ l, q.run ≠ h.id ∧ q.id ≠ p.id) (hrun : p.run = h.id)
    (hin : p.op.inCore p.core = true) : y.performLocal h = y.tryStore p := by
  have hmine : y.stores.filter (fun q => q.run == h.id) = [p] := by
    rw [hst, List.filter_append, List.filter_eq_nil_iff.2 fun q hq => by simpa using (hl q hq).1]
    simp [hrun]
  have hfind : y.stores.find? (fun q => q.id == p.id) = some p := by
    rw [hst, List.find?_append, List.find?_eq_none.2 fun q hq => by simpa using (hl q hq).2]
    simp
  simp [State.performLocal, forEach, hmine, hfind, hin]

/-- A plain store to the own core is ready where no effect, read or claim is before it. -/
theorem State.storeReady_of_alone (hop : p.op = .store (.key k) bs .keep none) (hst : y.stores = l ++ [p]) (hl : ∀ q ∈ l, q.who ≠ p.who)
    (hloads : p.loads = []) (hremote : p.remote = none) (hin : p.op.inCore p.core = true) (hclaims : y.claims = [])
    (hpriv : y.privBefore p.who p.run = false) : y.storeReady p = true := by
  have hblocks : y.stores.any (fun q => q.blocks p) = false := by
    rw [hst, List.any_eq_false]
    intro q hq
    rcases List.mem_append.1 hq with hq | hq
    · simp [PStore.blocks, hl q hq]
    · simp [PStore.blocks, List.mem_singleton.1 hq]
  have hmay : y.storeMay p = true := by
    simp [State.storeMay, hblocks, hloads, hpriv, hremote, State.scBehind, BufOp.follows, BufOp.releases, hop]
    simpa [hop] using Or.inl hin
  have hfree : y.wordFree p = true := by
    simp [State.wordFree, hop, State.claimedIn, hclaims]
  simp [State.storeReady, hmay, hfree]

/-- A store that is ready is performed; one that no release comes before sends no note. -/
theorem State.tryStore_of_ready (hop : p.op = .store (.key k) bs .keep none) (hgone : y.storeGone p = false)
    (hready : y.storeReady p = true) (hfenced : p.fenced = false) : y.tryStore p = y.performStore p := by
  have hnoted : p.noted = none := by simp [PStore.noted, hop, hfenced]
  simp [State.tryStore, hgone, hready, State.perform, hnoted]

/-- A run with one effect has it pending from its commit on. -/
theorem State.handOver_single {o : BufItem} (hbuf : t.run.buf = [o]) (s : State) (r : TRef) (next : Arch → Arch) (e : Bool)
    (sc : List ScRead) : ∃ th n, s.handOver r t next e sc =
      { committed s r t next e with
        scReads := sc, nextId := n, threads := th, stores := s.stores ++ [o.pending (heldOf s r t e) (s.nextId + 1) t.wgRel.isSome] } := by
  obtain ⟨u, -, th, hz, -⟩ := State.releaseOp_eq (y := { committed s r t next e with scReads := sc }) (h := heldOf s r t e) (o := o)
    (thread_committed s r t next e)
  exact ⟨th, _, by rw [State.handOver, hbuf, List.foldl_cons, List.foldl_nil, hz]; rfl⟩

/-- A plain store that nothing holds back is performed at its run's commit, and nothing else is. -/
theorem State.performLocal_handOver_single (h : SteadyRun s r t)
    (hbuf : t.run.buf = [{ op := .store (.key k) bs .keep none, after := [], addr := a }])
    (hin : (BufOp.store (.key k) bs .keep none).inCore (s.coreOf r) = true) (hstill : s.still r k bs.length = true)
    (hrel : t.wgRel = none) (hst : ∀ p ∈ s.stores, p.who ≠ r ∧ p.monitor = false) (hw : s.waiters = []) (hclaims : s.claims = [])
    (hheld : s.held = []) (hm : MemOk s) (next : Arch → Arch) (e : Bool) (sc : List ScRead) :
    ∃ (y : State) (p : PStore), y.Idle ∧ y.stores = s.stores ∧ y.mem = s.mem ∧ y.l1 = s.l1 ∧ p.core = s.coreOf r ∧
      p.rel = s.clock + 320 ∧ p.due = s.us + 20 ∧
      (y.storeHere p k bs .keep none).ThreadsQuads ((s.handOver r t next e sc).performLocal (heldOf s r t e)) := by
  obtain ⟨th, n, hmid⟩ := State.handOver_single hbuf s r next e sc
  generalize hp : BufItem.pending _ _ _ _ = p at hmid
  obtain ⟨hop, hid, hrun, hcore⟩ : p.op = .store (.key k) bs .keep none ∧ p.id = s.nextId + 1 ∧ p.run = (heldOf s r t e).id ∧
      p.core = s.coreOf r := by subst hp; exact ⟨rfl, rfl, rfl, rfl⟩
  have hl : ∀ q ∈ s.stores, q.run ≠ (heldOf s r t e).id ∧ q.id ≠ p.id := fun q hq => by
    obtain ⟨hrun, hlt⟩ := h.fresh q hq
    exact ⟨hrun, by omega⟩
  generalize s.handOver r t next e sc = mid at hmid
  have hin' : p.op.inCore p.core = true := by rw [hop, hcore]; exact hin
  have hgone : mid.storeGone p = false := by
    subst hmid hp
    exact congrArg (!·) hstill
  have hpriv : mid.privBefore p.who p.run = false := by
    subst hmid hp
    simp [State.privBefore, committed_held, hheld, heldOf, BufItem.pending]
  have hmidst : mid.stores = s.stores ++ [p] := by rw [hmid]
  have hready : mid.storeReady p = true :=
    State.storeReady_of_alone hop hmidst (fun q hq => by subst hp; exact (hst q hq).1) (by subst hp; rfl) (by subst hp; rfl) hin'
      (by rw [hmid]; simp [committed, hclaims]) hpriv
  have hwithout : (mid.withoutStore p).stores = s.stores := by
    rw [State.withoutStore, hmidst, List.filter_append, List.filter_eq_self.2 fun q hq => by simpa using (hl q hq).2]
    simp
  have hidle : (mid.withoutStore p).Idle := ⟨by rw [hmid]; exact hw, fun q hq => (hst q (hwithout ▸ hq)).2⟩
  refine ⟨mid.withoutStore p, p, hidle, hwithout, by rw [hmid]; rfl, by rw [hmid]; rfl, hcore, by subst hp; rfl, by subst hp; rfl, ?_⟩
  rw [State.performLocal_single hmidst hl hrun hin', State.tryStore_of_ready hop hgone hready (by subst hp; simp [BufItem.pending, hrel])]
  have hkeep := State.storeHere_idle (p := p) (k := k) (bs := bs) (f := .keep) hidle (by rw [hmid]; exact hm) none
  refine State.performStore_idle (by simp [hop, BufOp.releases]) (.inl ⟨k, bs, .keep, none, hop, rfl⟩) ⟨hkeep.2.trans hidle.1, ?_⟩
  rw [hkeep.1]
  exact hidle.2

/-- A plain store to the own core that nothing holds back is done when its run has committed (R152, R154). -/
theorem runsCommit_local (h : SteadyRun s r t) (hc : t.run.commit = none) (g : Wg) (next : Arch → Arch) (v : Nat)
    (hbuf : t.run.buf = [{ op := .store (.key k) bs .keep none, after := [], addr := a }])
    (hin : (BufOp.store (.key k) bs .keep none).inCore (s.coreOf r) = true) (hstill : s.still r k bs.length = true)
    (hrel : t.wgRel = none) (hst : ∀ p ∈ s.stores, p.who ≠ r ∧ p.monitor = false) (hw : s.waiters = []) (hclaims : s.claims = [])
    (hheld : s.held = []) (hm : MemOk s) :
    let s' := s.endRun r t g next id (.ready 0 v)
    s'.stores = s.stores ∧ (isScratch k = true → ∀ i b, bs[i]? = some b → s'.mem.read (k + i) = b) ∧
    (isScratch k = false → s'.mem = s.mem ∧ ∀ i b, bs[i]? = some b → alook (l1Key (s.coreOf r) (k + i)) s'.l1 =
      some { val := b, dirty := true, rel := s.clock + 320, due := s.us + 20 }) := by
  intro s'
  obtain ⟨sc, hs'⟩ := State.endRun_of_steady h hc g next (.ready 0 v)
  obtain ⟨y, p, hidle, hystores, hymem, hyl1, hcore, hrel', hdue, htried⟩ :=
    State.performLocal_handOver_single h hbuf hin hstill hrel hst hw hclaims hheld hm next ((TStatus.ready 0 v) == .exited) sc
  have hwf : Memory.wf y.mem := hymem ▸ hm
  obtain ⟨th, qs, hz⟩ := htried.trans (State.threadsQuads_goOn (post := .ready 0 v) _ r nofun)
  rw [show s' = _ from hs', hz]
  refine ⟨(State.storeHere_idle hidle hwf none).1.trans hystores, fun hk i b hb => ?_, fun hk => ?_⟩
  · obtain ⟨-, -, hmem, -⟩ := State.storeHere_scratch (p := p) (bs := bs) (f := .keep) hidle hk
    exact (congrArg (Memory.read · (k + i)) hmem).trans (Memory.read_writeN_self k bs hwf hb)
  · obtain ⟨u, hl1⟩ := State.storeHere_l1 (p := p) (bs := bs) (f := .keep) (rel := none) hidle hk nofun
    rw [hl1, ← hcore, ← hrel', ← hdue]
    exact ⟨hymem, fun i b hb => alook_putCells_bytesAt hb⟩

end Sys2Proof.Machine
end

section
/-! PROOFS. A run with a committing instruction commits (07_execution.md R118, R328). -/

namespace Sys2Proof.Machine

variable {s w : State} {h : HeldRun} {c : Cmd} {r : TRef} {t : Thread} {g : Wg} {next : Arch → Arch} {post : TStatus} {f : FaultInfo}

/-! ### The command and its block -/

@[simp] theorem State.withBlock_op (s : State) (t : Thread) (c : Cmd) : (s.withBlock t c).op = c.op := by
  unfold State.withBlock
  split
  · split <;> rfl
  · rfl

@[simp] theorem State.withBlock_dests (s : State) (t : Thread) (c : Cmd) : (s.withBlock t c).dests = c.dests := by
  unfold State.withBlock
  split
  · split <;> rfl
  · rfl

/-! ### What becomes of the run -/

theorem State.endRun_of_waits (h : SteadyRun s r t) (hc : t.run.commit = some c) (hw : s.commitWaits r g (s.withBlock t c) = true) :
    s.endRun r t g next id post = s.interlock r := by
  simp [State.endRun, h.steady, h.room, hc, hw, h.stop]

theorem State.endRun_of_oqWaits (h : SteadyRun s r t) (hc : t.run.commit = some c) (hw : s.commitWaits r g (s.withBlock t c) = false)
    (hq : s.oqWaits r g (s.withBlock t c) = true) : s.endRun r t g next id post = s.oqPark r t (s.withBlock t c) := by
  simp [State.endRun, h.steady, h.room, hc, hw, hq]

theorem State.endRun_of_commitFault (h : SteadyRun s r t) (hc : t.run.commit = some c)
    (hw : s.commitWaits r g (s.withBlock t c) = false) (hq : s.oqWaits r g (s.withBlock t c) = false)
    (hf : s.commitFault r g (s.withBlock t c) post = some f) : s.endRun r t g next id post = s.takeFault r f (t.run.cmark.getD 0) := by
  simp [State.endRun, h.steady, h.room, hc, hw, hq, hf]

theorem State.endRun_of_command (h : SteadyRun s r t) (hc : t.run.commit = some c) (hw : s.commitWaits r g (s.withBlock t c) = false)
    (hq : s.oqWaits r g (s.withBlock t c) = false) (hf : s.commitFault r g (s.withBlock t c) post = none) :
    s.endRun r t g next id post = s.commitRun r t g (some (s.withBlock t c)) next id post := by
  simp [State.endRun, h.steady, h.room, hc, hw, hq, hf]

/-! ### What becomes of the command -/

/-- The state in which a run's command counts, and its registers are outstanding. -/
def State.counting (w : State) (h : HeldRun) (c : Cmd) : State :=
  w.modThread h.who fun t => { t.count c.cls (· + c.counts) with busy := c.dests ++ t.busy }

/-- Whether a release fence of WG scope of the run's thread comes before its command (R150). -/
def State.fencesCmd (w : State) (h : HeldRun) (c : Cmd) : Bool := (((w.counting h c).thread h.who).bind (·.wgRel)).isSome

theorem State.commitCmd_queue (hq : c.op.isQueue = true) :
    w.commitCmd h c = (w.counting h c).actQueue h { c with fenced := w.fencesCmd h c } :=
  if_pos hq

theorem State.commitCmd_idem (hi : c.op = .idemBegin ∨ c.op = .idemEnd) :
    w.commitCmd h c = (w.counting h c).actIdem h { c with fenced := w.fencesCmd h c } := by
  unfold State.commitCmd
  obtain hi | hi := hi <;> simp [hi, CmdOp.isQueue] <;> rfl

theorem State.commitCmd_tile (hq : c.op.isQueue = false) (hb : c.op ≠ .idemBegin) (he : c.op ≠ .idemEnd) (ht : c.op.onTiles = true) :
    w.commitCmd h c = (w.counting h c).commitTile h { c with fenced := w.fencesCmd h c } := by
  simp [State.commitCmd, hq, hb, he, ht]
  rfl

/-- A command that is none of these acts at the commit where it stays within the core and nothing holds it; else it is held. -/
theorem State.commitCmd_other (hq : c.op.isQueue = false) (hb : c.op ≠ .idemBegin) (he : c.op ≠ .idemEnd) (ht : c.op.onTiles = false) :
    w.commitCmd h c =
      let mid := w.counting h c
      let kept := { c with fenced := w.fencesCmd h c }
      if mid.cmdLocal h kept then
        if (mid.actMemory h kept).1 then (mid.actMemory h kept).2 else (mid.actMemory h kept).2.setHeldCmd h.id kept
      else mid.setHeldCmd h.id kept := by
  simp [State.commitCmd, hq, hb, he, ht]
  rfl

theorem CmdOp.isQueue_of_onTiles {o : CmdOp} (h : o.onTiles = true) : o.isQueue = false ∧ o ≠ .idemBegin ∧ o ≠ .idemEnd := by
  refine ⟨?_, ?_, ?_⟩
  · cases o <;> simp [CmdOp.onTiles, CmdOp.onArray, CmdOp.isQueue] at h ⊢
  · rintro rfl
    cases h
  · rintro rfl
    cases h

/-! ### The run is held, and its thread there -/

theorem HeldRun.mem_of_keeps {z : State} (hk : w.Keeps z) (hh : h ∈ w.held) :
    ∃ x ∈ z.held, x.id = h.id ∧ x.who = h.who ∧ x.seq = h.seq ∧ x.rel = h.rel := by
  have hmem : h.tag ∈ z.held.map HeldRun.tag := hk.held ▸ List.mem_map_of_mem hh
  obtain ⟨x, hx, htag⟩ := List.mem_map.1 hmem
  simp only [HeldRun.tag, Prod.mk.injEq] at htag
  exact ⟨x, hx, htag⟩

/-- The thread of a run whose command counts: its registers are outstanding. -/
theorem State.thread_counting (ht : w.thread h.who = some t) : ∃ u, (w.counting h c).thread h.who = some u ∧ ∀ x ∈ c.dests, x ∈ u.busy := by
  refine ⟨_, by rw [State.counting, State.modThread_of_some ht, State.thread_setThread], fun x hx => List.mem_append_left _ hx⟩

/-- What the effects of a run leave of it when they have been tried. -/
theorem State.tried_keeps (s : State) (r : TRef) (t : Thread) (next : Arch → Arch) (e : Bool) (sc : List ScRead) :
    let w := (s.handOver r t next e sc).performLocal (heldOf s r t e)
    (∃ x ∈ w.held, x.id = s.nextId ∧ x.who = r ∧ x.seq = t.seq ∧ x.rel = s.clock + 320) ∧ ∃ u, w.thread r = some u := by
  obtain ⟨ps, u, th, n, hmid, hth, -⟩ := s.handOver_eq r t next e sc
  have hk := (s.handOver r t next e sc).keeps_performLocal (heldOf s r t e)
  refine ⟨HeldRun.mem_of_keeps hk (h := heldOf s r t e) ?_, Option.isSome_iff_exists.1 (hk.threads r ?_)⟩
  · rw [hmid]
    exact List.mem_append_right _ (List.mem_singleton.2 rfl)
  · rw [hmid]
    exact Option.isSome_iff_exists.2 ⟨u, hth⟩

/-- A run that has buffered nothing tries nothing. -/
theorem State.tried_of_nil (h : SteadyRun s r t) (hbuf : t.run.buf = []) (next : Arch → Arch) (e : Bool) (sc : List ScRead) :
    (s.handOver r t next e sc).performLocal (heldOf s r t e) = { committed s r t next e with scReads := sc } := by
  rw [State.handOver, hbuf, List.foldl_nil]
  exact State.performLocal_of_fresh fun p hp => (h.fresh p hp).1

/-- A run with a committing instruction that neither waits nor faults tries its effects, and its command and its terminator follow. -/
theorem State.endRun_command_tried (h : SteadyRun s r t) (hc : t.run.commit = some c) (hw : s.commitWaits r g (s.withBlock t c) = false)
    (hq : s.oqWaits r g (s.withBlock t c) = false) (hf : s.commitFault r g (s.withBlock t c) post = none) (next : Arch → Arch) :
    ∃ w : State, s.endRun r t g next id post = w.conclude (heldOf s r t (post == .exited)) r post (some (s.withBlock t c)) ∧
      (∃ x ∈ w.held, x.id = s.nextId ∧ x.who = r ∧ x.seq = t.seq ∧ x.rel = s.clock + 320) ∧ (∃ u, w.thread r = some u) ∧
      (t.run.buf = [] → w.mem = s.mem ∧ w.stores = s.stores) := by
  obtain ⟨sc, hrun⟩ := State.commitRun_of_steady h g next post (some (s.withBlock t c))
  obtain ⟨hheld, hthread⟩ := s.tried_keeps r t next (post == .exited) sc
  exact ⟨_, (State.endRun_of_command h hc hw hq hf).trans hrun, hheld, hthread, fun hbuf => by
    rw [State.tried_of_nil h hbuf]
    exact ⟨rfl, rfl⟩⟩

/-- Settles O19: where the run commits its effects are pending and those within its core are tried, in order; a command counts, and acts
or is held as its form and place say. -/
theorem runsCommit : Obligations.RunsCommit := by
  unfold Obligations.RunsCommit
  refine ⟨fun s r t g next v hcur h => runsCommit_plain hcur h g next v, fun s r t g next v _ h hc => ⟨runsCommit_buffered h hc g next v,
    fun k bs a hbuf hin hstill hrel hst hw hclaims hheld hm => runsCommit_local h hc g next v hbuf hin hstill hrel hst hw hclaims hheld hm⟩,
    fun s r t g next post c h hc => ⟨State.endRun_of_waits h hc, State.endRun_of_oqWaits h hc, fun hw hq =>
      ⟨fun f => State.endRun_of_commitFault h hc hw hq, fun hf => ?_⟩⟩⟩
  obtain ⟨w, hs', hheld, ⟨u, hu⟩, hnil⟩ := State.endRun_command_tried h hc hw hq hf next
  generalize hrun : heldOf s r t (post == .exited) = run at hs'
  have hwho' : run.who = r := hrun ▸ rfl
  have hwho : w.thread run.who = some u := by rw [hwho', hu]
  generalize hcmd : s.withBlock t c = c' at hs'
  have hop : c'.op = c.op := hcmd ▸ s.withBlock_op t c
  have hdests : c'.dests = c.dests := hcmd ▸ s.withBlock_dests t c
  obtain ⟨u', hu', hbusy⟩ := State.thread_counting (c := c') hwho
  have hcount : w.counting run c' = { w with threads := (w.counting run c').threads } := by
    rw [State.counting, State.modThread_of_some hwho]
    rfl
  rw [← hop]
  refine ⟨w.counting run c', run, u', w.fencesCmd run c', ?_⟩
  intro kept go
  have hgo : s.endRun r t g next id post = go (w.commitCmd run c') := by
    subst hrun
    exact hs'
  rw [hgo]
  refine ⟨hrun ▸ rfl, hrun ▸ rfl, hrun ▸ rfl, hrun ▸ rfl, hrun ▸ rfl, ?_, by rw [← hwho', hu'], hdests ▸ hbusy, fun hbuf => ?_,
    fun hqueue => congrArg go (State.commitCmd_queue hqueue), fun hidem => congrArg go (State.commitCmd_idem hidem), fun htile => ?_,
    fun hqueue hbegin hend htile => ?_⟩
  · rw [hcount, ← hrun]
    exact hheld
  · rw [hcount]
    exact hnil hbuf
  · obtain ⟨hqueue, hbegin, hend⟩ := CmdOp.isQueue_of_onTiles htile
    exact congrArg go (State.commitCmd_tile hqueue hbegin hend htile)
  · have hid : run.id = s.nextId := hrun ▸ rfl
    rw [State.commitCmd_other hqueue hbegin hend htile, ← hid]
    refine ⟨fun hlocal hdone => ?_, fun hlocal hdone => ?_, fun hlocal => ?_⟩
    · exact congrArg go ((if_pos hlocal).trans (if_pos hdone))
    · exact congrArg go ((if_pos hlocal).trans (if_neg (by rw [hdone]; nofun)))
    · exact congrArg go (if_neg (by rw [hlocal]; nofun))

end Sys2Proof.Machine
end

section
/-! PROOFS. The checks of a generic access (08_memory.md R159). -/

namespace Sys2Proof.Machine

variable {s : State} {r : TRef} {t : Thread} {g : Wg} {a : DWord} {size len : Nat} {k : Access} {sc : Option Scope} {p : Bool}

/-- The place of a scratchpad access of a workgroup that is not saved: XLATE where the address names no core, then PROT (R138). -/
theorem State.scratchAt_of_none {w : Word} (h : scratchKey (coreOfQuad g.quad) w = none) : s.scratchAt g w len = .error .xlate := by
  rw [State.scratchAt, h]

theorem State.scratchAt_of_some {w : Word} {x : Nat} (hg : g.saved = false) (h : scratchKey (coreOfQuad g.quad) w = some x) :
    s.scratchAt g w len = if s.mayScratch g x len then .ok x else .error .prot := by
  simp only [State.scratchAt, h, hg, Bool.false_eq_true, if_false]

section access

variable (ht : s.thread r = some t) (hg : s.wg r.wg = some g)
include ht hg

/-- An access that is not aligned faults before anything else is looked at. -/
theorem State.reachLen_of_unaligned (ha : a.toNat % size ≠ 0) :
    s.reachLen r a size len k sc p = .fault (faultAt .align a k (inScratchRange a)) := by
  simp only [State.reachLen, ht, hg]
  cases inScratchRange a <;> simp [ha]

/-- An aligned access to the scratchpad's range is one of its workgroup's scratchpad. -/
theorem State.reachLen_of_scratch_ok {x : Nat} (ha : a.toNat % size = 0) (hr : inScratchRange a = true)
    (hx : s.scratchAt g (a.setWidth 32) len = .ok x) : s.reachLen r a size len k sc p = .ok (.key x) := by
  simp [State.reachLen, ht, hg, ha, hr, hx]

theorem State.reachLen_of_scratch_error {c : Code} (ha : a.toNat % size = 0) (hr : inScratchRange a = true)
    (hx : s.scratchAt g (a.setWidth 32) len = .error c) : s.reachLen r a size len k sc p = .fault (faultAt c a k true) := by
  simp [State.reachLen, ht, hg, ha, hr, hx]

theorem State.reachLen_of_notCanonical (ha : a.toNat % size = 0) (hr : inScratchRange a = false) (hc : isCanonical a = false) :
    s.reachLen r a size len k sc p = .fault (faultAt .xlate a k false) := by
  simp [State.reachLen, ht, hg, ha, hr, hc]

section canonical

variable (ha : a.toNat % size = 0) (hr : inScratchRange a = false) (hc : isCanonical a = true)
include ha hr hc

/-- An aligned access to a canonical address goes by the entry of its core's TLB, and by what that page grants. -/
theorem State.reachLen_of_tlbMiss (he : s.tlbFind (s.coreOf r) g.part a = none) : s.reachLen r a size len k sc p = .miss := by
  simp [State.reachLen, ht, hg, ha, hr, hc, he]

theorem State.reachLen_of_page_error {e : TlbEntry} {c : Code} (he : s.tlbFind (s.coreOf r) g.part a = some e)
    (hp : s.checkPage g.part t.arch.sup k e.trans a = .error c) :
    s.reachLen r a size len k sc p = .fault (faultAt c a k false) := by
  simp [State.reachLen, ht, hg, ha, hr, hc, he, hp]

theorem State.reachLen_of_page_ok {e : TlbEntry} {l : Loc} (he : s.tlbFind (s.coreOf r) g.part a = some e)
    (hp : s.checkPage g.part t.arch.sup k e.trans a = .ok l) :
    s.reachLen r a size len k sc p = if s.scopeOk l sc p then .ok l else .fault (faultAt .scope 0 k false) := by
  simp [State.reachLen, ht, hg, ha, hr, hc, he, hp]

end canonical

end access

/-- Settles O21: the first check of R159 that fails decides. -/
theorem accessChecks : Obligations.AccessChecks := by
  unfold Obligations.AccessChecks
  intro s r t g a size k sc p ht hg at' scr
  refine ⟨State.reachLen_of_unaligned ht hg, fun ha hr => ⟨fun hk => ?_, fun x hsaved hk => ⟨fun hm => ?_, fun hm => ?_⟩⟩,
    fun ha hr => ⟨State.reachLen_of_notCanonical ht hg ha hr, State.reachLen_of_tlbMiss ht hg ha hr, fun e hc he => ⟨fun hp => ?_,
      fun l hl => ⟨fun h => ?_, fun h => ?_⟩⟩⟩⟩
  · exact State.reachLen_of_scratch_error ht hg ha hr (State.scratchAt_of_none hk)
  · exact State.reachLen_of_scratch_ok ht hg ha hr ((State.scratchAt_of_some hsaved hk).trans (if_pos hm))
  · exact State.reachLen_of_scratch_error ht hg ha hr ((State.scratchAt_of_some hsaved hk).trans (if_neg (by rw [hm]; nofun)))
  · exact State.reachLen_of_page_error ht hg ha hr hc he (State.checkPage_of_not_grants hp)
  · exact (State.reachLen_of_page_ok ht hg ha hr hc he hl).trans (if_pos h)
  · exact (State.reachLen_of_page_ok ht hg ha hr hc he hl).trans (if_neg (by rw [h]; nofun))

end Sys2Proof.Machine
end

section
/-! PROOFS. Loads through generic addresses (08_memory.md R160, R161, R163). -/

namespace Sys2Proof.Machine

variable {s : State} {r : TRef} {t : Thread} {g : Wg}

/-- The kind of read a load through the address a is: a promoting acquire of scratchpad is one at DV scope (R163). -/
def ReadKind.at (k : ReadKind) (a : DWord) : ReadKind := if k = .promote ∧ inScratchRange a = true then .acquire .dv else k

section gen

variable {ds : List Dest} {b size : Nat} {off : Int} {k : ReadKind} {sc : Option Scope}
  (hw : s.mustWait r t = false) (h : Accessing s r t g [b, b + 1] (ds.map (·.reg)) .loads)
include hw h

theorem loadGen_eq : let a := genAddr t.arch b off size
    loadGen ds b off size k sc s = .next (s.withReach r t a .load (s.reach r a size .load sc (k.at a == .promote)) fun l =>
      (s.issueLoad r l size (k.at a) ds none a).pass r 4) := by
  have hk (a : DWord) : (if inScratchRange a && k == .promote then ReadKind.acquire .dv else k) = k.at a := by
    simp [ReadKind.at, and_comm]
  rw [loadGen, State.lane_of_accessing (u := { reads := [b, b + 1], writes := ds.map (·.reg), cls := .loads }) h rfl rfl nofun rfl rfl]
  simp only [hw, hk, Bool.false_eq_true, if_false]

/-- A load through a generic address is on its way, is asked for, or has its address's fault or walk. -/
theorem loadGen_outcomes :
    let a := genAddr t.arch b off size
    let at' := s.reach r a size .load sc (k.at a == .promote)
    (∀ x, at' = .ok (.key x) → loadGen ds b off size k sc s = .next (loading s r t
      { id := s.nextId, who := r, seq := t.seq, core := s.coreOf r, loc := .key x, len := size, kind := k.at a, dests := ds,
        fwd := s.ownBytes r (.key x) size, value := none, addr := a, remote := none, order := t.run.scFenced,
        after := s.popsOf r })) ∧
    (∀ m pa, at' = .ok (.remote m pa) →
      loadGen ds b off size k sc s = .next ((s.issueLoad r (.remote m pa) size (k.at a) ds none a).pass r 4)) ∧
    (∀ f, at' = .fault f → loadGen ds b off size k sc s = .next (s.takeFault r f t.run.count)) ∧
    (at' = .miss → loadGen ds b off size k sc s = .next (s.startWalk r a .load)) := by
  refine ⟨fun x hx => ?_, fun m pa hx => ?_, fun f hx => ?_, fun hx => ?_⟩ <;> rw [loadGen_eq hw h, hx, State.withReach]
  rw [State.issueLoad_key h.thread]
  rfl

end gen

section ldt

variable {d b a z : Nat}

/-- The registers that ldt writes, each with its word (R161). -/
def ldtDests (d : Nat) (tag : Half) (n : Nat) : List Dest :=
  (List.range n).map fun i => { reg := d + i, tag := tag, off := 4 * i, len := 4 }

variable (hw : s.mustWait r t = false)
  (h : Accessing s r t g [b, b + 1, a] ((List.range (ldtCount z)).map fun i => d + i) .loads)
include hw h

theorem execLdt_eq : let n := ldtCount z
    let tag : Half := (t.arch.reg a).bits.setWidth 16
    let x := t.arch.pair b
    execLdt d b a z s = .next (if validTag tag.toNat = false then faulted s r t .tag
      else if s.onePage r x n = false then s.takeFault r (faultAt .align x .load false) t.run.count
      else s.withReach r t x .load (s.reachLen r x 4 (4 * n) .load none false) fun l =>
        (s.issueLoad r l (4 * n) .plain (ldtDests d tag n) none x).pass r 4) := by
  rw [execLdt, State.lane_of_accessing (u := { reads := [b, b + 1, a], writes := _, cls := .loads }) h rfl rfl nofun rfl rfl]
  simp only [hw, Bool.false_eq_true, if_false, Bool.not_eq_true']
  rfl

/-- ldt faults at its tag, then at its page, and else is a load as any other. -/
theorem execLdt_outcomes :
    let n := ldtCount z
    let tag : Half := (t.arch.reg a).bits.setWidth 16
    let x := t.arch.pair b
    let at' := s.reachLen r x 4 (4 * n) .load none false
    (validTag tag.toNat = false → execLdt d b a z s = .next (faulted s r t .tag)) ∧
    (validTag tag.toNat = true →
      (s.onePage r x n = false → execLdt d b a z s = .next (s.takeFault r (faultAt .align x .load false) t.run.count)) ∧
      (s.onePage r x n = true →
        (∀ k, at' = .ok (.key k) → execLdt d b a z s = .next (loading s r t
          { id := s.nextId, who := r, seq := t.seq, core := s.coreOf r, loc := .key k, len := 4 * n, kind := .plain,
            dests := ldtDests d tag n, fwd := s.ownBytes r (.key k) (4 * n), value := none, addr := x, remote := none,
            order := t.run.scFenced, after := s.popsOf r })) ∧
        (∀ m pa, at' = .ok (.remote m pa) → execLdt d b a z s =
          .next ((s.issueLoad r (.remote m pa) (4 * n) .plain (ldtDests d tag n) none x).pass r 4)) ∧
        (∀ f, at' = .fault f → execLdt d b a z s = .next (s.takeFault r f t.run.count)) ∧
        (at' = .miss → execLdt d b a z s = .next (s.startWalk r x .load)))) := by
  intro n tag x at'
  have hexec : execLdt d b a z s = _ := execLdt_eq hw h
  refine ⟨fun hv => hexec.trans (congrArg _ (if_pos hv)), fun hv => ?_⟩
  replace hexec := hexec.trans (congrArg _ (if_neg (by rw [hv]; nofun)))
  refine ⟨fun hp => hexec.trans (congrArg _ (if_pos hp)), fun hp => ?_⟩
  replace hexec := hexec.trans (congrArg _ (if_neg (by rw [hp]; nofun)))
  refine ⟨fun k hk => ?_, fun m pa hk => ?_, fun f hk => ?_, fun hk => ?_⟩ <;>
    rw [hexec, show s.reachLen r (t.arch.pair b) 4 (4 * ldtCount z) .load none false = _ from hk, State.withReach]
  rw [State.issueLoad_key h.thread]
  rfl

end ldt

/-- Settles O22: every form but ldt is a load through its generic address; ldt first checks its tag and its page. -/
theorem globalLoads : Obligations.GlobalLoads := by
  unfold Obligations.GlobalLoads
  constructor
  · intro s r t g d b off sc hw one
    have hone (i : Instr) (ds : List Dest) (size : Nat) (k : ReadKind) (sc : Option Scope)
        (hi : exec i s = loadGen ds b off size k sc s) : one i ds size k sc := by
      intro h
      rw [hi]
      exact loadGen_outcomes hw h
    exact ⟨hone _ _ _ _ _ rfl, hone _ _ _ _ _ rfl, hone _ _ _ _ _ rfl, hone _ _ _ _ _ rfl, hone _ _ _ _ _ rfl, hone _ _ _ _ _ rfl,
      hone _ _ _ _ _ rfl, hone _ _ _ _ _ rfl, hone _ _ _ _ _ rfl, hone _ _ _ _ _ rfl, hone _ _ _ _ _ rfl, hone _ _ _ _ _ rfl,
      hone _ _ _ _ _ rfl⟩
  · intro s r t g d b a z hw n h
    exact execLdt_outcomes hw h

end Sys2Proof.Machine
end

section
/-! PROOFS. Reads that are made before an SC fence of their own run (08_memory.md R145), and loads and bit tests of the scratchpad
(R155, R162). -/

namespace Sys2Proof.Machine

variable {s : State} {r : TRef} {t : Thread} {g : Wg}

/-! ### A read after an SC fence of its own run -/

/-- The state in which a read of the present run of a thread is made: one after an SC fence of its own is noted as such (R145). -/
def State.early (s : State) (r : TRef) (t : Thread) : State := if t.run.scFenced then s.readEarly r t else s

/-- Noting an early read changes nothing else. -/
theorem State.early_eq (s : State) (r : TRef) (t : Thread) : ∃ sc, s.early r t = { s with scReads := sc } := by
  unfold State.early
  split
  · unfold State.readEarly
    split
    · exact ⟨s.scReads, rfl⟩
    · exact ⟨_, rfl⟩
  · exact ⟨s.scReads, rfl⟩

theorem State.orderedRead_of_may (h : t.run.scFenced = true → s.earlyMay r t = true) (f : State → State) :
    s.orderedRead r t f = f (s.early r t) := by
  unfold State.orderedRead State.early
  cases hf : t.run.scFenced
  · rfl
  · simp [h hf]

theorem State.orderedRead_of_late (hf : t.run.scFenced = true) (h : s.earlyMay r t = false) (f : State → State) :
    s.orderedRead r t f = s.stallRun r t := by
  simp [State.orderedRead, hf, h]

/-! ### Loads issued -/

/-- A load of this module's memory issued: it is on its way and counts (R117). -/
theorem State.issueLoad_of_key (h : s.thread r = some t) (k len : Nat) (kind : ReadKind) (ds : List Dest) (v : Option (List Byte))
    (a : DWord) : s.issueLoad r (.key k) len kind ds v a = ({ s with
      nextId := s.nextId + 1
      loads := s.loads ++ [{ id := s.nextId, who := r, seq := t.seq, core := s.coreOf r, loc := .key k, len := len, kind := kind,
                             dests := ds, fwd := s.ownBytes r (.key k) len, value := v, addr := a, remote := none
                             order := v.isNone && t.run.scFenced, after := if v.isNone then s.popsOf r else [] }] } : State).setThread r
      { t with loads := t.loads + 1, busy := ds.map (·.reg) ++ t.busy, acq := if kind = .plain then t.acq else s.nextId :: t.acq } := by
  have ht : alook r.key s.threads = some t := h
  simp [State.issueLoad, State.takeId, State.thread, ht, State.sendLoad, State.modThread, State.setThread]
  exact ⟨rfl, rfl, rfl⟩

/-- A word claimed by the present run of a thread that has just changed. -/
theorem State.claimWord_setThread (s : State) (r : TRef) (t : Thread) (k : Nat) : (s.setThread r t).claimWord r k =
    ({ s with claims := s.claims ++ [(wordKey k, r)] } : State).setThread r
      { t with run := { t.run with claims := t.run.claims ++ [wordKey k] } } :=
  State.modThread_setThread { s with claims := s.claims ++ [(wordKey k, r)] } r t _

/-- The load that a bit test of the scratchpad word k becomes: it has its value, unless the word is uncorrectable (R141, R155). -/
def State.bitLoad (s : State) (r : TRef) (t : Thread) (k d : Nat) (a : DWord) : PLoad :=
  let v := if s.wordBad r (.key k) (s.coreOf r) false then none else some (s.bankWord r (.key k) (s.coreOf r))
  { id := s.nextId, who := r, seq := t.seq, core := s.coreOf r, loc := .key k, len := 4, kind := .plain,
    dests := dest1 d tagN32 4 false, fwd := s.ownBytes r (.key k) 4, value := v, addr := a, remote := none
    order := v.isNone && t.run.scFenced, after := if v.isNone then s.popsOf r else [] }

/-- Nothing but its full/empty bit holds back a bit test of a word: no claim, no command and no pop (R147, R155, R192). -/
def State.bitFree (s : State) (r : TRef) (t : Thread) (k : Nat) : Bool :=
  !(s.claimed k (some r)) && !(s.cmdAt r t.seq (.key k) 4) && (s.popsOf r).isEmpty

section scr

variable {d a : Nat} {off : Int} (hw : s.mustWait r t = false)
include hw

/-- A plain load of a scratchpad address is on its way, or has its address's fault. -/
theorem loadScr_outcomes {ds : List Dest} {size : Nat} (h : Accessing s r t g [a] (ds.map (·.reg)) .loads) :
    let w := scrAddr t.arch a off
    (∀ k, s.reachScratch r w size .load = .ok (.key k) → loadScr ds a off size s = .next (loading s r t
      { id := s.nextId, who := r, seq := t.seq, core := s.coreOf r, loc := .key k, len := size, kind := .plain, dests := ds,
        fwd := s.ownBytes r (.key k) size, value := none, addr := w.setWidth 64, remote := none, order := t.run.scFenced,
        after := s.popsOf r })) ∧
    (∀ f, s.reachScratch r w size .load = .fault f → loadScr ds a off size s = .next (s.takeFault r f t.run.count)) := by
  have heq : loadScr ds a off size s = .next (s.withReach r t ((scrAddr t.arch a off).setWidth 64) .load
      (s.reachScratch r (scrAddr t.arch a off) size .load) fun l =>
        (s.issueLoad r l size .plain ds none ((scrAddr t.arch a off).setWidth 64)).pass r 4) := by
    rw [loadScr, State.lane_of_accessing (u := { reads := [a], writes := ds.map (·.reg), cls := .loads }) h rfl rfl nofun rfl rfl]
    simp only [hw, Bool.false_eq_true, if_false]
  refine ⟨fun k hk => ?_, fun f hf => ?_⟩
  · rw [heq, hk, State.withReach, State.issueLoad_key h.thread]
    rfl
  · rw [heq, hf, State.withReach]

section bit

variable {kind : WaiterKind} {claim : Bool} (h : Accessing s r t g [a] [d] .loads)
include h

theorem loadBit_of_fault {f : FaultInfo} (hf : s.reachScratch r (scrAddr t.arch a off) 4 .load = .fault f) :
    loadBit d a off kind claim s = .next (s.takeFault r f t.run.count) := by
  rw [loadBit, State.lane_of_accessing (u := { reads := [a], writes := [d], cls := .loads }) h rfl rfl nofun rfl rfl]
  simp only [hw, hf, State.withReach, Bool.false_eq_true, if_false]

variable {k : Nat} (hk : s.reachScratch r (scrAddr t.arch a off) 4 .load = .ok (.key k))
include hk

theorem loadBit_of_late (hf : t.run.scFenced = true) (hl : s.earlyMay r t = false) :
    loadBit d a off kind claim s = .next (s.stallRun r t) := by
  rw [loadBit, State.lane_of_accessing (u := { reads := [a], writes := [d], cls := .loads }) h rfl rfl nofun rfl rfl]
  simp only [hw, hk, State.withReach, State.orderedRead_of_late hf hl, Bool.false_eq_true, if_false]

variable (hmay : t.run.scFenced = true → s.earlyMay r t = true)
include hmay

/-- A bit test that may be made looks at its word in the state in which its thread has noted that it reads early. -/
theorem loadBit_of_may (z : State) (hz : s.early r t = z) :
    loadBit d a off kind claim s = .next (if z.bitFree r t k && (kind == .ldsSe || z.isFull k) then
        let y := z.issueLoad r (.key k) 4 .plain (dest1 d tagN32 4 false) (z.bitLoad r t k d 0).value ((scrAddr t.arch a off).setWidth 64)
        (if claim then y.claimWord r k else y).pass r 4
      else if z.monitorRoom (z.coreOf r) 1 then z.parkWord r (.key k) kind d ((scrAddr t.arch a off).setWidth 64)
      else z.stallRun r t) := by
  rw [loadBit, State.lane_of_accessing (u := { reads := [a], writes := [d], cls := .loads }) h rfl rfl nofun rfl rfl]
  simp only [hw, hk, State.withReach, State.orderedRead_of_may hmay, hz, Bool.false_eq_true, if_false]
  have hfree : (!z.claimed k (some r) && (kind == .ldsSe || z.isFull k) && !z.cmdAt r t.seq (.key k) 4 && (z.popsOf r).isEmpty) =
      (z.bitFree r t k && (kind == .ldsSe || z.isFull k)) := by
    simp only [State.bitFree, Bool.and_assoc, Bool.and_left_comm, Bool.and_comm]
  rw [hfree]
  rfl

/-- A bit test whose word is free and, for the kinds that ask for it, full is a load that has its value. -/
theorem loadBit_of_free (hfree : s.bitFree r t k = true) (hfull : (kind == .ldsSe || s.isFull k) = true) :
    loadBit d a off kind false s = .next (loading (s.early r t) r t (s.bitLoad r t k d ((scrAddr t.arch a off).setWidth 64))) := by
  obtain ⟨sc, hz⟩ := s.early_eq r t
  rw [loadBit_of_may hw h hk hmay _ hz, if_pos (by rw [Bool.and_eq_true]; exact ⟨hfree, hfull⟩), hz]
  simp only [Bool.false_eq_true, if_false]
  rw [State.issueLoad_key (s := { s with scReads := sc }) h.thread]
  rfl

/-- One that claims its word has claimed it as well. -/
theorem loadBit_of_free_claim (hfree : s.bitFree r t k = true) (hfull : (kind == .ldsSe || s.isFull k) = true) :
    loadBit d a off kind true s = .next { loading (s.early r t) r { t with run := { t.run with claims := t.run.claims ++ [wordKey k] } }
      (s.bitLoad r t k d ((scrAddr t.arch a off).setWidth 64)) with claims := s.claims ++ [(wordKey k, r)] } := by
  obtain ⟨sc, hz⟩ := s.early_eq r t
  rw [loadBit_of_may hw h hk hmay _ hz, if_pos (by rw [Bool.and_eq_true]; exact ⟨hfree, hfull⟩), hz]
  simp only [if_true]
  rw [State.issueLoad_of_key (s := { s with scReads := sc }) h.thread]
  rw [State.claimWord_setThread, State.pass, State.modThread_setThread]
  rfl

/-- One whose word is not free, or is empty where its kind asks for a full one, parks where the wait table has room and stalls else. -/
theorem loadBit_of_blocked (hb : (s.bitFree r t k && (kind == .ldsSe || s.isFull k)) = false) :
    (s.monitorRoom (s.coreOf r) 1 = true →
      loadBit d a off kind claim s = .next ((s.early r t).parkWord r (.key k) kind d ((scrAddr t.arch a off).setWidth 64))) ∧
    (s.monitorRoom (s.coreOf r) 1 = false → loadBit d a off kind claim s = .next ((s.early r t).stallRun r t)) := by
  obtain ⟨sc, hz⟩ := s.early_eq r t
  have heq := (loadBit_of_may (kind := kind) (claim := claim) hw h hk hmay _ hz).trans
    (congrArg _ (if_neg fun hx => Bool.noConfusion (hx.symm.trans hb)))
  rw [hz, heq]
  exact ⟨fun hm => congrArg _ (if_pos hm), fun hm => congrArg _ (if_neg fun hx => Bool.noConfusion (hx.symm.trans hm))⟩

end bit

end scr

/-- Settles O23: a plain read is a load; a bit test finds its word free, or parks or stalls. -/
theorem scratchpadLoads : Obligations.ScratchpadLoads := by
  unfold Obligations.ScratchpadLoads
  intro s r t g d a off hw w va load word plain
  have hplain (i : Instr) (ds : List Dest) (size : Nat) (hi : exec i s = loadScr ds a off size s) : plain i ds size := by
    intro h
    rw [hi]
    exact loadScr_outcomes hw h
  refine ⟨hplain _ _ _ rfl, hplain _ _ _ rfl, hplain _ _ _ rfl, hplain _ _ _ rfl, fun h => ⟨fun f hf => ?_, ?_⟩⟩
  · exact ⟨loadBit_of_fault hw h hf, loadBit_of_fault hw h hf, loadBit_of_fault hw h hf⟩
  · intro k hk z free room x claim keep
    refine ⟨fun hf hl i hi => ?_, fun hmay => ⟨fun hfree hfull => ?_, fun hfree => ?_, fun hb => ?_, fun hfree => ?_⟩⟩
    · simp only [List.mem_cons, List.not_mem_nil, or_false] at hi
      obtain rfl | rfl | rfl := hi
      · exact loadBit_of_late hw h hk hf hl
      · exact loadBit_of_late hw h hk hf hl
      · exact loadBit_of_late hw h hk hf hl
    · exact ⟨loadBit_of_free hw h hk hmay hfree hfull, loadBit_of_free_claim hw h hk hmay hfree hfull⟩
    · exact loadBit_of_free_claim hw h hk hmay hfree rfl
    · have hwf := loadBit_of_blocked (kind := .ldsFull false) (claim := false) hw h hk hmay hb
      have hwfe := loadBit_of_blocked (kind := .ldsFull true) (claim := true) hw h hk hmay hb
      exact ⟨fun hm => ⟨hwf.1 hm, hwfe.1 hm⟩, fun hm => ⟨hwf.2 hm, hwfe.2 hm⟩⟩
    · refine loadBit_of_blocked (kind := .ldsSe) (claim := true) hw h hk hmay ?_
      rw [show s.bitFree r t k = false from hfree]
      rfl

end Sys2Proof.Machine
end

section
/-! PROOFS. CACHE forms that only advise (08_memory.md R166). A line that pref.l2 brings into its home slice moves there from HBM, and
the meter counts its 128 bytes for the partition whose HBM it is (25_system.md R379; log entry 111). -/

namespace Sys2Proof.Machine

/-- A form that only advises does what it does, and the thread goes on. -/
theorem cacheHint_of_ready {s : State} {r : TRef} {t : Thread} {g : Wg} {b : Nat} {off : Int} {f : TRef → Thread → DWord → State → State}
    (hacc : r.acc = false) (h : Ready s r t g [b, b + 1] []) :
    cacheHint b off f s = .next ((f r t (lineAddr t.arch b off) s).pass r 4) :=
  State.lane_of_ready (u := { reads := [b, b + 1] }) h (by simp [Use.allowed, hacc]) nofun (by simp) rfl rfl rfl

/-- A state with one issuing thread, whose registers all hold 0, in a partition that has the first 64 KiB of HBM, and in them a page
table at 0x1000 that maps address 0 to byte 0 of HBM. No home slice holds a line. -/
def prefetching : State :=
  { State.reset with
    threads := [(0, fetchThread false .running)], wgs := [(0, fetchWg)], cur := some { wg := 0, tid := 0 }
    parts := [(0, { fetchPart State.reset with cregs := [(0x10, 0x1000)] })]
    mem := [(0x1000, 1), (0x1001, 0x20), (0x2000, 1), (0x2001, 0x30), (0x3000, 0x1F)] }

theorem prefetching_ready : Ready prefetching { wg := 0, tid := 0 } (fetchThread false .running) fetchWg [4, 4 + 1] [] where
  cur := rfl
  thread := rfl
  wg := rfl
  noCommit := rfl
  noLoop := rfl
  guard := nofun
  bound := by decide
  free := by decide
  clean := by decide

/-- The line of address 0 comes from HBM, and partition 0 has moved 128 bytes. -/
theorem prefetching_hbmMoved :
    (prefetching.prefetchL2 { wg := 0, tid := 0 } (fetchThread false .running) (lineAddr fetchArch 4 0)).hbmMoved = [(0, 128)] := by
  decide

/-- Refutes O25 at its clause on pref.l2, that of the state only the lines of the home slices change (s' = { s with l2 := s'.l2 }):
the state prefetching issues a pref.l2 of address 0, and the meter's count of moved bytes changes too. -/
theorem not_fencesAndWaits : ¬ Obligations.FencesAndWaits := by
  unfold Obligations.FencesAndWaits
  rintro ⟨h, -⟩
  obtain ⟨-, hhint, -⟩ := h prefetching { wg := 0, tid := 0 } (fetchThread false .running) fetchWg 4 0 .wg
  obtain ⟨-, ⟨s', hexec, honly, -⟩, -⟩ := hhint rfl prefetching_ready
  have hgo := (cacheHint_of_ready (f := fun r t a s => s.prefetchL2 r t a) (off := 0) rfl prefetching_ready).symm.trans hexec
  have hmoved := congrArg State.hbmMoved (Host.Outcome.next.inj hgo)
  rw [State.pass, State.modThread_hbmMoved] at hmoved
  have hsame : s'.hbmMoved = [] := congrArg State.hbmMoved honly
  exact List.cons_ne_nil _ _ (prefetching_hbmMoved.symm.trans (hmoved.trans hsame))

end Sys2Proof.Machine
end

section
/-! PROOFS. Atomics on scratchpad words (08_memory.md R141, R148, R164). An atomic meets uncorrectable data where it reads a marked
codeword at its home, and its bytes are the scratchpad's by the first of them. -/

namespace Sys2Proof.Machine

/-- The last byte of the module's scratchpads. -/
def lastScratch : Nat := 2 ^ 61 + 192 * 2 ^ 19 - 1

theorem isScratch_lastScratch : isScratch lastScratch = true := by decide

/-- A swap of the word that begins there. -/
def edgeSwap : Cmd := { op := .atom .swap .wg, d := 3, words := [1], loc := some (.key lastScratch) }

/-- The run that holds it. -/
def edgeRun : HeldRun :=
  { id := 0, who := { wg := 0, tid := 0 }, seq := 0, core := 0, snap := fetchArch, rel := 0, cmd := some edgeSwap, mates := [],
    met := 0, acc := none }

/-- A state in which the codeword after the last byte of the scratchpads is marked, and core 0 holds its first bytes in its L1. -/
def edgeState : State :=
  { State.reset with
    threads := [(0, fetchThread false .running)]
    l1 := (List.range 3).map fun i => (l1Key 0 (lastScratch + 1 + i), { val := 0, dirty := false, rel := 0, due := 0 })
    poisoned := [lastScratch + 1] }

theorem edgeState_poisoned : edgeState.isPoisoned (lastScratch + 1) = true := by decide

/-- The swap does not see the mark and writes its word. -/
theorem edgeSwap_writes : (edgeState.actAtom edgeRun edgeSwap .swap .wg).mem = [(lastScratch, 1)] := by decide

/-- Refutes O35 at its clause on uncorrectable scratchpad words, that memory stays as it is where one of the bytes from k on is marked:
k need not be aligned there, and the word of edgeSwap ends past the scratchpads, where the core's L1 has the marked bytes. -/
theorem not_atomicsAct : ¬ Obligations.AtomicsAct := by
  unfold Obligations.AtomicsAct
  intro h
  have hloc : edgeSwap.loc = some (.key lastScratch) := rfl
  have ht : edgeState.thread { wg := 0, tid := 0 } = some (fetchThread false .running) := rfl
  have hs : ∀ q ∈ edgeState.stores, q.monitor = false := fun _ hq => (List.not_mem_nil hq).elim
  obtain ⟨hscratch, -⟩ := h edgeState edgeRun edgeSwap .wg (fetchThread false .running) lastScratch hloc ht rfl rfl rfl hs
    Memory.wf_nil .swap
  obtain ⟨hbad, -⟩ := hscratch isScratch_lastScratch
  have hmarked : ¬∀ i, i < 4 → edgeState.isPoisoned (lastScratch + i) = false := fun hc =>
    Bool.false_ne_true ((hc 1 (by decide)).symm.trans edgeState_poisoned)
  obtain ⟨hmem, -⟩ := hbad hmarked
  rw [edgeSwap_writes] at hmem
  exact List.cons_ne_nil _ _ hmem

end Sys2Proof.Machine
end

section
/-! PROOFS. Taking a fault and returning from one (21_faults.md R304 to R306, R312, R313). -/

namespace Sys2Proof.Machine

variable {s : State} {r : TRef} {t : Thread} {g : Wg}

/-! ### Maps -/

theorem alook_of_mem {α : Type} {l : List (Nat × α)} (hs : asorted l) {x : Nat × α} (hx : x ∈ l) : alook x.1 l = some x.2 := by
  induction l with
  | nil => simp at hx
  | cons c l ih =>
    obtain ⟨hlt, hrest⟩ := List.pairwise_cons.1 hs
    obtain rfl | hx := List.mem_cons.1 hx
    · simp [alook]
    · have h := hlt x hx
      rw [alook, if_neg (by omega), if_neg (by omega)]
      exact ih hrest hx

/-- A filter that keeps the entries at a key does not change what is found there. -/
theorem alook_filter {α : Type} {l : List (Nat × α)} (hs : asorted l) {p : Nat × α → Bool} {k : Nat} (hp : ∀ v, p (k, v) = true) :
    alook k (l.filter p) = alook k l := by
  have hs' : asorted (l.filter p) := hs.filter p
  cases h : alook k l with
  | some v => exact alook_of_mem hs' (x := (k, v)) (List.mem_filter.2 ⟨mem_of_alook h, hp v⟩)
  | none =>
    cases h' : alook k (l.filter p) with
    | none => rfl
    | some v =>
      have := alook_of_mem hs (List.mem_of_mem_filter (mem_of_alook h'))
      rw [h] at this
      cases this

/-! ### A discarded run (R118) -/

/-- What a discarded run changes: its thread, and what that had on its way. -/
theorem State.discardRun_eq (ht : s.thread r = some t) : ∃ u sc ld ws wk fb cl, s.discardRun r =
      ({ s with scReads := sc, loads := ld, waiters := ws, walks := wk, fab := fb, claims := cl } : State).setThread r u ∧
    u.arch = t.run.snap ∧ u.run = Run.start t.run.snap ∧ u.status = t.status ∧ u.seq = t.seq := by
  unfold State.discardRun
  rw [ht]
  dsimp only [State.dropClaims, State.setThread]
  refine ⟨_, _, _, _, _, _, _, rfl, ?_⟩
  exact ⟨rfl, rfl, rfl, rfl⟩

theorem State.discardRun_of_none (ht : s.thread r = none) : s.discardRun r = s := by
  unfold State.discardRun
  rw [ht]

/-! ### The handler (R304) -/

/-- The register state that a handler finds has registers of its own, and is otherwise as it was. -/
theorem Arch.handlerRegs_eq (a : Arch) (f : FaultInfo) (pc : DWord) (n : Nat) : ∃ rf, a.handlerRegs f pc n = { a with regs := rf } := by
  have put (b : Arch) (i : Nat) (v : RegVal) (hb : ∃ rf, b = { a with regs := rf }) :
      ∃ rf, (if i < n then b.setReg i v else b) = { a with regs := rf } := by
    obtain ⟨rf, rfl⟩ := hb
    split
    · exact ⟨_, rfl⟩
    · exact ⟨rf, rfl⟩
  exact put _ 6 _ (put _ 9 _ (put _ 8 _ (put _ 5 _ (put _ 4 _ (put _ 0 _ ⟨a.regs, rfl⟩)))))

theorem pair64_split64 (v : DWord) : pair64 (split64 v).1 (split64 v).2 = v := by
  have h := Arch.pair_setPair fetchArch 0 v
  rwa [Arch.pair, Arch.setPair, Arch.reg_setReg, Arch.reg_setReg_of_ne _ _ (by decide), Arch.reg_setReg] at h

/-- A handler with ten registers or more finds the cause, the PC, the address and the detail. -/
theorem Arch.handlerRegs_read (a : Arch) (f : FaultInfo) (pc : DWord) {n : Nat} (hn : 10 ≤ n) :
    (a.handlerRegs f pc n).reg 0 = regN32 f.cause ∧ (a.handlerRegs f pc n).pair 4 = pc ∧ (a.handlerRegs f pc n).pair 8 = f.addr ∧
    (a.handlerRegs f pc n).reg 6 = regN32 f.info := by
  have h0 : 0 < n := by omega
  have h4 : 4 < n := by omega
  have h5 : 5 < n := by omega
  have h6 : 6 < n := by omega
  have h8 : 8 < n := by omega
  have h9 : 9 < n := by omega
  simp [Arch.handlerRegs, h0, h4, h5, h6, h8, h9, Arch.pair, Arch.reg_setReg_of_ne, pair64_split64]

/-- The register state with which a handler is entered on the frame fr; n numbers its undefined registers. -/
def Arch.entered (a : Arch) (f : FaultInfo) (fr : Frame) (tvec : DWord) (allot n : Nat) : Arch :=
  ({ a with depth := 1, sup := true, frame := some fr, pc := tvec, xcount := 0, alone := 0, lpad := none, regs := a.regs.newRun n } : Arch).handlerRegs
    f fr.pc allot

theorem Arch.entered_eq (a : Arch) (f : FaultInfo) (fr : Frame) (tvec : DWord) (allot n : Nat) : ∃ rf,
    a.entered f fr tvec allot n = { a with
      depth := 1, sup := true, frame := some fr, pc := tvec, xcount := 0, alone := 0, lpad := none, regs := rf } :=
  Arch.handlerRegs_eq ..

/-- The thread that has entered it, before it is ready. -/
def Thread.entered (t : Thread) (f : FaultInfo) (fr : Frame) (tvec : DWord) (allot n : Nat) : Thread :=
  let a := t.arch.entered f fr tvec allot n
  { t with arch := a, run := Run.start a, deferred := none, defSeq := none, stop := none, busy := t.busy.filter fun x => !isHandlerReg x }

theorem State.enterHandler_eq (ht : s.thread r = some t) (hg : s.wg r.wg = some g) (f : FaultInfo) (fr : Frame) :
    s.enterHandler r f fr = ((({ s with fresh := s.fresh + 256 } : State).setThread r
      (t.entered f fr (s.part g.part).tvec g.allot s.fresh)).dropFromQuad r).makeReady r 0 := by
  have hallot : ((s.wg r.wg).map (·.allot)).getD 0 = g.allot := by rw [hg]; rfl
  have hpart : s.partOf r = g.part := by rw [State.partOf, hg]; rfl
  have hset := State.modThread_of_some (s := { s with fresh := s.fresh + 256 }) ht fun t =>
    t.entered f fr (s.part (s.partOf r)).tvec (((s.wg r.wg).map (·.allot)).getD 0) s.fresh
  rw [← hallot, ← hpart, ← hset]
  rfl

/-- The thread that enters a handler is ready there under key 0. -/
theorem State.thread_enterHandler (ht : s.thread r = some t) (hg : s.wg r.wg = some g) (f : FaultInfo) (fr : Frame) :
    (s.enterHandler r f fr).thread r = some { t.entered f fr (s.part g.part).tvec g.allot s.fresh with
      status := .ready (s.readyTime r) 0 } := by
  rw [State.enterHandler_eq ht hg]
  generalize t.entered f fr (s.part g.part).tvec g.allot s.fresh = u
  have hu := State.thread_dropFromQuad (({ s with fresh := s.fresh + 256 } : State).setThread r u) r r
  rw [State.thread_setThread] at hu
  rw [State.thread_makeReady_self hu]
  obtain ⟨qs, hq⟩ := State.dropFromQuad_eq (({ s with fresh := s.fresh + 256 } : State).setThread r u) r
  rw [hq]
  rfl

/-- Entering a handler changes nothing but its thread, quadrants and the number of free values. -/
theorem State.enterHandler_frame (ht : s.thread r = some t) (hg : s.wg r.wg = some g) (f : FaultInfo) (fr : Frame) :
    (s.enterHandler r f fr).mem = s.mem ∧ ∀ x : TRef, x.key ≠ r.key → (s.enterHandler r f fr).thread x = s.thread x := by
  rw [State.enterHandler_eq ht hg]
  refine ⟨?_, fun x hx => ?_⟩
  · rw [State.makeReady_mem, State.dropFromQuad_mem]
    rfl
  · rw [State.thread_makeReady_of_ne _ _ hx, State.thread_dropFromQuad, State.thread_setThread_of_ne _ _ hx]
    rfl

/-! ### A fault taken (R304 to R306) -/

section taken

variable (ht : s.thread r = some t) (hacc : r.acc = false) {f : FaultInfo} (hcode : f.code ≠ .pmemgrow)
  (hspoiled : s.spoiled r t.seq = false) (foff : Nat)
include ht hacc hcode hspoiled

/-- At depth 0 the run is discarded and the handler entered on the frame of its start. -/
theorem State.takeFault_of_depth_zero (hd : t.arch.depth = 0) : ∃ z u : _, s.discardRun r = z ∧ z.thread r = some u ∧
    u.arch = t.run.snap ∧ s.takeFault r f foff = z.enterHandler r f (t.run.snap.toFrame (some f) foff t.arch.xsave u.seq) := by
  obtain ⟨u, sc, ld, ws, wk, fb, cl, hz, harch, -⟩ := State.discardRun_eq ht
  have hu : (s.discardRun r).thread r = some u := by rw [hz, State.thread_setThread]
  refine ⟨_, u, rfl, hu, harch, ?_⟩
  simp only [State.takeFault, ht, hspoiled, hcode, hacc, hd, hu, harch, Bool.false_eq_true, if_false, if_true]

/-- In a handler the workgroup is killed, and the meter's event log says so (R306). -/
theorem State.takeFault_of_depth (hg : s.wg r.wg = some g) (hd : t.arch.depth ≠ 0) : ∃ data,
    s.takeFault r f foff = ((s.discardRun r).killWg r.wg).meterEvent 2 g.part data := by
  obtain ⟨u, sc, ld, ws, wk, fb, cl, hz, -⟩ := State.discardRun_eq ht
  have hpart : (s.discardRun r).partOf r = g.part := by
    rw [hz]
    exact congrArg (fun x => (Option.map (·.part) x).getD 0) hg
  simp only [State.takeFault, ht, hspoiled, hcode, hacc, hd, hpart, Bool.false_eq_true, if_false]
  exact ⟨_, rfl⟩

end taken

theorem State.takeFault_of_spoiled (ht : s.thread r = some t) (h : s.spoiled r t.seq = true) (f : FaultInfo) (foff : Nat) :
    s.takeFault r f foff = s.redoRun r := by
  simp [State.takeFault, ht, h]

/-! ### A workgroup killed (R306) -/

/-- No thread is new, and one that has exited stays so. -/
structure State.Dying (s z : State) : Prop where
  sorted : asorted s.threads → asorted z.threads
  exited : ∀ k u, alook k z.threads = some u → ∃ t, alook k s.threads = some t ∧ (t.status = .exited → u.status = .exited)
  launches : z.launches = s.launches
  wgs : z.wgs = s.wgs

theorem State.Dying.refl (s : State) : s.Dying s := ⟨id, fun _ u h => ⟨u, h, id⟩, rfl, rfl⟩

theorem State.Dying.trans {z y : State} (h : s.Dying z) (h' : z.Dying y) : s.Dying y where
  sorted hs := h'.sorted (h.sorted hs)
  exited k u hu := by
    obtain ⟨v, hv, he⟩ := h'.exited k u hu
    obtain ⟨t, ht, he'⟩ := h.exited k v hv
    exact ⟨t, ht, fun hx => he (he' hx)⟩
  launches := h'.launches.trans h.launches
  wgs := h'.wgs.trans h.wgs

/-- One thread changed, that stays exited where it was. -/
theorem State.Dying.of_setThread {z : State} {u : Thread} (ht : s.thread r = some t) (hz : z.threads = aput r.key u s.threads)
    (hu : t.status = .exited → u.status = .exited) (hl : z.launches = s.launches) (hw : z.wgs = s.wgs) : s.Dying z where
  sorted hs := by
    rw [hz]
    exact asorted_aput _ _ hs
  exited k v hv := by
    rw [hz] at hv
    by_cases hk : k = r.key
    · subst hk
      rw [alook_aput_self] at hv
      cases hv
      exact ⟨t, ht, hu⟩
    · rw [alook_aput_of_ne _ _ hk] at hv
      exact ⟨v, hv, id⟩
  launches := hl
  wgs := hw

theorem State.dying_discardRun (s : State) (r : TRef) : s.Dying (s.discardRun r) := by
  cases ht : s.thread r with
  | none => rw [State.discardRun_of_none ht]; exact .refl s
  | some t =>
    obtain ⟨u, sc, ld, ws, wk, fb, cl, hz, -, -, hst, -⟩ := State.discardRun_eq ht
    rw [hz]
    exact .of_setThread ht rfl (fun hx => hst.trans hx) rfl rfl

theorem State.dying_endOne (s : State) (r : TRef) : s.Dying (s.endOne r) := by
  have hrest : (s.endOne r).launches = s.launches ∧ (s.endOne r).wgs = s.wgs := by
    obtain ⟨qs, hq⟩ := s.dropFromQuad_eq r
    rw [State.endOne_eq, hq]
    constructor
    · change (State.modThread _ r Thread.gone).launches = _
      rw [State.modThread_launches]
      rfl
    · change (State.modThread _ r Thread.gone).wgs = _
      rw [State.modThread_wgs]
      rfl
  have hth := s.threads_endOne r
  cases ht : s.thread r with
  | none =>
    rw [State.modThread_of_none ht] at hth
    exact ⟨fun h => by rwa [hth], fun k u hu => ⟨u, hth ▸ hu, id⟩, hrest.1, hrest.2⟩
  | some t =>
    rw [State.modThread_of_some ht] at hth
    exact .of_setThread ht hth (fun _ => rfl) hrest.1 hrest.2

theorem State.dying_endThread (s : State) (r : TRef) : s.Dying (s.endThread r) := by
  unfold State.endThread
  dsimp only
  split
  · exact s.dying_endOne r
  · exact (s.dying_endOne r).trans (State.dying_endOne ..)

/-- A thread that has ended has exited. -/
theorem State.exited_endThread (s : State) (r : TRef) {u : Thread} (hu : (s.endThread r).thread r = some u) : u.status = .exited := by
  have hone : ∀ v, (s.endOne r).thread r = some v → v.status = .exited := fun v hv => by
    rw [State.thread_endOne, State.thread_modThread, Option.map_eq_some_iff] at hv
    obtain ⟨t, -, rfl⟩ := hv
    rfl
  unfold State.endThread at hu
  dsimp only at hu
  split at hu
  · exact hone u hu
  · obtain ⟨v, hv, he⟩ := (State.dying_endOne (s.endOne r) { r with acc := true }).exited r.key u hu
    exact he (hone v hv)

/-- Threads discarded and ended one after another have exited. -/
theorem State.dying_forEach (l : List (TRef × Thread)) (s : State) :
    let z := forEach (fun s x => (s.discardRun x.1).endThread x.1) s l
    s.Dying z ∧ ∀ x ∈ l, ∀ u, z.thread x.1 = some u → u.status = .exited := by
  induction l generalizing s with
  | nil => exact ⟨.refl s, fun _ hx => (List.not_mem_nil hx).elim⟩
  | cons x l ih =>
    obtain ⟨hrest, hall⟩ := ih ((s.discardRun x.1).endThread x.1)
    refine ⟨((s.dying_discardRun x.1).trans (State.dying_endThread ..)).trans hrest, fun y hy u hu => ?_⟩
    obtain rfl | hy := List.mem_cons.1 hy
    · obtain ⟨v, hv, he⟩ := hrest.exited _ _ hu
      exact he (State.exited_endThread _ _ hv)
    · exact hall y hy u hu

theorem TRef.key_ofKey (k : Nat) : (TRef.ofKey k).key = k := by
  unfold TRef.key TRef.ofKey
  by_cases h : k % 2 = 1
  · simp [h]; omega
  · simp [h]; omega

/-- A range of canopy memory that is written advances its write generation, and nothing else. -/
theorem State.stepRange_eq (s : State) (k n : Nat) : ∃ cr, s.stepRange k n = { s with canRanges := cr } := by
  unfold State.stepRange
  split
  · exact ⟨s.canRanges, rfl⟩
  · split <;> exact ⟨_, rfl⟩

theorem State.stepCanopy_eq (s : State) (g : Wg) : ∃ cr, s.stepCanopy g = { s with canRanges := cr } := by
  have hfold (l : List Nat) : ∀ z : State, ∃ cr,
      l.foldl (fun (s : State) c => s.stepRange (g.canKey c 0) (g.canLen / 64)) z = { z with canRanges := cr } := by
    induction l with
    | nil => exact fun z => ⟨z.canRanges, rfl⟩
    | cons c l ih =>
      intro z
      obtain ⟨cr, h⟩ := z.stepRange_eq (g.canKey c 0) (g.canLen / 64)
      obtain ⟨cr', h'⟩ := ih { z with canRanges := cr }
      exact ⟨cr', by rw [List.foldl_cons, h, h']⟩
  unfold State.stepCanopy
  split
  · exact ⟨s.canRanges, rfl⟩
  · exact hfold _ s

theorem State.zeroWg_threads (s : State) (g : Wg) : (s.zeroWg g).threads = s.threads := by
  obtain ⟨cr, h⟩ := s.stepCanopy_eq g
  unfold State.zeroWg
  rw [h]

theorem State.zeroWg_launches (s : State) (g : Wg) : (s.zeroWg g).launches = s.launches := by
  obtain ⟨cr, h⟩ := s.stepCanopy_eq g
  unfold State.zeroWg
  rw [h]

/-- No thread is new or has changed, and every launch is there, killed if it was. -/
structure State.Closes (s z : State) : Prop where
  threads : ∀ x ∈ z.threads, x ∈ s.threads
  launch : ∀ n l, s.launch n = some l → ∃ l', z.launch n = some l' ∧ l'.killed = l.killed

theorem State.Closes.of_eq {z : State} (ht : z.threads = s.threads) (hl : z.launches = s.launches) : s.Closes z :=
  ⟨fun _ hx => ht ▸ hx, fun n l h => ⟨l, by rwa [State.launch, hl], rfl⟩⟩

theorem State.Closes.trans {z y : State} (h : s.Closes z) (h' : z.Closes y) : s.Closes y where
  threads x hx := h.threads x (h'.threads x hx)
  launch n l hl := by
    obtain ⟨l1, h1, he⟩ := h.launch n l hl
    obtain ⟨l2, h2, he'⟩ := h'.launch n l1 h1
    exact ⟨l2, h2, he'.trans he⟩

theorem State.launch_modLaunch {n : Nat} {l : Launch} (h : s.launch n = some l) (f : Launch → Launch) :
    (s.modLaunch n f).launch n = some (f l) := by
  unfold State.modLaunch
  rw [h]
  simp [State.launch]

theorem State.launch_modLaunch_of_ne (s : State) {n m : Nat} (f : Launch → Launch) (h : m ≠ n) :
    (s.modLaunch n f).launch m = s.launch m := by
  unfold State.modLaunch
  split
  · simp [State.launch, alook_aput_of_ne _ _ h]
  · rfl

theorem State.closes_modLaunch (s : State) (n : Nat) {f : Launch → Launch} (hf : ∀ l, (f l).killed = l.killed) :
    s.Closes (s.modLaunch n f) where
  threads x hx := by rwa [State.modLaunch_threads] at hx
  launch m l h := by
    by_cases hm : m = n
    · subst hm
      exact ⟨f l, State.launch_modLaunch h f, hf l⟩
    · exact ⟨l, by rwa [State.launch_modLaunch_of_ne _ _ hm], rfl⟩

theorem State.closes_freeMazes (s : State) (l e : Nat) : s.Closes (s.freeMazes l e) := by
  unfold State.freeMazes
  split <;> exact .of_eq rfl rfl

theorem State.closes_release {y : State} (ht : y.threads = s.threads) (hl : y.launches = s.launches) (w : Nat) :
    s.Closes { y with wgs := adel w y.wgs, threads := y.threads.filter fun x => x.1 / 1024 != w } where
  threads _ hx := ht ▸ List.mem_of_mem_filter hx
  launch n l h := ⟨l, (congrArg (alook n) hl).trans h, rfl⟩

theorem State.closes_settleWg (s : State) (w : Nat) : s.Closes (s.settleWg w) := by
  unfold State.settleWg
  split
  · exact .of_eq rfl rfl
  case h_2 g _ =>
    split
    case isFalse => exact .of_eq rfl rfl
    case isTrue =>
      dsimp only
      generalize hz : (if g.ended = true then s else _) = z
      have hends : s.Closes z := by
        rw [← hz]
        split
        · exact .of_eq rfl rfl
        · refine State.Closes.trans ?_ (State.closes_freeMazes _ g.launch g.ensid)
          refine State.Closes.trans ?_ (State.closes_modLaunch _ g.launch fun l => ?_)
          · exact .of_eq (s.modWg_threads ..) (s.modWg_launches ..)
          · rfl
      split
      · exact hends.trans (State.closes_release (z.zeroWg_threads g) (z.zeroWg_launches g) w)
      · exact hends

theorem State.closes_abortWork (s : State) (w : Nat) : s.Closes (s.abortWork w) :=
  .of_eq (State.modWg_threads ..) (State.modWg_launches ..)

/-- A workgroup that is killed has no thread that has not exited, and its launch is marked. -/
theorem State.killWg_of_wg (hg : s.wg r.wg = some g) (hs : asorted s.threads) :
    (∀ x ∈ (s.killWg r.wg).threads, x.1 / 1024 = r.wg → x.2.status = .exited) ∧
    ∀ l, s.launch g.launch = some l → ∃ l', (s.killWg r.wg).launch g.launch = some l' ∧ l'.killed = true := by
  obtain ⟨hdying, hall⟩ := State.dying_forEach (s.threadsOf r.wg) s
  unfold State.killWg
  rw [hg]
  simp only [Option.map_some, Option.getD_some]
  generalize forEach (fun (s : State) x => (s.discardRun x.1).endThread x.1) s (s.threadsOf r.wg) = z at hdying hall ⊢
  have hclose := (State.closes_abortWork (z.modLaunch g.launch fun x => { x with killed := true }) r.wg).trans
    (State.closes_settleWg _ r.wg)
  refine ⟨fun x hx hw => ?_, fun l hl => ?_⟩
  · have hz := hclose.threads x hx
    rw [State.modLaunch_threads] at hz
    have hlook : alook x.1 z.threads = some x.2 := alook_of_mem (hdying.sorted hs) hz
    obtain ⟨t, ht, -⟩ := hdying.exited _ _ hlook
    have hmem : (TRef.ofKey x.1, t) ∈ s.threadsOf r.wg :=
      List.mem_map.2 ⟨(x.1, t), List.mem_filter.2 ⟨mem_of_alook ht, by simpa using hw⟩, rfl⟩
    refine hall _ hmem x.2 ?_
    rw [State.thread, TRef.key_ofKey]
    exact hlook
  · have hl' : (z.modLaunch g.launch fun x => { x with killed := true }).launch g.launch = some { l with killed := true } :=
      State.launch_modLaunch (by rwa [State.launch, hdying.launches]) _
    obtain ⟨l', h, hk⟩ := hclose.launch _ _ hl'
    exact ⟨l', h, hk⟩

/-! ### The return (R312, R313) -/

/-- The register state that a thread has after the return on the frame f; n numbers its undefined run temporaries. -/
def Arch.returned (a : Arch) (f : Frame) (n : Nat) : Arch :=
  { pc := f.pc, regs := f.regs.newRun n, preds := f.preds, ix := f.ix, fflags := f.fflags, rm := f.rm, rstack := f.rstack, xcount := 0,
    alone := f.xcount, sup := f.sup, depth := 0, frame := some f, lpad := f.lpad, skips := a.skips }

theorem State.returnFromTrap_eq (ht : s.thread r = some t) {f : Frame} (hf : t.arch.frame = some f) :
    s.returnFromTrap r = (({ s with fresh := s.fresh + 256 } : State).setThread r
      { t with arch := t.arch.returned f s.fresh, run := Run.start (t.arch.returned f s.fresh) }).makeReady r 0 := by
  unfold State.returnFromTrap
  simp only [State.takeFresh]
  rw [State.modThread_of_some (s := { s with fresh := s.fresh + 256 }) ht]
  simp only [hf]
  rfl

/-- The run temporaries alone are new in a run (R119). -/
theorem RegFile.get_newRun {f : RegFile} (hs : asorted f.cells) (n : Nat) {x : Nat} (hx : isTemp x = false) :
    (f.newRun n).get x = f.get x := by
  have hlook : alook x (f.cells.filter fun c => !isTemp c.1) = alook x f.cells := alook_filter hs fun v => by rw [hx]; rfl
  simp [RegFile.get, RegFile.newRun, hlook, hx]

/-! ### The obligation -/

/-- At depth 0 a fault enters the handler (R304, R305). -/
theorem faultsAndReturns_enters (ht : s.thread r = some t) (hg : s.wg r.wg = some g) (hacc : r.acc = false) {f : FaultInfo}
    (hcode : f.code ≠ .pmemgrow) (hspoiled : s.spoiled r t.seq = false) (foff : Nat) (hd : t.arch.depth = 0) :
    let s' := s.takeFault r f foff
    let q := t.run.snap
    ∃ t' fr, s'.thread r = some t' ∧ t'.arch.frame = some fr ∧ t'.arch.depth = 1 ∧ t'.arch.sup = true ∧
      t'.arch.pc = (s.part g.part).tvec ∧ t'.status = .ready (if s.cur = some r then s.clock + 1 else s.clock) 0 ∧ t'.run = Run.start t'.arch ∧
      t'.arch.xcount = 0 ∧ t'.deferred = none ∧
      fr.fault = some f ∧ fr.foff = foff ∧ fr.pc = q.pc ∧ fr.regs = q.regs ∧ fr.preds = q.preds ∧ fr.ix = q.ix ∧
      fr.fflags = q.fflags ∧ fr.rm = q.rm ∧ fr.sup = q.sup ∧ fr.rstack = q.rstack ∧
      fr.xcount = max t.arch.xcount t.arch.alone ∧
      (10 ≤ g.allot → t'.arch.reg 0 = regN32 f.cause ∧ t'.arch.pair 4 = q.pc ∧ t'.arch.pair 8 = f.addr ∧
        t'.arch.reg 6 = regN32 f.info) ∧
      s'.mem = s.mem ∧ ∀ x : TRef, x.key ≠ r.key → s'.thread x = s.thread x := by
  intro s' q
  obtain ⟨z, u, hz, hu, harch, hs'⟩ := State.takeFault_of_depth_zero ht hacc hcode hspoiled foff hd
  obtain ⟨v, sc, ld, ws, wk, fb, cl, hd, -⟩ := State.discardRun_eq ht
  rw [hz] at hd
  have hgz : z.wg r.wg = some g := by rw [hd]; exact hg
  have hthread := State.thread_enterHandler hu hgz f (t.run.snap.toFrame (some f) foff t.arch.xsave u.seq)
  obtain ⟨hmem, hothers⟩ := State.enterHandler_frame hu hgz f (t.run.snap.toFrame (some f) foff t.arch.xsave u.seq)
  rw [← hs'] at hthread hmem hothers
  obtain ⟨rf, hent⟩ := u.arch.entered_eq f (t.run.snap.toFrame (some f) foff t.arch.xsave u.seq) (z.part g.part).tvec g.allot z.fresh
  refine ⟨_, t.run.snap.toFrame (some f) foff t.arch.xsave u.seq, hthread, ?_⟩
  refine ⟨congrArg Arch.frame hent, congrArg Arch.depth hent, congrArg Arch.sup hent, (congrArg Arch.pc hent).trans ?_, ?_, rfl,
    congrArg Arch.xcount hent, rfl, rfl, rfl, rfl, rfl, rfl, rfl, rfl, rfl, rfl, rfl, rfl, fun hn => ?_, hmem.trans ?_, fun x hx => ?_⟩
  · rw [hd]
    rfl
  · rw [hd]
    rfl
  · exact Arch.handlerRegs_read _ f t.run.snap.pc hn
  · rw [hd]
    rfl
  · rw [hothers x hx, hd, State.thread_setThread_of_ne _ _ hx]
    rfl

theorem State.meterEvent_threads (code p : Nat) (data : List Byte) : (s.meterEvent code p data).threads = s.threads := rfl

theorem State.meterEvent_launch (code p : Nat) (data : List Byte) (k : Nat) : (s.meterEvent code p data).launch k = s.launch k := rfl

theorem State.meterEvent_event (code p : Nat) (data : List Byte) :
    ∃ e ∈ (s.meterEvent code p data).sys.events, e.code = code ∧ e.part = p := by
  unfold State.meterEvent
  exact ⟨_, List.mem_append_right _ (List.mem_singleton_self _), rfl, rfl⟩

/-- In a handler a fault kills the workgroup (R306). -/
theorem faultsAndReturns_kills (ht : s.thread r = some t) (hg : s.wg r.wg = some g) (hacc : r.acc = false) {f : FaultInfo}
    (hcode : f.code ≠ .pmemgrow) (hspoiled : s.spoiled r t.seq = false) (foff : Nat) (hd : t.arch.depth ≠ 0) (hs : asorted s.threads) :
    (∀ x ∈ (s.takeFault r f foff).threads, x.1 / 1024 = r.wg → x.2.status = .exited) ∧
    (∀ l, s.launch g.launch = some l → ∃ l', (s.takeFault r f foff).launch g.launch = some l' ∧ l'.killed = true) ∧
    ∃ e ∈ (s.takeFault r f foff).sys.events, e.code = 2 ∧ e.part = g.part := by
  obtain ⟨data, hfault⟩ := State.takeFault_of_depth ht hacc hcode hspoiled foff hg hd
  have hdying := s.dying_discardRun r
  have hgz : (s.discardRun r).wg r.wg = some g := by rwa [State.wg, hdying.wgs]
  obtain ⟨hexited, hlaunch⟩ := State.killWg_of_wg hgz (hdying.sorted hs)
  rw [hfault]
  refine ⟨fun x hx => ?_, fun l hl => ?_, State.meterEvent_event ..⟩
  · rw [State.meterEvent_threads] at hx
    exact hexited x hx
  · rw [State.meterEvent_launch]
    exact hlaunch l (by rwa [State.launch, hdying.launches])

/-- TRAP_ENTRY takes the fault that is left to a ready thread. -/
theorem execTrapEntry_of_deferred (ht : s.thread r = some t) (hacc : r.acc = false) {e : FaultInfo} {at' v : Nat}
    (he : t.deferred = some e) (hst : t.status = .ready at' v) : exec (.trapEntry r.wg r.tid) s =
      .next ((s.setThread r { t with deferred := none, defSeq := none }).takeFault r e 0) := by
  have hr : ({ wg := r.wg, tid := r.tid } : TRef) = r := by rw [← hacc]
  rw [exec_trapEntry, execTrapEntry]
  simp only [hr, ht, he, hst, State.modThread_of_some ht]

/-- Settles O37: a fault enters the handler or kills, and the return undoes the entry. -/
theorem faultsAndReturns : Obligations.FaultsAndReturns := by
  unfold Obligations.FaultsAndReturns
  constructor
  · intro s r t g f foff ht hg hacc hcode
    exact ⟨fun hsp => State.takeFault_of_spoiled ht hsp f foff, fun hsp => ⟨faultsAndReturns_enters ht hg hacc hcode hsp foff,
      faultsAndReturns_kills ht hg hacc hcode hsp foff⟩⟩
  · intro s r t f e at' v ht
    refine ⟨fun hf hcells => ?_, fun hacc he hst => execTrapEntry_of_deferred ht hacc he hst, fun hacc hwg he hst hd hsp hcode => ?_⟩
    · intro s'
      have hs' : s' = _ := State.returnFromTrap_eq ht hf
      rw [hs']
      refine ⟨_, State.thread_makeReady_self (State.thread_setThread ..) 0, rfl, fun x hx => RegFile.get_newRun hcells _ hx, rfl, rfl, rfl,
        rfl, rfl, rfl, rfl, rfl, ?_⟩
      rw [State.makeReady_mem]
      rfl
    · obtain ⟨g, hg⟩ := hwg
      obtain ⟨t', fr, hthread, hframe, hdepth, hsup, -, -, -, -, -, hfault, -⟩ := faultsAndReturns_enters
        (s := s.setThread r { t with deferred := none, defSeq := none }) (State.thread_setThread ..) hg hacc hcode hsp 0 hd
      exact ⟨_, t', fr, execTrapEntry_of_deferred ht hacc he hst, hthread, hframe, hfault, hdepth, hsup⟩

end Sys2Proof.Machine
end

section
/-! PROOFS. O45: write-backs, the wait table, scrubbing, walks and growth. -/

namespace Sys2Proof.Machine

variable {s : State} {r : TRef} {t : Thread} {g : Wg}

/-! ### Dirty bytes that go home (R152) -/

/-- A cell of a core's L1 that may leave it now. -/
def State.Leaves (s : State) (core k : Nat) (c : L1Cell) : Prop :=
  alook (l1Key core k) s.l1 = some c ∧ k < 2 ^ 70 ∧ c.dirty = true ∧ c.rel ≤ s.clock

/-- Entries changed under their keys are found as they are after the change. -/
theorem alook_map {α : Type} (f : Nat → α → α) (j : Nat) (l : List (Nat × α)) :
    alook j (l.map fun c => (c.1, f c.1 c.2)) = (alook j l).map (f j) := by
  induction l with
  | nil => rfl
  | cons c l ih =>
    simp only [List.map_cons, alook]
    split
    · next h => rw [h, Option.map_some]
    · split
      · rfl
      · exact ih

/-- A byte that is put once is read as it is put. -/
theorem read_putBytes_of_mem {m : Memory} {bs : List (Nat × Byte)} {k : Nat} {v : Byte} (hm : Memory.wf m) (hk : (k, v) ∈ bs)
    (hone : ∀ b ∈ bs, b.1 = k → b.2 = v) : Memory.read (putBytes m bs) k = v := by
  induction bs generalizing m with
  | nil => exact (List.not_mem_nil hk).elim
  | cons b bs ih =>
    have hm' : Memory.wf (Memory.write m b.1 b.2) := Memory.wf_write _ _ hm
    show Memory.read (putBytes (Memory.write m b.1 b.2) bs) k = v
    by_cases hin : (k, v) ∈ bs
    · exact ih hm' hin fun c hc => hone c (List.mem_cons_of_mem _ hc)
    · obtain rfl : b = (k, v) := ((List.mem_cons.1 hk).resolve_right hin).symm
      rw [Machine.read_putBytes_of_notMem bs hm' fun c hc e => hin ?_, Memory.read_write_self _ _ hm]
      have hv : c.2 = v := hone c (List.mem_cons_of_mem _ hc) e
      rwa [← e, ← hv]

/-- The bytes that leave are those of the cells that may. -/
theorem State.mem_dirtyOf (hs : asorted s.l1) (core : Nat) (line : Option Nat) (k : Nat) (v : Byte) :
    (k, v) ∈ s.dirtyOf core line ↔ (line = none ∨ line = some (lineKey k)) ∧ ∃ c, s.Leaves core k c ∧ c.val = v := by
  simp only [State.dirtyOf, List.mem_map, List.mem_filter, Bool.and_eq_true, Bool.or_eq_true, beq_iff_eq, decide_eq_true_eq,
    Prod.mk.injEq]
  constructor
  · rintro ⟨x, ⟨hx, ⟨⟨hcore, hdirty⟩, hrel⟩, hline⟩, rfl, rfl⟩
    have hkey : l1Key core (x.1 % 2 ^ 70) = x.1 := by unfold l1Key; omega
    exact ⟨hline, x.2, ⟨by rw [hkey]; exact alook_of_mem hs hx, by omega, hdirty, hrel⟩, rfl⟩
  · rintro ⟨hline, c, ⟨hc, hk, hdirty, hrel⟩, rfl⟩
    have hmod : l1Key core k % 2 ^ 70 = k := by unfold l1Key; omega
    have hdiv : l1Key core k / 2 ^ 70 = core := by unfold l1Key; omega
    exact ⟨(l1Key core k, c), ⟨mem_of_alook hc, ⟨⟨hdiv, hdirty⟩, hrel⟩, by rwa [hmod]⟩, hmod, rfl⟩

/-- Of the cells of a written-back core those whose bytes went home are clean. -/
theorem State.alook_writeBack (core : Nat) (line : Option Nat) (j : Nat) : alook j (s.writeBack core line).l1 =
    (alook j s.l1).map fun c => if (s.dirtyOf core line).any (fun b => l1Key core b.1 == j) then { c with dirty := false } else c := by
  rw [← alook_map (fun j (c : L1Cell) => if (s.dirtyOf core line).any (fun b => l1Key core b.1 == j) then { c with dirty := false } else c)]
  refine congrArg (alook j) (List.map_congr_left fun c _ => ?_)
  dsimp only
  split <;> rfl

section writtenBack

variable (hs : asorted s.l1) {core : Nat} {line : Option Nat}

include hs

/-- A byte that may leave goes home, and its cell is clean. -/
theorem State.writeBack_of_leaves (hm : Memory.wf s.mem) {k : Nat} {c : L1Cell} (hc : s.Leaves core k c)
    (hl : line = none ∨ line = some (lineKey k)) :
    (s.writeBack core line).mem.read k = c.val ∧ alook (l1Key core k) (s.writeBack core line).l1 = some { c with dirty := false } := by
  have hmem : (k, c.val) ∈ s.dirtyOf core line := (State.mem_dirtyOf hs ..).2 ⟨hl, c, hc, rfl⟩
  refine ⟨read_putBytes_of_mem hm hmem fun b hb hk => ?_, ?_⟩
  · obtain ⟨-, c', hc', hv⟩ := (State.mem_dirtyOf hs core line b.1 b.2).1 hb
    rw [hk] at hc'
    rw [← hv, Option.some.inj (hc'.1.symm.trans hc.1)]
  · rw [State.alook_writeBack, hc.1, Option.map_some, if_pos (List.any_eq_true.2 ⟨_, hmem, by simp⟩)]

/-- A byte that may not leave, or whose line is not named, stays as it is at home. -/
theorem State.writeBack_read_of_not (hm : Memory.wf s.mem) {k : Nat}
    (hk : (∀ c, ¬ s.Leaves core k c) ∨ ∃ l, line = some l ∧ lineKey k ≠ l) :
    (s.writeBack core line).mem.read k = s.mem.read k := by
  refine Machine.read_putBytes_of_notMem _ hm fun b hb e => ?_
  obtain ⟨hline, c, hc, -⟩ := (State.mem_dirtyOf hs core line b.1 b.2).1 hb
  rw [e] at hline hc
  obtain hk | ⟨l, rfl, hl⟩ := hk
  · exact hk c hc
  · simp only [reduceCtorEq, Option.some.injEq, false_or] at hline
    exact hl hline.symm

end writtenBack

/-- The L1 holds the same bytes after a write-back. -/
theorem State.writeBack_vals (core : Nat) (line : Option Nat) (j : Nat) :
    (alook j (s.writeBack core line).l1).map (·.val) = (alook j s.l1).map (·.val) := by
  rw [State.alook_writeBack, Option.map_map]
  refine congrArg (Option.map · _) (funext fun c => ?_)
  simp only [Function.comp]
  split <;> rfl

theorem exec_l1Writeback_idle (h : s.Idle) (core line : Nat) :
    exec (.l1Writeback core line) s = .next (s.writeBack core (some (lineKey line)))  := by
  rw [exec_l1Writeback, execL1Writeback, State.writeBackAll_idle h]

theorem exec_promotionRequest_of_noted (h : s.Idle) {core line : Nat}
    (hn : (s.notes.any fun n => n.core == core && n.line == lineKey line) = true) :
    exec (.promotionRequest core line) s = .next (s.writeBack core none) := by
  rw [exec_promotionRequest, execPromotionRequest, if_pos hn, State.writeBackAll_idle h]

theorem exec_promotionRequest_of_not {core line : Nat} (hn : ∀ n ∈ s.notes, n.core = core → n.line ≠ lineKey line) :
    exec (.promotionRequest core line) s = .next s := by
  rw [exec_promotionRequest, execPromotionRequest, if_neg]
  simpa using hn

/-! ### The wait table (R157) -/

theorem oldestEntry_concat_of_none {l : List TableEntry} (h : oldestEntry l = none) (x : TableEntry) :
    oldestEntry (l ++ [x]) = some x := by
  unfold oldestEntry at h ⊢
  rw [List.foldl_append, h]
  rfl

theorem oldestEntry_concat_of_some {l : List TableEntry} {y : TableEntry} (h : oldestEntry l = some y) (x : TableEntry) :
    oldestEntry (l ++ [x]) = if x.age < y.age then some x else some y := by
  unfold oldestEntry at h ⊢
  rw [List.foldl_append, h]
  rfl

/-- Where there are entries, the oldest is one that has waited longest. -/
theorem oldestEntry_spec {l : List TableEntry} (h : l ≠ []) :
    ∃ e, oldestEntry l = some e ∧ e ∈ l ∧ ∀ x ∈ l, e.age ≤ x.age := by
  induction l using List.reverseRecOn with
  | nil => exact absurd rfl h
  | append_singleton l x ih =>
    simp only [List.mem_append, List.mem_singleton]
    by_cases hl : l = []
    · subst hl
      exact ⟨x, oldestEntry_concat_of_none rfl x, .inr rfl, fun y hy => by simp_all⟩
    · obtain ⟨e, he, hmem, hold⟩ := ih hl
      rw [oldestEntry_concat_of_some he]
      by_cases hlt : x.age < e.age
      · exact ⟨x, if_pos hlt, .inr rfl, fun y hy => hy.elim (fun hy => hlt.le.trans (hold y hy)) fun hy => hy ▸ le_rfl⟩
      · exact ⟨e, if_neg hlt, .inl hmem, fun y hy => hy.elim (hold y) fun hy => hy ▸ not_lt.1 hlt⟩

/-- The entries of a core that are in its table, and those in the spill area. -/
def State.inTable (s : State) (core : Nat) : List TableEntry := (s.tableOf core).filter fun e => !e.spilled
def State.outOfTable (s : State) (core : Nat) : List TableEntry := (s.tableOf core).filter (·.spilled)

theorem exec_waitTableSpill_of_room {core : Nat} (h : (s.inTable core).length < 4096) : exec (.waitTableSpill core) s = .next s := by
  rw [exec_waitTableSpill, execWaitTableSpill]
  exact if_pos h

theorem exec_waitTableSpill_of_full {core : Nat} {e : TableEntry} (h : 4096 ≤ (s.inTable core).length)
    (he : oldestEntry (s.inTable core) = some e) :
    (∀ l, s.engineAt (s.partOf e.who) true .store (s.tableSpillAt e) = .ok l →
      exec (.waitTableSpill core) s = .next (s.setSpilled e.id true)) ∧
    ∀ c, s.engineAt (s.partOf e.who) true .store (s.tableSpillAt e) = .error c →
      exec (.waitTableSpill core) s = .next (s.postMissing (s.partOf e.who) (s.tableSpillAt e) 0) := by
  unfold State.inTable at h he
  rw [exec_waitTableSpill, execWaitTableSpill]
  simp only [if_neg (not_lt.2 h), he]
  exact ⟨fun l hl => by rw [hl], fun c hc => by rw [hc]⟩

/-- Without a spilled entry that is ready the oldest comes back, where the table has room. -/
theorem exec_waitTableFill_of_none {core : Nat} (h : ∀ e ∈ s.outOfTable core, s.spilledReady e = false) :
    (s.outOfTable core = [] → exec (.waitTableFill core) s = .next s) ∧
    ∀ e, oldestEntry (s.outOfTable core) = some e → exec (.waitTableFill core) s =
      if (s.inTable core).length < 4096 then .next (s.setSpilled e.id false) else .next s := by
  have hready : (s.outOfTable core).filter s.spilledReady = [] := List.filter_eq_nil_iff.2 fun e he => by simp [h e he]
  unfold State.outOfTable at hready ⊢
  rw [exec_waitTableFill, execWaitTableFill]
  simp only [hready]
  refine ⟨fun hout => ?_, fun e he => ?_⟩
  · rw [hout]
    rfl
  · rw [he]
    simp only [oldestEntry, List.foldl_nil, decide_eq_true_eq]
    rfl

theorem exec_waitTableFill_of_ready {core : Nat} {e : TableEntry} (h : s.outOfTable core = [e]) (hr : s.spilledReady e = true) :
    exec (.waitTableFill core) s = .next ((s.setSpilled e.id false).monitorAll (s.entryKey e.id)) := by
  unfold State.outOfTable at h
  rw [exec_waitTableFill, execWaitTableFill]
  simp only [h, List.filter_cons_of_pos hr, List.filter_nil]
  rfl

/-! ### Scrubbing (R331) -/

theorem mem_insNat_iff {k c : Nat} {l : List Nat} : c ∈ insNat k l ↔ c ∈ l ∨ c = k := by
  induction l with
  | nil => simp [insNat]
  | cons j l ih =>
    rw [insNat]
    split
    · simp only [List.mem_cons]
      tauto
    · split
      · next h =>
        simp only [List.mem_cons, h]
        tauto
      · simp only [List.mem_cons, ih]
        tauto

theorem exec_patrolScrub_one {line i : Nat} (hi : i < 4) (b : Bool) : exec (.patrolScrub line [(i, b)]) s =
    .next (if b then s.countFixed (lineKey line + 32 * i) else s.poisonWord (lineKey line + 32 * i)) := by
  rw [exec_patrolScrub, execPatrolScrub]
  simp only [forEach, List.foldl_cons, List.foldl_nil, if_neg (not_le.2 hi)]

/-- A corrected codeword of the one partition's HBM is counted there. -/
theorem State.countFixed_of_one {p k : Nat} {x : Part} (h : s.parts = [(p, x)]) (hd : x.defined = true)
    (hlo : x.lim.hbmBase ≤ k) (hhi : k < x.lim.hbmBase + x.lim.hbmSize) :
    s.countFixed k = s.modPart p fun x => { x with eccce := x.eccce + 1 } := by
  simp [State.countFixed, h, hd, hlo, hhi, forEach]

/-- Without partitions an uncorrectable codeword is poisoned, and no one hears of it. -/
theorem State.poisonWord_of_undefined {k : Nat} (hk : k < hbmBytes) (hp : s.isPoisoned k = false)
    (hd : ∀ x ∈ s.parts, x.2.defined = false) :
    s.poisonWord k = { s with poisoned := insNat (codeword k) s.poisoned } := by
  have hnone : (s.parts.filter fun p => p.2.defined) = [] := List.filter_eq_nil_iff.2 fun x hx => by simp [hd x hx]
  rw [State.poisonWord, if_neg (by simp [hp, hk]), if_pos hk]
  show forEach _ _ (List.filter _ s.parts) = _
  rw [hnone]
  rfl

/-! ### Walks (R321) -/

section walk

variable {w : Walk} {a : DWord} {k : Access}

/-- The state in which a walk is over. -/
def State.withoutWalk (s : State) (w : Walk) : State := { s with walks := s.walks.filter fun y => y.id != w.id }

theorem exec_pageWalkComplete_of_not (hw : s.walks.find? (fun x => x.id == w.id) = some w)
    (h : ∀ x ∈ s.walking (w.core / 96), x.id ≠ w.id) : exec (.pageWalkComplete w.id) s = .next s := by
  rw [exec_pageWalkComplete, execPageWalkComplete]
  simp only [hw]
  exact if_pos (by simpa using h)

/-- A walk for one thread that a walker is at ends for it. -/
theorem exec_pageWalkComplete_of_one (hw : s.walks.find? (fun x => x.id == w.id) = some w) (hwho : w.who = [(r, a, k)])
    (h : w ∈ s.walking (w.core / 96)) : exec (.pageWalkComplete w.id) s = .next ((s.withoutWalk w).walkEnd w.id r a k) := by
  have hany : ((s.walking (w.core / 96)).any fun x => x.id == w.id) = true := List.any_eq_true.2 ⟨w, h, by simp⟩
  rw [exec_pageWalkComplete, execPageWalkComplete]
  simp only [hw, hany, Bool.not_true, Bool.false_eq_true, if_false, hwho]
  rfl

variable (ht : s.thread r = some t) (hg : s.wg r.wg = some g) (hst : t.status = .parked (.walk w.id))

include ht hg hst

theorem State.walkEnd_of_bad (hb : s.walkBad g.part a = true) :
    (s.withoutWalk w).walkEnd w.id r a k = (s.withoutWalk w).takeFault r (faultAt .uncorr a k false) t.run.count := by
  unfold State.walkEnd
  rw [show (s.withoutWalk w).thread r = some t from ht, show (s.withoutWalk w).wg r.wg = some g from hg]
  simp only [hst, ne_eq, not_true_eq_false, if_false]
  exact if_pos hb

theorem State.walkEnd_of_none (hb : s.walkBad g.part a = false) (hv : s.walkVa g.part a = none) :
    (s.withoutWalk w).walkEnd w.id r a k = (s.withoutWalk w).takeFault r (faultAt (s.unmapped g a) a k false) t.run.count := by
  unfold State.walkEnd
  rw [show (s.withoutWalk w).thread r = some t from ht, show (s.withoutWalk w).wg r.wg = some g from hg]
  simp only [hst, ne_eq, not_true_eq_false, if_false, show (s.withoutWalk w).walkBad g.part a = false from hb,
    show (s.withoutWalk w).walkVa g.part a = none from hv, Bool.false_eq_true]
  rfl

theorem State.walkEnd_of_some {x : Trans} (hb : s.walkBad g.part a = false) (hv : s.walkVa g.part a = some x) :
    (s.withoutWalk w).walkEnd w.id r a k = ((s.withoutWalk w).tlbFill (s.coreOf r) g.part x).wake r := by
  unfold State.walkEnd
  rw [show (s.withoutWalk w).thread r = some t from ht, show (s.withoutWalk w).wg r.wg = some g from hg]
  simp only [hst, ne_eq, not_true_eq_false, if_false, show (s.withoutWalk w).walkBad g.part a = false from hb,
    show (s.withoutWalk w).walkVa g.part a = some x from hv, Bool.false_eq_true]
  rfl

end walk

/-- A thread that is woken has that status, and a resumption group of its quadrant names it (R158). -/
theorem State.wake_of_thread (ht : s.thread r = some t) (hacc : r.acc = false) :
    (s.wake r).thread r = some { t with status := .woken } ∧ ∃ h ∈ ((s.wake r).quad (s.quadOf r)).resume, r ∈ h.2 := by
  unfold State.wake
  rw [State.modThread_of_some ht, hacc]
  refine ⟨State.thread_setThread .., ?_⟩
  simp only [Bool.false_eq_true, if_false]
  rw [show (s.setThread r { t with status := .woken }).quadOf r = s.quadOf r from rfl, State.quad_modQuad]
  split
  · next hany =>
    obtain ⟨h, hmem, hfit⟩ := List.any_eq_true.1 hany
    exact ⟨(h.1, h.2 ++ [r]), List.mem_map.2 ⟨h, hmem, if_pos hfit⟩, by simp⟩
  · exact ⟨(_, [r]), List.mem_append_right _ (List.mem_singleton_self _), List.mem_singleton_self _⟩

/-! ### Growth of private regions (R140) -/

/-- Two states with the same threads, workgroups, waiting words and clock. -/
structure State.SameThreads (s z : State) : Prop where
  threads : z.threads = s.threads
  wgs : z.wgs = s.wgs
  waiters : z.waiters = s.waiters
  stores : z.stores = s.stores
  clock : z.clock = s.clock
  cur : z.cur = s.cur

theorem State.SameThreads.refl (s : State) : s.SameThreads s := ⟨rfl, rfl, rfl, rfl, rfl, rfl⟩

theorem State.SameThreads.trans {s y z : State} (h : s.SameThreads y) (h' : y.SameThreads z) : s.SameThreads z :=
  ⟨h'.threads.trans h.threads, h'.wgs.trans h.wgs, h'.waiters.trans h.waiters, h'.stores.trans h.stores, h'.clock.trans h.clock,
    h'.cur.trans h.cur⟩

theorem State.SameThreads.idle {s z : State} (h : s.SameThreads z) (hi : s.Idle) : z.Idle :=
  ⟨h.waiters.trans hi.1, fun q hq => hi.2 q (h.stores ▸ hq)⟩

theorem State.sameThreads_zeroRange (h : s.Idle) (k n : Nat) : s.SameThreads (s.zeroRange k n) := by
  unfold State.zeroRange
  dsimp only
  rw [State.monitorAll_idle]
  · exact ⟨rfl, rfl, rfl, rfl, rfl, rfl⟩
  · exact h

theorem State.sameThreads_foldl {α : Type} {f : State → α → State} (hf : ∀ z x, State.Idle z → z.SameThreads (f z x)) (l : List α)
    (h : s.Idle) : s.SameThreads (l.foldl f s) := by
  induction l generalizing s with
  | nil => exact .refl s
  | cons x l ih => exact (hf s x h).trans (ih ((hf s x h).idle h))

theorem State.sameThreads_zeroGrown (h : s.Idle) (p lo n : Nat) : s.SameThreads (s.zeroGrown p lo n) := by
  refine State.sameThreads_foldl (fun z i hz => ?_) _ h
  dsimp only
  split
  · exact State.sameThreads_zeroRange hz ..
  · exact .refl z

theorem State.sameThreads_agentWrite (h : s.Idle) {p : Nat} {a : DWord} {bs : List Byte} {z : State} (hz : s.agentWrite p a bs = some z) :
    s.SameThreads z := by
  unfold State.agentWrite at hz
  obtain ⟨k, -, rfl⟩ := Option.map_eq_some_iff.1 hz
  rw [State.homeStore_idle h]
  exact ⟨rfl, rfl, rfl, rfl, rfl, rfl⟩

theorem State.sameThreads_modPart (s : State) (p : Nat) (f : Part → Part) : s.SameThreads (s.modPart p f) :=
  ⟨rfl, rfl, rfl, rfl, rfl, rfl⟩

theorem State.sameThreads_missEvent (s : State) (p code : Nat) : s.SameThreads (s.missEvent p code) := s.sameThreads_modPart ..

theorem State.sameThreads_postEvent (h : s.Idle) (p code : Nat) (data : List Word) : s.SameThreads (s.postEvent p code data) := by
  unfold State.postEvent
  dsimp only
  split
  · exact s.sameThreads_missEvent ..
  · split
    · exact s.sameThreads_missEvent ..
    · split
      · exact s.sameThreads_missEvent ..
      · next z hz =>
        exact (State.sameThreads_agentWrite h hz).trans (z.sameThreads_modPart ..)

/-- The conditions under which growth is served. -/
structure State.Grows (s : State) (g : Wg) (a high : DWord) : Prop where
  cur : s.cur = none
  aligned : high.toNat % 65536 = 0
  above : g.hwm.toNat ≤ high.toNat
  reaches : a.toNat < high.toNat
  within : high.toNat ≤ g.pbase.toNat + g.pres
  mapped : ∀ i, g.hwm.toNat + 65536 * i < high.toNat →
    (s.walkVa g.part (BitVec.ofNat 64 (g.hwm.toNat + 65536 * i))).isSome = true

/-- The parts of a slice that growth adds are mapped. -/
theorem State.Grows.all_mapped {a high : DWord} (h : s.Grows g a high) : ((List.range ((high.toNat - g.hwm.toNat) / 65536)).all fun i =>
    (s.walkVa g.part (BitVec.ofNat 64 (g.hwm.toNat + 65536 * i))).isSome) = true := by
  refine List.all_eq_true.2 fun i hi => h.mapped i ?_
  have := List.mem_range.1 hi
  have := h.above
  omega

/-- Once a slice has grown its thread is ready, with the workgroup's new mark. -/
theorem State.resumed_of_sameThreads (ht : s.thread r = some t) (hg : s.wg r.wg = some g) (hi : s.Idle) (hcur : s.cur = none) {y : State}
    (h : s.SameThreads y) (high : DWord) (code : Nat) (data : List Word) :
    let x := y.modWg r.wg fun g => { g with hwm := high }
    ((x.makeReady r 0).postEvent g.part code data).thread r = some { t with status := .ready s.clock 0 } ∧
      ((x.makeReady r 0).postEvent g.part code data).wg r.wg = some { g with hwm := high } := by
  intro x
  have htx : x.thread r = some t := by
    rw [State.thread, State.modWg_threads, h.threads]
    exact ht
  have hgx : x.wg r.wg = some { g with hwm := high } := State.wg_modWg_self (by rw [State.wg, h.wgs]; exact hg) _
  have hix : x.Idle := by
    rw [State.Idle, State.modWg_waiters, State.modWg_stores]
    exact h.idle hi
  have hready : x.readyTime r = s.clock := by
    rw [State.readyTime, State.modWg_cur, State.modWg_clock, h.cur, h.clock, hcur]
    rfl
  obtain ⟨th, qs, hx⟩ := x.threadsQuads_makeReady r 0
  have hpost := State.sameThreads_postEvent (s := x.makeReady r 0) (by rw [hx]; exact hix) g.part code data
  constructor
  · rw [State.thread, hpost.threads, ← hready]
    exact State.thread_makeReady_self htx 0
  · rw [State.wg, hpost.wgs, hx]
    exact hgx

theorem exec_pmemgrowService_of_grows (ht : s.thread r = some t) (hg : s.wg r.wg = some g) (hacc : r.acc = false) {a high : DWord}
    (hst : t.status = .parked (.pmemgrow a)) (hi : s.Idle) (h : s.Grows g a high) :
    ∃ s' t' g', exec (.pmemgrowService r.wg r.tid high []) s = .next s' ∧ s'.thread r = some t' ∧ s'.wg r.wg = some g' ∧
      g'.hwm = high ∧ t' = { t with status := .ready s.clock 0 } := by
  have hr : ({ wg := r.wg, tid := r.tid } : TRef) = r := by rw [← hacc]
  have hhome : s.SameThreads (s.homeStore (entryBytes [])) := by
    rw [State.homeStore_idle hi]
    exact ⟨rfl, rfl, rfl, rfl, rfl, rfl⟩
  have hwalk : ∀ b, (s.homeStore (entryBytes [])).walkVa g.part b = s.walkVa g.part b := fun b => by
    rw [State.homeStore_idle hi]
    rfl
  have hall := h.all_mapped
  have hok : (s.driverMay g.part [] && high.toNat % 65536 == 0 && decide (g.hwm.toNat ≤ high.toNat) && decide (a.toNat < high.toNat) &&
      decide (high.toNat ≤ g.pbase.toNat + g.pres) && (List.range ((high.toNat - g.hwm.toNat) / 65536)).all fun i =>
        ((s.homeStore (entryBytes [])).walkVa g.part (BitVec.ofNat 64 (g.hwm.toNat + 65536 * i))).isSome) = true := by
    simp only [hwalk, hall, h.aligned, h.above, h.reaches, h.within, State.driverMay, List.all_nil, beq_self_eq_true, decide_true,
      Bool.and_true]
  rw [exec_pmemgrowService, execPmemgrowService]
  simp only [hr, ht, hst, hg, Option.map_some, Bool.not_true, Bool.false_and, hok, Bool.false_eq_true, if_false]
  generalize s.homeStore (entryBytes []) = z at hhome
  have hgrown := hhome.trans (State.sameThreads_zeroGrown (hhome.idle hi) g.part g.hwm.toNat ((high.toNat - g.hwm.toNat) / 65536))
  generalize z.zeroGrown g.part g.hwm.toNat ((high.toNat - g.hwm.toNat) / 65536) = y at hgrown
  obtain ⟨hthread, hwg⟩ := State.resumed_of_sameThreads ht hg hi h.cur hgrown high 2 (eventAddr high ++ [BitVec.ofNat 32 g.wgid])
  exact ⟨_, _, { g with hwm := high }, rfl, hthread, hwg, rfl, rfl⟩

/-- Settles O45: the units of the memory system, each by its equation. -/
theorem memoryUnits : Obligations.MemoryUnits := by
  unfold Obligations.MemoryUnits
  refine ⟨fun s core line hm hs hw hp => ?_, fun s core => ?_, fun s r t g a ht hg hacc => ⟨fun w k hw hwho hst => ?_, ?_⟩⟩
  · intro home leaves others
    have hothers : ∀ l, others (s.writeBack core l) := fun l =>
      ⟨fun k hk => State.writeBack_read_of_not hs hm (.inl hk), fun j => State.writeBack_vals core l j⟩
    refine ⟨⟨_, exec_l1Writeback_idle ⟨hw, hp⟩ core line, fun k c hc hk => ?_, fun k hk => ?_, hothers _⟩, fun hn => ?_, ?_⟩
    · exact State.writeBack_of_leaves hs hm hc (.inr (congrArg some hk.symm))
    · exact State.writeBack_read_of_not hs hm (.inr ⟨_, rfl, hk⟩)
    · exact ⟨_, exec_promotionRequest_of_noted ⟨hw, hp⟩ hn, fun k c hc => State.writeBack_of_leaves hs hm hc (.inl rfl), hothers _⟩
    · exact exec_promotionRequest_of_not
  · intro es out
    refine ⟨exec_waitTableSpill_of_room, fun hfull => ?_, fun hout => ?_, fun hne hready => ?_, fun e he hready => ?_, fun line i => ?_⟩
    · obtain ⟨e, he, hmem, hold⟩ := oldestEntry_spec (l := es) (List.ne_nil_of_length_pos (by omega))
      exact ⟨e, hmem, hold, exec_waitTableSpill_of_full hfull he⟩
    · exact (exec_waitTableFill_of_none (core := core) fun e he => (List.not_mem_nil (hout ▸ he : e ∈ [])).elim).1 hout
    · obtain ⟨e, he, hmem, hold⟩ := oldestEntry_spec hne
      have hfill := (exec_waitTableFill_of_none hready).2 e he
      exact ⟨e, hmem, hold, fun h => hfill.trans (if_pos h), fun h => hfill.trans (if_neg (not_lt.2 h))⟩
    · exact exec_waitTableFill_of_ready he hready
    · refine ⟨rfl, fun p x hparts hd hi hlo hhi => ?_, fun hi hk hp hd => ?_⟩
      · refine ⟨_, exec_patrolScrub_one hi true, ?_⟩
        rw [if_pos rfl, State.countFixed_of_one hparts hd hlo hhi]
        refine ⟨?_, rfl, rfl⟩
        simp [State.part, State.modPart, hparts, alook, aput]
      · refine ⟨_, exec_patrolScrub_one hi false, ?_⟩
        rw [if_neg Bool.false_ne_true, State.poisonWord_of_undefined hk hp hd]
        exact ⟨fun c => mem_insNat_iff, rfl, rfl⟩
  · have hwalk := exec_pageWalkComplete_of_one hw hwho
    refine ⟨exec_pageWalkComplete_of_not hw, fun hin hb => ?_, fun x hin hb hv => ?_, fun hin hb hv => ?_⟩
    · rw [hwalk hin, State.walkEnd_of_bad ht hg hst hb]
      rfl
    · refine ⟨_, hwalk hin, ?_⟩
      rw [State.walkEnd_of_some ht hg hst hb hv]
      obtain ⟨hthread, hresume⟩ := State.wake_of_thread (s := (s.withoutWalk w).tlbFill (s.coreOf r) g.part x) ht hacc
      obtain ⟨th, qs, hy⟩ := ((s.withoutWalk w).tlbFill (s.coreOf r) g.part x).threadsQuads_wake r
      refine ⟨?_, hthread, ?_, ?_, hresume⟩
      · rw [hy]
        rfl
      · rw [hy]
        exact ⟨_, List.mem_cons_self .., rfl, rfl, rfl, rfl⟩
      · rw [hy]
        rfl
    · rw [hwalk hin, State.walkEnd_of_none ht hg hst hb hv]
      rfl
  · intro high hst hcur hw hp hal hab hre hwi hmap
    exact exec_pmemgrowService_of_grows ht hg hacc hst ⟨hw, hp⟩ ⟨hcur, hal, hab, hre, hwi, hmap⟩

end Sys2Proof.Machine
end

section
/-! PROOFS. A save area that is zeroed while a push waits in it (R191, R323, R377). A range of memory that is zeroed has the waiters of its
words evaluated again, and a push that proceeds then writes its bytes there. -/

namespace Sys2Proof.Machine

/-- The byte that the save area of the partition begins with. -/
def saveKey : Nat := 2 ^ 30

/-- A partition with a save area of one byte at address 2^30. -/
def tornPart : Part := { defined := true, cregs := [(0x12, 0x40000000)], saveTop := 1 }

/-- A push of one byte that waits for the first word of the save area. No workgroup of the module has its thread. -/
def lonePush : Waiter :=
  { id := 0, who := { wg := 5, tid := 0 }, seq := 0, core := 0, key := saveKey, loc := .key saveKey, kind := .push [7], dests := [],
    cls := .stores, age := 0, spilled := false, addr := 0 }

/-- A state with that partition and that push. The page table has two entries: byte 0 names the table itself, and byte 8 is a leaf of 1 GiB
at 2^30 that may be read and written. -/
def tearing : State :=
  { State.reset with parts := [(0, tornPart)], waiters := [lonePush], mem := [(0, 1), (8, 0x0F), (11, 0x40)] }

theorem tearing_saveTop : ((tearing.discardWork 0).part 0).saveTop = 1 := by decide

theorem tearing_agentAt : (tearing.discardWork 0).agentAt 0 .store ((tearing.discardWork 0).part 0).savebase = some saveKey := by decide

/-- The memory of the state that a step leads to. -/
def memAfter (i : Instr) (s : State) : Memory :=
  match exec i s with
  | .next z => z.mem
  | _ => []

theorem memAfter_of_next {i : Instr} {s z : State} (h : exec i s = .next z) : memAfter i s = z.mem := by rw [memAfter, h]

/-- After the teardown the save area begins with the byte that the push has written. -/
theorem tearing_memAfter : (memAfter (.partitionTeardown 0) tearing).read saveKey = 7 := by decide

/-- Refutes O58 at its last clause, that a save area of one page reads zero after a teardown: the push of another workgroup that waits there
proceeds once the page is zeroed, and writes its byte. -/
theorem not_hostAndPartitions : ¬ Obligations.HostAndPartitions := by
  unfold Obligations.HostAndPartitions
  rintro ⟨-, h⟩
  have hmem : MemOk tearing := by unfold MemOk; decide
  obtain ⟨-, -, -, hdefined⟩ := h tearing 0 tornPart.lim hmem
  obtain ⟨-, -, hteardown⟩ := hdefined rfl
  obtain ⟨s', hexec, -, -, -, -, -, -, -, -, hzero⟩ := hteardown rfl
  have hread := hzero saveKey rfl (by rw [tearing_saveTop]; decide) (by rw [tearing_saveTop]; decide) tearing_agentAt 0 (by decide)
  rw [← memAfter_of_next hexec, Nat.add_zero, tearing_memAfter] at hread
  exact absurd hread (by decide)

end Sys2Proof.Machine
end

section
/-! PROOFS. O47: copy commands. -/

namespace Sys2Proof.Machine

variable {s : State} {c : Copy} {t : Thread} {g : Wg}

/-! ### A channel's next command (R168) -/

theorem exec_channelStart_of_none {core : Nat} (h : s.nextCopy core = none) : exec (.streamerChannelStart core) s = .next s := by
  rw [exec_streamerChannelStart, execStreamerChannelStart, h]

theorem Copy.not_full_of_room {n : Nat} (h : c.channel = true ∨ n < 8) : ¬ (c.channel = false ∧ 8 ≤ n) := by
  rintro ⟨hc, h8⟩
  obtain hc' | hlt := h
  · exact Bool.noConfusion (hc'.symm.trans hc)
  · omega

section next

variable (h : s.nextCopy c.core = some c)

include h

theorem exec_channelStart_of_full (hch : c.channel = false) (hfull : 8 ≤ s.channelsHeld c.core) :
    exec (.streamerChannelStart c.core) s = .next s := by
  rw [exec_streamerChannelStart, execStreamerChannelStart, h]
  exact if_pos ⟨hch, hfull⟩

variable (hroom : c.channel = true ∨ s.channelsHeld c.core < 8)

include hroom

theorem exec_channelStart_of_waits (hw : s.copyWaits c = true) :
    exec (.streamerChannelStart c.core) s = .next (s.modCopy c.id fun y => { y with channel := true }) := by
  rw [exec_streamerChannelStart, execStreamerChannelStart, h]
  simp only [if_neg (Copy.not_full_of_room hroom), hw, if_true]

/-- A command that waits for nothing: it asks for what it reads elsewhere, or settles what it writes. -/
theorem exec_channelStart_of_goes (hg : s.wg c.who.wg = some g) (hw : s.copyWaits c = false) :
    let s1 := if c.blk.acq && !c.aborted then s.acquire c.core (scopeOfCode c.blk.scope) else s
    let x := s1.copyPieces g c
    let s2 := x.2.dropFar c.id
    let ws := s2.copyWrites g c x.1
    (c.aborted = false → s1.copyFar g c ≠ [] → exec (.streamerChannelStart c.core) s =
      .next ((s1.askFar c.id c.part (s1.copyFar g c)).modCopy c.id fun y => { y with channel := true })) ∧
    (c.aborted = false → s1.copyFar g c = [] → c.kind ≠ 8 → exec (.streamerChannelStart c.core) s =
      .next (s2.modCopy c.id fun y => { y with started := true, writes := ws, ports := s2.copyPorts ws, dests := copyDests ws })) ∧
    (c.aborted = false → s1.copyFar g c = [] → c.kind = 8 → exec (.streamerChannelStart c.core) s = .next (s2.startReduce c x.1)) ∧
    (c.aborted = true → exec (.streamerChannelStart c.core) s =
      .next (s2.modCopy c.id fun y => { y with started := true, code := 6, lost := ws.flatMap (·.all) })) := by
  rw [exec_streamerChannelStart, execStreamerChannelStart, h]
  simp only [if_neg (Copy.not_full_of_room hroom), hw, hg, Bool.false_eq_true, if_false]
  generalize (if (c.blk.acq && !c.aborted) = true then s.acquire c.core (scopeOfCode c.blk.scope) else s) = s1
  refine ⟨fun ha hfar => ?_, fun ha hfar hk => ?_, fun ha hfar hk => ?_, fun ha => ?_⟩
  · have hne : (s1.copyFar g c).isEmpty = false := by simpa using hfar
    simp only [ha, Bool.false_eq_true, if_false, hne, Bool.not_false, if_true]
  · simp only [ha, Bool.false_eq_true, if_false, hfar, List.isEmpty_nil, Bool.not_true, if_neg hk]
  · simp only [ha, Bool.false_eq_true, if_false, hfar, List.isEmpty_nil, Bool.not_true, if_pos hk]
  · simp only [ha, if_true, List.isEmpty_nil, Bool.not_true, Bool.false_eq_true, if_false]

end next

/-! ### What an engine writes in scratchpad (R155, R180) -/

theorem isScratch_places {k : Nat} (h : isScratch k = true) : ¬ (2 ^ 62 ≤ k ∧ k < 2 ^ 64) ∧ ¬ k < 2 ^ 61 := by
  simp only [isScratch, Bool.or_eq_true, Bool.and_eq_true, decide_eq_true_eq] at h
  omega

/-- Bytes that a command writes in scratchpad, on whose words no one waits, are there, and nothing else of memory changes. -/
theorem State.copyOut_scratch (h : s.Idle) (c : Copy) {bs : List (Nat × Byte)} (hbs : ∀ b ∈ bs, isScratch b.1 = true) :
    (s.copyOut c bs).mem = putBytes s.mem bs ∧ (s.copyOut c bs).copies = s.copies ∧ (s.copyOut c bs).fab = s.fab := by
  have hscr : (bs.filter fun b => isScratch b.1) = bs := List.filter_eq_self.2 hbs
  have hown : (bs.filter fun b => decide (2 ^ 62 ≤ b.1) && decide (b.1 < 2 ^ 64)) = [] :=
    List.filter_eq_nil_iff.2 fun b hb => by simpa using (isScratch_places (hbs b hb)).1
  have hhome : (bs.filter fun b => decide (b.1 < 2 ^ 61)) = [] :=
    List.filter_eq_nil_iff.2 fun b hb => by simpa using (isScratch_places (hbs b hb)).2
  have hlines : (bs.filter fun b => !(isScratch b.1)) = [] := List.filter_eq_nil_iff.2 fun b hb => by simp [hbs b hb]
  obtain ⟨u, m, hpokes⟩ := s.pokes_eq none bs
  have hidle : (s.pokes none bs).Idle := by rw [hpokes]; exact h
  have hwrite : (s.engineWrite c.core bs).mem = putBytes s.mem bs ∧ (s.engineWrite c.core bs).copies = s.copies ∧
      (s.engineWrite c.core bs).fab = s.fab := by
    unfold State.engineWrite
    simp only [hscr, hown, hhome, State.monitorAll_idle hidle, List.foldl_nil, List.map_nil]
    rw [State.homeStore_idle (by rw [hpokes]; exact h), hpokes]
    exact ⟨rfl, rfl, rfl⟩
  unfold State.copyOut
  dsimp only
  split
  · exact hwrite
  · rw [hlines]
    exact hwrite

/-- A release that acts beyond its workgroup writes back what its core holds. -/
theorem State.engineRelease_of_wide (h : s.Idle) (core : Nat) {sc : Scope} (hsc : sc.wide = true) (ks : List Nat) :
    s.engineRelease core sc ks = s.writeBack core none := by
  rw [State.engineRelease, if_pos hsc, State.releaseAt, if_pos hsc, State.writeBackAll_idle h]

/-- A release at its workgroup's scope leaves notes for lines of HBM alone. -/
theorem State.engineRelease_of_narrow (core : Nat) {sc : Scope} (hsc : sc.wide = false) {ks : List Nat}
    (hks : ∀ k ∈ ks, isScratch k = true) : s.engineRelease core sc ks = s := by
  have hnone : (ks.filter fun k => decide (k < hbmBytes)) = [] := List.filter_eq_nil_iff.2 fun k hk => by
    have := (isScratch_places (hks k hk)).2
    have hb : hbmBytes < 2 ^ 61 := by decide
    simp only [decide_eq_true_eq]
    omega
  rw [State.engineRelease, hsc, hnone]
  rfl

/-! ### One write of a command (R177) -/

/-- The command after a write went out, before its failures are recorded. -/
def Copy.wrote (c : Copy) (w : CopyWrite) : Copy :=
  { c with writes := [], rowsOut := if c.blk.rowwise then (c.rowsOut ++ w.bytes.map (·.row)).dedup else c.rowsOut }

/-- The request by which a write goes out to another module (R343). -/
def Copy.request (c : Copy) (w : CopyWrite) (j m pa : Nat) : Remote :=
  { id := j, purpose := .copy c.id w.id, part := c.part, mod := m, paddr := pa, port := alook m c.ports,
    type := c.flitType pa w.bytes.length, body := w.bytes.map (·.val) }

/-- The state in which a write is performed: for a release what its core has written is at home. -/
def State.beforeWrite (s : State) (c : Copy) (w : CopyWrite) : State :=
  if c.releases w [] then s.engineRelease c.core (scopeOfCode c.blk.scope) ((localOf w.bytes).map (·.1)) else s

theorem State.any_claimed_of_nil (hcl : s.claims = []) (bs : List (Nat × Byte)) :
    (bs.any fun b => isScratch b.1 && s.claimed b.1 none) = false :=
  List.any_eq_false.2 fun b _ => by simp [State.claimed, hcl]

section report

variable {w : CopyWrite} (hc : s.copies.find? (fun x => x.id == c.id) = some c) (hst : c.started = true) (hw : c.writes = [w])
  (hrv : c.rvKey = none) (hcl : s.claims = [])

include hc hst hw hrv hcl

/-- Data of a write that are found uncorrectable and still in doubt are lost. -/
theorem exec_byteReport_of_bad (hd : c.doubtful w ≠ []) :
    exec (.streamerByteReport c.id true) s = .next (s.copyBad c (c.doubtful w)) := by
  have hfree := State.any_claimed_of_nil hcl (localOf w.bytes)
  have hne : (c.doubtful w).isEmpty = false := by simpa using hd
  rw [exec_streamerByteReport, execStreamerByteReport, hc]
  simp [hst, hw, takeNth, hrv, State.claimedAt, hfree, hne]

/-- A write that is performed, goes out, or waits for the others: none of its words is claimed, and none of its data or places is lost. -/
theorem exec_byteReport_of_good {bad : Bool} (hb : bad = true → c.doubtful w = []) (hgone : ∀ b ∈ w.bytes, s.byteGone c b = false) :
    (c.releases w [] = true → c.sentWrites ≠ [] → exec (.streamerByteReport c.id bad) s = .next s) ∧
    ((c.releases w [] = true → c.sentWrites = []) →
      (remoteOf w.bytes = none → exec (.streamerByteReport c.id bad) s =
        .next (((s.beforeWrite c w).copyOut (c.wrote w) (localOf w.bytes)).modCopy c.id fun _ => (c.wrote w).landed w)) ∧
      ∀ m pa, remoteOf w.bytes = some (m, pa) → exec (.streamerByteReport c.id bad) s =
        let z := ((s.beforeWrite c w).copyOut (c.wrote w) (localOf w.bytes)).takeId
        .next ((z.2.addRemote (c.request w z.1 m pa)).modCopy c.id fun _ => { c.wrote w with sentWrites := c.sentWrites ++ [w] })) := by
  have hfree := State.any_claimed_of_nil hcl (localOf w.bytes)
  have hnone : (w.bytes.filter fun b => s.byteGone c b) = [] := List.filter_eq_nil_iff.2 fun b hb => by simp [hgone b hb]
  have hbad : (bad && !(c.doubtful w).isEmpty) = false := by
    cases bad
    · rfl
    · simp [hb rfl]
  rw [exec_streamerByteReport, execStreamerByteReport, hc]
  simp only [hst, hw, takeNth, hrv, State.claimedAt, hfree, hnone, hbad, List.length_singleton, if_true, List.getElem?_cons_zero,
    Option.map_some, List.take_zero, List.nil_append, Nat.zero_add, List.drop_succ_cons, List.drop_zero, List.isEmpty_nil,
    List.isEmpty_cons, Bool.not_true, Bool.or_self, Bool.false_eq_true, if_false, List.map_nil]
  refine ⟨fun hrel hsent => ?_, fun hok => ⟨fun hr => ?_, fun m pa hr => ?_⟩⟩
  · exact if_pos (by simp [hrel, hsent])
  · rw [if_neg (by simpa using hok), hr]
    simp only [State.reportBytes, State.beforeWrite, Copy.wrote, hst, hrv]
  · rw [if_neg (by simpa using hok), hr]
    simp only [State.beforeWrite, Copy.wrote, hst, hrv]
    rfl

end report

/-! ### The commands of the module -/

theorem find_map_of_find {α : Type} {p : α → Bool} {q : α → Prop} [DecidablePred q] {f : α → α} {l : List α} {x : α}
    (hf : ∀ y, p (if q y then f y else y) = p y) (h : l.find? p = some x) :
    (l.map fun y => if q y then f y else y).find? p = some (if q x then f x else x) := by
  rw [List.find?_map, show (p ∘ fun y => if q y then f y else y) = p from funext hf, h]
  rfl

/-- A command that is changed under its number is found as it is after the change. -/
theorem State.find_modCopy (hc : s.copies.find? (fun x => x.id == c.id) = some c) {f : Copy → Copy}
    (hf : ∀ y, y.id = c.id → (f y).id = c.id) : (s.modCopy c.id f).copies.find? (fun x => x.id == c.id) = some (f c) := by
  refine (find_map_of_find (fun y => ?_) hc).trans (congrArg some (if_pos rfl))
  split
  · next h => rw [hf y h, h]
  · rfl

theorem Copy.id_failed (c : Copy) (code : Nat) (bl : List (Nat × Nat)) : (c.failed code bl).id = c.id := by
  unfold Copy.failed
  dsimp only
  split <;> rfl

theorem Copy.id_landed (c : Copy) (w : CopyWrite) : (c.landed w).id = c.id := by
  unfold Copy.landed
  dsimp only
  split
  · rw [Copy.id_failed]
    split <;> rfl
  · split <;> rfl

/-- The command after a write whose bytes are all there. -/
def Copy.performed (c : Copy) (w : CopyWrite) : Copy :=
  { c.wrote w with code := if (w.bytes.any fun b => b.sat) = true ∧ c.code = 0 then 7 else c.code }

theorem Copy.saturated_eq (c : Copy) (w : CopyWrite) :
    (if (w.bytes.any (·.sat) && (c.wrote w).code == 0) = true then { c.wrote w with code := 7 } else c.wrote w) = c.performed w := by
  unfold Copy.performed
  by_cases h : (w.bytes.any fun b => b.sat) = true ∧ c.code = 0
  · rw [if_pos h, if_pos (by simpa [Copy.wrote] using h)]
  · rw [if_neg h, if_neg (by simpa [Copy.wrote] using h)]
    rfl

theorem Copy.landed_of_none {w : CopyWrite} (h : w.fail = none) : (c.wrote w).landed w = c.performed w := by
  rw [Copy.landed, Copy.saturated_eq, h]

theorem Copy.landed_of_some {w : CopyWrite} {code : Nat} (h : w.fail = some code) :
    (c.wrote w).landed w = (c.performed w).failed code w.short := by
  rw [Copy.landed, Copy.saturated_eq, h]

/-! ### A write in scratchpad -/

theorem localOf_of_keys {key : CopyByte → Nat} {bs : List CopyByte} (h : ∀ b ∈ bs, b.loc = .key (key b)) :
    localOf bs = bs.map fun b => (key b, b.val) := by
  rw [← List.filterMap_eq_map]
  exact List.filterMap_congr fun b hb => by rw [h b hb]; rfl

theorem remoteOf_of_keys {key : CopyByte → Nat} {bs : List CopyByte} (h : ∀ b ∈ bs, b.loc = .key (key b)) : remoteOf bs = none :=
  List.findSome?_eq_none_iff.2 fun b hb => by rw [h b hb]

theorem Copy.releases_of_rel {w : CopyWrite} (hrel : c.blk.rel = true) (hb : w.bytes ≠ []) : c.releases w [] = true := by
  simp [Copy.releases, hrel, hb]

theorem State.beforeWrite_of_not_rel (hrel : c.blk.rel = false) (w : CopyWrite) : s.beforeWrite c w = s := by
  rw [State.beforeWrite, Copy.releases, hrel]
  rfl

/-- What precedes a write in scratchpad is nothing, or the write-back of its core. -/
theorem State.beforeWrite_scratch (h : s.Idle) {w : CopyWrite} (hw : ∀ b ∈ localOf w.bytes, isScratch b.1 = true) :
    (s.beforeWrite c w = s ∨ s.beforeWrite c w = s.writeBack c.core none) ∧
      (c.blk.rel = true → w.bytes ≠ [] → (scopeOfCode c.blk.scope).wide = true → s.beforeWrite c w = s.writeBack c.core none) := by
  have hks : ∀ k ∈ (localOf w.bytes).map (·.1), isScratch k = true := fun k hk => by
    obtain ⟨b, hb, rfl⟩ := List.mem_map.1 hk
    exact hw b hb
  refine ⟨?_, fun hrel hne hwide => ?_⟩
  · unfold State.beforeWrite
    split
    · cases hwide : (scopeOfCode c.blk.scope).wide with
      | true => exact .inr (State.engineRelease_of_wide h _ hwide _)
      | false => exact .inl (State.engineRelease_of_narrow _ hwide hks)
    · exact .inl rfl
  · rw [State.beforeWrite, if_pos (Copy.releases_of_rel hrel hne), State.engineRelease_of_wide h _ hwide]

section scratch

variable {w : CopyWrite} {key : CopyByte → Nat} (hc : s.copies.find? (fun x => x.id == c.id) = some c) (hst : c.started = true)
  (hw : c.writes = [w]) (hrv : c.rvKey = none) (hcl : s.claims = []) (hidle : s.Idle) (hm : Memory.wf s.mem)
  (hkey : ∀ b ∈ w.bytes, b.loc = .key (key b) ∧ isScratch (key b) = true ∧ s.still c.who (key b) 1 = true)

include hkey in
theorem State.byteGone_of_still : ∀ b ∈ w.bytes, s.byteGone c b = false := fun b hb => by
  obtain ⟨hloc, -, hstill⟩ := hkey b hb
  rw [State.byteGone, hloc]
  simp [hstill]

include hkey in
theorem localOf_scratch : ∀ b ∈ localOf w.bytes, isScratch b.1 = true := by
  rw [localOf_of_keys fun b hb => (hkey b hb).1]
  rintro b hb
  obtain ⟨x, hx, rfl⟩ := List.mem_map.1 hb
  obtain ⟨-, hscr, -⟩ := hkey x hx
  exact hscr

include hc hst hw hrv hcl hidle hm hkey

/-- A write in scratchpad is performed: its bytes are there, and before it, for a release, what its core holds dirty. -/
theorem exec_byteReport_scratch (hnd : (w.bytes.map key).Nodup) (hsent : c.blk.rel = false ∨ c.sentWrites = []) :
    ∃ s', exec (.streamerByteReport c.id false) s = .next s' ∧ (∀ b ∈ w.bytes, s'.mem.read (key b) = b.val) ∧
      (c.blk.rel = false → ∀ a, (∀ b ∈ w.bytes, key b ≠ a) → s'.mem.read a = s.mem.read a) ∧
      (c.blk.rel = true → w.bytes ≠ [] → (scopeOfCode c.blk.scope).wide = true → asorted s.l1 →
        ∀ k e, alook (l1Key c.core k) s.l1 = some e → k < 2 ^ 70 → isScratch k = false → e.dirty = true → e.rel ≤ s.clock →
          s'.mem.read k = e.val) ∧
      s'.copies.find? (fun x => x.id == c.id) = some ((c.wrote w).landed w) := by
  have hlocal := localOf_of_keys fun b hb => (hkey b hb).1
  have hscr := localOf_scratch hkey
  have hsent' : c.releases w [] = true → c.sentWrites = [] := fun h => hsent.resolve_left fun hrel => by
    simp [Copy.releases, hrel] at h
  have hexec := ((exec_byteReport_of_good (bad := false) hc hst hw hrv hcl nofun (State.byteGone_of_still hkey)).2 hsent').1
    (remoteOf_of_keys fun b hb => (hkey b hb).1)
  obtain ⟨hbefore, hwide⟩ := State.beforeWrite_scratch (c := c) hidle hscr
  have hz : (s.beforeWrite c w).Idle ∧ Memory.wf (s.beforeWrite c w).mem ∧ (s.beforeWrite c w).copies = s.copies := by
    obtain h | h := hbefore <;> rw [h]
    · exact ⟨hidle, hm, rfl⟩
    · exact ⟨hidle, State.wf_writeBack _ _ hm, rfl⟩
  obtain ⟨hzidle, hzwf, hzcopies⟩ := hz
  obtain ⟨hmem, hcopies, -⟩ := State.copyOut_scratch hzidle (c.wrote w) hscr
  have hread : ∀ a, (∀ b ∈ w.bytes, key b ≠ a) →
      ((s.beforeWrite c w).copyOut (c.wrote w) (localOf w.bytes)).mem.read a = (s.beforeWrite c w).mem.read a := fun a ha => by
    rw [hmem]
    refine Machine.read_putBytes_of_notMem _ hzwf fun b hb => ?_
    rw [hlocal] at hb
    obtain ⟨x, hx, rfl⟩ := List.mem_map.1 hb
    exact ha x hx
  refine ⟨_, hexec, fun b hb => ?_, fun hrel a ha => ?_, fun hrel hne hsc hs k e he hk hns hd hre => ?_, ?_⟩
  · show Memory.read (State.mem (State.copyOut ..)) _ = _
    rw [hmem, hlocal]
    refine read_putBytes_of_mem hzwf (List.mem_map.2 ⟨b, hb, rfl⟩) fun x hx hxk => ?_
    obtain ⟨y, hy, rfl⟩ := List.mem_map.1 hx
    rw [List.inj_on_of_nodup_map hnd hy hb hxk]
  · refine (hread a ha).trans ?_
    rw [State.beforeWrite_of_not_rel hrel]
  · refine (hread k fun b hb e => ?_).trans ?_
    · obtain ⟨-, hs', -⟩ := hkey b hb
      rw [e, hns] at hs'
      cases hs'
    · rw [hwide hrel hne hsc]
      exact (State.writeBack_of_leaves hs hm ⟨he, hk, hd, hre⟩ (.inl rfl)).1
  · refine State.find_modCopy (by rw [hcopies, hzcopies]; exact hc) fun y _ => ?_
    exact Copy.id_landed (c.wrote w) w

end scratch

/-! ### A write in another module (R343) -/

theorem State.meterLink_fab (s : State) (p n : Nat) : (s.meterLink p n).fab = s.fab := by
  unfold State.meterLink
  split <;> rfl

/-- A request that goes out is outstanding. -/
theorem State.mem_remotes_addRemote (s : State) (x : Remote) :
    ∃ n d k, ({ x with port := n, deadline := d, gen := k } : Remote) ∈ (s.addRemote x).fab.remotes := by
  unfold State.addRemote
  dsimp only
  generalize (if x.paddr / 2 ^ 44 = s.fab.domain then s.portOr x.mod x.port else none) = n
  refine ⟨n, s.us + 2000, (s.part x.part).gen, ?_⟩
  generalize hz : ({ s with fab := _ } : State) = z
  have hmem : ({ x with port := n, deadline := s.us + 2000, gen := (s.part x.part).gen } : Remote) ∈
      (z.meterLink x.part x.body.length).fab.remotes := by
    rw [State.meterLink_fab, ← hz]
    exact List.mem_append_right _ (List.mem_singleton_self _)
  split
  · cases n <;> exact hmem
  · exact hmem

section remote

variable {w : CopyWrite} {m pa : Nat} (hc : s.copies.find? (fun x => x.id == c.id) = some c) (hst : c.started = true)
  (hw : c.writes = [w]) (hrv : c.rvKey = none) (hcl : s.claims = []) (hidle : s.Idle)
  (hloc : ∀ (i : Nat) (b : CopyByte), w.bytes[i]? = some b → b.loc = .remote m (pa + i))

include hloc

theorem loc_of_mem_remote {b : CopyByte} (hb : b ∈ w.bytes) : ∃ i, b.loc = .remote m (pa + i) := by
  obtain ⟨i, hi⟩ := List.mem_iff_getElem?.1 hb
  exact ⟨i, hloc i b hi⟩

theorem localOf_remote : localOf w.bytes = [] := List.filterMap_eq_nil_iff.2 fun b hb => by
  obtain ⟨i, hi⟩ := loc_of_mem_remote hloc hb
  rw [hi]

theorem remoteOf_remote (hne : w.bytes ≠ []) : remoteOf w.bytes = some (m, pa) := by
  obtain ⟨b, bs, hbs⟩ := List.exists_cons_of_ne_nil hne
  have hb : b.loc = .remote m (pa + 0) := hloc 0 b (by rw [hbs]; rfl)
  rw [hbs, remoteOf, List.findSome?_cons, hb]
  rfl

include hc hst hw hrv hcl hidle

/-- A write of bytes in another module is one request to its place, and the module's memory is as it was. -/
theorem exec_byteReport_remote (hne : w.bytes ≠ []) (hrel : c.blk.rel = false) :
    ∃ s' x, exec (.streamerByteReport c.id false) s = .next s' ∧ x ∈ s'.fab.remotes ∧ x.purpose = .copy c.id w.id ∧ x.mod = m ∧
      x.paddr = pa ∧ x.body = w.bytes.map (·.val) ∧ x.type = c.flitType pa w.bytes.length ∧ s'.mem = s.mem ∧
      ∃ c', s'.copies.find? (fun y => y.id == c.id) = some c' ∧ c'.writes = [] ∧ c'.sentWrites = c.sentWrites ++ [w] := by
  have hgone : ∀ b ∈ w.bytes, s.byteGone c b = false := fun b hb => by
    obtain ⟨i, hi⟩ := loc_of_mem_remote hloc hb
    rw [State.byteGone, hi]
  have hnot : c.releases w [] = true → c.sentWrites = [] := fun h => by simp [Copy.releases, hrel] at h
  have hexec := ((exec_byteReport_of_good (bad := false) hc hst hw hrv hcl nofun hgone).2 hnot).2 m pa (remoteOf_remote hloc hne)
  rw [State.beforeWrite_of_not_rel hrel, localOf_remote hloc] at hexec
  obtain ⟨hmem, hcopies, -⟩ := State.copyOut_scratch hidle (c.wrote w) (bs := []) fun b hb => (List.not_mem_nil hb).elim
  generalize (s.copyOut (c.wrote w) []) = z at hexec hmem hcopies
  obtain ⟨f, p, hsent⟩ := State.fabOnly_addRemote z.takeId.2 (c.request w z.takeId.1 m pa)
  obtain ⟨n, d, k, hx⟩ := State.mem_remotes_addRemote z.takeId.2 (c.request w z.takeId.1 m pa)
  refine ⟨_, _, hexec, hx, rfl, rfl, rfl, rfl, rfl, ?_, { c.wrote w with sentWrites := c.sentWrites ++ [w] }, ?_, rfl, rfl⟩
  · show State.mem (State.addRemote ..) = _
    rw [hsent]
    exact hmem
  · refine State.find_modCopy ?_ fun y _ => rfl
    rw [hsent]
    exact (congrArg _ hcopies).trans hc

end remote

/-! ### Data found uncorrectable (R176, R178) -/

theorem Copy.code_failed (c : Copy) (code : Nat) (bl : List (Nat × Nat)) :
    (c.failed code bl).code = if c.code = 0 ∨ c.code = 7 then code else c.code := by
  unfold Copy.failed
  dsimp only
  split <;> rfl

theorem Copy.mem_lost_failed {c : Copy} {code : Nat} {bl : List (Nat × Nat)} {b : Nat × Nat} (h : b ∈ bl) : b ∈ (c.failed code bl).lost := by
  unfold Copy.failed
  dsimp only
  split
  · exact List.mem_append_right _ h
  · exact List.mem_append_left _ (List.mem_append_right _ h)

theorem Copy.bytes_failed {c : Copy} (code : Nat) (bl : List (Nat × Nat)) (h : c.writes.flatMap (fun x => x.bytes) = []) :
    (c.failed code bl).writes.flatMap (fun x => x.bytes) = [] := by
  unfold Copy.failed
  dsimp only
  split
  · exact h
  · rfl

/-- A command that loses the one byte of its one write. -/
theorem Copy.lose_one {w : CopyWrite} {b : CopyByte} (hw : c.writes = [w]) (hb : w.bytes = [b]) (code : Nat) {p : CopyByte → Bool}
    (hp : p b = true) : b.blk ∈ (c.lose code p).lost ∧ (c.lose code p).writes.flatMap (fun x => x.bytes) = [] ∧
      (c.lose code p).code = if c.code = 0 ∨ c.code = 7 then code else c.code := by
  have hgone : (c.writes.flatMap fun w => (w.bytes.filter p).map (·.blk)).dedup = [b.blk] := by simp [hw, hb, hp]
  have hkept : (c.writes.map fun w => { w with bytes := w.bytes.filter fun b => !p b }) = [{ w with bytes := [] }] := by
    simp [hw, hb, hp]
  unfold Copy.lose
  dsimp only
  rw [hgone, hkept]
  exact ⟨Copy.mem_lost_failed (List.mem_singleton_self _), Copy.bytes_failed _ _ rfl, Copy.code_failed ..⟩

/-- The one byte of a write that was read from no codeword is lost, or its row. -/
theorem State.copyBad_one {b : CopyByte} (hsrc : b.src = none) : s.copyBad c [b] =
    s.modCopy c.id fun c => c.lose 3 fun x => if c.blk.rowwise then x.row == b.row else x.blk == b.blk := by
  simp [State.copyBad, hsrc]

theorem Copy.id_lose (c : Copy) (code : Nat) (p : CopyByte → Bool) : (c.lose code p).id = c.id := Copy.id_failed ..

theorem Copy.doubtful_of_notMem {w : CopyWrite} {b : CopyByte} (hb : w.bytes = [b]) (hrow : c.blk.rowwise = true → b.row ∉ c.rowsOut) :
    c.doubtful w = [b] := by
  have hkeep : (!(c.blk.rowwise && c.rowsOut.contains b.row)) = true := by
    cases h : c.blk.rowwise with
    | false => rfl
    | true => simpa using hrow h
  rw [Copy.doubtful, hb]
  refine List.filter_eq_self.2 fun x hx => ?_
  rw [List.mem_singleton.1 hx]
  exact hkeep

theorem Copy.doubtful_of_out {w : CopyWrite} (hrw : c.blk.rowwise = true) (hrow : ∀ b ∈ w.bytes, b.row ∈ c.rowsOut) : c.doubtful w = [] :=
  List.filter_eq_nil_iff.2 fun b hb => by simp [hrw, hrow b hb]

/-- Where no data are in doubt a write is as good as it was read. -/
theorem exec_byteReport_of_out {w : CopyWrite} (hc : s.copies.find? (fun x => x.id == c.id) = some c) (hst : c.started = true)
    (hw : c.writes = [w]) (hd : c.doubtful w = []) :
    exec (.streamerByteReport c.id true) s = exec (.streamerByteReport c.id false) s := by
  rw [exec_streamerByteReport, exec_streamerByteReport, execStreamerByteReport, execStreamerByteReport, hc]
  simp only [hst, hw, takeNth, List.length_singleton, if_true, List.getElem?_cons_zero, Option.map_some, hd, List.isEmpty_nil,
    Bool.not_true, Bool.and_false]

/-! ### Completion (R177, R178) -/

theorem State.tryReady_of_running {r : TRef} (ht : s.thread r = some t) (hst : t.status = .running) : s.tryReady r = s := by
  rw [State.tryReady, ht]
  simp only [hst, ite_self]

/-- Values that arrive for a running thread outside its handler are in its registers. -/
theorem State.thread_arrive_of_running {r : TRef} (ht : s.thread r = some t) (hst : t.status = .running) (hf : t.arch.frame = none)
    (seq d : Nat) (v : RegVal) : ∃ t', (s.arrive r seq [(d, { val := v })] .copies).thread r = some t' ∧ t'.copies = t.copies - 1 ∧
      t'.arch.reg d = v ∧ t'.busy = t.busy.erase d := by
  have harch : (t.arch.arrive seq [(d, { val := v })]).reg d = v := by
    simp [Arch.arrive, hf, Arch.reg, RegFile.setAll, RegFile.set, RegFile.get]
  unfold State.arrive
  rw [State.modThread_of_some ht]
  dsimp only
  generalize hu : (Thread.count _ .copies _ : Thread) = u
  generalize hz : ({ s.setThread r u with held := _ } : State) = z
  have hzt : z.thread r = some u := by
    rw [← hz]
    exact State.thread_setThread ..
  rw [State.tryReady_of_running hzt (by rw [← hu]; exact hst)]
  exact ⟨u, hzt, by rw [← hu]; rfl, by rw [← hu]; exact harch, by rw [← hu]; rfl⟩

theorem State.arrive_frame (s : State) (r : TRef) (seq : Nat) (ws : List (Nat × Reg)) (cl : Cls) :
    (s.arrive r seq ws cl).mem = s.mem ∧ (s.arrive r seq ws cl).copies = s.copies := by
  unfold State.arrive
  obtain ⟨th, qs, h⟩ := State.threadsQuads_tryReady ({ s.modThread r _ with held := _ } : State) r
  rw [h]
  exact ⟨State.modThread_mem .., State.modThread_copies ..⟩

/-- The command without anything left to write hands its status over and is gone. -/
theorem exec_copyComplete_of_done (hc : s.copies.find? (fun x => x.id == c.id) = some c) (hst : c.started = true) (hw : c.writes = [])
    (hsent : c.sentWrites = []) (hred : c.reducing = false) (hcomp : c.comp = 0) (hrel : c.blk.rel = false) (hcp : c.blk.cp = false) :
    ∃ y : State, exec (.copyComplete c.id) s = .next (y.arrive c.who c.seq [(c.d, { val := regN32 c.status })] .copies) ∧
      y.threads = s.threads ∧ y.mem = s.mem ∧ ∀ x ∈ y.copies, x.id ≠ c.id := by
  have hfind := State.find_modCopy hc (f := fun y => { y with comp := 2 }) fun y hy => hy
  rw [exec_copyComplete, execCopyComplete, hc]
  simp only [hst, hw, hsent, hred, hcomp, hrel, hcp, Bool.not_true, List.isEmpty_nil, Bool.or_self, Bool.and_false, Bool.false_and,
    Bool.false_eq_true, if_false, hfind]
  refine ⟨_, rfl, rfl, rfl, fun x hx => ?_⟩
  obtain ⟨-, hx⟩ := List.mem_filter.1 hx
  simpa using hx

/-- Settles O47: the next command of a channel, its last write, and its completion. -/
theorem commandsRun : Obligations.CommandsRun := by
  unfold Obligations.CommandsRun
  intro s c t g hg ht hw hp hm
  refine ⟨exec_channelStart_of_none, exec_channelStart_of_full, exec_channelStart_of_waits, fun hn hroom hwaits =>
    exec_channelStart_of_goes hn hroom hg hwaits, fun hc hst => ⟨fun w hwr hrv hcl => ⟨fun key hkey hnd => ?_, ?_, ?_, ?_⟩, ?_⟩⟩
  · intro sat c'
    refine ⟨fun hrel hne hsent => ?_, fun hsent => ?_⟩
    · exact (exec_byteReport_of_good (bad := false) hc hst hwr hrv hcl nofun (State.byteGone_of_still hkey)).1 (Copy.releases_of_rel hrel hne) hsent
    · obtain ⟨s', hexec, hread, hothers, hwide, hfind⟩ := exec_byteReport_scratch hc hst hwr hrv hcl ⟨hw, hp⟩ hm hkey hnd hsent
      refine ⟨s', hexec, hread, hothers, hwide, hfind.trans ?_⟩
      cases hfail : w.fail with
      | none => exact congrArg some (Copy.landed_of_none hfail)
      | some code => exact congrArg some (Copy.landed_of_some hfail)
  · intro m pa hne hrel hloc
    exact exec_byteReport_remote hc hst hwr hrv hcl ⟨hw, hp⟩ hloc hne hrel
  · intro b hb hsrc hrow _
    have hd := Copy.doubtful_of_notMem hb hrow
    have hexec := exec_byteReport_of_bad hc hst hwr hrv hcl (by rw [hd]; exact List.cons_ne_nil _ _)
    rw [hd, State.copyBad_one hsrc] at hexec
    refine ⟨_, _, hexec, rfl, State.find_modCopy hc fun y hy => (Copy.id_lose ..).trans hy, ?_⟩
    exact Copy.lose_one hwr hb 3 (by split <;> simp)
  · intro _ hrw hrow
    exact exec_byteReport_of_out hc hst hwr (Copy.doubtful_of_out hrw hrow)
  · intro hwr hsent hred hcomp hrel hcp hrun hf
    obtain ⟨y, hexec, hthreads, hmem, hcopies⟩ := exec_copyComplete_of_done hc hst hwr hsent hred hcomp hrel hcp
    have hty : y.thread c.who = some t := by rw [State.thread, hthreads]; exact ht
    obtain ⟨t', ht', hcount, hreg, hbusy⟩ := State.thread_arrive_of_running hty hrun hf c.seq c.d (regN32 c.status)
    obtain ⟨hmem', hcopies'⟩ := y.arrive_frame c.who c.seq [(c.d, { val := regN32 c.status })] .copies
    exact ⟨_, t', hexec, ht', hcount, hreg, hbusy, hcopies'.symm ▸ hcopies, hmem'.trans hmem⟩

end Sys2Proof.Machine
end

section
/-! PROOFS. An arrival at a rendezvous word that the write-back before it changes (12_matrix.md R208, R209). -/

namespace Sys2Proof.Machine

/-- An MMA of no chunk that releases at DV and makes its arrival at the first word of its core's scratchpad. -/
def lastMma : TileOp :=
  { id := 0, who := { wg := 0, tid := 0 }, seq := 0, run := 0, wg := 0, core := 0, sup := false,
    cmd := { op := .mma, d := 0, words := [], block := List.replicate 0x18 0 ++ [0x00, 0x34] }, td := {}, ta := {}, tb := {},
    phase := .running, pass := 0, failed := false, stores := [], plan := {}, rel := 0 }

/-- A state in which the rendezvous word is 0 and the L1 of the core has its first byte dirty. -/
def arriving : State :=
  { State.reset with
    threads := [(0, fetchThread false .running)], wgs := [(0, fetchWg)], tileOps := [lastMma]
    l1 := [(l1Key 0 (2 ^ 61), { val := 1, dirty := true, rel := 0, due := 0 })] }

theorem arriving_find : arriving.tileOps.find? (fun x => x.id == lastMma.id) = some lastMma := by decide

theorem arriving_wg : arriving.wg lastMma.wg = some fetchWg := rfl

theorem arriving_thread : arriving.thread { wg := 0, tid := 0 } = some (fetchThread false .running) := rfl

theorem arriving_tileDone : arriving.tileDone lastMma = true := by decide

theorem arriving_scratchAt : arriving.scratchAt fetchWg (MmaBlock.parse lastMma.cmd.block).rvaddr 16 = .ok (2 ^ 61) := by decide

theorem arriving_rvRead : arriving.rvRead (2 ^ 61) = { phase := false, arrivals := 0, bytes := 0 } := by decide

/-- After the completion the rendezvous word has the byte that the L1 had. -/
theorem arriving_memAfter : (memAfter (.tileOpComplete 0 false) arriving).readN (2 ^ 61) 8 = [1, 0, 0, 0, 0, 0, 0, 0] := by decide

/-- Refutes O48 at its clause on the arrival of an MMA whose word has no arrivals left, that the word stays as it is: the release before the
arrival writes back what the core's L1 holds dirty, and nothing there says that those are not bytes of the word. -/
theorem not_arrayRuns : ¬ Obligations.ArrayRuns := by
  unfold Obligations.ArrayRuns
  rintro ⟨h, -⟩
  obtain ⟨-, -, -, -, -, -, hdone⟩ := h arriving lastMma fetchWg arriving_find arriving_wg
  obtain ⟨-, -, hends, -⟩ := hdone arriving_tileDone rfl
  have hstores : ∀ q ∈ arriving.stores, q.monitor = false := fun _ hq => (List.not_mem_nil hq).elim
  obtain ⟨harrive, -⟩ := hends (fetchThread false .running) arriving_thread rfl rfl Memory.wf_nil rfl hstores (List.pairwise_singleton _ _)
  obtain ⟨s', hexec, hheld, -⟩ := harrive (2 ^ 61) rfl rfl (by decide) arriving_scratchAt le_rfl fun _ hq => (List.not_mem_nil hq).elim
  obtain ⟨hword, -⟩ := hheld (by rw [arriving_rvRead])
  rw [arriving_rvRead, State.rvRead, ← memAfter_of_next hexec] at hword
  exact absurd hword (by rw [show lastMma.id = 0 from rfl, arriving_memAfter]; decide)

end Sys2Proof.Machine
end

section
/-! PROOFS. Copies, SYNC and QUEUE instructions when issued (11_streamers.md R178 to R180, R185, R189 to R191, R194): the faults that
they have, the command that they keep for the commit, and the stall for an entry of the wait table. -/

namespace Sys2Proof.Machine

variable {s : State} {r : TRef} {t : Thread} {g : Wg} {u : Use}

/-- A committing instruction that has to wait stalls, its run open (R115). -/
theorem commitForm_of_wait {f : TRef → Thread → Wg → State → Cap} (h : Accessing s r t g u.reads u.writes u.cls u.counts)
    (hs : u.slice = .exec) (hn : u.names = []) (hp : u.priv = true → t.arch.sup = true) (he : u.ends = false) (hg : u.guards = false)
    (hf : f r t g s = .wait) : commitForm u f s = .next (s.stallRun r t) := by
  rw [commitForm, State.lane_of_accessing (u := { u with commits := true }) h hs hn hp he hg, hf]
  simp only [State.capture, h.thread]

/-- What the capture of a committing instruction of the form that COPY, SYNC and QUEUE have comes to. -/
theorem commitForm_eq {f : TRef → Thread → Wg → State → Cap} {rd wr : List Nat} {c : Cls} (h : Accessing s r t g rd wr c) :
    (∀ x, f r t g s = .ok x → commitForm { reads := rd, writes := wr, cls := c } f s = .next (captured s r t x)) ∧
    (∀ e, f r t g s = .fault e → commitForm { reads := rd, writes := wr, cls := c } f s = .next (s.takeFault r e t.run.count)) ∧
    (f r t g s = .wait → commitForm { reads := rd, writes := wr, cls := c } f s = .next (s.stallRun r t)) :=
  ⟨fun _ hx => commitForm_of_ok (u := { reads := rd, writes := wr, cls := c }) h rfl rfl nofun rfl rfl rfl hx,
    fun _ he => commitForm_of_fault (u := { reads := rd, writes := wr, cls := c }) h rfl rfl nofun rfl rfl he,
    commitForm_of_wait (u := { reads := rd, writes := wr, cls := c }) h rfl rfl nofun rfl rfl⟩

/-! ### COPY (R178, R179) -/

/-- COPY in a thread outside the producers, with a block that cannot be read, with one of its ensemble and with one of a lodge. -/
theorem copyForm_outcomes {kind d a : Nat} (h : Accessing s r t g [a] [d] .copies) :
    let w := (t.arch.reg a).bits
    (r.tid < g.pfirst ∨ g.pfirst + g.plen ≤ r.tid → copyForm kind d a s = .next (faulted s r t .producer)) ∧
    (g.pfirst ≤ r.tid → r.tid < g.pfirst + g.plen →
      (∀ f, s.blockAt r w 64 64 .blockRead = .error f → copyForm kind d a s = .next (s.takeFault r f t.run.count)) ∧
      (∀ k, s.blockAt r w 64 64 .blockRead = .ok k → (∃ h ∈ s.ensemble g, h.holds k 64 = true) → copyForm kind d a s = .next (captured s r t
        { op := .copy kind, d := d, words := if t.arch.sup then [1] else [], loc := some (.key k), addr := w.setWidth 64, dests := [d],
          cls := .copies })) ∧
      (∀ k, s.blockAt r w 64 64 .blockRead = .ok k → (∀ h ∈ s.ensemble g, h.holds k 64 = false) →
        copyForm kind d a s = .next (s.takeFault r (faultAt .prot (w.setWidth 64) .blockRead true) t.run.count))) := by
  refine ⟨fun hout => ?_, fun hlo hhi => ⟨fun f hf => ?_, fun k hk hin => ?_, fun k hk hout => ?_⟩⟩
  · have : ¬ (g.pfirst ≤ r.tid ∧ r.tid < g.pfirst + g.plen) := by omega
    exact (commitForm_eq h).2.1 _ (by simp [this])
  · exact (commitForm_eq h).2.1 _ (by simp [hlo, hhi, hf])
  · have hany : ((s.ensemble g).any fun w => w.holds k 64) = true := by simpa using hin
    exact (commitForm_eq h).1 _ (by simp [hlo, hhi, hk, hany])
  · have hany : ((s.ensemble g).any fun w => w.holds k 64) = false := by simpa using hout
    exact (commitForm_eq h).2.1 _ (by simp [hlo, hhi, hk, hany])

/-! ### SYNC (R185) -/

/-- A SYNC form whose 16 bytes cannot be reached, whose count is out of its range, that is kept, and that stalls for an entry. -/
theorem syncForm_outcomes {op : CmdOp} {d a : Nat} {b : Option Nat} {ranged : Bool} (h : Accessing s r t g (a :: b.toList) [d] .loads) :
    let w := (t.arch.reg a).bits
    let v := (b.map fun x => (t.arch.reg x).bits).toList
    let out := ranged && v.any fun x => x.toNat == 0 || decide (2 ^ 23 ≤ x.toNat)
    let room := s.monitorRoom (s.coreOf r) 1
    (∀ f, s.blockAt r w 8 16 .atomic = .error f → syncForm op d a b ranged s = .next (s.takeFault r f t.run.count)) ∧
    (∀ k, s.blockAt r w 8 16 .atomic = .ok k →
      (out = true → syncForm op d a b ranged s = .next (faulted s r t .queue)) ∧
      (out = false →
        (room = true ∨ op = .rvinit → syncForm op d a b ranged s = .next (captured s r t
          { op := op, d := d, words := v, loc := some (.key k), dests := [d], cls := .loads })) ∧
        (room = false → op ≠ .rvinit → syncForm op d a b ranged s = .next (s.stallRun r t)))) := by
  intro w v out room
  refine ⟨fun f hf => ?_, fun k hk => ⟨fun hout => ?_, fun hout => ⟨fun hroom => ?_, fun hroom hop => ?_⟩⟩⟩
  · exact (commitForm_eq h).2.1 _ (by simp only [w] at hf; simp only [hf])
  · exact (commitForm_eq h).2.1 _ (by simp only [w] at hk; simp only [out, v] at hout; simp only [hk, hout, if_true])
  · have hgo : (op != .rvinit && !room) = false := by
      rcases hroom with hroom | rfl
      · simp [hroom]
      · rfl
    exact (commitForm_eq h).1 _ (by
      simp only [w] at hk; simp only [out, v] at hout; simp only [room] at hgo; simp only [hk, hout, hgo, Bool.false_eq_true, if_false, v])
  · have hgo : (op != .rvinit && !room) = true := by simp [hroom, hop]
    exact (commitForm_eq h).2.2 (by
      simp only [w] at hk; simp only [out, v] at hout; simp only [room] at hgo; simp only [hk, hout, hgo, Bool.false_eq_true, if_false, if_true])

/-- A count of arrivals out of its range (R185). -/
theorem arrivals_out_iff (n : Word) : ([n].any fun x => x.toNat == 0 || decide (2 ^ 23 ≤ x.toNat)) = true ↔ n.toNat = 0 ∨ 2 ^ 23 ≤ n.toNat := by
  simp

/-! ### QUEUE (R189 to R191, R194) -/

/-- The pair of an eight-byte element, or the one register of another. -/
def elemRegs (g : Wg) (q x : Nat) : List Nat := if ((g.qc q).es && !g.isOq q && x % 2 == 0) = true then [x, x + 1] else [x]

/-- A qtry form waits while an acquire before it is outstanding (log entry 34). -/
def tryWaits (t : Thread) (op : CmdOp) : Bool := !t.acq.isEmpty && (op == .qtrypush || op == .qtrypop)

/-- A push finds its queue unfit, is kept, or stalls. -/
theorem pushForm_outcomes {op : CmdOp} {pr d q a : Nat} (h : Accessing s r t g (elemRegs g q a) [d] .stores) :
    let unfit := g.isOq q || !(g.qc q).v || ((g.qc q).es && a % 2 == 1)
    let stalls := !(s.monitorRoom (s.coreOf r) 1) || tryWaits t op
    (unfit = true → pushForm op pr d q a s = .next (faulted s r t .queue)) ∧
    (unfit = false → stalls = false → pushForm op pr d q a s = .next (captured s r t
      { op := op, d := d, p := q, words := [(t.arch.reg a).bits, (t.arch.reg (a + 1)).bits, BitVec.ofNat 32 pr], dests := [d],
        cls := .stores })) ∧
    (unfit = false → stalls = true → pushForm op pr d q a s = .next (s.stallRun r t)) := by
  have hcur : (s.cur.bind fun r => s.wg r.wg) = some g := by rw [h.cur, Option.bind_some, h.wg]
  unfold pushForm
  simp only [hcur]
  refine ⟨fun hu => (commitForm_eq h).2.1 _ ?_, fun hu hs => (commitForm_eq h).1 _ ?_, fun hu hs => (commitForm_eq h).2.2 ?_⟩
  · simp only [hu, if_true]
  · simp only [tryWaits] at hs
    simp only [State.queueRoom, hu, hs, Bool.false_eq_true, if_false]
  · simp only [tryWaits] at hs
    simp only [State.queueRoom, hu, hs, Bool.false_eq_true, if_false, if_true]

/-- A pop names no valid tag, finds its queue unfit or its operand queue's fault, is kept, or stalls. -/
theorem popForm_outcomes {op : CmdOp} {pr d q a : Nat} (h : Accessing s r t g [a] (elemRegs g q d) .loads) :
    let valid := validTag ((t.arch.reg a).bits.setWidth 16 : Half).toNat
    let unfit := !g.isOq q && (!(g.qc q).v || ((g.qc q).es && d % 2 == 1))
    let fault := if g.isOq q then s.oqFault r q else none
    let stalls := !(s.monitorRoom (s.coreOf r) 1) || tryWaits t op
    (valid = false → popForm op pr d q a s = .next (faulted s r t .tag)) ∧
    (valid = true → unfit = true → popForm op pr d q a s = .next (faulted s r t .queue)) ∧
    (∀ f, valid = true → unfit = false → fault = some f → popForm op pr d q a s = .next (s.takeFault r f t.run.count)) ∧
    (valid = true → unfit = false → fault = none →
      (stalls = false → popForm op pr d q a s = .next (captured s r t
        { op := op, d := d, p := q, words := [(t.arch.reg a).bits, 0, BitVec.ofNat 32 pr], dests := elemRegs g q d, cls := .loads })) ∧
      (stalls = true → popForm op pr d q a s = .next (s.stallRun r t))) := by
  have hcur : (s.cur.bind fun r => s.wg r.wg) = some g := by rw [h.cur, Option.bind_some, h.wg]
  unfold popForm
  simp only [hcur]
  refine ⟨fun hv => (commitForm_eq h).2.1 _ ?_, fun hv hu => (commitForm_eq h).2.1 _ ?_, fun f hv hu hf => (commitForm_eq h).2.1 _ ?_,
    fun hv hu hf => ⟨fun hs => (commitForm_eq h).1 _ ?_, fun hs => (commitForm_eq h).2.2 ?_⟩⟩
  · simp only [hv, Bool.not_false, if_true]
  · simp only [hv, hu, Bool.not_true, Bool.false_eq_true, if_false, if_true]
  · simp only [hv, hu, hf, Bool.not_true, Bool.false_eq_true, if_false]
  · simp only [tryWaits] at hs
    simp only [State.queueRoom, hv, hu, hf, hs, Bool.not_true, Bool.false_eq_true, if_false, elemRegs]
  · simp only [tryWaits] at hs
    simp only [State.queueRoom, hv, hu, hf, hs, Bool.not_true, Bool.false_eq_true, if_false, if_true]

/-- The fields of QINIT's descriptor (R190). -/
theorem qinit_fields (x : DWord) : (if x.toNat / 2 ^ 36 % 2 = 1 then 8 else 4) = (if x.getLsbD 36 then 8 else 4) ∧
    BitVec.ofNat 32 x.toNat = (x.setWidth 32 : Word) ∧ BitVec.ofNat 32 (x.toNat / 2 ^ 32) = ((x >>> 32).setWidth 32 : Word) := by
  have hbit : x.getLsbD 36 = decide (x.toNat / 2 ^ 36 % 2 = 1) := by
    rw [BitVec.getLsbD, Nat.testBit_eq_decide_div_mod_eq]
  refine ⟨by rw [hbit]; simp only [decide_eq_true_eq], BitVec.eq_of_toNat_eq (by simp), BitVec.eq_of_toNat_eq (by simp [Nat.shiftRight_eq_div_pow])⟩

/-- QINIT whose storage cannot be reached, lies in no scratchpad of its ensemble, has a bad descriptor, and that is kept (R190). -/
theorem execQinit_outcomes {d q a : Nat} (h : Accessing s r t g [a, a + 1] [d] .none) :
    let x := t.arch.pair a
    let ld := x.toNat / 2 ^ 32 % 16
    let base : Word := x.setWidth 32
    let elem := if x.getLsbD 36 then 8 else 4
    let len := 2 ^ min ld 12 * elem
    (∀ f, s.blockAt r base elem len .store = .error f → execQinit d q a s = .next (s.takeFault r f t.run.count)) ∧
    (∀ k, s.blockAt r base elem len .store = .ok k → (∀ h ∈ s.ensemble g, h.holds k len = false) →
      execQinit d q a s = .next (s.takeFault r (faultAt .prot (base.setWidth 64) .store true) t.run.count)) ∧
    (∀ k, s.blockAt r base elem len .store = .ok k → (∃ h ∈ s.ensemble g, h.holds k len = true) →
      (2 ^ 37 ≤ x.toNat ∨ 12 < ld ∨ g.isOq q = true → execQinit d q a s = .next (faulted s r t .queue)) ∧
      (x.toNat < 2 ^ 37 → ld ≤ 12 → g.isOq q = false → execQinit d q a s = .next (captured s r t
        { op := .qinit, d := d, p := q, words := [base, (x >>> 32).setWidth 32], loc := some (.key k), dests := [d] }))) := by
  obtain ⟨helem, hbase, hhi⟩ := qinit_fields (t.arch.pair a)
  have hwide : (t.arch.pair a).toNat / 2 ^ 37 ≠ 0 ↔ 2 ^ 37 ≤ (t.arch.pair a).toNat := by omega
  intro x ld base elem len
  unfold execQinit
  refine ⟨fun f hf => (commitForm_eq h).2.1 _ ?_, fun k hk hout => (commitForm_eq h).2.1 _ ?_, fun k hk hin =>
    ⟨fun hbad => (commitForm_eq h).2.1 _ ?_, fun hx hld hq => (commitForm_eq h).1 _ ?_⟩⟩ <;>
    dsimp only <;> rw [helem, hbase]
  · simp only [x, base, elem, len, ld] at hf
    rw [hf]
  · have hany : ((s.ensemble g).any fun w => w.holds k len) = false := by simpa using hout
    simp only [x, base, elem, len, ld] at hk hany
    rw [hk]
    simp only [hany, Bool.not_false, if_true, x, base]
  · have hany : ((s.ensemble g).any fun w => w.holds k len) = true := by simpa using hin
    simp only [x, base, elem, len, ld] at hk hany hbad
    rw [hk]
    simp only [hany, Bool.not_true, Bool.false_eq_true, if_false, hwide, if_pos hbad]
  · have hany : ((s.ensemble g).any fun w => w.holds k len) = true := by simpa using hin
    have hgood : ¬ (2 ^ 37 ≤ x.toNat ∨ 12 < ld ∨ g.isOq q = true) := by
      rw [hq]
      simp only [Bool.false_eq_true, or_false, not_or]
      omega
    simp only [x, base, elem, len, ld] at hk hany hgood
    rw [hk, hhi]
    simp only [hany, Bool.not_true, Bool.false_eq_true, if_false, hwide, if_neg hgood, x, base]

/-- QLEN of an operand queue or of a queue that is initialised, and of one that is not (R191). -/
theorem execQlen_outcomes {d q : Nat} (h : Accessing s r t g [] [d] .none) :
    (g.isOq q = true ∨ (g.qc q).v = true → execQlen d q s = .next (captured s r t { op := .qlen, d := d, p := q, dests := [d] })) ∧
    (g.isOq q = false → (g.qc q).v = false → execQlen d q s = .next (faulted s r t .queue)) := by
  refine ⟨fun hq => (commitForm_eq h).1 _ ?_, fun hq hv => (commitForm_eq h).2.1 _ ?_⟩
  · have hfit : (g.isOq q || (g.qc q).v) = true := by simpa using hq
    simp only [hfit, Bool.not_true, Bool.false_eq_true, if_false]
  · simp only [hq, hv, Bool.or_self, Bool.not_false, if_true]

/-- Settles O27: every form's outcomes are those of its kind, for its own operation. -/
theorem enginesWhenIssued : Obligations.EnginesWhenIssued := by
  unfold Obligations.EnginesWhenIssued
  constructor
  · intro s r t g d a b w n copy room sync
    refine ⟨fun h => ?_, fun h => ?_, fun h => ?_⟩
    · exact ⟨copyForm_outcomes h, copyForm_outcomes h, copyForm_outcomes h, copyForm_outcomes h, copyForm_outcomes h, copyForm_outcomes h,
        copyForm_outcomes h, copyForm_outcomes h, copyForm_outcomes h, copyForm_outcomes h, copyForm_outcomes h⟩
    · have hsync : ∀ (i : Instr) (op : CmdOp) (ranged : Bool), exec i s = syncForm op d a (some b) ranged s → sync i op [n] ranged := by
        intro i op ranged hi
        obtain ⟨hfault, hgo⟩ := syncForm_outcomes (op := op) (b := some b) (ranged := ranged) h
        simp only [sync, Captures, hi]
        refine ⟨hfault, fun k hk => ⟨fun hr hn => (hgo k hk).1 ?_, fun hn => (hgo k hk).2 ?_⟩⟩
        · rw [hr, Bool.true_and]
          exact (arrivals_out_iff n).2 hn
        · rcases hn with hr | ⟨hn0, hn1⟩
          · rw [hr, Bool.false_and]
          · have : ¬ (n.toNat = 0 ∨ 2 ^ 23 ≤ n.toNat) := by omega
            exact Bool.and_eq_false_imp.2 fun _ => Bool.eq_false_iff.2 (mt (arrivals_out_iff n).1 this)
      exact ⟨hsync _ _ _ rfl, hsync _ _ _ rfl, hsync _ _ _ rfl, hsync _ _ _ rfl⟩
    · have hsync : ∀ (i : Instr) (op : CmdOp), exec i s = syncForm op d a none false s → sync i op [] false := by
        intro i op hi
        obtain ⟨hfault, hgo⟩ := syncForm_outcomes (op := op) (b := none) (ranged := false) h
        simp only [sync, Captures, hi]
        exact ⟨hfault, fun k hk => ⟨nofun, fun _ => (hgo k hk).2 rfl⟩⟩
      exact ⟨hsync _ _ rfl, hsync _ _ rfl⟩
  · intro s r t g pr d q a x ld base elem c w wide push pop
    refine ⟨fun h => execQinit_outcomes h, fun h => execQlen_outcomes h, fun h hq => ?_, fun h hq => ?_, fun h => ?_⟩
    · have hpush : ∀ (i : Instr) (op : CmdOp) (p : Nat) (tr : Bool), exec i s = pushForm op p d q a s →
          (op == .qtrypush || op == .qtrypop) = tr → push i op p tr := by
        intro i op p tr hi htr
        obtain ⟨hunfit, hkept, hstalls⟩ := pushForm_outcomes (op := op) (pr := p) h
        simp only [tryWaits, htr, hq, Bool.false_or] at hunfit hkept hstalls
        simp only [push, Captures, hi]
        refine ⟨fun hc => hunfit ?_, fun hv he hroom hacq => hkept ?_ ?_, fun hv he hstall => hstalls ?_ ?_⟩
        · simpa using hc
        · simpa [c, hv] using he
        · simpa [hroom] using fun hne => Bool.eq_false_iff.2 (mt hacq hne)
        · simpa [c, hv] using he
        · simpa [and_comm] using hstall
      exact ⟨hpush _ _ _ _ rfl rfl, hpush _ _ _ _ rfl rfl⟩
    · have hone : elemRegs g q a = [a] := by simp [elemRegs, hq]
      rw [← hone] at h
      exact ⟨(pushForm_outcomes h).1 (by simp [hq]), (pushForm_outcomes h).1 (by simp [hq])⟩
    · have hpop : ∀ (i : Instr) (op : CmdOp) (p : Nat) (tr : Bool), exec i s = popForm op p d q a s →
          (op == .qtrypush || op == .qtrypop) = tr → pop i op p tr := by
        intro i op p tr hi htr
        obtain ⟨htag, hunfit, hfault, hgo⟩ := popForm_outcomes (op := op) (pr := p) h
        have hvalid : validTag ((t.arch.reg a).bits.setWidth 16 : Half).toNat = validTag (w.toNat % 65536) := by simp [w]
        simp only [tryWaits, htr, hvalid] at htag hunfit hfault hgo
        simp only [pop, Captures, hi]
        refine ⟨htag, fun hv hq hc => hunfit hv ?_, fun hv hc => ?_, fun f hv hq hf => hfault f hv ?_ ?_⟩
        · simpa [hq] using hc
        · obtain ⟨hkept, hstalls⟩ := hgo hv (by
            obtain ⟨hq, hv, he⟩ | ⟨hq, -⟩ := hc
            · simpa [hq, c, hv] using he
            · simp [hq]) (by
            obtain ⟨hq, -⟩ | ⟨hq, hf⟩ := hc
            · simp [hq]
            · simp [hq, hf])
          refine ⟨fun hroom hacq => hkept ?_, fun hstall => hstalls ?_⟩
          · simpa [hroom] using fun hne => Bool.eq_false_iff.2 (mt hacq hne)
          · simpa [and_comm] using hstall
        · simp [hq]
        · simp [hq, hf]
      exact ⟨hpop _ _ _ _ rfl rfl, hpop _ _ _ _ rfl rfl⟩

end Sys2Proof.Machine
end

section
/-! SUPPORT. Values that arrive for a running thread, bytes read back, full/empty bits, and what the operations of a rendezvous word
change (11_streamers.md R181, R182). -/

namespace Sys2Proof.Machine

variable {s z : State} {r : TRef} {t : Thread}

/-! ### Values that arrive (R117, R118) -/

/-- A thread with the values that have arrived for a run. -/
def Thread.arrived (t : Thread) (seq : Nat) (ws : List (Nat × Reg)) (c : Cls) : Thread :=
  ({ t with arch := t.arch.arrive seq ws
            busy := ws.foldl (fun (b : List Nat) (w : Nat × Reg) => b.erase w.1) t.busy
            run := if seq < t.seq then { t.run with snap := t.run.snap.arrive seq ws } else t.run } : Thread).count c (· - 1)

/-- Nothing but threads, quadrants and committed runs differs. -/
def State.SameMemory (s z : State) : Prop := ∃ th qs hs, z = { s with threads := th, quads := qs, held := hs }

theorem State.SameMemory.trans {y : State} (h : s.SameMemory z) (h' : z.SameMemory y) : s.SameMemory y := by
  obtain ⟨th, qs, hs, rfl⟩ := h
  obtain ⟨th', qs', hs', rfl⟩ := h'
  exact ⟨th', qs', hs', rfl⟩

section

variable (h : s.SameMemory z)
include h

theorem State.SameMemory.mem : z.mem = s.mem := by obtain ⟨th, qs, hs, rfl⟩ := h; rfl
theorem State.SameMemory.full : z.full = s.full := by obtain ⟨th, qs, hs, rfl⟩ := h; rfl
theorem State.SameMemory.rvHolds : z.rvHolds = s.rvHolds := by obtain ⟨th, qs, hs, rfl⟩ := h; rfl
theorem State.SameMemory.rvOpen : z.rvOpen = s.rvOpen := by obtain ⟨th, qs, hs, rfl⟩ := h; rfl
theorem State.SameMemory.waiters : z.waiters = s.waiters := by obtain ⟨th, qs, hs, rfl⟩ := h; rfl
theorem State.SameMemory.wgs : z.wgs = s.wgs := by obtain ⟨th, qs, hs, rfl⟩ := h; rfl
theorem State.SameMemory.idle (hs : s.Idle) : z.Idle := by obtain ⟨th, qs, hs, rfl⟩ := h; assumption

end

theorem State.sameMemory_arrive (s : State) (r : TRef) (seq : Nat) (ws : List (Nat × Reg)) (c : Cls) :
    s.SameMemory (s.arrive r seq ws c) := by
  unfold State.arrive
  obtain ⟨th, qs, h⟩ := State.threadsQuads_tryReady ({ s.modThread r _ with held := _ } : State) r
  obtain ⟨th', qs', h'⟩ := s.threadsQuads_modThread r _
  rw [h, h']
  exact ⟨th, qs, _, rfl⟩

/-- A thread that runs on has what arrives for it. -/
theorem State.thread_arrive (ht : s.thread r = some t) (hst : t.status = .running) (seq : Nat) (ws : List (Nat × Reg)) (c : Cls) :
    (s.arrive r seq ws c).thread r = some (t.arrived seq ws c) := by
  unfold State.arrive
  rw [State.modThread_of_some ht]
  dsimp only
  generalize hz : ({ s.setThread r _ with held := _ } : State) = z
  have hzt : z.thread r = some (t.arrived seq ws c) := by
    rw [← hz]
    exact State.thread_setThread ..
  rw [State.tryReady_of_running hzt (by cases c <;> exact hst), hzt]

/-- Outside a handler what arrives is in the registers, and the frame stays away. -/
theorem Thread.arch_arrived (hf : t.arch.frame = none) (seq : Nat) (ws : List (Nat × Reg)) (c : Cls) :
    (t.arrived seq ws c).arch = { t.arch with regs := t.arch.regs.setAll ws } := by
  cases c <;> simp [Thread.arrived, Thread.count, Arch.arrive, hf]

/-- One register that arrives is there. -/
theorem Thread.get_arrived (hf : t.arch.frame = none) (seq d : Nat) (x : Reg) (c : Cls) :
    (t.arrived seq [(d, x)] c).arch.regs.get d = x := by
  simp [Thread.arch_arrived hf, RegFile.setAll]

theorem Thread.reg_arrived (hf : t.arch.frame = none) (seq d : Nat) (x : Reg) (c : Cls) :
    (t.arrived seq [(d, x)] c).arch.reg d = x.val := congrArg Reg.val (Thread.get_arrived hf ..)

/-! ### Bytes -/

theorem readN_congr {m m' : Memory} {a n : Nat} (h : ∀ i, a ≤ i → i < a + n → Memory.read m i = Memory.read m' i) :
    m.readN a n = m'.readN a n := by
  induction n generalizing a with
  | zero => rfl
  | succ n ih =>
    rw [Memory.readN, Memory.readN, h a (Nat.le_refl a) (by omega), ih fun i hi hn => h i (by omega) (by omega)]

/-- Bytes written are read back. -/
theorem readN_writeN_self {m : Memory} (hm : Memory.wf m) (a : Nat) (l : List Byte) : (Memory.writeN m a l).readN a l.length = l := by
  induction l generalizing m a with
  | nil => rfl
  | cons b l ih =>
    have hb : Memory.read (Memory.writeN m a (b :: l)) a = b := Memory.read_writeN_self a (b :: l) (i := 0) hm rfl
    rw [List.length_cons, Memory.readN, hb]
    exact congrArg _ (ih (Memory.wf_write a b hm) (a + 1))

/-- Bytes that a write leaves out are read as before. -/
theorem readN_writeN_of_ne {m : Memory} (hm : Memory.wf m) {a b n : Nat} (l : List Byte) (h : b + n ≤ a ∨ a + l.length ≤ b) :
    (Memory.writeN m a l).readN b n = m.readN b n :=
  readN_congr fun i hi hn => Memory.read_writeN_of_ne a l hm (by omega)

/-! ### Full/empty bits (R154) -/

theorem State.isFull_setFull_of_ne (s : State) (run : Option Nat) {k j : Nat} (b : Bool) (h : wordKey j ≠ wordKey k) :
    (s.setFull run k b).isFull j = s.isFull j := by
  obtain ⟨l, hl⟩ := s.setFull_eq run k b
  rw [hl, Bool.eq_iff_iff]
  cases b
  · simp [State.isFull, h]
  · simp [State.isFull, mem_insNat_iff, h]

/-! ### What acts at a bank -/

/-- Nothing differs but scratchpad, its full/empty bits and marks, the requests at rendezvous words, and what is kept for undoing. -/
def State.AtBank (s z : State) : Prop :=
  ∃ u p m f o h, z = { s with undo := u, poisoned := p, mem := m, full := f, rvOpen := o, rvHolds := h }

theorem State.AtBank.refl (s : State) : s.AtBank s := ⟨_, _, _, _, _, _, rfl⟩

theorem State.AtBank.trans {y : State} (h : s.AtBank z) (h' : z.AtBank y) : s.AtBank y := by
  obtain ⟨u, p, m, f, o, hs, rfl⟩ := h
  obtain ⟨u', p', m', f', o', hs', rfl⟩ := h'
  exact ⟨u', p', m', f', o', hs', rfl⟩

theorem State.AtBank.idle (h : s.AtBank z) (hs : s.Idle) : z.Idle := by
  obtain ⟨u, p, m, f, o, hs, rfl⟩ := h
  assumption

theorem State.AtBank.thread (h : s.AtBank z) (r : TRef) : z.thread r = s.thread r := by
  obtain ⟨u, p, m, f, o, hs, rfl⟩ := h
  rfl

theorem State.atBank_note (s : State) (run : Option Nat) (u : UndoItem) : s.AtBank (s.note run u) := by
  obtain ⟨l, h⟩ := s.note_eq run u
  rw [h]
  exact ⟨_, _, _, _, _, _, rfl⟩

@[simp] theorem State.note_mem (s : State) (run : Option Nat) (u : UndoItem) : (s.note run u).mem = s.mem := by
  obtain ⟨l, h⟩ := s.note_eq run u
  rw [h]

@[simp] theorem State.note_full (s : State) (run : Option Nat) (u : UndoItem) : (s.note run u).full = s.full := by
  obtain ⟨l, h⟩ := s.note_eq run u
  rw [h]

@[simp] theorem State.note_rvHolds (s : State) (run : Option Nat) (u : UndoItem) : (s.note run u).rvHolds = s.rvHolds := by
  obtain ⟨l, h⟩ := s.note_eq run u
  rw [h]

@[simp] theorem State.note_rvOpen (s : State) (run : Option Nat) (u : UndoItem) : (s.note run u).rvOpen = s.rvOpen := by
  obtain ⟨l, h⟩ := s.note_eq run u
  rw [h]

theorem State.atBank_setFull (s : State) (run : Option Nat) (k : Nat) (b : Bool) : s.AtBank (s.setFull run k b) := by
  obtain ⟨l, h⟩ := s.setFull_eq run k b
  rw [h]
  exact ⟨_, _, _, _, _, _, rfl⟩

@[simp] theorem State.setFull_mem (s : State) (run : Option Nat) (k : Nat) (b : Bool) : (s.setFull run k b).mem = s.mem :=
  s.note_mem run _

@[simp] theorem State.setFull_rvHolds (s : State) (run : Option Nat) (k : Nat) (b : Bool) : (s.setFull run k b).rvHolds = s.rvHolds :=
  s.note_rvHolds run _

@[simp] theorem State.setFull_rvOpen (s : State) (run : Option Nat) (k : Nat) (b : Bool) : (s.setFull run k b).rvOpen = s.rvOpen :=
  s.note_rvOpen run _

/-! ### The word (R181) -/

/-- The fields lie in their ranges. -/
def RvWord.Fits (w : RvWord) : Prop := w.arrivals < 2 ^ 23 ∧ w.bytes < 2 ^ 40

theorem RvWord.fits_ofNat (n : Nat) : (RvWord.ofNat n).Fits :=
  ⟨Nat.mod_lt _ (by omega), Nat.mod_lt _ (by omega)⟩

theorem State.fits_rvRead (s : State) (k : Nat) : (s.rvRead k).Fits := RvWord.fits_ofNat _

theorem RvWord.toNat_lt (w : RvWord) : w.toNat < 256 ^ 8 := by
  unfold RvWord.toNat
  split <;> omega

/-- A word is read as it was written. -/
theorem RvWord.ofNat_toNat {w : RvWord} (h : w.Fits) : RvWord.ofNat w.toNat = w := by
  obtain ⟨ph, ar, by'⟩ := w
  obtain ⟨ha, hb⟩ := h
  dsimp only at ha hb
  cases ph <;> simp only [RvWord.ofNat, RvWord.toNat, RvWord.mk.injEq, if_true, Bool.false_eq_true, if_false] <;>
    exact ⟨by simp; omega, by omega, by omega⟩

@[simp] theorem State.rvWrite_mem (s : State) (run : Option Nat) (k : Nat) (w : RvWord) :
    (s.rvWrite run k w).mem = Memory.writeN s.mem k (natLe 8 w.toNat) := by
  obtain ⟨u, m, h⟩ := s.pokes_eq run (bytesAt k (natLe 8 w.toNat))
  rw [State.rvWrite, h, putBytes_bytesAt]

@[simp] theorem State.rvWrite_full (s : State) (run : Option Nat) (k : Nat) (w : RvWord) : (s.rvWrite run k w).full = s.full := by
  obtain ⟨u, m, h⟩ := s.pokes_eq run (bytesAt k (natLe 8 w.toNat))
  rw [State.rvWrite, h]

@[simp] theorem State.rvWrite_rvHolds (s : State) (run : Option Nat) (k : Nat) (w : RvWord) : (s.rvWrite run k w).rvHolds = s.rvHolds := by
  obtain ⟨u, m, h⟩ := s.pokes_eq run (bytesAt k (natLe 8 w.toNat))
  rw [State.rvWrite, h]

@[simp] theorem State.rvWrite_rvOpen (s : State) (run : Option Nat) (k : Nat) (w : RvWord) : (s.rvWrite run k w).rvOpen = s.rvOpen := by
  obtain ⟨u, m, h⟩ := s.pokes_eq run (bytesAt k (natLe 8 w.toNat))
  rw [State.rvWrite, h]

theorem State.atBank_rvWrite (s : State) (run : Option Nat) (k : Nat) (w : RvWord) : s.AtBank (s.rvWrite run k w) := by
  obtain ⟨u, m, h⟩ := s.pokes_eq run (bytesAt k (natLe 8 w.toNat))
  rw [State.rvWrite, h]
  exact ⟨_, _, _, _, _, _, rfl⟩

theorem State.rvRead_congr {k : Nat} (h : z.mem.readN k 8 = s.mem.readN k 8) : z.rvRead k = s.rvRead k := by
  rw [State.rvRead, h, State.rvRead]

theorem State.rvRead_of_mem (h : z.mem = s.mem) (k : Nat) : z.rvRead k = s.rvRead k := by rw [State.rvRead, h, State.rvRead]

/-- A word written is read, and another one stays. -/
theorem State.rvRead_rvWrite (hm : MemOk s) (run : Option Nat) (k : Nat) {w : RvWord} (hw : w.Fits) : (s.rvWrite run k w).rvRead k = w := by
  have h := readN_writeN_self hm k (natLe 8 w.toNat)
  rw [length_natLe] at h
  rw [State.rvRead, State.rvWrite_mem, h, leNat_natLe, Nat.mod_eq_of_lt w.toNat_lt, RvWord.ofNat_toNat hw]

theorem State.rvRead_rvWrite_of_ne (hm : MemOk s) (run : Option Nat) {k j : Nat} (w : RvWord) (h : j + 8 ≤ k ∨ k + 8 ≤ j) :
    (s.rvWrite run k w).rvRead j = s.rvRead j :=
  State.rvRead_congr (by rw [State.rvWrite_mem]; exact readN_writeN_of_ne hm _ (by rwa [length_natLe]))

theorem State.read_rvWrite_of_ne (hm : MemOk s) (run : Option Nat) {k i : Nat} (w : RvWord) (h : i < k ∨ k + 8 ≤ i) :
    (s.rvWrite run k w).mem.read i = s.mem.read i := by
  rw [State.rvWrite_mem]
  exact Memory.read_writeN_of_ne k _ hm (by rwa [length_natLe])

theorem State.memOk_rvWrite (hm : MemOk s) (run : Option Nat) (k : Nat) (w : RvWord) : MemOk (s.rvWrite run k w) := by
  rw [MemOk, State.rvWrite_mem]
  exact Memory.wf_writeN _ _ hm

/-! ### Its bits, its requests, and whether it has been evaluated (R182) -/

theorem State.atBank_rvBits (s : State) (run : Option Nat) (k : Nat) (b : Bool) : s.AtBank (s.rvBits run k b) :=
  (s.atBank_setFull ..).trans (State.atBank_setFull ..)

@[simp] theorem State.rvBits_mem (s : State) (run : Option Nat) (k : Nat) (b : Bool) : (s.rvBits run k b).mem = s.mem := by
  simp [State.rvBits]

@[simp] theorem State.rvBits_rvHolds (s : State) (run : Option Nat) (k : Nat) (b : Bool) : (s.rvBits run k b).rvHolds = s.rvHolds := by
  simp [State.rvBits]

@[simp] theorem State.rvBits_rvOpen (s : State) (run : Option Nat) (k : Nat) (b : Bool) : (s.rvBits run k b).rvOpen = s.rvOpen := by
  simp [State.rvBits]

theorem wordKey_add_four (k : Nat) : wordKey (k + 4) = wordKey k + 4 := by
  unfold wordKey
  omega

theorem State.isFull_rvBits (s : State) (run : Option Nat) (k : Nat) (b : Bool) :
    (s.rvBits run k b).isFull k = b ∧ (s.rvBits run k b).isFull (k + 4) = b := by
  refine ⟨?_, State.isFull_setFull ..⟩
  rw [State.rvBits, State.isFull_setFull_of_ne _ _ _ (by rw [wordKey_add_four]; omega), State.isFull_setFull]

theorem State.isFull_rvBits_of_ne (s : State) (run : Option Nat) {k j : Nat} (b : Bool) (h : wordKey j ≠ wordKey k)
    (h' : wordKey j ≠ wordKey (k + 4)) : (s.rvBits run k b).isFull j = s.isFull j := by
  rw [State.rvBits, State.isFull_setFull_of_ne _ _ _ h', State.isFull_setFull_of_ne _ _ _ h]

theorem State.isFull_of_full (h : z.full = s.full) (k : Nat) : z.isFull k = s.isFull k := by rw [State.isFull, h, State.isFull]

theorem State.atBank_setRvOpen (s : State) (run : Option Nat) (k : Nat) (b : Bool) : s.AtBank (s.setRvOpen run k b) := by
  unfold State.setRvOpen
  split
  · exact .refl s
  · exact (s.atBank_note run _).trans ⟨_, _, _, _, _, _, rfl⟩

@[simp] theorem State.setRvOpen_mem (s : State) (run : Option Nat) (k : Nat) (b : Bool) : (s.setRvOpen run k b).mem = s.mem := by
  unfold State.setRvOpen
  split <;> simp

@[simp] theorem State.setRvOpen_full (s : State) (run : Option Nat) (k : Nat) (b : Bool) : (s.setRvOpen run k b).full = s.full := by
  unfold State.setRvOpen
  split <;> simp

@[simp] theorem State.setRvOpen_rvHolds (s : State) (run : Option Nat) (k : Nat) (b : Bool) :
    (s.setRvOpen run k b).rvHolds = s.rvHolds := by
  unfold State.setRvOpen
  split <;> simp

/-- A word that is to count as not evaluated does. -/
theorem State.notMem_setRvOpen (s : State) (run : Option Nat) (k : Nat) : k ∉ (s.setRvOpen run k false).rvOpen := by
  unfold State.setRvOpen
  split
  · next h => simpa using h
  · simp

theorem mem_insHold (h : RvHold) (l : List RvHold) : h ∈ insHold h l := by
  induction l with
  | nil => exact List.mem_singleton.2 rfl
  | cons x l ih =>
    unfold insHold
    split
    · exact List.mem_cons_self ..
    · exact List.mem_cons_of_mem _ ih

theorem State.atBank_holdAt (s : State) (run : Option Nat) (h : RvHold) : s.AtBank (s.holdAt run h) :=
  (s.atBank_note run _).trans ⟨_, _, _, _, _, _, rfl⟩

theorem State.mem_holdAt (s : State) (run : Option Nat) (h : RvHold) : h ∈ (s.holdAt run h).rvHolds := mem_insHold ..

@[simp] theorem State.holdAt_mem (s : State) (run : Option Nat) (h : RvHold) : (s.holdAt run h).mem = s.mem := s.note_mem run _

@[simp] theorem State.holdAt_full (s : State) (run : Option Nat) (h : RvHold) : (s.holdAt run h).full = s.full := s.note_full run _

/-- The notes that the requests of a word leave are all that the fold over them changes. -/
theorem State.notes_eq (run : Option Nat) (l : List RvHold) (s : State) :
    ∃ u, l.foldl (fun (s : State) h => s.note run (.rvHold h false)) s = { s with undo := u } := by
  induction l generalizing s with
  | nil => exact ⟨s.undo, rfl⟩
  | cons h l ih =>
    obtain ⟨u, hu⟩ := s.note_eq run (.rvHold h false)
    obtain ⟨u', hu'⟩ := ih (s.note run (.rvHold h false))
    exact ⟨u', by rw [List.foldl_cons, hu', hu]⟩

/-- A word's requests taken: they are held there no more, and nothing else changes but what is kept for undoing. -/
theorem State.takeHolds_eq (s : State) (run : Option Nat) (k : Nat) : ∃ u, s.takeHolds run k =
    (s.rvHolds.filter fun h => h.key == k, { s with undo := u, rvHolds := s.rvHolds.filter fun h => h.key != k }) := by
  obtain ⟨u, hu⟩ := State.notes_eq run (s.rvHolds.filter fun h => h.key == k) s
  exact ⟨u, by rw [State.takeHolds]; simp only [hu]⟩

theorem State.atBank_takeHolds (s : State) (run : Option Nat) (k : Nat) : s.AtBank (s.takeHolds run k).2 := by
  obtain ⟨u, h⟩ := s.takeHolds_eq run k
  rw [h]
  exact ⟨_, _, _, _, _, _, rfl⟩

@[simp] theorem State.takeHolds_mem (s : State) (run : Option Nat) (k : Nat) : (s.takeHolds run k).2.mem = s.mem := by
  obtain ⟨u, h⟩ := s.takeHolds_eq run k
  rw [h]

@[simp] theorem State.takeHolds_full (s : State) (run : Option Nat) (k : Nat) : (s.takeHolds run k).2.full = s.full := by
  obtain ⟨u, h⟩ := s.takeHolds_eq run k
  rw [h]

theorem State.notMem_takeHolds (s : State) (run : Option Nat) (k : Nat) : ∀ h ∈ (s.takeHolds run k).2.rvHolds, h.key ≠ k := by
  obtain ⟨u, h⟩ := s.takeHolds_eq run k
  rw [h]
  exact fun x hx => by simpa using (List.mem_filter.1 hx).2

end Sys2Proof.Machine
end

section
/-! PROOFS. Requests at a rendezvous word (11_streamers.md R181, R182) where no thread waits on a word. -/

namespace Sys2Proof.Machine

variable {s : State} {k da : Nat} {db : Int} {who : RvWho}

/-! ### The parts of an evaluation -/

/-- A word with a request's arrivals, as many as are left, and its bytes taken. -/
def RvWord.take (w : RvWord) (da : Nat) (db : Int) : RvWord :=
  { w with arrivals := w.arrivals - min da w.arrivals, bytes := (((w.bytes : Int) + db) % 2 ^ 40).toNat }

/-- The word's bits empty at its first evaluation since the last flip. -/
def State.rvOpened (s : State) (run : Option Nat) (k : Nat) : State :=
  if s.rvOpen.contains k then s else (s.rvBits run k false).setRvOpen run k true

/-- The flip: the word and its initial word in the new phase, its bits full. -/
def State.rvFlip (s : State) (run : Option Nat) (k : Nat) (phase : Bool) : State :=
  let i := { s.rvRead (k + 8) with phase := phase }
  (((s.rvWrite run k i).rvWrite run (k + 8) i).rvBits run k true).setRvOpen run k false

/-- What is left of a request held, or its answer given. -/
def State.rvAnswer (s : State) (run : Option Nat) (h : RvHold) (t : Nat) (before : Word) : State :=
  if t < h.da then s.holdAt run { h with da := h.da - t, db := 0, spilled := false } else s.rvReply h.who before

theorem RvWord.fits_take {w : RvWord} (h : w.Fits) (da : Nat) (db : Int) : (w.take da db).Fits := by
  obtain ⟨ha, hb⟩ := h
  constructor <;> simp only [RvWord.take] <;> omega

/-- The next number taken. -/
def State.numbered (s : State) : State := s.takeId.2

theorem State.rvOne_of_waits {run : Option Nat} {i : Nat} (ha : (s.rvRead k).arrivals = 0) (hd : 0 < da) :
    s.rvOne run { key := k, da := da, db := db, who := who, id := i } =
      ([], s.holdAt run { key := k, da := da, db := db, who := who, id := i }) := by
  unfold State.rvOne
  simp only [ha, hd, and_self, if_true]

section taken

variable {run : Option Nat} {i : Nat} (hc : 0 < (s.rvRead k).arrivals ∨ da = 0)
include hc

theorem State.rvOne_of_counts (hn : ((s.rvRead k).take da db).arrivals ≠ 0 ∨ ((s.rvRead k).take da db).bytes ≠ 0) :
    s.rvOne run { key := k, da := da, db := db, who := who, id := i } =
      ([], (((s.rvOpened run k).rvWrite run k ((s.rvRead k).take da db)).rvAnswer run { key := k, da := da, db := db, who := who, id := i }
        (min da (s.rvRead k).arrivals) ((s.rvOpened run k).phaseWord k)).rvMonitor k) := by
  have hc' : ¬ ((s.rvRead k).arrivals = 0 ∧ 0 < da) := by omega
  have hn' : ¬ (((s.rvRead k).take da db).arrivals = 0 ∧ ((s.rvRead k).take da db).bytes = 0) := by tauto
  unfold State.rvOne
  dsimp only
  rw [if_neg hc']
  simp only [RvWord.take] at hn'
  simp only [hn', if_false]
  rfl

theorem State.rvOne_of_flips (ha : ((s.rvRead k).take da db).arrivals = 0) (hb : ((s.rvRead k).take da db).bytes = 0) :
    s.rvOne run { key := k, da := da, db := db, who := who, id := i } =
      ((((s.rvOpened run k).rvFlip run k (!(s.rvRead k).phase)).takeHolds run k).1,
        ((((s.rvOpened run k).rvFlip run k (!(s.rvRead k).phase)).takeHolds run k).2.rvAnswer run
          { key := k, da := da, db := db, who := who, id := i } (min da (s.rvRead k).arrivals) ((s.rvOpened run k).phaseWord k)).rvMonitor k) := by
  have hc' : ¬ ((s.rvRead k).arrivals = 0 ∧ 0 < da) := by omega
  unfold State.rvOne
  dsimp only
  rw [if_neg hc']
  simp only [RvWord.take] at ha hb
  simp only [ha, hb, and_self, if_true]
  rfl

end taken

/-- A request that releases none is all that is evaluated. -/
theorem State.evaluate_of_alone {run : Option Nat} {z : State}
    (h : s.numbered.rvOne run { key := k, da := da, db := db, who := who, id := s.nextId } = ([], z)) :
    s.evaluate run k da db who = z := by
  have hall : ∀ n (z : State), State.rvAll run n z [] = z := fun n z => by cases n <;> rfl
  have hfuel : ∃ m, ((s.rvHolds.map (·.da)).sum + da + 1) * (s.rvHolds.length + 1 + 1) + (s.rvHolds.length + 1) = m + 1 := ⟨_, rfl⟩
  obtain ⟨m, hm⟩ := hfuel
  have heval : s.evaluate run k da db who =
      State.rvAll run (m + 1) s.numbered [{ key := k, da := da, db := db, who := who, id := s.nextId }] := by
    rw [← hm]
    rfl
  rw [heval, State.rvAll]
  simp only [h, List.append_nil, hall]

/-! ### What they change -/

theorem State.atBank_rvOpened (s : State) (run : Option Nat) (k : Nat) : s.AtBank (s.rvOpened run k) := by
  unfold State.rvOpened
  split
  · exact .refl s
  · exact (s.atBank_rvBits ..).trans (State.atBank_setRvOpen ..)

@[simp] theorem State.rvOpened_mem (s : State) (run : Option Nat) (k : Nat) : (s.rvOpened run k).mem = s.mem := by
  unfold State.rvOpened
  split <;> simp

@[simp] theorem State.rvOpened_rvHolds (s : State) (run : Option Nat) (k : Nat) : (s.rvOpened run k).rvHolds = s.rvHolds := by
  unfold State.rvOpened
  split <;> simp

/-- The first evaluation finds the word's bits empty. -/
theorem State.isFull_rvOpened (run : Option Nat) (h : k ∉ s.rvOpen) :
    (s.rvOpened run k).isFull k = false ∧ (s.rvOpened run k).isFull (k + 4) = false := by
  have hf := State.isFull_of_full (s := s.rvBits run k false) (z := s.rvOpened run k) (by simp [State.rvOpened, h])
  rw [hf, hf]
  exact s.isFull_rvBits run k false

theorem State.atBank_rvFlip (s : State) (run : Option Nat) (k : Nat) (b : Bool) : s.AtBank (s.rvFlip run k b) :=
  (((s.atBank_rvWrite ..).trans (State.atBank_rvWrite ..)).trans (State.atBank_rvBits ..)).trans (State.atBank_setRvOpen ..)

@[simp] theorem State.rvFlip_rvHolds (s : State) (run : Option Nat) (k : Nat) (b : Bool) : (s.rvFlip run k b).rvHolds = s.rvHolds := by
  simp [State.rvFlip]

/-- After a flip both words are the initial one in the new phase, the word's bits are full, and no byte outside the 16 has changed. -/
theorem State.rvFlip_spec (hm : MemOk s) (run : Option Nat) (k : Nat) (b : Bool) :
    let i := { s.rvRead (k + 8) with phase := b }
    let y := s.rvFlip run k b
    y.rvRead k = i ∧ y.rvRead (k + 8) = i ∧ y.isFull k = true ∧ y.isFull (k + 4) = true ∧
      ∀ a, (a < k ∨ k + 16 ≤ a) → y.mem.read a = s.mem.read a := by
  intro i y
  have hi : i.Fits := s.fits_rvRead (k + 8)
  have hm' : MemOk (s.rvWrite run k i) := State.memOk_rvWrite hm ..
  have hmem : y.mem = ((s.rvWrite run k i).rvWrite run (k + 8) i).mem := by simp [y, State.rvFlip, i]
  have hfull : ∀ j, y.isFull j = (((s.rvWrite run k i).rvWrite run (k + 8) i).rvBits run k true).isFull j :=
    State.isFull_of_full (State.setRvOpen_full ..)
  rw [State.rvRead_of_mem hmem, State.rvRead_of_mem hmem, State.rvRead_rvWrite hm' run (k + 8) hi,
    State.rvRead_rvWrite_of_ne hm' run i (by omega), State.rvRead_rvWrite hm run k hi, hfull, hfull, hmem]
  obtain ⟨h0, h4⟩ := ((s.rvWrite run k i).rvWrite run (k + 8) i).isFull_rvBits run k true
  exact ⟨rfl, rfl, h0, h4, fun a ha => by
    rw [State.read_rvWrite_of_ne hm' run i (by omega), State.read_rvWrite_of_ne hm run i (by omega)]⟩

theorem State.sameMemory_rvReply (s : State) (who : RvWho) (w : Word) : s.SameMemory (s.rvReply who w) := by
  unfold State.rvReply
  split
  · exact s.sameMemory_arrive ..
  · exact ⟨_, _, _, rfl⟩

/-- The answer to a request, or the hold of what is left of it, is no matter of memory or of waiters. -/
theorem State.rvAnswer_frame (s : State) (run : Option Nat) (h : RvHold) (t : Nat) (w : Word) :
    (s.rvAnswer run h t w).mem = s.mem ∧ (s.rvAnswer run h t w).full = s.full ∧ (s.Idle → (s.rvAnswer run h t w).Idle) := by
  unfold State.rvAnswer
  split
  · exact ⟨State.holdAt_mem .., State.holdAt_full .., (s.atBank_holdAt ..).idle⟩
  · have hz := s.sameMemory_rvReply h.who w
    exact ⟨hz.mem, hz.full, hz.idle⟩

/-- The thread of a request that has been taken whole has the phase word. -/
theorem State.thread_rvReply {r : TRef} {u : Thread} (hu : s.thread r = some u) (hst : u.status = .running) (hf : u.arch.frame = none)
    (seq d : Nat) (w : Word) :
    ∃ u', (s.rvReply (some (r, seq, d)) w).thread r = some u' ∧ u'.arch.reg d = regN32 w ∧ u'.loads = u.loads - 1 :=
  ⟨_, State.thread_arrive hu hst .., Thread.reg_arrived hf .., rfl⟩

theorem State.rvMonitor_idle (h : s.Idle) (k : Nat) : s.rvMonitor k = s := State.monitorAll_idle h _

/-! ### Evaluations (R182) -/

section evaluate

variable (hidle : s.Idle) (hheld : ∀ h ∈ s.rvHolds, h.key ≠ k)

theorem State.idle_numbered (h : s.Idle) : s.numbered.Idle := h

@[simp] theorem State.rvRead_numbered (s : State) (k : Nat) : s.numbered.rvRead k = s.rvRead k := rfl

/-- A request that finds no arrival left is held. -/
theorem State.evaluate_of_waits (ha : (s.rvRead k).arrivals = 0) (hd : 0 < da) :
    s.evaluate none k da db who = s.numbered.holdAt none { key := k, da := da, db := db, who := who, id := s.nextId } :=
  State.evaluate_of_alone (State.rvOne_of_waits ha hd)

include hidle in
/-- A request that leaves arrivals or bytes changes the word. -/
theorem State.evaluate_of_counts (hc : 0 < (s.rvRead k).arrivals ∨ da = 0)
    (hn : ((s.rvRead k).take da db).arrivals ≠ 0 ∨ ((s.rvRead k).take da db).bytes ≠ 0) :
    s.evaluate none k da db who = ((s.numbered.rvOpened none k).rvWrite none k ((s.rvRead k).take da db)).rvAnswer none
      { key := k, da := da, db := db, who := who, id := s.nextId } (min da (s.rvRead k).arrivals) (s.phaseWord k) := by
  have hmid : ((s.numbered.rvOpened none k).rvWrite none k ((s.rvRead k).take da db)).Idle :=
    ((State.atBank_rvOpened ..).trans (State.atBank_rvWrite ..)).idle (State.idle_numbered hidle)
  have hone := State.rvOne_of_counts (s := s.numbered) (run := none) (who := who) (i := s.nextId) hc hn
  rw [State.rvRead_numbered, State.rvMonitor_idle ((State.rvAnswer_frame ..).2.2 hmid), State.phaseWord, State.rvOpened_mem] at hone
  exact State.evaluate_of_alone hone

include hidle hheld in
/-- A request that leaves neither flips the phase. -/
theorem State.evaluate_of_flips (hc : 0 < (s.rvRead k).arrivals ∨ da = 0) (ha : ((s.rvRead k).take da db).arrivals = 0)
    (hb : ((s.rvRead k).take da db).bytes = 0) :
    s.evaluate none k da db who = (((s.numbered.rvOpened none k).rvFlip none k (!(s.rvRead k).phase)).takeHolds none k).2.rvAnswer none
      { key := k, da := da, db := db, who := who, id := s.nextId } (min da (s.rvRead k).arrivals) (s.phaseWord k) := by
  have hmid : (((s.numbered.rvOpened none k).rvFlip none k (!(s.rvRead k).phase)).takeHolds none k).2.Idle :=
    (((State.atBank_rvOpened ..).trans (State.atBank_rvFlip ..)).trans (State.atBank_takeHolds ..)).idle (State.idle_numbered hidle)
  have hnone : (((s.numbered.rvOpened none k).rvFlip none k (!(s.rvRead k).phase)).takeHolds none k).1 = [] := by
    obtain ⟨u, hu⟩ := ((s.numbered.rvOpened none k).rvFlip none k (!(s.rvRead k).phase)).takeHolds_eq none k
    rw [hu, State.rvFlip_rvHolds, State.rvOpened_rvHolds]
    exact List.filter_eq_nil_iff.2 fun x hx => by simpa using hheld x hx
  have hone := State.rvOne_of_flips (s := s.numbered) (run := none) (who := who) (i := s.nextId) hc ha hb
  rw [State.rvRead_numbered, State.rvMonitor_idle ((State.rvAnswer_frame ..).2.2 hmid), hnone, State.phaseWord,
    State.rvOpened_mem] at hone
  exact State.evaluate_of_alone hone

end evaluate

/-- The word and its initial word where a request leaves arrivals or bytes. -/
theorem State.counted_spec {w : RvWord} (hm : MemOk s) (hw : w.Fits) :
    let m := (s.numbered.rvOpened none k).rvWrite none k w
    s.numbered.AtBank m ∧ m.rvRead k = w ∧ m.rvRead (k + 8) = s.rvRead (k + 8) ∧
      (k ∉ s.rvOpen → m.isFull k = false ∧ m.isFull (k + 4) = false) ∧ ∀ a, (a < k ∨ k + 16 ≤ a) → m.mem.read a = s.mem.read a := by
  intro m
  have hm' : MemOk (s.numbered.rvOpened none k) := by rwa [MemOk, State.rvOpened_mem]
  refine ⟨(State.atBank_rvOpened ..).trans (State.atBank_rvWrite ..), State.rvRead_rvWrite hm' none k hw, ?_, fun hk => ?_, fun a ha => ?_⟩
  · rw [State.rvRead_rvWrite_of_ne hm' none w (by omega)]
    exact State.rvRead_of_mem (State.rvOpened_mem ..) _
  · rw [State.isFull_of_full (State.rvWrite_full ..), State.isFull_of_full (State.rvWrite_full ..)]
    exact State.isFull_rvOpened none hk
  · rw [State.read_rvWrite_of_ne hm' none w (by omega), State.rvOpened_mem]
    rfl

/-- The word and its initial word after a flip. -/
theorem State.flipped_spec (hm : MemOk s) (b : Bool) :
    let i := { s.rvRead (k + 8) with phase := b }
    let m := ((s.numbered.rvOpened none k).rvFlip none k b).takeHolds none k
    s.numbered.AtBank m.2 ∧ m.2.rvRead k = i ∧ m.2.rvRead (k + 8) = i ∧ m.2.isFull k = true ∧ m.2.isFull (k + 4) = true ∧
      ∀ a, (a < k ∨ k + 16 ≤ a) → m.2.mem.read a = s.mem.read a := by
  intro i m
  have hm' : MemOk (s.numbered.rvOpened none k) := by rwa [MemOk, State.rvOpened_mem]
  have hinit : (s.numbered.rvOpened none k).rvRead (k + 8) = s.rvRead (k + 8) := State.rvRead_of_mem (State.rvOpened_mem ..) _
  obtain ⟨hk, hk8, h0, h4, hout⟩ := State.rvFlip_spec hm' none k b
  rw [hinit] at hk hk8
  refine ⟨((State.atBank_rvOpened ..).trans (State.atBank_rvFlip ..)).trans (State.atBank_takeHolds ..), ?_, ?_, ?_, ?_, fun a ha => ?_⟩
  · exact (State.rvRead_of_mem (State.takeHolds_mem ..) _).trans hk
  · exact (State.rvRead_of_mem (State.takeHolds_mem ..) _).trans hk8
  · exact (State.isFull_of_full (State.takeHolds_full ..) _).trans h0
  · exact (State.isFull_of_full (State.takeHolds_full ..) _).trans h4
  · rw [State.takeHolds_mem, hout a ha, State.rvOpened_mem]
    rfl

/-- A request that is taken, at least in part: what the word is then, and that all else is its answer or the hold of what is left. -/
theorem State.evaluate_of_taken (hidle : s.Idle) (hheld : ∀ h ∈ s.rvHolds, h.key ≠ k) (hm : MemOk s)
    (hc : 0 < (s.rvRead k).arrivals ∨ da = 0) :
    let w := (s.rvRead k).take da db
    let i := s.rvRead (k + 8)
    ∃ m : State, s.evaluate none k da db who = m.rvAnswer none { key := k, da := da, db := db, who := who, id := s.nextId }
        (min da (s.rvRead k).arrivals) (s.phaseWord k) ∧ s.numbered.AtBank m ∧
      (w.arrivals ≠ 0 ∨ w.bytes ≠ 0 → m.rvRead k = w ∧ m.rvRead (k + 8) = i ∧
        (k ∉ s.rvOpen → m.isFull k = false ∧ m.isFull (k + 4) = false)) ∧
      (w.arrivals = 0 → w.bytes = 0 → m.rvRead k = { i with phase := !(s.rvRead k).phase } ∧
        m.rvRead (k + 8) = { i with phase := !(s.rvRead k).phase } ∧ m.isFull k = true ∧ m.isFull (k + 4) = true) ∧
      ∀ a, (a < k ∨ k + 16 ≤ a) → m.mem.read a = s.mem.read a := by
  intro w i
  by_cases hn : w.arrivals ≠ 0 ∨ w.bytes ≠ 0
  · obtain ⟨hbank, hk, hk8, hbits, hout⟩ := State.counted_spec (k := k) hm (RvWord.fits_take (s.fits_rvRead k) da db)
    exact ⟨_, State.evaluate_of_counts hidle hc hn, hbank, fun _ => ⟨hk, hk8, hbits⟩,
      fun ha hb => (hn.elim (fun h => h ha) fun h => h hb).elim, hout⟩
  · obtain ⟨ha, hb⟩ : w.arrivals = 0 ∧ w.bytes = 0 := by tauto
    obtain ⟨hbank, hk, hk8, h0, h4, hout⟩ := State.flipped_spec (k := k) hm (!(s.rvRead k).phase)
    exact ⟨_, State.evaluate_of_flips hidle hheld hc ha hb, hbank, fun h => (hn h).elim, fun _ _ => ⟨hk, hk8, h0, h4⟩, hout⟩

/-- What is left of a request is held. -/
theorem State.mem_rvAnswer (s : State) (run : Option Nat) {h : RvHold} {t : Nat} (ht : t < h.da) (w : Word) :
    { h with da := h.da - t, db := 0, spilled := false } ∈ (s.rvAnswer run h t w).rvHolds := by
  rw [State.rvAnswer, if_pos ht]
  exact State.mem_holdAt ..

/-- A request that is taken whole is answered. -/
theorem State.rvAnswer_of_whole (s : State) (run : Option Nat) {h : RvHold} {t : Nat} (ht : h.da = t) (w : Word) :
    s.rvAnswer run h t w = s.rvReply h.who w := if_neg (by omega)

/-- A request at a rendezvous word on which none is held (R182). -/
theorem State.evaluate_spec (hm : MemOk s) (hidle : s.Idle) (hheld : ∀ h ∈ s.rvHolds, h.key ≠ k) :
    let w := s.rvRead k
    let i := s.rvRead (k + 8)
    let n := min da w.arrivals
    let b := (((w.bytes : Int) + db) % 2 ^ 40).toNat
    let s' := s.evaluate none k da db who
    (w.arrivals = 0 → 0 < da → s'.mem = s.mem ∧ { key := k, da := da, db := db, who := who, id := s.nextId } ∈ s'.rvHolds) ∧
    (0 < w.arrivals ∨ da = 0 →
      (w.arrivals - n ≠ 0 ∨ b ≠ 0 → s'.rvRead k = { w with arrivals := w.arrivals - n, bytes := b } ∧ s'.rvRead (k + 8) = i ∧
        (k ∉ s.rvOpen → s'.isFull k = false ∧ s'.isFull (k + 4) = false)) ∧
      (w.arrivals - n = 0 → b = 0 → s'.rvRead k = { i with phase := !w.phase } ∧ s'.rvRead (k + 8) = { i with phase := !w.phase } ∧
        s'.isFull k = true ∧ s'.isFull (k + 4) = true) ∧
      (n < da → { key := k, da := da - n, db := 0, who := who, id := s.nextId } ∈ s'.rvHolds) ∧
      (n = da → ∀ r seq d u, who = some (r, seq, d) → s.thread r = some u → u.status = .running → u.arch.frame = none →
        ∃ u', s'.thread r = some u' ∧ u'.arch.reg d = regN32 (s.phaseWord k) ∧ u'.loads = u.loads - 1)) ∧
    ∀ a, (a < k ∨ k + 16 ≤ a) → s'.mem.read a = s.mem.read a := by
  intro w i n b s'
  by_cases hc : 0 < w.arrivals ∨ da = 0
  · obtain ⟨m, heval, hbank, hcount, hflip, hout⟩ := State.evaluate_of_taken (db := db) (who := who) hidle hheld hm hc
    obtain ⟨hmem, hfull, -⟩ := m.rvAnswer_frame none { key := k, da := da, db := db, who := who, id := s.nextId } n (s.phaseWord k)
    have hs' : s' = m.rvAnswer none { key := k, da := da, db := db, who := who, id := s.nextId } n (s.phaseWord k) := heval
    rw [← hs'] at hmem hfull
    rw [State.rvRead_of_mem hmem, State.rvRead_of_mem hmem, State.isFull_of_full hfull, State.isFull_of_full hfull, hmem]
    refine ⟨fun ha hd => by omega, fun _ => ⟨hcount, hflip, fun hn => ?_, fun hn r seq d u hwho hu hst hf => ?_⟩, hout⟩
    · rw [hs']
      exact m.mem_rvAnswer none hn _
    · rw [hs', m.rvAnswer_of_whole none hn.symm, hwho]
      exact State.thread_rvReply ((hbank.thread r).trans hu) hst hf ..
  · obtain ⟨ha, hd⟩ : w.arrivals = 0 ∧ 0 < da := by omega
    have hs' : s' = s.numbered.holdAt none { key := k, da := da, db := db, who := who, id := s.nextId } := State.evaluate_of_waits ha hd
    have hmem : s'.mem = s.mem := by
      rw [hs', State.holdAt_mem]
      rfl
    exact ⟨fun _ _ => ⟨hmem, hs' ▸ State.mem_holdAt ..⟩, fun h => (hc h).elim, fun a _ => by rw [hmem]⟩

end Sys2Proof.Machine
end

section
/-! PROOFS. The SYNC instructions when they act (11_streamers.md R185). -/

namespace Sys2Proof.Machine

variable {s : State} {h : HeldRun} {c : Cmd} {k : Nat} {t : Thread}

/-- RVINIT at a word: what is held there goes, both words have n arrivals, and their four bits are empty. -/
def State.rvInit (s : State) (run : Option Nat) (k n : Nat) : State :=
  let w : RvWord := { phase := false, arrivals := n, bytes := 0 }
  ((((((s.takeHolds run k).2).setRvOpen run k false).rvWrite run k w).rvWrite run (k + 8) w).rvBits run k false).rvBits run (k + 8) false

theorem State.rvInit_spec (hm : MemOk s) (run : Option Nat) {n : Nat} (hn : n < 2 ^ 23) :
    let w : RvWord := { phase := false, arrivals := n, bytes := 0 }
    let y := s.rvInit run k n
    s.AtBank y ∧ y.rvRead k = w ∧ y.rvRead (k + 8) = w ∧ (∀ x ∈ y.rvHolds, x.key ≠ k) ∧ k ∉ y.rvOpen ∧
      (∀ j ∈ [k, k + 4, k + 8, k + 12], y.isFull j = false) ∧ ∀ a, (a < k ∨ k + 16 ≤ a) → y.mem.read a = s.mem.read a := by
  intro w y
  have hw : w.Fits := ⟨hn, Nat.two_pow_pos 40⟩
  generalize hz : ((s.takeHolds run k).2).setRvOpen run k false = z
  have hzm : z.mem = s.mem := by rw [← hz, State.setRvOpen_mem, State.takeHolds_mem]
  have hzok : MemOk z := by rwa [MemOk, hzm]
  have hzok' : MemOk (z.rvWrite run k w) := State.memOk_rvWrite hzok ..
  have hy : y = (((z.rvWrite run k w).rvWrite run (k + 8) w).rvBits run k false).rvBits run (k + 8) false := by rw [← hz]; rfl
  have hmem : y.mem = ((z.rvWrite run k w).rvWrite run (k + 8) w).mem := by rw [hy, State.rvBits_mem, State.rvBits_mem]
  have hbank : s.AtBank z := hz ▸ (s.atBank_takeHolds ..).trans (State.atBank_setRvOpen ..)
  refine ⟨hy ▸ (((hbank.trans (State.atBank_rvWrite ..)).trans (State.atBank_rvWrite ..)).trans (State.atBank_rvBits ..)).trans
    (State.atBank_rvBits ..), ?_, ?_, ?_, ?_, ?_, fun a ha => ?_⟩
  · rw [State.rvRead_of_mem hmem, State.rvRead_rvWrite_of_ne hzok' run w (by omega), State.rvRead_rvWrite hzok run k hw]
  · rw [State.rvRead_of_mem hmem, State.rvRead_rvWrite hzok' run (k + 8) hw]
  · have hholds : y.rvHolds = (s.takeHolds run k).2.rvHolds := by simp [hy, ← hz]
    exact hholds ▸ s.notMem_takeHolds run k
  · have hopen : y.rvOpen = z.rvOpen := by simp [hy]
    rw [hopen, ← hz]
    exact State.notMem_setRvOpen (s.takeHolds run k).2 run k
  · obtain ⟨h0, h4⟩ := ((z.rvWrite run k w).rvWrite run (k + 8) w).isFull_rvBits run k false
    obtain ⟨h8, h12⟩ := (((z.rvWrite run k w).rvWrite run (k + 8) w).rvBits run k false).isFull_rvBits run (k + 8) false
    have hw4 := wordKey_add_four k
    have hw8 : wordKey (k + 8) = wordKey (k + 4) + 4 := wordKey_add_four (k + 4)
    have hw12 : wordKey (k + 12) = wordKey (k + 8) + 4 := wordKey_add_four (k + 8)
    simp only [List.forall_mem_cons, List.not_mem_nil, false_imp_iff, implies_true, and_true]
    rw [hy]
    refine ⟨?_, ?_, h8, h12⟩
    · rwa [State.isFull_rvBits_of_ne _ _ _ (by omega) (show wordKey k ≠ wordKey (k + 12) by omega)]
    · rwa [State.isFull_rvBits_of_ne _ _ _ (by omega) (show wordKey (k + 4) ≠ wordKey (k + 12) by omega)]
  · rw [hmem, State.read_rvWrite_of_ne hzok' run w (by omega), State.read_rvWrite_of_ne hzok run w (by omega), hzm]

/-- RVINIT sets both words, and answers with the phase word as it was. -/
theorem State.actSync_rvinit (hc : c.loc = some (.key k)) (hop : c.op = .rvinit) : s.actSync h c none =
    ((s.rvInit none k (c.words.getD 0 0).toNat).rvReply (some (h.who, h.seq, c.d)) (s.phaseWord k)).rvMonitor k := by
  simp only [State.actSync, hc, hop]
  rfl

/-- RVINIT where no thread waits on a word. -/
theorem State.actSync_rvinit_spec (hc : c.loc = some (.key k)) (hop : c.op = .rvinit) (ht : s.thread h.who = some t)
    (hst : t.status = .running) (hf : t.arch.frame = none) (hm : MemOk s) (hidle : s.Idle) (hn : (c.words.getD 0 0).toNat < 2 ^ 23) :
    let w : RvWord := { phase := false, arrivals := (c.words.getD 0 0).toNat, bytes := 0 }
    let s' := s.actSync h c none
    s'.rvRead k = w ∧ s'.rvRead (k + 8) = w ∧ (∀ x ∈ s'.rvHolds, x.key ≠ k) ∧ k ∉ s'.rvOpen ∧
      (∀ j ∈ [k, k + 4, k + 8, k + 12], s'.isFull j = false) ∧ (∀ a, (a < k ∨ k + 16 ≤ a) → s'.mem.read a = s.mem.read a) ∧
      ∃ t', s'.thread h.who = some t' ∧ t'.arch.reg c.d = regN32 (s.phaseWord k) ∧ t'.loads = t.loads - 1 := by
  obtain ⟨hbank, hk, hk8, hholds, hopen, hbits, hout⟩ := State.rvInit_spec (k := k) hm none hn
  obtain ⟨t', ht', hreg, hloads⟩ := State.thread_rvReply ((hbank.thread h.who).trans ht) hst hf h.seq c.d (s.phaseWord k)
  have hz := (s.rvInit none k (c.words.getD 0 0).toNat).sameMemory_rvReply (some (h.who, h.seq, c.d)) (s.phaseWord k)
  dsimp only
  rw [State.actSync_rvinit hc hop, State.rvMonitor_idle (hz.idle (hbank.idle hidle)), State.rvRead_of_mem hz.mem,
    State.rvRead_of_mem hz.mem, hz.rvHolds, hz.rvOpen, hz.mem]
  exact ⟨hk, hk8, hholds, hopen, fun j hj => (State.isFull_of_full hz.full j).trans (hbits j hj), hout, t', ht', hreg, hloads⟩

/-- A SYNC on uncorrectable data leaves memory as it is and poisons its register (R141). -/
theorem State.actSync_of_bad (hc : c.loc = some (.key k)) (hbad : s.syncBad k = true) (hop : c.op ≠ .rvinit)
    (ht : s.thread h.who = some t) (hst : t.status = .running) (hf : t.arch.frame = none) :
    let s' := s.actSync h c none
    s'.mem = s.mem ∧ ∃ t' f, s'.thread h.who = some t' ∧ (t'.arch.regs.get c.d).poison = some f ∧ f.code = .uncorr := by
  let f : FaultInfo := { code := .uncorr, addr := c.addr, access := .atomic, deferred := true, scratch := true }
  have hact : s.actSync h c none = ((s.takeFresh.2.modThread h.who fun t => t.defer f (some h.seq)).arrive h.who h.seq
      (poisonRegs s.fresh f (dest1 c.d tagN32 4 false)) .loads) := by
    simp only [State.actSync, hc, hbad, bne_iff_ne, ne_eq, hop, not_false_eq_true, Bool.and_true, if_true]
    rfl
  have ht' : (s.takeFresh.2.modThread h.who fun t => t.defer f (some h.seq)).thread h.who = some (t.defer f (some h.seq)) := by
    rw [State.thread_modThread]
    exact congrArg (Option.map _) ht
  dsimp only
  rw [hact]
  refine ⟨?_, _, f, State.thread_arrive ht' hst .., ?_, rfl⟩
  · rw [(State.sameMemory_arrive ..).mem]
    exact State.modThread_mem ..
  · exact congrArg Reg.poison (Thread.get_arrived (t := t.defer f (some h.seq)) hf ..)

/-- The initial word with one arrival fewer, or with the one that stays (R185). -/
def RvWord.left (w : RvWord) : RvWord := { w with arrivals := if w.arrivals = 1 then 1 else (w.arrivals + (2 ^ 23 - 1)) % 2 ^ 23 }

theorem RvWord.fits_left {w : RvWord} (hw : w.Fits) : w.left.Fits := by
  obtain ⟨ha, hb⟩ := hw
  refine ⟨?_, hb⟩
  simp only [RvWord.left]
  split <;> omega

/-- The requests of the SYNC forms on good data. -/
theorem State.actSync_of_good (hc : c.loc = some (.key k)) (hbad : s.syncBad k = false) :
    let who : RvWho := some (h.who, h.seq, c.d)
    let n := c.words.getD 0 0
    let z := (s.mirrorFor h.who).releaseAt h.core (s.rvScope h.who k)
    let s' := s.actSync h c none
    (c.op = .arrive → s' = z.evaluate none k 1 0 who) ∧ (c.op = .arriven → s' = z.evaluate none k n.toNat 0 who) ∧
      (c.op = .expect → s' = s.evaluate none k 0 n.toInt who) ∧ (c.op = .pledge → s' = z.evaluate none k 1 n.toInt who) ∧
      (c.op = .rvleave → s' = (z.rvWrite none (k + 8) (z.rvRead (k + 8)).left).evaluate none k 1 0 who) := by
  refine ⟨fun hop => ?_, fun hop => ?_, fun hop => ?_, fun hop => ?_, fun hop => ?_⟩ <;>
    simp only [State.actSync, hc, hbad, hop, Bool.and_false, Bool.false_eq_true, if_false] <;> rfl

/-- RVLEAVE evaluates its arrival at the word whose initial word it has changed. -/
theorem State.rvleave_spec {z : State} (hz : MemOk z) :
    let y := z.rvWrite none (k + 8) (z.rvRead (k + 8)).left
    y.rvRead k = z.rvRead k ∧ y.rvRead (k + 8) = (z.rvRead (k + 8)).left :=
  ⟨State.rvRead_rvWrite_of_ne hz none _ (by omega), State.rvRead_rvWrite hz none _ (RvWord.fits_left (z.fits_rvRead _))⟩

end Sys2Proof.Machine
end

section
/-! SUPPORT. The claim of a push or a pop at a queue in its own core's scratchpad (11_streamers.md R191, R192) where nothing else is on its
way. -/

namespace Sys2Proof.Machine

variable {s z : State} {h : HeldRun} {c : Cmd} {t : Thread} {g : Wg} {w : Waiter} {k : Nat}

/-! ### Queue control words (R187) -/

/-- An entry replaced by one that a test does not tell from it leaves the test of the list as it is. -/
theorem any_aput {α : Type} {k : Nat} {v v' : α} {l : List (Nat × α)} {p : Nat × α → Bool} (h : alook k l = some v)
    (hp : p (k, v') = p (k, v)) : (aput k v' l).any p = l.any p := by
  induction l with
  | nil => simp at h
  | cons x l ih =>
    obtain ⟨j, y⟩ := x
    rw [alook] at h
    rw [aput]
    split at h
    · next hj =>
      subst hj
      obtain rfl := Option.some.inj h
      simp [hp]
    · split at h
      · simp at h
      · next hj hlt => rw [if_neg hlt, if_neg (Ne.symm hj), List.any_cons, List.any_cons, ih h]

/-- A workgroup with a queue control word changed. -/
def Wg.withQc (g : Wg) (n : Nat) (q : QCtl) : Wg := { g with qcs := g.qcs.set n q }

theorem Wg.qc_withQc {n : Nat} (hn : n < g.qcs.length) (q : QCtl) : (g.withQc n q).qc n = q := by
  simp [Wg.qc, Wg.withQc, hn]

/-- The state with a workgroup put in its place, which is kept for undoing. -/
def State.withWg (s : State) (u : List UndoRec) (n : Nat) (g : Wg) : State := { s with undo := u, wgs := aput n g s.wgs }

@[simp] theorem State.wg_withWg (s : State) (u : List UndoRec) (n : Nat) (g : Wg) : (s.withWg u n g).wg n = some g := alook_aput_self ..

theorem State.setQc_eq {n : Nat} (hg : s.wg n = some g) (run : Option Nat) (i : Nat) (q : QCtl) :
    ∃ u, s.setQc run n i q = s.withWg u n (g.withQc i q) := by
  obtain ⟨u, hu⟩ := s.note_eq run (.qc n i (g.qc i) q)
  have hg' : alook n s.wgs = some g := hg
  refine ⟨u, ?_⟩
  simp only [State.setQc, hu, State.modWg, State.wg, hg', Wg.withQc, State.withWg]

/-- A queue control word has no part in which scratchpad its workgroup may reach. -/
theorem State.still_of_withQc {r : TRef} {i : Nat} {q : QCtl} (hg : s.wg r.wg = some g) (hk : isScratch k = true)
    (hz : z.wgs = aput r.wg (g.withQc i q) s.wgs) (hl : z.lodges = s.lodges) (n : Nat) : z.still r k n = s.still r k n := by
  have hzg : z.wg r.wg = some (g.withQc i q) := by rw [State.wg, hz, alook_aput_self]
  have hany : z.mayScratch (g.withQc i q) k n = s.mayScratch g k n := by
    have hwgs := any_aput (v' := g.withQc i q) (p := fun x => x.2.launch == g.launch && x.2.ensid == g.ensid && x.2.holds k n) hg rfl
    unfold State.mayScratch
    rw [hz, hl, ← hwgs]
    rfl
  simp only [State.still, hzg, hg, hk, if_true, hany, hl]
  rfl

/-! ### A waiter alone on its word (R156) -/

/-- Nothing that a push or a pop would wait for is on its way. -/
structure State.Clear (s : State) : Prop where
  stores : s.stores = []
  loads : s.loads = []
  held : s.held = []
  rvHolds : s.rvHolds = []
  remotes : s.fab.remotes = []
  claims : s.claims = []

/-- A waiter that is its core's only one and may act at once, on a word that is still its workgroup's. -/
structure State.Lone (s : State) (w : Waiter) : Prop extends State.Clear s where
  waiters : s.waiters = [w]
  rel : w.rel = 0
  after : w.after = []
  unspilled : w.spilled = false
  still : s.still w.who w.key 4 = true

section lone

variable (hl : s.Lone w)
include hl

theorem State.Lone.opsBefore : s.opsBefore w.who w.seq = false := by
  simp [State.opsBefore, State.cmdBefore, State.rvBefore, State.queueBefore, hl.held, hl.remotes, hl.rvHolds, hl.waiters]

theorem State.Lone.waiterReady_push {bs : List Byte} (hk : w.kind = .push bs) : s.waiterReady w = !(s.isFull w.key) := by
  simp [State.waiterReady, State.cutOff, hl.still, hl.rel, hl.after, hk, State.claimed, hl.claims, State.claimAhead, hl.waiters, State.privBefore,
    hl.held, hl.stores, hl.loads, hl.opsBefore]

theorem State.Lone.waiterReady_pop {n : Nat} (hk : w.kind = .pop n) : s.waiterReady w = s.isFull w.key := by
  simp [State.waiterReady, State.cutOff, hl.still, hl.rel, hl.after, hk, State.claimed, hl.claims, State.claimAhead, hl.waiters, State.privBefore,
    hl.held]

/-- One that is not ready waits on. -/
theorem State.Lone.monitorAll_of_not (hr : s.waiterReady w = false) (ks : List Nat) : s.monitorAll ks = s := by
  have hstep : ∀ k, s.monitorStep k = none := fun k => by simp [State.monitorStep, hl.waiters, hl.stores, hr]
  have hmon : ∀ n k, s.monitor n k = s := fun n k => by cases n <;> simp [State.monitor, hstep]
  unfold State.monitorAll
  induction (ks.map wordKey).dedup with
  | nil => rfl
  | cons k l ih => rw [List.foldl_cons, hmon, ih]

/-- One that is ready acts, and then none waits. -/
theorem State.Lone.monitorAll_of_ready (hr : s.waiterReady w = true) (hidle : (s.waiterGo w).Idle) :
    s.monitorAll [w.key] = s.waiterGo w := by
  have hword : wordKey (wordKey w.key) = wordKey w.key := by unfold wordKey; omega
  have hstep : s.monitorStep (wordKey w.key) = some (s.waiterGo w) := by
    simp [State.monitorStep, hl.waiters, hl.stores, hr, hword, hl.unspilled]
  have hfuel : s.waiters.length + s.stores.length + 1 = 2 := by rw [hl.waiters, hl.stores]; rfl
  have hmon : s.monitor 2 (wordKey w.key) = s.waiterGo w := by
    rw [State.monitor, hstep]
    exact State.monitor_idle hidle 1 _
  unfold State.monitorAll
  rw [List.map_singleton, List.dedup_eq_self.2 (List.nodup_singleton _), List.foldl_cons, List.foldl_nil, hfuel, hmon]

end lone

/-! ### What a push and a pop do at their slot (R191) -/

theorem State.uncount_of_running {r : TRef} (ht : s.thread r = some t) (hst : t.status = .running) (cl : Cls) :
    s.uncount r cl = s.setThread r (t.count cl (· - 1)) := by
  have hst' : (t.count cl (· - 1)).status = .running := by cases cl <;> exact hst
  rw [State.uncount, State.modThread_of_some ht, State.tryReady_of_running (State.thread_setThread ..) hst']

/-- The state in which a waiter waits no more. -/
def State.withoutWaiter (s : State) (w : Waiter) : State := { s with waiters := s.waiters.filter fun x => x.id != w.id }

/-- A push in place proceeds (R191, R192). -/
theorem State.waiterGo_of_push {bs : List Byte} (hk : w.kind = .push bs) (hcut : (s.withoutWaiter w).cutOff w = false) :
    s.waiterGo w = (((if ((s.withoutWaiter w).queueScope w.who w.key).wide then (s.withoutWaiter w).writeBack w.core none
      else s.withoutWaiter w).pokes w.run (bytesAt w.key bs)).setFull w.run w.key true).uncount w.who .stores := by
  unfold State.waiterGo
  rw [hk]
  exact if_neg (Bool.eq_false_iff.1 hcut)

/-- A pop of good data in place proceeds (R191, R192). -/
theorem State.waiterGo_of_pop {n : Nat} (hk : w.kind = .pop n) (hcut : (s.withoutWaiter w).cutOff w = false)
    (hp : s.poisonedIn w.key n = false) : s.waiterGo w =
      ((((s.withoutWaiter w).setFull w.run w.key false).acquire w.core ((s.withoutWaiter w).queueScope w.who w.key)).takeFresh.2).arrive
        w.who w.seq (destRegs w.dests (s.mem.readN w.key n)) .loads := by
  have hp' : (s.withoutWaiter w).poisonedIn w.key n = false := hp
  unfold State.waiterGo
  rw [hk]
  refine (if_neg (Bool.eq_false_iff.1 hcut)).trans (congrArg (fun ws => State.arrive _ w.who w.seq ws .loads) ?_)
  exact if_neg (Bool.eq_false_iff.1 hp')

/-- What has become of the one waiter and of its word when it has acted. -/
structure State.Acted (s z : State) (w : Waiter) (mem : Memory) (full : Bool) (t : Thread) : Prop where
  idle : z.Idle
  wgs : z.wgs = s.wgs
  mem : z.mem = mem
  full : z.isFull w.key = full
  thread : z.thread w.who = some t

theorem State.Lone.idle_withoutWaiter (hl : s.Lone w) : (s.withoutWaiter w).Idle :=
  ⟨by simp [State.withoutWaiter, hl.waiters], by simp [State.withoutWaiter, hl.stores]⟩

theorem State.Lone.cutOff_withoutWaiter (hl : s.Lone w) : (s.withoutWaiter w).cutOff w = false :=
  congrArg not hl.still

section lone

variable (hl : s.Lone w) (hscope : s.queueScope w.who w.key = .wg) (ht : s.thread w.who = some t) (hst : t.status = .running)
include hl hscope ht hst

/-- A push writes its slot and sets it full, and its thread's count of stores falls. -/
theorem State.Lone.waiterGo_push {bs : List Byte} (hk : w.kind = .push bs) :
    s.Acted (s.waiterGo w) w (Memory.writeN s.mem w.key bs) true (t.count .stores (· - 1)) := by
  have hscope' : (s.withoutWaiter w).queueScope w.who w.key = .wg := hscope
  have hnarrow : Scope.wg.wide = false := rfl
  obtain ⟨u, m, hpokes⟩ := (s.withoutWaiter w).pokes_eq w.run (bytesAt w.key bs)
  obtain ⟨u', hfull⟩ := ((s.withoutWaiter w).pokes w.run (bytesAt w.key bs)).setFull_eq w.run w.key true
  have hbit := ((s.withoutWaiter w).pokes w.run (bytesAt w.key bs)).isFull_setFull w.run w.key true
  rw [State.waiterGo_of_push hk hl.cutOff_withoutWaiter, hscope', hnarrow]
  simp only [Bool.false_eq_true, if_false]
  generalize ((s.withoutWaiter w).pokes w.run (bytesAt w.key bs)).setFull w.run w.key true = y at hfull hbit ⊢
  rw [hpokes, putBytes_bytesAt] at hfull
  have hyt : y.thread w.who = some t := by rw [hfull]; exact ht
  rw [State.uncount_of_running hyt hst]
  refine ⟨?_, ?_, ?_, hbit, State.thread_setThread ..⟩
  · rw [hfull]
    exact hl.idle_withoutWaiter
  · rw [hfull]
    rfl
  · rw [hfull]
    rfl

/-- A pop reads its slot and sets it empty, and what it has read arrives. -/
theorem State.Lone.waiterGo_pop {n : Nat} (hk : w.kind = .pop n) (hp : s.poisonedIn w.key n = false) :
    s.Acted (s.waiterGo w) w s.mem false (t.arrived w.seq (destRegs w.dests (s.mem.readN w.key n)) .loads) := by
  have hscope' : (s.withoutWaiter w).queueScope w.who w.key = .wg := hscope
  have hacq : ∀ y : State, y.acquire w.core .wg = y := fun _ => rfl
  obtain ⟨u, hfull⟩ := (s.withoutWaiter w).setFull_eq w.run w.key false
  have hbit := (s.withoutWaiter w).isFull_setFull w.run w.key false
  rw [State.waiterGo_of_pop hk hl.cutOff_withoutWaiter hp, hscope', hacq]
  generalize (s.withoutWaiter w).setFull w.run w.key false = y at hfull hbit ⊢
  have hyt : y.takeFresh.2.thread w.who = some t := by rw [hfull]; exact ht
  have hz := y.takeFresh.2.sameMemory_arrive w.who w.seq (destRegs w.dests (s.mem.readN w.key n)) .loads
  refine ⟨hz.idle ?_, hz.wgs.trans ?_, hz.mem.trans ?_, (State.isFull_of_full hz.full _).trans hbit, State.thread_arrive hyt hst ..⟩
  · rw [hfull]
    exact hl.idle_withoutWaiter
  · rw [hfull]
    rfl
  · rw [hfull]
    rfl

end lone

end Sys2Proof.Machine
end

section
/-! PROOFS. The QUEUE instructions on a queue in their own core's scratchpad when they act (11_streamers.md R190 to R192). -/

namespace Sys2Proof.Machine

variable {s z : State} {h : HeldRun} {c : Cmd} {t : Thread} {g : Wg} {k : Nat}

/-- A QUEUE command of a thread that runs on acts on a queue of storage, where no thread waits and nothing else is on its way. -/
structure QueueActs (s : State) (h : HeldRun) (c : Cmd) (t : Thread) (g : Wg) : Prop extends State.Clear s where
  wg : s.wg h.who.wg = some g
  storage : g.isOq c.p = false
  inRange : c.p < g.qcs.length
  thread : s.thread h.who = some t
  running : t.status = .running
  noFrame : t.arch.frame = none
  memOk : MemOk s
  waiters : s.waiters = []
  after : c.after = []

/-- A slot lies in the scratchpad of the command's own workgroup, in its core. -/
def HereSlot (s : State) (h : HeldRun) (g : Wg) (k : Nat) : Prop :=
  isScratch k = true ∧ scratchCore k = h.core ∧ g.holds k 4 = true ∧ s.still h.who k 4 = true

/-- The state in which a waiter has claimed its slot. -/
def State.claiming (s : State) (u : List UndoRec) (n : Nat) (g : Wg) (x : Waiter) : State :=
  { s.withWg u n g with nextId := s.nextId + 1, waiters := [x] }

/-- What has become of a queue's workgroup, of a slot of it and of a thread: no thread waits. -/
structure State.Queued (z : State) (r : TRef) (g : Wg) (m : Memory) (k : Nat) (full : Bool) (t : Thread) : Prop where
  waiters : z.waiters = []
  wg : z.wg r.wg = some g
  mem : z.mem = m
  full : z.isFull k = full
  thread : z.thread r = some t

section claims

variable (hq : QueueActs s h c t g) (hh : HereSlot s h g k)
include hq hh

/-- A claim on a slot of its own core may act at once. -/
theorem QueueActs.lone_claiming (u : List UndoRec) (q : QCtl) (i : Nat) (kind : WaiterKind) (ds : List Dest) (cls : Cls) :
    let x := queueWaiter h c i k kind ds cls false
    (s.claiming u h.who.wg (g.withQc c.p q) x).Lone x := by
  obtain ⟨hscr, hcore, -, hstill⟩ := hh
  intro x
  have hstill' : (s.claiming u h.who.wg (g.withQc c.p q) x).still h.who k 4 = true :=
    (State.still_of_withQc (z := s.claiming u h.who.wg (g.withQc c.p q) x) hq.wg hscr rfl rfl 4).trans hstill
  have hrel : x.rel = 0 := by simp [x, queueWaiter, hcore]
  exact { stores := hq.stores, loads := hq.loads, held := hq.held, rvHolds := hq.rvHolds, remotes := hq.remotes, claims := hq.claims,
          waiters := rfl, rel := hrel, after := hq.after, unspilled := rfl, still := hstill' }

omit hq in
/-- Its handoff is at WG scope. -/
theorem HereSlot.scope {q : QCtl} (hz : z.wg h.who.wg = some (g.withQc c.p q)) : z.queueScope h.who k = .wg := by
  obtain ⟨-, -, hholds, -⟩ := hh
  have hholds' : (g.withQc c.p q).holds k 4 = true := hholds
  rw [State.queueScope, hz]
  exact if_pos hholds'

end claims

/-- The slot of a push, and that of a pop. -/
def Wg.tailSlot (g : Wg) (n : Nat) : Nat := (g.qc n).slotKey (g.qc n).tail
def Wg.headSlot (g : Wg) (n : Nat) : Nat := (g.qc n).slotKey (g.qc n).head

/-- The waiter of a push, and that of a pop. -/
def pushWaiter (s : State) (h : HeldRun) (c : Cmd) (g : Wg) (bs : List Byte) : Waiter :=
  queueWaiter h c s.nextId (g.tailSlot c.p) (.push bs) [] .stores false
def popWaiter (s : State) (h : HeldRun) (c : Cmd) (g : Wg) (tag : Half) : Waiter :=
  queueWaiter h c s.nextId (g.headSlot c.p) (.pop (g.qc c.p).elem) (popDests c.d (g.qc c.p).es tag) .loads false

/-- The queue after a push has claimed its slot, and after a pop has. -/
def Wg.pushedQc (g : Wg) (n : Nat) : Wg := g.withQc n { g.qc n with tail := (g.qc n).tail + 1 }
def Wg.poppedQc (g : Wg) (n : Nat) : Wg := g.withQc n { g.qc n with head := (g.qc n).head + 1 }

theorem State.addWaiter_of_none (hw : s.waiters = []) (x : Waiter) : s.addWaiter x = ({ s with waiters := [x] } : State).monitorAll [x.key] := by
  rw [State.addWaiter, hw]
  rfl

section push

variable (hq : QueueActs s h c t g) (hh : HereSlot s h g (g.tailSlot c.p)) (run : Option Nat) (bs : List Byte)
include hq hh

theorem QueueActs.lone_push (u : List UndoRec) :
    (s.claiming u h.who.wg (g.pushedQc c.p) (pushWaiter s h c g bs)).Lone (pushWaiter s h c g bs) :=
  hq.lone_claiming hh u ..

theorem QueueActs.pushClaim_eq : ∃ u, s.pushClaim h c run c.p bs = (BitVec.ofNat 32 ((g.qc c.p).slot (g.qc c.p).tail),
    (s.claiming u h.who.wg (g.pushedQc c.p) (pushWaiter s h c g bs)).monitorAll [(pushWaiter s h c g bs).key]) := by
  obtain ⟨u, hu⟩ := State.setQc_eq hq.wg run c.p { g.qc c.p with tail := (g.qc c.p).tail + 1 }
  have hclaim : s.pushClaim h c run c.p bs =
      let y := s.setQc run h.who.wg c.p { g.qc c.p with tail := (g.qc c.p).tail + 1 }
      (BitVec.ofNat 32 ((g.qc c.p).slot (g.qc c.p).tail), y.takeId.2.addWaiter (queueWaiter h c y.nextId
        (g.tailSlot c.p) (.push bs) [] .stores
        (y.takeId.2.queueScope h.who (g.tailSlot c.p)).wide)) := by
    unfold State.pushClaim
    rw [hq.wg]
    rfl
  have hscope := hh.scope (z := (s.withWg u h.who.wg (g.pushedQc c.p)).takeId.2) (State.wg_withWg s u ..)
  have hwide : Scope.wg.wide = false := rfl
  dsimp only at hclaim
  rw [hu] at hclaim
  rw [show g.withQc c.p { g.qc c.p with tail := (g.qc c.p).tail + 1 } = g.pushedQc c.p from rfl, hscope, hwide] at hclaim
  exact ⟨u, hclaim.trans (congrArg (Prod.mk _) (State.addWaiter_of_none (by exact hq.waiters) _))⟩

/-- A push into a free slot is there, and its thread's count of stores has fallen. -/
theorem QueueActs.pushClaim_of_free (hfree : s.isFull (g.tailSlot c.p) = false) :
    ∃ z, s.pushClaim h c run c.p bs = (BitVec.ofNat 32 ((g.qc c.p).slot (g.qc c.p).tail), z) ∧
      z.Queued h.who (g.pushedQc c.p) (Memory.writeN s.mem (g.tailSlot c.p) bs)
        (g.tailSlot c.p) true (t.count .stores (· - 1)) := by
  obtain ⟨u, hu⟩ := hq.pushClaim_eq hh run bs
  have hlone := hq.lone_push hh bs u
  have hready := (hlone.waiterReady_push rfl).trans (congrArg not hfree)
  have hacted := hlone.waiterGo_push (hh.scope (alook_aput_self ..)) hq.thread hq.running rfl
  rw [hlone.monitorAll_of_ready hready hacted.idle] at hu
  exact ⟨_, hu, hacted.idle.1, by rw [State.wg, hacted.wgs]; exact alook_aput_self .., hacted.mem, hacted.full, hacted.thread⟩

/-- A push into a full slot waits. -/
theorem QueueActs.pushClaim_of_full (hfull : s.isFull (g.tailSlot c.p) = true) :
    ∃ u, s.pushClaim h c run c.p bs = (BitVec.ofNat 32 ((g.qc c.p).slot (g.qc c.p).tail),
      s.claiming u h.who.wg (g.pushedQc c.p) (pushWaiter s h c g bs)) := by
  obtain ⟨u, hu⟩ := hq.pushClaim_eq hh run bs
  have hlone := hq.lone_push hh bs u
  have hready := (hlone.waiterReady_push rfl).trans (congrArg not hfull)
  rw [hlone.monitorAll_of_not hready] at hu
  exact ⟨u, hu⟩

end push

section pop

variable (hq : QueueActs s h c t g) (hh : HereSlot s h g (g.headSlot c.p)) (run : Option Nat) (tag : Half)
include hq

theorem QueueActs.popClaim_eq : ∃ u, s.popClaim h c run c.p c.d tag =
    (s.claiming u h.who.wg (g.poppedQc c.p) (popWaiter s h c g tag)).monitorAll [(popWaiter s h c g tag).key] := by
  obtain ⟨u, hu⟩ := State.setQc_eq (s := s.takeId.2) hq.wg run c.p { g.qc c.p with head := (g.qc c.p).head + 1 }
  have hclaim : s.popClaim h c run c.p c.d tag =
      (s.takeId.2.setQc run h.who.wg c.p { g.qc c.p with head := (g.qc c.p).head + 1 }).addWaiter (popWaiter s h c g tag) := by
    unfold State.popClaim
    rw [hq.wg]
    exact if_neg (Bool.eq_false_iff.1 hq.storage)
  rw [hu] at hclaim
  exact ⟨u, hclaim.trans (State.addWaiter_of_none (by exact hq.waiters) _)⟩

include hh

theorem QueueActs.lone_pop (u : List UndoRec) :
    (s.claiming u h.who.wg (g.poppedQc c.p) (popWaiter s h c g tag)).Lone (popWaiter s h c g tag) :=
  hq.lone_claiming hh u ..

/-- A pop of a full slot of good data has taken it, and what it has read has arrived. -/
theorem QueueActs.popClaim_of_full (hfull : s.isFull (g.headSlot c.p) = true)
    (hp : s.poisonedIn (g.headSlot c.p) (g.qc c.p).elem = false) :
    (s.popClaim h c run c.p c.d tag).Queued h.who (g.poppedQc c.p) s.mem (g.headSlot c.p) false
      (t.arrived h.seq (destRegs (popDests c.d (g.qc c.p).es tag) (s.mem.readN (g.headSlot c.p) (g.qc c.p).elem))
        .loads) := by
  obtain ⟨u, hu⟩ := hq.popClaim_eq run tag
  have hlone := hq.lone_pop hh tag u
  have hready := (hlone.waiterReady_pop rfl).trans hfull
  have hacted := hlone.waiterGo_pop (hh.scope (alook_aput_self ..)) hq.thread hq.running rfl hp
  rw [hu, hlone.monitorAll_of_ready hready hacted.idle]
  exact ⟨hacted.idle.1, by rw [State.wg, hacted.wgs]; exact alook_aput_self .., hacted.mem, hacted.full, hacted.thread⟩

/-- A pop of a free slot waits. -/
theorem QueueActs.popClaim_of_free (hfree : s.isFull (g.headSlot c.p) = false) :
    ∃ u, s.popClaim h c run c.p c.d tag = s.claiming u h.who.wg (g.poppedQc c.p) (popWaiter s h c g tag) := by
  obtain ⟨u, hu⟩ := hq.popClaim_eq run tag
  have hlone := hq.lone_pop hh tag u
  have hready := (hlone.waiterReady_pop rfl).trans hfree
  rw [hlone.monitorAll_of_not hready] at hu
  exact ⟨u, hu⟩

end pop

end Sys2Proof.Machine
end

section
/-! PROOFS. What QPUSH, QPOP, their trying forms and QLEN leave at a queue in their own core's scratchpad (11_streamers.md R191, R192). -/

namespace Sys2Proof.Machine

variable {s z y : State} {h : HeldRun} {c : Cmd} {t t' : Thread} {g : Wg} {r : TRef}

/-! ### A predicate written at commit -/

/-- A thread with a predicate that a run has written at its commit. -/
def Thread.predWritten (t : Thread) (seq p : Nat) (b : Bool) : Thread :=
  { t with arch := t.arch.setPred p b, run := if seq < t.seq then { t.run with snap := t.run.snap.setPred p b } else t.run }

theorem State.sameMemory_writePred (s : State) (r : TRef) (seq p : Nat) (b : Bool) : s.SameMemory (s.writePred r seq p b) := by
  obtain ⟨th, qs, hz⟩ := s.threadsQuads_modThread r fun t => t.predWritten seq p b
  exact ⟨th, qs, _, by
    rw [State.writePred]
    exact congrArg (fun z : State => ({ z with held := _ } : State)) hz⟩

theorem State.thread_writePred (ht : s.thread r = some t) (seq p : Nat) (b : Bool) :
    (s.writePred r seq p b).thread r = some (t.predWritten seq p b) :=
  (State.thread_modThread s r _).trans (congrArg (Option.map _) ht)

theorem Thread.regs_predWritten (t : Thread) (seq p : Nat) (b : Bool) : (t.predWritten seq p b).arch.regs = t.arch.regs :=
  (Arch.setPred_frame ..).1

theorem Thread.reg_predWritten (t : Thread) (seq p d : Nat) (b : Bool) : (t.predWritten seq p b).arch.reg d = t.arch.reg d := by
  rw [Arch.reg, Thread.regs_predWritten, Arch.reg]

/-! ### The values that a pop leaves -/

theorem drop_readN (m : Memory) (a i n : Nat) : (m.readN a (i + n)).drop i = m.readN (a + i) n := by
  induction i generalizing a with
  | zero => rw [Nat.zero_add]; rfl
  | succ i ih => rw [Nat.succ_add, Memory.readN, List.drop_succ_cons, ih, Nat.add_right_comm, Nat.add_assoc]

theorem take_readN (m : Memory) (a i n : Nat) : (m.readN a (i + n)).take i = m.readN a i := by
  induction i generalizing a with
  | zero => rfl
  | succ i ih => rw [Nat.succ_add, Memory.readN, List.take_succ_cons, ih, Memory.readN]

/-- An unsigned word of what has been read. -/
theorem Dest.value_word (d : Nat) (tag : Half) (off : Nat) (m : Memory) (a n : Nat) :
    ({ reg := d, tag := tag, off := off, len := 4 } : Dest).value (m.readN a (off + (4 + n))) =
      { bits := BitVec.ofNat 32 (leNat (m.readN (a + off) 4)), tag := tag } := by
  rw [Dest.value, drop_readN, take_readN]
  rfl

/-- The register, or the pair, of a pop (R191). -/
theorem Thread.reg_popped (hf : t.arch.frame = none) (seq d k : Nat) (q : QCtl) (tag : Half) (m : Memory) :
    let u := t.arrived seq (destRegs (popDests d q.es tag) (m.readN k q.elem)) .loads
    (q.es = false → u.arch.reg d = { bits := BitVec.ofNat 32 (leNat (m.readN k 4)), tag := tag }) ∧
      (q.es = true → u.arch.reg d = { bits := BitVec.ofNat 32 (leNat (m.readN k 4)), tag := if tKind tag = 14 then tagLo64 else tag } ∧
        u.arch.reg (d + 1) = { bits := BitVec.ofNat 32 (leNat (m.readN (k + 4) 4)), tag := if tKind tag = 14 then tagHi64 else tag }) := by
  intro u
  have hu : u.arch.regs = t.arch.regs.setAll (destRegs (popDests d q.es tag) (m.readN k q.elem)) :=
    congrArg Arch.regs (Thread.arch_arrived hf ..)
  refine ⟨fun hes => ?_, fun hes => ?_⟩
  · have hws : destRegs (popDests d q.es tag) (m.readN k q.elem) =
        [(d, { val := { bits := BitVec.ofNat 32 (leNat (m.readN k 4)), tag := tag } })] := by
      rw [popDests, QCtl.elem, hes]
      exact congrArg (fun v : RegVal => [(d, ({ val := v } : Reg))]) (Dest.value_word d tag 0 m k 0)
    rw [Arch.reg, hu, hws]
    exact congrArg Reg.val (RegFile.get_set ..)
  · have hws : destRegs (popDests d q.es tag) (m.readN k q.elem) =
        [(d, { val := { bits := BitVec.ofNat 32 (leNat (m.readN k 4)), tag := if tKind tag = 14 then tagLo64 else tag } }),
         (d + 1, { val := { bits := BitVec.ofNat 32 (leNat (m.readN (k + 4) 4)), tag := if tKind tag = 14 then tagHi64 else tag } })] := by
      rw [popDests, QCtl.elem, hes]
      exact congrArg₂ (fun v v' : RegVal => [(d, ({ val := v } : Reg)), (d + 1, { val := v' })]) (Dest.value_word d _ 0 m k 4)
        (Dest.value_word (d + 1) _ 4 m k 0)
    rw [Arch.reg, Arch.reg, hu, hws]
    exact ⟨congrArg Reg.val ((RegFile.get_set_of_ne _ _ (by omega)).trans (RegFile.get_set ..)), congrArg Reg.val (RegFile.get_set ..)⟩

/-! ### The element of a push -/

/-- The bytes that a push writes. -/
def pushBytes (c : Cmd) (q : QCtl) : List Byte :=
  if q.es then natLe 4 (c.words.getD 0 0).toNat ++ natLe 4 (c.words.getD 1 0).toNat else natLe 4 (c.words.getD 0 0).toNat

theorem length_pushBytes (c : Cmd) (q : QCtl) : (pushBytes c q).length = q.elem := by
  unfold pushBytes QCtl.elem
  split <;> simp

/-! ### The commands -/

/-- The tag and the predicate of a command. -/
def Cmd.popTag (c : Cmd) : Half := (c.words.getD 0 0).setWidth 16
def Cmd.tryPred (c : Cmd) : Nat := (c.words.getD 2 0).toNat

/-- What a failing trying form of a pop leaves its thread with: the registers that it would have written are free, and its count of loads
has fallen. -/
def Thread.unbusy (t : Thread) (c : Cmd) : Thread := { t with busy := c.dests.foldl (fun b x => b.erase x) t.busy }
def Thread.popless (t : Thread) (c : Cmd) : Thread := (t.unbusy c).count .loads (· - 1)

theorem State.sameMemory_setThread (s : State) (r : TRef) (t : Thread) : s.SameMemory (s.setThread r t) := ⟨_, _, _, rfl⟩

theorem State.Queued.of_sameMemory {m : Memory} {k : Nat} {b : Bool} (hz : z.Queued r g m k b t) (hy : z.SameMemory y)
    (ht : y.thread r = some t') : y.Queued r g m k b t' :=
  ⟨hy.waiters.trans hz.waiters, (congrArg (alook r.wg) hy.wgs).trans hz.wg, hy.mem.trans hz.mem,
    (State.isFull_of_full hy.full k).trans hz.full, ht⟩

section equations

variable (hg : s.wg h.who.wg = some g)
include hg

theorem State.actQueue_qpush (hop : c.op = .qpush) : s.actQueue h c =
    (s.pushClaim h c (some h.id) c.p (pushBytes c (g.qc c.p))).2.arrive h.who h.seq
      [(c.d, { val := regN32 (s.pushClaim h c (some h.id) c.p (pushBytes c (g.qc c.p))).1 })] .none := by
  simp only [State.actQueue, hg, hop]
  rfl

theorem State.actQueue_qpop (hop : c.op = .qpop) : s.actQueue h c = s.popClaim h c (some h.id) c.p c.d c.popTag := by
  simp only [State.actQueue, hg, hop]
  rfl

theorem State.actQueue_qtrypush (hop : c.op = .qtrypush) : s.actQueue h c =
    if !(s.isFull (g.tailSlot c.p)) && !(s.claimed (g.tailSlot c.p) none) && !(s.slotHeld (g.tailSlot c.p) true) then
      ((s.pushClaim h c (some h.id) c.p (pushBytes c (g.qc c.p))).2.arrive h.who h.seq
        [(c.d, { val := regN32 (s.pushClaim h c (some h.id) c.p (pushBytes c (g.qc c.p))).1 })] .none).writePred h.who h.seq c.tryPred true
    else (s.arrive h.who h.seq [(c.d, { val := regN32 0xFFFFFFFF })] .stores).writePred h.who h.seq c.tryPred false := by
  simp only [State.actQueue, hg, hop]
  rfl

theorem State.actQueue_qtrypop (hop : c.op = .qtrypop) (hoq : g.isOq c.p = false) : s.actQueue h c =
    if s.isFull (g.headSlot c.p) && !(s.claimed (g.headSlot c.p) none) && !(s.slotHeld (g.headSlot c.p) false) then
      (s.popClaim h c (some h.id) c.p c.d c.popTag).writePred h.who h.seq c.tryPred true
    else ((s.modThread h.who (·.unbusy c)).uncount h.who .loads).writePred h.who h.seq c.tryPred false := by
  simp only [State.actQueue, hg, hop, hoq, Bool.false_eq_true, if_false]
  rfl

theorem State.actQueue_qlen (hop : c.op = .qlen) (hoq : g.isOq c.p = false) : s.actQueue h c =
    s.arrive h.who h.seq [(c.d, { val := { bits := (g.qc c.p).tail - (g.qc c.p).head, tag := tagI32 } })] .none := by
  simp only [State.actQueue, hg, hop, State.queueLen, hoq, Bool.false_eq_true, if_false, BitVec.ofInt_toInt]

end equations

theorem QueueActs.unclaimed (hq : QueueActs s h c t g) (k : Nat) : s.claimed k none = false := by
  rw [State.claimed, hq.claims]
  rfl

theorem QueueActs.slotHeld (hq : QueueActs s h c t g) (k : Nat) (b : Bool) : s.slotHeld k b = false := by
  rw [State.slotHeld, hq.waiters]
  rfl

/-- The thread of a push that has been made: it has the slot's number, and its count of stores has fallen. -/
def Thread.pushed (t : Thread) (seq d slot : Nat) : Thread :=
  (t.count .stores (· - 1)).arrived seq [(d, { val := regNat slot })] .none

theorem Thread.pushed_spec (hf : t.arch.frame = none) (seq d slot : Nat) :
    (t.pushed seq d slot).arch.reg d = regNat slot ∧ (t.pushed seq d slot).stores = t.stores - 1 :=
  ⟨Thread.reg_arrived (t := t.count .stores (· - 1)) hf .., rfl⟩

/-- A queue control word that a command has put in its place is read there. -/
theorem QueueActs.qc_of_wg (hq : QueueActs s h c t g) (q : QCtl) (hz : z.wg h.who.wg = some (g.withQc c.p q)) :
    (z.wg h.who.wg).map (·.qc c.p) = some q := by
  rw [hz]
  exact congrArg some (Wg.qc_withQc hq.inRange _)

section push

variable (hq : QueueActs s h c t g)
include hq

/-- The element is in its slot, which is full, TAIL has gone on, and no other byte has changed. -/
theorem QueueActs.pushed_of_queued (hz : z.Queued h.who (g.pushedQc c.p)
      (Memory.writeN s.mem (g.tailSlot c.p) (pushBytes c (g.qc c.p))) (g.tailSlot c.p) true t') :
    z.mem.readN (g.tailSlot c.p) (g.qc c.p).elem = pushBytes c (g.qc c.p) ∧ z.isFull (g.tailSlot c.p) = true ∧
      (z.wg h.who.wg).map (·.qc c.p) = some { g.qc c.p with tail := (g.qc c.p).tail + 1 } ∧
      ∀ a, (a < g.tailSlot c.p ∨ g.tailSlot c.p + (g.qc c.p).elem ≤ a) → z.mem.read a = s.mem.read a := by
  have hlen := length_pushBytes c (g.qc c.p)
  refine ⟨?_, hz.full, ?_, fun a ha => ?_⟩
  · rw [hz.mem, ← hlen]
    exact readN_writeN_self hq.memOk ..
  · exact hq.qc_of_wg _ hz.wg
  · rw [hz.mem]
    exact Memory.read_writeN_of_ne _ _ hq.memOk (by rwa [hlen])

variable (hh : HereSlot s h g (g.tailSlot c.p))

include hh

theorem QueueActs.queued_push_of_free (hfree : s.isFull (g.tailSlot c.p) = false) :
    let x := s.pushClaim h c (some h.id) c.p (pushBytes c (g.qc c.p))
    (x.2.arrive h.who h.seq [(c.d, { val := regN32 x.1 })] .none).Queued h.who (g.pushedQc c.p)
      (Memory.writeN s.mem (g.tailSlot c.p) (pushBytes c (g.qc c.p))) (g.tailSlot c.p) true
      (t.pushed h.seq c.d ((g.qc c.p).slot (g.qc c.p).tail)) := by
  obtain ⟨z, hx, hz⟩ := hq.pushClaim_of_free hh (some h.id) (pushBytes c (g.qc c.p)) hfree
  intro x
  rw [show x = _ from hx]
  exact hz.of_sameMemory (State.sameMemory_arrive ..) (State.thread_arrive hz.thread hq.running ..)

theorem QueueActs.qpush_of_free (hop : c.op = .qpush) (hfree : s.isFull (g.tailSlot c.p) = false) :
    (s.actQueue h c).Queued h.who (g.pushedQc c.p) (Memory.writeN s.mem (g.tailSlot c.p) (pushBytes c (g.qc c.p))) (g.tailSlot c.p) true
      (t.pushed h.seq c.d ((g.qc c.p).slot (g.qc c.p).tail)) := by
  rw [State.actQueue_qpush hq.wg hop]
  exact hq.queued_push_of_free hh hfree

theorem QueueActs.qtrypush_of_free (hop : c.op = .qtrypush) (hfree : s.isFull (g.tailSlot c.p) = false) :
    (s.actQueue h c).Queued h.who (g.pushedQc c.p) (Memory.writeN s.mem (g.tailSlot c.p) (pushBytes c (g.qc c.p))) (g.tailSlot c.p) true
      ((t.pushed h.seq c.d ((g.qc c.p).slot (g.qc c.p).tail)).predWritten h.seq c.tryPred true) := by
  have hz := hq.queued_push_of_free hh hfree
  rw [State.actQueue_qtrypush hq.wg hop, if_pos (by simp [hfree, hq.unclaimed, hq.slotHeld])]
  exact hz.of_sameMemory (State.sameMemory_writePred ..) (State.thread_writePred hz.thread ..)

/-- A QPUSH at a full slot has claimed it, and waits. -/
theorem QueueActs.qpush_of_full (hop : c.op = .qpush) (hfull : s.isFull (g.tailSlot c.p) = true) :
    (s.actQueue h c).mem = s.mem ∧ (s.actQueue h c).wg h.who.wg = some (g.pushedQc c.p) ∧
      (s.actQueue h c).waiters = [pushWaiter s h c g (pushBytes c (g.qc c.p))] := by
  obtain ⟨u, hu⟩ := hq.pushClaim_of_full hh (some h.id) (pushBytes c (g.qc c.p)) hfull
  rw [State.actQueue_qpush hq.wg hop, hu]
  have hz := State.sameMemory_arrive (s.claiming u h.who.wg (g.pushedQc c.p) (pushWaiter s h c g (pushBytes c (g.qc c.p)))) h.who h.seq
    [(c.d, { val := regNat ((g.qc c.p).slot (g.qc c.p).tail) })] .none
  exact ⟨hz.mem, (congrArg (alook h.who.wg) hz.wgs).trans (State.wg_withWg s u ..), hz.waiters⟩

end push

/-- The thread of a pop that has been made. -/
def Thread.popped (t : Thread) (seq : Nat) (c : Cmd) (g : Wg) (m : Memory) : Thread :=
  t.arrived seq (destRegs (popDests c.d (g.qc c.p).es c.popTag) (m.readN (g.headSlot c.p) (g.qc c.p).elem)) .loads

section pop

variable (hq : QueueActs s h c t g) (hh : HereSlot s h g (g.headSlot c.p))
include hq hh

theorem QueueActs.qpop_of_full (hop : c.op = .qpop) (hfull : s.isFull (g.headSlot c.p) = true)
    (hp : s.poisonedIn (g.headSlot c.p) (g.qc c.p).elem = false) :
    (s.actQueue h c).Queued h.who (g.poppedQc c.p) s.mem (g.headSlot c.p) false (t.popped h.seq c g s.mem) := by
  rw [State.actQueue_qpop hq.wg hop]
  exact hq.popClaim_of_full hh (some h.id) c.popTag hfull hp

theorem QueueActs.qtrypop_of_full (hop : c.op = .qtrypop) (hfull : s.isFull (g.headSlot c.p) = true)
    (hp : s.poisonedIn (g.headSlot c.p) (g.qc c.p).elem = false) :
    (s.actQueue h c).Queued h.who (g.poppedQc c.p) s.mem (g.headSlot c.p) false
      ((t.popped h.seq c g s.mem).predWritten h.seq c.tryPred true) := by
  have hz := hq.popClaim_of_full hh (some h.id) c.popTag hfull hp
  rw [State.actQueue_qtrypop hq.wg hop hq.storage, if_pos (by simp [hfull, hq.unclaimed, hq.slotHeld])]
  exact hz.of_sameMemory (State.sameMemory_writePred ..) (State.thread_writePred hz.thread ..)

/-- A QPOP at a free slot has claimed it, and waits. -/
theorem QueueActs.qpop_of_free (hop : c.op = .qpop) (hfree : s.isFull (g.headSlot c.p) = false) :
    (s.actQueue h c).mem = s.mem ∧ (s.actQueue h c).wg h.who.wg = some (g.poppedQc c.p) ∧
      (s.actQueue h c).waiters = [popWaiter s h c g c.popTag] := by
  obtain ⟨u, hu⟩ := hq.popClaim_of_free hh (some h.id) c.popTag hfree
  rw [State.actQueue_qpop hq.wg hop, hu]
  exact ⟨rfl, State.wg_withWg s u .., rfl⟩

end pop

section fails

variable (hq : QueueActs s h c t g)
include hq

/-- A command that changes no more than its thread leaves queues, memory and waiters as they are. -/
theorem QueueActs.queued_of_sameMemory (hz : s.SameMemory z) (ht : z.thread h.who = some t') (k : Nat) :
    z.Queued h.who g s.mem k (s.isFull k) t' :=
  ⟨hz.waiters.trans hq.waiters, (congrArg (alook h.who.wg) hz.wgs).trans hq.wg, hz.mem, State.isFull_of_full hz.full k, ht⟩

/-- A QTRYPUSH at a full slot fails. -/
theorem QueueActs.qtrypush_of_full (hop : c.op = .qtrypush) (hfull : s.isFull (g.tailSlot c.p) = true) :
    (s.actQueue h c).Queued h.who g s.mem (g.tailSlot c.p) true
      ((t.arrived h.seq [(c.d, { val := regN32 0xFFFFFFFF })] .stores).predWritten h.seq c.tryPred false) := by
  rw [State.actQueue_qtrypush hq.wg hop, if_neg (by simp [hfull]), ← hfull]
  exact hq.queued_of_sameMemory ((State.sameMemory_arrive ..).trans (State.sameMemory_writePred ..))
    (State.thread_writePred (State.thread_arrive hq.thread hq.running ..) ..) _

/-- A QTRYPOP at a free slot fails. -/
theorem QueueActs.qtrypop_of_free (hop : c.op = .qtrypop) (hfree : s.isFull (g.headSlot c.p) = false) :
    (s.actQueue h c).Queued h.who g s.mem (g.headSlot c.p) false ((t.popless c).predWritten h.seq c.tryPred false) := by
  have hcount : (s.modThread h.who (·.unbusy c)).uncount h.who .loads =
      (s.setThread h.who (t.unbusy c)).setThread h.who (t.popless c) := by
    rw [State.modThread_of_some hq.thread]
    exact State.uncount_of_running (t := t.unbusy c) (State.thread_setThread ..) hq.running _
  have hz := (s.sameMemory_setThread h.who (t.unbusy c)).trans (State.sameMemory_setThread _ h.who (t.popless c))
  rw [State.actQueue_qtrypop hq.wg hop hq.storage, if_neg (by simp [hfree]), hcount, ← hfree]
  exact hq.queued_of_sameMemory (hz.trans (State.sameMemory_writePred ..)) (State.thread_writePred (State.thread_setThread ..) ..) _

/-- QLEN answers with the queue's length. -/
theorem QueueActs.qlen_spec (hop : c.op = .qlen) (k : Nat) : (s.actQueue h c).Queued h.who g s.mem k (s.isFull k)
    (t.arrived h.seq [(c.d, { val := { bits := (g.qc c.p).tail - (g.qc c.p).head, tag := tagI32 } })] .none) := by
  rw [State.actQueue_qlen hq.wg hop hq.storage]
  exact hq.queued_of_sameMemory (State.sameMemory_arrive ..) (State.thread_arrive hq.thread hq.running ..) _

end fails

end Sys2Proof.Machine
end

section
/-! PROOFS. QINIT when it acts (11_streamers.md R190), where nothing else is on its way. -/

namespace Sys2Proof.Machine

variable {s z y : State} {h : HeldRun} {c : Cmd} {t : Thread} {g : Wg} {k : Nat}

/-- Words may have become empty, and only slots that are to be set empty are waited on. -/
def State.Emptied (s z : State) : Prop :=
  ∃ u f n ws, z = { s with undo := u, full := f, nextId := n, waiters := ws } ∧ (∀ x ∈ f, x ∈ s.full) ∧ ∀ w ∈ ws, w.kind = .emptied

namespace State.Emptied

theorem refl (hw : ∀ w ∈ s.waiters, w.kind = .emptied) : s.Emptied s := ⟨_, _, _, _, rfl, fun _ hx => hx, hw⟩

theorem trans (hz : s.Emptied z) (hy : z.Emptied y) : s.Emptied y := by
  obtain ⟨u, f, n, ws, rfl, hf, -⟩ := hz
  obtain ⟨u', f', n', ws', rfl, hf', hw'⟩ := hy
  exact ⟨u', f', n', ws', rfl, fun x hx => hf x (hf' x hx), hw'⟩

section

variable (hz : s.Emptied z)
include hz

theorem waiting : ∀ w ∈ z.waiters, w.kind = .emptied := by obtain ⟨u, f, n, ws, rfl, -, hw⟩ := hz; exact hw
theorem mem : z.mem = s.mem := by obtain ⟨u, f, n, ws, rfl, -⟩ := hz; rfl
theorem wgs : z.wgs = s.wgs := by obtain ⟨u, f, n, ws, rfl, -⟩ := hz; rfl
theorem threads : z.threads = s.threads := by obtain ⟨u, f, n, ws, rfl, -⟩ := hz; rfl
theorem stores : z.stores = s.stores := by obtain ⟨u, f, n, ws, rfl, -⟩ := hz; rfl
theorem claims : z.claims = s.claims := by obtain ⟨u, f, n, ws, rfl, -⟩ := hz; rfl

/-- An empty word stays empty. -/
theorem isFull {j : Nat} (hj : s.isFull j = false) : z.isFull j = false := by
  obtain ⟨u, f, n, ws, rfl, hf, -⟩ := hz
  rw [State.isFull, List.contains_eq_mem, decide_eq_false_iff_not] at hj ⊢
  exact mt (hf _) hj

end

theorem setFull (hw : ∀ w ∈ s.waiters, w.kind = .emptied) (run : Option Nat) (j : Nat) : s.Emptied (s.setFull run j false) := by
  obtain ⟨u, hu⟩ := s.setFull_eq run j false
  rw [hu]
  exact ⟨_, _, _, _, rfl, fun x hx => List.mem_of_mem_filter hx, hw⟩

/-- A slot's waiter sets it empty, or its word has gone. -/
theorem waiterGo (hw : ∀ w ∈ s.waiters, w.kind = .emptied) {w : Waiter} (hk : w.kind = .emptied) : s.Emptied (s.waiterGo w) := by
  have hwithout : s.Emptied (s.withoutWaiter w) := ⟨_, _, _, _, rfl, fun _ hx => hx, fun x hx => hw x (List.mem_of_mem_filter hx)⟩
  have hgo : s.waiterGo w = if (s.withoutWaiter w).cutOff w then s.withoutWaiter w else (s.withoutWaiter w).setFull w.run w.key false := by
    unfold State.waiterGo State.waiterRefused
    rw [hk]
    rfl
  rw [hgo]
  split
  · exact hwithout
  · exact hwithout.trans (setFull hwithout.waiting ..)

end State.Emptied

/-- With no store on its way it is a waiter that acts. -/
theorem State.monitorStep_of_noStores (hs : s.stores = []) (hstep : s.monitorStep k = some z) : ∃ w ∈ s.waiters, z = s.waiterGo w := by
  have hacts : ∀ {ws : List Waiter} {p : Waiter → Bool}, (∀ w ∈ ws, w ∈ s.waiters) → (ws.find? p).map s.waiterGo = some z →
      ∃ w ∈ s.waiters, z = s.waiterGo w := fun hws hz => by
    obtain ⟨w, hw, rfl⟩ := Option.map_eq_some_iff.1 hz
    exact ⟨w, hws w (List.mem_of_find?_eq_some hw), rfl⟩
  simp only [State.monitorStep, hs, List.filter_nil] at hstep
  split at hstep
  · simp at hstep
  · next hnil => exact (hnil rfl).elim
  · exact hacts (fun _ hw => List.mem_of_mem_filter hw) hstep
  · next hnil _ => exact (hnil rfl).elim

theorem State.Emptied.monitor (hs : s.stores = []) (hw : ∀ w ∈ s.waiters, w.kind = .emptied) (n k : Nat) : s.Emptied (s.monitor n k) := by
  induction n generalizing s with
  | zero => exact .refl hw
  | succ n ih =>
    rw [State.monitor]
    split
    · next z hz =>
      obtain ⟨w, hmem, rfl⟩ := State.monitorStep_of_noStores hs hz
      have hgo := State.Emptied.waiterGo hw (hw w hmem)
      exact hgo.trans (ih (hgo.stores.trans hs) hgo.waiting)
    · exact .refl hw

theorem State.Emptied.monitorAll (hs : s.stores = []) (hw : ∀ w ∈ s.waiters, w.kind = .emptied) (ks : List Nat) :
    s.Emptied (s.monitorAll ks) := by
  unfold State.monitorAll
  induction (ks.map wordKey).dedup generalizing s with
  | nil => exact .refl hw
  | cons k l ih =>
    have hk := State.Emptied.monitor hs hw (s.waiters.length + s.stores.length + 1) k
    exact hk.trans (ih (hk.stores.trans hs) hk.waiting)

/-- One slot of a new queue set empty, or waited on. -/
def State.emptySlot (h : HeldRun) (c : Cmd) (s : State) (j : Nat) : State :=
  if scratchCore j == h.core && !(s.claimed j none) then s.setFull (some h.id) j false
  else { s.takeId.2 with waiters := s.waiters ++ [queueWaiter h c s.nextId j .emptied [] .none false] }

theorem State.emptySlots_eq (s : State) (h : HeldRun) (c : Cmd) (k n : Nat) : s.emptySlots h c k n =
    (((List.range (n / 4)).map fun i => k + 4 * i).foldl (State.emptySlot h c) s).monitorAll ((List.range (n / 4)).map fun i => k + 4 * i) :=
  rfl

theorem State.emptied_emptySlot (hw : ∀ w ∈ s.waiters, w.kind = .emptied) (h : HeldRun) (c : Cmd) (j : Nat) :
    s.Emptied (s.emptySlot h c j) := by
  unfold State.emptySlot
  split
  · exact .setFull hw ..
  · exact ⟨_, _, _, _, rfl, fun _ hx => hx, List.forall_mem_append.2 ⟨hw, List.forall_mem_singleton.2 rfl⟩⟩

/-- A slot of the command's own core that no thread has claimed is empty at once. -/
theorem State.isFull_emptySlot {j : Nat} (hc : s.claims = []) (hj : scratchCore j = h.core) : (s.emptySlot h c j).isFull j = false := by
  rw [State.emptySlot, if_pos (by simp [State.claimed, hc, hj])]
  exact State.isFull_setFull ..

theorem State.emptied_foldl_emptySlot (hc : s.claims = []) (hw : ∀ w ∈ s.waiters, w.kind = .emptied) (l : List Nat) :
    s.Emptied (l.foldl (State.emptySlot h c) s) ∧ ∀ j ∈ l, scratchCore j = h.core → (l.foldl (State.emptySlot h c) s).isFull j = false := by
  induction l generalizing s with
  | nil => exact ⟨.refl hw, fun _ hj => (List.not_mem_nil hj).elim⟩
  | cons i l ih =>
    have hi := State.emptied_emptySlot hw h c i
    obtain ⟨hl, hempty⟩ := ih (hi.claims.trans hc) hi.waiting
    exact ⟨hi.trans hl, List.forall_mem_cons.2 ⟨fun hcore => hl.isFull (State.isFull_emptySlot hc hcore), hempty⟩⟩

/-- The slots of a new queue set empty (R190). -/
theorem State.emptySlots_spec (hc : s.claims = []) (hs : s.stores = []) (hw : s.waiters = []) (k n : Nat) :
    s.Emptied (s.emptySlots h c k n) ∧ ∀ i, i < n / 4 → scratchCore (k + 4 * i) = h.core → (s.emptySlots h c k n).isFull (k + 4 * i) = false := by
  have hw' : ∀ w ∈ s.waiters, w.kind = .emptied := by simp [hw]
  obtain ⟨hfold, hempty⟩ := State.emptied_foldl_emptySlot (h := h) (c := c) hc hw' ((List.range (n / 4)).map fun i => k + 4 * i)
  have hmon := State.Emptied.monitorAll (hfold.stores.trans hs) hfold.waiting ((List.range (n / 4)).map fun i => k + 4 * i)
  rw [State.emptySlots_eq]
  exact ⟨hfold.trans hmon, fun i hi hcore => hmon.isFull (hempty _ (List.mem_map_of_mem (List.mem_range.2 hi)) hcore)⟩

/-- The control word that a QINIT leaves at its storage: its second word has LOG2DEPTH and the size of an element. -/
def Cmd.newQueue (c : Cmd) (k : Nat) : QCtl :=
  { v := true, base := k, ld := (c.words.getD 1 0).toNat % 16, es := (c.words.getD 1 0).toNat / 16 % 2 == 1, head := 0, tail := 0 }

theorem State.actQueue_qinit (hg : s.wg h.who.wg = some g) (hop : c.op = .qinit) (hc : c.loc = some (.key k)) : s.actQueue h c =
    ((s.setQc (some h.id) h.who.wg c.p (c.newQueue k)).emptySlots h c k (2 ^ (c.newQueue k).ld * (if (c.newQueue k).es then 8 else 4))).arrive
      h.who h.seq [(c.d, { val := regNat (2 ^ (c.newQueue k).ld) })] .none := by
  simp only [State.actQueue, hg, hop, hc]
  rfl

/-- QINIT sets the control word and empties the slots of its core, and answers with the number of slots. -/
theorem QueueActs.qinit_spec (hq : QueueActs s h c t g) (hop : c.op = .qinit) (hc : c.loc = some (.key k)) :
    let s' := s.actQueue h c
    (s'.wg h.who.wg).map (·.qc c.p) = some (c.newQueue k) ∧ s'.mem = s.mem ∧
      (∀ i, i < 2 ^ (c.newQueue k).ld * (if (c.newQueue k).es then 2 else 1) → scratchCore (k + 4 * i) = h.core →
        s'.isFull (k + 4 * i) = false) ∧
      ∃ t', s'.thread h.who = some t' ∧ t'.arch.reg c.d = regNat (2 ^ (c.newQueue k).ld) := by
  obtain ⟨u, hu⟩ := State.setQc_eq hq.wg (some h.id) c.p (c.newQueue k)
  obtain ⟨hz, hempty⟩ := State.emptySlots_spec (s := s.withWg u h.who.wg (g.withQc c.p (c.newQueue k))) (h := h) (c := c) (by exact hq.claims)
    (by exact hq.stores) (by exact hq.waiters) k (2 ^ (c.newQueue k).ld * (if (c.newQueue k).es then 8 else 4))
  have hslots : 2 ^ (c.newQueue k).ld * (if (c.newQueue k).es then 8 else 4) / 4 =
      2 ^ (c.newQueue k).ld * (if (c.newQueue k).es then 2 else 1) := by split <;> omega
  dsimp only
  rw [State.actQueue_qinit hq.wg hop hc, hu]
  rw [hslots] at hempty
  generalize (s.withWg u h.who.wg (g.withQc c.p (c.newQueue k))).emptySlots h c k _ = z at hz hempty ⊢
  have hy := z.sameMemory_arrive h.who h.seq [(c.d, { val := regNat (2 ^ (c.newQueue k).ld) })] .none
  have hwg : (z.arrive h.who h.seq [(c.d, { val := regNat (2 ^ (c.newQueue k).ld) })] .none).wg h.who.wg =
      some (g.withQc c.p (c.newQueue k)) := by
    rw [State.wg, hy.wgs, hz.wgs]
    exact alook_aput_self ..
  have hthread : z.thread h.who = some t := (congrArg (alook h.who.key) hz.threads).trans hq.thread
  refine ⟨?_, hy.mem.trans hz.mem, fun i hi hcore => (State.isFull_of_full hy.full _).trans (hempty i hi hcore), _,
    State.thread_arrive hthread hq.running .., Thread.reg_arrived hq.noFrame ..⟩
  exact hq.qc_of_wg _ hwg

end Sys2Proof.Machine
end

section
/-! PROOFS. Requests, SYNC and QUEUE instructions together (11_streamers.md R181 to R192). -/

namespace Sys2Proof.Machine

variable {s z : State} {h : HeldRun} {c : Cmd} {t u : Thread} {g : Wg}

theorem Thread.pred_predWritten (t : Thread) (seq : Nat) {p : Nat} (b : Bool) (hp : p < 7) : (t.predWritten seq p b).arch.pred p = b :=
  Arch.pred_setPred_self _ b hp

/-- The registers of the waiter of a pop. -/
theorem map_reg_popDests (d : Nat) (es : Bool) (tag : Half) : (popDests d es tag).map (·.reg) = if es then [d, d + 1] else [d] := by
  cases es <;> rfl

/-- What a push that has been made leaves, for a thread of the same registers and count of stores. -/
theorem QueueActs.push_spec (hq : QueueActs s h c t g) (hz : z.Queued h.who (g.pushedQc c.p)
      (Memory.writeN s.mem (g.tailSlot c.p) (pushBytes c (g.qc c.p))) (g.tailSlot c.p) true u)
    (hregs : u.arch.regs = (t.pushed h.seq c.d ((g.qc c.p).slot (g.qc c.p).tail)).arch.regs)
    (hstores : u.stores = (t.pushed h.seq c.d ((g.qc c.p).slot (g.qc c.p).tail)).stores) :
    z.mem.readN (g.tailSlot c.p) (g.qc c.p).elem = pushBytes c (g.qc c.p) ∧ z.isFull (g.tailSlot c.p) = true ∧
      (z.wg h.who.wg).map (·.qc c.p) = some { g.qc c.p with tail := (g.qc c.p).tail + 1 } ∧
      (∀ a, (a < g.tailSlot c.p ∨ g.tailSlot c.p + (g.qc c.p).elem ≤ a) → z.mem.read a = s.mem.read a) ∧
      ∃ t', z.thread h.who = some t' ∧ t'.arch.reg c.d = regNat ((g.qc c.p).slot (g.qc c.p).tail) ∧ t'.stores = t.stores - 1 := by
  obtain ⟨hread, hfull, hqc, hout⟩ := hq.pushed_of_queued hz
  obtain ⟨hreg, hcount⟩ := Thread.pushed_spec hq.noFrame h.seq c.d ((g.qc c.p).slot (g.qc c.p).tail)
  exact ⟨hread, hfull, hqc, hout, u, hz.thread, (congrArg (fun f : RegFile => (f.get c.d).val) hregs).trans hreg, hstores.trans hcount⟩

/-- What a pop that has been made leaves, for a thread of the same registers and count of loads. -/
theorem QueueActs.pop_spec (hq : QueueActs s h c t g) (hz : z.Queued h.who (g.poppedQc c.p) s.mem (g.headSlot c.p) false u)
    (hregs : u.arch.regs = (t.popped h.seq c g s.mem).arch.regs) (hloads : u.loads = (t.popped h.seq c g s.mem).loads) :
    let word := fun (k : Nat) => BitVec.ofNat 32 (leNat (s.mem.readN k 4))
    z.mem = s.mem ∧ z.isFull (g.headSlot c.p) = false ∧
      (z.wg h.who.wg).map (·.qc c.p) = some { g.qc c.p with head := (g.qc c.p).head + 1 } ∧
      ∃ t', z.thread h.who = some t' ∧ t'.loads = t.loads - 1 ∧
        ((g.qc c.p).es = false → t'.arch.reg c.d = { bits := word (g.headSlot c.p), tag := c.popTag }) ∧
        ((g.qc c.p).es = true →
          t'.arch.reg c.d = { bits := word (g.headSlot c.p), tag := if tKind c.popTag = 14 then tagLo64 else c.popTag } ∧
          t'.arch.reg (c.d + 1) = { bits := word (g.headSlot c.p + 4), tag := if tKind c.popTag = 14 then tagHi64 else c.popTag }) := by
  have hreg : ∀ d, u.arch.reg d = (t.popped h.seq c g s.mem).arch.reg d := fun d => congrArg (fun f : RegFile => (f.get d).val) hregs
  have hpopped := Thread.reg_popped hq.noFrame h.seq c.d (g.headSlot c.p) (g.qc c.p) c.popTag s.mem
  intro word
  refine ⟨hz.mem, hz.full, hq.qc_of_wg _ hz.wg, u, hz.thread, hloads, ?_⟩
  rw [hreg, hreg]
  exact hpopped

/-- Settles O36: requests at a rendezvous word by what its evaluation takes, the SYNC forms by the requests that they make, and the
QUEUE instructions by their claim on a slot, whose waiter is the only one and so acts at once or waits on. -/
theorem rendezvousArrivals : Obligations.RendezvousArrivals := by
  unfold Obligations.RendezvousArrivals
  refine ⟨fun s k da db who hm hw hs hheld => State.evaluate_spec hm ⟨hw, hs⟩ hheld, ?_, ?_⟩
  · intro s h c k t hc ht hst hf hm hw hs who n z s'
    refine ⟨fun hop hn => State.actSync_rvinit_spec hc hop ht hst hf hm ⟨hw, hs⟩ hn, fun hbad => ?_,
      fun hbad _ hop => State.actSync_of_bad hc hbad hop ht hst hf⟩
    obtain ⟨harrive, harriven, hexpect, hpledge, hleave⟩ := State.actSync_of_good (h := h) hc hbad
    exact ⟨harrive, harriven, hexpect, hpledge, fun hop hz => ⟨_, hleave hop, State.rvleave_spec hz⟩⟩
  · intro s h c t g hg hoq hin ht hst hf hm hw hstores hloads hheld hholds hremotes hclaims hafter q elem x data tag pr kt kh here s' is pred
      pushed popped
    have hq : QueueActs s h c t g :=
      { stores := hstores, loads := hloads, held := hheld, rvHolds := hholds, remotes := hremotes, claims := hclaims, wg := hg,
        storage := hoq, inRange := hin, thread := ht, running := hst, noFrame := hf, memOk := hm, waiters := hw, after := hafter }
    refine ⟨fun hop => ⟨fun hh hfree => ?_, fun hh hfull => ?_⟩,
      fun hop => ⟨fun hfree => ⟨fun hh _ => ?_, fun hh hp => ?_⟩, fun hfull => ?_⟩,
      fun hop => ⟨fun hh hfull hgood => ?_, fun hh hfree => ?_⟩,
      fun hop => ⟨fun hfull => ⟨fun hh _ hgood => ?_, fun hh hgood hp => ?_⟩, fun hfree => ?_⟩,
      fun hop => ?_, fun hop k hc => ?_⟩
    · exact hq.push_spec (hq.qpush_of_free hh hop hfree) rfl rfl
    · obtain ⟨hmem, hwg, hwait⟩ := hq.qpush_of_full hh hop hfull
      exact ⟨hmem, hq.qc_of_wg _ hwg, _, hwait, rfl, rfl, rfl⟩
    · exact hq.push_spec (hq.qtrypush_of_free hh hop hfree) (Thread.regs_predWritten ..) rfl
    · exact ⟨_, (hq.qtrypush_of_free hh hop hfree).thread, Thread.pred_predWritten _ _ _ hp⟩
    · have hz := hq.qtrypush_of_full hop hfull
      exact ⟨hz.mem, congrArg (Option.map (·.qc c.p)) hz.wg, hz.waiters, fun hp => ⟨_, hz.thread, Thread.pred_predWritten _ _ _ hp⟩, _, hz.thread,
        (Thread.reg_predWritten ..).trans (Thread.reg_arrived hf ..), rfl⟩
    · exact hq.pop_spec (hq.qpop_of_full hh hop hfull hgood) rfl rfl
    · obtain ⟨hmem, hwg, hwait⟩ := hq.qpop_of_free hh hop hfree
      exact ⟨hmem, hq.qc_of_wg _ hwg, _, hwait, rfl, rfl, rfl, map_reg_popDests ..⟩
    · exact hq.pop_spec (hq.qtrypop_of_full hh hop hfull hgood) (Thread.regs_predWritten ..) rfl
    · exact ⟨_, (hq.qtrypop_of_full hh hop hfull hgood).thread, Thread.pred_predWritten _ _ _ hp⟩
    · have hz := hq.qtrypop_of_free hop hfree
      exact ⟨hz.mem, congrArg (Option.map (·.qc c.p)) hz.wg, hz.waiters, fun hp => ⟨_, hz.thread, Thread.pred_predWritten _ _ _ hp⟩, _, hz.thread,
        Thread.regs_predWritten .., rfl⟩
    · have hz := hq.qlen_spec hop 0
      exact ⟨hz.mem, congrArg (Option.map (·.qc c.p)) hz.wg, _, hz.thread, Thread.reg_arrived hf ..⟩
    · exact hq.qinit_spec hop hc

end Sys2Proof.Machine
end

section
/-! PROOFS. TILE and PLAN instructions when issued (12_matrix.md R208 to R221, 13_plan_tiles.md R225 to R236): the tiles they name, the
alignment of their memory, the place of their block, and the checks that are made at the instruction itself (03_encodings.md R52). -/

namespace Sys2Proof.Machine

variable {s : State} {r : TRef} {t : Thread} {g : Wg} {rd wr tiles : List Nat} {align : Arch → Option FaultInfo}
  {chk : State → TRef → Wg → Cmd → Option FaultInfo} {f : Arch → Cmd} {c : Cmd}

/-! ### Checks by family (R221, R226) -/

/-- The plan checks are those of the operations that the array serves. -/
theorem State.planFault_of_not_onArray (h : c.op.onArray = false) : s.planFault g c = none := by
  unfold State.planFault
  split <;> simp_all [CmdOp.onArray]

/-- The tile checks are those of the operations that the array does not serve, and of MMA. -/
theorem State.tileFault_of_onArray (h : c.op.onArray = true) (hm : c.op ≠ .mma) : s.tileFault r g c [] = none := by
  unfold State.tileFault
  split <;> simp_all [CmdOp.onArray]

/-- What the checks of a command on its tiles find, whichever family it is of. -/
def State.arrayFault (s : State) (r : TRef) (g : Wg) (c : Cmd) : Option FaultInfo :=
  (s.tileFault r g c []).orElse fun _ => s.planFault g c

theorem State.tileCheck_eq_arrayFault (h : c.op.onArray = false) : s.tileCheck r g c = s.arrayFault r g c := by
  rw [State.tileCheck, State.arrayFault, State.planFault_of_not_onArray h]
  cases s.tileFault r g c [] <;> rfl

theorem State.planCheck_eq_arrayFault (h : c.op.onArray = true) (hm : c.op ≠ .mma) : s.planCheck r g c = s.arrayFault r g c := by
  rw [State.planCheck, State.arrayFault, State.tileFault_of_onArray h hm, Option.orElse]

/-- The fault that a command's checks give at the instruction itself (R52). -/
def State.earlyFault (s : State) (r : TRef) (g : Wg) (c : Cmd) : Option FaultInfo :=
  if c.refused || c.op == .tzero then s.arrayFault r g c else none

/-! ### The outcomes of the form -/

/-- The test of a form's tiles, where the workgroup has them all. -/
theorem tiles_any_of_forall_lt (h : ∀ n ∈ tiles, n < g.tiles.length) : (tiles.any fun n => decide (g.tiles.length ≤ n)) = false := by
  simpa using h

/-- REGBOUND comes before the alignment, the block and the checks. -/
theorem tileForm_of_no_tile {blk : Option Nat} (h : Accessing s r t g rd wr .tiles) (hout : ∃ n ∈ tiles, g.tiles.length ≤ n) :
    tileForm { reads := rd, writes := wr } tiles align blk chk f s = .next (faulted s r t .regbound) := by
  have hany : (tiles.any fun n => decide (g.tiles.length ≤ n)) = true := by simpa using hout
  exact (commitForm_eq h).2.1 _ (by simp only [hany, if_true])

/-- ALIGN comes before the block and the checks. -/
theorem tileForm_of_misaligned {blk : Option Nat} {e : FaultInfo} (h : Accessing s r t g rd wr .tiles)
    (hin : ∀ n ∈ tiles, n < g.tiles.length) (he : align t.arch = some e) :
    tileForm { reads := rd, writes := wr } tiles align blk chk f s = .next (s.takeFault r e t.run.count) :=
  (commitForm_eq h).2.1 _ (by simp only [tiles_any_of_forall_lt hin, Bool.false_eq_true, if_false, he])

/-- Tiles and memory that are fit, and no block: a fault of the early checks is taken, and else the command is kept. -/
theorem tileForm_early_outcomes (h : Accessing s r t g rd wr .tiles) (hin : ∀ n ∈ tiles, n < g.tiles.length)
    (ha : align t.arch = none) (hc : { f t.arch with cls := .tiles } = c) (hchk : chk s r g c = s.arrayFault r g c) :
    let x := tileForm { reads := rd, writes := wr } tiles align none chk f s
    (∀ e, s.earlyFault r g c = some e → x = .next (s.takeFault r e t.run.count)) ∧
    (s.earlyFault r g c = none → x = .next (captured s r t c)) := by
  have hany := tiles_any_of_forall_lt hin
  subst hc
  simp only [State.earlyFault]
  refine ⟨fun e he => (commitForm_eq h).2.1 _ ?_, fun he => (commitForm_eq h).1 _ ?_⟩ <;>
    simp only [hany, Bool.false_eq_true, if_false, ha, hchk, he]

/-- A block that cannot be read, one in its ensemble's scratchpad, and one in a lodge (R208, R219). -/
theorem tileForm_block_outcomes {a : Nat} (h : Accessing s r t g [a] wr .tiles) (hin : ∀ n ∈ tiles, n < g.tiles.length) :
    let x := tileForm { reads := [a], writes := wr } tiles noFault (some a) chk f s
    let w := (t.arch.reg a).bits
    (∀ e, s.blockAt r w 64 64 .blockRead = .error e → x = .next (s.takeFault r e t.run.count)) ∧
    (∀ k, s.blockAt r w 64 64 .blockRead = .ok k → (∃ h ∈ s.ensemble g, h.holds k 64 = true) →
      x = .next (captured s r t { f t.arch with cls := .tiles, loc := some (.key k), addr := w.setWidth 64 })) ∧
    (∀ k, s.blockAt r w 64 64 .blockRead = .ok k → (∀ h ∈ s.ensemble g, h.holds k 64 = false) →
      x = .next (s.takeFault r (faultAt .prot (w.setWidth 64) .blockRead true) t.run.count)) := by
  have hany := tiles_any_of_forall_lt hin
  dsimp only
  refine ⟨fun e he => (commitForm_eq h).2.1 _ ?_, fun k hk hheld => (commitForm_eq h).1 _ ?_, fun k hk hnot => (commitForm_eq h).2.1 _ ?_⟩
  · simp only [hany, Bool.false_eq_true, if_false, noFault, he]
  · have hens : ((s.ensemble g).any fun h => h.holds k 64) = true := by simpa using hheld
    simp only [hany, Bool.false_eq_true, if_false, noFault, hk, hens, Bool.not_true]
  · have hens : ((s.ensemble g).any fun h => h.holds k 64) = false := by simpa using hnot
    simp only [hany, Bool.false_eq_true, if_false, noFault, hk, hens, Bool.not_false, if_true]

/-- The base of a tile's memory or its stride is no multiple of the element size (R213). -/
theorem fmtAlign_of_misaligned {q : Arch} {b v : Nat} {k : Access}
    (h : (q.pair b).toNat % fmtSize (q.reg (v + 1)).bits.toNat ≠ 0 ∨ (q.reg v).bits.toNat % fmtSize (q.reg (v + 1)).bits.toNat ≠ 0) :
    fmtAlign b v k q = some (faultAt .align (q.pair b) k (inScratchRange (q.pair b))) := by
  unfold fmtAlign
  by_cases hb : (q.pair b).toNat % fmtSize (q.reg (v + 1)).bits.toNat = 0
  · simp [hb, h.resolve_left (not_not_intro hb)]
  · simp [hb]

theorem fmtAlign_of_aligned {q : Arch} {b v : Nat} {k : Access} (hb : (q.pair b).toNat % fmtSize (q.reg (v + 1)).bits.toNat = 0)
    (hv : (q.reg v).bits.toNat % fmtSize (q.reg (v + 1)).bits.toNat = 0) : fmtAlign b v k q = none := by
  simp [fmtAlign, hb, hv]

/-- Settles O28: the two forms with a block by its place, TLD, TST and PMARG by their alignment, and all but the first two by the checks
of their family. -/
theorem arrayWhenIssued : Obligations.ArrayWhenIssued := by
  unfold Obligations.ArrayWhenIssued
  intro s r t g d a b n va vb vc xa kept op blk mem
  have hblk : ∀ {i : Instr} {tiles wr : List Nat} {f : Arch → Cmd} {c : Cmd},
      exec i s = tileForm { reads := [a], writes := wr } tiles noFault (some a) noCheck f s → f t.arch = { c with dests := wr } →
      blk i tiles wr c := by
    intro i tiles wr f c hi hf h
    have hblock := tileForm_block_outcomes (tiles := tiles) (chk := noCheck) (f := f) h
    simp only [hf] at hblock
    simp only [Captures, hi]
    exact ⟨tileForm_of_no_tile h, hblock⟩
  have hmem : ∀ {i : Instr} {k : Access} {f : Arch → Cmd} {c : Cmd},
      exec i s = tileForm { reads := [a, a + 1, b, b + 1] } [d] (fmtAlign a b k) none State.tileCheck f s → f t.arch = c →
      c.op.onArray = false → mem i k c := by
    intro i k f c hi hf hc h
    have hone : d < n → ∀ x ∈ [d], x < n := fun hd => List.forall_mem_singleton.2 hd
    simp only [kept, Captures, hi]
    exact ⟨fun hd => tileForm_of_no_tile h ⟨d, List.mem_singleton_self d, hd⟩,
      fun hd hmis => tileForm_of_misaligned h (hone hd) (fmtAlign_of_misaligned hmis), fun hd hbase hstride =>
      tileForm_early_outcomes h (hone hd) (fmtAlign_of_aligned hbase hstride) (by rw [hf]) (State.tileCheck_eq_arrayFault hc)⟩
  have hop : ∀ {i : Instr} {tiles rd wr : List Nat} {align : Arch → Option FaultInfo} {chk : State → TRef → Wg → Cmd → Option FaultInfo}
      {f : Arch → Cmd} {c : Cmd}, exec i s = tileForm { reads := rd, writes := wr } tiles align none chk f s → align t.arch = none →
      f t.arch = { c with dests := wr } →
      chk s r g { c with dests := wr, cls := .tiles } = s.arrayFault r g { c with dests := wr, cls := .tiles } →
      op i tiles rd wr c := by
    intro i tiles rd wr align chk f c hi ha hf hchk h
    simp only [kept, Captures, hi]
    exact ⟨tileForm_of_no_tile h, fun hin => tileForm_early_outcomes h hin ha (by rw [hf]) hchk⟩
  have htile : ∀ {c : Cmd}, c.op.onArray = false → s.tileCheck r g c = s.arrayFault r g c := State.tileCheck_eq_arrayFault
  have hplan : ∀ {c : Cmd}, c.op.onArray = true → c.op ≠ .mma → s.planCheck r g c = s.arrayFault r g c := State.planCheck_eq_arrayFault
  refine ⟨hblk (exec_mma ..) rfl, hblk (exec_tgen ..) rfl, hmem (exec_tld ..) rfl rfl, hmem (exec_tst ..) rfl rfl,
    hop (exec_tzero ..) rfl rfl (htile rfl), hop (exec_tcvt ..) rfl rfl (htile rfl), hop (exec_tget ..) rfl rfl (htile rfl),
    hop (exec_tset ..) rfl rfl (htile rfl), hop (exec_tredr ..) rfl rfl (htile rfl), hop (exec_tredc ..) rfl rfl (htile rfl),
    hop (exec_tstat ..) rfl rfl (htile rfl), hop (exec_pform ..) rfl rfl (hplan rfl nofun),
    fun haligned => hop (exec_pmarg ..) (if_neg (not_not_intro haligned)) rfl (hplan rfl nofun),
    fun hmis h hd => (exec_pmarg ..).trans (tileForm_of_misaligned h (List.forall_mem_singleton.2 hd) (if_pos hmis)),
    hop (exec_balance ..) rfl rfl (hplan rfl nofun), hop (exec_pextract ..) rfl rfl (hplan rfl nofun),
    hop (exec_pcost ..) rfl rfl (hplan rfl nofun), hop (exec_pstat ..) rfl rfl (hplan rfl nofun)⟩

end Sys2Proof.Machine
end

section
/-! PROOFS. MAZE, LODGE, TASK, SYS and PRIV instructions when issued (16_maze.md R252, R253, 18_lodges.md R268 to R270, 19_scheduling.md
R295 to R300, 21_faults.md R307, R310 to R313): the checks of their operands, and the command that each keeps. -/

namespace Sys2Proof.Machine

variable {s : State} {r : TRef} {t : Thread} {g : Wg} {rd wr : List Nat} {c : Cmd}

/-! ### MAZE (R252, R253) -/

/-- A MAZE form whose operands have passed their checks takes the fault that its set and its words give, or is kept (R52). -/
theorem commitForm_of_mazeCap {f : TRef → Thread → Wg → State → Cap} {cl : Cls} (h : Accessing s r t g rd wr cl)
    (hf : f r t g s = s.mazeCap g c) :
    let x := commitForm { reads := rd, writes := wr, cls := cl } f s
    (∀ e, s.mazeOwnFault g c = some e → x = .next (s.takeFault r e t.run.count)) ∧
    (s.mazeOwnFault g c = none → x = .next (captured s r t c)) := by
  obtain ⟨hok, hfault, -⟩ := commitForm_eq (f := f) h
  exact ⟨fun e he => hfault e (by rw [hf, State.mazeCap, he]), fun he => hok c (by rw [hf, State.mazeCap, he])⟩

/-- A form on a record: ALIGN of the record's address, then the form's own check of its operands, then the record's place. -/
theorem mazeRecForm_outcomes {x : Nat} {zero : Bool} {pre : Arch → Option FaultInfo} {f : Arch → Cmd}
    (h : Accessing s r t g rd [] .stores) (hz : zero = true → (t.arch.reg x).bits ≠ 0) :
    let w := (t.arch.reg x).bits
    let y := mazeRecForm { reads := rd } x zero pre f s
    (w.toNat % 64 ≠ 0 → y = .next (s.takeFault r (faultAt .align (w.setWidth 64) .store true) t.run.count)) ∧
    (w.toNat % 64 = 0 →
      (∀ e, pre t.arch = some e → y = .next (s.takeFault r e t.run.count)) ∧
      (pre t.arch = none →
        (∀ e, s.recordAt g w = .error e → y = .next (s.takeFault r e t.run.count)) ∧
        ∀ k, s.recordAt g w = .ok k →
          let c := { f t.arch with cls := .stores, loc := some (.key k) }
          (∀ e, s.mazeOwnFault g c = some e → y = .next (s.takeFault r e t.run.count)) ∧
          (s.mazeOwnFault g c = none → y = .next (captured s r t c)))) := by
  have hnot : ¬ (zero = true ∧ (t.arch.reg x).bits = 0) := fun ⟨h1, h0⟩ => hz h1 h0
  refine ⟨fun hw => (commitForm_eq h).2.1 _ ?_, fun hw => ⟨fun e he => (commitForm_eq h).2.1 _ ?_, fun hp =>
    ⟨fun e he => (commitForm_eq h).2.1 _ ?_, fun k hk => commitForm_of_mazeCap h ?_⟩⟩⟩
  · exact (if_neg hnot).trans (if_pos hw)
  · simp only [if_neg hnot, if_neg (not_not_intro hw), he]
  · simp only [if_neg hnot, if_neg (not_not_intro hw), hp, he]
  · simp only [if_neg hnot, if_neg (not_not_intro hw), hp, hk]

/-- MZPOST of no record, which closes its set (R253). -/
theorem execMzpost_of_zero {a b : Nat} (h : Accessing s r t g [a, b, b + 1] [] .stores) (h0 : (t.arch.reg b).bits = 0) :
    let c : Cmd := { op := .mzpost, words := [(t.arch.reg a).bits, (t.arch.reg b).bits, (t.arch.reg (b + 1)).bits], cls := .stores }
    (∀ e, s.mazeOwnFault g c = some e → execMzpost a b s = .next (s.takeFault r e t.run.count)) ∧
    (s.mazeOwnFault g c = none → execMzpost a b s = .next (captured s r t c)) :=
  commitForm_of_mazeCap h (if_pos ⟨rfl, h0⟩)

/-- What MZEFF finds wrong with the address of its effect (R253). -/
def effectFault (x : DWord) : Option FaultInfo :=
  if x.toNat % 4 ≠ 0 then some (faultAt .align x .atomic (inScratchRange x))
  else if !isCanonical x then some (faultAt .xlate x .atomic false) else none

/-- MZEFF's command but for its record. -/
def effectCmd (d a b : Nat) (q : Arch) : Cmd :=
  { op := .mzeff, addr := q.pair d, words := [(q.reg b).bits, (q.reg (b + 1)).bits, (q.reg a).bits] }

theorem execMzeff_eq (d a b : Nat) (s : State) : execMzeff d a b s =
    mazeRecForm { reads := [d, d + 1, a, b, b + 1] } a false (fun q => effectFault (q.pair d)) (effectCmd d a b) s := rfl

theorem effectFault_of_misaligned {x : DWord} (h : x.toNat % 4 ≠ 0) :
    effectFault x = some (faultAt .align x .atomic (inScratchRange x)) := if_pos h

theorem effectFault_of_noncanonical {x : DWord} (h : x.toNat % 4 = 0) (hc : isCanonical x = false) :
    effectFault x = some (faultAt .xlate x .atomic false) :=
  (if_neg (not_not_intro h)).trans (if_pos (by rw [hc]; rfl))

theorem effectFault_of_fit {x : DWord} (h : x.toNat % 4 = 0) (hc : isCanonical x = true) : effectFault x = none :=
  (if_neg (not_not_intro h)).trans (if_neg (by rw [hc]; exact Bool.false_ne_true))

/-- MZEFF on a record at an aligned address: ALIGN or XLATE on the address of the effect (R253). -/
theorem execMzeff_of_unfit {d a b : Nat} (h : Accessing s r t g [d, d + 1, a, b, b + 1] [] .stores)
    (hw : (t.arch.reg a).bits.toNat % 64 = 0) :
    let x := t.arch.pair d
    (x.toNat % 4 ≠ 0 → execMzeff d a b s = .next (s.takeFault r (faultAt .align x .atomic (inScratchRange x)) t.run.count)) ∧
    (x.toNat % 4 = 0 → isCanonical x = false → execMzeff d a b s = .next (s.takeFault r (faultAt .xlate x .atomic false) t.run.count)) := by
  have hz : false = true → (t.arch.reg a).bits ≠ 0 := nofun
  obtain ⟨-, hunfit⟩ := mazeRecForm_outcomes (pre := fun q => effectFault (q.pair d)) (f := effectCmd d a b) h hz
  rw [execMzeff_eq]
  exact ⟨fun hmis => (hunfit hw).1 _ (effectFault_of_misaligned hmis),
    fun hal hcan => (hunfit hw).1 _ (effectFault_of_noncanonical hal hcan)⟩

/-- A form that waits at its set's queue stalls where the wait table has no room (R157). -/
theorem commitForm_of_mazeWait {d : Nat} (h : Accessing s r t g rd [d] .loads) {f : Thread → Cmd} :
    let x := commitForm { reads := rd, writes := [d], cls := .loads } (fun r t g s =>
      if !(s.monitorRoom (s.coreOf r) 1) then .wait else s.mazeCap g (f t)) s
    (s.monitorRoom (s.coreOf r) 1 = false → x = .next (s.stallRun r t)) ∧
    (s.monitorRoom (s.coreOf r) 1 = true →
      (∀ e, s.mazeOwnFault g (f t) = some e → x = .next (s.takeFault r e t.run.count)) ∧
      (s.mazeOwnFault g (f t) = none → x = .next (captured s r t (f t)))) := by
  refine ⟨fun hroom => (commitForm_eq h).2.2 ?_, fun hroom => commitForm_of_mazeCap h ?_⟩
  · simp only [hroom, Bool.not_false, if_true]
  · simp only [hroom, Bool.not_true, Bool.false_eq_true, if_false]

/-- MZSTAT waits for nothing. -/
theorem execMzstat_outcomes {d a b : Nat} (h : Accessing s r t g [a, b] [d] .loads) :
    let c : Cmd := { op := .mzstat, d := d, words := [(t.arch.reg a).bits, (t.arch.reg b).bits], dests := [d], cls := .loads }
    (∀ e, s.mazeOwnFault g c = some e → execMzstat d a b s = .next (s.takeFault r e t.run.count)) ∧
    (s.mazeOwnFault g c = none → execMzstat d a b s = .next (captured s r t c)) :=
  commitForm_of_mazeCap h rfl

/-- MZDECL reads its block (R239). -/
theorem execMzdecl_outcomes {d a : Nat} (h : Accessing s r t g [a] [d] .loads) :
    let w := (t.arch.reg a).bits
    (∀ f, s.blockAt r w 64 64 .blockRead = .error f → execMzdecl d a s = .next (s.takeFault r f t.run.count)) ∧
    (∀ k, s.blockAt r w 64 64 .blockRead = .ok k → execMzdecl d a s = .next (captured s r t
      { op := .mzdecl, d := d, loc := some (.key k), addr := w.setWidth 64, dests := [d], cls := .loads })) := by
  refine ⟨fun f hf => (commitForm_eq h).2.1 _ ?_, fun k hk => (commitForm_eq h).1 _ ?_⟩
  · simp only [hf]
  · simp only [hk]

/-! ### LODGE (R268 to R270) -/

/-- A LODGE form counts each register that it writes, and takes OPERAND where its size or its target is out of its range. -/
theorem lodgeForm_outcomes {op : CmdOp} {d : Nat} {bad : Arch → Bool} (h : Accessing s r t g rd wr .loads wr.length) :
    (bad t.arch = true → lodgeForm op d rd wr bad s = .next (s.takeFault r (lodgeCode 7) t.run.count)) ∧
    (bad t.arch = false → lodgeForm op d rd wr bad s = .next (captured s r t
      { op := op, d := d, words := rd.map fun x => (t.arch.reg x).bits, dests := wr, cls := .loads })) := by
  let u : Use := { reads := rd, writes := wr, cls := .loads, counts := wr.length }
  refine ⟨fun hbad => commitForm_of_fault (u := u) h rfl rfl nofun rfl rfl ?_,
    fun hgood => commitForm_of_ok (u := u) h rfl rfl nofun rfl rfl rfl ?_⟩
  · simp only [hbad, if_true]
  · simp only [hgood, Bool.false_eq_true, if_false]

theorem badSize_eq (b : Nat) (q : Arch) : badSize b q = decide ((q.reg b).bits = 0 ∨ 64 < (q.reg b).bits.toNat) := by
  have hzero : ((q.reg b).bits.toNat == 0) = decide ((q.reg b).bits = 0) := by
    rw [Bool.eq_iff_iff, beq_iff_eq, decide_eq_true_eq, BitVec.toNat_eq]
    rfl
  rw [badSize, hzero, Bool.decide_or]

/-! ### TASK (R295 to R300) -/

/-- LAUNCH names one of 16 queues, and its packet can be read (R296). -/
theorem execLaunch_outcomes {d a b : Nat} (h : Accessing s r t g [a, b] [d] .loads) :
    let w := (t.arch.reg a).bits
    let v := (t.arch.reg b).bits
    (∀ f, s.blockAt r w 128 128 .blockRead = .error f → execLaunch d a b s = .next (s.takeFault r f t.run.count)) ∧
    (∀ k, s.blockAt r w 128 128 .blockRead = .ok k → s.mayScratch g k 128 = true →
      (15 < v.toNat → execLaunch d a b s = .next (faulted s r t .queue)) ∧
      (v.toNat ≤ 15 → execLaunch d a b s = .next (captured s r t
        { op := .launch, d := d, words := [v], loc := some (.key k), dests := [d], cls := .loads }))) := by
  refine ⟨fun f hf => (commitForm_eq h).2.1 _ ?_, fun k hk hm => ⟨fun hv => (commitForm_eq h).2.1 _ ?_,
    fun hv => (commitForm_eq h).1 _ ?_⟩⟩
  · simp only [hf]
  · simp only [hk, hm, Bool.not_true, Bool.and_false, Bool.false_eq_true, if_false, if_pos hv]
  · simp only [hk, hm, Bool.not_true, Bool.and_false, Bool.false_eq_true, if_false, if_neg (Nat.not_lt.2 hv)]

/-- SIGNAL names a queue, one of three operations, and nothing else (R297). -/
theorem execSignal_outcomes {d a b : Nat} (h : Accessing s r t g [a, b] [d] .loads) :
    let w := (t.arch.reg a).bits
    (2 ^ 18 ≤ w.toNat ∨ w.toNat / 2 ^ 16 % 4 = 3 → execSignal d a b s = .next (faulted s r t .queue)) ∧
    (w.toNat < 3 * 2 ^ 16 → execSignal d a b s = .next (captured s r t
      { op := .signal, d := d, words := [w, (t.arch.reg b).bits], dests := [d], cls := .loads })) := by
  intro w
  refine ⟨fun hbad => (commitForm_eq h).2.1 _ (if_pos ?_), fun hgood => (commitForm_eq h).1 _ (if_neg ?_)⟩
  · change w.toNat / 2 ^ 18 ≠ 0 ∨ w.toNat / 2 ^ 16 % 4 = 3
    omega
  · change ¬ (w.toNat / 2 ^ 18 ≠ 0 ∨ w.toNat / 2 ^ 16 % 4 = 3)
    omega

/-- CONT is permitted in a persistent launch with a task area alone (R298). -/
def State.mayCont (s : State) (r : TRef) (g : Wg) : Bool :=
  g.persist && match s.launchOf r with
    | some l => l.pkt.tasks != 0
    | none => false

/-- The condition on the kind of a wait holds for each of the three kinds. -/
theorem and_lt_three_of_lt {p m : Bool} {v : Nat} (hv : v < 3) : (p && decide (v < 3) && m) = (p && m) := by
  rw [decide_eq_true hv, Bool.and_true]

theorem and_lt_three_of_le {p m : Bool} {v : Nat} (hv : 3 ≤ v) : (p && decide (v < 3) && m) = false := by
  rw [decide_eq_false (Nat.not_lt.2 hv), Bool.and_false, Bool.false_and]

/-- CONT that waits on a word checks its address as a load's, one that waits on a signal does not, and no other is allowed (R298). -/
theorem execCont_outcomes {a b : Nat} (h : Accessing s r t g [a, a + 1, b, b + 1] [] .none) :
    let v := (t.arch.reg (b + 1)).bits
    let x := t.arch.pair a
    let cont := fun (l : Option Loc) => ({ op := .cont, words := [(t.arch.reg b).bits, v], addr := x, loc := l } : Cmd)
    let ends := fun (l : Option Loc) =>
      (s.mayCont r g = true → execCont a b s = .next (captured s r t (cont l))) ∧
      (s.mayCont r g = false → execCont a b s = .next (faulted s r t .queue))
    (v.toNat < 2 →
      (∀ f, s.reach r x 4 .load none false = .fault f → execCont a b s = .next (s.takeFault r f t.run.count)) ∧
      (s.reach r x 4 .load none false = .miss → execCont a b s = .next (s.startWalk r x .load)) ∧
      ∀ l, s.reach r x 4 .load none false = .ok l → ends (some l)) ∧
    (v.toNat = 2 → ends none) ∧
    (3 ≤ v.toNat → 2 ≤ v.toNat % 4 → execCont a b s = .next (faulted s r t .queue)) := by
  refine ⟨fun hv => ?_, fun hv => ?_, fun hv hlow => ?_⟩
  · have hlow : (t.arch.reg (b + 1)).bits.toNat % 4 < 2 := by omega
    have hlt : (t.arch.reg (b + 1)).bits.toNat < 3 := by omega
    refine ⟨fun f hf => (commitForm_eq h).2.1 _ ((if_pos hlow).trans ?_), fun hf => ?_, fun l hf =>
      ⟨fun hmay => (commitForm_eq h).1 _ ((if_pos hlow).trans ?_), fun hmay => (commitForm_eq h).2.1 _ ((if_pos hlow).trans ?_)⟩⟩
    · simp only [hf]
    · exact commitForm_of_miss (u := { reads := [a, a + 1, b, b + 1] }) h rfl rfl nofun rfl rfl (by simp only [if_pos hlow, hf])
    · simp only [hf]
      exact if_pos ((and_lt_three_of_lt hlt).trans hmay)
    · simp only [hf]
      exact if_neg (ne_true_of_eq_false ((and_lt_three_of_lt hlt).trans hmay))
  · have hhigh : ¬ (t.arch.reg (b + 1)).bits.toNat % 4 < 2 := by omega
    have hlt : (t.arch.reg (b + 1)).bits.toNat < 3 := by omega
    exact ⟨fun hmay => (commitForm_eq h).1 _ ((if_neg hhigh).trans (if_pos ((and_lt_three_of_lt hlt).trans hmay))),
      fun hmay => (commitForm_eq h).2.1 _ ((if_neg hhigh).trans (if_neg (ne_true_of_eq_false ((and_lt_three_of_lt hlt).trans hmay))))⟩
  · exact (commitForm_eq h).2.1 _ ((if_neg (Nat.not_lt.2 hlow)).trans (if_neg (ne_true_of_eq_false (and_lt_three_of_le hv))))

/-- TAKE: PRIV comes before QUEUE (R299). -/
theorem execTake_outcomes {d a : Nat} (h : Accessing s r t g [a] [] .none) :
    let w := (t.arch.reg a).bits
    (w.getLsbD 1 = true → t.arch.sup = false → execTake d a s = .next (faulted s r t .priv)) ∧
    ((w.getLsbD 1 = true → t.arch.sup = true) →
      (w.toNat < 4 → (w.getLsbD 1 = false → g.persist = true) →
        execTake d a s = .next (captured s r t { op := .take, d := d, words := [w] })) ∧
      (4 ≤ w.toNat ∨ (w.getLsbD 1 = false ∧ g.persist = false) → execTake d a s = .next (faulted s r t .queue))) := by
  intro w
  refine ⟨fun hb hs => (commitForm_eq h).2.1 _ (if_pos ?_), fun hmode => ?_⟩
  · change (w.getLsbD 1 && !t.arch.sup) = true
    rw [hb, hs]
    rfl
  · have hpriv : ¬ (w.getLsbD 1 && !t.arch.sup) = true := by simpa using hmode
    have hwide : w.toNat / 4 ≠ 0 ↔ 4 ≤ w.toNat := by omega
    refine ⟨fun hw hp => (commitForm_eq h).1 _ ((if_neg hpriv).trans (if_neg ?_)), fun hbad =>
      (commitForm_eq h).2.1 _ ((if_neg hpriv).trans (if_pos ?_))⟩
    · rw [hwide]
      rintro (hge | ⟨hb, hq⟩)
      · omega
      · exact absurd ((hp hb).symm.trans hq) nofun
    · rwa [hwide]

/-- IDEM.BEGIN checks its restart address where the workgroup may restart (R300). -/
theorem execIdemBegin_outcomes {a : Nat} (h : Accessing s r t g [a, a + 1] [] .none) :
    let x := t.arch.pair a
    let kept := execIdemBegin a s = .next (captured s r t { op := .idemBegin, addr := x })
    (g.idemok = false → kept) ∧
    (g.idemok = true → x.getLsbD 0 = true → execIdemBegin a s = .next (s.takeFault r (faultAt .align x .fetch false) t.run.count)) ∧
    (∀ lo hi s1 s2, g.idemok = true → x.getLsbD 0 = false → s.fetchUnit r x = .ok lo s1 → s.fetchUnit r (x + 2) = .ok hi s2 →
      (isLpad lo.toNat hi.toNat 0 = true → kept) ∧
      (isLpad lo.toNat hi.toNat 0 = false → execIdemBegin a s = .next (faulted s r t .cfi))) := by
  refine ⟨fun hi => (commitForm_eq h).1 _ ?_, fun hi hx => (commitForm_eq h).2.1 _ ?_, fun lo hi s1 s2 hok hx hlo hhi =>
    ⟨fun hl => (commitForm_eq h).1 _ ?_, fun hl => (commitForm_eq h).2.1 _ ?_⟩⟩
  · simp only [hi, Bool.not_false, if_true]
  · simp only [hi, hx, Bool.not_true, Bool.false_eq_true, if_false, if_true]
  · simp only [hok, hx, hlo, hhi, hl, Bool.not_true, Bool.false_eq_true, if_false, if_true]
  · simp only [hok, hx, hlo, hhi, hl, Bool.not_true, Bool.false_eq_true, if_false]

/-! ### SYS and PRIV (R307, R310 to R313) -/

/-- A committing instruction that checks nothing is kept. -/
theorem commitForm_of_plain {cl : Cls} (h : Accessing s r t g rd wr cl) :
    commitForm { reads := rd, writes := wr, cls := cl } (fun _ _ _ _ => .ok c) s = .next (captured s r t c) :=
  (commitForm_eq h).1 c rfl

/-- A PRIV instruction in supervisor mode is kept (R310). -/
theorem privForm_of_sup {cl : Cls} {f : Arch → Cmd} (h : Accessing s r t g rd wr cl) (hs : t.arch.sup = true) :
    privForm { reads := rd, writes := wr, cls := cl } f s = .next (captured s r t (f t.arch)) :=
  commitForm_of_ok (u := { reads := rd, writes := wr, cls := cl, priv := true }) h rfl rfl (fun _ => hs) rfl rfl rfl rfl

/-- The registers that a control register's number makes an instruction read (R30, R310). -/
theorem cregIndexed_ite (n : Nat) (x y : List Nat) :
    (if cregIndexed n = true then x else y) = if n = 0x03 ∨ n = 0x1E then x else y := by
  simp [cregIndexed]

theorem execCwrite_of_sup {d a n : Nat} (h : Accessing s r t g (if n = 0x03 ∨ n = 0x1E then [a, d] else [d]) []
    (if n = 0x1D then .stores else .none)) (hs : t.arch.sup = true) : execCwrite d a n s = .next (captured s r t
      { op := .cwrite n, words := [(t.arch.reg a).bits, (t.arch.reg d).bits], cls := if n = 0x1D then .stores else .none }) := by
  rw [← cregIndexed_ite] at h
  unfold execCwrite
  exact privForm_of_sup h hs

/-- Settles O29: the forms on a record by their operands and the record's place, those that wait by the room of the wait table, the LODGE
forms by their size or target, and the others each by its own checks. -/
theorem mazeLodgeAndSystemWhenIssued : Obligations.MazeLodgeAndSystemWhenIssued := by
  unfold Obligations.MazeLodgeAndSystemWhenIssued
  constructor
  · intro s r t g d a b va vb vc xd kept rec' lodge room loads
    have hrec : ∀ {i : Instr} {rd : List Nat} {x : Nat} {zero : Bool} {pre : Arch → Option FaultInfo} {f : Arch → Cmd},
        exec i s = mazeRecForm { reads := rd } x zero pre f s → pre t.arch = none → (zero = true → (t.arch.reg x).bits ≠ 0) →
        rec' i rd (t.arch.reg x).bits (f t.arch) := by
      intro i rd x zero pre f hi hp hz h
      obtain ⟨hmis, hal⟩ := mazeRecForm_outcomes (pre := pre) (f := f) h hz
      simp only [kept, Captures, hi]
      exact ⟨hmis, fun hw => (hal hw).2 hp⟩
    have hlodge : ∀ {i : Instr} {op : CmdOp} {rd wr : List Nat} {bad : Arch → Bool},
        exec i s = lodgeForm op d rd wr bad s → lodge i op rd wr (bad t.arch) := by
      intro i op rd wr bad hi h
      simp only [Captures, hi]
      exact lodgeForm_outcomes h
    have hwait : ∀ {i : Instr} {rd : List Nat} {f : Thread → Cmd} {c : Cmd},
        exec i s = commitForm { reads := rd, writes := [d], cls := .loads } (fun r t g s =>
          if !(s.monitorRoom (s.coreOf r) 1) then .wait else s.mazeCap g (f t)) s →
        f t = { c with d := d, dests := [d], cls := .loads } → c.op ≠ .mzstat → loads i rd c := by
      intro i rd f c hi hf hop h
      obtain ⟨hstall, hgo⟩ := commitForm_of_mazeWait (f := f) h
      simp only [kept, Captures, hi, ← hf]
      exact ⟨fun hroom _ => hstall hroom, fun hroom => hgo (hroom.resolve_right hop)⟩
    refine ⟨execMzdecl_outcomes, fun hne => hrec (exec_mzpost ..) rfl fun _ => hne, fun h0 h => execMzpost_of_zero h h0,
      hrec (exec_mzdonePass ..) rfl nofun, hrec (exec_mzdoneDrop ..) rfl nofun,
      fun hal hcan => hrec (f := effectCmd d a b) ((exec_mzeff ..).trans (execMzeff_eq ..)) (effectFault_of_fit hal hcan) nofun,
      execMzeff_of_unfit, hwait (exec_mztake ..) rfl nofun, hwait (exec_mzsink ..) rfl nofun,
      fun h => ⟨fun _ hne => absurd rfl hne, fun _ => execMzstat_outcomes h⟩, ?_, ?_,
      hlodge (exec_lopen ..), hlodge (exec_lhand ..), hlodge (exec_ldrop ..), hlodge (exec_linfo ..)⟩
    · exact badSize_eq b t.arch ▸ hlodge (exec_lcreate ..)
    · exact badSize_eq b t.arch ▸ hlodge (exec_lcreateM ..)
  · intro s r t g d a b n va vb vc vd xa cont may
    have hplain : ∀ {i : Instr} {c : Cmd}, exec i s = commitForm {} (fun _ _ _ _ => .ok c) s → Accessing s r t g [] [] .none →
        Captures i s r t c := fun hi h => hi.trans (commitForm_of_plain h)
    have hpriv : ∀ {i : Instr} {rd wr : List Nat} {cl : Cls} {f : Arch → Cmd}, t.arch.sup = true →
        exec i s = privForm { reads := rd, writes := wr, cls := cl } f s → Accessing s r t g rd wr cl → Captures i s r t (f t.arch) :=
      fun hsup hi h => hi.trans (privForm_of_sup h hsup)
    refine ⟨fun h => ?_, execCont_outcomes, fun h => ?_, execIdemBegin_outcomes,
      fun h => ⟨hplain (exec_idemEnd ..) h, hplain (exec_trap ..) h, hplain (exec_bkpt ..) h⟩, fun hsup => ⟨fun h => ?_, fun h => ?_,
      hpriv hsup (exec_haltwg ..), fun h => ⟨hpriv hsup (exec_traprd ..) h, hpriv hsup (exec_resume ..) h, hpriv hsup (exec_kill ..) h⟩,
      hpriv hsup (exec_trapwr ..)⟩⟩
    · obtain ⟨hplace, hlaunch⟩ := execLaunch_outcomes h
      obtain ⟨hbad, hsignal⟩ := execSignal_outcomes h
      exact ⟨hplace, hlaunch, hbad, hsignal⟩
    · obtain ⟨huser, htake⟩ := execTake_outcomes (d := d) h
      exact ⟨huser, fun hw hmode hp => (htake hmode).1 hw hp, fun hmode => (htake hmode).2⟩
    · rw [← cregIndexed_ite] at h
      exact hpriv hsup (exec_cread ..) h
    · exact (exec_cwrite ..).trans (execCwrite_of_sup h hsup)

end Sys2Proof.Machine
end

section
/-! PROOFS. Maze records and lodges as their units step (16_maze.md R246, R247, 18_lodges.md R261, R262, R266, R267, 25_system.md R378):
what a set's unit does with its held and its complete records, and where a lodge's bytes are after a move and after a rebuild. -/

namespace Sys2Proof

/-! ### Ranges of bytes zeroed and copied -/

theorem Memory.read_zero_of_in {m : Memory} {a n i : Nat} (hlo : a ≤ i) (hhi : i < a + n) :
    Memory.read (Memory.zero m a n) i = 0 := by
  cases hv : alook i (Memory.zero m a n) with
  | none => simp [Memory.read, hv]
  | some v =>
    have hin := List.of_mem_filter (Machine.mem_of_alook hv)
    simp [hlo, hhi] at hin

theorem Memory.read_zero_of_out {m : Memory} {a n i : Nat} (h : Memory.wf m) (hi : i < a ∨ a + n ≤ i) :
    Memory.read (Memory.zero m a n) i = Memory.read m i := by
  have hkept : (!(decide (a ≤ i) && decide (i < a + n))) = true := by
    simp only [Bool.not_eq_true', Bool.and_eq_false_iff, decide_eq_false_iff_not]
    omega
  rw [Memory.read, Memory.zero, Machine.alook_filter h.1 fun _ => hkept, Memory.read]

namespace Machine

/-- The cells of a copied range at their new keys. -/
def copiedCells (m : Memory) (src dst n : Nat) : List (Nat × Byte) :=
  (m.filter fun c => decide (src ≤ c.1) && decide (c.1 < src + n)).map fun c => (dst + (c.1 - src), c.2)

theorem Memory.copyRange_eq (m : Memory) (src dst n : Nat) :
    Memory.copyRange m src dst n = putBytes (m.zero dst n) (copiedCells m src dst n) := by
  rw [Memory.copyRange, putBytes, copiedCells, List.foldl_map]

/-- A cell of the copy is one of the range. -/
theorem mem_copiedCells {m : Memory} {src dst n k : Nat} {v : Byte} :
    (k, v) ∈ copiedCells m src dst n ↔ ∃ i < n, k = dst + i ∧ (src + i, v) ∈ m := by
  simp only [copiedCells, List.mem_map, List.mem_filter, Bool.and_eq_true, decide_eq_true_eq, Prod.mk.injEq]
  constructor
  · rintro ⟨c, ⟨hc, hlo, hhi⟩, rfl, rfl⟩
    exact ⟨c.1 - src, by omega, rfl, by rwa [Nat.add_sub_cancel' hlo]⟩
  · rintro ⟨i, hi, rfl, hm⟩
    exact ⟨_, ⟨hm, by omega, by omega⟩, by omega, rfl⟩

/-- A byte of the copy is that of the range, also where that was 0. -/
theorem Memory.read_copyRange {m : Memory} {src dst n i : Nat} (h : Memory.wf m) (hi : i < n) :
    Memory.read (Memory.copyRange m src dst n) (dst + i) = Memory.read m (src + i) := by
  rw [Memory.copyRange_eq]
  have hcell : ∀ {v : Byte}, (dst + i, v) ∈ copiedCells m src dst n → alook (src + i) m = some v := by
    intro v hv
    obtain ⟨j, -, hj, hm⟩ := mem_copiedCells.1 hv
    obtain rfl : i = j := by omega
    exact alook_of_mem h.1 hm
  cases hv : alook (src + i) m with
  | some v =>
    have hread : Memory.read m (src + i) = v := by rw [Memory.read, hv, Option.getD_some]
    rw [hread]
    refine read_putBytes_of_mem (Memory.wf_zero dst n h) (mem_copiedCells.2 ⟨i, hi, rfl, mem_of_alook hv⟩) fun b hb hk => ?_
    obtain ⟨k, w⟩ := b
    obtain rfl : k = dst + i := hk
    exact Option.some.inj ((hcell hb).symm.trans hv)
  | none =>
    have hread : Memory.read m (src + i) = 0 := by rw [Memory.read, hv, Option.getD_none]
    rw [hread, read_putBytes_of_notMem _ (Memory.wf_zero dst n h), Memory.read_zero_of_in (by omega) (by omega)]
    rintro ⟨k, w⟩ hb rfl
    exact absurd ((hcell hb).symm.trans hv) nofun

/-- A copy changes no byte out of its destination. -/
theorem Memory.read_copyRange_of_out {m : Memory} {src dst n i : Nat} (h : Memory.wf m) (hi : i < dst ∨ dst + n ≤ i) :
    Memory.read (Memory.copyRange m src dst n) i = Memory.read m i := by
  rw [Memory.copyRange_eq, read_putBytes_of_notMem _ (Memory.wf_zero dst n h), Memory.read_zero_of_out h hi]
  rintro ⟨k, w⟩ hb rfl
  obtain ⟨j, hj, rfl, -⟩ := mem_copiedCells.1 hb
  omega

theorem Memory.copyRange_zero (m : Memory) (src dst : Nat) : Memory.copyRange m src dst 0 = m := by
  have hzero : m.zero dst 0 = m := by
    refine List.filter_eq_self.2 fun c _ => ?_
    simp only [Bool.not_eq_true', Bool.and_eq_false_iff, decide_eq_false_iff_not]
    omega
  have hnone : copiedCells m src dst 0 = [] := List.eq_nil_iff_forall_not_mem.2 fun ⟨_, _⟩ hb => by
    obtain ⟨i, hi, -⟩ := mem_copiedCells.1 hb
    omega
  rw [Memory.copyRange_eq, hzero, hnone, putBytes, List.foldl_nil]

/-- A range of bytes that moves to one that it does not meet: its bytes are at their new place, the old ones are 0, and no other
changes. -/
theorem Memory.read_moved {m : Memory} {src dst n : Nat} (h : Memory.wf m) (hd : src + n ≤ dst ∨ dst + n ≤ src) :
    let y := (Memory.copyRange m src dst n).zero src n
    (∀ i < n, Memory.read y (dst + i) = Memory.read m (src + i)) ∧ (∀ i < n, Memory.read y (src + i) = 0) ∧
    ∀ a, (a < src ∨ src + n ≤ a) → (a < dst ∨ dst + n ≤ a) → Memory.read y a = Memory.read m a := by
  have hcopy := wf_copyRange src dst n h
  refine ⟨fun i hi => ?_, fun i hi => Memory.read_zero_of_in (by omega) (by omega), fun a hs hdst => ?_⟩
  · rw [Memory.read_zero_of_out hcopy (by omega), Memory.read_copyRange h hi]
  · rw [Memory.read_zero_of_out hcopy hs, Memory.read_copyRange_of_out h hdst]

variable {s : State}

/-! ### Maze records (R246, R247) -/

section maze

variable {clus num : Nat} {m : MazeSet} {r : MazeRec} {rest : List MazeRec}

theorem State.mazeClaimed_of_noClaims (h : s.claims = []) (m : MazeSet) (rs : List MazeRec) : s.mazeClaimed m rs = false := by
  simp [State.mazeClaimed, h]

variable (hm : s.maze clus num = some m)
include hm

/-- A set that is paused, or of which a word is claimed, routes nothing (R155, R255). -/
theorem execMazeHeldReroute_of_waits (h : s.mazePaused m = true ∨ s.mazeClaimed m m.heldRecs = true) :
    execMazeHeldReroute clus num s = .next s := by
  simp only [execMazeHeldReroute, hm, Bool.or_eq_true, if_pos h]

/-- Another set's held records are routed in their order, and what waits at its queues is served. -/
theorem execMazeHeldReroute_of_goes (hp : s.mazePaused m = false) (hc : s.mazeClaimed m m.heldRecs = false) :
    execMazeHeldReroute clus num s = .next ((forEach (fun s r => s.mazeRoute clus num r)
      (s.modMaze clus num fun x => { x with heldRecs := [] }) m.heldRecs).mazeServe clus num) := by
  simp only [execMazeHeldReroute, State.mazeHeld, hm, hp, hc, Bool.or_self, Bool.false_eq_true, if_false]

theorem execMazeRecordComplete_of_none (h : m.completing = []) : execMazeRecordComplete clus num s = .next s := by
  simp only [execMazeRecordComplete, hm, h]

/-- The oldest complete record leaves the set where its bytes are no more the ensemble's (R378, log entry 53). -/
theorem execMazeRecordComplete_of_lost (h : m.completing = r :: rest) (ho : s.mazeOwns m r.key 64 = false) :
    execMazeRecordComplete clus num s = .next (s.modMaze clus num fun x => { x with completing := rest, todo := none }) := by
  simp only [execMazeRecordComplete, hm, h, ho, Bool.not_false, if_true]

/-- It waits where the sink has no room, the set is paused, or a word of it is claimed. -/
theorem execMazeRecordComplete_of_waits (h : m.completing = r :: rest) (ho : s.mazeOwns m r.key 64 = true)
    (hw : s.mazePaused m = true ∨ s.mazeRoom m m.sink = false ∨ s.mazeClaimed m [r] = true) :
    execMazeRecordComplete clus num s = .next s := by
  have hstop : (!(s.mazeRoom m m.sink) || s.mazePaused m || s.mazeClaimed m [r]) = true := by
    rcases hw with hw | hw | hw <;> simp [hw]
  simp only [execMazeRecordComplete, hm, h, ho, hstop, Bool.not_true, Bool.false_eq_true, if_false, if_true]

/-- One that has no effect left to apply is pushed to the sink, as a release (R247, R254). -/
theorem execMazeRecordComplete_of_sinks (h : m.completing = r :: rest) (ho : s.mazeOwns m r.key 64 = true)
    (hp : s.mazePaused m = false) (hr : s.mazeRoom m m.sink = true) (hc : s.mazeClaimed m [r] = false)
    (ht : m.todo.getD (s.effectOrder m r.key) = []) :
    execMazeRecordComplete clus num s = .next (((((s.releaseAt m.core (scopeOfCode m.scope)).modMaze clus num fun x =>
      { x with completing := rest, sunk := x.sunk + 1, todo := none }).mazePush clus num 16 r).mazeServe clus num)) := by
  simp only [execMazeRecordComplete, hm, h, ho, hp, hr, hc, ht, State.mazeEffects, Bool.not_true, Bool.or_self, Bool.false_eq_true,
    if_false, List.isEmpty_nil]

end maze

/-! ### Lodges (R261, R262, R266, R267) -/

/-- Where no instruction waits in the directory, none is applied again. -/
theorem State.lodgeRetry_of_none (h : s.lodgeWaits = []) (id : Nat) : s.lodgeRetry id = s := by
  rw [State.lodgeRetry, h]
  simp only [List.filter_nil, forEach, List.foldl_nil]
  rw [← h]

theorem State.mem_lodges_modLodge {l : Lodge} (h : l ∈ s.lodges) (f : Lodge → Lodge) : f l ∈ (s.modLodge l.id f).lodges :=
  List.mem_map.2 ⟨l, h, if_pos rfl⟩

/-- Where none is to be cancelled, the pending moves stay. -/
theorem State.cancelMoves_of_none (h : ∀ x ∈ s.lodges, s.mayCancel x = false) : s.cancelMoves = s := by
  refine List.foldlRecOn s.lodges _ (motive := fun z => z = s) rfl fun z hz x hx => ?_
  subst hz
  exact if_neg (by rw [h x hx]; exact Bool.false_ne_true)

/-- The one lodge's move is cancelled. -/
theorem State.cancelMoves_of_one {l : Lodge} (h : s.lodges = [l]) (hc : s.mayCancel l = true) (hw : s.lodgeWaits = []) :
    s.cancelMoves = s.modLodge l.id fun x => { x with st := .live, pend := .none } := by
  rw [State.cancelMoves, h]
  simp only [forEach, List.foldl_cons, List.foldl_nil, hc, if_true]
  exact State.lodgeRetry_of_none (s := s.modLodge l.id _) hw l.id

theorem execLodgeMoveStart_of_cancelled {l : Lodge} (h : s.lodges = [l]) (hc : s.mayCancel l = true) (hw : s.lodgeWaits = []) :
    execLodgeMoveStart l.part l.name s = .next (s.modLodge l.id fun x => { x with st := .live, pend := .none }) := by
  rw [execLodgeMoveStart, State.cancelMoves_of_one h hc hw]
  simp [State.modLodge, h, LodgePend.target]

/-- A placement move of a quiet lodge starts where its core has room for it (R262). -/
theorem execLodgeMoveStart_of_room {l : Lodge} {p core off slot : Nat} {name : DWord} (hno : ∀ x ∈ s.lodges, s.mayCancel x = false)
    (hf : s.lodges.find? (fun x => x.part == p && x.name == name && x.pend.target.isSome) = some l) (hp : l.pend = .place core)
    (hr : l.running = none) (hq : s.lodgeQuiet l none = true) (ho : s.lodgeRun l.part core l.pages false = some off)
    (hs : s.lodgeSlot core = some slot) : execLodgeMoveStart p name s =
      .next ((s.modLodge l.id fun x => { x with st := .moving, running := some (core, off, slot) }).refuseWaits l.key l.bytes) := by
  rw [execLodgeMoveStart, State.cancelMoves_of_none hno]
  have htarget : l.pend.target = some (core, none, false) := by rw [hp]; rfl
  simp only [hf, State.startMove, htarget, hr, hq, ho, hs, Option.isSome_none, Bool.or_true, Bool.not_true, Bool.false_eq_true, or_self,
    if_false]

/-- A lodge that is LIVE at a place. -/
def Lodge.liveAt (l : Lodge) (core off slot gen : Nat) : Lodge :=
  { l with st := .live, core := core, off := off, slot := slot, gen := gen, pend := .none, running := none }

/-- A placement move ends: the bytes have moved, the lodge is LIVE at its new place, and the waiters follow it (R261, R262). -/
theorem State.endMove_of_place {l : Lodge} {c core off slot : Nat} (hp : l.pend = .place c) (hr : l.running = some (core, off, slot))
    (hw : s.lodgeWaits = []) :
    let z := (s.moveRange l.key (kScratch core off) l.bytes).moveRv l.key (kScratch core off) l.bytes
    let gen := s.nextGen core slot l.gen
    s.endMove l = ((z.setGen core slot gen).modLodge l.id fun _ => l.liveAt core off slot gen).followLodge l core := by
  rw [State.endMove, hr]
  simp only [hp]
  exact State.lodgeRetry_of_none (by exact hw) l.id

/-- LODGE_MOVE_COMPLETE of a placement move: the lodge and its bytes are at their new place, and no byte of another place changes. -/
theorem execLodgeMoveComplete_of_place {l : Lodge} {p c core off slot : Nat} {name : DWord} (hm : MemOk s) (hl : l ∈ s.lodges)
    (hw : s.lodgeWaits = []) (hf : s.lodges.find? (fun x => x.part == p && x.name == name && x.running.isSome) = some l)
    (hp : l.pend = .place c) (hr : l.running = some (core, off, slot))
    (hd : l.key + l.bytes ≤ kScratch core off ∨ kScratch core off + l.bytes ≤ l.key) :
    ∃ s', execLodgeMoveComplete p name s = .next s' ∧ l.liveAt core off slot (s.nextGen core slot l.gen) ∈ s'.lodges ∧
      (∀ i < l.bytes, s'.mem.read (kScratch core off + i) = s.mem.read (l.key + i)) ∧
      (∀ i < l.bytes, s'.mem.read (l.key + i) = 0) ∧
      ∀ a, (a < l.key ∨ l.key + l.bytes ≤ a) → (a < kScratch core off ∨ kScratch core off + l.bytes ≤ a) →
        s'.mem.read a = s.mem.read a := by
  refine ⟨s.endMove l, by simp only [execLodgeMoveComplete, hf], ?_⟩
  rw [State.endMove_of_place hp hr hw]
  exact ⟨State.mem_lodges_modLodge (s := ((s.moveRange ..).moveRv ..).setGen ..) hl fun _ => _, Memory.read_moved hm hd⟩

/-- The bytes that a rebuild takes from the parts of a mirror: those of the first part alone, for a lodge of at most 64 KiB. -/
theorem foldl_copyRange_of_small {n : Nat} (hn : n ≤ 65536) (dst k : Nat) (ks : List Nat) (m : Memory) :
    (k :: ks).zipIdx.foldl (fun m x => Memory.copyRange m x.1 (dst + x.2 * 65536) (min 65536 (n - x.2 * 65536))) m =
      Memory.copyRange m k dst n := by
  rw [List.zipIdx_cons, List.foldl_cons, Nat.zero_mul, Nat.add_zero, Nat.sub_zero, Nat.min_eq_right hn]
  refine List.foldlRecOn _ _ (motive := fun y => y = Memory.copyRange m k dst n) rfl fun y hy x hx => ?_
  have hpos : 0 + 1 ≤ x.2 := (List.mk_mem_zipIdx_iff_le_and_getElem?_sub.1 hx).1
  rw [show min 65536 (n - x.2 * 65536) = 0 by omega, Memory.copyRange_zero, hy]

/-- LODGE_REBUILD of a lodge of at most 64 KiB: it is LIVE on the core of its refuge with the bytes of its mirror (R266). -/
theorem execLodgeRebuild_of_small {l : Lodge} {p core off slot i k : Nat} {name : DWord} {rest : List Nat} (hm : MemOk s)
    (hl : l ∈ s.lodges) (hw : s.lodgeWaits = []) (hf : s.lodge p name = some l) (hst : l.st = .rebuild) (hn : l.bytes ≤ 65536)
    (hmir : l.mirror = some i) (hks : s.mirrorParts p i = some (k :: rest)) (href : s.refuge l false = some core)
    (ho : s.lodgeRun p core l.pages false = some off) (hs : s.lodgeSlot core = some slot)
    (hd : k + l.bytes ≤ kScratch core off ∨ kScratch core off + l.bytes ≤ k) :
    ∃ s', execLodgeRebuild p name s = .next s' ∧
      { l.liveAt core off slot (s.nextGen core slot l.gen) with dirty := false } ∈ s'.lodges ∧
      ∀ i < l.bytes, s'.mem.read (kScratch core off + i) = s.mem.read (k + i) := by
  have hks' : l.mirror.bind (s.mirrorParts p) = some (k :: rest) := by rw [hmir, Option.bind_some, hks]
  simp only [execLodgeRebuild, hf, hst, ne_eq, not_true_eq_false, if_false, href, hks', ho, hs, foldl_copyRange_of_small hn]
  refine ⟨_, rfl, ?_⟩
  rw [State.lodgeRetry_of_none (by exact hw)]
  have hwipe : Memory.wf (s.wipe (kScratch core off) l.bytes).mem := Memory.wf_zero _ _ hm
  refine ⟨State.mem_lodges_modLodge (s := State.setGen { s.wipe _ _ with mem := _ } ..) hl _, fun i hi => ?_⟩
  exact (Memory.read_copyRange hwipe hi).trans (Memory.read_zero_of_out hm (by omega))

/-- LODGE_MIRROR_COPY of a lodge in its place: the mirror is written, or event 9 names its slot (R267, R394). -/
theorem execLodgeMirrorCopy_outcomes {l : Lodge} {p : Nat} {name : DWord} (hf : s.lodge p name = some l) (hp : l.placed = true) :
    (∀ s', s.mirrorCopy l = some s' → execLodgeMirrorCopy p name s = .next s') ∧
    (∀ i, l.mirror = some i → s.mirrorCopy l = none → execLodgeMirrorCopy p name s =
      .next (s.postMissing p ((s.part p).mirbase + BitVec.ofNat 64 (i * 2 ^ 18)) 2)) := by
  constructor
  · intro s' hc
    simp only [execLodgeMirrorCopy, hf, hp, hc, Bool.not_true, Bool.false_eq_true, if_false]
  · intro i hi hc
    simp only [execLodgeMirrorCopy, hf, hp, hc, hi, Bool.not_true, Bool.false_eq_true, if_false]

/-- PATIENCE_EXPIRY of a waiter whose patience has passed (R261). -/
theorem execPatienceExpiry_of_due {l : Lodge} {i w pat : Nat} {x : Launch} {a : AffWait} (hx : s.launch i = some x)
    (ha : s.waitOf i w = some a) (hg : s.governing x w = some (l, pat)) (he : a.expired = false) (hp : pat ≠ 2 ^ 32 - 1)
    (hdue : a.since + pat ≤ s.clock) : execPatienceExpiry i w s = .next (({ s with affWaits := s.affWaits.map fun y =>
      if y = a then { a with expired := true } else y } : State).arrangeMove { a with expired := true }) := by
  have hgo : ¬ (a.expired = true ∨ pat = 2 ^ 32 - 1 ∨ s.clock < a.since + pat) := by
    rw [he]
    rintro (h | h | h)
    · exact nomatch h
    · exact hp h
    · omega
  simp only [execPatienceExpiry, ha, hx, hg, if_neg hgo]

/-- Settles O49: the steps of a set's unit by the state of the set, and those of the directory by the state of the lodge. -/
theorem mazeAndLodgesRun : Obligations.MazeAndLodgesRun := by
  unfold Obligations.MazeAndLodgesRun
  constructor
  · intro s clus num m hm
    refine ⟨fun hp => execMazeHeldReroute_of_waits hm (.inl hp), execMazeRecordComplete_of_none hm,
      fun r rest => execMazeRecordComplete_of_waits hm, fun r rest => execMazeRecordComplete_of_lost hm,
      fun hc => execMazeHeldReroute_of_waits hm (.inr hc), fun hp hc => ?_⟩
    have hreroute := execMazeHeldReroute_of_goes hm hp (State.mazeClaimed_of_noClaims hc m m.heldRecs)
    refine ⟨fun hh => ?_, fun r hh => ?_, fun r rest hcomp hown hroom htodo =>
      execMazeRecordComplete_of_sinks hm hcomp hown hp hroom (State.mazeClaimed_of_noClaims hc m [r]) htodo⟩ <;>
    · rw [hh] at hreroute
      exact hreroute
  · intro s l hm _ hl hw
    refine ⟨fun hone hc => execLodgeMoveStart_of_cancelled hone hc hw,
      fun core off slot hno hf hp hr hq ho hs => execLodgeMoveStart_of_room hno hf hp hr hq ho hs,
      fun core off slot hf hp hr hd => ?_, fun core off slot i k hf hst hn hmir hks href ho hs hd => ?_,
      execLodgeMirrorCopy_outcomes, fun w pat x a => execPatienceExpiry_of_due⟩
    · obtain ⟨s', hexec, hin, hbytes⟩ := execLodgeMoveComplete_of_place hm hl hw hf hp hr hd
      exact ⟨s', _, hexec, hin, rfl, rfl, rfl, rfl, rfl, rfl, rfl, hbytes⟩
    · obtain ⟨rest, hks⟩ := hks
      obtain ⟨s', hexec, hin, hbytes⟩ := execLodgeRebuild_of_small hm hl hw hf hst hn hmir hks href ho hs hd
      exact ⟨s', _, hexec, hin, rfl, rfl, rfl, rfl, hbytes⟩

end Machine
end Sys2Proof
end
